-- ==== Sys2Proof/Word.lean ====
section
/-! DEFINITION. The words of the device: bytes, register words, epochs and times. -/

namespace Sys2Proof

/-- A byte. -/
abbrev Byte := BitVec 8

/-- A 32-bit register word (R601). -/
abbrev Word := BitVec 32

/-- An epoch number, modulo 2^32 (R21, R22). -/
abbrev Epoch := BitVec 32

/-- A 64-bit value: a digest, a Q16.16 product, a Cut List sequence number. -/
abbrev DWord := BitVec 64

/-- A time in nanoseconds of the PTP time base (R21). -/
abbrev Ns := Nat

end Sys2Proof
end

