-- ==== Sys2Proof/Syntax.lean ====
section
/-! DEFINITION. The commands the block takes: one constructor of `Instr` per row of spec/opcode_table.json, with the operands
that come from outside the block (who writes, what arrives on a link, which unit an event names). An operand of type `Nat`
that numbers a unit (a port, a link, a tile) is checked by `WellFormed`; the times are nanoseconds of the PTP time base.
What the device itself fixes (an epoch, a deadline, a result it computes) is no operand. -/

namespace Sys2Proof

/-- The access path of a register access (Table 22-2). -/
inductive Source where
  /-- Sheaz, a partition; TAG and CONF of the frame that carried it (R478). -/
  | sheaz (partition : Nat) (tag conf : Bool)
  /-- The Tenon maintenance channel (R509). -/
  | tenon
  /-- JTAG (R606). -/
  | jtag
  /-- The management processor itself. -/
  | mgmt
deriving DecidableEq, Repr

/-- The fields of a received Sheaz frame that the receive steps of Table 16-6 judge. `tagOk` says whether the tag
authenticates under the session key, `tagOldOk` whether it does under the previous key (R454). -/
structure Frame where
  /-- Port the frame arrived on. -/
  port : Nat
  /-- Step 1: FCS and length, and the SecTAG and ICV of a MACsec port, hold. -/
  linkOk : Bool
  /-- Step 3: the header is well formed and its length matches. -/
  headerOk : Bool
  /-- Step 4: VLAN, host and device addresses match the partition's record. -/
  addrOk : Bool
  /-- TYPE of Table 16-5; 256 for a frame that is not Sheaz (R446). -/
  ty : Nat
  /-- Partition field of the header. -/
  partition : Nat
  /-- Stream ID field. -/
  stream : Nat
  /-- Epoch field. -/
  epoch : Epoch
  /-- Sequence field. -/
  seq : Word
  /-- The 32 bytes of the Sheaz header as received. -/
  header : List Byte
  /-- Bytes the frame took on the wire. -/
  wire : Nat
  /-- FLAGS: TAG, CONF, ROLL as one field. -/
  flags : Nat
  /-- Whole payload, most significant byte first where fields are wider (R10). -/
  payload : List Byte
  tagOk : Bool
  tagOldOk : Bool
deriving DecidableEq, Repr

/-- An error as it is detected (R528 to R530): its zone, its class and mechanism, its syndrome and its repeat outcome. -/
structure ErrorInfo where
  /-- Unit class of Table 19-1; 11 stands for "outside every zone" (R528). -/
  zone : Nat
  /-- Unit index of Table 19-1. -/
  index : Nat
  /-- Error class: 0 CORRECTED, 1 CONTAINED, 2 SUSPECT, 3 FATAL (R529). -/
  cls : Nat
  /-- Mechanism of Table 19-2. -/
  mech : Nat
  /-- Syndrome bytes of Table 19-7. -/
  syndrome : List Byte
  /-- Repeat outcome: 0 none, 1 clean, 2 failed, 3 replay passed, 4 replay failed. -/
  outcome : Nat
  /-- The panel (layer and panel) that a World Cache error leaves without any good copy (R154). -/
  panel : Option (Nat × Nat) := none
deriving DecidableEq, Repr

/-- One offered or merged ordering entry: score pattern, candidate ID and the two payload words of Table 10-2. -/
structure Entry where
  score : Word
  id : Word
  w2 : Word
  w3 : Word
deriving DecidableEq, Repr

/-- A Tenon flit as the receiver sees it (Tables 17-1 and 17-2): whether its FEC codeword is correctable and its CRC holds,
and its header fields. -/
structure Flit where
  codewordOk : Bool
  /-- Its codeword was corrected. -/
  corrected : Bool
  crcOk : Bool
  ty : Nat
  vc : Nat
  seq : Nat
  ack : Nat
  pool : Nat
  count : Nat
  /-- FLAGS, bits 10..0. -/
  flags : Nat
deriving DecidableEq, Repr

/-- A Tenon message put together from its flits (R491): the link it came in on, the fields of its route header, whether its
CRC or dowel holds, whether EPOCH agrees with the flits' EPOCH_LO, its SPEC and RESENT flags, and its body. -/
structure Message where
  link : Nat
  dest : Nat
  source : Nat
  epoch : Epoch
  intact : Bool
  agrees : Bool
  speculative : Bool
  resent : Bool
  body : List Byte
deriving DecidableEq, Repr

/-- A device as an ENUM_REPLY reports it (R493): its number, strapped role and pair side, and its links in use: link, peer
number, use (0 TREE, 1 CROSS, 2 PAIR) and measured latency in ps. -/
structure ChainDev where
  number : Nat
  role : Nat
  pair : Nat
  links : List (Nat × Nat × Nat × Nat)
deriving DecidableEq, Repr

/-- What the head sends a device after enumeration (R494, R496): its number and position, C, N, the tail, its link towards
the tail, the links CONFIRM comes from, the links that lead away from the head, its routes by device, the device number of
each position, the worst path in ns, and the failure code of R496. -/
structure Placement where
  number : Nat
  position : Nat
  active : Nat
  count : Nat
  tail : Nat
  down : Option Nat
  feeders : List Nat
  away : List Nat
  routes : List (Nat × Nat)
  numbers : List Nat
  worst : Nat
  fail : Nat
deriving DecidableEq, Repr

/-- What a start finds on the way (Table 21-4): whether the lockstep tests of step 5, the die record check of step 6, the PUF
and the certificate of step 7 and the self-test of step 13 hold; the units that fail their BIST at steps 8, 9 and 12, by class and
index of Table 19-1, a bank of ledger group g being class 12, index g; and
whether 802.1AS synchronisation came within 50 ms at step 15, with the difference it found in ns. -/
structure BootReport where
  lockstepOk : Bool
  dieOk : Bool
  pufOk : Bool
  certOk : Bool
  islandOk : Bool
  failed : List (Nat × Nat)
  synced : Option Int
deriving DecidableEq, Repr

/-- What a task is: the task of a stage with its canonical index (Table 13-2), an unordered task of a stage, a Guest job
task of a partition, or a test slice with its declared worst-case duration in us (R369). -/
inductive TaskKind where
  | stage (id index : Nat)
  | unordered (id : Nat)
  | job (partition : Nat)
  | slice (w : Nat)
deriving DecidableEq, Repr

/-- What a running task does at a yield point: it reaches a plain one, `swept` of its candidates being complete (R208, R357),
or a wait point with its mask, or it asks for a delay (R352, R353). -/
inductive Yield where
  | plain (swept : Nat)
  | wait (mask : Word) (all : Bool)
  | delay (tick : Word)
deriving DecidableEq, Repr

/-- How the handling of a dowel mismatch went (Table 9-7): the re-read matched; the recompute or restore matched; neither. -/
inductive DowelEnd where
  | reread
  | restored
  | failed
deriving DecidableEq, Repr

/-- How a recovery re-solve ended (R317). -/
inductive Diag where
  | infeasible (stage pivot : Nat)
  | other
  | abandoned
deriving DecidableEq, Repr

/-- A command of the block: one row of the opcode table. -/
inductive Instr where
  -- The frame (chapter 1)
  /-- The frame of number `k` starts at FRAME_ORIGIN + k * T_frame (R21). -/
  | frameStart (k : Nat)
  /-- The servo corrects the PTP time base by `delta` nanoseconds (R24). -/
  | ptpCorrection (delta : Int)
  | syncLoss
  /-- Synchronisation returns; `delta` is the whole difference from the grandmaster (R24). -/
  | syncReturn (delta : Int)
  | admissionClose
  | searchDeadline
  | pathReserveDeadline
  | remoteListDeadline
  | verdictTime
  | verdict
  | commit
  | spSwapPulseEnd
  -- Registers and configuration (chapters 2, 3, 16, 22)
  | registerWrite (src : Source) (addr : Nat) (value : Word)
  | epochCommit (src : Source)
  | mgmtRead (f : Frame) (t : Nat)
  | mgmtWrite (f : Frame) (t : Nat)
  /-- One source of the bulk section of a type delivers its data, or cannot be read (none). -/
  | bulkFetchDone (ty : Nat) (data : Option (List Byte))
  | pushTimeout
  | configChunk (f : Frame) (t : Nat)
  | slotOpen (src : Source)
  /-- The write of the word at 0x1FFC of the window. -/
  | slotDataBlock (src : Source) (value : Word)
  | slotBlockProgrammed (chestOk : Bool)
  | slotClose (src : Source)
  | slotCloseVerified (chestOk : Bool)
  | slotAbort (src : Source)
  | structSwitch (src : Source)
  | switchPrepared
  | hold (src : Source)
  | resume (src : Source)
  | switchCancel (src : Source)
  | drainFrameEnd
  | reloadDone (t : Nat)
  | quiesceRequest (src : Source) (mask : Nat)
  | blockQuiesced (block : Nat)
  -- The world (chapter 5)
  | worldUpdate (f : Frame) (t : Nat)
  | panelFinal (layer panel : Nat)
  | distancePanelDone (layer panel : Nat)
  -- Tasks (chapter 13)
  /-- The agent of a tile creates a task with its wait mask. -/
  | taskCreate (tile : Nat) (kind : TaskKind) (speculative : Bool) (waitMask : Word) (waitAnd : Bool)
  | flagToken (tile desc : Nat) (value : Word)
  | tick
  /-- A thread of the reserve of stage `reserve` (0 the pool) frees. -/
  | taskDispatch (tile reserve thread : Nat)
  | taskYield (tile desc : Nat) (why : Yield)
  | taskComplete (tile desc : Nat)
  | depthAnnounce
  | taskOffer (tile desc : Nat)
  | sliceAbort (tile : Nat)
  | panelReadDone (tile desc layer panel bank : Nat) (fromHbm : Bool)
  -- The ledger (chapter 8)
  | ledgerTransition
  | ledgerClose
  | ledgerRebuild
  | ledgerRebuildCmd (src : Source)
  | searchStart (speculative : Bool)
  | searchPhaseEnd (speculative : Bool)
  | searchEnd (speculative : Bool)
  -- Propose (chapter 9)
  | dowelMismatch (tile : Nat) (constant readable : Bool) (outcome : DowelEnd)
  | checksumMiss (tile : Nat) (repeatOk : Bool) (spare : Option Nat) (replayOk : Bool)
  -- Selection (chapter 10)
  | mergeStart
  | mergeDone
  /-- `clean`: the repeated merge passed (R298). -/
  | orderError (mech : Nat) (clean : Bool)
  | fallbackMergeDone
  -- Refinement (chapter 11)
  | referenceArrival
  | solverIteration
  | solverStopTime
  /-- Refine returns `t` ns after the frame start; `differ`: the two runs of R319 differ in some bit. -/
  | refineReturn (t : Nat) (differ : Bool)
  | solverEngineError (mech : Nat)
  | diagResolveDone (result : Diag)
  | finalSweepDone
  -- The safety channel and the Setpoint Port (chapters 14 and 15)
  | gridUpdate
  | precheck
  | precheckDone
  | verifyHandover
  /-- `fallback`: the check of F(C), otherwise of C. -/
  | trySquareCheckDone (fallback : Bool)
  | warmRestartDone
  | islandTableGeneration
  /-- `again`: the repeat failed too (R411). -/
  | lockstepMismatch (again : Bool)
  | checkerClockDeviation
  | wdInTimeout
  | safeEnter (src : Source)
  | resetNFall
  | strapCapture (straps : Nat)
  /-- SP_ALE falls with the address on SP_AD; then SP_OE_N falls. `edge`: 0 before a swap, 1 after it, 2 within 2 ns of it (R430). -/
  | busRead (address : Nat) (csLow oeLow : Bool) (edge : Nat)
  | wakePin (pin : Nat) (level : Bool)
  -- Sheaz over Ethernet (chapter 16)
  | arpNdRequest (port : Nat) (ipv6 : Bool) (target sender : List Byte)
  | attestReq (f : Frame) (t : Nat)
  | attestRollKey (f : Frame) (t : Nat)
  | oldKeyExpiry (partition : Nat)
  | jobSweep (f : Frame) (t : Nat)
  | jobSearch (f : Frame) (t : Nat)
  | jobRefine (f : Frame) (t : Nat)
  | jobCancel (f : Frame) (t : Nat)
  | jobFragmentTimeout (partition jobId : Nat)
  | jobStart (partition jobId : Nat)
  | jobEnd (partition jobId : Nat)
  | jobMaxMs (partition jobId : Nat)
  | jobCheckpoint (partition jobId : Nat)
  | wakeFrame (f : Frame)
  | macsecInstall (src : Source) (port : Nat) (value : Word)
  | traceFrameSend (t : Nat)
  | faultRecordSend (t : Nat)
  -- Tenon links (chapter 17)
  | flitReceive (link : Nat) (flit : Flit)
  | nak (link ack : Nat)
  | replayTimeout (link : Nat)
  | idleFlitTimer (link : Nat)
  | linkRetrain (link : Nat)
  | retrainTokenRetry (link : Nat)
  | linkTrained (link latencyPs : Nat)
  | linkLoss (link : Nat)
  | blockMessage (m : Message)
  | recordMessage (m : Message)
  | worldMessage (m : Message) (t : Nat)
  /-- A KIND 1 message: an offer of number `next` from device `source` of a pair side, or, with `place`, what the head sends
  after enumeration (R493, R494). -/
  | enum (link source next side : Nat) (place : Option Placement)
  /-- `status`: 0 ACCEPTED, 1 KNOWN, 2 PAIR_HEAD, 3 refused; `next` the number the replier's subtree has reached, `peer` its
  own, and `devices` those of its subtree, itself first. -/
  | enumReply (link status next peer : Nat) (devices : List ChainDev)
  /-- Part of the upstream device's slot, in order; with no data, the device at the other end asks for this device's. -/
  | imageDistribution (link : Nat) (data : List Byte)
  | confirm (link : Nat) (epoch : Epoch)
  | squashToken (link : Nat) (epoch : Epoch) (cause : Nat)
  | clamp (link target : Nat)
  | clampDone (source : Nat) (residual : Int) (refused : Bool)
  | timeToken (link value : Nat) (holdover : Bool)
  | timeTokenTimer
  | digestToken (link : Nat) (epoch : Epoch) (frame world : Nat) (deadlineHit sideB : Bool) (t : Nat)
  | pairDigestTimeout (epoch : Epoch)
  | tenonClampCmd (src : Source)
  | tenonEnumerateCmd (src : Source)
  /-- `count`: the field COUNT of the write, words minus 1. -/
  | remoteRead (src : Source) (count : Nat)
  | remoteWrite (src : Source) (count : Nat)
  | remoteRequest (link source : Nat) (write : Bool) (addr count : Nat) (values : List Word)
  | remoteResponse (source status fail : Nat) (values : List Word)
  | wakeKnock (link : Nat)
  | knockRepeat (link : Nat)
  -- Digests, capture and replay (chapter 18)
  | checkpoint (src : Source)
  | replayMain (src : Source)
  | replayFull (src : Source)
  | replayEpoch (stages : List Nat) (frame : Nat) (provenance : List Byte)
  | replayAbort (src : Source)
  | capClear (src : Source)
  -- Faults and maintenance (chapter 19)
  | errorDetected (e : ErrorInfo)
  | errorHandled (outcome test : Nat)
  | replayCompare (tile desc : Nat) (equal : Bool)
  | fieldTestDue (cls idx : Nat)
  | faultTestCmd (src : Source) (value : Word)
  | testSliceDone (cls idx : Nat) (pass : Bool)
  | testDeferLimit (cls idx : Nat)
  | hbmScrub (stack : Nat)
  | ledgerScrub (group : Nat)
  | clockTrim
  -- Power, clocks and sleep (chapter 20)
  | nap (src : Source)
  | sleep (src : Source)
  | sleepCancel (src : Source)
  | autoEntry
  | entryWindowEnd
  | energyDetect (port : Nat)
  | anyFrameWake (port : Nat)
  | aonAlarm
  | thermalAlarm
  | wake
  | wakeDone
  | leaseTick
  | idleEntry (island : Nat)
  | idleWake (island : Nat)
  | dozeEntry (tile : Nat)
  | dozeWake (tile : Nat)
  | throttleStepDown (cause : Nat)
  | throttleStepUp
  | voutSettleTimeout
  | pmbAlert (status : Word)
  | currentCalibration (iout : Nat)
  | hbmHot (stack temp : Nat)
  | railFault (rail : Nat)
  | aonUndervoltage
  -- Boot, identity and debug (chapters 21 and 22)
  | coldStart (found : BootReport)
  | bootWarm (src : Source)
  | bootCold (src : Source)
  | bootRetry (src : Source)
  | bootLoad (src : Source)
  | keyEnrol (src : Source)
  | keyRevoke (src : Source)
  | debugChallenge (src : Source)
  | debugRespond (src : Source)
  | regaccRead (address : Nat)
  | regaccWrite (address : Nat) (value : Word)
  | i2cRead
  | i2cWrite
  | resetNRise
  | wdInChange
  | ethLinkChange (port : Nat) (up : Bool)
  | receiveDiscard (f : Frame)
  | jobSubmitFragment (f : Frame) (t : Nat)
  | slotEraseDone (chestOk : Bool)
  | warmRestartTimeout
  | retirementClear (cls idx : Nat)
deriving DecidableEq, Repr

end Sys2Proof
end

