-- ==== Sys2Proof/Decode.lean ====
section
/-! DEFINITION. The command a word spells. The opcode table of this block gives its rows no bits (every row's list of fields
is empty), so no word spells a command. -/

namespace Sys2Proof

/-- The command spelled by the word `w` of `nbits` bits: none, for no row of the table has bits. -/
def decodeTableWord (_nbits _w : Nat) : Option Instr := none

end Sys2Proof
end

