-- ==== Sys2Proof/Machine/Arith.lean ====
section
/-! DEFINITION. Numbers and bytes: field extraction, byte order (R10, R39), epochs (R22), CRC-64/XZ, Q16.16 (R119, R120),
FP32 and the conversions of Table 4-5. -/

namespace Sys2Proof.Machine

/-! ## Bytes -/

/-- Byte `i` of a byte string; beyond its end 0. -/
def byteAt (b : List Byte) (i : Nat) : Nat := ((b[i]?).getD 0).toNat

/-- Unsigned integer of `n` bytes at offset `o`, least significant byte first (R10, R39). -/
def le (b : List Byte) (o : Nat) : Nat → Nat
  | 0 => 0
  | n + 1 => byteAt b o + 256 * le b (o + 1) n

/-- 16-bit field at `o`. -/
def u16 (b : List Byte) (o : Nat) : Nat := le b o 2

/-- 32-bit field at `o`. -/
def u32 (b : List Byte) (o : Nat) : Nat := le b o 4

/-- 64-bit field at `o`. -/
def u64 (b : List Byte) (o : Nat) : Nat := le b o 8

/-- Two's complement reading of a `w`-bit unsigned value. -/
def signed (w v : Nat) : Int := if v % 2 ^ w < 2 ^ (w - 1) then (v % 2 ^ w : Int) else (v % 2 ^ w : Int) - 2 ^ w

/-- The `w`-bit two's complement pattern of an integer. -/
def pattern (w : Nat) (x : Int) : Nat := (x % (2 ^ w : Int)).toNat

/-- Bit `i` of a natural number. -/
def bitOf (v i : Nat) : Bool := (v / 2 ^ i) % 2 == 1

/-- `w` bits of `v` from bit `lo`. -/
def bits (v lo w : Nat) : Nat := (v / 2 ^ lo) % 2 ^ w

/-- A Bool as a bit. -/
def bit (b : Bool) : Nat := if b then 1 else 0

/-- `n` bytes of `v`, least significant first (R10). -/
def leBytes (v : Nat) : Nat → List Byte
  | 0 => []
  | n + 1 => BitVec.ofNat 8 v :: leBytes (v / 256) n

/-- `n` bytes of `v`, most significant first (R10, frames and flit headers). -/
def beBytes (v n : Nat) : List Byte := (leBytes v n).reverse

/-- Unsigned integer of a byte string, most significant byte first (R10). -/
def be (b : List Byte) : Nat := b.foldl (fun a x => 256 * a + x.toNat) 0

/-- True when `n` bytes from `o` are all 0. -/
def zeroAt (b : List Byte) (o n : Nat) : Bool := ((b.drop o).take n).all (· == 0)

/-- Next multiple of 8 (R40). -/
def align8 (n : Nat) : Nat := (n + 7) / 8 * 8

/-- Quotient rounded up. -/
def ceilDiv (a b : Nat) : Nat := (a + b - 1) / b

/-- Number of bits set among the low `n` bits. -/
def popCount (v : Nat) : Nat → Nat
  | 0 => 0
  | n + 1 => bit (bitOf v n) + popCount v n

/-! ## Epochs -/

/-- Epoch `a` is later than epoch `b` when (a - b) mod 2^32 lies in 1 .. 2^31 - 1 (R22). -/
def epochLater (a b : Epoch) : Bool := let d := (a - b).toNat; decide (1 ≤ d ∧ d < 2 ^ 31)

/-! ## CRC-64/XZ -/

/-- One shift of the reflected CRC-64/XZ register. -/
def crc64Shift (c : DWord) : DWord :=
  if c &&& 1 = 1 then (c >>> 1) ^^^ 0xC96C5795D7870F42#64 else c >>> 1

/-- One byte into the CRC-64/XZ register. -/
def crc64Byte (c : DWord) (b : Byte) : DWord :=
  let s := c ^^^ b.zeroExtend 64
  crc64Shift (crc64Shift (crc64Shift (crc64Shift (crc64Shift (crc64Shift (crc64Shift (crc64Shift s)))))))

/-- CRC-64/XZ of a byte string (R42, R44, R267, R511). -/
def crc64 (bs : List Byte) : DWord := ~~~ (bs.foldl crc64Byte (~~~ 0#64))

/-! ## Exact rounding -/

/-- Integer part of a fraction, rounded to nearest, ties to even (R106). -/
def roundHalfEven (num : Int) (den : Nat) : Int :=
  let q := num / (den : Int)
  let r := num % (den : Int)
  if 2 * r < den then q else if 2 * r > den then q + 1 else if q % 2 = 0 then q else q + 1

/-- Quotient of two integers rounded toward zero. -/
def truncDiv (a b : Int) : Int := Int.tdiv a b

/-! ## Q16.16 -/

/-- A Q16.16 computation's value with the SATURATED flag of R120. -/
structure Q where
  v : Int
  sat : Bool
deriving DecidableEq, Repr

/-- Largest Q16.16 integer (R103). -/
def qMax : Int := 2 ^ 31 - 1
/-- Smallest Q16.16 integer (R103). -/
def qMin : Int := -2 ^ 31

/-- Saturation to the range of R103, flagged (R119, R120). -/
def qSat (x : Int) : Q := if x > qMax then ⟨qMax, true⟩ else if x < qMin then ⟨qMin, true⟩ else ⟨x, false⟩

/-- Q16.16 addition (R119). -/
def qAdd (a b : Int) : Q := qSat (a + b)
/-- Q16.16 subtraction (R119). -/
def qSub (a b : Int) : Q := qSat (a - b)
/-- Q16.16 multiplication: the exact product rounded to nearest-even at bit 16, then saturated (R119). -/
def qMul (a b : Int) : Q := qSat (roundHalfEven (a * b) 65536)
/-- Q16.16 division: toward zero, saturating; by 0 it saturates by the dividend's sign and counts as a saturation (R119). -/
def qDiv (a b : Int) : Q :=
  if b = 0 then ⟨if a < 0 then qMin else qMax, true⟩ else qSat (truncDiv (a * 65536) b)

/-- Lift of a two-operand Q16.16 operation that keeps the flag (R120). -/
def Q.op (f : Int → Int → Q) (a b : Q) : Q := let r := f a.v b.v; ⟨r.v, a.sat || b.sat || r.sat⟩

/-- An exact Q16.16 constant. -/
def Q.of (x : Int) : Q := ⟨x, false⟩

/-! ## FP32 -/

/-- An FP32 value read as sign, significand and exponent: (-1)^neg * m * 2^e, or infinity, or NaN (Table 4-1). -/
inductive F32 where
  | fin (neg : Bool) (m : Nat) (e : Int)
  | inf (neg : Bool)
  | nan
deriving DecidableEq, Repr

/-- Reading of an FP32 bit pattern; subnormals kept (R109). -/
def f32 (w : Word) : F32 :=
  let n := w.toNat
  let s := bitOf n 31
  let e := bits n 23 8
  let f := bits n 0 23
  if e = 255 then (if f = 0 then .inf s else .nan)
  else if e = 0 then .fin s f (-149) else .fin s (f + 2 ^ 23) ((e : Int) - 150)

/-- True for a finite FP32 pattern. -/
def f32Finite (w : Word) : Bool := match f32 w with
  | .fin _ _ _ => true
  | _ => false

/-- A finite value as a fraction with a power of two below. -/
def F32.frac : F32 → Option (Int × Nat)
  | .fin s m e =>
    let a : Int := if s then -(m : Int) else m
    if 0 ≤ e then some (a * 2 ^ e.toNat, 1) else some (a, 2 ^ (-e).toNat)
  | _ => none

/-- Rounding of the positive fraction num/den to FP32, nearest-even, subnormals kept, overflow to infinity (R106, R112). -/
def f32RoundPos (num den : Nat) : Nat :=
  if num = 0 then 0
  else
    -- exponent e with 2^e ≤ num/den < 2^(e+1)
    let e0 : Int := (num.log2 : Int) - (den.log2 : Int)
    let ge (e : Int) : Bool := if 0 ≤ e then decide (den * 2 ^ e.toNat ≤ num) else decide (den ≤ num * 2 ^ (-e).toNat)
    let e := if ge e0 then e0 else e0 - 1
    let ulp : Int := if e < -126 then -149 else e - 23
    let m : Int := if 0 ≤ ulp then roundHalfEven num (den * 2 ^ ulp.toNat)
      else roundHalfEven ((num : Int) * 2 ^ (-ulp).toNat) den
    -- the pattern is monotone, so a carry out of the significand steps the exponent field
    let base : Int := if e < -126 then 0 else (e + 127) * 2 ^ 23 - 2 ^ 23
    let p : Int := base + m
    if p ≥ 255 * 2 ^ 23 then 255 * 2 ^ 23 else p.toNat

/-- Rounding of a signed fraction to FP32; a zero result takes the sign `zneg` (R106, R111). -/
def f32Round (num : Int) (den : Nat) (zneg : Bool) : Word :=
  let s := if num = 0 then zneg else decide (num < 0)
  BitVec.ofNat 32 (f32RoundPos num.natAbs den + if s then 2 ^ 31 else 0)

/-- The default NaN of FP32 (Table 4-4). -/
def f32Nan : Word := 0x7FC00000#32

/-- Quieting of a NaN pattern (R111). -/
def f32Quiet (w : Word) : Word := w ||| 0x00400000#32

/-- A NaN operand's quieted pattern, first operand first (R111). -/
def f32NanOf (a b : Word) : Option Word :=
  if f32 a = .nan then some (f32Quiet a) else if f32 b = .nan then some (f32Quiet b) else none

/-- Sign bit of an FP32 pattern. -/
def f32Neg? (w : Word) : Bool := bitOf w.toNat 31

/-- Negation: the sign bit flipped. -/
def f32Neg (w : Word) : Word := w ^^^ 0x80000000#32

/-- Magnitude: the sign bit cleared. -/
def f32Abs (w : Word) : Word := w &&& 0x7FFFFFFF#32

/-- FP32 infinity of a sign. -/
def f32Inf (s : Bool) : Word := if s then 0xFF800000#32 else 0x7F800000#32

/-- FP32 addition, nearest-even (R106, R111). -/
def f32Add (a b : Word) : Word :=
  match f32NanOf a b with
  | some n => n
  | none =>
    match f32 a, f32 b with
    | .inf s, .inf t => if s = t then a else f32Nan
    | .inf _, _ => a
    | _, .inf _ => b
    | x, y =>
      match x.frac, y.frac with
      | some (n, d), some (m, e) => f32Round (n * e + m * d) (d * e) (f32Neg? a && f32Neg? b)
      | _, _ => f32Nan

/-- FP32 subtraction. -/
def f32Sub (a b : Word) : Word :=
  match f32NanOf a b with
  | some n => n
  | none => f32Add a (f32Neg b)

/-- FP32 multiplication, nearest-even. -/
def f32Mul (a b : Word) : Word :=
  match f32NanOf a b with
  | some n => n
  | none =>
    let s := f32Neg? a != f32Neg? b
    match f32 a, f32 b with
    | .inf _, .fin _ 0 _ => f32Nan
    | .fin _ 0 _, .inf _ => f32Nan
    | .inf _, _ => f32Inf s
    | _, .inf _ => f32Inf s
    | x, y =>
      match x.frac, y.frac with
      | some (n, d), some (m, e) => f32Round (n * m) (d * e) s
      | _, _ => f32Nan

/-- FP32 division, nearest-even. -/
def f32Div (a b : Word) : Word :=
  match f32NanOf a b with
  | some n => n
  | none =>
    let s := f32Neg? a != f32Neg? b
    match f32 a, f32 b with
    | .inf _, .inf _ => f32Nan
    | .inf _, _ => f32Inf s
    | .fin _ _ _, .inf _ => f32Round 0 1 s
    | .fin _ 0 _, .fin _ 0 _ => f32Nan
    | .fin _ _ _, .fin _ 0 _ => f32Inf s
    | x, y =>
      match x.frac, y.frac with
      | some (n, d), some (m, e) => f32Round (if m < 0 then -(n * e) else n * e) (d * m.natAbs) s
      | _, _ => f32Nan

/-- FP32 fused multiply-add: a * b + c rounded once. -/
def f32Fma (a b c : Word) : Word :=
  match f32 a, f32 b, f32 c with
  | .fin _ _ _, .fin _ _ _, .fin _ _ _ =>
    match (f32 a).frac, (f32 b).frac, (f32 c).frac with
    | some (n, d), some (m, e), some (p, q) =>
      f32Round (n * m * q + p * (d * e)) (d * e * q) ((f32Neg? a != f32Neg? b) && f32Neg? c)
    | _, _, _ => f32Nan
  | _, _, _ => f32Add (f32Mul a b) c

/-- Signed key whose order is the order of FP32 numbers; -0 equals +0. NaN has no key. -/
def f32Key (w : Word) : Option Int :=
  if f32 w = .nan then none
  else let m : Int := bits w.toNat 0 31; some (if f32Neg? w then -m else m)

/-- FP32 less-than; false on a NaN. -/
def f32Lt (a b : Word) : Bool := match f32Key a, f32Key b with
  | some x, some y => decide (x < y)
  | _, _ => false

/-- FP32 at-most; false on a NaN. -/
def f32Le (a b : Word) : Bool := match f32Key a, f32Key b with
  | some x, some y => decide (x ≤ y)
  | _, _ => false

/-- FP32 maximum of two numbers. -/
def f32Max (a b : Word) : Word := if f32Lt a b then b else a
/-- FP32 minimum of two numbers. -/
def f32Min (a b : Word) : Word := if f32Lt b a then b else a
/-- Clamp to [lo, hi]. -/
def f32Clamp (x lo hi : Word) : Word := f32Min (f32Max x lo) hi

/-- FP32 of a fraction: an integer or a decimal constant rounded to nearest-even (R626, Table 4-5). -/
def f32Of (num : Int) (den : Nat := 1) : Word := f32Round num den false

/-- Conversion of FP32 to Q16.16: rounded to a multiple of 2^-16, saturated; a NaN gives 0x8000_0000 (Table 4-5). The
flag is set by a saturation, an infinity or a NaN (R120, R385). -/
def f32ToQ (w : Word) : Q :=
  match f32 w with
  | .nan => ⟨qMin, true⟩
  | .inf s => ⟨if s then qMin else qMax, true⟩
  | x => match x.frac with
    | some (n, d) => qSat (roundHalfEven (n * 65536) d)
    | none => ⟨qMin, true⟩

/-- Conversion of Q16.16 to FP32 (Table 4-5). -/
def qToF32 (x : Int) : Word := f32Round x 65536 false

/-- A 32-bit word read as Q16.16 (R103). -/
def qOfWord (w : Word) : Int := w.toInt

/-- Conversion of FP32 to an integer of range [lo, hi]: rounded, saturated; a NaN gives 0 (Table 4-5). -/
def f32ToInt (w : Word) (lo hi : Int) : Int :=
  match f32 w with
  | .nan => 0
  | .inf s => if s then lo else hi
  | x => match x.frac with
    | some (n, d) => max lo (min hi (roundHalfEven n d))
    | none => 0

/-- FP16 as FP32: exact (Table 4-5). -/
def f16ToF32 (h : Nat) : Word :=
  let s := bitOf h 15
  let e := bits h 10 5
  let f := bits h 0 10
  if e = 31 then (if f = 0 then f32Inf s else BitVec.ofNat 32 ((if s then 2 ^ 31 else 0) + 0x7FC00000 + f * 2 ^ 13 % 2 ^ 22))
  else if e = 0 then f32Round (if s then -(f : Int) else f) (2 ^ 24) s
  else f32Round ((if s then -1 else 1) * ((f : Int) + 1024) * 2 ^ e) (2 ^ 25) s

/-- BF16 as FP32: the pattern's high half. -/
def bf16ToF32 (h : Nat) : Word := BitVec.ofNat 32 (h * 65536)

end Sys2Proof.Machine
end

