-- ==== Sys2Proof/Machine/Formats.lean ====
section
/-! DEFINITION. The other number formats of chapter 4: IEEE formats of any exponent and fraction width (FP64, FP16, BF16,
FP8-E5M2), FP8-E4M3 (R101), E2M1 and E8M0 (R102, R113), and the conversions of Table 4-5 with the rounding of R106 to R109. -/

namespace Sys2Proof.Machine

/-- A binary format: exponent bits and fraction bits. -/
structure Fmt where
  eb : Nat
  mb : Nat
deriving DecidableEq, Repr

/-- The formats of Table 4-1 with infinities. -/
def fp64 : Fmt := ⟨11, 52⟩
def fp32 : Fmt := ⟨8, 23⟩
def fp16 : Fmt := ⟨5, 10⟩
def bf16 : Fmt := ⟨8, 7⟩
def e5m2 : Fmt := ⟨5, 2⟩

/-- Exponent bias. -/
def Fmt.bias (f : Fmt) : Nat := 2 ^ (f.eb - 1) - 1

/-- Sign bit of a pattern. -/
def Fmt.neg? (f : Fmt) (p : Nat) : Bool := bitOf p (f.eb + f.mb)

/-- Value of a pattern. -/
def Fmt.val (f : Fmt) (p : Nat) : F32 :=
  let s := f.neg? p
  let e := bits p f.mb f.eb
  let m := bits p 0 f.mb
  if e = 2 ^ f.eb - 1 then (if m = 0 then .inf s else .nan)
  else if e = 0 then .fin s m (1 - f.bias - f.mb) else .fin s (m + 2 ^ f.mb) ((e : Int) - f.bias - f.mb)

/-- Rounding modes of Table 4-3. -/
inductive Rnd where
  | nearest | zero | down | up
deriving DecidableEq, Repr

/-- The mode a ROUND field names. -/
def Rnd.of (n : Nat) : Rnd := match n % 4 with
  | 0 => .nearest | 1 => .zero | 2 => .down | _ => .up

/-- Rounding of a signed fraction to an integer in a mode; `neg` is the sign of the value. -/
def Rnd.int (r : Rnd) (neg : Bool) (num den : Nat) : Nat :=
  match r with
  | .nearest => (roundHalfEven num den).toNat
  | .zero => num / den
  | .down => if neg then ceilDiv num den else num / den
  | .up => if neg then num / den else ceilDiv num den

/-- The pattern of the magnitude num/den > 0 in a format with subnormals; overflow gives infinity, or the largest finite
value where the mode directs (Table 4-5). -/
def Fmt.roundPos (f : Fmt) (r : Rnd) (neg : Bool) (num den : Nat) : Nat :=
  if num = 0 then 0
  else
    let e0 : Int := (num.log2 : Int) - (den.log2 : Int)
    let ge (e : Int) : Bool := if 0 ≤ e then decide (den * 2 ^ e.toNat ≤ num) else decide (den ≤ num * 2 ^ (-e).toNat)
    let e := if ge e0 then e0 else e0 - 1
    let emin : Int := 1 - f.bias
    let ulp : Int := (if e < emin then emin else e) - f.mb
    let m : Int := if 0 ≤ ulp then r.int neg num (den * 2 ^ ulp.toNat) else r.int neg (num * 2 ^ (-ulp).toNat) den
    let base : Int := if e < emin then 0 else (e + f.bias) * 2 ^ f.mb - 2 ^ f.mb
    let p : Int := base + m
    let inf : Int := (2 ^ f.eb - 1) * 2 ^ f.mb
    if p ≥ inf then
      (match r, neg with
      | .nearest, _ => inf | .zero, _ => inf - 1 | .down, true => inf | .down, false => inf - 1
      | .up, true => inf - 1 | .up, false => inf).toNat
    else p.toNat

/-- The pattern of a sign and a magnitude. -/
def Fmt.sign (f : Fmt) (neg : Bool) (p : Nat) : Nat := p + if neg then 2 ^ (f.eb + f.mb) else 0

/-- Rounding of a fraction into a format; a zero takes the sign `zneg`. -/
def Fmt.round (f : Fmt) (num : Int) (den : Nat) (zneg : Bool) (r : Rnd := .nearest) : Nat :=
  let s := if num = 0 then zneg else decide (num < 0)
  f.sign s (f.roundPos r s num.natAbs den)

/-- The default NaN (Table 4-4). -/
def Fmt.nan (f : Fmt) : Nat := (2 ^ f.eb - 1) * 2 ^ f.mb + 2 ^ (f.mb - 1)

/-- Infinity of a sign. -/
def Fmt.inf (f : Fmt) (neg : Bool) : Nat := f.sign neg ((2 ^ f.eb - 1) * 2 ^ f.mb)

/-- The value of a pattern of format `g` in format `f` (Table 4-5): NaN keeps its sign and high payload bits, quieted. -/
def Fmt.conv (g f : Fmt) (p : Nat) (r : Rnd := .nearest) : Nat :=
  match g.val p with
  | .nan =>
    let pay := bits p 0 g.mb
    let pay := if g.mb ≤ f.mb then pay * 2 ^ (f.mb - g.mb) else pay / 2 ^ (g.mb - f.mb)
    let q := if g.mb < f.mb then pay else pay ||| 2 ^ (f.mb - 1)
    f.sign (g.neg? p) ((2 ^ f.eb - 1) * 2 ^ f.mb + q)
  | .inf s => f.inf s
  | v => match v.frac with
    | some (n, d) => f.round n d (g.neg? p) r
    | none => f.nan

/-- FP32 to FP16 and BF16. -/
def f32ToF16 (w : Word) (r : Rnd := .nearest) : Nat := fp32.conv fp16 w.toNat r
def f32ToBf16 (w : Word) (r : Rnd := .nearest) : Nat := fp32.conv bf16 w.toNat r

/-- FP8-E5M2 to and from FP32: NaN gives the sign with 0x7E. -/
def e5m2ToF32 (p : Nat) : Word := BitVec.ofNat 32 (e5m2.conv fp32 p)
def f32ToE5m2 (w : Word) (r : Rnd := .nearest) : Nat :=
  if f32 w = .nan then e5m2.sign (f32Neg? w) 0x7E else fp32.conv e5m2 w.toNat r

/-- FP8-E4M3 as FP32 (R101): exponent 15 is normal but for 0x7F and 0xFF. -/
def e4m3ToF32 (p : Nat) : Word :=
  let s := bitOf p 7
  let e := bits p 3 4
  let m := bits p 0 3
  if p % 128 = 0x7F then (if s then 0xFFC00000#32 else f32Nan)
  else
    let v : Int := if e = 0 then (m : Int) * 2 else ((m : Int) + 8) * 2 ^ e
    f32Round (if s then -v else v) (2 ^ 10) s

/-- FP32 to FP8-E4M3: rounded, then saturated to 448; NaN gives 0x7F or 0xFF by sign. -/
def f32ToE4m3 (w : Word) (r : Rnd := .nearest) : Nat :=
  let s := f32Neg? w
  let g : Fmt := ⟨5, 3⟩
  let out := fun p => p + if s then 128 else 0
  match f32 w with
  | .nan => out 0x7F
  | .inf _ => out 0x7E
  | v => match v.frac with
    | none => out 0x7F
    | some (n, d) =>
      -- E4M3 has bias 7: the magnitude divided by 2^8 in a format of bias 15 has the same fraction and exponent field
      let p := g.roundPos r s n.natAbs (d * 2 ^ 8)
      out (min p 0x7E)

/-- E2M1 magnitudes doubled (R102). -/
def e2m1Twice (p : Nat) : Nat := [0, 1, 2, 3, 4, 6, 8, 12].getD (p % 8) 0

/-- Value of an E2M1 element under an E8M0 scale, as FP32 (R102). -/
def mxToF32 (p scale : Nat) : Word :=
  if scale = 0xFF then f32Nan
  else
    let v : Int := if bitOf p 3 then -(e2m1Twice p : Int) else e2m1Twice p
    f32Round (v * 2 ^ scale) (2 ^ 128) (bitOf p 3)

/-! ## Arithmetic in a format, nearest-even (R301) -/

/-- NaN of an operation with NaN operands: the first, quieted (R111). -/
def Fmt.nanOf (f : Fmt) (a b : Nat) : Option Nat :=
  let q := fun p => p ||| 2 ^ (f.mb - 1)
  if f.val a = .nan then some (q a) else if f.val b = .nan then some (q b) else none

/-- Addition. -/
def Fmt.add (f : Fmt) (a b : Nat) : Nat :=
  match f.nanOf a b with
  | some n => n
  | none => match f.val a, f.val b with
    | .inf s, .inf t => if s = t then a else f.nan
    | .inf _, _ => a
    | _, .inf _ => b
    | x, y => match x.frac, y.frac with
      | some (n, d), some (m, e) => f.round (n * e + m * d) (d * e) (f.neg? a && f.neg? b)
      | _, _ => f.nan

/-- Negation. -/
def Fmt.negate (f : Fmt) (a : Nat) : Nat := if f.neg? a then a - 2 ^ (f.eb + f.mb) else a + 2 ^ (f.eb + f.mb)

/-- Multiplication. -/
def Fmt.mul (f : Fmt) (a b : Nat) : Nat :=
  match f.nanOf a b with
  | some n => n
  | none =>
    let s := f.neg? a != f.neg? b
    match f.val a, f.val b with
    | .inf _, .fin _ 0 _ => f.nan
    | .fin _ 0 _, .inf _ => f.nan
    | .inf _, _ => f.inf s
    | _, .inf _ => f.inf s
    | x, y => match x.frac, y.frac with
      | some (n, d), some (m, e) => f.round (n * m) (d * e) s
      | _, _ => f.nan

/-- Fused multiply-add: a * b + c rounded once (Table 4-2). -/
def Fmt.fma (f : Fmt) (a b c : Nat) : Nat :=
  match (f.val a).frac, (f.val b).frac, (f.val c).frac with
  | some (n, d), some (m, e), some (p, q) => f.round (n * m * q + p * (d * e)) (d * e * q) ((f.neg? a != f.neg? b) && f.neg? c)
  | _, _, _ => f.add (f.mul a b) c

/-- A fraction in a format. -/
def Fmt.ofFrac (f : Fmt) (num : Int) (den : Nat) : Nat := f.round num den false

/-- Finite pattern. -/
def Fmt.finite (f : Fmt) (p : Nat) : Bool := match f.val p with
  | .fin _ _ _ => true
  | _ => false

/-- A pattern of a format as Q16.16 (Table 4-5). -/
def Fmt.toQ (f : Fmt) (p : Nat) : Int :=
  match f.val p with
  | .nan => qMin
  | .inf s => if s then qMin else qMax
  | v => match v.frac with
    | some (n, d) => (qSat (roundHalfEven (n * 65536) d)).v
    | none => qMin

end Sys2Proof.Machine
end

