-- ==== Sys2Proof/Config.lean ====
section
/-! DEFINITION. What an implementation fixes and the spec leaves open: functions that documents outside the spec define
(FIPS and SEC cryptography, the Ecwick numeric library), the noise sources, and the free values. None of them has a body
that a proof could use. -/

namespace Sys2Proof.Config

/-- A free value of `w` bits: what the device produces where the spec states no value. Applied to a counter of the state,
so that two draws are unrelated. -/
opaque freeBits : (w : Nat) → Nat → BitVec w

/-- A free natural number below a bound given by the caller. -/
opaque freeNat : Nat → Nat

/-- A free value of a counter that depends on timing alone: the field by its key, and the epoch's draw. -/
opaque timingCount : Nat → Nat → Word

/-- SHA-512 of a byte string (FIPS 180-4). -/
opaque sha512 : List Byte → List Byte

/-- ECDSA on P-521 (FIPS 186-5): key, digest, r and s. -/
opaque ecdsaVerify : List Byte → List Byte → List Byte → List Byte → Bool

/-- A byte string is a point on P-521 in SEC 1 uncompressed form (FIPS 186-5). -/
opaque p521Point : List Byte → Bool

/-- ECDSA on P-521: a signature by a private key. -/
opaque ecdsaSign : List Byte → List Byte → List Byte

/-- AES-256-GCM (NIST SP 800-38D): key, 12-byte nonce, additional data and plaintext give the 16-byte tag (R456). -/
opaque gcmTag : List Byte → List Byte → List Byte → List Byte → List Byte

/-- HKDF-SHA-512 (RFC 5869) to 32 bytes: input keying material, salt, info (R453). -/
opaque hkdf : List Byte → List Byte → List Byte → List Byte

/-- The x-coordinate of the ECDH product of a private and a public key on P-521 (R453). -/
opaque ecdhX : List Byte → List Byte → List Byte

/-- Sine and cosine of the numeric library, FP32 (R118). -/
opaque sinF32 : Word → Word
opaque cosF32 : Word → Word
/-- Square root of the numeric library, FP32 (R118). -/
opaque sqrtF32 : Word → Word

/-- Sine and cosine of the Try Square's own CORDIC, Q16.16, accurate to 2^-14 (R386). -/
opaque cordicSin : Int → Int
opaque cordicCos : Int → Int

/-- Free values: JERK and KDOT, words 6 and 8 of Table 6-7, of stop sample `i` of a fallback, which R395 does not state. -/
opaque stopWord : Nat → Nat → Word

/-- One completed iteration of the interior-point method (R307) and its residuals: the SOLVER_PROBLEM body, the reference
words stage by stage, and the words of the iterate give the words of the next iterate, r_prim and r_dual as maximum norms
(FP32). The spec fixes the order of the phases, of the factorisation and of every sum, and leaves the block layout of the
factorised system open. -/
opaque solverStep : List Byte → List Nat → List Nat → List Nat × Word × Word

/-- Exponential, error function and reciprocal square root of the numeric library, FP32, under the FTZ bit of a mode word
(R118). -/
opaque expF32 : Bool → Word → Word
opaque erfF32 : Bool → Word → Word
opaque rsqrtF32 : Bool → Word → Word

/-- The identity private key that a part's PUF regenerates at each cold start (R581), by serial number. -/
opaque identityPrivate : List Byte → List Byte

/-- The public key of a private key on P-521, in SEC 1 uncompressed form (FIPS 186-5). -/
opaque p521Public : List Byte → List Byte

/-- The Aeddom debug authority key, whose digest the boot ROM holds (R585). -/
opaque debugAuthority : List Byte

end Sys2Proof.Config
end

