-- ==== Sys2Proof/Machine/Image.lean ====
section
/-! DEFINITION. The configuration bitstream (Cut List) as the device holds it: the bodies of the sections of the loaded
image, and the named fields of those bodies at the byte offsets of the spec. Every parameter of the device is read from the
bytes of the section that gives it (R39). -/

namespace Sys2Proof.Machine

/-- One section of an image: its type, FLAGS and COUNT of the header of Table 2-2, and its body. -/
structure Sec where
  type : Nat
  flags : Nat
  count : Nat
  body : List Byte
deriving DecidableEq, Repr

/-- An image that passed every check of R66: its sections in file order, IMAGE_LENGTH, and the program digest (R65). -/
structure Image where
  secs : List Sec
  length : Nat
  digest : List Byte
deriving DecidableEq, Repr

namespace Image

/-- The section of a type, where the image has it. -/
def sec (i : Image) (ty : Nat) : Option Sec := i.secs.find? fun s => s.type == ty

/-- The body of a section type; empty where the image has none. -/
def body (i : Image) (ty : Nat) : List Byte := match i.sec ty with
  | some s => s.body
  | none => []

/-- True when the image has a section of the type. -/
def has (i : Image) (ty : Nat) : Bool := (i.sec ty).isSome

/-- COUNT of a section type; 0 where the image has none. -/
def countOf (i : Image) (ty : Nat) : Nat := match i.sec ty with
  | some s => s.count
  | none => 0

/-! ### MANIFEST, Table 2-4 -/

/-- VARIANT_MASK. -/
def variantMask (i : Image) : Nat := u16 (i.body 1) 4
/-- REQUIRED_UNITS, Table 2-5. -/
def requiredUnits (i : Image) : Nat := u32 (i.body 1) 8
/-- MIN_TILES. -/
def minTiles (i : Image) : Nat := byteAt (i.body 1) 0xC
/-- CHAIN_ROLES. -/
def chainRoles (i : Image) : Nat := byteAt (i.body 1) 0xD
/-- PAIR_SIDES. -/
def pairSides (i : Image) : Nat := byteAt (i.body 1) 0xE
/-- HBM_BYTES. -/
def hbmBytes (i : Image) : Nat := u64 (i.body 1) 0x10
/-- SECTION_MASK. -/
def sectionMask (i : Image) : Nat := u32 (i.body 1) 0x2C

/-! ### STAGE_GRAPH, Tables 2-6 and 2-7 -/

/-- T_frame in microseconds (R20). -/
def periodUs (i : Image) : Nat := u32 (i.body 2) 0
/-- T_frame in nanoseconds. -/
def periodNs (i : Image) : Nat := 1000 * i.periodUs
/-- T_search as the Cut List sets it, in microseconds. -/
def searchUs (i : Image) : Nat := u32 (i.body 2) 4
/-- B_refine as the Cut List sets it, in microseconds. -/
def refineUs (i : Image) : Nat := u32 (i.body 2) 8
/-- QUOTA budget mode (Table 2-6, MODE bit 0). -/
def quotaMode (i : Image) : Bool := bitOf (u32 (i.body 2) 0xC) 0
/-- Run-ahead depth D (R37). -/
def runahead (i : Image) : Nat := bits (u32 (i.body 2) 0xC) 1 2
/-- REFINE_MICROCODE. -/
def refineMicrocode (i : Image) : Bool := bitOf (u32 (i.body 2) 0xC) 3
/-- FRAME_ORIGIN in nanoseconds (R21). -/
def frameOrigin (i : Image) : Nat := u64 (i.body 2) 0x10
/-- QUOTA_CANDIDATES. -/
def quotaCandidates (i : Image) : Nat := u32 (i.body 2) 0x18
/-- QUOTA_RELAX. -/
def quotaRelax (i : Image) : Nat := u32 (i.body 2) 0x1C
/-- QUOTA_SOLVER_ITER. -/
def quotaSolverIter (i : Image) : Nat := u16 (i.body 2) 0x20
/-- MICRO_ITER_CAP. -/
def microIterCap (i : Image) : Nat := u16 (i.body 2) 0x22
/-- STAGE_COUNT. -/
def stageCount (i : Image) : Nat := byteAt (i.body 2) 0x24
/-- TOP_K, the k delivered by select. -/
def topK (i : Image) : Nat := u16 (i.body 2) 0x26
/-- Offset of stage entry `j`. -/
def stageOff (j : Nat) : Nat := 64 + 16 * j
/-- The index of the entry of stage `id`, where the graph has it. -/
def stageIdx (i : Image) (id : Nat) : Option Nat :=
  (List.range i.stageCount).find? fun j => byteAt (i.body 2) (stageOff j) == id
/-- True when the stage graph has the stage (R25). -/
def hasStage (i : Image) (id : Nat) : Bool := (i.stageIdx id).isSome
/-- A field of a stage's entry; 0 where the graph lacks the stage. -/
def stageField (i : Image) (id off n : Nat) : Nat := match i.stageIdx id with
  | some j => le (i.body 2) (stageOff j + off) n
  | none => 0
/-- PRIORITY of a stage's tasks. -/
def stagePriority (i : Image) (id : Nat) : Nat := i.stageField id 1 1
/-- TILE_MASK of a stage. -/
def stageTileMask (i : Image) (id : Nat) : Nat := i.stageField id 4 4
/-- THREADS of a stage. -/
def stageThreads (i : Image) (id : Nat) : Nat := i.stageField id 8 2
/-- FLOW_BASE of a stage. -/
def flowBase (i : Image) (id : Nat) : Nat := i.stageField id 0xA 2
/-- FLOW_COUNT of a stage. -/
def flowCount (i : Image) (id : Nat) : Nat := i.stageField id 0xC 2

/-! ### WORLD_LAYOUT, Tables 5-1 to 5-5 -/

/-- Panel shape code. -/
def shape (i : Image) : Nat := byteAt (i.body 7) 0
/-- LAYER_COUNT. -/
def layerCount (i : Image) : Nat := byteAt (i.body 7) 1
/-- STREAM_COUNT. -/
def streamCount (i : Image) : Nat := byteAt (i.body 7) 2
/-- HALO in cells. -/
def halo (i : Image) : Nat := byteAt (i.body 7) 3
/-- Grid size in panels, x. -/
def gx (i : Image) : Nat := u16 (i.body 7) 4
/-- Grid size in panels, y. -/
def gy (i : Image) : Nat := u16 (i.body 7) 6
/-- Grid size in panels, z. -/
def gz (i : Image) : Nat := u16 (i.body 7) 8
/-- CELL_SIZE, Q16.16 metres. -/
def cellSize (i : Image) : Nat := u32 (i.body 7) 0xC
/-- GRID_ORIGIN of axis 0, 1 or 2, Q16.16 metres. -/
def gridOrigin (i : Image) (axis : Nat) : Int := signed 32 (u32 (i.body 7) (0x10 + 4 * axis))
/-- ADMIT_CLOSE_US. -/
def admitCloseUs (i : Image) : Nat := u32 (i.body 7) 0x1C
/-- EGO_WAIT bit 0. -/
def egoWait (i : Image) : Bool := bitOf (u32 (i.body 7) 0x20) 0
/-- Panel edges in cells along x, y, z (Table 5-1). -/
def edge (i : Image) (axis : Nat) : Nat :=
  match i.shape, axis with
  | 0, 0 => 64 | 0, 1 => 64 | 0, _ => 1
  | 1, 0 => 32 | 1, 1 => 32 | 1, _ => 4
  | _, _ => 16
/-- Grid extent in cells along an axis. -/
def cellsAlong (i : Image) (axis : Nat) : Nat :=
  (match axis with | 0 => i.gx | 1 => i.gy | _ => i.gz) * i.edge axis
/-- Number of panels of a layer (R125). -/
def panelCount (i : Image) : Nat := i.gx * i.gy * i.gz
/-- Offset of layer record `l`. -/
def layerOff (l : Nat) : Nat := 64 + 32 * l
/-- TYPE of a layer (Table 5-2). -/
def layerType (i : Image) (l : Nat) : Nat := byteAt (i.body 7) (layerOff l)
/-- FLAGS of a layer (Table 5-4). -/
def layerFlags (i : Image) (l : Nat) : Nat := byteAt (i.body 7) (layerOff l + 1)
/-- SOURCE_LAYER of a DISTANCE layer. -/
def sourceLayer (i : Image) (l : Nat) : Nat := byteAt (i.body 7) (layerOff l + 2)
/-- Slices of a layer: SLICES for PREDICTED, 1 for any other (R132). -/
def slices (i : Image) (l : Nat) : Nat := if i.layerType l = 4 then byteAt (i.body 7) (layerOff l + 3) else 1
/-- QUANTUM of a layer. -/
def quantum (i : Image) (l : Nat) : Nat := u32 (i.body 7) (layerOff l + 4)
/-- SLICE_INTERVAL_US of a layer. -/
def sliceIntervalUs (i : Image) (l : Nat) : Nat := u32 (i.body 7) (layerOff l + 8)
/-- INIT of a layer. -/
def layerInit (i : Image) (l : Nat) : Nat := u16 (i.body 7) (layerOff l + 0xC)
/-- Bits per cell of a layer type (Table 5-2). -/
def cellBits (ty : Nat) : Nat := match ty with
  | 0 => 2 | 1 => 8 | 2 => 8 | 3 => 16 | 4 => 2 | 5 => 16 | _ => 8
/-- The initial value of a layer's cells (Table 5-2), as a cell pattern. -/
def initialCell (i : Image) (l : Nat) : Nat := match i.layerType l with
  | 0 => 2 | 1 => 0 | 4 => 2 | 5 => 0x8000
  | t => i.layerInit l % 2 ^ cellBits t
/-- Offset of stream record `j`. -/
def streamOff (i : Image) (j : Nat) : Nat := layerOff i.layerCount + 32 * j
/-- The record index of a stream ID, where the image configures it. -/
def streamIdx (i : Image) (id : Nat) : Option Nat :=
  (List.range i.streamCount).find? fun j => u16 (i.body 7) (i.streamOff j) == id
/-- A field of a stream's record; 0 where it is not configured. -/
def streamField (i : Image) (id off n : Nat) : Nat := match i.streamIdx id with
  | some j => le (i.body 7) (i.streamOff j + off) n
  | none => 0
/-- The layer a stream is bound to. -/
def streamLayer (i : Image) (id : Nat) : Nat := i.streamField id 2 1
/-- The partition that may send on a stream. -/
def streamPartition (i : Image) (id : Nat) : Nat := i.streamField id 3 1
/-- FLAGS of a stream. -/
def streamFlags (i : Image) (id : Nat) : Nat := i.streamField id 4 2
/-- SAFETY_COPY of a stream; the ego stream is copied in the same way (R150). -/
def safetyCopy (i : Image) (id : Nat) : Bool := id == 0xFFFF || bitOf (i.streamFlags id) 0
/-- MAX_SILENT of a stream. -/
def maxSilent (i : Image) (id : Nat) : Nat := i.streamField id 6 2
/-- REGION bound `j` of a stream: PX0, PY0, PZ0, PX1, PY1, PZ1. -/
def region (i : Image) (id j : Nat) : Nat := i.streamField id (8 + 2 * j) 2
/-- BYTE_BUDGET of a stream. -/
def byteBudget (i : Image) (id : Nat) : Nat := i.streamField id 0x14 4
/-- True when panel (px, py, pz) lies in a stream's REGION. -/
def inRegion (i : Image) (id px py pz : Nat) : Bool :=
  decide (i.region id 0 ≤ px ∧ px ≤ i.region id 3 ∧ i.region id 1 ≤ py ∧ py ≤ i.region id 4 ∧
    i.region id 2 ≤ pz ∧ pz ≤ i.region id 5)
/-- The configured stream IDs in ascending order. -/
def streamIds (i : Image) : List Nat := (List.range 32).filter fun d => (i.streamIdx d).isSome

/-! ### PRIMITIVE_LIBRARY, Tables 6-3 and 6-4 -/

/-- KIND: 0 VEHICLE, 1 ARM. -/
def kind (i : Image) : Nat := byteAt (i.body 5) 0
/-- CHAIN_LEN. -/
def chainLen (i : Image) : Nat := byteAt (i.body 5) 1
/-- SAMPLES S. -/
def samples (i : Image) : Nat := byteAt (i.body 5) 2
/-- SUBSTEPS. -/
def substeps (i : Image) : Nat := byteAt (i.body 5) 3
/-- SAMPLE_DT_US. -/
def sampleDtUs (i : Image) : Nat := u32 (i.body 5) 4
/-- ENUM_LIMIT. -/
def enumLimit (i : Image) : Nat := u32 (i.body 5) 8
/-- SEED_LIMIT. -/
def seedLimit (i : Image) : Nat := u32 (i.body 5) 0xC
/-- JOINTS. -/
def joints (i : Image) : Nat := byteAt (i.body 5) 0x10
/-- HITCH_MAX of the library, FP32. -/
def hitchMax (i : Image) : Word := BitVec.ofNat 32 (u32 (i.body 5) 0x14)
/-- TRAILER_LENGTH of body `b`, mm. -/
def trailerLength (i : Image) (b : Nat) : Nat := u16 (i.body 5) (0x18 + 2 * b)
/-- Number of family records. -/
def familyCount (i : Image) : Nat := i.countOf 5
/-- Offset of family record `f`. -/
def famOff (f : Nat) : Nat := 32 + 256 * f
/-- POSITIONS of a family. -/
def famPositions (i : Image) (f : Nat) : Nat := byteAt (i.body 5) (famOff f + 1)
/-- PARAMS of a family. -/
def famParams (i : Image) (f : Nat) : Nat := byteAt (i.body 5) (famOff f + 2)
/-- DURATION_US of a family. -/
def famDurationUs (i : Image) (f : Nat) : Nat := u32 (i.body 5) (famOff f + 4)
/-- STEPS of parameter `p` of a family. -/
def famSteps (i : Image) (f p : Nat) : Nat := u16 (i.body 5) (famOff f + 8 + 2 * p)
/-- FP32 envelope word `j` of a family: VEHICLE V_MIN .. A_LAT_MAX; ARM Q_MIN, Q_MAX, V_MAX, A_MAX, J_MAX per joint. -/
def famEnv (i : Image) (f j : Nat) : Word := BitVec.ofNat 32 (u32 (i.body 5) (famOff f + 0x10 + 4 * j))
/-- FP16 weight w[p][j] of an ARM family. -/
def famWeight (i : Image) (f p j : Nat) : Nat := u16 (i.body 5) (famOff f + 0xC4 + 18 * p + 2 * j)

/-! ### BODY_MODEL, Table 6-11 -/

/-- BODY_COUNT. -/
def bodyCount (i : Image) : Nat := byteAt (i.body 6) 0
/-- Offset of body record `b`: each record is followed by its spheres (R178). -/
def bodyOff (i : Image) : Nat → Nat
  | 0 => 16
  | b + 1 => i.bodyOff b + 16 + 16 * byteAt (i.body 6) (i.bodyOff b + 3)
/-- PARENT of a body. -/
def bodyParent (i : Image) (b : Nat) : Nat := byteAt (i.body 6) (i.bodyOff b)
/-- JOINT_TYPE of a body. -/
def bodyJointType (i : Image) (b : Nat) : Nat := byteAt (i.body 6) (i.bodyOff b + 1)
/-- JOINT of a body. -/
def bodyJoint (i : Image) (b : Nat) : Nat := byteAt (i.body 6) (i.bodyOff b + 2)
/-- SPHERES of a body. -/
def bodySpheres (i : Image) (b : Nat) : Nat := byteAt (i.body 6) (i.bodyOff b + 3)
/-- OFFSET of a body along an axis, Q16.16. -/
def bodyOffset (i : Image) (b axis : Nat) : Int := signed 32 (u32 (i.body 6) (i.bodyOff b + 4 + 4 * axis))
/-- Word `j` (x, y, z, radius) of sphere `k` of a body, Q16.16. -/
def sphere (i : Image) (b k j : Nat) : Int := signed 32 (u32 (i.body 6) (i.bodyOff b + 16 + 16 * k + 4 * j))

/-! ### SAFETY, Table 14-2 and R376 to R378; offsets from the end of SAFETY_DIGEST -/

/-- A byte string of the SAFETY body after SAFETY_DIGEST. -/
def safety (i : Image) : List Byte := (i.body 0xD).drop 64
/-- B_verify in microseconds. -/
def verifyUs (i : Image) : Nat := u32 i.safety 0
/-- THRESHOLD. -/
def threshold (i : Image) : Nat := byteAt i.safety 4
/-- KIND of the SAFETY section. -/
def safetyKind (i : Image) : Nat := byteAt i.safety 5
/-- BODY_COUNT of the SAFETY section. -/
def boxCount (i : Image) : Nat := byteAt i.safety 6
/-- CHANNEL_COUNT. -/
def channelCount (i : Image) : Nat := byteAt i.safety 7
/-- FB_HORIZON_MS. -/
def fbHorizonMs (i : Image) : Nat := u16 i.safety 8
/-- FB_SAMPLES. -/
def fbSamples (i : Image) : Nat := u16 i.safety 0xA
/-- SLOT_PERIOD_US. -/
def slotPeriodUs (i : Image) : Nat := u32 i.safety 0xC
/-- SAFETY_MARGIN, Q16.16. -/
def safetyMargin (i : Image) : Int := signed 32 (u32 i.safety 0x10)
/-- CLR_PROBE, Q16.16. -/
def clrProbe (i : Image) : Int := signed 32 (u32 i.safety 0x14)
/-- CLR_TOL, Q16.16. -/
def clrTol (i : Image) : Int := signed 32 (u32 i.safety 0x18)
/-- A_FB, Q16.16. -/
def aFb (i : Image) : Int := signed 32 (u32 i.safety 0x1C)
/-- J_FB, Q16.16. -/
def jFb (i : Image) : Int := signed 32 (u32 i.safety 0x20)
/-- CONT_POS, Q16.16. -/
def contPos (i : Image) : Int := signed 32 (u32 i.safety 0x24)
/-- CONT_ANG, Q16.16. -/
def contAng (i : Image) : Int := signed 32 (u32 i.safety 0x28)
/-- CONT_V, Q16.16. -/
def contV (i : Image) : Int := signed 32 (u32 i.safety 0x2C)
/-- CONT_AGE_MS. -/
def contAgeMs (i : Image) : Nat := u16 i.safety 0x30
/-- OCC_LAYER. -/
def occLayer (i : Image) : Nat := byteAt i.safety 0x32
/-- PRED_LAYER, 0xFF for none. -/
def predLayer (i : Image) : Nat := byteAt i.safety 0x33
/-- PRED_UNKNOWN_OCC. -/
def predUnknownOcc (i : Image) : Bool := bitOf (byteAt i.safety 0x34) 0
/-- WD_ENABLE. -/
def wdEnable (i : Image) : Bool := bitOf (byteAt i.safety 0x34) 1
/-- WD_TIMEOUT_MS. -/
def wdTimeoutMs (i : Image) : Nat := u16 i.safety 0x36
/-- Word `j` of the limit record (R376), Q16.16. -/
def limit (i : Image) (j : Nat) : Int := signed 32 (u32 i.safety (64 + 4 * j))
/-- Word `j` of box record `b` (R377): OFFSET at 1..3, BOX_CENTRE at 4..6, BOX_HALF at 7..9, Q16.16. -/
def boxWord (i : Image) (b j : Nat) : Int := signed 32 (u32 i.safety (320 + 48 * b + 4 * j))
/-- Byte `j` of box record `b`: PARENT 0, JOINT_TYPE 1, JOINT 2. -/
def boxByte (i : Image) (b j : Nat) : Nat := byteAt i.safety (320 + 48 * b + j)
/-- Offset of channel record `c` in the SAFETY body. -/
def chanOff (i : Image) (c : Nat) : Nat := 320 + 48 * i.boxCount + 16 * c
/-- CHANNEL, SOURCE, CONV or HOLD of a channel record, by byte (R378). -/
def chanByte (i : Image) (c j : Nat) : Nat := byteAt i.safety (i.chanOff c + j)
/-- SCALE of a channel record, Q16.16. -/
def chanScale (i : Image) (c : Nat) : Int := signed 32 (u32 i.safety (i.chanOff c + 4))
/-- OFFSET of a channel record, Q16.16. -/
def chanOffset (i : Image) (c : Nat) : Int := signed 32 (u32 i.safety (i.chanOff c + 8))
/-- FB_DT in nanoseconds (R394). -/
def fbDtNs (i : Image) : Nat := 1000000 * i.fbHorizonMs / (i.fbSamples - 1)

end Image

end Sys2Proof.Machine
end

