-- ==== Sys2Proof/Machine/RegMap.lean ====
section
/-! DEFINITION. The register map (R13, R598, R601): every register of the field maps of the spec, field by field, with
its address, its bit range, its access class and the value it has after a cold start (R627).
A field whose Reset entry names a source ("strap", "die record", "Chest", "AON", "computed") reads 0 until the device
has set it from that source, so its reset value here is 0. Reserved bits are no field: they read 0 (R18). -/

namespace Sys2Proof.Machine

/-- Access classes, Table 0-3. -/
inductive Access where
  | rw | rwe | rwq | ro | w1c | wo
deriving DecidableEq, Repr

/-- One field of a register: the byte address of its word, its lowest bit, its width, its access class and its value
after a cold start. -/
structure Field where
  addr : Nat
  lo : Nat
  width : Nat
  access : Access
  reset : Nat
deriving DecidableEq, Repr

/-- A row of a field map. A row stands for `count` registers `stride` bytes apart, repeated `ocount` times `outer`
bytes apart (a tile block, a stack). -/
structure RegRow where
  name : String
  addr : Nat
  stride : Nat
  first : Nat
  count : Nat
  outer : Nat
  ocount : Nat
  fields : List Field
deriving DecidableEq, Repr

namespace Reg

/-! FRAME_PERIOD (Table 1-5). -/
def FRAME_PERIOD.PERIOD_US : Field := ⟨0x40000, 0, 17, .ro, 0⟩
/-! FRAME_ORIGIN_LO (Table 1-5). -/
def FRAME_ORIGIN_LO.ORIGIN_LO : Field := ⟨0x40004, 0, 32, .ro, 0⟩
/-! FRAME_ORIGIN_HI (Table 1-5). -/
def FRAME_ORIGIN_HI.ORIGIN_HI : Field := ⟨0x40008, 0, 32, .ro, 0⟩
/-! FRAME_EPOCH (Table 1-5). -/
def FRAME_EPOCH.EPOCH : Field := ⟨0x4000c, 0, 32, .ro, 0⟩
/-! FRAME_SEARCH_DEADLINE (Table 1-5). -/
def FRAME_SEARCH_DEADLINE.SEARCH_US : Field := ⟨0x40010, 0, 17, .rwe, 0⟩
/-! FRAME_REFINE_BUDGET (Table 1-5). -/
def FRAME_REFINE_BUDGET.REFINE_US : Field := ⟨0x40014, 0, 17, .rwe, 0⟩
/-! FRAME_VERIFY_BUDGET (Table 1-5). -/
def FRAME_VERIFY_BUDGET.VERIFY_US : Field := ⟨0x40018, 0, 17, .ro, 0⟩
/-! FRAME_STATUS (Table 1-6). -/
def FRAME_STATUS.SHADOW : Field := ⟨0x4001c, 3, 1, .ro, 0⟩
def FRAME_STATUS.LAST_LATE : Field := ⟨0x4001c, 2, 1, .ro, 0⟩
def FRAME_STATUS.HOLDOVER : Field := ⟨0x4001c, 1, 1, .ro, 0⟩
def FRAME_STATUS.FRAME_ACTIVE : Field := ⟨0x4001c, 0, 1, .ro, 0⟩
/-! FRAME_LATE_COUNT (Table 1-7). -/
def FRAME_LATE_COUNT.LATE : Field := ⟨0x40020, 0, 32, .ro, 0⟩
/-! FRAME_SKIP_COUNT (Table 1-7). -/
def FRAME_SKIP_COUNT.SKIP : Field := ⟨0x40024, 0, 32, .ro, 0⟩
/-! CONFIG_LOAD_STATUS (Table 2-14). -/
def CONFIG_LOAD_STATUS.PHASE : Field := ⟨0x20040, 24, 4, .ro, 0⟩
def CONFIG_LOAD_STATUS.SLOT : Field := ⟨0x20040, 16, 1, .ro, 0⟩
def CONFIG_LOAD_STATUS.REASON : Field := ⟨0x20040, 0, 8, .ro, 0⟩
/-! CONFIG_LOAD_DETAIL (Table 2-15). -/
def CONFIG_LOAD_DETAIL.SECTION_TYPE : Field := ⟨0x20044, 16, 16, .ro, 0⟩
def CONFIG_LOAD_DETAIL.ITEM : Field := ⟨0x20044, 0, 16, .ro, 0xffff⟩
/-! CONFIG_BULK_WAIT (Table 2-16). -/
def CONFIG_BULK_WAIT.BULK_ID : Field := ⟨0x20048, 0, 32, .ro, 0⟩
/-! CONFIG_CHUNK_DROP (Table 2-16). -/
def CONFIG_CHUNK_DROP.DROPPED : Field := ⟨0x2004c, 0, 32, .ro, 0⟩
/-! CONFIG_SLOT_ACTIVE (Table 3-3). -/
def CONFIG_SLOT_ACTIVE.ACCEPTS : Field := ⟨0x20000, 2, 2, .ro, 0⟩
def CONFIG_SLOT_ACTIVE.LOADED : Field := ⟨0x20000, 1, 1, .ro, 0⟩
def CONFIG_SLOT_ACTIVE.SLOT : Field := ⟨0x20000, 0, 1, .ro, 0⟩
/-! CONFIG_ACTIVE_SEQ_LO (Table 3-3). -/
def CONFIG_ACTIVE_SEQ_LO.SEQ_LO : Field := ⟨0x20004, 0, 32, .ro, 0⟩
/-! CONFIG_ACTIVE_SEQ_HI (Table 3-3). -/
def CONFIG_ACTIVE_SEQ_HI.SEQ_HI : Field := ⟨0x20008, 0, 32, .ro, 0⟩
/-! CONFIG_FLOOR_LO (Table 3-3). -/
def CONFIG_FLOOR_LO.FLOOR_LO : Field := ⟨0x2000c, 0, 32, .ro, 0⟩
/-! CONFIG_FLOOR_HI (Table 3-3). -/
def CONFIG_FLOOR_HI.FLOOR_HI : Field := ⟨0x20010, 0, 32, .ro, 0⟩
/-! CONFIG_SLOT_STATE (Table 3-3). -/
def CONFIG_SLOT_STATE.B_VALID : Field := ⟨0x20014, 17, 1, .ro, 0⟩
def CONFIG_SLOT_STATE.A_VALID : Field := ⟨0x20014, 16, 1, .ro, 0⟩
def CONFIG_SLOT_STATE.B_STATE : Field := ⟨0x20014, 8, 8, .ro, 0xff⟩
def CONFIG_SLOT_STATE.A_STATE : Field := ⟨0x20014, 0, 8, .ro, 0xff⟩
/-! CONFIG_SLOT_CMD (Table 3-3). -/
def CONFIG_SLOT_CMD.CMD : Field := ⟨0x20020, 0, 2, .wo, 0⟩
/-! CONFIG_SLOT_SEQ_LO (Table 3-3). -/
def CONFIG_SLOT_SEQ_LO.SEQ_LO : Field := ⟨0x20024, 0, 32, .rw, 0⟩
/-! CONFIG_SLOT_SEQ_HI (Table 3-3). -/
def CONFIG_SLOT_SEQ_HI.SEQ_HI : Field := ⟨0x20028, 0, 32, .rw, 0⟩
/-! CONFIG_SLOT_WOFFSET (Table 3-3). -/
def CONFIG_SLOT_WOFFSET.WOFFSET : Field := ⟨0x2002c, 0, 32, .rw, 0⟩
/-! CONFIG_SLOT_LENGTH (Table 3-3). -/
def CONFIG_SLOT_LENGTH.LENGTH : Field := ⟨0x20030, 0, 32, .rw, 0⟩
/-! CONFIG_SLOT_USED (Table 3-3). -/
def CONFIG_SLOT_USED.USED : Field := ⟨0x20034, 0, 32, .rw, 0⟩
/-! CONFIG_SLOT_STATUS (Table 3-3). -/
def CONFIG_SLOT_STATUS.BUSY : Field := ⟨0x20038, 8, 1, .ro, 0⟩
def CONFIG_SLOT_STATUS.RESULT : Field := ⟨0x20038, 0, 8, .ro, 0⟩
/-! CONFIG_EPOCH_COMMIT (Table 3-3). -/
def CONFIG_EPOCH_COMMIT.COMMIT : Field := ⟨0x2003c, 0, 32, .wo, 0⟩
/-! CONFIG_SWITCH_CMD (Table 3-3). -/
def CONFIG_SWITCH_CMD.CMD : Field := ⟨0x20050, 0, 3, .wo, 0⟩
/-! CONFIG_SWITCH_STATUS (Table 3-3). -/
def CONFIG_SWITCH_STATUS.SHADOW_DISCARDED : Field := ⟨0x20054, 16, 1, .w1c, 0⟩
def CONFIG_SWITCH_STATUS.PHASE : Field := ⟨0x20054, 8, 3, .ro, 0⟩
def CONFIG_SWITCH_STATUS.RESULT : Field := ⟨0x20054, 0, 8, .ro, 0⟩
/-! CONFIG_QUIESCE_REQ (Table 3-3). -/
def CONFIG_QUIESCE_REQ.REQ : Field := ⟨0x20058, 0, 15, .rw, 0⟩
/-! CONFIG_QUIESCE_STATUS (Table 3-3). -/
def CONFIG_QUIESCE_STATUS.QUIESCED : Field := ⟨0x2005c, 0, 15, .ro, 0⟩
/-! CONFIG_SLOT_DIGEST (Table 3-3). -/
def CONFIG_SLOT_DIGEST.DIGEST (n : Nat) : Field := ⟨(0x20060 + 4 * n), 0, 32, .rw, 0⟩
/-! CONFIG_SLOT_WDATA (Table 3-3). -/
def CONFIG_SLOT_WDATA.DATA (n : Nat) : Field := ⟨(0x21000 + 4 * n), 0, 32, .wo, 0⟩
/-! WORLD_STATUS (Table 5-9). -/
def WORLD_STATUS.POISONED : Field := ⟨0x50000, 9, 1, .w1c, 0⟩
def WORLD_STATUS.REBASE : Field := ⟨0x50000, 8, 1, .w1c, 0⟩
def WORLD_STATUS.PHASE : Field := ⟨0x50000, 0, 4, .ro, 0⟩
/-! WORLD_SNAP_EPOCH (Table 5-9). -/
def WORLD_SNAP_EPOCH.EPOCH : Field := ⟨0x50004, 0, 32, .ro, 0⟩
/-! WORLD_LAYOUT_INFO (Table 5-9). -/
def WORLD_LAYOUT_INFO.STREAMS : Field := ⟨0x50008, 8, 6, .ro, 0⟩
def WORLD_LAYOUT_INFO.LAYERS : Field := ⟨0x50008, 3, 5, .ro, 0⟩
def WORLD_LAYOUT_INFO.SHAPE : Field := ⟨0x50008, 0, 3, .ro, 0⟩
/-! WORLD_DT_PANELS (Table 5-9). -/
def WORLD_DT_PANELS.PANELS : Field := ⟨0x5000c, 0, 17, .ro, 0⟩
/-! WORLD_DT_CYCLES (Table 5-9). -/
def WORLD_DT_CYCLES.CYCLES : Field := ⟨0x50010, 0, 32, .ro, 0⟩
/-! WORLD_INGEST_DROP (Table 5-9). -/
def WORLD_INGEST_DROP.DROPPED : Field := ⟨0x50014, 0, 32, .ro, 0⟩
/-! WORLD_EGO_SEQ (Table 5-9). -/
def WORLD_EGO_SEQ.SEQ : Field := ⟨0x50018, 0, 32, .ro, 0⟩
/-! WORLD_EGO_MISSING (Table 5-9). -/
def WORLD_EGO_MISSING.MISSING : Field := ⟨0x5001c, 0, 32, .ro, 0⟩
/-! WORLD_EGO_DISCARD (Table 5-9). -/
def WORLD_EGO_DISCARD.DISCARD : Field := ⟨0x50020, 0, 32, .ro, 0⟩
/-! WORLD_EGO_LATE (Table 5-9). -/
def WORLD_EGO_LATE.LATE : Field := ⟨0x50024, 0, 32, .ro, 0⟩
/-! WORLD_DIRTY_COUNT (Table 5-10). -/
def WORLD_DIRTY_COUNT.DIRTY (n : Nat) : Field := ⟨(0x50100 + 8 * n), 0, 17, .ro, 0⟩
/-! WORLD_CHANGE_COUNT (Table 5-10). -/
def WORLD_CHANGE_COUNT.CHANGED (n : Nat) : Field := ⟨(0x50104 + 8 * n), 0, 17, .ro, 0⟩
/-! WORLD_STREAM_CTL (Table 5-11). -/
def WORLD_STREAM_CTL.PARTITION (n : Nat) : Field := ⟨(0x51000 + 0x20 * n), 16, 3, .ro, 0⟩
def WORLD_STREAM_CTL.LAYER (n : Nat) : Field := ⟨(0x51000 + 0x20 * n), 8, 4, .ro, 0⟩
def WORLD_STREAM_CTL.STALE_UNKNOWN (n : Nat) : Field := ⟨(0x51000 + 0x20 * n), 2, 1, .ro, 0⟩
def WORLD_STREAM_CTL.SAFETY_COPY (n : Nat) : Field := ⟨(0x51000 + 0x20 * n), 1, 1, .ro, 0⟩
def WORLD_STREAM_CTL.ENABLE (n : Nat) : Field := ⟨(0x51000 + 0x20 * n), 0, 1, .rwe, 0⟩
/-! WORLD_STREAM_STATUS (Table 5-11). -/
def WORLD_STREAM_STATUS.SILENT (n : Nat) : Field := ⟨(0x51004 + 0x20 * n), 16, 16, .ro, 0⟩
def WORLD_STREAM_STATUS.LOSS (n : Nat) : Field := ⟨(0x51004 + 0x20 * n), 3, 1, .w1c, 0⟩
def WORLD_STREAM_STATUS.GAP (n : Nat) : Field := ⟨(0x51004 + 0x20 * n), 2, 1, .w1c, 0⟩
def WORLD_STREAM_STATUS.STALE (n : Nat) : Field := ⟨(0x51004 + 0x20 * n), 1, 1, .ro, 0⟩
def WORLD_STREAM_STATUS.ACTIVE (n : Nat) : Field := ⟨(0x51004 + 0x20 * n), 0, 1, .ro, 0⟩
/-! WORLD_STREAM_LAST_SEQ (Table 5-11). -/
def WORLD_STREAM_LAST_SEQ.SEQ (n : Nat) : Field := ⟨(0x51008 + 0x20 * n), 0, 32, .ro, 0⟩
/-! WORLD_STREAM_LATE (Table 5-11). -/
def WORLD_STREAM_LATE.LATE (n : Nat) : Field := ⟨(0x5100c + 0x20 * n), 0, 32, .ro, 0⟩
/-! WORLD_STREAM_DISCARD (Table 5-11). -/
def WORLD_STREAM_DISCARD.DISCARD (n : Nat) : Field := ⟨(0x51010 + 0x20 * n), 0, 32, .ro, 0⟩
/-! WORLD_STREAM_BAD_RECORD (Table 5-11). -/
def WORLD_STREAM_BAD_RECORD.BAD (n : Nat) : Field := ⟨(0x51014 + 0x20 * n), 0, 32, .ro, 0⟩
/-! WORLD_STREAM_BYTES (Table 5-11). -/
def WORLD_STREAM_BYTES.BYTES (n : Nat) : Field := ⟨(0x51018 + 0x20 * n), 0, 32, .ro, 0⟩
/-! WORLD_START_STATUS (Table 6-12). -/
def WORLD_START_STATUS.REUSE_COUNT : Field := ⟨0x50040, 16, 2, .ro, 0⟩
def WORLD_START_STATUS.TIME_RANGE : Field := ⟨0x50040, 10, 1, .w1c, 0⟩
def WORLD_START_STATUS.NON_FINITE : Field := ⟨0x50040, 9, 1, .w1c, 0⟩
def WORLD_START_STATUS.KIND_MISMATCH : Field := ⟨0x50040, 8, 1, .w1c, 0⟩
def WORLD_START_STATUS.NO_STATE : Field := ⟨0x50040, 2, 1, .ro, 0⟩
def WORLD_START_STATUS.REUSED : Field := ⟨0x50040, 1, 1, .ro, 0⟩
def WORLD_START_STATUS.OUTSIDE_ENVELOPE : Field := ⟨0x50040, 0, 1, .ro, 0⟩
/-! WORLD_START_PROJECTED (Table 6-12). -/
def WORLD_START_PROJECTED.PROJECTED : Field := ⟨0x50044, 0, 32, .ro, 0⟩
/-! WORLD_SEED_INVALID (Table 6-12). -/
def WORLD_SEED_INVALID.INVALID : Field := ⟨0x50048, 0, 32, .ro, 0⟩
/-! TILE_SWEEP_STATUS (Table 7-7). -/
def TILE_SWEEP_STATUS.OFF_GRID (n : Nat) : Field := ⟨(0x100200 + 0x1000 * n), 3, 1, .w1c, 0⟩
def TILE_SWEEP_STATUS.PRED_BEYOND (n : Nat) : Field := ⟨(0x100200 + 0x1000 * n), 2, 1, .w1c, 0⟩
def TILE_SWEEP_STATUS.SATURATED (n : Nat) : Field := ⟨(0x100200 + 0x1000 * n), 1, 1, .w1c, 0⟩
def TILE_SWEEP_STATUS.POISONED_READ (n : Nat) : Field := ⟨(0x100200 + 0x1000 * n), 0, 1, .w1c, 0⟩
/-! TILE_SWEEP_CANDIDATES (Table 7-7). -/
def TILE_SWEEP_CANDIDATES.RELEASED (n : Nat) : Field := ⟨(0x100204 + 0x1000 * n), 0, 32, .ro, 0⟩
/-! TILE_SWEEP_COLLIDED (Table 7-7). -/
def TILE_SWEEP_COLLIDED.COLLIDED (n : Nat) : Field := ⟨(0x100208 + 0x1000 * n), 0, 32, .ro, 0⟩
/-! TILE_SWEEP_QUERIES (Table 7-7). -/
def TILE_SWEEP_QUERIES.ISSUED (n : Nat) : Field := ⟨(0x10020c + 0x1000 * n), 0, 32, .ro, 0⟩
/-! TILE_SWEEP_CUT (Table 7-7). -/
def TILE_SWEEP_CUT.CUT (n : Nat) : Field := ⟨(0x100210 + 0x1000 * n), 0, 32, .ro, 0⟩
/-! TILE_PANEL_HITS (Table 7-7). -/
def TILE_PANEL_HITS.HITS (n : Nat) : Field := ⟨(0x100214 + 0x1000 * n), 0, 32, .ro, 0⟩
/-! TILE_PANEL_FILL_WC (Table 7-7). -/
def TILE_PANEL_FILL_WC.FILLS (n : Nat) : Field := ⟨(0x100218 + 0x1000 * n), 0, 32, .ro, 0⟩
/-! TILE_PANEL_FILL_HBM (Table 7-7). -/
def TILE_PANEL_FILL_HBM.FILLS (n : Nat) : Field := ⟨(0x10021c + 0x1000 * n), 0, 32, .ro, 0⟩
/-! TILE_LANE_BUSY (Table 7-7). -/
def TILE_LANE_BUSY.CYCLES (n : Nat) : Field := ⟨(0x100220 + 0x1000 * n), 0, 32, .ro, 0⟩
/-! TILE_SWEEP_WAIT (Table 7-7). -/
def TILE_SWEEP_WAIT.CYCLES (n : Nat) : Field := ⟨(0x100224 + 0x1000 * n), 0, 32, .ro, 0⟩
/-! LEDGER_STATUS (Table 8-7). -/
def LEDGER_STATUS.CMD_RESULT : Field := ⟨0x90000, 12, 4, .ro, 0⟩
def LEDGER_STATUS.REBUILD_PENDING : Field := ⟨0x90000, 11, 1, .ro, 0⟩
def LEDGER_STATUS.SEARCH_LATE : Field := ⟨0x90000, 10, 1, .w1c, 0⟩
def LEDGER_STATUS.NO_ENTRY : Field := ⟨0x90000, 9, 1, .w1c, 0⟩
def LEDGER_STATUS.STALE_PRESENT : Field := ⟨0x90000, 8, 1, .ro, 0⟩
def LEDGER_STATUS.PHASE : Field := ⟨0x90000, 0, 4, .ro, 0⟩
/-! LEDGER_CLOSED_EPOCH (Table 8-7). -/
def LEDGER_CLOSED_EPOCH.EPOCH : Field := ⟨0x90004, 0, 32, .ro, 0⟩
/-! LEDGER_SHIFT_XY (Table 8-7). -/
def LEDGER_SHIFT_XY.SY : Field := ⟨0x90008, 16, 16, .ro, 0⟩
def LEDGER_SHIFT_XY.SX : Field := ⟨0x90008, 0, 16, .ro, 0⟩
/-! LEDGER_SHIFT_Z (Table 8-7). -/
def LEDGER_SHIFT_Z.SZ : Field := ⟨0x9000c, 0, 16, .ro, 0⟩
/-! LEDGER_TRANSITIONS (Table 8-7). -/
def LEDGER_TRANSITIONS.TRANSITIONS : Field := ⟨0x90010, 0, 32, .ro, 0⟩
/-! LEDGER_UPDATES (Table 8-7). -/
def LEDGER_UPDATES.UPDATES : Field := ⟨0x90014, 0, 32, .ro, 0⟩
/-! LEDGER_TOUCHED (Table 8-7). -/
def LEDGER_TOUCHED.TOUCHED : Field := ⟨0x90018, 0, 32, .ro, 0⟩
/-! LEDGER_APPLY_CYCLES (Table 8-7). -/
def LEDGER_APPLY_CYCLES.CYCLES : Field := ⟨0x9001c, 0, 32, .ro, 0⟩
/-! LEDGER_REBUILD_COUNT (Table 8-7). -/
def LEDGER_REBUILD_COUNT.REBUILDS : Field := ⟨0x90020, 0, 32, .ro, 0⟩
/-! LEDGER_REBUILD_CAUSE (Table 8-7). -/
def LEDGER_REBUILD_CAUSE.CAUSE : Field := ⟨0x90024, 0, 3, .ro, 0⟩
/-! LEDGER_LATE_COUNT (Table 8-7). -/
def LEDGER_LATE_COUNT.LATE : Field := ⟨0x90028, 0, 32, .ro, 0⟩
/-! LEDGER_RELAX (Table 8-7). -/
def LEDGER_RELAX.RELAX : Field := ⟨0x9002c, 0, 32, .ro, 0⟩
/-! LEDGER_PATHS (Table 8-7). -/
def LEDGER_PATHS.COMPLETE : Field := ⟨0x90030, 8, 1, .ro, 0⟩
def LEDGER_PATHS.PATHS : Field := ⟨0x90030, 0, 8, .ro, 0⟩
/-! LEDGER_STALE_RECORDS (Table 8-7). -/
def LEDGER_STALE_RECORDS.STALE : Field := ⟨0x90034, 0, 32, .ro, 0⟩
/-! LEDGER_QUEUE_DEPTH (Table 8-7). -/
def LEDGER_QUEUE_DEPTH.DEPTH : Field := ⟨0x90038, 0, 32, .ro, 0⟩
/-! LEDGER_CMD (Table 8-7). -/
def LEDGER_CMD.REBUILD : Field := ⟨0x9003c, 0, 1, .wo, 0⟩
/-! LEDGER_SPARES (Table 8-7). -/
def LEDGER_SPARES.USED : Field := ⟨0x90040, 0, 16, .ro, 0⟩
/-! LEDGER_EDGE_COUNT (Table 8-7). -/
def LEDGER_EDGE_COUNT.EDGES : Field := ⟨0x90044, 0, 23, .ro, 0⟩
/-! LEDGER_NODE_COUNT (Table 8-7). -/
def LEDGER_NODE_COUNT.NODES : Field := ⟨0x90048, 0, 21, .ro, 0⟩
/-! FRAME_PROPOSE_STATUS (Table 9-10). -/
def FRAME_PROPOSE_STATUS.DISABLED : Field := ⟨0x40200, 4, 1, .ro, 0⟩
def FRAME_PROPOSE_STATUS.ABANDONED : Field := ⟨0x40200, 3, 1, .ro, 0⟩
def FRAME_PROPOSE_STATUS.CUT : Field := ⟨0x40200, 2, 1, .ro, 0⟩
def FRAME_PROPOSE_STATUS.NO_STATE : Field := ⟨0x40200, 1, 1, .ro, 0⟩
def FRAME_PROPOSE_STATUS.COMPLETE : Field := ⟨0x40200, 0, 1, .ro, 0⟩
/-! FRAME_PROPOSE_SEED_BLOCKS (Table 9-10). -/
def FRAME_PROPOSE_SEED_BLOCKS.BLOCKS : Field := ⟨0x40204, 0, 32, .ro, 0⟩
/-! FRAME_PROPOSE_DONE_US (Table 9-10). -/
def FRAME_PROPOSE_DONE_US.DONE : Field := ⟨0x40208, 0, 32, .ro, 0⟩
/-! FRAME_PROPOSE_EMBED_RANGE (Table 9-10). -/
def FRAME_PROPOSE_EMBED_RANGE.RANGE : Field := ⟨0x4020c, 0, 32, .ro, 0⟩
/-! TILE_TENSOR_STATUS (Table 9-11). -/
def TILE_TENSOR_STATUS.REPLAYING (n : Nat) : Field := ⟨(0x100300 + 0x1000 * n), 1, 1, .ro, 0⟩
def TILE_TENSOR_STATUS.MISS (n : Nat) : Field := ⟨(0x100300 + 0x1000 * n), 0, 1, .w1c, 0⟩
/-! TILE_TENSOR_CYCLES (Table 9-11). -/
def TILE_TENSOR_CYCLES.CYCLES (n : Nat) : Field := ⟨(0x100304 + 0x1000 * n), 0, 32, .ro, 0⟩
/-! TILE_CHK_MISS (Table 9-11). -/
def TILE_CHK_MISS.MISS (n : Nat) : Field := ⟨(0x100308 + 0x1000 * n), 0, 32, .ro, 0⟩
/-! TILE_CHK_NEAR (Table 9-11). -/
def TILE_CHK_NEAR.NEAR (n : Nat) : Field := ⟨(0x10030c + 0x1000 * n), 0, 32, .ro, 0⟩
/-! TILE_CHK_SKIPPED (Table 9-11). -/
def TILE_CHK_SKIPPED.SKIPPED (n : Nat) : Field := ⟨(0x100310 + 0x1000 * n), 0, 32, .ro, 0⟩
/-! TILE_DOWEL_MISS (Table 9-11). -/
def TILE_DOWEL_MISS.MISS (n : Nat) : Field := ⟨(0x100314 + 0x1000 * n), 0, 32, .ro, 0⟩
/-! ORDER_STATUS (Table 10-7). -/
def ORDER_STATUS.SUSPECT : Field := ⟨0x70000, 7, 1, .ro, 0⟩
def ORDER_STATUS.FALLBACK_PATH : Field := ⟨0x70000, 6, 1, .ro, 0⟩
def ORDER_STATUS.REPEATED : Field := ⟨0x70000, 5, 1, .w1c, 0⟩
def ORDER_STATUS.SCORE_CONFLICT : Field := ⟨0x70000, 4, 1, .w1c, 0⟩
def ORDER_STATUS.TIES_BEYOND_K : Field := ⟨0x70000, 3, 1, .ro, 0⟩
def ORDER_STATUS.SHORT : Field := ⟨0x70000, 2, 1, .ro, 0⟩
/-! ORDER_K (Table 10-7). -/
def ORDER_K.K : Field := ⟨0x70004, 0, 9, .ro, 0⟩
/-! ORDER_COUNT (Table 10-7). -/
def ORDER_COUNT.N : Field := ⟨0x70008, 0, 9, .ro, 0⟩
/-! ORDER_NAN_COUNT (Table 10-7). -/
def ORDER_NAN_COUNT.NAN : Field := ⟨0x7000c, 0, 32, .ro, 0⟩
/-! ORDER_TIE_COUNT (Table 10-7). -/
def ORDER_TIE_COUNT.TIES : Field := ⟨0x70010, 0, 8, .ro, 0⟩
/-! ORDER_LISTS (Table 10-7). -/
def ORDER_LISTS.LISTS : Field := ⟨0x70014, 0, 8, .ro, 0⟩
/-! ORDER_CYCLES (Table 10-7). -/
def ORDER_CYCLES.CYCLES : Field := ⟨0x70018, 0, 32, .ro, 0⟩
/-! ORDER_CONFLICT_COUNT (Table 10-7). -/
def ORDER_CONFLICT_COUNT.CONFLICTS : Field := ⟨0x7001c, 0, 32, .ro, 0⟩
/-! ORDER_FALLBACK_COUNT (Table 10-7). -/
def ORDER_FALLBACK_COUNT.EPOCHS : Field := ⟨0x70020, 0, 32, .ro, 0⟩
/-! ORDER_NAN_TOTAL (Table 10-7). -/
def ORDER_NAN_TOTAL.NAN : Field := ⟨0x70024, 0, 32, .ro, 0⟩
/-! ORDER_TOP (Table 10-7). -/
def ORDER_TOP.ENTRY (n : Nat) : Field := ⟨(0x71000 + 4 * n), 0, 32, .ro, 0⟩
/-! SOLVER_STATUS (Table 11-8). -/
def SOLVER_STATUS.SUSPECT : Field := ⟨0x80000, 16, 4, .ro, 0⟩
def SOLVER_STATUS.GOOD : Field := ⟨0x80000, 12, 4, .ro, 0⟩
def SOLVER_STATUS.DIAG_BUSY : Field := ⟨0x80000, 11, 1, .ro, 0⟩
def SOLVER_STATUS.NO_ENGINE : Field := ⟨0x80000, 10, 1, .w1c, 0⟩
def SOLVER_STATUS.REPLAYED : Field := ⟨0x80000, 9, 1, .w1c, 0⟩
/-! SOLVER_RESULT (Table 11-8). -/
def SOLVER_RESULT.ITERATIONS : Field := ⟨0x80004, 16, 16, .ro, 0⟩
def SOLVER_RESULT.RFLAGS : Field := ⟨0x80004, 8, 8, .ro, 0⟩
def SOLVER_RESULT.ENGINE : Field := ⟨0x80004, 6, 2, .ro, 0⟩
def SOLVER_RESULT.STATUS : Field := ⟨0x80004, 0, 3, .ro, 7⟩
/-! SOLVER_PROBLEM_INFO (Table 11-8). -/
def SOLVER_PROBLEM_INFO.NC : Field := ⟨0x80008, 24, 8, .ro, 0⟩
def SOLVER_PROBLEM_INFO.NU : Field := ⟨0x80008, 20, 4, .ro, 0⟩
def SOLVER_PROBLEM_INFO.NX : Field := ⟨0x80008, 15, 5, .ro, 0⟩
def SOLVER_PROBLEM_INFO.PRECISION : Field := ⟨0x80008, 14, 1, .ro, 0⟩
def SOLVER_PROBLEM_INFO.N : Field := ⟨0x80008, 0, 9, .ro, 0⟩
/-! SOLVER_FIT_ITER (Table 11-8). -/
def SOLVER_FIT_ITER.FIT : Field := ⟨0x8000c, 0, 16, .ro, 0⟩
/-! SOLVER_ITER_CYCLES (Table 11-8). -/
def SOLVER_ITER_CYCLES.CYCLES : Field := ⟨0x80010, 0, 32, .ro, 0⟩
/-! SOLVER_RETURN_NS (Table 11-8). -/
def SOLVER_RETURN_NS.RETURN : Field := ⟨0x80014, 0, 32, .ro, 0⟩
/-! SOLVER_RES_PRIM (Table 11-8). -/
def SOLVER_RES_PRIM.RES : Field := ⟨0x80018, 0, 32, .ro, 0⟩
/-! SOLVER_GAP (Table 11-8). -/
def SOLVER_GAP.GAP : Field := ⟨0x8001c, 0, 32, .ro, 0⟩
/-! SOLVER_DEADLINE_COUNT (Table 11-8). -/
def SOLVER_DEADLINE_COUNT.COUNT : Field := ⟨0x80020, 0, 32, .ro, 0⟩
/-! SOLVER_NUMERIC_COUNT (Table 11-8). -/
def SOLVER_NUMERIC_COUNT.COUNT : Field := ⟨0x80024, 0, 32, .ro, 0⟩
/-! SOLVER_COLD_COUNT (Table 11-8). -/
def SOLVER_COLD_COUNT.COUNT : Field := ⟨0x80028, 0, 32, .ro, 0⟩
/-! SOLVER_DIAG_STATUS (Table 11-8). -/
def SOLVER_DIAG_STATUS.RESULT : Field := ⟨0x8002c, 28, 4, .ro, 0⟩
def SOLVER_DIAG_STATUS.ENGINE : Field := ⟨0x8002c, 26, 2, .ro, 0⟩
def SOLVER_DIAG_STATUS.PIVOT : Field := ⟨0x8002c, 9, 7, .ro, 0⟩
def SOLVER_DIAG_STATUS.STAGE : Field := ⟨0x8002c, 0, 9, .ro, 0⟩
/-! FRAME_SPEC_CTL (Table 12-6). -/
def FRAME_SPEC_CTL.MODE : Field := ⟨0x40100, 24, 1, .ro, 0⟩
def FRAME_SPEC_CTL.RUNAHEAD : Field := ⟨0x40100, 16, 2, .ro, 0⟩
def FRAME_SPEC_CTL.TILE_LIMIT : Field := ⟨0x40100, 8, 6, .rwe, 0⟩
def FRAME_SPEC_CTL.ENABLE : Field := ⟨0x40100, 0, 1, .rwe, 0⟩
/-! FRAME_BUDGET_STATUS (Table 12-6). -/
def FRAME_BUDGET_STATUS.SHIFT_MATCH : Field := ⟨0x40104, 11, 1, .ro, 0⟩
def FRAME_BUDGET_STATUS.START_MATCH : Field := ⟨0x40104, 10, 1, .ro, 0⟩
def FRAME_BUDGET_STATUS.SPEC_USED : Field := ⟨0x40104, 9, 1, .ro, 0⟩
def FRAME_BUDGET_STATUS.REFINE_CUT : Field := ⟨0x40104, 7, 1, .ro, 0⟩
def FRAME_BUDGET_STATUS.PROPOSE_CUT : Field := ⟨0x40104, 6, 1, .ro, 0⟩
def FRAME_BUDGET_STATUS.SEARCH_LATE : Field := ⟨0x40104, 5, 1, .ro, 0⟩
def FRAME_BUDGET_STATUS.SEARCH_CUT : Field := ⟨0x40104, 4, 1, .ro, 0⟩
def FRAME_BUDGET_STATUS.SWEEP_CUT : Field := ⟨0x40104, 3, 1, .ro, 0⟩
def FRAME_BUDGET_STATUS.BUDGET_CUT : Field := ⟨0x40104, 1, 1, .ro, 0⟩
def FRAME_BUDGET_STATUS.DEADLINE_HIT : Field := ⟨0x40104, 0, 1, .ro, 0⟩
/-! FRAME_SPEC_EPOCH (Table 12-6). -/
def FRAME_SPEC_EPOCH.EPOCH : Field := ⟨0x40108, 0, 32, .ro, 0⟩
/-! FRAME_SPEC_KEPT (Table 12-6). -/
def FRAME_SPEC_KEPT.KEPT : Field := ⟨0x4010c, 0, 32, .ro, 0⟩
/-! FRAME_SPEC_SQUASHED (Table 12-6). -/
def FRAME_SPEC_SQUASHED.SQUASHED : Field := ⟨0x40110, 0, 32, .ro, 0⟩
/-! FRAME_SPEC_RECOMPUTED (Table 12-6). -/
def FRAME_SPEC_RECOMPUTED.BLOCKS : Field := ⟨0x40114, 0, 32, .ro, 0⟩
/-! FRAME_SPEC_RESTARTS (Table 12-6). -/
def FRAME_SPEC_RESTARTS.RESTARTS : Field := ⟨0x40118, 0, 32, .ro, 0⟩
/-! FRAME_SPEC_DISCARDS (Table 12-6). -/
def FRAME_SPEC_DISCARDS.DISCARDS : Field := ⟨0x4011c, 0, 32, .ro, 0⟩
/-! FRAME_SPEC_FULL (Table 12-6). -/
def FRAME_SPEC_FULL.FULL : Field := ⟨0x40120, 0, 32, .ro, 0⟩
/-! FRAME_CANDIDATES (Table 12-6). -/
def FRAME_CANDIDATES.SWEPT : Field := ⟨0x40124, 0, 32, .ro, 0⟩
/-! FRAME_DEADLINE_HIT_COUNT (Table 12-6). -/
def FRAME_DEADLINE_HIT_COUNT.COUNT : Field := ⟨0x40128, 0, 32, .ro, 0⟩
/-! FRAME_BUDGET_CUT_COUNT (Table 12-6). -/
def FRAME_BUDGET_CUT_COUNT.COUNT : Field := ⟨0x4012c, 0, 32, .ro, 0⟩
/-! FRAME_PRED_EPOCH (Table 12-6). -/
def FRAME_PRED_EPOCH.EPOCH : Field := ⟨0x40130, 0, 32, .ro, 0⟩
/-! FRAME_PRED_STATE (Table 12-6). -/
def FRAME_PRED_STATE.STATE (n : Nat) : Field := ⟨(0x40400 + 4 * n), 0, 32, .ro, 0⟩
/-! JIG_STATUS (Table 13-9). -/
def JIG_STATUS.TRACE_FULL : Field := ⟨0x60000, 2, 1, .ro, 0⟩
def JIG_STATUS.PEND_READY : Field := ⟨0x60000, 1, 1, .ro, 0⟩
def JIG_STATUS.BACKPRESSURE : Field := ⟨0x60000, 0, 1, .ro, 0⟩
/-! JIG_AFFINITY (Table 13-9). -/
def JIG_AFFINITY.THRESHOLD : Field := ⟨0x60004, 0, 11, .rwe, 0⟩
/-! JIG_TICK (Table 13-9). -/
def JIG_TICK.TICK : Field := ⟨0x60008, 0, 32, .ro, 0⟩
/-! JIG_DESC_FREE_MIN (Table 13-9). -/
def JIG_DESC_FREE_MIN.FREE : Field := ⟨0x6000c, 0, 12, .ro, 0x800⟩
/-! JIG_MIGRATIONS (Table 13-9). -/
def JIG_MIGRATIONS.COUNT : Field := ⟨0x60010, 0, 32, .ro, 0⟩
/-! JIG_DECLINES (Table 13-9). -/
def JIG_DECLINES.COUNT : Field := ⟨0x60014, 0, 32, .ro, 0⟩
/-! JIG_BACKPRESSURE (Table 13-9). -/
def JIG_BACKPRESSURE.COUNT : Field := ⟨0x60018, 0, 32, .ro, 0⟩
/-! JIG_BUSY_ACKS (Table 13-9). -/
def JIG_BUSY_ACKS.COUNT : Field := ⟨0x6001c, 0, 32, .ro, 0⟩
/-! JIG_TEST_ADMITS (Table 13-9). -/
def JIG_TEST_ADMITS.COUNT : Field := ⟨0x60020, 0, 32, .ro, 0⟩
/-! JIG_TEST_DEFERS (Table 13-9). -/
def JIG_TEST_DEFERS.COUNT : Field := ⟨0x60024, 0, 32, .ro, 0⟩
/-! JIG_TEST_ABORTS (Table 13-9). -/
def JIG_TEST_ABORTS.COUNT : Field := ⟨0x60028, 0, 32, .ro, 0⟩
/-! JIG_TRACE_CTL (Table 13-9). -/
def JIG_TRACE_CTL.STOP : Field := ⟨0x60030, 16, 1, .rw, 0⟩
def JIG_TRACE_CTL.ENABLE : Field := ⟨0x60030, 0, 7, .rw, 0⟩
/-! JIG_TRACE_WR (Table 13-9). -/
def JIG_TRACE_WR.WRAPS : Field := ⟨0x60034, 16, 16, .ro, 0⟩
def JIG_TRACE_WR.INDEX : Field := ⟨0x60034, 0, 16, .ro, 0⟩
/-! JIG_TRACE_RD (Table 13-9). -/
def JIG_TRACE_RD.INDEX : Field := ⟨0x60038, 0, 16, .rw, 0⟩
/-! JIG_TRACE_LOST (Table 13-9). -/
def JIG_TRACE_LOST.COUNT : Field := ⟨0x6003c, 0, 32, .ro, 0⟩
/-! JIG_TRACE_DATA (Table 13-9). -/
def JIG_TRACE_DATA.DATA (n : Nat) : Field := ⟨(0x60040 + 4 * n), 0, 32, .ro, 0⟩
/-! JIG_FLOW_SEL (Table 13-9). -/
def JIG_FLOW_SEL.FLOW : Field := ⟨0x60050, 0, 12, .rw, 0⟩
/-! JIG_FLOW_INFO (Table 13-9). -/
def JIG_FLOW_INFO.HELD : Field := ⟨0x60054, 16, 16, .ro, 0⟩
def JIG_FLOW_INFO.NEXT : Field := ⟨0x60054, 0, 16, .ro, 0⟩
/-! TILE_JIG_STATE (Table 13-10). -/
def TILE_JIG_STATE.RUNNING (n : Nat) : Field := ⟨(0x100400 + 0x1000 * n), 16, 9, .ro, 0⟩
def TILE_JIG_STATE.READY (n : Nat) : Field := ⟨(0x100400 + 0x1000 * n), 0, 11, .ro, 0⟩
/-! TILE_JIG_DISPATCHES (Table 13-10). -/
def TILE_JIG_DISPATCHES.COUNT (n : Nat) : Field := ⟨(0x100404 + 0x1000 * n), 0, 32, .ro, 0⟩
/-! TILE_JIG_SLICE_BUSY (Table 13-10). -/
def TILE_JIG_SLICE_BUSY.CYCLES (n : Nat) : Field := ⟨(0x100408 + 0x1000 * n), 0, 32, .ro, 0⟩
/-! SAFE_VERDICT (Table 14-8). -/
def SAFE_VERDICT.DISAGREE : Field := ⟨0xa0000, 8, 5, .ro, 0⟩
def SAFE_VERDICT.SHADOW : Field := ⟨0xa0000, 3, 1, .ro, 0⟩
def SAFE_VERDICT.VERDICT : Field := ⟨0xa0000, 0, 3, .ro, 0⟩
/-! SAFE_VERDICT_EPOCH (Table 14-8). -/
def SAFE_VERDICT_EPOCH.EPOCH : Field := ⟨0xa0004, 0, 32, .ro, 0⟩
/-! SAFE_REASON (Table 14-8). -/
def SAFE_REASON.REASON : Field := ⟨0xa0008, 0, 16, .ro, 0⟩
/-! SAFE_MODE (Table 14-8). -/
def SAFE_MODE.ISLAND_FAULT : Field := ⟨0xa000c, 11, 1, .ro, 0⟩
def SAFE_MODE.WD_EXPIRED : Field := ⟨0xa000c, 10, 1, .w1c, 0⟩
def SAFE_MODE.COPY_LOSS : Field := ⟨0xa000c, 9, 1, .w1c, 0⟩
def SAFE_MODE.ARMED : Field := ⟨0xa000c, 8, 1, .ro, 0⟩
def SAFE_MODE.RESTARTS : Field := ⟨0xa000c, 4, 2, .ro, 0⟩
def SAFE_MODE.MODE : Field := ⟨0xa000c, 0, 3, .ro, 0⟩
/-! SAFE_FB_REMAIN (Table 14-8). -/
def SAFE_FB_REMAIN.MS : Field := ⟨0xa0010, 0, 32, .ro, 0⟩
/-! SAFE_TS_CLEARANCE (Table 14-8). -/
def SAFE_TS_CLEARANCE.LTS : Field := ⟨0xa0014, 0, 32, .ro, 0⟩
/-! SAFE_MAIN_CLEARANCE (Table 14-8). -/
def SAFE_MAIN_CLEARANCE.FINAL : Field := ⟨0xa0018, 0, 32, .ro, 0⟩
/-! SAFE_WINDOW (Table 14-8). -/
def SAFE_WINDOW.MAP : Field := ⟨0xa001c, 0, 16, .ro, 0⟩
/-! SAFE_VERIFY_NEED (Table 14-8). -/
def SAFE_VERIFY_NEED.US : Field := ⟨0xa0020, 0, 32, .ro, 0⟩
/-! SAFE_ENTRY_COUNT (Table 14-8). -/
def SAFE_ENTRY_COUNT.COUNT : Field := ⟨0xa0024, 0, 32, .ro, 0⟩
/-! SAFE_STOP_COUNT (Table 14-8). -/
def SAFE_STOP_COUNT.COUNT : Field := ⟨0xa0028, 0, 32, .ro, 0⟩
/-! SAFE_PREV_COUNT (Table 14-8). -/
def SAFE_PREV_COUNT.COUNT : Field := ⟨0xa002c, 0, 32, .ro, 0⟩
/-! SAFE_FB_COUNT (Table 14-8). -/
def SAFE_FB_COUNT.COUNT : Field := ⟨0xa0030, 0, 32, .ro, 0⟩
/-! SAFE_CMD (Table 14-8). -/
def SAFE_CMD.ENTER : Field := ⟨0xa0034, 0, 1, .wo, 0⟩
/-! SAFE_SP_STRAPS (Table 15-9). -/
def SAFE_SP_STRAPS.ADDRESS : Field := ⟨0xa0100, 12, 4, .ro, 0⟩
def SAFE_SP_STRAPS.WARM : Field := ⟨0xa0100, 11, 1, .ro, 0⟩
def SAFE_SP_STRAPS.REF : Field := ⟨0xa0100, 10, 1, .ro, 0⟩
def SAFE_SP_STRAPS.DEBUG : Field := ⟨0xa0100, 9, 1, .ro, 0⟩
def SAFE_SP_STRAPS.SP_ENABLE : Field := ⟨0xa0100, 8, 1, .ro, 0⟩
def SAFE_SP_STRAPS.RATE : Field := ⟨0xa0100, 6, 2, .ro, 0⟩
def SAFE_SP_STRAPS.PAIR : Field := ⟨0xa0100, 4, 2, .ro, 0⟩
def SAFE_SP_STRAPS.ROLE : Field := ⟨0xa0100, 2, 2, .ro, 0⟩
def SAFE_SP_STRAPS.BOOT : Field := ⟨0xa0100, 0, 2, .ro, 0⟩
/-! SAFE_SP_STATUS (Table 15-9). -/
def SAFE_SP_STATUS.GENERATION : Field := ⟨0xa0104, 16, 16, .ro, 0⟩
def SAFE_SP_STATUS.STRAP_ERROR : Field := ⟨0xa0104, 8, 4, .ro, 0⟩
def SAFE_SP_STATUS.PHASE : Field := ⟨0xa0104, 0, 2, .ro, 0⟩
/-! SAFE_SP_SWAPS (Table 15-9). -/
def SAFE_SP_SWAPS.COUNT : Field := ⟨0xa0108, 0, 32, .ro, 0⟩
/-! SAFE_SP_CLIPPED (Table 15-9). -/
def SAFE_SP_CLIPPED.COUNT : Field := ⟨0xa010c, 0, 32, .ro, 0⟩
/-! SAFE_SP_WAKE_CFG (Table 15-9). -/
def SAFE_SP_WAKE_CFG.MODE : Field := ⟨0xa0110, 16, 8, .rw, 0⟩
def SAFE_SP_WAKE_CFG.POLARITY : Field := ⟨0xa0110, 8, 8, .rw, 0⟩
def SAFE_SP_WAKE_CFG.ENABLE : Field := ⟨0xa0110, 0, 8, .rw, 0⟩
/-! SAFE_SP_WAKE_STATUS (Table 15-9). -/
def SAFE_SP_WAKE_STATUS.SOURCE : Field := ⟨0xa0114, 0, 8, .w1c, 0⟩
/-! SAFE_SP_TABLE (Table 15-9). -/
def SAFE_SP_TABLE.PAIR (n : Nat) : Field := ⟨(0xa1000 + 4 * n), 0, 32, .ro, 0⟩
/-! ETH_STATUS (Table 16-14). -/
def ETH_STATUS.PTP_PORT : Field := ⟨0xc0000, 9, 2, .ro, 0⟩
def ETH_STATUS.PTP_SYNCED : Field := ⟨0xc0000, 8, 1, .ro, 0⟩
def ETH_STATUS.LINK : Field := ⟨0xc0000, 0, 4, .ro, 0⟩
/-! ETH_PTP_OFFSET (Table 16-14). -/
def ETH_PTP_OFFSET.OFFSET : Field := ⟨0xc0004, 0, 32, .ro, 0⟩
/-! ETH_CTL (Table 16-14). -/
def ETH_CTL.TRACE_STREAM : Field := ⟨0xc0008, 0, 1, .rw, 0⟩
/-! ETH_PUSH_NEXT_LO (Table 16-14). -/
def ETH_PUSH_NEXT_LO.NEXT_LO : Field := ⟨0xc000c, 0, 32, .ro, 0⟩
/-! ETH_PUSH_NEXT_HI (Table 16-14). -/
def ETH_PUSH_NEXT_HI.NEXT_HI : Field := ⟨0xc0010, 0, 32, .ro, 0⟩
/-! ETH_PORT_CTL (Table 16-14). -/
def ETH_PORT_CTL.MACSEC (n : Nat) : Field := ⟨(0xc0040 + 0x10 * n), 4, 1, .rwq, 0⟩
def ETH_PORT_CTL.AN (n : Nat) : Field := ⟨(0xc0040 + 0x10 * n), 3, 1, .rwq, 0⟩
def ETH_PORT_CTL.JUMBO (n : Nat) : Field := ⟨(0xc0040 + 0x10 * n), 2, 1, .rwq, 0⟩
def ETH_PORT_CTL.RATE (n : Nat) : Field := ⟨(0xc0040 + 0x10 * n), 0, 2, .rwq, 0⟩
/-! ETH_PORT_STATUS (Table 16-14). -/
def ETH_PORT_STATUS.MACSEC_UP (n : Nat) : Field := ⟨(0xc0044 + 0x10 * n), 3, 1, .ro, 0⟩
def ETH_PORT_STATUS.PREEMPT (n : Nat) : Field := ⟨(0xc0044 + 0x10 * n), 2, 1, .ro, 0⟩
def ETH_PORT_STATUS.RATE (n : Nat) : Field := ⟨(0xc0044 + 0x10 * n), 0, 2, .ro, 0⟩
/-! ETH_PORT_RX_ERR (Table 16-14). -/
def ETH_PORT_RX_ERR.COUNT (n : Nat) : Field := ⟨(0xc0048 + 0x10 * n), 0, 32, .ro, 0⟩
/-! ETH_PORT_TX_DROP (Table 16-14). -/
def ETH_PORT_TX_DROP.COUNT (n : Nat) : Field := ⟨(0xc004c + 0x10 * n), 0, 32, .ro, 0⟩
/-! ETH_RX_DROP (Table 16-14). -/
def ETH_RX_DROP.COUNT (n : Nat) : Field := ⟨(0xc0100 + 4 * n), 0, 32, .ro, 0⟩
/-! ETH_PART_STATUS (Table 16-14). -/
def ETH_PART_STATUS.JOBS (n : Nat) : Field := ⟨(0xc0200 + 0x20 * n), 2, 7, .ro, 0⟩
def ETH_PART_STATUS.ROLL_DUE (n : Nat) : Field := ⟨(0xc0200 + 0x20 * n), 1, 1, .ro, 0⟩
def ETH_PART_STATUS.KEY_VALID (n : Nat) : Field := ⟨(0xc0200 + 0x20 * n), 0, 1, .ro, 0⟩
/-! ETH_PART_RX_SEQ (Table 16-14). -/
def ETH_PART_RX_SEQ.SEQ (n : Nat) : Field := ⟨(0xc0204 + 0x20 * n), 0, 32, .ro, 0⟩
/-! ETH_PART_TX_SEQ (Table 16-14). -/
def ETH_PART_TX_SEQ.SEQ (n : Nat) : Field := ⟨(0xc0208 + 0x20 * n), 0, 32, .ro, 0⟩
/-! ETH_PART_AUTH_FAIL (Table 16-14). -/
def ETH_PART_AUTH_FAIL.COUNT (n : Nat) : Field := ⟨(0xc020c + 0x20 * n), 0, 32, .ro, 0⟩
/-! ETH_PART_METER_DROP (Table 16-14). -/
def ETH_PART_METER_DROP.COUNT (n : Nat) : Field := ⟨(0xc0210 + 0x20 * n), 0, 32, .ro, 0⟩
/-! ETH_PART_RESULTS (Table 16-14). -/
def ETH_PART_RESULTS.COUNT (n : Nat) : Field := ⟨(0xc0214 + 0x20 * n), 0, 32, .ro, 0⟩
/-! ETH_MACSEC_SAK (Table 16-14). -/
def ETH_MACSEC_SAK.KEY (m n : Nat) : Field := ⟨(0xc0400 + 0x40 * m + 4 * n), 0, 32, .wo, 0⟩
/-! ETH_MACSEC_INSTALL (Table 16-14). -/
def ETH_MACSEC_INSTALL.RX (n : Nat) : Field := ⟨(0xc0420 + 0x40 * n), 2, 1, .wo, 0⟩
def ETH_MACSEC_INSTALL.AN (n : Nat) : Field := ⟨(0xc0420 + 0x40 * n), 0, 2, .wo, 0⟩
/-! TENON_STATUS (Table 17-10). -/
def TENON_STATUS.DEVICE : Field := ⟨0xd0000, 20, 12, .ro, 0xfff⟩
def TENON_STATUS.PAIR_LINKED : Field := ⟨0xd0000, 15, 1, .ro, 0⟩
def TENON_STATUS.SPARE : Field := ⟨0xd0000, 14, 1, .ro, 0⟩
def TENON_STATUS.STATE : Field := ⟨0xd0000, 8, 3, .ro, 0⟩
def TENON_STATUS.FAIL : Field := ⟨0xd0000, 0, 8, .ro, 0⟩
/-! TENON_CHAIN (Table 17-10). -/
def TENON_CHAIN.ACTIVE : Field := ⟨0xd0004, 16, 12, .ro, 0⟩
def TENON_CHAIN.POSITION : Field := ⟨0xd0004, 0, 12, .ro, 0xfff⟩
/-! TENON_DEVICES (Table 17-10). -/
def TENON_DEVICES.TAIL : Field := ⟨0xd0008, 16, 12, .ro, 0xfff⟩
def TENON_DEVICES.COUNT : Field := ⟨0xd0008, 0, 12, .ro, 0⟩
/-! TENON_WORST_NS (Table 17-10). -/
def TENON_WORST_NS.WORST : Field := ⟨0xd000c, 0, 32, .ro, 0⟩
/-! TENON_BUDGET_NS (Table 17-10). -/
def TENON_BUDGET_NS.BUDGET : Field := ⟨0xd0010, 0, 32, .ro, 0⟩
/-! TENON_CMD (Table 17-10). -/
def TENON_CMD.ENUMERATE : Field := ⟨0xd0014, 1, 1, .wo, 0⟩
def TENON_CMD.CLAMP : Field := ⟨0xd0014, 0, 1, .wo, 0⟩
/-! TENON_CMD_STATUS (Table 17-10). -/
def TENON_CMD_STATUS.RESULT : Field := ⟨0xd0018, 0, 8, .ro, 0⟩
/-! TENON_CLAMP_SKEW_PS (Table 17-10). -/
def TENON_CLAMP_SKEW_PS.SKEW : Field := ⟨0xd001c, 0, 32, .ro, 0⟩
/-! TENON_SQUASH_SENT (Table 17-10). -/
def TENON_SQUASH_SENT.COUNT : Field := ⟨0xd0020, 0, 32, .ro, 0⟩
/-! TENON_SQUASH_RECEIVED (Table 17-10). -/
def TENON_SQUASH_RECEIVED.COUNT : Field := ⟨0xd0024, 0, 32, .ro, 0⟩
/-! TENON_CONFIRM_LATE (Table 17-10). -/
def TENON_CONFIRM_LATE.COUNT : Field := ⟨0xd0028, 0, 32, .ro, 0⟩
/-! TENON_LIST_LATE (Table 17-10). -/
def TENON_LIST_LATE.COUNT : Field := ⟨0xd002c, 0, 32, .ro, 0⟩
/-! TENON_PAIR_MATCH (Table 17-10). -/
def TENON_PAIR_MATCH.COUNT : Field := ⟨0xd0030, 0, 32, .ro, 0⟩
/-! TENON_PAIR_MISMATCH (Table 17-10). -/
def TENON_PAIR_MISMATCH.COUNT : Field := ⟨0xd0034, 0, 32, .ro, 0⟩
/-! TENON_PAIR_SKIPPED (Table 17-10). -/
def TENON_PAIR_SKIPPED.COUNT : Field := ⟨0xd0038, 0, 32, .ro, 0⟩
/-! TENON_PAIR_EPOCH (Table 17-10). -/
def TENON_PAIR_EPOCH.EPOCH : Field := ⟨0xd003c, 0, 32, .ro, 0⟩
/-! TENON_LINK_CTL (Table 17-10). -/
def TENON_LINK_CTL.ENABLE (n : Nat) : Field := ⟨(0xd0100 + 0x40 * n), 0, 1, .rwq, 1⟩
/-! TENON_LINK_STATUS (Table 17-10). -/
def TENON_LINK_STATUS.PEER (n : Nat) : Field := ⟨(0xd0104 + 0x40 * n), 20, 12, .ro, 0xfff⟩
def TENON_LINK_STATUS.USE (n : Nat) : Field := ⟨(0xd0104 + 0x40 * n), 14, 2, .ro, 3⟩
def TENON_LINK_STATUS.STATE (n : Nat) : Field := ⟨(0xd0104 + 0x40 * n), 0, 2, .ro, 0⟩
/-! TENON_LINK_LAT_PS (Table 17-10). -/
def TENON_LINK_LAT_PS.LATENCY (n : Nat) : Field := ⟨(0xd0108 + 0x40 * n), 0, 32, .ro, 0⟩
/-! TENON_LINK_REPLAYS (Table 17-10). -/
def TENON_LINK_REPLAYS.COUNT (n : Nat) : Field := ⟨(0xd010c + 0x40 * n), 0, 32, .ro, 0⟩
/-! TENON_LINK_CRC_ERR (Table 17-10). -/
def TENON_LINK_CRC_ERR.COUNT (n : Nat) : Field := ⟨(0xd0110 + 0x40 * n), 0, 32, .ro, 0⟩
/-! TENON_LINK_FEC_CORR (Table 17-10). -/
def TENON_LINK_FEC_CORR.COUNT (n : Nat) : Field := ⟨(0xd0114 + 0x40 * n), 0, 32, .ro, 0⟩
/-! TENON_LINK_FEC_UNCORR (Table 17-10). -/
def TENON_LINK_FEC_UNCORR.COUNT (n : Nat) : Field := ⟨(0xd0118 + 0x40 * n), 0, 32, .ro, 0⟩
/-! TENON_LINK_RETRAINS (Table 17-10). -/
def TENON_LINK_RETRAINS.COUNT (n : Nat) : Field := ⟨(0xd011c + 0x40 * n), 0, 32, .ro, 0⟩
/-! TENON_LINK_CREDITS (Table 17-10). -/
def TENON_LINK_CREDITS.SHARED (n : Nat) : Field := ⟨(0xd0120 + 0x40 * n), 16, 8, .ro, 0⟩
def TENON_LINK_CREDITS.VC3 (n : Nat) : Field := ⟨(0xd0120 + 0x40 * n), 12, 4, .ro, 0⟩
def TENON_LINK_CREDITS.VC2 (n : Nat) : Field := ⟨(0xd0120 + 0x40 * n), 8, 4, .ro, 0⟩
def TENON_LINK_CREDITS.VC1 (n : Nat) : Field := ⟨(0xd0120 + 0x40 * n), 4, 4, .ro, 0⟩
def TENON_LINK_CREDITS.VC0 (n : Nat) : Field := ⟨(0xd0120 + 0x40 * n), 0, 4, .ro, 0⟩
/-! TENON_RMT_DEV (Table 17-10). -/
def TENON_RMT_DEV.DEVICE : Field := ⟨0xd0200, 0, 12, .rw, 0⟩
/-! TENON_RMT_ADDR (Table 17-10). -/
def TENON_RMT_ADDR.ADDRESS : Field := ⟨0xd0204, 0, 32, .rw, 0⟩
/-! TENON_RMT_CMD (Table 17-10). -/
def TENON_RMT_CMD.COUNT : Field := ⟨0xd0208, 2, 4, .wo, 0⟩
def TENON_RMT_CMD.OP : Field := ⟨0xd0208, 0, 2, .wo, 0⟩
/-! TENON_RMT_STATUS (Table 17-10). -/
def TENON_RMT_STATUS.FAIL_INDEX : Field := ⟨0xd020c, 16, 16, .ro, 0xffff⟩
def TENON_RMT_STATUS.BUSY : Field := ⟨0xd020c, 8, 1, .ro, 0⟩
def TENON_RMT_STATUS.STATUS : Field := ⟨0xd020c, 0, 8, .ro, 0⟩
/-! TENON_RMT_DATA (Table 17-10). -/
def TENON_RMT_DATA.DATA (n : Nat) : Field := ⟨(0xd0240 + 4 * n), 0, 32, .rw, 0⟩
/-! DIGEST_STATUS (Table 18-4). -/
def DIGEST_STATUS.INTEGRITY : Field := ⟨0xe0000, 16, 1, .w1c, 0⟩
def DIGEST_STATUS.SHADOW : Field := ⟨0xe0000, 9, 1, .ro, 0⟩
def DIGEST_STATUS.MASK : Field := ⟨0xe0000, 0, 9, .ro, 0⟩
/-! DIGEST_EPOCH (Table 18-4). -/
def DIGEST_EPOCH.EPOCH : Field := ⟨0xe0004, 0, 32, .ro, 0⟩
/-! DIGEST_FRAME_LO (Table 18-4). -/
def DIGEST_FRAME_LO.LO : Field := ⟨0xe0008, 0, 32, .ro, 0⟩
/-! DIGEST_FRAME_HI (Table 18-4). -/
def DIGEST_FRAME_HI.HI : Field := ⟨0xe000c, 0, 32, .ro, 0⟩
/-! DIGEST_STAGE_LO (Table 18-4). -/
def DIGEST_STAGE_LO.LO (n : Nat) : Field := ⟨(0xe0008 + 8 * n), 0, 32, .ro, 0⟩
/-! DIGEST_STAGE_HI (Table 18-4). -/
def DIGEST_STAGE_HI.HI (n : Nat) : Field := ⟨(0xe000c + 8 * n), 0, 32, .ro, 0⟩
/-! DIGEST_WORLD_LO (Table 18-4). -/
def DIGEST_WORLD_LO.LO : Field := ⟨0xe0058, 0, 32, .ro, 0⟩
/-! DIGEST_WORLD_HI (Table 18-4). -/
def DIGEST_WORLD_HI.HI : Field := ⟨0xe005c, 0, 32, .ro, 0⟩
/-! DIGEST_PROVENANCE (Table 18-4). -/
def DIGEST_PROVENANCE.DIGEST (n : Nat) : Field := ⟨(0xe0060 + 4 * n), 0, 32, .ro, 0⟩
/-! DIGEST_CAP_CTL (Table 18-4). -/
def DIGEST_CAP_CTL.SIZE_MB : Field := ⟨0xe0100, 16, 12, .rwe, 0⟩
def DIGEST_CAP_CTL.ENABLE : Field := ⟨0xe0100, 0, 1, .rwe, 0⟩
/-! DIGEST_CAP_STATUS (Table 18-4). -/
def DIGEST_CAP_STATUS.FULL : Field := ⟨0xe0104, 2, 1, .ro, 0⟩
def DIGEST_CAP_STATUS.LOST : Field := ⟨0xe0104, 1, 1, .w1c, 0⟩
def DIGEST_CAP_STATUS.CAPTURING : Field := ⟨0xe0104, 0, 1, .ro, 0⟩
/-! DIGEST_CAP_WR (Table 18-4). -/
def DIGEST_CAP_WR.OFFSET : Field := ⟨0xe0108, 0, 32, .ro, 0⟩
/-! DIGEST_CAP_WIN (Table 18-4). -/
def DIGEST_CAP_WIN.OFFSET : Field := ⟨0xe010c, 0, 32, .rw, 0⟩
/-! DIGEST_CMD (Table 18-4). -/
def DIGEST_CMD.CMD : Field := ⟨0xe0110, 0, 3, .wo, 0⟩
/-! DIGEST_REPLAY_STATUS (Table 18-4). -/
def DIGEST_REPLAY_STATUS.PHASE : Field := ⟨0xe0114, 28, 4, .ro, 0⟩
def DIGEST_REPLAY_STATUS.RESULT : Field := ⟨0xe0114, 24, 4, .ro, 0⟩
def DIGEST_REPLAY_STATUS.STAGE : Field := ⟨0xe0114, 20, 4, .ro, 0⟩
/-! DIGEST_REPLAY_EPOCH (Table 18-4). -/
def DIGEST_REPLAY_EPOCH.EPOCH : Field := ⟨0xe0118, 0, 32, .ro, 0⟩
/-! DIGEST_REPLAY_COUNT (Table 18-4). -/
def DIGEST_REPLAY_COUNT.COUNT : Field := ⟨0xe011c, 0, 32, .ro, 0⟩
/-! DIGEST_INTEGRITY_COUNT (Table 18-4). -/
def DIGEST_INTEGRITY_COUNT.COUNT : Field := ⟨0xe0120, 0, 32, .ro, 0⟩
/-! DIGEST_CAP_WINDOW (Table 18-4). -/
def DIGEST_CAP_WINDOW.DATA (n : Nat) : Field := ⟨(0xe1000 + 4 * n), 0, 32, .rwq, 0⟩
/-! FAULT_STATUS (Table 19-11). -/
def FAULT_STATUS.QUEUE : Field := ⟨0xb0000, 12, 4, .ro, 0⟩
def FAULT_STATUS.HANDLING : Field := ⟨0xb0000, 11, 1, .ro, 0⟩
def FAULT_STATUS.RECORD_LOST : Field := ⟨0xb0000, 10, 1, .w1c, 0⟩
def FAULT_STATUS.LOG_ERROR : Field := ⟨0xb0000, 9, 1, .w1c, 0⟩
/-! FAULT_CORRECTED_COUNT (Table 19-11). -/
def FAULT_CORRECTED_COUNT.COUNT : Field := ⟨0xb0004, 0, 32, .ro, 0⟩
/-! FAULT_CONTAINED_COUNT (Table 19-11). -/
def FAULT_CONTAINED_COUNT.COUNT : Field := ⟨0xb0008, 0, 32, .ro, 0⟩
/-! FAULT_SUSPECT_COUNT (Table 19-11). -/
def FAULT_SUSPECT_COUNT.COUNT : Field := ⟨0xb000c, 0, 32, .ro, 0⟩
/-! FAULT_FATAL_COUNT (Table 19-11). -/
def FAULT_FATAL_COUNT.COUNT : Field := ⟨0xb0010, 0, 32, .ro, 0⟩
/-! FAULT_MERGED_COUNT (Table 19-11). -/
def FAULT_MERGED_COUNT.COUNT : Field := ⟨0xb0014, 0, 32, .ro, 0⟩
/-! FAULT_RECORD_LOST (Table 19-11). -/
def FAULT_RECORD_LOST.COUNT : Field := ⟨0xb0018, 0, 32, .ro, 0⟩
/-! FAULT_RECORD_SEQ (Table 19-11). -/
def FAULT_RECORD_SEQ.SEQ : Field := ⟨0xb001c, 0, 32, .ro, 0⟩
/-! FAULT_LOG_BASE (Table 19-11). -/
def FAULT_LOG_BASE.BASE : Field := ⟨0xb0020, 0, 32, .rwe, 0⟩
/-! FAULT_LOG_SIZE (Table 19-11). -/
def FAULT_LOG_SIZE.SIZE : Field := ⟨0xb0024, 0, 16, .rwe, 0⟩
/-! FAULT_LOG_NEXT (Table 19-11). -/
def FAULT_LOG_NEXT.OFFSET : Field := ⟨0xb0028, 0, 32, .ro, 0⟩
/-! FAULT_OD_LIMIT (Table 19-11). -/
def FAULT_OD_LIMIT.PAIR_LIMIT : Field := ⟨0xb0030, 0, 16, .rwe, 4⟩
/-! FAULT_TEST_CMD (Table 19-11). -/
def FAULT_TEST_CMD.CLASS : Field := ⟨0xb0034, 8, 8, .wo, 0⟩
def FAULT_TEST_CMD.INDEX : Field := ⟨0xb0034, 0, 8, .wo, 0⟩
/-! FAULT_TEST_STATUS (Table 19-11). -/
def FAULT_TEST_STATUS.RESULT : Field := ⟨0xb0038, 0, 8, .ro, 0⟩
/-! FAULT_UNIT_SEL (Table 19-11). -/
def FAULT_UNIT_SEL.CLASS : Field := ⟨0xb0040, 8, 8, .rw, 0⟩
def FAULT_UNIT_SEL.INDEX : Field := ⟨0xb0040, 0, 8, .rw, 0⟩
/-! FAULT_UNIT_INFO (Table 19-11). -/
def FAULT_UNIT_INFO.STATE : Field := ⟨0xb0044, 30, 2, .ro, 0⟩
def FAULT_UNIT_INFO.CLEAN : Field := ⟨0xb0044, 25, 5, .ro, 0⟩
def FAULT_UNIT_INFO.DUE : Field := ⟨0xb0044, 24, 1, .ro, 0⟩
def FAULT_UNIT_INFO.ERRORS : Field := ⟨0xb0044, 0, 16, .ro, 0⟩
/-! FAULT_UNIT_LAST_TEST (Table 19-11). -/
def FAULT_UNIT_LAST_TEST.MINUTES : Field := ⟨0xb0048, 0, 32, .ro, 0xffffffff⟩
/-! FAULT_MAINT_HELD (Table 19-11). -/
def FAULT_MAINT_HELD.HELD : Field := ⟨0xb0050, 0, 11, .ro, 0⟩
/-! FAULT_MAINT_REFUSED (Table 19-11). -/
def FAULT_MAINT_REFUSED.COUNT : Field := ⟨0xb0054, 0, 32, .ro, 0⟩
/-! FAULT_MAINT_LAST (Table 19-11). -/
def FAULT_MAINT_LAST.HOLDER : Field := ⟨0xb0058, 8, 8, .ro, 0⟩
def FAULT_MAINT_LAST.REQUESTED : Field := ⟨0xb0058, 0, 8, .ro, 0⟩
/-! FAULT_LAST_FATAL (Table 19-11). -/
def FAULT_LAST_FATAL.MECHANISM : Field := ⟨0xb005c, 24, 8, .ro, 0⟩
def FAULT_LAST_FATAL.CLASS : Field := ⟨0xb005c, 8, 8, .ro, 0⟩
def FAULT_LAST_FATAL.INDEX : Field := ⟨0xb005c, 0, 8, .ro, 0⟩
/-! PWR_STATUS (Table 20-10). -/
def PWR_STATUS.CAUSE : Field := ⟨0x10000, 16, 3, .ro, 0⟩
def PWR_STATUS.STEP : Field := ⟨0x10000, 12, 4, .ro, 0⟩
def PWR_STATUS.WAKING : Field := ⟨0x10000, 3, 1, .ro, 0⟩
def PWR_STATUS.ENTRY_PENDING : Field := ⟨0x10000, 2, 1, .ro, 0⟩
def PWR_STATUS.LAST_SLEEP : Field := ⟨0x10000, 0, 2, .ro, 0⟩
/-! PWR_CMD (Table 20-10). -/
def PWR_CMD.CMD : Field := ⟨0x10004, 0, 2, .wo, 0⟩
/-! PWR_CMD_STATUS (Table 20-10). -/
def PWR_CMD_STATUS.RESULT : Field := ⟨0x10008, 0, 8, .ro, 0⟩
/-! PWR_WAKE_SOURCE (Table 20-10). -/
def PWR_WAKE_SOURCE.SOURCE : Field := ⟨0x1000c, 0, 7, .w1c, 0⟩
/-! PWR_ALARM_LO (Table 20-10). -/
def PWR_ALARM_LO.LO : Field := ⟨0x10010, 0, 32, .rw, 0⟩
/-! PWR_ALARM_HI (Table 20-10). -/
def PWR_ALARM_HI.HI : Field := ⟨0x10014, 0, 32, .rw, 0⟩
/-! PWR_WAKE_CTL (Table 20-10). -/
def PWR_WAKE_CTL.THERMAL_WAKE : Field := ⟨0x10018, 12, 1, .rw, 0⟩
def PWR_WAKE_CTL.KNOCK_SEND : Field := ⟨0x10018, 8, 4, .rw, 0⟩
def PWR_WAKE_CTL.KNOCK_ACCEPT : Field := ⟨0x10018, 4, 4, .rw, 0⟩
def PWR_WAKE_CTL.ETH_PORTS : Field := ⟨0x10018, 0, 4, .rw, 0⟩
/-! PWR_TJ (Table 20-10). -/
def PWR_TJ.TJ : Field := ⟨0x1001c, 0, 16, .ro, 0⟩
/-! PWR_CORE (Table 20-10). -/
def PWR_CORE.AMPS : Field := ⟨0x10020, 16, 16, .ro, 0⟩
def PWR_CORE.MV : Field := ⟨0x10020, 0, 16, .ro, 0⟩
/-! PWR_POWER (Table 20-10). -/
def PWR_POWER.BUCKET_MJ : Field := ⟨0x10024, 16, 16, .ro, 0⟩
def PWR_POWER.WATTS : Field := ⟨0x10024, 0, 16, .ro, 0⟩
/-! PWR_THROTTLE_COUNT (Table 20-10). -/
def PWR_THROTTLE_COUNT.COUNT : Field := ⟨0x10028, 0, 32, .ro, 0⟩
/-! PWR_SLEEP_COUNT (Table 20-10). -/
def PWR_SLEEP_COUNT.COUNT : Field := ⟨0x1002c, 0, 32, .ro, 0⟩
/-! PWR_WAKE_ETH (Table 20-10). -/
def PWR_WAKE_ETH.MODES : Field := ⟨0x10030, 0, 12, .rw, 0⟩
/-! PWR_LEASE (Table 20-10). -/
def PWR_LEASE.MS (n : Nat) : Field := ⟨(0x10040 + 4 * n), 0, 16, .rw, 0⟩
/-! PWR_TILE_RETAIN (Table 20-10). -/
def PWR_TILE_RETAIN.SLEEP_BANKS (n : Nat) : Field := ⟨(0x10100 + 4 * n), 16, 12, .rwe, 1⟩
def PWR_TILE_RETAIN.DOZE_BANKS (n : Nat) : Field := ⟨(0x10100 + 4 * n), 0, 12, .rwe, 1⟩
/-! PWR_TILE_STATE (Table 20-10). -/
def PWR_TILE_STATE.DOZES (n : Nat) : Field := ⟨(0x10200 + 4 * n), 16, 16, .ro, 0⟩
def PWR_TILE_STATE.STATE (n : Nat) : Field := ⟨(0x10200 + 4 * n), 0, 2, .ro, 0⟩
/-! SEC_BOOT_STATUS (Table 21-7). -/
def SEC_BOOT_STATUS.FAIL : Field := ⟨0x30000, 24, 8, .ro, 0⟩
def SEC_BOOT_STATUS.WARM : Field := ⟨0x30000, 16, 1, .ro, 0⟩
def SEC_BOOT_STATUS.STEP : Field := ⟨0x30000, 8, 5, .ro, 0⟩
def SEC_BOOT_STATUS.SOURCE : Field := ⟨0x30000, 2, 2, .ro, 0⟩
def SEC_BOOT_STATUS.STATE : Field := ⟨0x30000, 0, 2, .ro, 0⟩
/-! SEC_BOOT_COUNT (Table 21-7). -/
def SEC_BOOT_COUNT.COUNT : Field := ⟨0x30004, 0, 32, .ro, 0⟩
/-! SEC_RESTART_COUNT (Table 21-7). -/
def SEC_RESTART_COUNT.COUNT : Field := ⟨0x30008, 0, 32, .ro, 0⟩
/-! SEC_BOOT_ATTEMPTS (Table 21-7). -/
def SEC_BOOT_ATTEMPTS.B_EXCLUDED : Field := ⟨0x3000c, 13, 1, .ro, 0⟩
def SEC_BOOT_ATTEMPTS.A_EXCLUDED : Field := ⟨0x3000c, 12, 1, .ro, 0⟩
def SEC_BOOT_ATTEMPTS.WARM_FAILS : Field := ⟨0x3000c, 8, 2, .ro, 0⟩
def SEC_BOOT_ATTEMPTS.B_FAILS : Field := ⟨0x3000c, 4, 4, .ro, 0⟩
def SEC_BOOT_ATTEMPTS.A_FAILS : Field := ⟨0x3000c, 0, 4, .ro, 0⟩
/-! SEC_BOOT_TIME_US (Table 21-7). -/
def SEC_BOOT_TIME_US.US : Field := ⟨0x30010, 0, 32, .ro, 0⟩
/-! SEC_BOOT_CMD (Table 21-7). -/
def SEC_BOOT_CMD.CMD : Field := ⟨0x30014, 0, 2, .wo, 0⟩
/-! SEC_BOOT_CMD_STATUS (Table 21-7). -/
def SEC_BOOT_CMD_STATUS.RESULT : Field := ⟨0x30018, 0, 8, .ro, 0⟩
/-! SEC_KEY_STATUS (Table 21-7). -/
def SEC_KEY_STATUS.UPDATES : Field := ⟨0x30020, 16, 16, .ro, 0⟩
def SEC_KEY_STATUS.PRESENT : Field := ⟨0x30020, 0, 5, .ro, 0⟩
/-! SEC_KEY_CMD (Table 21-7). -/
def SEC_KEY_CMD.APPLY : Field := ⟨0x30024, 0, 1, .wo, 0⟩
/-! SEC_KEY_RESULT (Table 21-7). -/
def SEC_KEY_RESULT.RESULT : Field := ⟨0x30028, 0, 8, .ro, 0⟩
/-! SEC_DEBUG_CMD (Table 21-7). -/
def SEC_DEBUG_CMD.CMD : Field := ⟨0x30030, 0, 2, .wo, 0⟩
/-! SEC_DEBUG_STATUS (Table 21-7). -/
def SEC_DEBUG_STATUS.RESULT : Field := ⟨0x30034, 4, 4, .ro, 0⟩
def SEC_DEBUG_STATUS.STATE : Field := ⟨0x30034, 0, 2, .ro, 0⟩
/-! SEC_KEY_DATA (Table 21-7). -/
def SEC_KEY_DATA.DATA (n : Nat) : Field := ⟨(0x30100 + 4 * n), 0, 32, .rw, 0⟩
/-! SEC_DEBUG_CHALLENGE (Table 21-7). -/
def SEC_DEBUG_CHALLENGE.DATA (n : Nat) : Field := ⟨(0x30300 + 4 * n), 0, 32, .ro, 0⟩
/-! SEC_DEBUG_RESPONSE (Table 21-7). -/
def SEC_DEBUG_RESPONSE.DATA (n : Nat) : Field := ⟨(0x30340 + 4 * n), 0, 32, .rw, 0⟩
/-! SEC_CERT_LENGTH (Table 21-7). -/
def SEC_CERT_LENGTH.BYTES : Field := ⟨0x30400, 0, 12, .ro, 0⟩
/-! SEC_CERT (Table 21-7). -/
def SEC_CERT.DATA (n : Nat) : Field := ⟨(0x30800 + 4 * n), 0, 32, .ro, 0⟩
/-! IDENT_PART (Table 22-5). -/
def IDENT_PART.PART : Field := ⟨0, 16, 16, .ro, 0⟩
def IDENT_PART.DIE_REV : Field := ⟨0, 8, 8, .ro, 0⟩
def IDENT_PART.GRADE : Field := ⟨0, 4, 4, .ro, 0⟩
/-! IDENT_FORMAT (Table 22-5). -/
def IDENT_FORMAT.MAJOR : Field := ⟨4, 16, 16, .ro, 1⟩
def IDENT_FORMAT.MINOR : Field := ⟨4, 0, 16, .ro, 0⟩
/-! IDENT_UNITS (Table 22-5). -/
def IDENT_UNITS.UNITS : Field := ⟨8, 0, 9, .ro, 0⟩
/-! IDENT_TILES (Table 22-5). -/
def IDENT_TILES.SPARES : Field := ⟨0xc, 8, 8, .ro, 0⟩
def IDENT_TILES.ENABLED : Field := ⟨0xc, 0, 8, .ro, 0⟩
/-! IDENT_TILE_GOOD_LO (Table 22-5). -/
def IDENT_TILE_GOOD_LO.GOOD : Field := ⟨0x10, 0, 32, .ro, 0⟩
/-! IDENT_TILE_GOOD_HI (Table 22-5). -/
def IDENT_TILE_GOOD_HI.GOOD : Field := ⟨0x14, 0, 4, .ro, 0⟩
/-! IDENT_UNIT_MAP (Table 22-5). -/
def IDENT_UNIT_MAP.ORDER : Field := ⟨0x18, 12, 1, .ro, 1⟩
def IDENT_UNIT_MAP.PORTS : Field := ⟨0x18, 8, 4, .ro, 0⟩
def IDENT_UNIT_MAP.LINKS : Field := ⟨0x18, 4, 4, .ro, 0⟩
def IDENT_UNIT_MAP.ENGINES : Field := ⟨0x18, 0, 4, .ro, 0⟩
/-! IDENT_HBM_GOOD_LO (Table 22-5). -/
def IDENT_HBM_GOOD_LO.GOOD : Field := ⟨0x20, 0, 32, .ro, 0⟩
/-! IDENT_HBM_GOOD_HI (Table 22-5). -/
def IDENT_HBM_GOOD_HI.GOOD : Field := ⟨0x24, 0, 32, .ro, 0⟩
/-! IDENT_HBM_IMAGE_LO (Table 22-5). -/
def IDENT_HBM_IMAGE_LO.BYTES_LO : Field := ⟨0x28, 0, 32, .ro, 0⟩
/-! IDENT_HBM_IMAGE_HI (Table 22-5). -/
def IDENT_HBM_IMAGE_HI.BYTES_HI : Field := ⟨0x2c, 0, 32, .ro, 0⟩
/-! IDENT_LEDGER_GOOD (Table 22-5). -/
def IDENT_LEDGER_GOOD.BANKS : Field := ⟨0x30, 0, 16, .ro, 0⟩
/-! IDENT_TILE_BIND (Table 22-5). -/
def IDENT_TILE_BIND.PHYS (n : Nat) : Field := ⟨(0x40 + 4 * n), 0, 32, .ro, 0⟩
/-! IDENT_SERIAL (Table 22-5). -/
def IDENT_SERIAL.SERIAL (n : Nat) : Field := ⟨(0x60 + 4 * n), 0, 32, .ro, 0⟩
/-! IDENT_JTAG_IDCODE (Table 22-5). -/
def IDENT_JTAG_IDCODE.VERSION : Field := ⟨0x70, 28, 4, .ro, 0⟩
def IDENT_JTAG_IDCODE.PARTNO : Field := ⟨0x70, 12, 16, .ro, 0⟩
def IDENT_JTAG_IDCODE.MFR : Field := ⟨0x70, 1, 11, .ro, 0x3c5⟩
def IDENT_JTAG_IDCODE.ONE : Field := ⟨0x70, 0, 1, .ro, 1⟩
/-! IDENT_MAC_LO (Table 22-5). -/
def IDENT_MAC_LO.MAC_LO (n : Nat) : Field := ⟨(0x80 + 8 * n), 0, 32, .ro, 0⟩
/-! IDENT_MAC_HI (Table 22-5). -/
def IDENT_MAC_HI.MAC_HI (n : Nat) : Field := ⟨(0x84 + 8 * n), 0, 16, .ro, 0⟩
/-! TILE_BIND (Table 22-6). -/
def TILE_BIND.STATE (n : Nat) : Field := ⟨(0x100000 + 0x1000 * n), 8, 2, .ro, 0⟩
def TILE_BIND.LOGICAL (n : Nat) : Field := ⟨(0x100000 + 0x1000 * n), 0, 8, .ro, 0⟩
/-! HBM_STATUS (Table 22-7). -/
def HBM_STATUS.TEMP (n : Nat) : Field := ⟨(0x200000 + 0x10000 * n), 8, 8, .ro, 0⟩
def HBM_STATUS.SCRUB_ACTIVE (n : Nat) : Field := ⟨(0x200000 + 0x10000 * n), 3, 1, .ro, 0⟩
def HBM_STATUS.REFRESH_2X (n : Nat) : Field := ⟨(0x200000 + 0x10000 * n), 2, 1, .ro, 0⟩
def HBM_STATUS.SELF_REFRESH (n : Nat) : Field := ⟨(0x200000 + 0x10000 * n), 1, 1, .ro, 0⟩
def HBM_STATUS.TRAINED (n : Nat) : Field := ⟨(0x200000 + 0x10000 * n), 0, 1, .ro, 0⟩
/-! HBM_RATE (Table 22-7). -/
def HBM_RATE.MBPS (n : Nat) : Field := ⟨(0x200004 + 0x10000 * n), 0, 16, .ro, 0⟩
/-! HBM_GOOD (Table 22-7). -/
def HBM_GOOD.GOOD (n : Nat) : Field := ⟨(0x200008 + 0x10000 * n), 0, 32, .ro, 0⟩
/-! HBM_ECC_CORR (Table 22-7). -/
def HBM_ECC_CORR.COUNT (n : Nat) : Field := ⟨(0x200010 + 0x10000 * n), 0, 32, .ro, 0⟩
/-! HBM_ECC_UNCORR (Table 22-7). -/
def HBM_ECC_UNCORR.COUNT (n : Nat) : Field := ⟨(0x200014 + 0x10000 * n), 0, 32, .ro, 0⟩
/-! HBM_SCRUB_PASSES (Table 22-7). -/
def HBM_SCRUB_PASSES.COUNT (n : Nat) : Field := ⟨(0x200018 + 0x10000 * n), 0, 32, .ro, 0⟩
/-! HBM_SCRUB_HOURS (Table 22-7). -/
def HBM_SCRUB_HOURS.HOURS (n : Nat) : Field := ⟨(0x20001c + 0x10000 * n), 0, 32, .ro, 0xffffffff⟩
/-! HBM_CH_ECC_CORR (Table 22-7). -/
def HBM_CH_ECC_CORR.COUNT (m n : Nat) : Field := ⟨(0x200100 + 0x10000 * m + 8 * n), 0, 32, .ro, 0⟩
/-! HBM_CH_ECC_UNCORR (Table 22-7). -/
def HBM_CH_ECC_UNCORR.COUNT (m n : Nat) : Field := ⟨(0x200104 + 0x10000 * m + 8 * n), 0, 32, .ro, 0⟩

end Reg

/-- Registers of the FRAME block. -/
def regRowsFrame0 : List RegRow := [
  ⟨"FRAME_PERIOD", 0x40000, 0, 0, 1, 0, 1, [Reg.FRAME_PERIOD.PERIOD_US]⟩,
  ⟨"FRAME_ORIGIN_LO", 0x40004, 0, 0, 1, 0, 1, [Reg.FRAME_ORIGIN_LO.ORIGIN_LO]⟩,
  ⟨"FRAME_ORIGIN_HI", 0x40008, 0, 0, 1, 0, 1, [Reg.FRAME_ORIGIN_HI.ORIGIN_HI]⟩,
  ⟨"FRAME_EPOCH", 0x4000c, 0, 0, 1, 0, 1, [Reg.FRAME_EPOCH.EPOCH]⟩,
  ⟨"FRAME_SEARCH_DEADLINE", 0x40010, 0, 0, 1, 0, 1, [Reg.FRAME_SEARCH_DEADLINE.SEARCH_US]⟩,
  ⟨"FRAME_REFINE_BUDGET", 0x40014, 0, 0, 1, 0, 1, [Reg.FRAME_REFINE_BUDGET.REFINE_US]⟩,
  ⟨"FRAME_VERIFY_BUDGET", 0x40018, 0, 0, 1, 0, 1, [Reg.FRAME_VERIFY_BUDGET.VERIFY_US]⟩,
  ⟨"FRAME_STATUS", 0x4001c, 0, 0, 1, 0, 1, [Reg.FRAME_STATUS.SHADOW, Reg.FRAME_STATUS.LAST_LATE, Reg.FRAME_STATUS.HOLDOVER, Reg.FRAME_STATUS.FRAME_ACTIVE]⟩,
  ⟨"FRAME_LATE_COUNT", 0x40020, 0, 0, 1, 0, 1, [Reg.FRAME_LATE_COUNT.LATE]⟩,
  ⟨"FRAME_SKIP_COUNT", 0x40024, 0, 0, 1, 0, 1, [Reg.FRAME_SKIP_COUNT.SKIP]⟩,
  ⟨"FRAME_PROPOSE_STATUS", 0x40200, 0, 0, 1, 0, 1, [Reg.FRAME_PROPOSE_STATUS.DISABLED, Reg.FRAME_PROPOSE_STATUS.ABANDONED, Reg.FRAME_PROPOSE_STATUS.CUT, Reg.FRAME_PROPOSE_STATUS.NO_STATE, Reg.FRAME_PROPOSE_STATUS.COMPLETE]⟩,
  ⟨"FRAME_PROPOSE_SEED_BLOCKS", 0x40204, 0, 0, 1, 0, 1, [Reg.FRAME_PROPOSE_SEED_BLOCKS.BLOCKS]⟩,
  ⟨"FRAME_PROPOSE_DONE_US", 0x40208, 0, 0, 1, 0, 1, [Reg.FRAME_PROPOSE_DONE_US.DONE]⟩,
  ⟨"FRAME_PROPOSE_EMBED_RANGE", 0x4020c, 0, 0, 1, 0, 1, [Reg.FRAME_PROPOSE_EMBED_RANGE.RANGE]⟩,
  ⟨"FRAME_SPEC_CTL", 0x40100, 0, 0, 1, 0, 1, [Reg.FRAME_SPEC_CTL.MODE, Reg.FRAME_SPEC_CTL.RUNAHEAD, Reg.FRAME_SPEC_CTL.TILE_LIMIT, Reg.FRAME_SPEC_CTL.ENABLE]⟩,
  ⟨"FRAME_BUDGET_STATUS", 0x40104, 0, 0, 1, 0, 1, [Reg.FRAME_BUDGET_STATUS.SHIFT_MATCH, Reg.FRAME_BUDGET_STATUS.START_MATCH, Reg.FRAME_BUDGET_STATUS.SPEC_USED, Reg.FRAME_BUDGET_STATUS.REFINE_CUT, Reg.FRAME_BUDGET_STATUS.PROPOSE_CUT, Reg.FRAME_BUDGET_STATUS.SEARCH_LATE, Reg.FRAME_BUDGET_STATUS.SEARCH_CUT, Reg.FRAME_BUDGET_STATUS.SWEEP_CUT, Reg.FRAME_BUDGET_STATUS.BUDGET_CUT, Reg.FRAME_BUDGET_STATUS.DEADLINE_HIT]⟩,
  ⟨"FRAME_SPEC_EPOCH", 0x40108, 0, 0, 1, 0, 1, [Reg.FRAME_SPEC_EPOCH.EPOCH]⟩,
  ⟨"FRAME_SPEC_KEPT", 0x4010c, 0, 0, 1, 0, 1, [Reg.FRAME_SPEC_KEPT.KEPT]⟩,
  ⟨"FRAME_SPEC_SQUASHED", 0x40110, 0, 0, 1, 0, 1, [Reg.FRAME_SPEC_SQUASHED.SQUASHED]⟩,
  ⟨"FRAME_SPEC_RECOMPUTED", 0x40114, 0, 0, 1, 0, 1, [Reg.FRAME_SPEC_RECOMPUTED.BLOCKS]⟩]

/-- Registers of the FRAME block, continued. -/
def regRowsFrame1 : List RegRow := [
  ⟨"FRAME_SPEC_RESTARTS", 0x40118, 0, 0, 1, 0, 1, [Reg.FRAME_SPEC_RESTARTS.RESTARTS]⟩,
  ⟨"FRAME_SPEC_DISCARDS", 0x4011c, 0, 0, 1, 0, 1, [Reg.FRAME_SPEC_DISCARDS.DISCARDS]⟩,
  ⟨"FRAME_SPEC_FULL", 0x40120, 0, 0, 1, 0, 1, [Reg.FRAME_SPEC_FULL.FULL]⟩,
  ⟨"FRAME_CANDIDATES", 0x40124, 0, 0, 1, 0, 1, [Reg.FRAME_CANDIDATES.SWEPT]⟩,
  ⟨"FRAME_DEADLINE_HIT_COUNT", 0x40128, 0, 0, 1, 0, 1, [Reg.FRAME_DEADLINE_HIT_COUNT.COUNT]⟩,
  ⟨"FRAME_BUDGET_CUT_COUNT", 0x4012c, 0, 0, 1, 0, 1, [Reg.FRAME_BUDGET_CUT_COUNT.COUNT]⟩,
  ⟨"FRAME_PRED_EPOCH", 0x40130, 0, 0, 1, 0, 1, [Reg.FRAME_PRED_EPOCH.EPOCH]⟩,
  ⟨"FRAME_PRED_STATE", 0x40400, 4, 0, 30, 0, 1, [Reg.FRAME_PRED_STATE.STATE 0]⟩]

/-- Registers of the CONFIG block. -/
def regRowsConfig0 : List RegRow := [
  ⟨"CONFIG_LOAD_STATUS", 0x20040, 0, 0, 1, 0, 1, [Reg.CONFIG_LOAD_STATUS.PHASE, Reg.CONFIG_LOAD_STATUS.SLOT, Reg.CONFIG_LOAD_STATUS.REASON]⟩,
  ⟨"CONFIG_LOAD_DETAIL", 0x20044, 0, 0, 1, 0, 1, [Reg.CONFIG_LOAD_DETAIL.SECTION_TYPE, Reg.CONFIG_LOAD_DETAIL.ITEM]⟩,
  ⟨"CONFIG_BULK_WAIT", 0x20048, 0, 0, 1, 0, 1, [Reg.CONFIG_BULK_WAIT.BULK_ID]⟩,
  ⟨"CONFIG_CHUNK_DROP", 0x2004c, 0, 0, 1, 0, 1, [Reg.CONFIG_CHUNK_DROP.DROPPED]⟩,
  ⟨"CONFIG_SLOT_ACTIVE", 0x20000, 0, 0, 1, 0, 1, [Reg.CONFIG_SLOT_ACTIVE.ACCEPTS, Reg.CONFIG_SLOT_ACTIVE.LOADED, Reg.CONFIG_SLOT_ACTIVE.SLOT]⟩,
  ⟨"CONFIG_ACTIVE_SEQ_LO", 0x20004, 0, 0, 1, 0, 1, [Reg.CONFIG_ACTIVE_SEQ_LO.SEQ_LO]⟩,
  ⟨"CONFIG_ACTIVE_SEQ_HI", 0x20008, 0, 0, 1, 0, 1, [Reg.CONFIG_ACTIVE_SEQ_HI.SEQ_HI]⟩,
  ⟨"CONFIG_FLOOR_LO", 0x2000c, 0, 0, 1, 0, 1, [Reg.CONFIG_FLOOR_LO.FLOOR_LO]⟩,
  ⟨"CONFIG_FLOOR_HI", 0x20010, 0, 0, 1, 0, 1, [Reg.CONFIG_FLOOR_HI.FLOOR_HI]⟩,
  ⟨"CONFIG_SLOT_STATE", 0x20014, 0, 0, 1, 0, 1, [Reg.CONFIG_SLOT_STATE.B_VALID, Reg.CONFIG_SLOT_STATE.A_VALID, Reg.CONFIG_SLOT_STATE.B_STATE, Reg.CONFIG_SLOT_STATE.A_STATE]⟩,
  ⟨"CONFIG_SLOT_CMD", 0x20020, 0, 0, 1, 0, 1, [Reg.CONFIG_SLOT_CMD.CMD]⟩,
  ⟨"CONFIG_SLOT_SEQ_LO", 0x20024, 0, 0, 1, 0, 1, [Reg.CONFIG_SLOT_SEQ_LO.SEQ_LO]⟩,
  ⟨"CONFIG_SLOT_SEQ_HI", 0x20028, 0, 0, 1, 0, 1, [Reg.CONFIG_SLOT_SEQ_HI.SEQ_HI]⟩,
  ⟨"CONFIG_SLOT_WOFFSET", 0x2002c, 0, 0, 1, 0, 1, [Reg.CONFIG_SLOT_WOFFSET.WOFFSET]⟩,
  ⟨"CONFIG_SLOT_LENGTH", 0x20030, 0, 0, 1, 0, 1, [Reg.CONFIG_SLOT_LENGTH.LENGTH]⟩,
  ⟨"CONFIG_SLOT_USED", 0x20034, 0, 0, 1, 0, 1, [Reg.CONFIG_SLOT_USED.USED]⟩,
  ⟨"CONFIG_SLOT_STATUS", 0x20038, 0, 0, 1, 0, 1, [Reg.CONFIG_SLOT_STATUS.BUSY, Reg.CONFIG_SLOT_STATUS.RESULT]⟩,
  ⟨"CONFIG_EPOCH_COMMIT", 0x2003c, 0, 0, 1, 0, 1, [Reg.CONFIG_EPOCH_COMMIT.COMMIT]⟩,
  ⟨"CONFIG_SWITCH_CMD", 0x20050, 0, 0, 1, 0, 1, [Reg.CONFIG_SWITCH_CMD.CMD]⟩,
  ⟨"CONFIG_SWITCH_STATUS", 0x20054, 0, 0, 1, 0, 1, [Reg.CONFIG_SWITCH_STATUS.SHADOW_DISCARDED, Reg.CONFIG_SWITCH_STATUS.PHASE, Reg.CONFIG_SWITCH_STATUS.RESULT]⟩]

/-- Registers of the CONFIG block, continued. -/
def regRowsConfig1 : List RegRow := [
  ⟨"CONFIG_QUIESCE_REQ", 0x20058, 0, 0, 1, 0, 1, [Reg.CONFIG_QUIESCE_REQ.REQ]⟩,
  ⟨"CONFIG_QUIESCE_STATUS", 0x2005c, 0, 0, 1, 0, 1, [Reg.CONFIG_QUIESCE_STATUS.QUIESCED]⟩,
  ⟨"CONFIG_SLOT_DIGEST", 0x20060, 4, 0, 16, 0, 1, [Reg.CONFIG_SLOT_DIGEST.DIGEST 0]⟩,
  ⟨"CONFIG_SLOT_WDATA", 0x21000, 4, 0, 1024, 0, 1, [Reg.CONFIG_SLOT_WDATA.DATA 0]⟩]

/-- Registers of the WORLD block. -/
def regRowsWorld0 : List RegRow := [
  ⟨"WORLD_STATUS", 0x50000, 0, 0, 1, 0, 1, [Reg.WORLD_STATUS.POISONED, Reg.WORLD_STATUS.REBASE, Reg.WORLD_STATUS.PHASE]⟩,
  ⟨"WORLD_SNAP_EPOCH", 0x50004, 0, 0, 1, 0, 1, [Reg.WORLD_SNAP_EPOCH.EPOCH]⟩,
  ⟨"WORLD_LAYOUT_INFO", 0x50008, 0, 0, 1, 0, 1, [Reg.WORLD_LAYOUT_INFO.STREAMS, Reg.WORLD_LAYOUT_INFO.LAYERS, Reg.WORLD_LAYOUT_INFO.SHAPE]⟩,
  ⟨"WORLD_DT_PANELS", 0x5000c, 0, 0, 1, 0, 1, [Reg.WORLD_DT_PANELS.PANELS]⟩,
  ⟨"WORLD_DT_CYCLES", 0x50010, 0, 0, 1, 0, 1, [Reg.WORLD_DT_CYCLES.CYCLES]⟩,
  ⟨"WORLD_INGEST_DROP", 0x50014, 0, 0, 1, 0, 1, [Reg.WORLD_INGEST_DROP.DROPPED]⟩,
  ⟨"WORLD_EGO_SEQ", 0x50018, 0, 0, 1, 0, 1, [Reg.WORLD_EGO_SEQ.SEQ]⟩,
  ⟨"WORLD_EGO_MISSING", 0x5001c, 0, 0, 1, 0, 1, [Reg.WORLD_EGO_MISSING.MISSING]⟩,
  ⟨"WORLD_EGO_DISCARD", 0x50020, 0, 0, 1, 0, 1, [Reg.WORLD_EGO_DISCARD.DISCARD]⟩,
  ⟨"WORLD_EGO_LATE", 0x50024, 0, 0, 1, 0, 1, [Reg.WORLD_EGO_LATE.LATE]⟩,
  ⟨"WORLD_DIRTY_COUNT", 0x50100, 8, 0, 16, 0, 1, [Reg.WORLD_DIRTY_COUNT.DIRTY 0]⟩,
  ⟨"WORLD_CHANGE_COUNT", 0x50104, 8, 0, 16, 0, 1, [Reg.WORLD_CHANGE_COUNT.CHANGED 0]⟩,
  ⟨"WORLD_STREAM_CTL", 0x51000, 0x20, 0, 32, 0, 1, [Reg.WORLD_STREAM_CTL.PARTITION 0, Reg.WORLD_STREAM_CTL.LAYER 0, Reg.WORLD_STREAM_CTL.STALE_UNKNOWN 0, Reg.WORLD_STREAM_CTL.SAFETY_COPY 0, Reg.WORLD_STREAM_CTL.ENABLE 0]⟩,
  ⟨"WORLD_STREAM_STATUS", 0x51004, 0x20, 0, 32, 0, 1, [Reg.WORLD_STREAM_STATUS.SILENT 0, Reg.WORLD_STREAM_STATUS.LOSS 0, Reg.WORLD_STREAM_STATUS.GAP 0, Reg.WORLD_STREAM_STATUS.STALE 0, Reg.WORLD_STREAM_STATUS.ACTIVE 0]⟩,
  ⟨"WORLD_STREAM_LAST_SEQ", 0x51008, 0x20, 0, 32, 0, 1, [Reg.WORLD_STREAM_LAST_SEQ.SEQ 0]⟩,
  ⟨"WORLD_STREAM_LATE", 0x5100c, 0x20, 0, 32, 0, 1, [Reg.WORLD_STREAM_LATE.LATE 0]⟩,
  ⟨"WORLD_STREAM_DISCARD", 0x51010, 0x20, 0, 32, 0, 1, [Reg.WORLD_STREAM_DISCARD.DISCARD 0]⟩,
  ⟨"WORLD_STREAM_BAD_RECORD", 0x51014, 0x20, 0, 32, 0, 1, [Reg.WORLD_STREAM_BAD_RECORD.BAD 0]⟩,
  ⟨"WORLD_STREAM_BYTES", 0x51018, 0x20, 0, 32, 0, 1, [Reg.WORLD_STREAM_BYTES.BYTES 0]⟩,
  ⟨"WORLD_START_STATUS", 0x50040, 0, 0, 1, 0, 1, [Reg.WORLD_START_STATUS.REUSE_COUNT, Reg.WORLD_START_STATUS.TIME_RANGE, Reg.WORLD_START_STATUS.NON_FINITE, Reg.WORLD_START_STATUS.KIND_MISMATCH, Reg.WORLD_START_STATUS.NO_STATE, Reg.WORLD_START_STATUS.REUSED, Reg.WORLD_START_STATUS.OUTSIDE_ENVELOPE]⟩]

/-- Registers of the WORLD block, continued. -/
def regRowsWorld1 : List RegRow := [
  ⟨"WORLD_START_PROJECTED", 0x50044, 0, 0, 1, 0, 1, [Reg.WORLD_START_PROJECTED.PROJECTED]⟩,
  ⟨"WORLD_SEED_INVALID", 0x50048, 0, 0, 1, 0, 1, [Reg.WORLD_SEED_INVALID.INVALID]⟩]

/-- Registers of the TILE block. -/
def regRowsTile0 : List RegRow := [
  ⟨"TILE_SWEEP_STATUS", 0x100200, 0, 0, 1, 0x1000, 36, [Reg.TILE_SWEEP_STATUS.OFF_GRID 0, Reg.TILE_SWEEP_STATUS.PRED_BEYOND 0, Reg.TILE_SWEEP_STATUS.SATURATED 0, Reg.TILE_SWEEP_STATUS.POISONED_READ 0]⟩,
  ⟨"TILE_SWEEP_CANDIDATES", 0x100204, 0, 0, 1, 0x1000, 36, [Reg.TILE_SWEEP_CANDIDATES.RELEASED 0]⟩,
  ⟨"TILE_SWEEP_COLLIDED", 0x100208, 0, 0, 1, 0x1000, 36, [Reg.TILE_SWEEP_COLLIDED.COLLIDED 0]⟩,
  ⟨"TILE_SWEEP_QUERIES", 0x10020c, 0, 0, 1, 0x1000, 36, [Reg.TILE_SWEEP_QUERIES.ISSUED 0]⟩,
  ⟨"TILE_SWEEP_CUT", 0x100210, 0, 0, 1, 0x1000, 36, [Reg.TILE_SWEEP_CUT.CUT 0]⟩,
  ⟨"TILE_PANEL_HITS", 0x100214, 0, 0, 1, 0x1000, 36, [Reg.TILE_PANEL_HITS.HITS 0]⟩,
  ⟨"TILE_PANEL_FILL_WC", 0x100218, 0, 0, 1, 0x1000, 36, [Reg.TILE_PANEL_FILL_WC.FILLS 0]⟩,
  ⟨"TILE_PANEL_FILL_HBM", 0x10021c, 0, 0, 1, 0x1000, 36, [Reg.TILE_PANEL_FILL_HBM.FILLS 0]⟩,
  ⟨"TILE_LANE_BUSY", 0x100220, 0, 0, 1, 0x1000, 36, [Reg.TILE_LANE_BUSY.CYCLES 0]⟩,
  ⟨"TILE_SWEEP_WAIT", 0x100224, 0, 0, 1, 0x1000, 36, [Reg.TILE_SWEEP_WAIT.CYCLES 0]⟩,
  ⟨"TILE_TENSOR_STATUS", 0x100300, 0, 0, 1, 0x1000, 36, [Reg.TILE_TENSOR_STATUS.REPLAYING 0, Reg.TILE_TENSOR_STATUS.MISS 0]⟩,
  ⟨"TILE_TENSOR_CYCLES", 0x100304, 0, 0, 1, 0x1000, 36, [Reg.TILE_TENSOR_CYCLES.CYCLES 0]⟩,
  ⟨"TILE_CHK_MISS", 0x100308, 0, 0, 1, 0x1000, 36, [Reg.TILE_CHK_MISS.MISS 0]⟩,
  ⟨"TILE_CHK_NEAR", 0x10030c, 0, 0, 1, 0x1000, 36, [Reg.TILE_CHK_NEAR.NEAR 0]⟩,
  ⟨"TILE_CHK_SKIPPED", 0x100310, 0, 0, 1, 0x1000, 36, [Reg.TILE_CHK_SKIPPED.SKIPPED 0]⟩,
  ⟨"TILE_DOWEL_MISS", 0x100314, 0, 0, 1, 0x1000, 36, [Reg.TILE_DOWEL_MISS.MISS 0]⟩,
  ⟨"TILE_JIG_STATE", 0x100400, 0, 0, 1, 0x1000, 36, [Reg.TILE_JIG_STATE.RUNNING 0, Reg.TILE_JIG_STATE.READY 0]⟩,
  ⟨"TILE_JIG_DISPATCHES", 0x100404, 0, 0, 1, 0x1000, 36, [Reg.TILE_JIG_DISPATCHES.COUNT 0]⟩,
  ⟨"TILE_JIG_SLICE_BUSY", 0x100408, 0, 0, 1, 0x1000, 36, [Reg.TILE_JIG_SLICE_BUSY.CYCLES 0]⟩,
  ⟨"TILE_BIND", 0x100000, 0, 0, 1, 0x1000, 36, [Reg.TILE_BIND.STATE 0, Reg.TILE_BIND.LOGICAL 0]⟩]

/-- Registers of the LEDGER block. -/
def regRowsLedger0 : List RegRow := [
  ⟨"LEDGER_STATUS", 0x90000, 0, 0, 1, 0, 1, [Reg.LEDGER_STATUS.CMD_RESULT, Reg.LEDGER_STATUS.REBUILD_PENDING, Reg.LEDGER_STATUS.SEARCH_LATE, Reg.LEDGER_STATUS.NO_ENTRY, Reg.LEDGER_STATUS.STALE_PRESENT, Reg.LEDGER_STATUS.PHASE]⟩,
  ⟨"LEDGER_CLOSED_EPOCH", 0x90004, 0, 0, 1, 0, 1, [Reg.LEDGER_CLOSED_EPOCH.EPOCH]⟩,
  ⟨"LEDGER_SHIFT_XY", 0x90008, 0, 0, 1, 0, 1, [Reg.LEDGER_SHIFT_XY.SY, Reg.LEDGER_SHIFT_XY.SX]⟩,
  ⟨"LEDGER_SHIFT_Z", 0x9000c, 0, 0, 1, 0, 1, [Reg.LEDGER_SHIFT_Z.SZ]⟩,
  ⟨"LEDGER_TRANSITIONS", 0x90010, 0, 0, 1, 0, 1, [Reg.LEDGER_TRANSITIONS.TRANSITIONS]⟩,
  ⟨"LEDGER_UPDATES", 0x90014, 0, 0, 1, 0, 1, [Reg.LEDGER_UPDATES.UPDATES]⟩,
  ⟨"LEDGER_TOUCHED", 0x90018, 0, 0, 1, 0, 1, [Reg.LEDGER_TOUCHED.TOUCHED]⟩,
  ⟨"LEDGER_APPLY_CYCLES", 0x9001c, 0, 0, 1, 0, 1, [Reg.LEDGER_APPLY_CYCLES.CYCLES]⟩,
  ⟨"LEDGER_REBUILD_COUNT", 0x90020, 0, 0, 1, 0, 1, [Reg.LEDGER_REBUILD_COUNT.REBUILDS]⟩,
  ⟨"LEDGER_REBUILD_CAUSE", 0x90024, 0, 0, 1, 0, 1, [Reg.LEDGER_REBUILD_CAUSE.CAUSE]⟩,
  ⟨"LEDGER_LATE_COUNT", 0x90028, 0, 0, 1, 0, 1, [Reg.LEDGER_LATE_COUNT.LATE]⟩,
  ⟨"LEDGER_RELAX", 0x9002c, 0, 0, 1, 0, 1, [Reg.LEDGER_RELAX.RELAX]⟩,
  ⟨"LEDGER_PATHS", 0x90030, 0, 0, 1, 0, 1, [Reg.LEDGER_PATHS.COMPLETE, Reg.LEDGER_PATHS.PATHS]⟩,
  ⟨"LEDGER_STALE_RECORDS", 0x90034, 0, 0, 1, 0, 1, [Reg.LEDGER_STALE_RECORDS.STALE]⟩,
  ⟨"LEDGER_QUEUE_DEPTH", 0x90038, 0, 0, 1, 0, 1, [Reg.LEDGER_QUEUE_DEPTH.DEPTH]⟩,
  ⟨"LEDGER_CMD", 0x9003c, 0, 0, 1, 0, 1, [Reg.LEDGER_CMD.REBUILD]⟩,
  ⟨"LEDGER_SPARES", 0x90040, 0, 0, 1, 0, 1, [Reg.LEDGER_SPARES.USED]⟩,
  ⟨"LEDGER_EDGE_COUNT", 0x90044, 0, 0, 1, 0, 1, [Reg.LEDGER_EDGE_COUNT.EDGES]⟩,
  ⟨"LEDGER_NODE_COUNT", 0x90048, 0, 0, 1, 0, 1, [Reg.LEDGER_NODE_COUNT.NODES]⟩]

/-- Registers of the ORDER block. -/
def regRowsOrder0 : List RegRow := [
  ⟨"ORDER_STATUS", 0x70000, 0, 0, 1, 0, 1, [Reg.ORDER_STATUS.SUSPECT, Reg.ORDER_STATUS.FALLBACK_PATH, Reg.ORDER_STATUS.REPEATED, Reg.ORDER_STATUS.SCORE_CONFLICT, Reg.ORDER_STATUS.TIES_BEYOND_K, Reg.ORDER_STATUS.SHORT]⟩,
  ⟨"ORDER_K", 0x70004, 0, 0, 1, 0, 1, [Reg.ORDER_K.K]⟩,
  ⟨"ORDER_COUNT", 0x70008, 0, 0, 1, 0, 1, [Reg.ORDER_COUNT.N]⟩,
  ⟨"ORDER_NAN_COUNT", 0x7000c, 0, 0, 1, 0, 1, [Reg.ORDER_NAN_COUNT.NAN]⟩,
  ⟨"ORDER_TIE_COUNT", 0x70010, 0, 0, 1, 0, 1, [Reg.ORDER_TIE_COUNT.TIES]⟩,
  ⟨"ORDER_LISTS", 0x70014, 0, 0, 1, 0, 1, [Reg.ORDER_LISTS.LISTS]⟩,
  ⟨"ORDER_CYCLES", 0x70018, 0, 0, 1, 0, 1, [Reg.ORDER_CYCLES.CYCLES]⟩,
  ⟨"ORDER_CONFLICT_COUNT", 0x7001c, 0, 0, 1, 0, 1, [Reg.ORDER_CONFLICT_COUNT.CONFLICTS]⟩,
  ⟨"ORDER_FALLBACK_COUNT", 0x70020, 0, 0, 1, 0, 1, [Reg.ORDER_FALLBACK_COUNT.EPOCHS]⟩,
  ⟨"ORDER_NAN_TOTAL", 0x70024, 0, 0, 1, 0, 1, [Reg.ORDER_NAN_TOTAL.NAN]⟩,
  ⟨"ORDER_TOP", 0x71000, 4, 0, 1024, 0, 1, [Reg.ORDER_TOP.ENTRY 0]⟩]

/-- Registers of the SOLVER block. -/
def regRowsSolver0 : List RegRow := [
  ⟨"SOLVER_STATUS", 0x80000, 0, 0, 1, 0, 1, [Reg.SOLVER_STATUS.SUSPECT, Reg.SOLVER_STATUS.GOOD, Reg.SOLVER_STATUS.DIAG_BUSY, Reg.SOLVER_STATUS.NO_ENGINE, Reg.SOLVER_STATUS.REPLAYED]⟩,
  ⟨"SOLVER_RESULT", 0x80004, 0, 0, 1, 0, 1, [Reg.SOLVER_RESULT.ITERATIONS, Reg.SOLVER_RESULT.RFLAGS, Reg.SOLVER_RESULT.ENGINE, Reg.SOLVER_RESULT.STATUS]⟩,
  ⟨"SOLVER_PROBLEM_INFO", 0x80008, 0, 0, 1, 0, 1, [Reg.SOLVER_PROBLEM_INFO.NC, Reg.SOLVER_PROBLEM_INFO.NU, Reg.SOLVER_PROBLEM_INFO.NX, Reg.SOLVER_PROBLEM_INFO.PRECISION, Reg.SOLVER_PROBLEM_INFO.N]⟩,
  ⟨"SOLVER_FIT_ITER", 0x8000c, 0, 0, 1, 0, 1, [Reg.SOLVER_FIT_ITER.FIT]⟩,
  ⟨"SOLVER_ITER_CYCLES", 0x80010, 0, 0, 1, 0, 1, [Reg.SOLVER_ITER_CYCLES.CYCLES]⟩,
  ⟨"SOLVER_RETURN_NS", 0x80014, 0, 0, 1, 0, 1, [Reg.SOLVER_RETURN_NS.RETURN]⟩,
  ⟨"SOLVER_RES_PRIM", 0x80018, 0, 0, 1, 0, 1, [Reg.SOLVER_RES_PRIM.RES]⟩,
  ⟨"SOLVER_GAP", 0x8001c, 0, 0, 1, 0, 1, [Reg.SOLVER_GAP.GAP]⟩,
  ⟨"SOLVER_DEADLINE_COUNT", 0x80020, 0, 0, 1, 0, 1, [Reg.SOLVER_DEADLINE_COUNT.COUNT]⟩,
  ⟨"SOLVER_NUMERIC_COUNT", 0x80024, 0, 0, 1, 0, 1, [Reg.SOLVER_NUMERIC_COUNT.COUNT]⟩,
  ⟨"SOLVER_COLD_COUNT", 0x80028, 0, 0, 1, 0, 1, [Reg.SOLVER_COLD_COUNT.COUNT]⟩,
  ⟨"SOLVER_DIAG_STATUS", 0x8002c, 0, 0, 1, 0, 1, [Reg.SOLVER_DIAG_STATUS.RESULT, Reg.SOLVER_DIAG_STATUS.ENGINE, Reg.SOLVER_DIAG_STATUS.PIVOT, Reg.SOLVER_DIAG_STATUS.STAGE]⟩]

/-- Registers of the JIG block. -/
def regRowsJig0 : List RegRow := [
  ⟨"JIG_STATUS", 0x60000, 0, 0, 1, 0, 1, [Reg.JIG_STATUS.TRACE_FULL, Reg.JIG_STATUS.PEND_READY, Reg.JIG_STATUS.BACKPRESSURE]⟩,
  ⟨"JIG_AFFINITY", 0x60004, 0, 0, 1, 0, 1, [Reg.JIG_AFFINITY.THRESHOLD]⟩,
  ⟨"JIG_TICK", 0x60008, 0, 0, 1, 0, 1, [Reg.JIG_TICK.TICK]⟩,
  ⟨"JIG_DESC_FREE_MIN", 0x6000c, 0, 0, 1, 0, 1, [Reg.JIG_DESC_FREE_MIN.FREE]⟩,
  ⟨"JIG_MIGRATIONS", 0x60010, 0, 0, 1, 0, 1, [Reg.JIG_MIGRATIONS.COUNT]⟩,
  ⟨"JIG_DECLINES", 0x60014, 0, 0, 1, 0, 1, [Reg.JIG_DECLINES.COUNT]⟩,
  ⟨"JIG_BACKPRESSURE", 0x60018, 0, 0, 1, 0, 1, [Reg.JIG_BACKPRESSURE.COUNT]⟩,
  ⟨"JIG_BUSY_ACKS", 0x6001c, 0, 0, 1, 0, 1, [Reg.JIG_BUSY_ACKS.COUNT]⟩,
  ⟨"JIG_TEST_ADMITS", 0x60020, 0, 0, 1, 0, 1, [Reg.JIG_TEST_ADMITS.COUNT]⟩,
  ⟨"JIG_TEST_DEFERS", 0x60024, 0, 0, 1, 0, 1, [Reg.JIG_TEST_DEFERS.COUNT]⟩,
  ⟨"JIG_TEST_ABORTS", 0x60028, 0, 0, 1, 0, 1, [Reg.JIG_TEST_ABORTS.COUNT]⟩,
  ⟨"JIG_TRACE_CTL", 0x60030, 0, 0, 1, 0, 1, [Reg.JIG_TRACE_CTL.STOP, Reg.JIG_TRACE_CTL.ENABLE]⟩,
  ⟨"JIG_TRACE_WR", 0x60034, 0, 0, 1, 0, 1, [Reg.JIG_TRACE_WR.WRAPS, Reg.JIG_TRACE_WR.INDEX]⟩,
  ⟨"JIG_TRACE_RD", 0x60038, 0, 0, 1, 0, 1, [Reg.JIG_TRACE_RD.INDEX]⟩,
  ⟨"JIG_TRACE_LOST", 0x6003c, 0, 0, 1, 0, 1, [Reg.JIG_TRACE_LOST.COUNT]⟩,
  ⟨"JIG_TRACE_DATA", 0x60040, 4, 0, 4, 0, 1, [Reg.JIG_TRACE_DATA.DATA 0]⟩,
  ⟨"JIG_FLOW_SEL", 0x60050, 0, 0, 1, 0, 1, [Reg.JIG_FLOW_SEL.FLOW]⟩,
  ⟨"JIG_FLOW_INFO", 0x60054, 0, 0, 1, 0, 1, [Reg.JIG_FLOW_INFO.HELD, Reg.JIG_FLOW_INFO.NEXT]⟩]

/-- Registers of the SAFE block. -/
def regRowsSafe0 : List RegRow := [
  ⟨"SAFE_VERDICT", 0xa0000, 0, 0, 1, 0, 1, [Reg.SAFE_VERDICT.DISAGREE, Reg.SAFE_VERDICT.SHADOW, Reg.SAFE_VERDICT.VERDICT]⟩,
  ⟨"SAFE_VERDICT_EPOCH", 0xa0004, 0, 0, 1, 0, 1, [Reg.SAFE_VERDICT_EPOCH.EPOCH]⟩,
  ⟨"SAFE_REASON", 0xa0008, 0, 0, 1, 0, 1, [Reg.SAFE_REASON.REASON]⟩,
  ⟨"SAFE_MODE", 0xa000c, 0, 0, 1, 0, 1, [Reg.SAFE_MODE.ISLAND_FAULT, Reg.SAFE_MODE.WD_EXPIRED, Reg.SAFE_MODE.COPY_LOSS, Reg.SAFE_MODE.ARMED, Reg.SAFE_MODE.RESTARTS, Reg.SAFE_MODE.MODE]⟩,
  ⟨"SAFE_FB_REMAIN", 0xa0010, 0, 0, 1, 0, 1, [Reg.SAFE_FB_REMAIN.MS]⟩,
  ⟨"SAFE_TS_CLEARANCE", 0xa0014, 0, 0, 1, 0, 1, [Reg.SAFE_TS_CLEARANCE.LTS]⟩,
  ⟨"SAFE_MAIN_CLEARANCE", 0xa0018, 0, 0, 1, 0, 1, [Reg.SAFE_MAIN_CLEARANCE.FINAL]⟩,
  ⟨"SAFE_WINDOW", 0xa001c, 0, 0, 1, 0, 1, [Reg.SAFE_WINDOW.MAP]⟩,
  ⟨"SAFE_VERIFY_NEED", 0xa0020, 0, 0, 1, 0, 1, [Reg.SAFE_VERIFY_NEED.US]⟩,
  ⟨"SAFE_ENTRY_COUNT", 0xa0024, 0, 0, 1, 0, 1, [Reg.SAFE_ENTRY_COUNT.COUNT]⟩,
  ⟨"SAFE_STOP_COUNT", 0xa0028, 0, 0, 1, 0, 1, [Reg.SAFE_STOP_COUNT.COUNT]⟩,
  ⟨"SAFE_PREV_COUNT", 0xa002c, 0, 0, 1, 0, 1, [Reg.SAFE_PREV_COUNT.COUNT]⟩,
  ⟨"SAFE_FB_COUNT", 0xa0030, 0, 0, 1, 0, 1, [Reg.SAFE_FB_COUNT.COUNT]⟩,
  ⟨"SAFE_CMD", 0xa0034, 0, 0, 1, 0, 1, [Reg.SAFE_CMD.ENTER]⟩,
  ⟨"SAFE_SP_STRAPS", 0xa0100, 0, 0, 1, 0, 1, [Reg.SAFE_SP_STRAPS.ADDRESS, Reg.SAFE_SP_STRAPS.WARM, Reg.SAFE_SP_STRAPS.REF, Reg.SAFE_SP_STRAPS.DEBUG, Reg.SAFE_SP_STRAPS.SP_ENABLE, Reg.SAFE_SP_STRAPS.RATE, Reg.SAFE_SP_STRAPS.PAIR, Reg.SAFE_SP_STRAPS.ROLE, Reg.SAFE_SP_STRAPS.BOOT]⟩,
  ⟨"SAFE_SP_STATUS", 0xa0104, 0, 0, 1, 0, 1, [Reg.SAFE_SP_STATUS.GENERATION, Reg.SAFE_SP_STATUS.STRAP_ERROR, Reg.SAFE_SP_STATUS.PHASE]⟩,
  ⟨"SAFE_SP_SWAPS", 0xa0108, 0, 0, 1, 0, 1, [Reg.SAFE_SP_SWAPS.COUNT]⟩,
  ⟨"SAFE_SP_CLIPPED", 0xa010c, 0, 0, 1, 0, 1, [Reg.SAFE_SP_CLIPPED.COUNT]⟩,
  ⟨"SAFE_SP_WAKE_CFG", 0xa0110, 0, 0, 1, 0, 1, [Reg.SAFE_SP_WAKE_CFG.MODE, Reg.SAFE_SP_WAKE_CFG.POLARITY, Reg.SAFE_SP_WAKE_CFG.ENABLE]⟩,
  ⟨"SAFE_SP_WAKE_STATUS", 0xa0114, 0, 0, 1, 0, 1, [Reg.SAFE_SP_WAKE_STATUS.SOURCE]⟩]

/-- Registers of the SAFE block, continued. -/
def regRowsSafe1 : List RegRow := [
  ⟨"SAFE_SP_TABLE", 0xa1000, 4, 0, 512, 0, 1, [Reg.SAFE_SP_TABLE.PAIR 0]⟩]

/-- Registers of the ETH block. -/
def regRowsEth0 : List RegRow := [
  ⟨"ETH_STATUS", 0xc0000, 0, 0, 1, 0, 1, [Reg.ETH_STATUS.PTP_PORT, Reg.ETH_STATUS.PTP_SYNCED, Reg.ETH_STATUS.LINK]⟩,
  ⟨"ETH_PTP_OFFSET", 0xc0004, 0, 0, 1, 0, 1, [Reg.ETH_PTP_OFFSET.OFFSET]⟩,
  ⟨"ETH_CTL", 0xc0008, 0, 0, 1, 0, 1, [Reg.ETH_CTL.TRACE_STREAM]⟩,
  ⟨"ETH_PUSH_NEXT_LO", 0xc000c, 0, 0, 1, 0, 1, [Reg.ETH_PUSH_NEXT_LO.NEXT_LO]⟩,
  ⟨"ETH_PUSH_NEXT_HI", 0xc0010, 0, 0, 1, 0, 1, [Reg.ETH_PUSH_NEXT_HI.NEXT_HI]⟩,
  ⟨"ETH_PORT_CTL", 0xc0040, 0x10, 0, 4, 0, 1, [Reg.ETH_PORT_CTL.MACSEC 0, Reg.ETH_PORT_CTL.AN 0, Reg.ETH_PORT_CTL.JUMBO 0, Reg.ETH_PORT_CTL.RATE 0]⟩,
  ⟨"ETH_PORT_STATUS", 0xc0044, 0x10, 0, 4, 0, 1, [Reg.ETH_PORT_STATUS.MACSEC_UP 0, Reg.ETH_PORT_STATUS.PREEMPT 0, Reg.ETH_PORT_STATUS.RATE 0]⟩,
  ⟨"ETH_PORT_RX_ERR", 0xc0048, 0x10, 0, 4, 0, 1, [Reg.ETH_PORT_RX_ERR.COUNT 0]⟩,
  ⟨"ETH_PORT_TX_DROP", 0xc004c, 0x10, 0, 4, 0, 1, [Reg.ETH_PORT_TX_DROP.COUNT 0]⟩,
  ⟨"ETH_RX_DROP", 0xc0100, 4, 2, 8, 0, 1, [Reg.ETH_RX_DROP.COUNT 0]⟩,
  ⟨"ETH_PART_STATUS", 0xc0200, 0x20, 0, 8, 0, 1, [Reg.ETH_PART_STATUS.JOBS 0, Reg.ETH_PART_STATUS.ROLL_DUE 0, Reg.ETH_PART_STATUS.KEY_VALID 0]⟩,
  ⟨"ETH_PART_RX_SEQ", 0xc0204, 0x20, 0, 8, 0, 1, [Reg.ETH_PART_RX_SEQ.SEQ 0]⟩,
  ⟨"ETH_PART_TX_SEQ", 0xc0208, 0x20, 0, 8, 0, 1, [Reg.ETH_PART_TX_SEQ.SEQ 0]⟩,
  ⟨"ETH_PART_AUTH_FAIL", 0xc020c, 0x20, 0, 8, 0, 1, [Reg.ETH_PART_AUTH_FAIL.COUNT 0]⟩,
  ⟨"ETH_PART_METER_DROP", 0xc0210, 0x20, 0, 8, 0, 1, [Reg.ETH_PART_METER_DROP.COUNT 0]⟩,
  ⟨"ETH_PART_RESULTS", 0xc0214, 0x20, 0, 8, 0, 1, [Reg.ETH_PART_RESULTS.COUNT 0]⟩,
  ⟨"ETH_MACSEC_SAK", 0xc0400, 4, 0, 8, 0x40, 4, [Reg.ETH_MACSEC_SAK.KEY 0 0]⟩,
  ⟨"ETH_MACSEC_INSTALL", 0xc0420, 0x40, 0, 4, 0, 1, [Reg.ETH_MACSEC_INSTALL.RX 0, Reg.ETH_MACSEC_INSTALL.AN 0]⟩]

/-- Registers of the TENON block. -/
def regRowsTenon0 : List RegRow := [
  ⟨"TENON_STATUS", 0xd0000, 0, 0, 1, 0, 1, [Reg.TENON_STATUS.DEVICE, Reg.TENON_STATUS.PAIR_LINKED, Reg.TENON_STATUS.SPARE, Reg.TENON_STATUS.STATE, Reg.TENON_STATUS.FAIL]⟩,
  ⟨"TENON_CHAIN", 0xd0004, 0, 0, 1, 0, 1, [Reg.TENON_CHAIN.ACTIVE, Reg.TENON_CHAIN.POSITION]⟩,
  ⟨"TENON_DEVICES", 0xd0008, 0, 0, 1, 0, 1, [Reg.TENON_DEVICES.TAIL, Reg.TENON_DEVICES.COUNT]⟩,
  ⟨"TENON_WORST_NS", 0xd000c, 0, 0, 1, 0, 1, [Reg.TENON_WORST_NS.WORST]⟩,
  ⟨"TENON_BUDGET_NS", 0xd0010, 0, 0, 1, 0, 1, [Reg.TENON_BUDGET_NS.BUDGET]⟩,
  ⟨"TENON_CMD", 0xd0014, 0, 0, 1, 0, 1, [Reg.TENON_CMD.ENUMERATE, Reg.TENON_CMD.CLAMP]⟩,
  ⟨"TENON_CMD_STATUS", 0xd0018, 0, 0, 1, 0, 1, [Reg.TENON_CMD_STATUS.RESULT]⟩,
  ⟨"TENON_CLAMP_SKEW_PS", 0xd001c, 0, 0, 1, 0, 1, [Reg.TENON_CLAMP_SKEW_PS.SKEW]⟩,
  ⟨"TENON_SQUASH_SENT", 0xd0020, 0, 0, 1, 0, 1, [Reg.TENON_SQUASH_SENT.COUNT]⟩,
  ⟨"TENON_SQUASH_RECEIVED", 0xd0024, 0, 0, 1, 0, 1, [Reg.TENON_SQUASH_RECEIVED.COUNT]⟩,
  ⟨"TENON_CONFIRM_LATE", 0xd0028, 0, 0, 1, 0, 1, [Reg.TENON_CONFIRM_LATE.COUNT]⟩,
  ⟨"TENON_LIST_LATE", 0xd002c, 0, 0, 1, 0, 1, [Reg.TENON_LIST_LATE.COUNT]⟩,
  ⟨"TENON_PAIR_MATCH", 0xd0030, 0, 0, 1, 0, 1, [Reg.TENON_PAIR_MATCH.COUNT]⟩,
  ⟨"TENON_PAIR_MISMATCH", 0xd0034, 0, 0, 1, 0, 1, [Reg.TENON_PAIR_MISMATCH.COUNT]⟩,
  ⟨"TENON_PAIR_SKIPPED", 0xd0038, 0, 0, 1, 0, 1, [Reg.TENON_PAIR_SKIPPED.COUNT]⟩,
  ⟨"TENON_PAIR_EPOCH", 0xd003c, 0, 0, 1, 0, 1, [Reg.TENON_PAIR_EPOCH.EPOCH]⟩,
  ⟨"TENON_LINK_CTL", 0xd0100, 0x40, 0, 4, 0, 1, [Reg.TENON_LINK_CTL.ENABLE 0]⟩,
  ⟨"TENON_LINK_STATUS", 0xd0104, 0x40, 0, 4, 0, 1, [Reg.TENON_LINK_STATUS.PEER 0, Reg.TENON_LINK_STATUS.USE 0, Reg.TENON_LINK_STATUS.STATE 0]⟩,
  ⟨"TENON_LINK_LAT_PS", 0xd0108, 0x40, 0, 4, 0, 1, [Reg.TENON_LINK_LAT_PS.LATENCY 0]⟩,
  ⟨"TENON_LINK_REPLAYS", 0xd010c, 0x40, 0, 4, 0, 1, [Reg.TENON_LINK_REPLAYS.COUNT 0]⟩]

/-- Registers of the TENON block, continued. -/
def regRowsTenon1 : List RegRow := [
  ⟨"TENON_LINK_CRC_ERR", 0xd0110, 0x40, 0, 4, 0, 1, [Reg.TENON_LINK_CRC_ERR.COUNT 0]⟩,
  ⟨"TENON_LINK_FEC_CORR", 0xd0114, 0x40, 0, 4, 0, 1, [Reg.TENON_LINK_FEC_CORR.COUNT 0]⟩,
  ⟨"TENON_LINK_FEC_UNCORR", 0xd0118, 0x40, 0, 4, 0, 1, [Reg.TENON_LINK_FEC_UNCORR.COUNT 0]⟩,
  ⟨"TENON_LINK_RETRAINS", 0xd011c, 0x40, 0, 4, 0, 1, [Reg.TENON_LINK_RETRAINS.COUNT 0]⟩,
  ⟨"TENON_LINK_CREDITS", 0xd0120, 0x40, 0, 4, 0, 1, [Reg.TENON_LINK_CREDITS.SHARED 0, Reg.TENON_LINK_CREDITS.VC3 0, Reg.TENON_LINK_CREDITS.VC2 0, Reg.TENON_LINK_CREDITS.VC1 0, Reg.TENON_LINK_CREDITS.VC0 0]⟩,
  ⟨"TENON_RMT_DEV", 0xd0200, 0, 0, 1, 0, 1, [Reg.TENON_RMT_DEV.DEVICE]⟩,
  ⟨"TENON_RMT_ADDR", 0xd0204, 0, 0, 1, 0, 1, [Reg.TENON_RMT_ADDR.ADDRESS]⟩,
  ⟨"TENON_RMT_CMD", 0xd0208, 0, 0, 1, 0, 1, [Reg.TENON_RMT_CMD.COUNT, Reg.TENON_RMT_CMD.OP]⟩,
  ⟨"TENON_RMT_STATUS", 0xd020c, 0, 0, 1, 0, 1, [Reg.TENON_RMT_STATUS.FAIL_INDEX, Reg.TENON_RMT_STATUS.BUSY, Reg.TENON_RMT_STATUS.STATUS]⟩,
  ⟨"TENON_RMT_DATA", 0xd0240, 4, 0, 16, 0, 1, [Reg.TENON_RMT_DATA.DATA 0]⟩]

/-- Registers of the DIGEST block. -/
def regRowsDigest0 : List RegRow := [
  ⟨"DIGEST_STATUS", 0xe0000, 0, 0, 1, 0, 1, [Reg.DIGEST_STATUS.INTEGRITY, Reg.DIGEST_STATUS.SHADOW, Reg.DIGEST_STATUS.MASK]⟩,
  ⟨"DIGEST_EPOCH", 0xe0004, 0, 0, 1, 0, 1, [Reg.DIGEST_EPOCH.EPOCH]⟩,
  ⟨"DIGEST_FRAME_LO", 0xe0008, 0, 0, 1, 0, 1, [Reg.DIGEST_FRAME_LO.LO]⟩,
  ⟨"DIGEST_FRAME_HI", 0xe000c, 0, 0, 1, 0, 1, [Reg.DIGEST_FRAME_HI.HI]⟩,
  ⟨"DIGEST_STAGE_LO", 0xe0008, 8, 1, 10, 0, 1, [Reg.DIGEST_STAGE_LO.LO 0]⟩,
  ⟨"DIGEST_STAGE_HI", 0xe000c, 8, 1, 10, 0, 1, [Reg.DIGEST_STAGE_HI.HI 0]⟩,
  ⟨"DIGEST_WORLD_LO", 0xe0058, 0, 0, 1, 0, 1, [Reg.DIGEST_WORLD_LO.LO]⟩,
  ⟨"DIGEST_WORLD_HI", 0xe005c, 0, 0, 1, 0, 1, [Reg.DIGEST_WORLD_HI.HI]⟩,
  ⟨"DIGEST_PROVENANCE", 0xe0060, 4, 0, 16, 0, 1, [Reg.DIGEST_PROVENANCE.DIGEST 0]⟩,
  ⟨"DIGEST_CAP_CTL", 0xe0100, 0, 0, 1, 0, 1, [Reg.DIGEST_CAP_CTL.SIZE_MB, Reg.DIGEST_CAP_CTL.ENABLE]⟩,
  ⟨"DIGEST_CAP_STATUS", 0xe0104, 0, 0, 1, 0, 1, [Reg.DIGEST_CAP_STATUS.FULL, Reg.DIGEST_CAP_STATUS.LOST, Reg.DIGEST_CAP_STATUS.CAPTURING]⟩,
  ⟨"DIGEST_CAP_WR", 0xe0108, 0, 0, 1, 0, 1, [Reg.DIGEST_CAP_WR.OFFSET]⟩,
  ⟨"DIGEST_CAP_WIN", 0xe010c, 0, 0, 1, 0, 1, [Reg.DIGEST_CAP_WIN.OFFSET]⟩,
  ⟨"DIGEST_CMD", 0xe0110, 0, 0, 1, 0, 1, [Reg.DIGEST_CMD.CMD]⟩,
  ⟨"DIGEST_REPLAY_STATUS", 0xe0114, 0, 0, 1, 0, 1, [Reg.DIGEST_REPLAY_STATUS.PHASE, Reg.DIGEST_REPLAY_STATUS.RESULT, Reg.DIGEST_REPLAY_STATUS.STAGE]⟩,
  ⟨"DIGEST_REPLAY_EPOCH", 0xe0118, 0, 0, 1, 0, 1, [Reg.DIGEST_REPLAY_EPOCH.EPOCH]⟩,
  ⟨"DIGEST_REPLAY_COUNT", 0xe011c, 0, 0, 1, 0, 1, [Reg.DIGEST_REPLAY_COUNT.COUNT]⟩,
  ⟨"DIGEST_INTEGRITY_COUNT", 0xe0120, 0, 0, 1, 0, 1, [Reg.DIGEST_INTEGRITY_COUNT.COUNT]⟩,
  ⟨"DIGEST_CAP_WINDOW", 0xe1000, 4, 0, 1024, 0, 1, [Reg.DIGEST_CAP_WINDOW.DATA 0]⟩]

/-- Registers of the FAULT block. -/
def regRowsFault0 : List RegRow := [
  ⟨"FAULT_STATUS", 0xb0000, 0, 0, 1, 0, 1, [Reg.FAULT_STATUS.QUEUE, Reg.FAULT_STATUS.HANDLING, Reg.FAULT_STATUS.RECORD_LOST, Reg.FAULT_STATUS.LOG_ERROR]⟩,
  ⟨"FAULT_CORRECTED_COUNT", 0xb0004, 0, 0, 1, 0, 1, [Reg.FAULT_CORRECTED_COUNT.COUNT]⟩,
  ⟨"FAULT_CONTAINED_COUNT", 0xb0008, 0, 0, 1, 0, 1, [Reg.FAULT_CONTAINED_COUNT.COUNT]⟩,
  ⟨"FAULT_SUSPECT_COUNT", 0xb000c, 0, 0, 1, 0, 1, [Reg.FAULT_SUSPECT_COUNT.COUNT]⟩,
  ⟨"FAULT_FATAL_COUNT", 0xb0010, 0, 0, 1, 0, 1, [Reg.FAULT_FATAL_COUNT.COUNT]⟩,
  ⟨"FAULT_MERGED_COUNT", 0xb0014, 0, 0, 1, 0, 1, [Reg.FAULT_MERGED_COUNT.COUNT]⟩,
  ⟨"FAULT_RECORD_LOST", 0xb0018, 0, 0, 1, 0, 1, [Reg.FAULT_RECORD_LOST.COUNT]⟩,
  ⟨"FAULT_RECORD_SEQ", 0xb001c, 0, 0, 1, 0, 1, [Reg.FAULT_RECORD_SEQ.SEQ]⟩,
  ⟨"FAULT_LOG_BASE", 0xb0020, 0, 0, 1, 0, 1, [Reg.FAULT_LOG_BASE.BASE]⟩,
  ⟨"FAULT_LOG_SIZE", 0xb0024, 0, 0, 1, 0, 1, [Reg.FAULT_LOG_SIZE.SIZE]⟩,
  ⟨"FAULT_LOG_NEXT", 0xb0028, 0, 0, 1, 0, 1, [Reg.FAULT_LOG_NEXT.OFFSET]⟩,
  ⟨"FAULT_OD_LIMIT", 0xb0030, 0, 0, 1, 0, 1, [Reg.FAULT_OD_LIMIT.PAIR_LIMIT]⟩,
  ⟨"FAULT_TEST_CMD", 0xb0034, 0, 0, 1, 0, 1, [Reg.FAULT_TEST_CMD.CLASS, Reg.FAULT_TEST_CMD.INDEX]⟩,
  ⟨"FAULT_TEST_STATUS", 0xb0038, 0, 0, 1, 0, 1, [Reg.FAULT_TEST_STATUS.RESULT]⟩,
  ⟨"FAULT_UNIT_SEL", 0xb0040, 0, 0, 1, 0, 1, [Reg.FAULT_UNIT_SEL.CLASS, Reg.FAULT_UNIT_SEL.INDEX]⟩,
  ⟨"FAULT_UNIT_INFO", 0xb0044, 0, 0, 1, 0, 1, [Reg.FAULT_UNIT_INFO.STATE, Reg.FAULT_UNIT_INFO.CLEAN, Reg.FAULT_UNIT_INFO.DUE, Reg.FAULT_UNIT_INFO.ERRORS]⟩,
  ⟨"FAULT_UNIT_LAST_TEST", 0xb0048, 0, 0, 1, 0, 1, [Reg.FAULT_UNIT_LAST_TEST.MINUTES]⟩,
  ⟨"FAULT_MAINT_HELD", 0xb0050, 0, 0, 1, 0, 1, [Reg.FAULT_MAINT_HELD.HELD]⟩,
  ⟨"FAULT_MAINT_REFUSED", 0xb0054, 0, 0, 1, 0, 1, [Reg.FAULT_MAINT_REFUSED.COUNT]⟩,
  ⟨"FAULT_MAINT_LAST", 0xb0058, 0, 0, 1, 0, 1, [Reg.FAULT_MAINT_LAST.HOLDER, Reg.FAULT_MAINT_LAST.REQUESTED]⟩]

/-- Registers of the FAULT block, continued. -/
def regRowsFault1 : List RegRow := [
  ⟨"FAULT_LAST_FATAL", 0xb005c, 0, 0, 1, 0, 1, [Reg.FAULT_LAST_FATAL.MECHANISM, Reg.FAULT_LAST_FATAL.CLASS, Reg.FAULT_LAST_FATAL.INDEX]⟩]

/-- Registers of the PWR block. -/
def regRowsPwr0 : List RegRow := [
  ⟨"PWR_STATUS", 0x10000, 0, 0, 1, 0, 1, [Reg.PWR_STATUS.CAUSE, Reg.PWR_STATUS.STEP, Reg.PWR_STATUS.WAKING, Reg.PWR_STATUS.ENTRY_PENDING, Reg.PWR_STATUS.LAST_SLEEP]⟩,
  ⟨"PWR_CMD", 0x10004, 0, 0, 1, 0, 1, [Reg.PWR_CMD.CMD]⟩,
  ⟨"PWR_CMD_STATUS", 0x10008, 0, 0, 1, 0, 1, [Reg.PWR_CMD_STATUS.RESULT]⟩,
  ⟨"PWR_WAKE_SOURCE", 0x1000c, 0, 0, 1, 0, 1, [Reg.PWR_WAKE_SOURCE.SOURCE]⟩,
  ⟨"PWR_ALARM_LO", 0x10010, 0, 0, 1, 0, 1, [Reg.PWR_ALARM_LO.LO]⟩,
  ⟨"PWR_ALARM_HI", 0x10014, 0, 0, 1, 0, 1, [Reg.PWR_ALARM_HI.HI]⟩,
  ⟨"PWR_WAKE_CTL", 0x10018, 0, 0, 1, 0, 1, [Reg.PWR_WAKE_CTL.THERMAL_WAKE, Reg.PWR_WAKE_CTL.KNOCK_SEND, Reg.PWR_WAKE_CTL.KNOCK_ACCEPT, Reg.PWR_WAKE_CTL.ETH_PORTS]⟩,
  ⟨"PWR_TJ", 0x1001c, 0, 0, 1, 0, 1, [Reg.PWR_TJ.TJ]⟩,
  ⟨"PWR_CORE", 0x10020, 0, 0, 1, 0, 1, [Reg.PWR_CORE.AMPS, Reg.PWR_CORE.MV]⟩,
  ⟨"PWR_POWER", 0x10024, 0, 0, 1, 0, 1, [Reg.PWR_POWER.BUCKET_MJ, Reg.PWR_POWER.WATTS]⟩,
  ⟨"PWR_THROTTLE_COUNT", 0x10028, 0, 0, 1, 0, 1, [Reg.PWR_THROTTLE_COUNT.COUNT]⟩,
  ⟨"PWR_SLEEP_COUNT", 0x1002c, 0, 0, 1, 0, 1, [Reg.PWR_SLEEP_COUNT.COUNT]⟩,
  ⟨"PWR_WAKE_ETH", 0x10030, 0, 0, 1, 0, 1, [Reg.PWR_WAKE_ETH.MODES]⟩,
  ⟨"PWR_LEASE", 0x10040, 4, 1, 8, 0, 1, [Reg.PWR_LEASE.MS 0]⟩,
  ⟨"PWR_TILE_RETAIN", 0x10100, 4, 0, 32, 0, 1, [Reg.PWR_TILE_RETAIN.SLEEP_BANKS 0, Reg.PWR_TILE_RETAIN.DOZE_BANKS 0]⟩,
  ⟨"PWR_TILE_STATE", 0x10200, 4, 0, 36, 0, 1, [Reg.PWR_TILE_STATE.DOZES 0, Reg.PWR_TILE_STATE.STATE 0]⟩]

/-- Registers of the SEC block. -/
def regRowsSec0 : List RegRow := [
  ⟨"SEC_BOOT_STATUS", 0x30000, 0, 0, 1, 0, 1, [Reg.SEC_BOOT_STATUS.FAIL, Reg.SEC_BOOT_STATUS.WARM, Reg.SEC_BOOT_STATUS.STEP, Reg.SEC_BOOT_STATUS.SOURCE, Reg.SEC_BOOT_STATUS.STATE]⟩,
  ⟨"SEC_BOOT_COUNT", 0x30004, 0, 0, 1, 0, 1, [Reg.SEC_BOOT_COUNT.COUNT]⟩,
  ⟨"SEC_RESTART_COUNT", 0x30008, 0, 0, 1, 0, 1, [Reg.SEC_RESTART_COUNT.COUNT]⟩,
  ⟨"SEC_BOOT_ATTEMPTS", 0x3000c, 0, 0, 1, 0, 1, [Reg.SEC_BOOT_ATTEMPTS.B_EXCLUDED, Reg.SEC_BOOT_ATTEMPTS.A_EXCLUDED, Reg.SEC_BOOT_ATTEMPTS.WARM_FAILS, Reg.SEC_BOOT_ATTEMPTS.B_FAILS, Reg.SEC_BOOT_ATTEMPTS.A_FAILS]⟩,
  ⟨"SEC_BOOT_TIME_US", 0x30010, 0, 0, 1, 0, 1, [Reg.SEC_BOOT_TIME_US.US]⟩,
  ⟨"SEC_BOOT_CMD", 0x30014, 0, 0, 1, 0, 1, [Reg.SEC_BOOT_CMD.CMD]⟩,
  ⟨"SEC_BOOT_CMD_STATUS", 0x30018, 0, 0, 1, 0, 1, [Reg.SEC_BOOT_CMD_STATUS.RESULT]⟩,
  ⟨"SEC_KEY_STATUS", 0x30020, 0, 0, 1, 0, 1, [Reg.SEC_KEY_STATUS.UPDATES, Reg.SEC_KEY_STATUS.PRESENT]⟩,
  ⟨"SEC_KEY_CMD", 0x30024, 0, 0, 1, 0, 1, [Reg.SEC_KEY_CMD.APPLY]⟩,
  ⟨"SEC_KEY_RESULT", 0x30028, 0, 0, 1, 0, 1, [Reg.SEC_KEY_RESULT.RESULT]⟩,
  ⟨"SEC_DEBUG_CMD", 0x30030, 0, 0, 1, 0, 1, [Reg.SEC_DEBUG_CMD.CMD]⟩,
  ⟨"SEC_DEBUG_STATUS", 0x30034, 0, 0, 1, 0, 1, [Reg.SEC_DEBUG_STATUS.RESULT, Reg.SEC_DEBUG_STATUS.STATE]⟩,
  ⟨"SEC_KEY_DATA", 0x30100, 4, 0, 69, 0, 1, [Reg.SEC_KEY_DATA.DATA 0]⟩,
  ⟨"SEC_DEBUG_CHALLENGE", 0x30300, 4, 0, 16, 0, 1, [Reg.SEC_DEBUG_CHALLENGE.DATA 0]⟩,
  ⟨"SEC_DEBUG_RESPONSE", 0x30340, 4, 0, 33, 0, 1, [Reg.SEC_DEBUG_RESPONSE.DATA 0]⟩,
  ⟨"SEC_CERT_LENGTH", 0x30400, 0, 0, 1, 0, 1, [Reg.SEC_CERT_LENGTH.BYTES]⟩,
  ⟨"SEC_CERT", 0x30800, 4, 0, 512, 0, 1, [Reg.SEC_CERT.DATA 0]⟩]

/-- Registers of the IDENT block. -/
def regRowsIdent0 : List RegRow := [
  ⟨"IDENT_PART", 0, 0, 0, 1, 0, 1, [Reg.IDENT_PART.PART, Reg.IDENT_PART.DIE_REV, Reg.IDENT_PART.GRADE]⟩,
  ⟨"IDENT_FORMAT", 4, 0, 0, 1, 0, 1, [Reg.IDENT_FORMAT.MAJOR, Reg.IDENT_FORMAT.MINOR]⟩,
  ⟨"IDENT_UNITS", 8, 0, 0, 1, 0, 1, [Reg.IDENT_UNITS.UNITS]⟩,
  ⟨"IDENT_TILES", 0xc, 0, 0, 1, 0, 1, [Reg.IDENT_TILES.SPARES, Reg.IDENT_TILES.ENABLED]⟩,
  ⟨"IDENT_TILE_GOOD_LO", 0x10, 0, 0, 1, 0, 1, [Reg.IDENT_TILE_GOOD_LO.GOOD]⟩,
  ⟨"IDENT_TILE_GOOD_HI", 0x14, 0, 0, 1, 0, 1, [Reg.IDENT_TILE_GOOD_HI.GOOD]⟩,
  ⟨"IDENT_UNIT_MAP", 0x18, 0, 0, 1, 0, 1, [Reg.IDENT_UNIT_MAP.ORDER, Reg.IDENT_UNIT_MAP.PORTS, Reg.IDENT_UNIT_MAP.LINKS, Reg.IDENT_UNIT_MAP.ENGINES]⟩,
  ⟨"IDENT_HBM_GOOD_LO", 0x20, 0, 0, 1, 0, 1, [Reg.IDENT_HBM_GOOD_LO.GOOD]⟩,
  ⟨"IDENT_HBM_GOOD_HI", 0x24, 0, 0, 1, 0, 1, [Reg.IDENT_HBM_GOOD_HI.GOOD]⟩,
  ⟨"IDENT_HBM_IMAGE_LO", 0x28, 0, 0, 1, 0, 1, [Reg.IDENT_HBM_IMAGE_LO.BYTES_LO]⟩,
  ⟨"IDENT_HBM_IMAGE_HI", 0x2c, 0, 0, 1, 0, 1, [Reg.IDENT_HBM_IMAGE_HI.BYTES_HI]⟩,
  ⟨"IDENT_LEDGER_GOOD", 0x30, 0, 0, 1, 0, 1, [Reg.IDENT_LEDGER_GOOD.BANKS]⟩,
  ⟨"IDENT_TILE_BIND", 0x40, 4, 0, 8, 0, 1, [Reg.IDENT_TILE_BIND.PHYS 0]⟩,
  ⟨"IDENT_SERIAL", 0x60, 4, 0, 4, 0, 1, [Reg.IDENT_SERIAL.SERIAL 0]⟩,
  ⟨"IDENT_JTAG_IDCODE", 0x70, 0, 0, 1, 0, 1, [Reg.IDENT_JTAG_IDCODE.VERSION, Reg.IDENT_JTAG_IDCODE.PARTNO, Reg.IDENT_JTAG_IDCODE.MFR, Reg.IDENT_JTAG_IDCODE.ONE]⟩,
  ⟨"IDENT_MAC_LO", 0x80, 8, 0, 4, 0, 1, [Reg.IDENT_MAC_LO.MAC_LO 0]⟩,
  ⟨"IDENT_MAC_HI", 0x84, 8, 0, 4, 0, 1, [Reg.IDENT_MAC_HI.MAC_HI 0]⟩]

/-- Registers of the HBM block. -/
def regRowsHbm0 : List RegRow := [
  ⟨"HBM_STATUS", 0x200000, 0, 0, 1, 0x10000, 2, [Reg.HBM_STATUS.TEMP 0, Reg.HBM_STATUS.SCRUB_ACTIVE 0, Reg.HBM_STATUS.REFRESH_2X 0, Reg.HBM_STATUS.SELF_REFRESH 0, Reg.HBM_STATUS.TRAINED 0]⟩,
  ⟨"HBM_RATE", 0x200004, 0, 0, 1, 0x10000, 2, [Reg.HBM_RATE.MBPS 0]⟩,
  ⟨"HBM_GOOD", 0x200008, 0, 0, 1, 0x10000, 2, [Reg.HBM_GOOD.GOOD 0]⟩,
  ⟨"HBM_ECC_CORR", 0x200010, 0, 0, 1, 0x10000, 2, [Reg.HBM_ECC_CORR.COUNT 0]⟩,
  ⟨"HBM_ECC_UNCORR", 0x200014, 0, 0, 1, 0x10000, 2, [Reg.HBM_ECC_UNCORR.COUNT 0]⟩,
  ⟨"HBM_SCRUB_PASSES", 0x200018, 0, 0, 1, 0x10000, 2, [Reg.HBM_SCRUB_PASSES.COUNT 0]⟩,
  ⟨"HBM_SCRUB_HOURS", 0x20001c, 0, 0, 1, 0x10000, 2, [Reg.HBM_SCRUB_HOURS.HOURS 0]⟩,
  ⟨"HBM_CH_ECC_CORR", 0x200100, 8, 0, 32, 0x10000, 2, [Reg.HBM_CH_ECC_CORR.COUNT 0 0]⟩,
  ⟨"HBM_CH_ECC_UNCORR", 0x200104, 8, 0, 32, 0x10000, 2, [Reg.HBM_CH_ECC_UNCORR.COUNT 0 0]⟩]

/-- Every register of the manual, block by block (Table 22-8). -/
def regTable : List RegRow :=
  regRowsFrame0 ++ regRowsFrame1 ++ regRowsConfig0 ++ regRowsConfig1 ++ regRowsWorld0 ++ regRowsWorld1 ++ regRowsTile0 ++ regRowsLedger0 ++ regRowsOrder0 ++ regRowsSolver0 ++ regRowsJig0 ++ regRowsSafe0 ++ regRowsSafe1 ++ regRowsEth0 ++ regRowsTenon0 ++ regRowsTenon1 ++ regRowsDigest0 ++ regRowsFault0 ++ regRowsFault1 ++ regRowsPwr0 ++ regRowsSec0 ++ regRowsIdent0 ++ regRowsHbm0

/-- The index pair of the row's register at `a`, where the row has one (R598, R601). -/
def RegRow.at? (r : RegRow) (a : Nat) : Option (Nat × Nat) :=
  if a < r.addr then none
  else
    let d := a - r.addr
    let m := if r.outer = 0 then 0 else d / r.outer
    let e := if r.outer = 0 then d else d % r.outer
    let n := if r.stride = 0 then 0 else e / r.stride
    let rest := if r.stride = 0 then e else e % r.stride
    if m < r.ocount ∧ n < r.count ∧ r.first ≤ n ∧ rest = 0 then some (m, n) else none

/-- The fields of the register at byte address `a`, moved to `a`. -/
def regAt (a : Nat) : Option (RegRow × Nat × Nat) :=
  regTable.findSome? fun r => (r.at? a).map fun mn => (r, mn.1, mn.2)

/-- The fields of the register at `a`, with `a` as their address; none where no register stands there (R598). -/
def fieldsAt (a : Nat) : Option (List Field) :=
  (regAt a).map fun p => p.1.fields.map fun f => { f with addr := a }

end Sys2Proof.Machine
end

