-- ==== Sys2Proof/Machine/State.lean ====
section
/-! DEFINITION. The state of the block: every register field, every table, queue, buffer, counter, mode and pin the spec
gives the device, as plain data, and the queue of the commands that wait. `State.reset` is the device with RESET_N low
before its first cold start. -/

namespace Sys2Proof.Machine

/-- Ways a step stops. -/
inductive Fault where
  /-- Raised by every meaning whose command names a unit the device does not have (a port, a link, a tile, a layer or a
  slot number outside the ranges of the spec): no such event can happen. Safe: the model stops. -/
  | noSuchUnit
deriving DecidableEq, Repr

/-- Refusals. -/
inductive Refusal where
  /-- Raised by exec alone, for a command that has no meaning yet. Safe: the model stops. -/
  | notModelled (mnemonic : String)
deriving DecidableEq, Repr

/-! ## The frame (chapter 1) -/

/-- The frame timer and the PTP time base (R21, R24). -/
structure FrameSt where
  /-- PTP time of the latest timed event, ns. -/
  now : Int := 0
  /-- Part of the latest slews that is still being spread, ns (R24). -/
  slewLeft : Int := 0
  /-- Frames are being run (an image has run and frames are neither held nor stopped). -/
  running : Bool := false
  /-- A frame is in progress: from its start to its end. -/
  inFrame : Bool := false
  /-- Number of the frame in progress or last started (R21). -/
  k : Nat := 0
  /-- Frame number a frame must exceed to start: the highest one started (R24). -/
  highest : Option Nat := none
  /-- Earliest frame number that may start (R90, R93, R406, R571). -/
  notBefore : Nat := 0
  /-- Shadow frames still to run (R90, R406). -/
  shadowLeft : Nat := 0
  /-- The frame in progress is a shadow frame. -/
  shadow : Bool := false
  /-- The frame in progress is a drain frame (R87). -/
  drain : Bool := false
  /-- T_search of the frame in progress has passed (R31). -/
  searchOver : Bool := false
  /-- The verdict of the frame in progress has been issued (R400). -/
  verdictDone : Bool := false
  /-- Commit of the frame in progress is complete (R35). -/
  committed : Bool := false
  /-- The frame in progress was late (R35). -/
  late : Bool := false
  /-- Epochs passed over since the latest restart, switch or wake are not counted in FRAME_SKIP_COUNT (R90, R406). -/
  gapExcused : Bool := false
  /-- Main-channel work of the frame in progress has been discarded (R35, R501). -/
  discarded : Bool := false
deriving DecidableEq, Repr

/-! ## Configuration (chapters 2 and 3) -/

/-- A Chest slot: the bytes that were written to it, everything else reading 0xFF (R71, R72). -/
structure Slot where
  /-- STATE byte of the state page (R72). -/
  state : Nat := 0xFF
  /-- Bytes of the 256-byte slot header (Table 3-1) that differ from 0xFF. -/
  header : List Host.Cell := []
  /-- Bytes from slot offset 0x1000, keyed by their offset from the first image byte, that differ from 0xFF. -/
  content : List Host.Cell := []
deriving DecidableEq, Repr

/-- Where a bulk section's data stand: the section type, and the data once verified (R60). -/
structure BulkData where
  ty : Nat
  data : List Byte
deriving DecidableEq, Repr

/-- A load attempt that waits in the BULK or BULK_WAIT_PUSH phase (R60 to R62). -/
structure Loading where
  /-- Slot of the attempt: 0 A, 1 B. -/
  slot : Nat
  image : Image
  /-- Bulk sections still to fetch, by type, ascending. -/
  todo : List Nat
  /-- Source being tried for the first of them: 0 Chest, 1 xSPI, 2 Owner push. -/
  src : Nat
  /-- Some source of it delivered complete but mismatching data (R61). -/
  mismatch : Bool
  /-- Data of the awaited push, accepted so far (R62). -/
  pushed : List Byte
  /-- Bulk data fetched and verified. -/
  got : List BulkData
deriving DecidableEq, Repr

/-- Configuration slots, live changes and the running image. -/
structure ConfigSt where
  slotA : Slot := {}
  slotB : Slot := {}
  /-- Slots of the external xSPI flash, which the board writes (Table 21-3). -/
  xspiA : Slot := {}
  xspiB : Slot := {}
  /-- The pushed or received image of a boot from xSPI, Ethernet or Tenon: its bytes (R587). -/
  staged : List Host.Cell := []
  /-- The running image. -/
  image : Option Image := none
  /-- Its bulk data (HBM). -/
  bulk : List BulkData := []
  /-- The image a switch has prepared (R86). -/
  next : Option Image := none
  nextBulk : List BulkData := []
  /-- A load attempt in its BULK phase. -/
  loading : Option Loading := none
  /-- The latest load ended: its result, 0 OK, else the reason code of Table 2-17. -/
  loadResult : Nat := 0
  /-- A slot write is open on slot 0 (A) or 1 (B) (R76). -/
  writing : Option Nat := none
  /-- Offset of the previous data block of the open write (R77). -/
  lastBlock : Option Nat := none
  /-- What the Chest is busy with: 0 nothing, 1 OPEN's erase, 2 a block, 3 CLOSE's verification. -/
  chestBusy : Nat := 0
  /-- 4 KB write window (CONFIG_SLOT_WDATA): words that differ from 0, by index. -/
  window : List (Nat × Nat) := []
  /-- RWE values written and not yet committed, by field key (R13 to R15). -/
  shadowSet : List (Nat × Nat) := []
  /-- RWE values committed by EPOCH_COMMIT that wait for the next frame boundary (R13, R629). -/
  committedSet : List (Nat × Nat) := []
  /-- A drain frame was asked for by: 0 none, 1 SWITCH, 2 HOLD, 3 NAP, 4 SLEEP, 5 a cold restart, 6 a WARM command
  (R87, R93, R566, R591, R592). -/
  drainFor : Nat := 0
  /-- Frames are held (R93). -/
  held : Bool := false
  /-- The first frame of the loaded image has started (R93). -/
  firstStarted : Bool := false
  /-- Rollback floor: the two copies of the security record, floor and update count (R80). -/
  floorA : Nat := 0
  floorCountA : Nat := 0
  floorB : Nat := 0
  floorCountB : Nat := 0
  /-- Copies of the floor record that authenticate: bit 0 copy A, bit 1 copy B (R80). -/
  floorAuth : Nat := 3
deriving DecidableEq, Repr

/-! ## The world (chapters 5 and 6) -/

/-- One record of a WORLD_UPDATE payload (Table 5-6). -/
inductive WRec where
  | span (panel slice offset len : Nat) (data : List Byte)
  | voxel (x y z value : Nat)
  | ego (dx dy dz : Int) (state : List Byte)
deriving DecidableEq, Repr

/-- A frame admitted to an epoch (Table 5-7): its stream, epoch and sequence, its records and its payload length. -/
structure Admitted where
  stream : Nat
  epoch : Epoch
  seq : Word
  recs : List WRec
  bytes : Nat
  /-- Its Sheaz header as received and its payload in plaintext (R517). -/
  raw : List Byte := []
deriving DecidableEq, Repr

/-- Admission state of one stream, the ego stream included (R134, R135). -/
structure StreamSt where
  /-- A frame was admitted since the sequence state restarted. -/
  started : Bool := false
  lastSeq : Word := 0
  /-- Latest epoch the stream has closed by END_OF_EPOCH. -/
  closedTo : Option Epoch := none
  /-- Consecutive silent epochs (R138). -/
  silent : Nat := 0
deriving DecidableEq, Repr

/-- The fixed start state of an epoch (R158): the 120 bytes of the ego record as fixed by Table 6-2, and after projection
(R167). -/
structure StartSt where
  raw : List Byte
  state : List Byte
  epoch : Epoch
  reused : Bool
  projected : Bool
deriving DecidableEq, Repr

/-- The World Builder's state. A snapshot is the list of the cells that differ from their layer's initial value,
keyed by layer, slice and cell. -/
structure WorldSt where
  streams : List (Nat × StreamSt) := []
  ego : StreamSt := {}
  /-- Admitted frames of the ingest buffer, oldest first (R137). -/
  ingest : List Admitted := []
  /-- Admitted frames of final snapshots, kept for the world-input digest until the epoch commits (R517). -/
  kept : List Admitted := []
  /-- Epoch being assembled, whose admission is the earliest still open. -/
  epoch : Epoch := 0
  /-- Admission of that epoch has closed (R133). -/
  closed : Bool := true
  /-- An epoch is being assembled. -/
  active : Bool := false
  /-- Snapshot n - 1: the latest final snapshot. -/
  prev : List (Nat × Nat) := []
  /-- The snapshot under assembly: cells of its final panels. -/
  snap : List (Nat × Nat) := []
  /-- Final panels of the epoch, by layer and panel. -/
  final : List (Nat × Nat) := []
  /-- Change map and dirty-panel map of the epoch (R148). -/
  changed : List (Nat × Nat) := []
  dirty : List (Nat × Nat) := []
  /-- Every cell counts as changed in the next snapshot (R144). -/
  allChanged : Bool := false
  /-- Panels poisoned for the epoch (R154). -/
  poisoned : List (Nat × Nat) := []
  /-- The predicted snapshot for the epoch under assembly, with its shift (R331). -/
  predicted : Option (List (Nat × Nat) × (Int × Int × Int)) := none
  /-- Shift of the epoch's ego record. -/
  shift : Int × Int × Int := (0, 0, 0)
  /-- Streams found stale with STALE_UNKNOWN at the epoch's admission close (R138). -/
  stale : List Nat := []
  /-- DISTANCE panels recomputed for the epoch. -/
  dtDone : List (Nat × Nat) := []
  /-- Start state of the latest epoch whose ingest has closed; none where it had none. -/
  start : Option StartSt := none
deriving DecidableEq, Repr

/-! ## Search results (chapters 6 to 9) -/

/-- A sweep result record (Table 7-4). -/
structure SweepRec where
  id : Nat
  flags : Nat
  hitSample : Nat
  hitSphere : Nat
  mincSample : Nat
  score : Word
  minc : Int
  queries : Nat
  terms : List Word
  /-- 256-bit signature (R202). -/
  footprint : Nat
deriving DecidableEq, Repr

/-- An output block of an operator (R259): its place, its bytes, its footprint (R255), and whether it depends on the state
tensor. -/
structure Block where
  op : Nat
  tensor : Nat
  index : Nat
  data : List Byte
  footprint : Nat
  onState : Bool
deriving DecidableEq, Repr

/-- What a task releases: an expanded candidate with the CRC of its samples, a result record, or a block. -/
inductive Output where
  | cand (id flags crc : Nat)
  | record (r : SweepRec)
  | block (b : Block)
deriving DecidableEq, Repr

/-! ## The Edge Ledger and the roadmap search (chapter 8) -/

/-- A checker record (Table 8-4) but for what the edge record gives. -/
structure LRec where
  blocked : Nat := 0
  unknown : Nat := 0
  /-- Signed sum modulo 2^32. -/
  dyn : Nat := 0
  generation : Nat := 0
  /-- FP16 pattern of EFF_COST. -/
  eff : Nat := 0
  sat : Bool := false
  /-- 0 FREE, 1 BLOCKED, 2 UNKNOWN, 3 STALE. -/
  state : Nat := 0
deriving DecidableEq, Repr

/-- A cell transition (R221) with its epoch. -/
structure Trans where
  epoch : Epoch
  cell : Nat
  cost : Bool
  old : Nat
  new : Nat
deriving DecidableEq, Repr

/-- An epoch the ledger has still to close: `sent` once every panel of its layers is final. -/
structure LedgerEpoch where
  epoch : Epoch
  sent : Bool
deriving DecidableEq, Repr

/-- Distance and predecessor of a node (R233). -/
structure NodeSt where
  dist : Word := 0x7F800000#32
  pred : Option (Nat × Nat) := none
deriving DecidableEq, Repr

/-- A released roadmap path (R237): its end node, its score and its edges from the entry node. -/
structure PathRec where
  node : Nat
  entry : Nat
  score : Word
  edges : List Nat
deriving DecidableEq, Repr

/-- A roadmap search (R230 to R237). -/
structure SearchSt where
  epoch : Epoch
  /-- Latest ledger close when the search started (R327). -/
  base : Epoch
  /-- Checker records it reads. -/
  recs : List (Nat × LRec)
  /-- Its start state, 120 bytes, and the ledger shift it converts with (R214). -/
  start : List Byte
  shift : Int × Int × Int
  entries : List Nat
  nodes : List (Nat × NodeSt)
  /-- Nodes whose distance changed since they were last expanded. -/
  changed : List Nat
  /-- Nodes expanded in the current bucket. -/
  settled : List Nat
  bucket : Nat
  heavy : Bool
  relax : Nat
  /-- 1,024-bit signature of the edge IDs read (R236). -/
  footprint : Nat
  /-- 0 running, 1 SEARCH_COMPLETE, 2 ended by QUOTA_RELAX, 3 cut at T_search - PATH_RESERVE_US. -/
  ended : Nat
  paths : List PathRec
  /-- SEARCH_END has emitted its paths. -/
  emitted : Bool
  /-- An ID of a later close hit its footprint (R335). -/
  hit : Bool
deriving DecidableEq, Repr

/-- The Edge Ledger. -/
structure LedgerSt where
  /-- Checker records that differ from a zero record, by edge. -/
  recs : List (Nat × LRec) := []
  /-- Edges touched in the epoch under application (R222). -/
  touched : List Nat := []
  /-- Touch sets of the three latest closed epochs (R223). -/
  sets : List (Epoch × List Nat) := []
  /-- Transitions that wait, oldest first (R224). -/
  queue : List Trans := []
  todo : List LedgerEpoch := []
  /-- Epoch whose transitions are being applied. -/
  applying : Option Epoch := none
  shift : Int × Int × Int := (0, 0, 0)
  /-- Ledger shift of the epoch before the one under assembly, and the panels whose transitions it sent as poisoned (R221). -/
  viewShift : Int × Int × Int := (0, 0, 0)
  viewPoisoned : List (Nat × Nat) := []
  /-- Panels whose transitions the epoch under assembly sent as poisoned. -/
  sentPoisoned : List (Nat × Nat) := []
  /-- Scheduled rebuild cause (Table 8-5), 0 for none; a SHIFT rebuild stands in `shifts`. -/
  rebuild : Nat := 0
  /-- Epoch under application when the rebuild was scheduled: it is applied as it is (Table 8-5). -/
  rebuildAfter : Option Epoch := none
  /-- Epochs whose shift went beyond SHIFT_TOL: each is rebuilt (Table 8-5). -/
  shifts : List Epoch := []
  /-- Some epoch has been closed since the image was loaded, with its number. -/
  closed : Option Epoch := none
  /-- Epoch and cause of the latest rebuild. -/
  rebuilt : Option (Epoch × Nat) := none
  /-- The search of the committed epoch. -/
  search : Option SearchSt := none
  /-- SEARCH_LATE of the frame in progress (R235). -/
  late : Bool := false
  /-- Record updates and transitions of the epoch under application. -/
  updates : Nat := 0
  applied : Nat := 0
deriving DecidableEq, Repr

/-! ## Selection (chapter 10) -/

/-- An ordering entry (Table 10-2). -/
structure PEntry where
  id : Nat
  score : Word
  flags : Nat
  src : Nat
  eflags : Nat
  minc : Int
deriving DecidableEq, Repr

/-- A partial list or group result (Table 10-1). -/
structure PList where
  src : Nat
  conflict : Bool
  entries : List PEntry
  offered : Nat
  nanOffered : Nat
  exclTie : Nat
deriving DecidableEq, Repr

/-- The selection (Table 10-4). -/
structure Selection where
  epoch : Epoch
  n : Nat
  flags : Nat
  tieCount : Nat
  lists : Nat
  nanCount : Nat
  offered : Nat
  entries : List PEntry
deriving DecidableEq, Repr

/-- The Ordering Unit. -/
structure OrderSt where
  /-- Local partial lists of the epoch, by tile. -/
  lists : List PList := []
  /-- Partial lists received from other chips (R282), with the chain position they come from. -/
  remote : List (Nat × PList) := []
  /-- Remote lists that have not arrived are left out (R502). -/
  remoteClosed : Bool := false
  /-- The merge of the epoch has begun: its inputs in order, and whether it takes the fall-back path. -/
  inputs : Option (List PList) := none
  fallback : Bool := false
  repeated : Bool := false
  /-- The selection, once released. -/
  selection : Option Selection := none
  /-- Main-path cycles of the epoch's merge, repeats included. -/
  cycles : Nat := 0
  /-- Held off by a fault (R295). -/
  heldOff : Bool := false
deriving DecidableEq, Repr

/-! ## The Solver Cluster (chapter 11) -/

/-- An iterate: the primal, slack and dual words in the solver's precision, as bit patterns, and its residuals. -/
structure Iterate where
  words : List Nat
  resPrim : Word
  resDual : Word
  gap : Word
deriving DecidableEq, Repr

/-- A warm start (R309): its epoch, its final iterate, and the reference pose (X, Y, THETA) of each stage, in the solver's
precision, against which its path-local states are absolute. -/
structure Warm where
  epoch : Epoch
  iter : Iterate
  poses : List (List Nat)
deriving DecidableEq, Repr

/-- A trajectory as samples of Table 6-7, 16 words each, at T0 + i * dt ns from the frame start (R169, R322). -/
structure Traj where
  t0 : Int
  dtNs : Nat
  samples : List (List Word)
deriving DecidableEq, Repr

/-- The refine header (Table 11-6) with its samples. -/
structure Refined where
  id : Nat
  flags : Nat
  status : Nat
  rflags : Nat
  iterations : Nat
  engine : Nat
  failStage : Nat
  resPrim : Word
  gap : Word
  traj : Traj
deriving DecidableEq, Repr

/-- The refine in progress. -/
structure RefineRun where
  /-- Entry being refined: candidate ID and FLAGS. -/
  id : Nat
  flags : Nat
  /-- Re-expanded samples, once they have arrived (R305). -/
  cand : Option Traj
  refClamped : Bool
  /-- Engine 0 to 3, 0xFF for microcode, 0xFE for none (R319). -/
  engine : Nat
  /-- The second engine of a parallel run, or the same engine for two successive runs (R319). -/
  second : Option Nat
  cold : Bool
  /-- Epoch p of R309; none with a cold start. -/
  warmEpoch : Option Epoch
  /-- Start point of set-up. -/
  start : Iterate
  cur : Iterate
  iterations : Nat
  converged : Bool
  stopped : Bool
  replayed : Bool
  /-- An error hit either run of R319: its results differ. -/
  differs : Bool
deriving DecidableEq, Repr

/-- A Guest refine job on an engine (R466). -/
structure SolverSt where
  run : Option RefineRun := none
  result : Option Refined := none
  /-- Final iterate of the latest refine that can warm-start, with its epoch (R309). -/
  warm : Option Warm := none
  /-- COLD_START, WARM_EPOCH and the warm start of the refine of the frame, for the frame parameters (R518). -/
  used : Option (Bool × Option Epoch × List Nat) := none
  /-- Engine of a recovery re-solve in progress, and the engine whose NUMERIC it examines (R317). -/
  diag : Option (Nat × Nat) := none
  /-- Engines running a test slice. -/
  testing : List Nat := []
deriving DecidableEq, Repr

/-! ## Speculation (chapter 12) -/

/-- A speculative result record with the tile that released it (R336). -/
structure SpecRec where
  cand : Nat
  record : SweepRec
  tile : Nat
deriving DecidableEq, Repr

/-- A speculative epoch and its buffer (R326 to R331). -/
structure SpecEp where
  epoch : Epoch
  /-- Epoch p of the snapshot the prediction was built from. -/
  base : Epoch
  snap : List (Nat × Nat)
  /-- g * sigma. -/
  shift : Int × Int × Int
  /-- Predicted start state, 120 bytes. -/
  start : Option (List Byte)
  /-- Expanded candidates, by ID: FLAGS and sample CRC. -/
  cands : List (Nat × Nat × Nat)
  records : List SpecRec
  blocks : List Block
  search : Option SearchSt
  /-- Tasks completed, by stage and index. -/
  done : List (Nat × Nat)
  /-- Buffer full (R329). -/
  full : Bool
deriving DecidableEq, Repr

/-- Speculation, and what squash kept for the committed epoch. -/
structure SpecSt where
  epochs : List SpecEp := []
  /-- Propose blocks of the committed epoch that squash kept (R337). -/
  keptBlocks : List Block := []
  startMatch : Bool := false
  shiftMatch : Bool := false
  /-- Sum of the shifts of the latest epochs, by epoch (R333). -/
  shifts : List (Epoch × (Int × Int × Int)) := []
  /-- Counts of the epoch in progress: kept, squashed, recomputed, restarts. -/
  nKept : Nat := 0
  nSquashed : Nat := 0
  nRecomputed : Nat := 0
  nRestarts : Nat := 0
  /-- Path records of a speculative search whose decision waits for the ledger close (R336). -/
  paths : List SpecRec := []
  search : Option SearchSt := none
deriving DecidableEq, Repr

/-! ## The Task Dispatcher (chapter 13) -/

/-- A task descriptor (Table 13-1), with the task it is bound to. -/
structure Desc where
  kind : TaskKind := .unordered 0
  program : Nat := 0
  priority : Nat := 0
  waitAnd : Bool := false
  speculative : Bool := false
  /-- 0 FREE, 1 WAITING, 2 DELAYED, 3 READY, 4 PEND_READY, 5 RUNNING, 6 MIGRATING, 7 DONE. -/
  state : Nat := 0
  flags : Word := 0
  waitMask : Word := 0
  flow : Nat := 0
  lastTile : Nat := 0xFF
  partition : Nat := 0
  seq : Nat := 0
  epoch : Epoch := 0
  wakeTick : Word := 0
  arg : Word := 0
  /-- Order in which conditions were met: the rank of R355 and R356. -/
  order : Nat := 0
  /-- Tile an offer is made to (R360). -/
  offer : Nat := 0
  /-- Thread that runs the task, and the reserve it belongs to (0 the pool). -/
  thread : Nat := 0
  reserve : Nat := 0
  /-- Candidates of a sweep task whose sweep is complete (R208). -/
  swept : Nat := 0
deriving DecidableEq, Repr

/-- A completed task and its outputs (R363). -/
structure DoneTask where
  stage : Nat
  index : Nat
  tile : Nat
  flow : Nat
  seq : Nat
  outs : List Output
  /-- The producing tile is SUSPECT: the outputs wait for their replay (R532). -/
  replay : Bool
deriving DecidableEq, Repr

/-- An entry of a tile's panel cache (R206, R207): the unit of Table 7-6 and the epoch of its version. -/
structure CacheEntry where
  tile : Nat
  bank : Nat
  layer : Nat
  panel : Nat
  epoch : Epoch
deriving DecidableEq, Repr

/-- The Jig, and the work of the committed epoch. -/
structure JigSt where
  /-- Descriptors that are not free, keyed by 2048 * tile + index. -/
  descs : List (Nat × Desc) := []
  /-- Ready depth of each tile as last announced (R360). -/
  announced : List (Nat × Nat) := []
  /-- Next-release sequence of each flow of the committed epoch. -/
  next : List (Nat × Nat) := []
  /-- Completed tasks of the committed epoch not yet released, and those released, in release order. -/
  held : List DoneTask := []
  released : List DoneTask := []
  /-- Outputs of kept speculative tasks (R366) enter as completed tasks. -/
  order : Nat := 0
  tick : Word := 0
  /-- Trace ring: records of 16 bytes, newest first (R371). -/
  trace : List (List Byte) := []
  /-- Panel caches, least recently used first. -/
  cache : List CacheEntry := []
  /-- Draw of the latest committed epoch for the counters that depend on timing alone (R213, R372); none where they read 0. -/
  counted : Option Nat := none
  /-- Counts of the epoch in progress, latched at its commit, keyed as register fields. -/
  tally : List (Nat × Nat) := []
  /-- Deadline cuts of the frame in progress: SWEEP_CUT, SEARCH_CUT, PROPOSE_CUT, REFINE_CUT (R341). -/
  sweepCut : Bool := false
  searchCut : Bool := false
  proposeCut : Bool := false
  refineCut : Bool := false
  /-- Propose of the epoch: abandoned (R273); disabled until a restart (R268); time of its last block in us. -/
  abandoned : Bool := false
  disabled : Bool := false
  proposeDone : Option Nat := none
  /-- Near misses of each tile, by epoch (R272). -/
  nearMisses : List (Nat × Epoch × Nat) := []
  /-- Verified unconfirmed blocks of the committed epoch from chips upstream (R499). -/
  received : List Block := []
  /-- Tiles in DOZE (R558). -/
  dozing : List Nat := []
deriving DecidableEq, Repr

/-! ## The safety channel and the Setpoint Port (chapters 14 and 15) -/

/-- A trajectory sample as the Try Square holds it: its time in ns and the 16 words of Table 6-7 as Q16.16, each with the
flag of a conversion that saturated or met a NaN (R385). -/
structure QPoint where
  t : Int
  f : List Q
deriving DecidableEq, Repr

/-- A trajectory of the safety channel: a main-channel trajectory, or a fallback with its branch time (R394). -/
structure QTraj where
  pts : List QPoint
  /-- Start of the stop part of a fallback. -/
  stopAt : Option Int
  /-- Last instant the trajectory covers. -/
  endAt : Int
  /-- The fallback comes to rest before its horizon ends (R397). -/
  rest : Bool
deriving DecidableEq, Repr

/-- A safety copy in the queue (R381): the admitted frame and the queue bytes it takes. -/
structure Copy where
  frame : Admitted
  size : Nat
deriving DecidableEq, Repr

/-- What the final sweep reported (R212). -/
structure FinalSweep where
  clearance : Int
  flags : Nat
  queries : Nat
deriving DecidableEq, Repr

/-- The safety island. Its configuration is the SAFETY section of the running image. -/
structure SafetySt where
  /-- Occupancy bits that are 0 (free); every other bit is 1 (R380). Keyed by cell. -/
  gridFree : List Nat := []
  /-- Slice bits that are 0, keyed by slice and cell. -/
  sliceFree : List Nat := []
  /-- Copy queue, oldest first, and the streams whose copies were dropped since the previous grid update (R381). -/
  copies : List Copy := []
  dropped : List Nat := []
  /-- Silent epochs of each SAFETY_COPY stream as the island counts them (R383). -/
  silent : List (Nat × Nat) := []
  /-- Epoch of the latest grid update. -/
  gridEpoch : Option Epoch := none
  /-- The grid of the frame in progress is complete. -/
  gridDone : Bool := false
  /-- Latest applied ego copy: sequence and STATE (R384). -/
  measured : Option (Word × List Byte) := none
  /-- Held trajectory H and armed fallback A (R398, R404). -/
  held : Option QTraj := none
  armed : Option QTraj := none
  /-- Candidate C of the frame and its fallback F(C). -/
  cand : Option QTraj := none
  candFb : Option QTraj := none
  /-- F(H) of the frame (R398). -/
  heldFb : Option QTraj := none
  /-- Results of the frame's pre-checks: H, A, F(H); none while not complete. -/
  preH : Option Bool := none
  preA : Option Bool := none
  preFH : Option Bool := none
  /-- The pre-check of the frame is under way (R398). -/
  preRunning : Bool := false
  /-- A's latest completed check passed. -/
  armedOk : Bool := false
  /-- Table 14-3 bits from C's checks and from F(C)'s; none while not complete. -/
  checkC : Option Nat := none
  /-- L_ts of C (R387), Q16.16. -/
  lts : Int := 0
  checkF : Option Bool := none
  /-- Final sweep result of the frame (R212). -/
  finalSweep : Option FinalSweep := none
  /-- Refine status of the frame (Table 11-5), or 7 for no result yet. -/
  refineStatus : Nat := 7
  /-- No selected entry was refined or handed over (R294). -/
  noCandidate : Bool := false
  /-- INTEGRITY and CONFIRM conditions of the frame (Table 14-3 bits 12 and 13). -/
  integrity : Bool := false
  confirmMissing : Bool := false
  /-- Verdict of the frame in progress, where issued; and its fail bits. -/
  verdict : Option Nat := none
  /-- Verdict of the latest frame that had one (R398); 0 for none since the cold start or image load. -/
  prevVerdict : Nat := 0
  /-- Failed frames of the latest 16 published, latest first (R403). -/
  window : List Bool := []
  /-- Row 2 of Table 14-4 was met: a FATAL error, a WD_IN timeout or ENTER. -/
  rowTwo : Bool := false
  /-- A permanent safety island fault (R411). -/
  permanent : Bool := false
  /-- A check or decision has been repeated after a lockstep or SRAM error (R411). -/
  repeated : Bool := false
  /-- Restart of the main channel: 0 none, 1 warm restart running, 2 its shadow frames, 3 cold restart of the main channel. -/
  restart : Nat := 0
  /-- Time from which WD_TIMEOUT_MS counts: the latest change of WD_IN, or the first publication (R412). -/
  wdSince : Int := 0
  /-- The safety copy path is down (R407). -/
  copyPathDown : Bool := false
  /-- Front and back setpoint buffers: values that differ from 0, keyed by 16 * slot + channel (R427). -/
  front : List (Nat × Nat) := []
  back : List (Nat × Nat) := []
  /-- Value of the latest generation published, which continues when the empty table has been shown (R431). -/
  generation : Nat := 0
  /-- Address latched at the latest SP_ALE falling edge with SP_CS_N low, and the buffer it was latched from (R425, R430). -/
  latched : Option Nat := none
  /-- Value on SP_AD as last driven; none while the drivers are off. -/
  driven : Option Nat := none
  /-- WAKE pins that showed their active level at the two latest AON samples, the earlier one first (R435). -/
  wakeSamples : Nat × Nat := (0, 0)
deriving DecidableEq, Repr

/-- Pin levels (chapters 14, 15, 20, 23). -/
structure Pins where
  resetN : Bool := false
  spSwap : Bool := false
  heartbeat : Bool := false
  /-- Asserted low while RESET_N is low and until the first published commit (Table 23-3). -/
  faultN : Bool := false
  safeState : Bool := false
  wdIn : Bool := false
  refclkReq : Bool := false
  /-- Phase of SP_AD: 0 STRAP, 1 BUS, 2 BUS_OFF, 3 WAKE (R417). -/
  spPhase : Nat := 0
  /-- VDD_AON stands at or above 0.72 V (R617). -/
  aonSupply : Bool := true
deriving DecidableEq, Repr

/-! ## Faults and maintenance (chapter 19) -/

/-- State of one unit of Table 19-1 (R535, R537). -/
structure UnitSt where
  /-- 0 GOOD, 1 SUSPECT, 2 RETIRED, 3 ABSENT. -/
  state : Nat := 0
  /-- Consecutive clean tests while SUSPECT. -/
  clean : Nat := 0
  /-- A test is due and not yet admitted. -/
  due : Bool := false
  /-- The due test has passed its deferral limit: a GOOD unit takes no new task (R539). -/
  blocked : Bool := false
  /-- A test is in progress: its first slice has been admitted. -/
  active : Bool := false
  /-- Slices of the running test passed so far. -/
  slices : Nat := 0
  /-- The failed slice is being repeated (R536). -/
  repeating : Bool := false
  /-- Errors charged since cold start. -/
  errors : Nat := 0
  /-- Time of the last completed test, ns; none without one. -/
  lastTest : Option Int := none
deriving DecidableEq, Repr

/-- An error in the handler or its queue (R541), with the stamps of its detection (R543). -/
structure Handling where
  info : ErrorInfo
  time : Nat
  epoch : Epoch
deriving DecidableEq, Repr

/-- A failure record (Table 19-6), with its SEQUENCE. -/
structure FaultRec where
  seq : Nat
  handled : Handling
  digest : List Byte
  temp : Int
  mv : Nat
  mhz : Nat
  test : Nat
deriving DecidableEq, Repr

/-- A Maintenance Coordinator token (R546): activity code of Table 19-8, with the unit class and index, stack, group, link
or clock domain it is scoped to. -/
structure Token where
  act : Nat
  cls : Nat
  idx : Nat
deriving DecidableEq, Repr

/-- The fault handler, the unit states and the Maintenance Coordinator. -/
structure FaultSt where
  /-- Units that differ from a GOOD unit without errors, keyed by 256 * class + index. -/
  units : List (Nat × UnitSt) := []
  handling : Option Handling := none
  queue : List Handling := []
  /-- Record buffer of FAULT_RECORD frames, oldest first (R544). -/
  records : List FaultRec := []
  /-- Records written to the external xSPI log, newest first, and its bytes' next offset (R544). -/
  log : List FaultRec := []
  /-- Time of the latest CORRECTED record of a zone and mechanism, keyed by both (R545). -/
  lastCorrected : List (Nat × Nat) := []
  tokens : List Token := []
  /-- Retired-unit record of the Chest, by class and index (R535). -/
  retired : List (Nat × Nat) := []
  /-- Time of the latest completed scrub pass of a stack, ns (R611). -/
  scrubbed : List (Nat × Int) := []
  /-- Epochs of the pair mismatches of the latest 1,024 epochs (R538). -/
  mismatches : List Epoch := []
deriving DecidableEq, Repr

/-! ## Sheaz over Ethernet (chapter 16) -/

/-- A frame handed to the MAC queues: partition, type, ports, R-TAG sequence (R471), sequence, epoch, STREAM, payload, and
its tag where it carries one. -/
structure TxFrame where
  partition : Nat
  ty : Nat
  port : Nat
  rtag : Option Nat
  seq : Nat
  epoch : Epoch
  payload : List Byte
  tag : Option (List Byte)
  /-- TIMESTAMP: the time at which it was queued, ns. -/
  time : Nat
deriving DecidableEq, Repr

/-- Fill of a flow meter: its bucket in bits, and the time it was last brought up to date (R443, Table 16-2 802.1Qci). -/
structure Meter where
  bits : Nat
  time : Nat
deriving DecidableEq, Repr

/-- The state of one partition. -/
structure PartSt where
  /-- Session key (R453), and the previous key while it is still valid for received frames (R454). -/
  key : Option (List Byte) := none
  oldKey : Option (List Byte) := none
  /-- A frame was accepted since the sequence state restarted (R449). -/
  started : Bool := false
  /-- Frames the device has sent since the last roll (R457). -/
  txSinceRoll : Nat := 0
  /-- Sequence of the ROLL_KEY request, and of each world stream at the roll (R457). -/
  rollSeq : Nat := 0
  rollStreams : List (Nat × Nat) := []
  /-- Flow meters by port. -/
  meters : List (Nat × Meter) := []
deriving DecidableEq, Repr

/-- A fragment set of JOB_SUBMIT (R463, R464): its bytes so far and the fragments that have arrived. -/
structure Staging where
  partition : Nat
  jobId : Nat
  total : Nat
  frags : Nat
  got : List (Nat × List Byte)
deriving DecidableEq, Repr

/-- A job (R463 to R467). -/
structure Job where
  partition : Nat
  id : Nat
  kind : Nat
  priority : Nat
  maxMs : Nat
  quota : Nat
  body : List Byte
  startEpoch : Epoch
  /-- 0 waiting for its start epoch or engine, 1 running, 2 ended with its result still to send, 3 its result sent. -/
  state : Nat
  /-- Table 16-13's JOB_STATUS once finished. -/
  status : Nat
  /-- Work units spent. -/
  work : Nat
  /-- Result bytes so far: records, paths, or the refine header and samples. -/
  out : List Byte
  /-- REFINE: its engine, iterate and completed iterations, and the two checkpoints (R548). -/
  engine : Option Nat
  iter : Option Iterate
  iterations : Nat
  checkpoints : List (Nat × Iterate)
  finishedAt : Nat
deriving DecidableEq, Repr

/-- A secure association installed on a port (R443): receive or transmit, its number and its key. -/
structure MacsecSa where
  port : Nat
  rx : Bool
  an : Nat
  key : List Nat
deriving DecidableEq, Repr

/-- The Ethernet MACs and the Sheaz engine. -/
structure EthSt where
  parts : List (Nat × PartSt) := []
  /-- Frames queued at the MACs, oldest first. -/
  tx : List TxFrame := []
  /-- Next R-TAG sequence number of FRER streams, by partition. -/
  rtags : List (Nat × Nat) := []
  staging : List Staging := []
  jobs : List Job := []
  sas : List MacsecSa := []
  /-- Words written to ETH_MACSEC_SAK, keyed by 8 * port + word. -/
  sak : List (Nat × Nat) := []
  /-- Records of the trace ring that no TRACE frame has carried (R475). -/
  traceUnsent : Nat := 0
  /-- Answers sent to ARP and Neighbor Discovery requests, by port, target and sender, newest first (R442). -/
  answers : List (Nat × List Byte × List Byte) := []
deriving DecidableEq, Repr

/-! ## Digests, capture and replay (chapter 18) -/

/-- A frame admitted to an epoch as capture records it and replay admits it: the bytes of R517. -/
structure RawFrame where
  stream : Nat
  bytes : List Byte
deriving DecidableEq, Repr

/-- An EPOCH record of the capture ring (R520). -/
structure EpochRec where
  epoch : Epoch
  params : List Byte
  flags : Nat
  mask : Nat
  frame : Nat
  stages : List Nat
  world : Nat
  provenance : List Byte
  frames : List RawFrame
deriving DecidableEq, Repr

/-- What a replay has reached (R525). -/
structure ReplaySt where
  /-- 1 REPLAY_MAIN, 2 REPLAY_FULL. -/
  scope : Nat
  /-- Ring offset of the next record, in bytes. -/
  at_ : Nat
  /-- Epoch of the latest record replayed; none before the first. -/
  last : Option Epoch
  count : Nat
deriving DecidableEq, Repr

/-- The digest unit and the capture engine. -/
structure DigestSt where
  /-- Digest of stage s at index s - 1 of the frame in progress, once closed. -/
  stages : List (Option Nat) := List.replicate 9 none
  /-- The digest unit has set INTEGRITY for the epoch (R514). -/
  integrity : Bool := false
  /-- REBASE was set for the epoch (R144). -/
  rebase : Bool := false
  /-- The next epoch is a REBASE. -/
  rebaseDue : Bool := false
  /-- PREV_EPOCH and PREV_FRAME_DIGEST; none with NO_PREV. -/
  prev : Option (Epoch × Nat) := none
  /-- Bytes of the capture ring that differ from 0, by ring offset (R520). -/
  ring : List Host.Cell := []
  /-- End of the records written, in bytes. -/
  write : Nat := 0
  /-- An anchor is due at the next frame boundary (R522). -/
  anchorDue : Bool := false
  /-- An anchor stands since the latest loss: EPOCH records may follow it (R523). -/
  anchored : Bool := false
  /-- ENABLE as the latest frame boundary found it. -/
  wasEnabled : Bool := false
  replay : Option ReplaySt := none
deriving DecidableEq, Repr

/-! ## Identity and boot (chapter 21) -/

/-- What the die record says of the part (R3 to R5, R582). -/
structure DieSt where
  /-- 0 HN832, 1 HN824, 2 HN816. -/
  part : Nat := 0
  /-- Grade: 0 A, 1 I. -/
  grade : Nat := 0
  /-- TILE_BIND of the record: the physical tile of each enabled logical tile as chosen at final test. -/
  list : List Nat := List.range 32
  /-- The binding in force: after the substitutions of R3, and with the spares bound in service (Table 19-3). -/
  bind : List Nat := List.range 32
  /-- LEDGER_BANKS: bit 68 g + b is bank b of group g, 64 to 67 being its spares (R219). -/
  banks : Nat := 2 ^ 272 - 1
  /-- Good engines, ports, links, HBM channels, as bit masks. -/
  engines : Nat := 0xF
  ports : Nat := 0xF
  links : Nat := 0xF
  channels : Nat := 2 ^ 64 - 1
  /-- Spare ledger banks in use, 4 bits a group: for the record's bad active banks, and those replaced since. -/
  ledgerSpares : Nat := 0
  serial : List Byte := List.replicate 16 0
  revision : Nat := 1
  /-- Core voltage of throttle steps 0 to 12, mV, and the core current limit, A (R573, R574). -/
  vf : List Nat := List.replicate 13 800
  currentLimit : Nat := 480
  macs : List (List Byte) := List.replicate 4 (List.replicate 6 0)
  /-- Physical tiles that are good. -/
  tiles : Nat := 2 ^ 36 - 1
deriving DecidableEq, Repr

/-! ## Tenon links (chapter 17) -/

/-- A sequenced flit to send: its header fields and its payload (Tables 17-1 and 17-2). -/
structure OutFlit where
  ty : Nat
  vc : Nat
  epochLo : Nat
  flags : Nat
  payload : List Byte
deriving DecidableEq, Repr

/-- A flit in the replay buffer: its sequence and the credit pool of its first transmission (R484, R489). -/
structure SentFlit where
  seq : Nat
  pool : Nat
  flit : OutFlit
deriving DecidableEq, Repr

/-- One Tenon link. -/
structure LinkSt where
  /-- Next sequence to send. -/
  txSeq : Nat := 0
  /-- Replay buffer, oldest first (R484). -/
  outstanding : List SentFlit := []
  /-- Flits that wait for a credit or for room in the replay buffer, oldest first (R489). -/
  waiting : List OutFlit := []
  /-- Next sequence expected (R485). -/
  rxSeq : Nat := 0
  /-- An episode of bad or out-of-sequence flits is in progress: its NAK has been sent (R485). -/
  nakSent : Bool := false
  /-- An acknowledgement is due that no flit has carried (R485). -/
  ackDue : Bool := false
  /-- Flits consumed whose credits have not been returned (R490). -/
  creditsDue : Nat := 0
  /-- Control flits sent: IDLE and NAK, by type, sequence and ACK field, newest first. -/
  control : List (Nat × Nat × Nat) := []
  /-- Replay episodes without acknowledgement progress (R487). -/
  episodes : Nat := 0
  /-- Times of uncorrectable codewords within the latest 1 ms, ns (R487). -/
  uncorr : List Int := []
  /-- A retrain has been asked for and its token refused (R487). -/
  retrainWait : Bool := false
  /-- A retrain runs and holds its token. -/
  retraining : Bool := false
  /-- Time at which the link went down; none while it is up. -/
  downAt : Option Int := none
  /-- The link is lost (R507). -/
  lost : Bool := false
deriving DecidableEq, Repr

/-- A clamp the head runs (R504): its target, and the devices whose CLAMP_DONE has not arrived. -/
structure ClampSt where
  target : Nat
  left : Nat
  skew : Nat
  refused : Bool
deriving DecidableEq, Repr

/-- A DIGEST token that waits for its pair (R508). -/
structure PairToken where
  epoch : Epoch
  frame : Nat
  world : Nat
  deadlineHit : Bool
  sideB : Bool
  time : Nat
deriving DecidableEq, Repr

/-- The Tenon links and the chain. -/
structure TenonSt where
  links : List (Nat × LinkSt) := []
  /-- Link the device was numbered on; none for the head. -/
  parent : Option Nat := none
  /-- Link of the route towards the tail (R495). -/
  down : Option Nat := none
  /-- Links from which a CONFIRM is awaited: neighbours whose route to the tail passes through this device (R500). -/
  feeders : List Nat := []
  /-- Links that lead away from the head; TIME tokens and messages to 0xFFF leave on them (R495, R503). -/
  away : List Nat := []
  /-- Link of the route to a device, by device number. -/
  routes : List (Nat × Nat) := []
  /-- Device number of each chain position (R494). -/
  numbers : List Nat := []
  /-- Propose blocks sent downstream while speculative: epoch, tensor and index (R499). -/
  sentSpec : List (Epoch × Nat × Nat) := []
  /-- Devices enumerated so far below this one (R493), and its own links in use. -/
  devices : List ChainDev := []
  /-- Link whose ENUM_REPLY is awaited, and the number offered next (R493). -/
  enumAt : Option Nat := none
  enumNext : Nat := 0
  /-- CONFIRM tokens received, by epoch and link. -/
  confirms : List (Epoch × Nat) := []
  /-- The latest epoch whose own outputs have all been handed to the downstream link (R500, R502). -/
  outputsSent : Option Epoch := none
  /-- Epochs whose CONFIRM has been sent downstream. -/
  confirmed : List Epoch := []
  /-- Condemned epochs (R501). -/
  condemned : List Epoch := []
  clamp : Option ClampSt := none
  /-- A clamp is owed: after enumeration, a restart or a retrain, or after a REFUSED (R504, R505). -/
  clampDue : Bool := false
  /-- The frame start this device's timer is armed to (R504). -/
  armed : Option Nat := none
  pairs : List PairToken := []
  /-- ENUMERATE was written: the head enumerates again at the next restart (R509). -/
  reenumerate : Bool := false
  /-- The device number that a remote request in flight was sent to. -/
  remote : Option Nat := none
  /-- Image bytes received in MAINT KIND 5 messages are held in `cfg.staged`; here those sent to each downstream link. -/
  imageSent : List Nat := []
deriving DecidableEq, Repr

/-! ## Power (chapter 20) -/

/-- Power states, entries and throttling. -/
structure PowerSt where
  /-- The entry in progress: 0 none, 1 NAP, 2 SLEEP. -/
  entry : Nat := 0
  /-- Its drain frame has ended: the device completes the entry (R562, R566). -/
  closing : Bool := false
  /-- The device is in NAP (1) or SLEEP (2). -/
  asleep : Nat := 0
  /-- Wake events latched before the entry ended (R562): bits of PWR_WAKE_SOURCE, and bit 8 + p for WAKE[p]. -/
  latched : Nat := 0
  /-- A wake is under way (R570): 1 from the wake event, 2 once the AON sequencer has started the reference, until RUN. -/
  waking : Nat := 0
  /-- Consecutive shadow frames with verdict ACCEPT since the wake (R571). -/
  passes : Nat := 0
  /-- Time since which every committed epoch was ACCEPT at rest (R563). -/
  restSince : Option Int := none
  /-- The AON alarm is pending until PWR_ALARM is written (R568). -/
  alarm : Bool := false
  /-- Core voltage asked of the regulator, mV (R573, R618). -/
  vout : Nat := 800
  /-- A step up waits for the regulator to report its voltage (R573, R618). -/
  raising : Bool := false
  /-- Time of the latest throttle trigger, or of an abandoned step up, ns. -/
  lastTrigger : Int := 0
  /-- Islands in IDLE other than tiles (R557), by the number IDLE_ENTRY gives. -/
  idle : List Nat := []
  /-- Time at which links in KNOCK_SEND began to be knocked after a wake (R569). -/
  knockSince : Option Int := none
  /-- Knocks sent, by link, newest first. -/
  knocks : List Nat := []
  /-- Ratio of the current estimator's calibration: latest READ_IOUT in A (R618). -/
  calibration : Nat := 0
  /-- Latest 8 telemetry bytes an I2C read returned (R622). -/
  i2c : List Byte := []
deriving DecidableEq, Repr

/-! ## Starts, keys and debug (chapters 21 and 22) -/

/-- Boot, the key table, debug, and the AON values a start compares. -/
structure SecSt where
  /-- Key table: the keys of its occupied slots 0 to 4 (R583). -/
  keys : List (Nat × List Byte) := []
  keyUpdates : Nat := 0
  /-- Some copy of the key table authenticates. -/
  keyAuth : Bool := true
  /-- Boot counter of the Chest (R596). -/
  bootCount : Nat := 0
  /-- Challenge issued (R585). -/
  challenge : Option (List Byte) := none
  /-- The identity private key is held (R581, R586). -/
  identity : Bool := false
  /-- Provisioning certificate of the Chest (R582). -/
  cert : List Byte := []
  /-- SEQUENCE and IMAGE_DIGEST of the running slot as AON retains them (Table 21-5 step 10). -/
  aonSeq : Nat := 0
  aonDigest : List Byte := []
  /-- RESET_N has risen and the capture edge has not come. -/
  rising : Bool := false
  /-- The straps have been captured and step 3 of the cold start has not begun. -/
  captured : Bool := false
  /-- A start waits in step 10 or 11 for bulk data or a pushed slot, with what its self-tests found. -/
  boot : Option BootReport := none
  /-- That start is a cold restart without RESET_N (R591). -/
  restart : Bool := false
  /-- Slots that this selection has tried: bit 0 A, bit 1 B. -/
  tried : Nat := 0
  /-- Time of the trigger of the latest start, ns (SEC_BOOT_TIME_US). -/
  since : Int := 0
  /-- The published commit that ends the start is awaited. -/
  timing : Bool := false
deriving DecidableEq, Repr

/-- The JTAG register access (R606): BUSY while an access waits, and STATUS and data of the latest one. -/
structure JtagSt where
  busy : Bool := false
  status : Nat := 0
  data : Word := 0
deriving DecidableEq, Repr

/-- A request that waits for the management processor (R605): a JTAG access, a Tenon request from a device on a link, or a Sheaz
frame. -/
inductive Request where
  | jtag (write : Bool) (addr : Nat) (value : Word)
  | tenon (link source : Nat) (write : Bool) (addr count : Nat) (values : List Word)
  | sheaz (f : Frame)
deriving DecidableEq, Repr

/-! ## The whole -/

/-- The state of the block. -/
structure State where
  /-- Register fields that differ from their reset value, keyed by 32 * address + lowest bit (R13, R598). -/
  regs : List (Nat × Nat) := []
  frame : FrameSt := {}
  cfg : ConfigSt := {}
  world : WorldSt := {}
  ledger : LedgerSt := {}
  order : OrderSt := {}
  solver : SolverSt := {}
  spec : SpecSt := {}
  jig : JigSt := {}
  safety : SafetySt := {}
  pins : Pins := {}
  die : DieSt := {}
  fault : FaultSt := {}
  digest : DigestSt := {}
  eth : EthSt := {}
  tenon : TenonSt := {}
  power : PowerSt := {}
  sec : SecSt := {}
  jtag : JtagSt := {}
  /-- Register requests that wait, in order of arrival (R600, R605). -/
  waiting : List Request := []
  /-- Status answered to the latest register access of any path (Table 16-10). -/
  access : Nat := 0
  /-- Count of the free values drawn so far: the model's own field (see Config). -/
  fresh : Nat := 0
  /-- Commands that wait, first in, first out. -/
  pending : List Instr := []
deriving DecidableEq, Repr

/-- The device with RESET_N low. -/
def State.reset : State := {}

end Sys2Proof.Machine
end

