-- ==== Sys2Proof/Machine/Ops.lean ====
section
/-! DEFINITION. Named operations over the state: sparse tables in canonical form, the register file, saturating counters,
free values, and the byte strings of Chest and HBM. -/

namespace Sys2Proof.Machine

/-! ## Sparse tables

A table from natural keys to values is the list of the entries that differ from a default, in strictly ascending key. -/

/-- Value at a key. -/
def sGet {α : Type} (d : α) (k : Nat) : List (Nat × α) → α
  | [] => d
  | (j, v) :: r => if j = k then v else sGet d k r

/-- Removal of a key. -/
def sErase {α : Type} (k : Nat) : List (Nat × α) → List (Nat × α)
  | [] => []
  | (j, v) :: r => if j = k then r else if k < j then (j, v) :: r else (j, v) :: sErase k r

/-- Insertion or replacement of an entry. -/
def sInsert {α : Type} (k : Nat) (x : α) : List (Nat × α) → List (Nat × α)
  | [] => [(k, x)]
  | (j, v) :: r => if k < j then (k, x) :: (j, v) :: r else if j = k then (k, x) :: r else (j, v) :: sInsert k x r

/-- Write of a value: an entry equal to the default is not listed. -/
def sSet {α : Type} [DecidableEq α] (d : α) (k : Nat) (x : α) (m : List (Nat × α)) : List (Nat × α) :=
  if x = d then sErase k m else sInsert k x m

/-- Canonical form: keys strictly ascending, no entry equal to the default. -/
def sWf {α : Type} [DecidableEq α] (d : α) : List (Nat × α) → Bool
  | [] => true
  | [(_, v)] => decide (v ≠ d)
  | (j, v) :: (k, w) :: r => decide (v ≠ d) && decide (j < k) && sWf d ((k, w) :: r)

/-! ## Bytes held in Chest and HBM -/

/-- Cells of a byte store are keyed by address; an unlisted byte of flash reads 0xFF (R66, R77). -/
abbrev erased : Byte := 0xFF

/-- `n` bytes of a flash store from address `a`. -/
def flashRead (m : List Host.Cell) (a n : Nat) : List Byte := (List.range n).map fun i => sGet erased (a + i) m

/-- A byte string programmed from address `a`. -/
def flashWrite (m : List Host.Cell) (a : Nat) (bs : List Byte) : List Host.Cell :=
  (bs.zipIdx a).foldl (fun m p => sSet erased p.2 p.1 m) m

/-! ## Registers -/

/-- Key of a field in the register file. -/
def Field.key (f : Field) : Nat := 32 * f.addr + f.lo

/-- Value of a field. -/
def rget (rf : List (Nat × Nat)) (f : Field) : Nat := sGet f.reset f.key rf

/-- Write of a field: the value's low bits; a field at its reset value is not listed. -/
def rset (f : Field) (v : Nat) (rf : List (Nat × Nat)) : List (Nat × Nat) :=
  sSet f.reset f.key (v % 2 ^ f.width) rf

/-- Increment of a counter that saturates at its largest value. -/
def rinc (f : Field) (rf : List (Nat × Nat)) : List (Nat × Nat) :=
  let v := rget rf f
  if v + 1 < 2 ^ f.width then rset f (v + 1) rf else rf

/-- Addition to a counter that saturates at its largest value. -/
def radd (f : Field) (n : Nat) (rf : List (Nat × Nat)) : List (Nat × Nat) :=
  rset f (min (rget rf f + n) (2 ^ f.width - 1)) rf

/-- A field of the state. -/
def State.get (s : State) (f : Field) : Nat := rget s.regs f

/-- A one-bit field as a Bool. -/
def State.flag (s : State) (f : Field) : Bool := s.get f == 1

/-- The state with a field written. -/
def State.set (s : State) (f : Field) (v : Nat) : State := { s with regs := rset f v s.regs }

/-- The state with a counter incremented, saturating. -/
def State.inc (s : State) (f : Field) : State := { s with regs := rinc f s.regs }

/-- The state with a counter advanced by `n`, saturating. -/
def State.add (s : State) (f : Field) (n : Nat) : State := { s with regs := radd f n s.regs }

/-- A 64-bit value over a LO and a HI word (R11). -/
def State.get64 (s : State) (lo hi : Field) : Nat := s.get lo + 2 ^ 32 * s.get hi

/-- A 64-bit value written over a LO and a HI word (R11). -/
def State.set64 (s : State) (lo hi : Field) (v : Nat) : State := (s.set lo v).set hi (v / 2 ^ 32)

/-! ## Free values -/

/-- A fresh free value of `w` bits, and the state that has drawn it. -/
def State.draw (s : State) (w : Nat) : BitVec w × State := (Config.freeBits w s.fresh, { s with fresh := s.fresh + 1 })

/-! ## Outcomes -/

/-- What exec answers. -/
abbrev Result := Host.Outcome State Fault Refusal

/-- A meaning that holds for units the device has, and stops where the command names none. -/
def guardUnit (ok : Bool) (s : State) : Result := if ok then .next s else .fault .noSuchUnit

end Sys2Proof.Machine
end

