-- ==== Sys2Proof/Machine/Setpoint.lean ====
section
/-! DEFINITION. The Setpoint Port (chapter 15): the setpoint writer (R427, R428, R431, R432), the swap (R429), the empty
table (R433), the pins' phases (R417 to R423), the read bus (R424 to R426, R430) and the wake inputs (R435, R436). -/

namespace Sys2Proof.Machine

/-! ## Epoch numbers and the frame grid -/

/-- T_frame of the running image in ns; 0 without an image. -/
def State.periodNs (s : State) : Nat := 1000 * s.get Reg.FRAME_PERIOD.PERIOD_US

/-- FRAME_ORIGIN in ns (R21). -/
def State.origin (s : State) : Nat := s.get64 Reg.FRAME_ORIGIN_LO.ORIGIN_LO Reg.FRAME_ORIGIN_HI.ORIGIN_HI

/-- Frame start of frame number `k` (R21). -/
def State.frameStartNs (s : State) (k : Nat) : Nat := s.origin + k * s.periodNs

/-- Frame number of the frame grid at a time (R21). -/
def State.gridAt (s : State) (t : Int) : Nat :=
  if s.periodNs = 0 then 0 else ((t - s.origin) / (s.periodNs : Int)).toNat

/-- Frame number in progress: of the running frame, else of the grid at the current time. -/
def State.curK (s : State) : Nat := if s.frame.inFrame then s.frame.k else s.gridAt s.frame.now

/-- Epoch of a frame number (R21). -/
def epochOf (k : Nat) : Epoch := BitVec.ofNat 32 k

/-- Number of the frame with an epoch: the one nearest the current frame, as epochs compare modulo 2^32 (R21, R22). -/
def State.frameOf (s : State) (e : Epoch) : Nat := ((s.curK : Int) + (e - epochOf s.curK).toInt).toNat

/-! ## Angles and samples -/

/-- Pi in Q16.16, to nearest. -/
def qPi : Int := 205887
/-- Two pi in Q16.16, to nearest. -/
def qTwoPi : Int := 411775

/-- An angle of magnitude below 3 pi wrapped to (-pi, pi] (R428 step 3). -/
def wrapAngle (x : Int) : Int := if x > qPi then x - qTwoPi else if x ≤ -qPi then x + qTwoPi else x

/-- Wrapped angle of a flagged value. -/
def Q.wrap (x : Q) : Q := { x with v := wrapAngle x.v }

/-- Field `j` (word index of Table 6-7) of a point; +0 where the record has none. -/
def QPoint.field (p : QPoint) (j : Nat) : Q := (p.f[j]?).getD ⟨0, false⟩

/-- The points i and i + 1 with t_i ≤ t < t_(i+1); the last point alone when t equals its time (R428). -/
def QTraj.around (tr : QTraj) (t : Int) : Option (QPoint × Option QPoint) :=
  go tr.pts
where
  go : List QPoint → Option (QPoint × Option QPoint)
    | [] => none
    | [p] => if p.t = t then some (p, none) else none
    | p :: q :: r => if p.t ≤ t ∧ t < q.t then some (p, some q) else go (q :: r)

/-- A field of a trajectory at time `t`: linear between samples under R119, THETA on the shorter arc (R428 steps 1 to 3).
None where the samples do not reach `t`; a fallback holds its last sample to its horizon's end (R394). -/
def QTraj.fieldAt (tr : QTraj) (theta : Bool) (j : Nat) (t : Int) : Option Q :=
  match tr.around t with
  | some (p, none) => some (p.field j)
  | some (p, some q) =>
    let f := qDiv (t - p.t) (q.t - p.t)
    let d := Q.op qSub (q.field j) (p.field j)
    let d := if theta then d.wrap else d
    let x := Q.op qAdd (p.field j) (Q.op qMul d f)
    some (if theta then x.wrap else x)
  | none => match tr.pts.getLast? with
    | some p => if p.t < t ∧ t ≤ tr.endAt then some (p.field j) else none
    | none => none

/-! ## Channel values -/

/-- A channel value: (x - OFFSET) / SCALE rounded once to nearest-even and saturated by CONV (R378, R428 step 4), as a
16-bit pattern, with the clipped flag. -/
def chanValue (img : Image) (c : Nat) (x : Q) : Nat × Bool :=
  let d := img.chanScale c
  let v := if d ≤ 0 then 0 else roundHalfEven (x.v - img.chanOffset c) d.toNat
  let lo : Int := if img.chanByte c 2 = 2 then 0 else -32768
  let hi : Int := if img.chanByte c 2 = 2 then 65535 else 32767
  (pattern 16 (max lo (min hi v)), x.sat || decide (v < lo) || decide (hi < v))

/-- Time of setpoint slot `n` of a table with base time `tbase` (R428). -/
def slotTime (img : Image) (tbase : Int) (n : Nat) : Int := tbase + 1000 * ((n - 1 : Nat) * img.slotPeriodUs : Nat)

/-- True when the channel record's SOURCE is THETA of a VEHICLE sample (R428). -/
def isTheta (img : Image) (c : Nat) : Bool := img.safetyKind == 0 && img.chanByte c 1 == 0x0C

/-- What a table is built with (R427, R431, Tables 15-6 and 15-7). -/
structure TableHead where
  tbase : Nat
  verdict : Nat
  epoch : Epoch
  island : Bool
  hold : Bool
  holdover : Bool
  fault : Bool
  generation : Nat
deriving DecidableEq, Repr

/-- Slot 0, the header (Table 15-6), as channel and value. -/
def headerChans (img : Image) (h : TableHead) : List (Nat × Nat) :=
  let mask := (List.range img.channelCount).foldl (fun m c => m ||| 2 ^ (img.chanByte c 0)) 0
  [(0, bits h.tbase 0 16), (1, bits h.tbase 16 16), (2, bits h.tbase 32 16), (3, bits h.tbase 48 16),
   (4, img.slotPeriodUs % 2 ^ 16), (5, h.verdict), (6, bits h.epoch.toNat 0 16), (7, bits h.epoch.toNat 16 16),
   (8, 63), (9, bit h.island + 2 * bit h.hold + 4 * bit h.holdover + 8 * bit h.fault), (10, mask),
   (11, u16 (img.body 0xD) 0), (15, h.generation)]

/-- One setpoint slot: its channels, and how many channel values saturated. A slot that the trajectory does not cover has
VALID clear and zeros. -/
def slotChans (img : Image) (h : TableHead) (value : Nat → Nat → Option (Nat × Bool)) (stopPart : Nat → Bool) (n : Nat) :
    List (Nat × Nat) × Nat :=
  let vs := (List.range img.channelCount).map fun c => (img.chanByte c 0, value c n)
  if vs.all fun p => p.2.isSome then
    let cl := (vs.filter fun p => match p.2 with
      | some q => q.2
      | none => false).length
    let st := 1 + 2 * bit h.hold + 4 * bit (stopPart n) + 8 * bit h.island + 16 * bit (decide (cl ≠ 0))
    (vs.map (fun p => (p.1, match p.2 with
      | some q => q.1
      | none => 0)) ++ [(14, st), (15, h.generation)], cl)
  else ([(14, 2 * bit h.hold + 8 * bit h.island), (15, h.generation)], 0)

/-- The values of a table that differ from 0, keyed by 16 * slot + channel, and the count of saturated values. -/
def buildTable (img : Image) (h : TableHead) (value : Nat → Nat → Option (Nat × Bool)) (stopPart : Nat → Bool) :
    List (Nat × Nat) × Nat :=
  let put := fun (n : Nat) (m : List (Nat × Nat)) (cs : List (Nat × Nat)) =>
    cs.foldl (fun m p => sSet 0 (16 * n + p.1) p.2 m) m
  (List.range 63).foldl (fun acc i =>
    let r := slotChans img h value stopPart (i + 1)
    (put (i + 1) acc.1 r.1, acc.2 + r.2)) (put 0 [] (headerChans img h), 0)

/-- The table of a trajectory (R427, R428). -/
def trajTable (img : Image) (h : TableHead) (tr : QTraj) : List (Nat × Nat) × Nat :=
  buildTable img h
    (fun c n => (tr.fieldAt (isTheta img c) (img.chanByte c 1 / 4) (slotTime img h.tbase n)).map (chanValue img c))
    (fun n => match tr.stopAt with
      | some b => decide (b ≤ slotTime img h.tbase n)
      | none => false)

/-- The value a channel had in the front-buffer slot whose interval contained time `t`; none where no slot contained it
(R432, LAST). -/
def lastServed (front : List (Nat × Nat)) (ch : Nat) (t : Int) : Option Nat :=
  let g := fun c => sGet 0 c front
  let tb : Nat := g 0 + 65536 * g 1 + 2 ^ 32 * g 2 + 2 ^ 48 * g 3
  let per : Int := 1000 * g 4
  let inside := fun (i : Nat) => decide ((tb : Int) + (i : Int) * per ≤ t) && decide (t < (tb : Int) + ((i : Int) + 1) * per) &&
    bitOf (g (16 * (i + 1) + 14)) 0
  ((List.range 63).find? inside).map fun (i : Nat) => g (16 * (i + 1) + ch)

/-- The terminal-hold table (R409, R432). -/
def holdTable (img : Image) (h : TableHead) (front : List (Nat × Nat)) (t : Int) : List (Nat × Nat) × Nat :=
  buildTable img h
    (fun c _ =>
      let zero := chanValue img c (Q.of 0)
      match (if img.chanByte c 3 = 1 then lastServed front (img.chanByte c 0) t else none) with
      | some v => some (v, false)
      | none => some zero)
    (fun _ => false)

/-! ## Swap -/

/-- Successor of a generation: it steps from 0xFFFF to 0x0001 (R431). -/
def nextGeneration (g : Nat) : Nat := if g ≥ 0xFFFF then 1 else g + 1

/-- The swap of a table into the front buffer: SP_SWAP rises in BUS, HEARTBEAT toggles, the swap is counted (R429, R412). -/
def swapTable (s : State) (table : List (Nat × Nat)) (clipped gen : Nat) : State :=
  let s := (s.inc Reg.SAFE_SP_SWAPS.COUNT).add Reg.SAFE_SP_CLIPPED.COUNT clipped
  let s := s.set Reg.SAFE_SP_STATUS.GENERATION gen
  { s with
    safety := { s.safety with front := table, back := s.safety.front }
    pins := { s.pins with spSwap := decide (s.pins.spPhase = 1), heartbeat := !s.pins.heartbeat } }

/-- What the head of a table says at this moment. -/
def State.tableHead (s : State) (k verdict : Nat) (island hold : Bool) : TableHead :=
  { tbase := s.frameStartNs (k + 1), verdict, epoch := epochOf k, island, hold
    holdover := s.flag Reg.FRAME_STATUS.HOLDOVER, fault := !s.pins.faultN
    generation := nextGeneration s.safety.generation }

/-- Debug is unlocked (R586). -/
def State.unlocked (s : State) : Bool := s.get Reg.SEC_DEBUG_STATUS.STATE == 2

/-- A table is swapped in and its generation counted; with debug unlocked no table is published (R586). -/
def putTable (s : State) (t : List (Nat × Nat) × Nat) (gen : Nat) : State :=
  if s.unlocked then s
  else
    let s := swapTable s t.1 t.2 gen
    { s with safety := { s.safety with generation := gen } }

/-- Publication of a trajectory's table under a verdict for frame number `k` (R427 to R431). -/
def publishTraj (s : State) (img : Image) (tr : QTraj) (k verdict : Nat) (island : Bool) : State :=
  let h := s.tableHead k verdict island false
  putTable s (trajTable img h tr) h.generation

/-- Publication of terminal hold for frame number `k`: FAULT_N asserted, verdict STOP (R409, R432). -/
def publishHold (s : State) (img : Image) (k : Nat) : State :=
  let s := { s with pins := { s.pins with faultN := false } }
  let h := s.tableHead k 5 true true
  putTable s (holdTable img h s.safety.front s.frame.now) h.generation

/-- The empty table in the front buffer, without a swap (R433: from the capture edge, in BOOT_FAIL). -/
def emptyTable (s : State) : State :=
  let s := s.set Reg.SAFE_SP_STATUS.GENERATION 0
  { s with safety := { s.safety with front := [], back := [] } }

/-! ## Pins -/

/-- Phase of SP_AD, in the pins and in SAFE_SP_STATUS (R417). -/
def setPhase (s : State) (ph : Nat) : State :=
  let s := s.set Reg.SAFE_SP_STATUS.PHASE ph
  { s with pins := { s.pins with spPhase := ph, spSwap := if ph = 1 then s.pins.spSwap else false } }

/-- SP_SWAP falls 100 ns after the swap (R429). -/
def execSpSwapPulseEnd (s : State) : Result := .next { s with pins := { s.pins with spSwap := false } }

/-- Value of a setpoint buffer at a latched address (R424). -/
def bufferAt (m : List (Nat × Nat)) (address : Nat) : Nat := sGet 0 (bits address 0 10) m

/-- One read cycle (R424 to R426, R430): the address is latched at the SP_ALE falling edge with SP_CS_N low; the device
drives the data while SP_CS_N stays low and SP_OE_N is low, if the address names its board address. `edge` places the
latching edge against the latest SP_SWAP rising edge: 0 more than 2 ns before it (old buffer), 1 more than 2 ns after
it (new buffer), 2 in between, where either buffer is read, by a free choice, and never a mix. -/
def execBusRead (address : Nat) (csLow oeLow : Bool) (edge : Nat) (s : State) : Result :=
  if s.pins.spPhase ≠ 1 then .next { s with safety := { s.safety with driven := none } }
  else if !csLow then .next { s with safety := { s.safety with driven := none } }
  else
    let r := s.draw 1
    let s2 := if edge = 2 then r.2 else s
    let old := edge = 0 ∨ (edge = 2 ∧ r.1 = 0#1)
    let buf := if old then s.safety.back else s.safety.front
    let v := if bits address 12 4 = s.get Reg.SAFE_SP_STRAPS.ADDRESS ∧ oeLow then some (bufferAt buf address) else none
    .next { s2 with safety := { s2.safety with latched := some (address % 2 ^ 16), driven := v } }

end Sys2Proof.Machine
end

