-- ==== Sys2Proof/Machine/Link.lean ====
section
/-! DEFINITION. Sending over Tenon links (chapter 17): credits (R489, R490), the replay buffer (R484), tokens (R492), messages
(R491), CONFIRM (R500) and the condemnation of an epoch (R501). -/

namespace Sys2Proof.Machine

/-! ## Links -/

/-- State of a link. -/
def State.link (s : State) (l : Nat) : LinkSt := sGet {} l s.tenon.links

/-- The state with a link's state written. -/
def State.setLink (s : State) (l : Nat) (x : LinkSt) : State :=
  { s with tenon := { s.tenon with links := sSet {} l x s.tenon.links } }

/-- A link is up (R480). -/
def State.linkUp (s : State) (l : Nat) : Bool := s.get (Reg.TENON_LINK_STATUS.STATE l) == 2

/-- The device is part of a chain: it is not strapped standalone. -/
def State.inChain (s : State) : Bool := s.get Reg.SAFE_SP_STRAPS.ROLE != 0

/-- Device number; 0xFFF before enumeration. -/
def State.device (s : State) : Nat := s.get Reg.TENON_STATUS.DEVICE

/-- The device is the head of its chain: strapped so. -/
def State.isHead (s : State) : Bool := s.get Reg.SAFE_SP_STRAPS.ROLE == 1

/-- Field of a credit pool: 0 to 3 the reserved pools of VC0 to VC3, 4 the shared pool (Table 17-2). -/
def creditField (l : Nat) : Nat → Field
  | 0 => Reg.TENON_LINK_CREDITS.VC0 l
  | 1 => Reg.TENON_LINK_CREDITS.VC1 l
  | 2 => Reg.TENON_LINK_CREDITS.VC2 l
  | 3 => Reg.TENON_LINK_CREDITS.VC3 l
  | _ => Reg.TENON_LINK_CREDITS.SHARED l

/-- The pool the next flit of a virtual channel takes its credit from: shared first (R489); none where it has to wait. -/
def creditPool (s : State) (l vc : Nat) : Option Nat :=
  if 0 < s.get (creditField l 4) then some 4 else if 0 < s.get (creditField l vc) then some vc else none

/-- One waiting flit is sent where a credit and room in the replay buffer allow and its virtual channel is not held up already;
else it waits and holds its channel up (R484, R489). A flit sent carries the acknowledgement and the credits that are due (R485,
R490). The accumulator holds the flits that go on waiting and the channels held up. -/
def pumpOne (l : Nat) (a : State × List OutFlit × List Nat) (f : OutFlit) : State × List OutFlit × List Nat :=
  let st := a.1
  let x := st.link l
  match creditPool st l f.vc with
  | some p =>
    if x.outstanding.length < 256 ∧ !a.2.2.contains f.vc then
      let st := st.set (creditField l p) (st.get (creditField l p) - 1)
      (st.setLink l { x with txSeq := (x.txSeq + 1) % 1024, ackDue := false, creditsDue := x.creditsDue - 63
                             outstanding := x.outstanding ++ [{ seq := x.txSeq, pool := p, flit := f }] }, a.2.1, a.2.2)
    else (st, a.2.1 ++ [f], f.vc :: a.2.2)
  | none => (st, a.2.1 ++ [f], f.vc :: a.2.2)

/-- The waiting flits of a link are sent in order; a virtual channel without a credit waits and the others proceed (R489). -/
def pumpLink (s : State) (l : Nat) : State :=
  if !s.linkUp l then s
  else
    let r := (s.link l).waiting.foldl (pumpOne l) (s, [], [])
    r.1.setLink l { r.1.link l with waiting := r.2.1 }

/-- A flit is handed to a link; a lost link takes none (R507). -/
def sendFlit (s : State) (l : Nat) (f : OutFlit) : State :=
  let x := s.link l
  if x.lost then s else pumpLink (s.setLink l { x with waiting := x.waiting ++ [f] }) l

/-- A payload filled with zero bytes to 240. -/
def pad240 (b : List Byte) : List Byte := b ++ List.replicate (240 - b.length) 0

/-- Low 16 bits of an epoch. -/
def epochLo (e : Epoch) : Nat := e.toNat % 65536

/-! ## Tokens (Tables 17-6 and 17-7) -/

/-- The 32 bytes of a token. -/
def tokenBytes (kind flags src dest : Nat) (e : Epoch) (v0 v1 : Nat) : List Byte :=
  beBytes kind 1 ++ beBytes flags 1 ++ beBytes src 2 ++ beBytes dest 2 ++ beBytes 0 2 ++ beBytes e.toNat 4 ++ beBytes v0 8 ++
  beBytes v1 8 ++ beBytes 0 4

/-- A TOKEN flit with one token. -/
def tokenFlit (b : List Byte) : OutFlit := { ty := 4, vc := 1, epochLo := 0, flags := 3, payload := pad240 b }

/-- A token of this device is sent on a link. -/
def sendToken (s : State) (l kind flags dest : Nat) (e : Epoch) (v0 v1 : Nat) : State :=
  sendFlit s l (tokenFlit (tokenBytes kind flags s.device dest e v0 v1))

/-! ## Messages (R491) -/

/-- The route header. -/
def routeHeader (dest src kind len : Nat) (e : Epoch) : List Byte :=
  beBytes dest 2 ++ beBytes src 2 ++ beBytes kind 1 ++ beBytes 0 3 ++ beBytes len 4 ++ beBytes e.toNat 4

/-- Bytes cut into flits of 240, the first with SOM and the last with EOM. -/
def messageFlits (ty vc lo extra : Nat) (b : List Byte) : List OutFlit :=
  let n := max 1 ((b.length + 239) / 240)
  (List.range n).map fun i =>
    { ty, vc, epochLo := lo, flags := extra + bit (i == 0) + 2 * bit (i + 1 == n), payload := pad240 ((b.drop (240 * i)).take 240) }

/-- A message is handed to a link. -/
def sendMessage (s : State) (l : Nat) (fs : List OutFlit) : State := fs.foldl (fun s f => sendFlit s l f) s

/-- A RECORD or WORLD message: route header, body, CRC-64/XZ over both. -/
def crcMessage (ty vc dest src : Nat) (e : Epoch) (extra : Nat) (body : List Byte) : List OutFlit :=
  let b := routeHeader dest src 1 body.length e ++ body
  messageFlits ty vc (epochLo e) extra (b ++ beBytes (crc64 b).toNat 8)

/-- A BLOCK message: route header, block tag, the 4 KB block (R491). -/
def blockMessage (dest src : Nat) (e : Epoch) (extra : Nat) (tag data : List Byte) : List OutFlit :=
  messageFlits 1 0 (epochLo e) extra (routeHeader dest src 1 4096 e ++ tag ++ data)

/-- A MAINT message of one flit whose body layout the spec does not state: its body is free. -/
def maintMessage (s : State) (l dest kind : Nat) : State :=
  let d := s.draw (8 * 224)
  let body := (List.range 224).map fun i => d.1.extractLsb' (8 * i) 8
  sendMessage d.2 l (messageFlits 3 2 0 0 (routeHeader dest s.device kind 224 0 ++ body))

/-- Link of the route to a device. -/
def State.routeTo (s : State) (d : Nat) : Option Nat := (s.tenon.routes.find? fun p => p.1 == d).map (·.2)

/-! ## CONFIRM and SQUASH -/

/-- This device confirms epochs downstream: it is not the tail, and holds a chain position or forwards for others (R500). -/
def State.confirms (s : State) : Bool :=
  s.inChain && s.tenon.down.isSome && (s.get Reg.TENON_CHAIN.POSITION != 0xFFF || !s.tenon.feeders.isEmpty) &&
  s.device != s.get Reg.TENON_DEVICES.TAIL

/-- No flit of an epoch waits or is unacknowledged on a link. -/
def linkClear (x : LinkSt) (e : Epoch) : Bool :=
  let mine := fun (f : OutFlit) => f.epochLo == epochLo e && (f.ty == 1 || f.ty == 2 || f.ty == 5)
  !(x.waiting.any mine) && !(x.outstanding.any fun o => mine o.flit)

/-- CONFIRM for an epoch is sent once the conditions of R500 hold. The outputs of the epoch have been sent once this device's
lists have (R502), or at once where it sends none. -/
def tryConfirm (s : State) (e : Epoch) : State := match s.tenon.down with
  | none => s
  | some l =>
    if s.confirms ∧ s.tenon.outputsSent = some e ∧ !s.tenon.confirmed.contains e ∧ !s.tenon.condemned.contains e ∧ linkClear (s.link l) e ∧
      s.tenon.feeders.all (fun k => s.tenon.confirms.contains (e, k)) then
      sendToken { s with tenon := { s.tenon with confirmed := e :: s.tenon.confirmed.take 15 } } l 1 0 (s.get Reg.TENON_DEVICES.TAIL) e 0 0
    else s

/-- A device condemns an epoch (R501): it sends SQUASH downstream with a cause of Table 17-7 and discards its work of that
epoch; on the tail the epoch stays unconfirmed. -/
def condemn (s : State) (e : Epoch) (cause : Nat) : State :=
  if !s.inChain ∨ s.tenon.condemned.contains e then s
  else
    let s := s.inc Reg.TENON_SQUASH_SENT.COUNT
    let s := { s with tenon := { s.tenon with condemned := e :: s.tenon.condemned.take 15 } }
    let s := match s.tenon.down with
      | some l => sendToken s l 2 0 (s.get Reg.TENON_DEVICES.TAIL) e cause 0
      | none => s
    let s := { s with spec := { s.spec with epochs := s.spec.epochs.filter fun x => x.epoch != e } }
    if s.frame.inFrame ∧ epochOf s.frame.k = e ∧ !s.frame.committed then
      { s with frame := { s.frame with discarded := true }, safety := { s.safety with confirmMissing := true } }
    else s

end Sys2Proof.Machine
end

