-- ==== Sys2Proof/Machine/SafetyCore.lean ====
section
/-! DEFINITION. What the safety island does whatever caused it: entering SAFE_STATE (R401 row 2, R405), terminal hold
(R409, R410), and the start of a restart of the main channel (R406, R407). -/

namespace Sys2Proof.Machine

/-- SAFE_MODE codes (Table 14-8). -/
def modeNormal : Nat := 1
def modeFallback : Nat := 2
def modeSafe : Nat := 3
def modeHold : Nat := 4
def modeSwitch : Nat := 5

/-- SAFE_MODE ARMED and SAFE_FB_REMAIN follow A: its horizon left after the next frame start, in ms (Table 14-8). -/
def armedStatus (s : State) : State :=
  let s := s.set Reg.SAFE_MODE.ARMED (bit s.safety.armed.isSome)
  match s.safety.armed with
  | some a => s.set Reg.SAFE_FB_REMAIN.MS ((a.endAt - (s.frameStartNs (s.curK + 1) : Int)).toNat / 1000000)
  | none => s.set Reg.SAFE_FB_REMAIN.MS 0

/-- MODE, with a count of the terminal holds entered (Table 14-8). -/
def setMode (s : State) (m : Nat) : State :=
  let s := if m = modeHold ∧ s.get Reg.SAFE_MODE.MODE ≠ modeHold then s.inc Reg.SAFE_STOP_COUNT.COUNT else s
  s.set Reg.SAFE_MODE.MODE m

/-- A exists and its latest check passed (Table 14-4 rows 2 and 6). -/
def State.armedServes (s : State) : Bool := s.safety.armed.isSome && s.safety.armedOk

/-! ## What a restart ends (R340, R405, R467, R501) -/

/-- FRAME_SPEC_EPOCH shows the highest epoch with speculative work. -/
def showSpecEpoch (s : State) : State :=
  s.set Reg.FRAME_SPEC_EPOCH.EPOCH (match s.spec.epochs.getLast? with
    | some x => x.epoch.toNat
    | none => s.get Reg.FRAME_EPOCH.EPOCH)

/-- Descriptors of speculative tasks of epochs that no longer exist are freed. -/
def dropSpecDescs (s : State) : State :=
  { s with jig := { s.jig with descs := s.jig.descs.filter fun p => !p.2.speculative || s.spec.epochs.any fun x => x.epoch == p.2.epoch } }

/-- Every speculative epoch is discarded without a squash test. -/
def discardAll (s : State) : State :=
  let n := s.spec.epochs.length
  let s := s.add Reg.FRAME_SPEC_DISCARDS.DISCARDS n
  showSpecEpoch (dropSpecDescs { s with spec := { s.spec with epochs := [] } })

/-- The speculative epochs before `e`, passed over, are discarded. -/
def discardBefore (s : State) (e : Epoch) : State :=
  let old := s.spec.epochs.filter fun x => epochLater e x.epoch
  let s := s.add Reg.FRAME_SPEC_DISCARDS.DISCARDS old.length
  showSpecEpoch (dropSpecDescs { s with spec := { s.spec with epochs := s.spec.epochs.filter fun x => !epochLater e x.epoch } })

/-- Every job ends with a status: SWEEP and SEARCH with `frameBound`, REFINE with `refine` where it ends (R467). A job that
ends keeps what it has for its RESULT. -/
def endJobs (s : State) (frameBound : Nat) (refine : Option Nat) : State :=
  let now := s.frame.now.toNat
  let fin := fun (j : Job) (st : Nat) => { j with state := 2, status := st, engine := none, finishedAt := now }
  let one := fun (j : Job) =>
    if 2 ≤ j.state then j
    else if j.kind = 3 then (match refine with
      | some st => fin j st
      | none => j)
    else fin j frameBound
  { s with eth := { s.eth with jobs := s.eth.jobs.map one } }

/-- What a restart of the main channel stops: frames and the frame in progress, whose epoch a chain condemns while it is
unconfirmed (R501), and every speculative epoch (R405, R340). A switch or hold under way ends, with SHADOW_FAILED once
it has reached its shadow frames, else CANCELLED; an entry into NAP or SLEEP ends. -/
def stopMain (s : State) : State :=
  let e := epochOf s.frame.k
  let s := if s.frame.inFrame ∧ !s.tenon.confirmed.contains e then condemn s e 3 else s
  let ph := s.get Reg.CONFIG_SWITCH_STATUS.PHASE
  let s := if ph = 5 then (s.set Reg.CONFIG_SWITCH_STATUS.RESULT 0x0C).set Reg.CONFIG_SWITCH_STATUS.PHASE 0
    else if ph ∈ [1, 2, 3, 4, 6] then (s.set Reg.CONFIG_SWITCH_STATUS.RESULT 0x0D).set Reg.CONFIG_SWITCH_STATUS.PHASE 0
    else s
  let s := discardAll ((s.set Reg.FRAME_STATUS.FRAME_ACTIVE 0).set Reg.FRAME_STATUS.SHADOW 0)
  { s with
    frame := { s.frame with running := false, shadowLeft := 0, shadow := false, drain := false, gapExcused := true }
    cfg := { s.cfg with held := false, drainFor := 0, loading := none, next := none, nextBulk := [] }
    power := { s.power with entry := 0, closing := false }
    fault := { s.fault with tokens := s.fault.tokens.filter fun t => t.act != 9 }
    digest := { s.digest with replay := none } }

/-- A restart begins: warm, or a cold restart without RESET_N (R591, R592). Jobs end under R467. -/
def restartAs (s : State) (warm : Bool) : State :=
  let s := stopMain s
  let s := if warm then endJobs s 2 none else endJobs s 3 (some 3)
  let s := (s.inc Reg.SEC_RESTART_COUNT.COUNT).set Reg.SEC_BOOT_STATUS.STATE 0
  let s := (s.set Reg.SEC_BOOT_STATUS.WARM (bit warm)).set Reg.SEC_BOOT_STATUS.STEP 5
  { s with safety := { s.safety with restart := if warm then 1 else 3, copyPathDown := !warm }
           sec := { s.sec with since := s.frame.now, timing := true, restart := !warm, boot := none, tried := 0 } }

/-- The restart of the main channel: warm where strap bit 11 permits it, else cold (R405, R592). -/
def beginRestart (s : State) : State := restartAs s (s.get Reg.SAFE_SP_STRAPS.WARM == 1)

/-- A failed cold start counts against its slot, 0 A or 1 B, which is excluded at 3 (R593). -/
def chargeSlot (s : State) (i : Nat) : State :=
  let fld := if i = 1 then Reg.SEC_BOOT_ATTEMPTS.B_FAILS else Reg.SEC_BOOT_ATTEMPTS.A_FAILS
  let s := s.inc fld
  if 3 ≤ s.get fld then s.set (if i = 1 then Reg.SEC_BOOT_ATTEMPTS.B_EXCLUDED else Reg.SEC_BOOT_ATTEMPTS.A_EXCLUDED) 1 else s

/-- A cold start is under way: it loads, waits, or runs its shadow frames. -/
def State.coldStarting (s : State) : Bool :=
  s.sec.boot.isSome || s.safety.restart == 3 || (s.safety.restart == 2 && s.get Reg.SEC_BOOT_STATUS.WARM == 0)

/-- The restart after a failed start (R407, R593): a failed warm start, or a failed switch (R91), is repeated once within a
SAFE_STATE, then the main channel restarts cold; a failed cold start counts against its slot, which is excluded at 3. -/
def startFailed (s : State) : State :=
  if s.coldStarting then
    restartAs (chargeSlot s (s.get (if s.sec.boot.isSome then Reg.CONFIG_LOAD_STATUS.SLOT else Reg.CONFIG_SLOT_ACTIVE.SLOT))) false
  else
    let n := min 3 (s.get Reg.SAFE_MODE.RESTARTS + 1)
    let s := (s.set Reg.SAFE_MODE.RESTARTS n).set Reg.SEC_BOOT_ATTEMPTS.WARM_FAILS n
    restartAs s (decide (n < 2) && s.get Reg.SAFE_SP_STRAPS.WARM == 1)

/-- SAFE_STATE entry but for its table: H is cleared and A kept (R404), the window is cleared (R403), the entry is counted,
the SAFE_STATE pin is asserted and the restart begins (R405). Without an A that passed, the mode is terminal hold (R409). -/
def enterSafe (s : State) : State :=
  let s := s.inc Reg.SAFE_ENTRY_COUNT.COUNT
  let s := (s.set Reg.SAFE_WINDOW.MAP 0).set Reg.SAFE_MODE.RESTARTS 0
  let s := s.set Reg.CONFIG_SLOT_ACTIVE.ACCEPTS 0
  let s := setMode s (if s.armedServes then modeSafe else modeHold)
  let s := { s with
    safety := { s.safety with held := none, window := [] }
    pins := { s.pins with safeState := true } }
  beginRestart s

/-- The table of an entry: A under verdict SAFE_STATE if A's latest check passed, otherwise terminal hold (Table 14-4). -/
def publishEntry (s : State) (k : Nat) : State :=
  match s.cfg.image with
  | none => s
  | some img =>
    match s.safety.armed with
    | some a => if s.safety.armedOk then publishTraj s img a k 4 true else publishHold s img k
    | none => publishHold s img k

/-- Row 2 of Table 14-4, acted on when its cause is met, without waiting for the verdict time (R401): the island takes
over the port. An entry while the island serves SAFE_STATE or terminal hold, or with nothing loaded, publishes nothing. -/
def enterNow (s : State) : State :=
  if s.safety.permanent ∨ s.get Reg.SAFE_MODE.MODE = modeSafe ∨ s.get Reg.SAFE_MODE.MODE = modeHold ∨ s.cfg.image.isNone then s
  else
    let k := s.curK
    let shadow := s.frame.inFrame && s.frame.shadow
    let s := enterSafe { s with safety := { s.safety with rowTwo := true } }
    let s := publishEntry { s with frame := { s.frame with inFrame := false, committed := true } } k
    let s := (s.set Reg.SAFE_VERDICT.VERDICT (if s.get Reg.SAFE_MODE.MODE = modeHold then 5 else 4)).set
      Reg.SAFE_VERDICT_EPOCH.EPOCH k
    armedStatus (s.set Reg.SAFE_VERDICT.SHADOW (bit shadow))

/-- A permanent safety island fault: STOP, terminal hold until RESET_N (R411, Table 14-4 row 1, R410). -/
def permanentFault (s : State) : State :=
  let s := s.set Reg.SAFE_MODE.ISLAND_FAULT 1
  let s := { s with safety := { s.safety with permanent := true, held := none } }
  let s := setMode s modeHold
  match s.cfg.image with
  | some img => publishHold s img s.curK
  | none => { s with pins := { s.pins with faultN := false } }

end Sys2Proof.Machine
end

