-- ==== Sys2Proof/Machine/FaultCore.lean ====
section
/-! DEFINITION. The shared operations of chapter 19: unit states (R535, R537), Maintenance Coordinator tokens (R546),
detection, merging and queueing of errors (R541), failure records (R543 to R545). -/

namespace Sys2Proof.Machine

/-! ## Units -/

/-- Key of a unit in the unit table. -/
def unitKey (cls idx : Nat) : Nat := 256 * cls + idx

/-- State of a unit. -/
def State.unit (s : State) (cls idx : Nat) : UnitSt := sGet {} (unitKey cls idx) s.fault.units

/-- The state with a unit's state written. -/
def State.setUnit (s : State) (cls idx : Nat) (u : UnitSt) : State :=
  { s with fault := { s.fault with units := sSet {} (unitKey cls idx) u s.fault.units } }

/-- Indexes of a zone (Table 19-1). -/
def zoneSize (cls : Nat) : Nat := match cls with
  | 0 => 36 | 1 => 8 | 2 => 4 | 3 => 1 | 4 => 4 | 5 => 64 | 6 => 4 | 7 => 4 | 8 => 1 | 9 => 1 | 10 => 1 | _ => 0

/-- A unit is good when it is neither suspect, retired nor absent. -/
def State.unitGood (s : State) (cls idx : Nat) : Bool := (s.unit cls idx).state == 0

/-- A unit takes work: it is neither retired nor absent. -/
def State.unitUsable (s : State) (cls idx : Nat) : Bool := decide ((s.unit cls idx).state < 2)

/-- The registers of other blocks that show a unit's state: TILE_BIND STATE, SOLVER_STATUS GOOD and SUSPECT, ORDER_STATUS
SUSPECT. -/
def showUnit (s : State) (cls idx : Nat) : State :=
  let st := (s.unit cls idx).state
  match cls with
  | 0 => s.set (Reg.TILE_BIND.STATE idx) st
  | 3 => s.set Reg.ORDER_STATUS.SUSPECT (bit (st == 1))
  | 4 =>
    let setBit := fun (v : Nat) (b : Bool) => if b then v ||| 2 ^ idx else v - (if bitOf v idx then 2 ^ idx else 0)
    let s := s.set Reg.SOLVER_STATUS.SUSPECT (setBit (s.get Reg.SOLVER_STATUS.SUSPECT) (st == 1))
    s.set Reg.SOLVER_STATUS.GOOD (setBit (s.get Reg.SOLVER_STATUS.GOOD) (decide (st < 2)))
  | _ => s

/-- A unit becomes SUSPECT: its count of clean tests starts at 0 (R531, R537). -/
def makeSuspect (s : State) (cls idx : Nat) : State :=
  let u := s.unit cls idx
  if u.state = 0 then showUnit (s.setUnit cls idx { u with state := 1, clean := 0 }) cls idx else s

/-! ## Tokens -/

/-- Clock domains of CLOCK_TRIM tokens, numbered as in Table 20-1. -/
def domHbm0 : Nat := 8
def domHbm1 : Nat := 9
def domTenon : Nat := 12
def domChecker : Nat := 14

/-- Clock domain of a unit of Table 19-1 in Table 20-1: TILE, FABRIC, LEDGER, ORDER, SOLVER, HBM0 or HBM1, TENON, ETH, MGMT, and
CHECKER for the safety island; the Chest has none there. -/
def unitDomain (cls idx : Nat) : Nat := match cls with
  | 0 => 3 | 1 => 4 | 2 => 5 | 3 => 6 | 4 => 7 | 5 => if idx < 32 then domHbm0 else domHbm1 | 6 => domTenon | 7 => 10 | 8 => 17
  | 9 => domChecker | _ => 0

/-- Conflict of a requested activity with a held token (Table 19-8), one direction. A TEST or SUSPECT_REPLAY token carries
the unit's class and index; an HBM activity its stack in `idx`; a ledger scrub its group; a retrain its link; a trim its
domain. -/
def conflictHalf (r h : Token) : Bool :=
  match r.act, h.act with
  | 0, 0 => r.cls == h.cls && r.idx == h.idx
  | 0, 8 => r.cls == h.cls && r.idx == h.idx
  | 0, 7 => unitDomain r.cls r.idx == h.idx
  | 0, 9 => true
  | 0, 3 => r.cls == 2 && r.idx == h.idx
  | 0, 4 => r.cls == 2
  | 1, 1 => r.idx == h.idx
  | 1, 2 => r.idx == h.idx
  | 1, 4 => true
  | 1, 9 => true
  | 1, 7 => h.idx == domHbm0 || h.idx == domHbm1
  | 2, 2 => r.idx == h.idx
  | 2, 7 => h.idx == domHbm0 || h.idx == domHbm1
  | 3, 3 => r.idx == h.idx
  | 3, 4 => true
  | 3, 9 => true
  | 4, 4 => true
  | 4, 9 => true
  | 5, 5 => true
  | 5, 9 => true
  | 6, 6 => r.idx == h.idx
  | 6, 10 => true
  | 6, 7 => h.idx == domTenon
  | 7, 7 => true
  | 7, 10 => true
  | 8, 9 => true
  | 9, 10 => true
  | 9, 9 => true
  | 10, 10 => true
  | _, _ => false

/-- The conflict relation is symmetric (R546). -/
def conflicts (r h : Token) : Bool := conflictHalf r h || conflictHalf h r

/-- FAULT_MAINT_HELD shows the activities that hold a token. -/
def showTokens (s : State) : State :=
  s.set Reg.FAULT_MAINT_HELD.HELD ((List.range 11).foldl (fun m a =>
    if s.fault.tokens.any fun t => t.act == a then m + 2 ^ a else m) 0)

/-- A token request: granted, or refused with BUSY_CONFLICT and counted (R546). It is never queued. -/
def takeToken (s : State) (t : Token) : Bool × State :=
  match s.fault.tokens.find? fun h => conflicts t h with
  | some h =>
    let s := s.inc Reg.FAULT_MAINT_REFUSED.COUNT
    (false, (s.set Reg.FAULT_MAINT_LAST.REQUESTED t.act).set Reg.FAULT_MAINT_LAST.HOLDER h.act)
  | none => (true, showTokens { s with fault := { s.fault with tokens := s.fault.tokens ++ [t] } })

/-- Release of a token. -/
def dropToken (s : State) (t : Token) : State :=
  showTokens { s with fault := { s.fault with tokens := s.fault.tokens.erase t } }

/-- True while a token of an activity is held. -/
def State.holds (s : State) (act : Nat) : Bool := s.fault.tokens.any fun t => t.act == act

/-! ## Records -/

/-- TILE clock in MHz (R573). -/
def State.tileMhz (s : State) : Nat := 1600 - 100 * s.get Reg.PWR_STATUS.STEP

/-- CBOR head of a major type and an argument, shortest form (RFC 8949). -/
def cborHead (major n : Nat) : List Byte :=
  let b := fun (x : Nat) => BitVec.ofNat 8 (32 * major + x)
  if n < 24 then [b n] else if n < 2 ^ 8 then b 24 :: beBytes n 1 else if n < 2 ^ 16 then b 25 :: beBytes n 2
  else if n < 2 ^ 32 then b 26 :: beBytes n 4 else b 27 :: beBytes n 8

/-- CBOR unsigned integer. -/
def cborNat (n : Nat) : List Byte := cborHead 0 n
/-- CBOR signed integer. -/
def cborInt (i : Int) : List Byte := if 0 ≤ i then cborHead 0 i.toNat else cborHead 1 (-1 - i).toNat
/-- CBOR byte string. -/
def cborBytes (b : List Byte) : List Byte := cborHead 2 b.length ++ b

/-- The failure signature: one CBOR map with keys 1 to 14, core deterministic encoding (R543, Table 19-6). -/
def signature (identity : List Byte) (r : FaultRec) : List Byte :=
  let e := r.handled.info
  cborHead 5 14 ++ cborNat 1 ++ cborBytes identity ++ cborNat 2 ++ cborNat r.handled.time ++
  cborNat 3 ++ cborNat r.handled.epoch.toNat ++ cborNat 4 ++ cborNat e.zone ++ cborNat 5 ++ cborNat e.index ++
  cborNat 6 ++ cborNat e.cls ++ cborNat 7 ++ cborNat e.mech ++ cborNat 8 ++ cborBytes e.syndrome ++
  cborNat 9 ++ cborNat e.outcome ++ cborNat 10 ++ cborBytes r.digest ++ cborNat 11 ++ cborInt r.temp ++
  cborNat 12 ++ cborNat r.mv ++ cborNat 13 ++ cborNat r.mhz ++ cborNat 14 ++ cborNat r.test

/-- One 256-byte entry of the external xSPI log (R544). -/
def logEntry (identity : List Byte) (r : FaultRec) : List Byte :=
  let b := signature identity r
  let body := leBytes 0x4652 2 ++ leBytes b.length 2 ++ leBytes r.seq 4 ++ b ++ List.replicate (240 - b.length) 0
  body ++ leBytes (crc64 body).toNat 8

/-- First 16 bytes of the program digest; all zero with no image (Table 19-6 key 10). -/
def State.clDigest (s : State) : List Byte := match s.cfg.image with
  | some i => i.digest.take 16
  | none => List.replicate 16 0

/-- What the sensors read now: junction temperature, core voltage and current, power and the power bucket. The spec gives no
source for their values, which are free. -/
def State.sense (s : State) : State :=
  let d := s.draw 80
  let v := fun (i : Nat) => (d.1.extractLsb' (16 * i) 16).toNat
  let s := (d.2.set Reg.PWR_TJ.TJ (v 0)).set Reg.PWR_CORE.MV (v 1)
  ((s.set Reg.PWR_CORE.AMPS (v 2)).set Reg.PWR_POWER.WATTS (v 3)).set Reg.PWR_POWER.BUCKET_MJ (v 4)

/-- A record is issued: numbered, queued in the 64-record buffer, where the oldest is dropped and counted when the buffer
is full, and written to the external log while that has a size (R543, R544). -/
def issueRecord (s : State) (h : Handling) (test : Nat) : State :=
  let s := s.sense
  let seq := s.get Reg.FAULT_RECORD_SEQ.SEQ + 1
  let r : FaultRec := { seq, handled := h, digest := s.clDigest, temp := signed 16 (s.get Reg.PWR_TJ.TJ)
                        mv := s.get Reg.PWR_CORE.MV, mhz := s.tileMhz, test }
  let s := s.set Reg.FAULT_RECORD_SEQ.SEQ seq
  let full := s.fault.records.length ≥ 64
  let s := if full then (s.inc Reg.FAULT_RECORD_LOST.COUNT).set Reg.FAULT_STATUS.RECORD_LOST 1 else s
  let recs := (if full then s.fault.records.drop 1 else s.fault.records) ++ [r]
  let size := 65536 * s.get Reg.FAULT_LOG_SIZE.SIZE
  let s := { s with fault := { s.fault with records := recs } }
  if size = 0 then s
  else
    let d := s.draw 1
    let s := d.2.set Reg.FAULT_LOG_NEXT.OFFSET ((d.2.get Reg.FAULT_LOG_NEXT.OFFSET + 256) % size)
    if d.1 = 0#1 then { s with fault := { s.fault with log := r :: s.fault.log } } else s.set Reg.FAULT_STATUS.LOG_ERROR 1

/-- The counter of an error class. -/
def classCounter (cls : Nat) : Field := match cls with
  | 0 => Reg.FAULT_CORRECTED_COUNT.COUNT
  | 1 => Reg.FAULT_CONTAINED_COUNT.COUNT
  | 2 => Reg.FAULT_SUSPECT_COUNT.COUNT
  | _ => Reg.FAULT_FATAL_COUNT.COUNT

/-- Records of a finished error: counted by class; a CORRECTED error of one zone and mechanism gives at most one record a
second (R545). -/
def closeError (s : State) (h : Handling) (test : Nat) : State :=
  let s := s.inc (classCounter h.info.cls)
  let key := 65536 * h.info.zone + 256 * h.info.index + h.info.mech
  if h.info.cls = 0 then
    match s.fault.lastCorrected.find? fun p => p.1 == key with
    | some p =>
      if h.time < p.2 + 1000000000 then s
      else issueRecord { s with fault := { s.fault with lastCorrected := sInsert key h.time s.fault.lastCorrected } } h test
    | none => issueRecord { s with fault := { s.fault with lastCorrected := sInsert key h.time s.fault.lastCorrected } } h test
  else issueRecord s h test

/-! ## Detection -/

/-- ERRORS of the unit, saturating; a new error that reaches CONTAINED sets the count of clean tests back to 0 (R537). -/
def chargeUnit (s : State) (e : ErrorInfo) : State :=
  if e.zone < 11 then
    let u := s.unit e.zone e.index
    s.setUnit e.zone e.index { u with errors := min (u.errors + 1) 0xFFFF, clean := if 1 ≤ e.cls then 0 else u.clean }
  else s

/-- A FATAL error is acted on at once (R401, R529, R542); within a start, past its step 10, the start fails (R593). -/
def actFatal (s : State) (e : ErrorInfo) : State :=
  let s := s.set Reg.FAULT_LAST_FATAL.MECHANISM e.mech
  let s := (s.set Reg.FAULT_LAST_FATAL.CLASS e.zone).set Reg.FAULT_LAST_FATAL.INDEX e.index
  if s.safety.restart = 1 ∨ s.safety.restart = 2 ∨ s.sec.boot.isSome then startFailed s else enterNow s

/-- The handler's registers. -/
def showHandler (s : State) : State :=
  (s.set Reg.FAULT_STATUS.QUEUE s.fault.queue.length).set Reg.FAULT_STATUS.HANDLING (bit s.fault.handling.isSome)

/-- An error is detected (R541, Table 19-5). Outside every zone it is FATAL (R528) and charged to zone 8. It is handled at
once when the handler is free, merged with the error in handling of the same zone, one class above the higher of the
two, queued when fewer than 8 wait, and FATAL charged to zone 8 otherwise. -/
def detect (s : State) (e : ErrorInfo) : State :=
  let e := if e.zone < 11 then e else { e with zone := 8, index := 0, cls := 3 }
  let s := chargeUnit s e
  let h : Handling := { info := e, time := s.frame.now.toNat, epoch := epochOf s.curK }
  let s :=
    match s.fault.handling with
    | none =>
      let s := { s with fault := { s.fault with handling := some h } }
      let s := if e.cls = 2 then makeSuspect s e.zone e.index else s
      if e.cls = 3 then actFatal s e else s
    | some g =>
      if g.info.zone = e.zone ∧ g.info.index = e.index then
        let c := min 3 (max g.info.cls e.cls + 1)
        let m := { g with info := { g.info with cls := c } }
        let s := s.inc Reg.FAULT_MERGED_COUNT.COUNT
        let s := { s with fault := { s.fault with handling := some m } }
        let s := if 2 ≤ c then makeSuspect s e.zone e.index else s
        if c = 3 then actFatal s m.info else s
      else if s.fault.queue.length < 8 then
        let s := { s with fault := { s.fault with queue := s.fault.queue ++ [h] } }
        let s := if e.cls = 2 then makeSuspect s e.zone e.index else s
        if e.cls = 3 then actFatal s e else s
      else
        let z : ErrorInfo := { e with zone := 8, index := 0, cls := 3 }
        actFatal (closeError s { h with info := z } 0) z
  showHandler s

/-- A permanent failure of a unit: the error itself is CONTAINED and the unit becomes SUSPECT (R529, R531). -/
def detectPermanent (s : State) (e : ErrorInfo) : State :=
  makeSuspect (detect s { e with cls := 1, outcome := 2 }) e.zone e.index

/-- A short-hand for an error with no syndrome. -/
def mkError (zone index cls mech outcome : Nat) : ErrorInfo := { zone, index, cls, mech, syndrome := [], outcome }

end Sys2Proof.Machine
end

