-- ==== Sys2Proof/Machine/WorldOps.lean ====
section
/-! DEFINITION. The world snapshot (chapter 5): cells and panels, update records, the shift, merging, the distance
transform and the two maps. A snapshot lists the cells that differ from their layer's initial value. -/

namespace Sys2Proof.Machine

/-- A snapshot: cell patterns keyed by `cellKey`. -/
abbrev Snap := List (Nat × Nat)

/-! ## Cells and panels (R122, R124) -/

/-- Key of cell (x, y, z) of a slice of a layer. -/
def cellKey (img : Image) (l sl x y z : Nat) : Nat :=
  (((l * 16 + sl) * img.cellsAlong 2 + z) * img.cellsAlong 1 + y) * img.cellsAlong 0 + x

/-- Layer, slice and position of a key. -/
def keyCell (img : Image) (k : Nat) : Nat × Nat × Nat × Nat × Nat :=
  let cx := img.cellsAlong 0
  let cy := img.cellsAlong 1
  let cz := img.cellsAlong 2
  let ls := k / cx / cy / cz
  (ls / 16, ls % 16, k % cx, k / cx % cy, k / cx / cy % cz)

/-- Pattern of a cell. -/
def cellAt (img : Image) (m : Snap) (l sl x y z : Nat) : Nat := sGet (img.initialCell l) (cellKey img l sl x y z) m

/-- Write of a cell. -/
def setCell (img : Image) (l sl x y z v : Nat) (m : Snap) : Snap := sSet (img.initialCell l) (cellKey img l sl x y z) v m

/-- Panel of a cell (R124). -/
def panelOf (img : Image) (x y z : Nat) : Nat :=
  x / img.edge 0 + img.gx * (y / img.edge 1 + img.gy * (z / img.edge 2))

/-- Position (px, py, pz) of a panel. -/
def panelPos (img : Image) (p : Nat) : Nat × Nat × Nat := (p % img.gx, p / img.gx % img.gy, p / img.gx / img.gy)

/-- Cells of a panel in ascending cell index: their positions in the grid (R124). -/
def panelCells (img : Image) (p : Nat) : List (Nat × Nat × Nat) :=
  let q := panelPos img p
  (List.range 4096).map fun i =>
    (q.1 * img.edge 0 + i % img.edge 0, q.2.1 * img.edge 1 + i / img.edge 0 % img.edge 1,
     q.2.2 * img.edge 2 + i / img.edge 0 / img.edge 1)

/-- A panel's content: every slice, cell by cell. -/
def panelContent (img : Image) (m : Snap) (l p : Nat) : List Nat :=
  (List.range (img.slices l)).flatMap fun sl => (panelCells img p).map fun c => cellAt img m l sl c.1 c.2.1 c.2.2

/-- The snapshot `dst` with one panel copied from `src`. -/
def copyPanel (img : Image) (l p : Nat) (src dst : Snap) : Snap :=
  (List.range (img.slices l)).foldl (fun m sl =>
    (panelCells img p).foldl (fun m c => setCell img l sl c.1 c.2.1 c.2.2 (cellAt img src l sl c.1 c.2.1 c.2.2) m) m) dst

/-! ## Payloads (R131, Table 5-6) -/

/-- Big-endian field of a payload. -/
def beAt (b : List Byte) (o n : Nat) : Nat := be ((b.drop o).take n)

/-- T_STATE of a STATE field. -/
def stTime (st : List Byte) : Nat := beAt st 0 8
/-- FP32 or Q16.16 word of a STATE field at a byte offset. -/
def stWord (st : List Byte) (o : Nat) : Word := BitVec.ofNat 32 (beAt st o 4)

/-- One record of a kind, and the bytes it takes; none where the payload is too short. -/
def parseRec (kind : Nat) (b : List Byte) : Option (WRec × Nat) :=
  match kind with
  | 0 =>
    let n := 64 * beAt b 6 2
    if 8 ≤ b.length ∧ 8 + n ≤ b.length then
      some (.span (beAt b 0 2) (byteAt b 2) (beAt b 4 2) (beAt b 6 2) ((b.drop 8).take n), 8 + n)
    else none
  | 1 => if 8 ≤ b.length then some (.voxel (beAt b 0 2) (beAt b 2 2) (beAt b 4 2) (beAt b 6 2), 8) else none
  | 2 =>
    if 128 ≤ b.length then
      some (.ego (signed 16 (beAt b 0 2)) (signed 16 (beAt b 2 2)) (signed 16 (beAt b 4 2)) ((b.drop 8).take 120), 128)
    else none
  | _ => none

/-- Exactly `n` records that fill the bytes. -/
def parseRecs (kind : Nat) : Nat → List Byte → Option (List WRec)
  | 0, b => if b.isEmpty then some [] else none
  | n + 1, b => match parseRec kind b with
    | some (r, k) => (parseRecs kind n (b.drop k)).map (r :: ·)
    | none => none

/-- A payload that is well formed for a stream: its records and END_OF_EPOCH; none where Table 5-7 discards it whole. -/
def parsePayload (ego : Bool) (b : List Byte) : Option (List WRec × Bool) :=
  if b.length < 8 ∨ byteAt b 1 ≥ 2 ∨ !zeroAt b 4 4 then none
  else if (byteAt b 0 == 2) != ego then none
  else (parseRecs (byteAt b 0) (beAt b 2 2) (b.drop 8)).map fun r => (r, bitOf (byteAt b 1) 0)

/-! ## Records -/

/-- Cells that a span's bytes hold, as cell index and pattern (Table 5-2 packing). -/
def spanCells (ty offset : Nat) (data : List Byte) : List (Nat × Nat) :=
  let base := 64 * offset
  match img_bits ty with
  | 2 => (data.zipIdx base).flatMap fun p => (List.range 4).map fun j => (4 * p.2 + j, bits p.1.toNat (2 * j) 2)
  | 16 => (List.range (data.length / 2)).map fun i => ((base + 2 * i) / 2, u16 data (2 * i))
  | _ => (data.zipIdx base).map fun p => (p.2, p.1.toNat)
where
  img_bits (ty : Nat) : Nat := Image.cellBits ty

/-- Bytes of a panel slice of a layer type (Table 5-2). -/
def panelBytes (ty : Nat) : Nat := 512 * Image.cellBits ty

/-- Why the World Builder discards a record (R127, R132): it lies outside the grid or the REGION, a span runs past its
panel slice, a slice is out of range, a value is too wide, or it writes 0b11. -/
def recBad (img : Image) (stream : Nat) (r : WRec) : Bool :=
  let l := img.streamLayer stream
  let ty := img.layerType l
  match r with
  | .span p sl off n data =>
    let q := panelPos img p
    decide (img.panelCount ≤ p) || !img.inRegion stream q.1 q.2.1 q.2.2 || decide (n = 0) ||
    decide (panelBytes ty < 64 * (off + n)) || decide (img.slices l ≤ sl) ||
    (Image.cellBits ty == 2 && (spanCells ty off data).any fun c => c.2 == 3)
  | .voxel x y z v =>
    let sl := if ty = 4 then v / 256 else 0
    let val := if ty = 4 then v % 256 else v
    decide (img.cellsAlong 0 ≤ x) || decide (img.cellsAlong 1 ≤ y) || decide (img.cellsAlong 2 ≤ z) ||
    !img.inRegion stream (x / img.edge 0) (y / img.edge 1) (z / img.edge 2) ||
    decide (img.slices l ≤ sl) || decide (2 ^ Image.cellBits ty ≤ val) || (Image.cellBits ty == 2 && val == 3)
  | .ego _ _ _ _ => false

/-- Cell writes of a record that is not discarded, as key and pattern, in order. -/
def recWrites (img : Image) (stream : Nat) (r : WRec) : List (Nat × Nat) :=
  if recBad img stream r then []
  else
    let l := img.streamLayer stream
    let ty := img.layerType l
    match r with
    | .span p sl off _ data =>
      let q := panelPos img p
      (spanCells ty off data).map fun c =>
        (cellKey img l sl (q.1 * img.edge 0 + c.1 % img.edge 0) (q.2.1 * img.edge 1 + c.1 / img.edge 0 % img.edge 1)
          (q.2.2 * img.edge 2 + c.1 / img.edge 0 / img.edge 1), c.2)
    | .voxel x y z v =>
      let sl := if ty = 4 then v / 256 else 0
      [(cellKey img l sl x y z, if ty = 4 then v % 4 else v)]
    | .ego _ _ _ _ => []

/-! ## Assembly (R140, R141) -/

/-- The shift of every layer by (-dx, -dy, -dz) cells; entering cells take their initial value (R123). -/
def shiftSnap (img : Image) (d : Int × Int × Int) (m : Snap) : Snap :=
  if d = (0, 0, 0) then m
  else m.foldl (fun acc e =>
    let c := keyCell img e.1
    let x : Int := (c.2.2.1 : Int) - d.1
    let y : Int := (c.2.2.2.1 : Int) - d.2.1
    let z : Int := (c.2.2.2.2 : Int) - d.2.2
    if 0 ≤ x ∧ x < img.cellsAlong 0 ∧ 0 ≤ y ∧ y < img.cellsAlong 1 ∧ 0 ≤ z ∧ z < img.cellsAlong 2 then
      setCell img c.1 c.2.1 x.toNat y.toNat z.toNat e.2 acc
    else acc) []

/-- Every cell of a stale stream's REGION in its layer set to unknown, in every slice (R138): unknown is the initial value
of OCCUPANCY and PREDICTED cells. -/
def staleSnap (img : Image) (stream : Nat) (m : Snap) : Snap :=
  m.filter fun e =>
    let c := keyCell img e.1
    !(c.1 == img.streamLayer stream &&
      img.inRegion stream (c.2.2.1 / img.edge 0) (c.2.2.2.1 / img.edge 1) (c.2.2.2.2 / img.edge 2))

/-- Frames of a stream in ascending sequence (R140); sequences compare modulo 2^32. -/
def bySeq (fs : List Admitted) : List Admitted := fs.mergeSort fun a b => !epochLater a.seq b.seq

/-- The last value each cell takes from one stream in an epoch. -/
def streamWrites (img : Image) (stream : Nat) (fs : List Admitted) : List (Nat × Nat) :=
  (bySeq (fs.filter fun f => f.stream == stream)).foldl (fun m f =>
    (f.recs.flatMap (recWrites img stream)).foldl (fun m w => sInsert w.1 w.2 m) m) []

/-- Rank of an occupancy value in the conservative merge: occupied beats unknown beats free (R141). -/
def mergeRank (v : Nat) : Nat := if v = 1 then 2 else if v = 0 then 0 else 1

/-- Merge of one more stream, of higher ID, into the writes so far (R141). -/
def mergeWrites (img : Image) (acc w : List (Nat × Nat)) : List (Nat × Nat) :=
  w.foldl (fun m e =>
    let l := (keyCell img e.1).1
    match m.find? fun p => p.1 == e.1 with
    | some p =>
      if bitOf (img.layerFlags l) 2 then (if mergeRank p.2 < mergeRank e.2 then sInsert e.1 e.2 m else m)
      else sInsert e.1 e.2 m
    | none => sInsert e.1 e.2 m) acc

/-- The ego record used for an epoch: the latest sequence among those admitted (R140). -/
def egoOf (fs : List Admitted) (e : Epoch) : Option (Int × Int × Int × List Byte × Word) :=
  match (bySeq (fs.filter fun f => f.stream == 0xFFFF && f.epoch == e && !f.recs.isEmpty)).getLast? with
  | some f => match f.recs.getLast? with
    | some (.ego dx dy dz st) => some (dx, dy, dz, st, f.seq)
    | _ => none
  | none => none

/-- The shift of an epoch; 0 with no ego record admitted (R140 step 1). -/
def egoShift (fs : List Admitted) (e : Epoch) : Int × Int × Int := match egoOf fs e with
  | some (dx, dy, dz, _) => (dx, dy, dz)
  | none => (0, 0, 0)

/-- Snapshot n of the layers other than DISTANCE, from snapshot n - 1 (R140 steps 1 to 4). -/
def applyEpoch (img : Image) (fs : List Admitted) (stale : List Nat) (e : Epoch) (m : Snap) : Snap :=
  let m := shiftSnap img (egoShift fs e) m
  let m := stale.foldl (fun m d => staleSnap img d m) m
  let mine := fs.filter fun f => f.epoch == e
  let w := img.streamIds.foldl (fun acc d => mergeWrites img acc (streamWrites img d mine)) []
  w.foldl (fun m p => let c := keyCell img p.1; setCell img c.1 c.2.1 c.2.2.1 c.2.2.2.1 c.2.2.2.2 p.2 m) m

/-- The epochs, up to `e`, that frames of the buffer were admitted to, ascending, with `e` last: an epoch that was passed
over is applied with the next one assembled. -/
def pendingEpochs (fs : List Admitted) (e : Epoch) : List Epoch :=
  (((fs.map (·.epoch)).filter fun x => epochLater e x).eraseDups.mergeSort fun a b => !epochLater a b) ++ [e]

/-- The snapshot of the epoch under assembly, but for its DISTANCE layers. -/
def assembled (img : Image) (w : WorldSt) : Snap :=
  (pendingEpochs w.ingest w.epoch).foldl (fun m e =>
    applyEpoch img w.ingest (if e = w.epoch then w.stale else []) e m) w.prev

/-! ## Distance transform (R145) -/

/-- An obstacle cell of the source layer: occupied or unknown, or of a poisoned panel (R154). -/
def obstacle (img : Image) (m : Snap) (poisoned : List (Nat × Nat)) (l x y z : Nat) : Bool :=
  decide (cellAt img m l 0 x y z ≠ 0) || poisoned.contains (l, panelOf img x y z)

/-- Growth of a panel's transform region along an axis. -/
def growth (img : Image) (axis : Nat) : Nat := if img.cellsAlong axis = 1 then 0 else min img.halo (img.edge axis)

/-- h of Dcap: the smallest growth over the axes with more than one cell. -/
def haloMin (img : Image) : Nat :=
  ((List.range 3).filter fun a => img.cellsAlong a > 1).foldl (fun h a => min h (growth img a)) img.halo

/-- Largest q from 0 to 255 that satisfies a monotone test. -/
def largestQ (ok : Nat → Bool) : Nat := ((List.range 256).filter ok).foldl max 0

/-- Dcap of a DISTANCE layer. -/
def dcap (img : Image) (l : Nat) : Nat := largestQ fun q => decide (q * img.quantum l ≤ (haloMin img + 1) * img.cellSize)

/-- Squared distances, in cells, from a cell to the obstacles of its panel's transform region, cells beyond the grid
counting unless EDGE_FREE is set. -/
def obstacleDist (img : Image) (m : Snap) (poisoned : List (Nat × Nat)) (l p : Nat) (c : Nat × Nat × Nat) : List Nat :=
  let src := img.sourceLayer l
  let q := panelPos img p
  let span := fun (axis lo : Nat) =>
    (List.range (img.edge axis + 2 * growth img axis)).map fun (i : Nat) =>
      ((lo * img.edge axis + i : Nat) : Int) - ((growth img axis : Nat) : Int)
  let edgeFree := bitOf (img.layerFlags l) 1
  (span 2 q.2.2).flatMap fun (z : Int) => (span 1 q.2.1).flatMap fun (y : Int) => (span 0 q.1).filterMap fun (x : Int) =>
    let inside := decide (0 ≤ x ∧ x < img.cellsAlong 0 ∧ 0 ≤ y ∧ y < img.cellsAlong 1 ∧ 0 ≤ z ∧ z < img.cellsAlong 2)
    let obs := if inside then obstacle img m poisoned src x.toNat y.toNat z.toNat else !edgeFree
    if obs then
      some (((x - (c.1 : Int)) ^ 2 + (y - (c.2.1 : Int)) ^ 2 + (z - (c.2.2 : Int)) ^ 2).toNat)
    else none

/-- The distance value of a cell: min(Dcap, De), with De 255 where the region has no obstacle (R145). -/
def dtCell (img : Image) (m : Snap) (poisoned : List (Nat × Nat)) (l p : Nat) (c : Nat × Nat × Nat) : Nat :=
  let ds := obstacleDist img m poisoned l p c
  let de := match ds with
    | [] => 255
    | d :: r => let d2 := r.foldl min d; largestQ fun q => decide ((q * img.quantum l) ^ 2 ≤ d2 * img.cellSize ^ 2)
  min (dcap img l) de

/-- A snapshot with one DISTANCE panel recomputed. -/
def dtPanel (img : Image) (poisoned : List (Nat × Nat)) (l p : Nat) (m : Snap) : Snap :=
  (panelCells img p).foldl (fun acc c => setCell img l 0 c.1 c.2.1 c.2.2 (dtCell img m poisoned l p c) acc) m

/-- Source panels that overlap a DISTANCE panel's transform region: those within one panel on each grown axis. -/
def overlapping (img : Image) (p : Nat) : List Nat :=
  let q := panelPos img p
  let near := fun (axis a b : Nat) => if growth img axis = 0 then a == b else decide (a ≤ b + 1 ∧ b ≤ a + 1)
  (List.range img.panelCount).filter fun r =>
    let t := panelPos img r
    near 0 t.1 q.1 && near 1 t.2.1 q.2.1 && near 2 t.2.2 q.2.2

/-- True where a source cell of the panel's transform region changed (R146). -/
def regionChanged (img : Image) (before after : Snap) (l p : Nat) : Bool :=
  let src := img.sourceLayer l
  let q := panelPos img p
  let span := fun (axis lo : Nat) =>
    let g := growth img axis
    (List.range (img.edge axis + 2 * g)).filterMap fun (i : Nat) =>
      let v : Int := ((lo * img.edge axis + i : Nat) : Int) - (g : Int)
      if 0 ≤ v ∧ v < img.cellsAlong axis then some v.toNat else none
  (span 2 q.2.2).any fun z => (span 1 q.2.1).any fun y => (span 0 q.1).any fun x =>
    decide (cellAt img before src 0 x y z ≠ cellAt img after src 0 x y z)

/-- FABRIC cycles of one DISTANCE panel (R147). -/
def dtCycles (img : Image) : Nat :=
  let axes := (List.range 3).filter fun a => img.cellsAlong a > 1
  let rc := (List.range 3).foldl (fun n a => n * (img.edge a + 2 * growth img a)) 1
  48 + axes.length * ceilDiv rc 256

end Sys2Proof.Machine
end

