-- ==== Sys2Proof/Machine/Sections.lean ====
section
/-! DEFINITION. The remaining sections of an image: the lane parameter block of the sweep program (Table 7-1), JIG_FLOWS
(Tables 13-3, 13-4), NETWORK (Tables 9-2 to 9-5), SOLVER_PROBLEM (Tables 11-1 to 11-4), and the bulk data: ROADMAP
(Tables 8-1 to 8-3), SWEEP_INDEX (R216) and WEIGHTS (R263). -/

namespace Sys2Proof.Machine

/-- Verified bulk data of a section type; empty where the image has none. -/
def bulkIn (b : List BulkData) (ty : Nat) : List Byte := match b.find? fun d => d.ty == ty with
  | some d => d.data
  | none => []

/-- Bulk data of the running image. -/
def State.bulk (s : State) (ty : Nat) : List Byte := bulkIn s.cfg.bulk ty

/-- Word of 32 bits as a pattern. -/
def word32 (b : List Byte) (o : Nat) : Word := BitVec.ofNat 32 (u32 b o)

/-! ## TILE_PROGRAMS -/

namespace Image

/-- Program index of a stage. -/
def stageProgram (i : Image) (id : Nat) : Nat := i.stageField id 2 2

/-- Offset of a program's code in the TILE_PROGRAMS body (R55). -/
def codeAt (i : Image) (p : Nat) : Nat := 16 + 16 * i.countOf 4 + u32 (i.body 4) (16 + 16 * p + 4)

/-- Byte of the sweep program's lane parameter block (R185). -/
def lane (i : Image) (o n : Nat) : Nat := le (i.body 4) (i.codeAt (i.stageProgram 4) + 16 + o) n

/-- DIST_LAYER. -/
def distLayer (i : Image) : Nat := i.lane 0 1
/-- PRED_LAYER of the lanes, 0xFF for none. -/
def lanePred (i : Image) : Nat := i.lane 1 1
/-- PRED_UNKNOWN_OCC of the lanes. -/
def laneUnknownOcc (i : Image) : Bool := bitOf (i.lane 2 1) 0
/-- TERM_COUNT. -/
def termCount (i : Image) : Nat := i.lane 3 1
/-- CLEARANCE, Q16.16. -/
def clearance (i : Image) : Int := signed 32 (i.lane 4 4)
/-- PANEL_CACHE_BANKS. -/
def cacheBanks (i : Image) : Nat := i.lane 0xC 1
/-- KIND of a term. -/
def termKind (i : Image) (t : Nat) : Nat := i.lane (0x10 + 12 * t) 1
/-- LAYER of a term. -/
def termLayer (i : Image) (t : Nat) : Nat := i.lane (0x11 + 12 * t) 1
/-- PROBE_BODY of a term. -/
def termBody (i : Image) (t : Nat) : Nat := i.lane (0x12 + 12 * t) 1
/-- WEIGHT of a term. -/
def termWeight (i : Image) (t : Nat) : Word := BitVec.ofNat 32 (i.lane (0x14 + 12 * t) 4)
/-- SOFT of a term, Q16.16. -/
def termSoft (i : Image) (t : Nat) : Int := signed 32 (i.lane (0x18 + 12 * t) 4)
/-- Class cost table entry, FP16. -/
def classCost (i : Image) (c : Nat) : Nat := i.lane (64 + 2 * c) 2

/-! ## JIG_FLOWS -/

/-- AFFINITY_THRESHOLD. -/
def affinity (i : Image) : Nat := u16 (i.body 0x11) 2
/-- TICK_US. -/
def tickUs (i : Image) : Nat := u16 (i.body 0x11) 4
/-- TRACE_MASK. -/
def traceMask (i : Image) : Nat := bits (u16 (i.body 0x11) 6) 0 7
/-- The flow IDs declared. -/
def flowIds (i : Image) : List Nat := (List.range (i.countOf 0x11)).map fun j => u16 (i.body 0x11) (32 + 8 * j)
/-- WINDOW of a flow. -/
def flowWindow (i : Image) (f : Nat) : Nat :=
  match (List.range (i.countOf 0x11)).find? fun j => u16 (i.body 0x11) (32 + 8 * j) == f with
  | some j => u16 (i.body 0x11) (32 + 8 * j + 4)
  | none => 0

/-! ## NETWORK -/

/-- OP_COUNT. -/
def opCount (i : Image) : Nat := u16 (i.body 8) 0
/-- TENSOR_COUNT. -/
def tensorCount (i : Image) : Nat := u16 (i.body 8) 2
/-- NEAR_MISS_LIMIT. -/
def nearMissLimit (i : Image) : Nat := u16 (i.body 8) 4
/-- NETWORK_ID. -/
def networkId (i : Image) : Nat := u64 (i.body 8) 8
/-- STATE_TENSOR. -/
def stateTensor (i : Image) : Nat := u16 (i.body 8) 0x10
/-- SEED_TENSOR. -/
def seedTensor (i : Image) : Nat := u16 (i.body 8) 0x12
/-- COST_SEED_TENSOR. -/
def costSeedTensor (i : Image) : Nat := u16 (i.body 8) 0x14
/-- COST_LIB_TENSOR. -/
def costLibTensor (i : Image) : Nat := u16 (i.body 8) 0x16
/-- A field of operator record `o`. -/
def opField (i : Image) (o off n : Nat) : Nat := le (i.body 8) (32 + 64 * o + off) n
/-- A field of tensor record `t`. -/
def tensorField (i : Image) (t off n : Nat) : Nat := le (i.body 8) (32 + 64 * i.opCount + 64 * t + off) n
/-- FORMAT of a tensor. -/
def tensorFormat (i : Image) (t : Nat) : Nat := i.tensorField t 3 1
/-- KIND of a tensor: 0 ACTIVATION, 1 CONSTANT, 2 STATE. -/
def tensorKind (i : Image) (t : Nat) : Nat := i.tensorField t 2 1
/-- RANK of a tensor. -/
def tensorRank (i : Image) (t : Nat) : Nat := i.tensorField t 4 1
/-- DIM[d] of a tensor. -/
def tensorDim (i : Image) (t d : Nat) : Nat := i.tensorField t (8 + 4 * d) 4
/-- Elements of a tensor. -/
def tensorSize (i : Image) (t : Nat) : Nat := (List.range 4).foldl (fun n d => n * i.tensorDim t d) 1
/-- Bits of an element of a format (Table 9-1). -/
def formatBits (f : Nat) : Nat := match f with
  | 0 => 32 | 1 => 16 | 2 => 16 | 5 => 4 | 7 => 4 | _ => 8
/-- Bytes of a tensor. -/
def tensorBytes (i : Image) (t : Nat) : Nat := ceilDiv (i.tensorSize t * formatBits (i.tensorFormat t)) 8
/-- Blocks of a tensor (R243). -/
def tensorBlocks (i : Image) (t : Nat) : Nat := ceilDiv (i.tensorBytes t) 4096

/-! ## SOLVER_PROBLEM -/

/-- HORIZON N. -/
def horizon (i : Image) : Nat := u16 (i.body 0xC) 0
/-- NX. -/
def nx (i : Image) : Nat := byteAt (i.body 0xC) 2
/-- NU. -/
def nu (i : Image) : Nat := byteAt (i.body 0xC) 3
/-- NC. -/
def nc (i : Image) : Nat := byteAt (i.body 0xC) 4
/-- PRECISION FP32. -/
def solver32 (i : Image) : Bool := byteAt (i.body 0xC) 5 == 1
/-- OUT_STRIDE, 0 standing for 256. -/
def outStride (i : Image) : Nat := let v := byteAt (i.body 0xC) 6; if v = 0 then 256 else v
/-- DIAG_ON_NUMERIC. -/
def diagOnNumeric (i : Image) : Bool := bitOf (byteAt (i.body 0xC) 7) 0
/-- STAGE_DT_NS. -/
def stageDt (i : Image) : Nat := u32 (i.body 0xC) 8
/-- STAGE0_OFFSET_NS. -/
def stage0Offset (i : Image) : Int := signed 32 (u32 (i.body 0xC) 0xC)
/-- ITER_MAX. -/
def iterMax (i : Image) : Nat := u16 (i.body 0xC) 0x10
/-- EPS_PRIM, EPS_DUAL and EPS_GAP. -/
def epsPrim (i : Image) : Word := word32 (i.body 0xC) 0x14
def epsDual (i : Image) : Word := word32 (i.body 0xC) 0x18
def epsGap (i : Image) : Word := word32 (i.body 0xC) 0x1C
/-- SIGMA_MIN. -/
def sigmaMin (i : Image) : Word := word32 (i.body 0xC) 0x20
/-- MU0. -/
def mu0 (i : Image) : Word := word32 (i.body 0xC) 0x28
/-- Shift per frame m (R304). -/
def solverShift (i : Image) : Nat := i.periodNs / i.stageDt
/-- Offset of record `k` of the section: a header of 16 bytes and its padded data. -/
def solverRecOff (i : Image) : Nat → Nat
  | 0 => 64
  | k + 1 => let o := i.solverRecOff k; o + 16 + align8 (u32 (i.body 0xC) (o + 0xC))
/-- Offset of the data of the MAP record. -/
def mapOff (i : Image) : Nat :=
  match (List.range (i.countOf 0xC)).find? fun k => byteAt (i.body 0xC) (i.solverRecOff k) == 8 with
  | some k => i.solverRecOff k + 16
  | none => 0
/-- MKIND of MAP entry `j`. -/
def mapKind (i : Image) (j : Nat) : Nat := byteAt (i.body 0xC) (i.mapOff + 4 * j)
/-- FIELD of MAP entry `j`, as a word index of the sample record. -/
def mapField (i : Image) (j : Nat) : Nat := byteAt (i.body 0xC) (i.mapOff + 4 * j + 1) / 4

/-- Cycles of the refine phases (R308) on an engine or, with `micro`, in tile microcode (R324): set-up, factorisation,
solves, update, output. -/
def solverPhases (i : Image) (micro : Bool) : Nat × Nat × Nat × Nat × Nat :=
  let z := i.nx + i.nu
  let w := if micro then 32 else if i.solver32 then 64 else 32
  let c := ceilDiv (z ^ 3) (3 * w) + ceilDiv (i.nc * z ^ 2) w + (if micro then 96 else 24)
  (128 + 4 * (i.horizon + 1), i.horizon * c, i.horizon * ceilDiv (4 * z ^ 2) w, if micro then 256 else 96,
    64 + (i.horizon + 1))

/-- Cycles of one iteration (R308). -/
def iterCycles (i : Image) (micro : Bool) : Nat :=
  let p := i.solverPhases micro
  p.2.1 + p.2.2.1 + p.2.2.2.1

end Image

/-! ## ROADMAP bulk data -/

namespace Road

/-- TRAVERSE_UNKNOWN. -/
def traverseUnknown (b : List Byte) : Bool := bitOf (byteAt b 7) 0
/-- NODE_COUNT. -/
def nodeCount (b : List Byte) : Nat := u32 b 8
/-- EDGE_COUNT. -/
def edgeCount (b : List Byte) : Nat := u32 b 0xC
/-- Index grid size along an axis. -/
def indexSize (b : List Byte) (axis : Nat) : Nat := u32 b (0x10 + 4 * axis)
/-- LEDGER_LAYER. -/
def ledgerLayer (b : List Byte) : Nat := byteAt b 0x20
/-- COST_LAYER, 0xFF for none. -/
def costLayer (b : List Byte) : Nat := byteAt b 0x21
/-- PATH_K. -/
def pathK (b : List Byte) : Nat := byteAt b 0x22
/-- ENTRY_MAX. -/
def entryMax (b : List Byte) : Nat := byteAt b 0x23
/-- SHIFT_TOL. -/
def shiftTol (b : List Byte) : Nat := u16 b 0x24
/-- PATH_RESERVE_US. -/
def pathReserveUs (b : List Byte) : Nat := u16 b 0x26
/-- DELTA, COST_SCALE and COST_OFFSET. -/
def delta (b : List Byte) : Word := word32 b 0x28
def costScale (b : List Byte) : Word := word32 b 0x2C
def costOffset (b : List Byte) : Word := word32 b 0x30
/-- START_TOL_POS, Q16.16; START_TOL_ANG and START_TOL_V. -/
def tolPos (b : List Byte) : Int := signed 32 (u32 b 0x34)
def tolAng (b : List Byte) : Word := word32 b 0x38
def tolV (b : List Byte) : Word := word32 b 0x3C
/-- TOTAL_ENTRIES. -/
def totalEntries (b : List Byte) : Nat := u64 b 0x40
/-- ROADMAP_ID. -/
def roadmapId (b : List Byte) : Nat := u64 b 0x58
/-- Offset of node `n` and of edge `e`. -/
def nodeOff (b : List Byte) (n : Nat) : Nat := u64 b 0x48 + 48 * n
def edgeOff (b : List Byte) (e : Nat) : Nat := u64 b 0x50 + 32 * e
/-- FIRST_EDGE, OUT_DEGREE, ENTRY, DISABLED and TERMINAL of a node. -/
def firstEdge (b : List Byte) (n : Nat) : Nat := u32 b (nodeOff b n)
def outDegree (b : List Byte) (n : Nat) : Nat := u16 b (nodeOff b n + 4)
def isEntry (b : List Byte) (n : Nat) : Bool := bitOf (u16 b (nodeOff b n + 6)) 0
def nodeDisabled (b : List Byte) (n : Nat) : Bool := bitOf (u16 b (nodeOff b n + 6)) 1
def terminal (b : List Byte) (n : Nat) : Word := word32 b (nodeOff b n + 8)
/-- Word `j` of a node's STATE. -/
def nodeWord (b : List Byte) (n j : Nat) : Word := word32 b (nodeOff b n + 0xC + 4 * j)
/-- FROM, TO, FAMILY, DISABLED, STATIC_COST, U and CELLS of an edge. -/
def edgeFrom (b : List Byte) (e : Nat) : Nat := u32 b (edgeOff b e)
def edgeTo (b : List Byte) (e : Nat) : Nat := u32 b (edgeOff b e + 4)
def edgeFamily (b : List Byte) (e : Nat) : Nat := byteAt b (edgeOff b e + 8)
def edgeDisabled (b : List Byte) (e : Nat) : Bool := bitOf (byteAt b (edgeOff b e + 9)) 0
def staticCost (b : List Byte) (e : Nat) : Nat := u16 b (edgeOff b e + 0xA)
def edgeU (b : List Byte) (e p : Nat) : Nat := u16 b (edgeOff b e + 0xC + 2 * p)
def edgeCells (b : List Byte) (e : Nat) : Nat := u32 b (edgeOff b e + 0x14)

end Road

/-- Edges of the index list of a cell (R216): `cell` is index panel ID * 4,096 + cell index. -/
def indexList (b : List Byte) (cell : Nat) : List Nat :=
  let blk := u64 b (u64 b 32 + 8 * (cell / 4096))
  if blk = 0 then []
  else
    let i := cell % 4096
    let lo := u32 b (blk + 4 * i)
    let hi := u32 b (blk + 4 * (i + 1))
    (List.range (hi - lo)).map fun j => u32 b (blk + 4 * 4097 + 4 * (lo + j))

/-- OFFSET and LENGTH of a WEIGHTS directory entry (R263). -/
def weightOffset (b : List Byte) (k : Nat) : Nat := u64 b (64 + 16 * k)
def weightLength (b : List Byte) (k : Nat) : Nat := u64 b (64 + 16 * k + 8)

end Sys2Proof.Machine
end

