-- ==== Sys2Proof/Machine/Expand.lean ====
section
/-! DEFINITION. Candidate expansion (chapter 6): mapping of lattice points into the feasible range (R161, R162, R165),
integration (R163), chains and sampling (R168 to R170), candidate IDs (R172 to R174), and roadmap paths (R238). A sample
is the 16 words of Table 6-7. -/

namespace Sys2Proof.Machine

/-- A primitive of a chain: its family and its parameter fractions u_p in FP32. -/
structure PrimRef where
  family : Nat
  us : List Word
deriving DecidableEq, Repr

/-- u of lattice index `i` of `n` (R161). -/
def latticeU (i n : Nat) : Word := if n ≤ 1 then f32Of 1 2 else f32Div (f32Of i) (f32Of ((n : Int) - 1))

/-- A fraction placed in [lo, hi] and clamped to it (R161). -/
def mapInto (u lo hi : Word) : Word := f32Clamp (f32Add lo (f32Mul u (f32Sub hi lo))) lo hi

/-- Seconds of a duration given in microseconds over `den`, rounded once. -/
def secs (us den : Nat) : Word := f32Of us (1000000 * den)

/-- Sign of an FP32 value as a factor: -1 for negative, 1 otherwise. -/
def f32Sign (x : Word) : Word := if f32Lt x 0 then f32Of (-1) else f32Of 1

/-! ## Vehicle primitives -/

/-- A vehicle primitive derived from its start and envelope (R162). -/
structure VPrim where
  v0 : Word
  a0 : Word
  k0 : Word
  tz : Word
  vStop : Word
  vt : Word
  kt : Word
  j : Word
  /-- alim(s) of the S-curve. -/
  alim : Word
  kdot : Word
  vmin : Word
  vmax : Word
  amin : Word
  amax : Word
deriving DecidableEq, Repr

/-- Reach with acceleration limit `a` (R162). -/
def reach (a j tr : Word) : Word :=
  if f32Le (f32Div (f32Mul (f32Of 2) a) j) tr then f32Mul a (f32Sub tr (f32Div a j))
  else f32Div (f32Mul (f32Mul j tr) tr) (f32Of 4)

/-- The vehicle primitive of a family with fractions u_0, u_1 from a start (v0, a0, k0) (R162). -/
def vPrim (img : Image) (p : PrimRef) (v0 a0 k0 : Word) : VPrim :=
  let env := fun n => img.famEnv p.family n
  let vmin := env 0
  let vmax := env 1
  let amin := env 2
  let amax := env 3
  let j := env 4
  let kmax := env 5
  let kdot := env 6
  let alat := env 7
  let t := secs (img.famDurationUs p.family) 1
  let tz := f32Div (f32Abs a0) j
  let vs := f32Add v0 (f32Div (f32Mul a0 (f32Abs a0)) (f32Mul (f32Of 2) j))
  let tr := f32Sub t tz
  let vk := if f32Le (f32Abs k0) 0 then f32Inf false else Config.sqrtF32 (f32Div alat (f32Abs k0))
  let lo := f32Max (f32Max vmin (f32Sub vs (reach (f32Abs amin) j tr))) (f32Neg vk)
  let hi := f32Min (f32Min vmax (f32Add vs (reach amax j tr))) vk
  let vt := mapInto (p.us.getD 0 0) lo hi
  let vpk := f32Max (f32Max (f32Abs v0) (f32Abs vs)) (f32Abs vt)
  let klim := if f32Le vpk 0 then kmax else f32Min kmax (f32Div alat (f32Mul vpk vpk))
  let ramp := f32Mul kdot t
  let kt := mapInto (p.us.getD 1 0) (f32Max (f32Neg klim) (f32Sub k0 ramp)) (f32Min klim (f32Add k0 ramp))
  { v0, a0, k0, tz, vStop := vs, vt, kt, j, alim := if f32Lt (f32Sub vt vs) 0 then f32Abs amin else amax,
    kdot, vmin, vmax, amin, amax }

/-- Speed, acceleration and jerk at local time `t` (R162, lon). -/
def VPrim.lon (p : VPrim) (t : Word) : Word × Word × Word :=
  let half := fun x => f32Div x (f32Of 2)
  let fin := fun (v a j : Word) => (f32Clamp v p.vmin p.vmax, f32Clamp a p.amin p.amax, j)
  if f32Lt t p.tz then
    let j := f32Neg (f32Mul (f32Sign p.a0) p.j)
    (f32Add (f32Add p.v0 (f32Mul p.a0 t)) (half (f32Mul (f32Mul j t) t)), f32Add p.a0 (f32Mul j t), j)
  else
    let d := f32Sub p.vt p.vStop
    let s := f32Sign d
    let dv := f32Abs d
    let apk := f32Min p.alim (Config.sqrtF32 (f32Mul p.j dv))
    let t1 := f32Div apk p.j
    let t2 := if f32Lt 0 apk then f32Sub (f32Div dv apk) t1 else 0
    let u := f32Sub t p.tz
    let sj := f32Mul s p.j
    let all := f32Add (f32Mul (f32Of 2) t1) t2
    if f32Lt u t1 then fin (f32Add p.vStop (half (f32Mul (f32Mul sj u) u))) (f32Mul sj u) sj
    else if f32Lt u (f32Add t1 t2) then
      fin (f32Add p.vStop (f32Mul s (f32Add (half (f32Mul apk t1)) (f32Mul apk (f32Sub u t1))))) (f32Mul s apk) 0
    else if f32Lt u all then
      let w := f32Sub all u
      fin (f32Sub p.vt (half (f32Mul (f32Mul sj w) w))) (f32Mul sj w) (f32Neg sj)
    else fin p.vt 0 0

/-- Curvature at local time `t`, and the ramp rate in force (R162, kap). -/
def VPrim.kap (p : VPrim) (t : Word) : Word × Word :=
  let rate := f32Mul (f32Sign (f32Sub p.kt p.k0)) p.kdot
  let r := f32Add p.k0 (f32Mul rate t)
  if f32Lt (f32Abs (f32Sub r p.k0)) (f32Abs (f32Sub p.kt p.k0)) then (r, rate) else (p.kt, 0)

/-- A chain of vehicle primitives with their start times in microseconds, and its end. -/
structure VChain where
  prims : List (Nat × VPrim)
  endUs : Nat

/-- The chain of a list of primitives: each starts at the end state of the one before (R168). -/
def vChain (img : Image) : List PrimRef → Nat → Word → Word → Word → List (Nat × VPrim) × Nat
  | [], at_, _, _, _ => ([], at_)
  | p :: r, at_, v, a, k =>
    let q := vPrim img p v a k
    let t := vChain img r (at_ + img.famDurationUs p.family) q.vt 0 q.kt
    ((at_, q) :: t.1, t.2)

/-- v, a, jerk, curvature and ramp rate at candidate time num/den microseconds: the active primitive's, or held beyond the
chain (R168). The local time is rounded once to FP32 seconds. -/
def VChain.profile (c : VChain) (num den : Nat) : Word × Word × Word × Word × Word :=
  match (c.prims.filter fun p => p.1 * den ≤ num).getLast? with
  | none => (0, 0, 0, 0, 0)
  | some (t0, p) =>
    if c.endUs * den ≤ num then (p.vt, 0, 0, p.kt, 0)
    else
      let t := secs (num - t0 * den) den
      let l := p.lon t
      let k := p.kap t
      (l.1, l.2.1, l.2.2, k.1, k.2)

/-- Position, heading and articulation during integration, FP32 (R163). -/
structure VPose where
  x : Word
  y : Word
  th : Word
  psi : List Word
deriving DecidableEq, Repr

/-- True when body `b` of the body model is on a hitch. -/
def isHitch (img : Image) (b : Nat) : Bool := decide (b < img.bodyCount) && img.bodyJointType b == 2

/-- dpsi of body `b` (R163). -/
def dpsi (img : Image) (p v k : Word) (b : Nat) : Word :=
  let l := f32Of (img.trailerLength b) 1000
  let e := qToF32 (-(img.bodyOffset b 0))
  f32Sub (f32Mul (f32Neg (f32Div v l)) (f32Add (Config.sinF32 p) (f32Mul (f32Mul e k) (Config.cosF32 p)))) (f32Mul v k)

/-- One midpoint substep of `h` seconds with v and kappa at its start and middle (R163). -/
def vStep (img : Image) (h : Word) (vk kk vm km : Word) (s : VPose) : VPose :=
  let h2 := f32Div h (f32Of 2)
  let thm := f32Add s.th (f32Mul (f32Mul h2 kk) vk)
  let psi := (List.range 3).map fun b =>
    let p := s.psi.getD b 0
    if isHitch img (b + 1) then
      let pm := f32Add p (f32Mul h2 (dpsi img p vk kk (b + 1)))
      f32Add p (f32Mul h (dpsi img pm vm km (b + 1)))
    else p
  { x := f32Add s.x (f32Mul (f32Mul h vm) (Config.cosF32 thm)), y := f32Add s.y (f32Mul (f32Mul h vm) (Config.sinF32 thm)),
    th := f32Add s.th (f32Mul (f32Mul h km) vm), psi }

/-- One sample interval, from sample `i` to the next (R163). -/
def vInterval (img : Image) (c : VChain) (i : Nat) (s : VPose) : VPose :=
  let n := img.substeps
  let h := secs img.sampleDtUs n
  (List.range n).foldl (fun s k =>
    let num := 2 * (i * n + k) * img.sampleDtUs
    let a := c.profile num (2 * n)
    let m := c.profile (num + img.sampleDtUs) (2 * n)
    vStep img h a.1 a.2.2.2.1 m.1 m.2.2.2.1 s) s

/-- The sample record of a vehicle pose (Table 6-7). -/
def vSample (z : Word) (p : Word × Word × Word × Word × Word) (s : VPose) : List Word :=
  let q := fun w => BitVec.ofInt 32 (f32ToQ w).v
  [q s.x, q s.y, z, s.th, p.1, p.2.1, p.2.2.1, p.2.2.2.1, p.2.2.2.2, s.psi.getD 0 0, s.psi.getD 1 0, s.psi.getD 2 0,
    0, 0, 0, 0]

/-- Samples of a vehicle chain from a pose (R169). -/
def vSamples (img : Image) (c : VChain) (z : Word) (s0 : VPose) : List (List Word) :=
  ((List.range img.samples).foldl (fun (r : List (List Word) × VPose) i =>
    (r.1 ++ [vSample z (c.profile (i * img.sampleDtUs) 1) r.2], vInterval img c i r.2)) ([], s0)).1

/-! ## Arm primitives -/

/-- An arm primitive per joint: q0, qd0, qdd0, delta q (R165). -/
structure AJoint where
  q : Word
  qd : Word
  qdd : Word
  dq : Word
deriving DecidableEq, Repr

/-- Limit d_j on |delta q| of a joint (R165), for a direction. -/
def armLimit (img : Image) (f j : Nat) (q qd qdd : Word) (positive : Bool) : Word :=
  let env := fun n => img.famEnv f (5 * j + n)
  let t := secs (img.famDurationUs f) 1
  let a := f32Abs qd
  let b := f32Abs qdd
  let t2 := f32Mul t t
  let t3 := f32Mul t2 t
  let vel := f32Div (f32Sub (f32Sub (env 2) a) (f32Mul (f32Mul (f32Of 68 1000) t) b)) (f32Div (f32Of 1875 1000) t)
  let acc := f32Div (f32Sub (f32Sub (env 3) (f32Mul (f32Div (f32Of 395 100) t) a)) b) (f32Div (f32Of 5774 1000) t2)
  let jrk := f32Div (f32Sub (f32Sub (env 4) (f32Mul (f32Div (f32Of 36) t2) a)) (f32Mul (f32Div (f32Of 9) t) b))
    (f32Div (f32Of 60) t3)
  let ov := f32Add (f32Mul (f32Mul (f32Of 198 1000) t) a) (f32Mul (f32Mul (f32Of 173 10000) t2) b)
  let pos := if positive then f32Sub (f32Sub (env 1) q) ov else f32Sub (f32Sub q (env 0)) ov
  f32Min (f32Min (f32Min vel acc) jrk) pos

/-- The arm primitive of a family with its fractions from a start per joint (R165). -/
def aPrim (img : Image) (p : PrimRef) (s : List (Word × Word × Word)) : List AJoint :=
  let raw := (List.range img.joints).map fun j =>
    (List.range (img.famParams p.family)).foldl (fun r k =>
      f32Add r (f32Mul (f32Sub (f32Mul (f32Of 2) (p.us.getD k 0)) (f32Of 1)) (f16ToF32 (img.famWeight p.family k j)))) 0
  let lims := (raw.zip s).zipIdx.filterMap fun x =>
    let r := x.1.1
    if f32Le (f32Abs r) 0 then none
    else some (f32Div (armLimit img p.family x.2 x.1.2.1 x.1.2.2.1 x.1.2.2.2 (f32Lt 0 r)) (f32Abs r))
  let sc := lims.foldl f32Min (f32Of 1)
  (raw.zip s).map fun x => { q := x.2.1, qd := x.2.2.1, qdd := x.2.2.2, dq := f32Mul sc x.1 }

/-- Position and velocity of a joint at local time `t` of a duration `d`, FP32; the velocity is clamped to V_MAX (R165). -/
def AJoint.at (a : AJoint) (t d vmax : Word) : Word × Word :=
  let x := f32Div t d
  let n := fun (k : Int) => f32Of k
  let x2 := f32Mul x x
  let x3 := f32Mul x2 x
  let x4 := f32Mul x3 x
  let x5 := f32Mul x4 x
  let m := f32Sub (n 1) x
  let m3 := f32Mul (f32Mul m m) m
  let h0 := f32Add (f32Sub (f32Mul (n 10) x3) (f32Mul (n 15) x4)) (f32Mul (n 6) x5)
  let h1 := f32Mul (f32Mul x m3) (f32Add (n 1) (f32Mul (n 3) x))
  let h2 := f32Div (f32Mul x2 m3) (n 2)
  let q := f32Add (f32Add (f32Add a.q (f32Mul a.dq h0)) (f32Mul (f32Mul a.qd d) h1)) (f32Mul (f32Mul a.qdd (f32Mul d d)) h2)
  let g0 := f32Add (f32Sub (f32Mul (n 30) x2) (f32Mul (n 60) x3)) (f32Mul (n 30) x4)
  let g1 := f32Sub (f32Add (f32Sub (n 1) (f32Mul (n 18) x2)) (f32Mul (n 32) x3)) (f32Mul (n 15) x4)
  let g2 := f32Div (f32Sub (f32Add (f32Sub (f32Mul (n 2) x) (f32Mul (n 9) x2)) (f32Mul (n 12) x3)) (f32Mul (n 5) x4)) (n 2)
  let qd := f32Add (f32Add (f32Div (f32Mul a.dq g0) d) (f32Mul a.qd g1)) (f32Mul (f32Mul a.qdd d) g2)
  (q, f32Clamp qd (f32Neg vmax) vmax)

/-- The chain of arm primitives with their start times and families, and its end. -/
def aChain (img : Image) : List PrimRef → Nat → List (Word × Word × Word) → List (Nat × Nat × List AJoint) × Nat
  | [], at_, _ => ([], at_)
  | p :: r, at_, s =>
    let a := aPrim img p s
    let t := aChain img r (at_ + img.famDurationUs p.family) (a.map fun x => (f32Add x.q x.dq, 0, 0))
    ((at_, p.family, a) :: t.1, t.2)

/-- The sample record of an arm at candidate time `us` (Table 6-7). -/
def aSample (img : Image) (c : List (Nat × Nat × List AJoint) × Nat) (us : Nat) : List Word :=
  let vals : List (Word × Word) := match (c.1.filter fun p => p.1 ≤ us).getLast? with
    | none => []
    | some (t0, f, js) =>
      if c.2 ≤ us then js.map fun a => (f32Add a.q a.dq, 0)
      else js.zipIdx.map fun x => x.1.at (secs (us - t0) 1) (secs (img.famDurationUs f) 1) (img.famEnv f (5 * x.2 + 2))
  (List.range 9).map (fun j => (vals.getD j (0, 0)).1) ++ (List.range 7).map fun j => (vals.getD j (0, 0)).2

/-! ## Candidates -/

/-- An expanded candidate: its ID, FLAGS and samples (Table 6-6). -/
structure Cand where
  id : Nat
  flags : Nat
  chain : List PrimRef
  traj : Traj
deriving DecidableEq, Repr

/-- Total duration of a chain. -/
def chainUs (img : Image) (c : List PrimRef) : Nat := c.foldl (fun n p => n + img.famDurationUs p.family) 0

/-- ARTICULATION of a sample (R164). -/
def articulated (img : Image) (w : List Word) : Bool :=
  img.kind == 0 && (List.range 3).any fun b => isHitch img (b + 1) && f32Lt img.hitchMax (f32Abs (w.getD (9 + b) 0))

/-- Expansion of a chain from a start state of 120 bytes that is sample 0 of the candidate, at `t0` ns from the frame
start (R168 to R171). -/
def expand (img : Image) (id extra : Nat) (chain : List PrimRef) (st : List Byte) (t0 : Int) : Cand :=
  let w := fun o => stWord st o
  let samples :=
    if img.kind = 0 then
      let c := vChain img chain 0 (w 28) (w 32) (w 36)
      vSamples img { prims := c.1, endUs := c.2 } (w 20)
        { x := qToF32 (w 12).toInt, y := qToF32 (w 16).toInt, th := w 24, psi := [w 40, w 44, w 48] }
    else
      let s := (List.range img.joints).map fun j => (w (12 + 12 * j), w (16 + 12 * j), w (20 + 12 * j))
      let c := aChain img chain 0 s
      (List.range img.samples).map fun i => aSample img c (i * img.sampleDtUs)
  let hold := decide (chainUs img chain < (img.samples - 1) * img.sampleDtUs)
  let art := samples.any (articulated img)
  { id, flags := extra + (if art then 8 else 0) + (if hold then 16 else 0), chain,
    traj := { t0, dtNs := 1000 * img.sampleDtUs, samples } }

/-! ## Candidate IDs (R172 to R174) -/

/-- The position set at a chain position: family and lattice index, in order (R173). -/
def positionSize (img : Image) (j : Nat) : Nat :=
  ((List.range img.familyCount).filter fun f => bitOf (img.famPositions f) j).foldl (fun n f =>
    n + img.famSteps f 0 * img.famSteps f 1 * img.famSteps f 2) 0

/-- The primitive of position index `r` at a chain position. -/
def positionPrim (img : Image) (j r : Nat) : PrimRef :=
  let go := ((List.range img.familyCount).filter fun f => bitOf (img.famPositions f) j).foldl
    (fun (a : Nat × Option PrimRef) f =>
      let n0 := img.famSteps f 0
      let n1 := img.famSteps f 1
      let n2 := img.famSteps f 2
      match a.2 with
      | some _ => a
      | none =>
        if a.1 < n0 * n1 * n2 then
          (0, some { family := f, us := [latticeU (a.1 % n0) n0, latticeU (a.1 / n0 % n1) n1, latticeU (a.1 / (n0 * n1)) n2] })
        else (a.1 - n0 * n1 * n2, none)) (r, none)
  go.2.getD { family := 0, us := [] }

/-- Number of library candidates of an epoch (R173). -/
def libraryCount (img : Image) : Nat :=
  min img.enumLimit ((List.range img.chainLen).foldl (fun n j => n * positionSize img j) 1)

/-- Position index r_0 of a library rank. -/
def rankFirst (img : Image) (r : Nat) : Nat :=
  r / ((List.range (img.chainLen - 1)).foldl (fun n j => n * positionSize img (j + 1)) 1)

/-- The chain of a library rank (R173). -/
def libraryChain (img : Image) (r : Nat) : List PrimRef :=
  ((List.range img.chainLen).foldr (fun j (a : Nat × List PrimRef) =>
    let n := positionSize img j
    (a.1 / n, positionPrim img j (a.1 % n) :: a.2)) (r, [])).2

/-- The chain of a seed record of 32 bytes; none where the seed is discarded (R174). -/
def seedChain (img : Image) (b : List Byte) : Option (List PrimRef) :=
  let n := ((List.range 4).find? fun j => byteAt b (8 * j) == 0xFF).getD 4
  let n := min n img.chainLen
  let prims := (List.range n).map fun j =>
    let f := byteAt b (8 * j)
    let ok := decide (f < img.familyCount) && bitOf (img.famPositions f) j
    let us := (List.range 3).map fun p => f16ToF32 (u16 b (8 * j + 2 + 2 * p))
    let nan := (List.range (img.famParams f)).any fun p => decide (f32 (us.getD p 0) = .nan)
    (ok && !nan, { family := f, us := us.map fun u => f32Clamp u 0 (f32Of 1) : PrimRef })
  if n = 0 ∨ !(prims.all (·.1)) then none else some (prims.map (·.2))

/-! ## Roadmap paths (R238) -/

/-- A position word moved by the ledger shift, exactly in Q16.16. -/
def unshift (img : Image) (w : Word) (s : Int) : Word := BitVec.ofInt 32 (w.toInt - s * img.cellSize)

/-- Samples of a roadmap path: each edge a primitive started from the state of its FROM node, positions converted from the
index frame to the grid frame (R238). -/
def expandPath (img : Image) (b : List Byte) (shift : Int × Int × Int) (p : PathRec) (t0 : Int) : Cand :=
  let chain := p.edges.map fun e =>
    ({ family := Road.edgeFamily b e, us := (List.range 3).map fun k => f16ToF32 (Road.edgeU b e k) } : PrimRef)
  let starts := (p.edges.zip chain).foldl (fun (a : List Nat × Nat) x => (a.1 ++ [a.2], a.2 + img.famDurationUs x.2.family)) ([], 0)
  let nw := fun n j => Road.nodeWord b n j
  let samples :=
    if img.kind = 0 then
      let prims := (p.edges.zip (chain.zip starts.1)).map fun x =>
        let f := Road.edgeFrom b x.1
        (x.2.2, vPrim img x.2.1 (nw f 4) 0 (nw f 5))
      let raw := vSamples img { prims, endUs := starts.2 } (nw p.entry 2)
        { x := qToF32 (nw p.entry 0).toInt, y := qToF32 (nw p.entry 1).toInt, th := nw p.entry 3, psi := [0, 0, 0] }
      raw.map fun w => (w.zipIdx).map fun x =>
        if x.2 = 0 then unshift img x.1 shift.1 else if x.2 = 1 then unshift img x.1 shift.2.1
        else if x.2 = 2 then unshift img x.1 shift.2.2 else x.1
    else
      let c := (p.edges.zip (chain.zip starts.1)).map fun x =>
        let f := Road.edgeFrom b x.1
        (x.2.2, x.2.1.family, aPrim img x.2.1 ((List.range img.joints).map fun j => (nw f j, 0, 0)))
      (List.range img.samples).map fun i => aSample img (c, starts.2) (i * img.sampleDtUs)
  let hold := decide (starts.2 < (img.samples - 1) * img.sampleDtUs)
  let art := samples.any (articulated img)
  { id := 0x80000000 + p.node, flags := (if art then 8 else 0) + (if hold then 16 else 0), chain,
    traj := { t0, dtNs := 1000 * img.sampleDtUs, samples } }

end Sys2Proof.Machine
end

