-- ==== Sys2Proof/Machine/Lanes.lean ====
section
/-! DEFINITION. The checker lanes (chapter 7): body poses (R188), queries (R189 to R194), the sequential definition of a
sweep (R196 to R201), the footprint (R202, R203) and the final sweep (R210, R212). -/

namespace Sys2Proof.Machine

/-! ## Poses (R179, R188) -/

/-- A pose: origin and rotation matrix, row by row, in Q16.16 with the saturation flag. -/
structure Pose where
  o : List Q
  r : List Q
deriving DecidableEq, Repr

/-- Entry of a vector of Q16.16 values. -/
def qv (l : List Q) (i : Nat) : Q := l.getD i ⟨0, false⟩

/-- Row `i` of a rotation times a vector: products and sums in ascending index. -/
def qDot (r : List Q) (i : Nat) (v : List Q) : Q :=
  Q.op qAdd (Q.op qAdd (Q.op qMul (qv r (3 * i)) (qv v 0)) (Q.op qMul (qv r (3 * i + 1)) (qv v 1)))
    (Q.op qMul (qv r (3 * i + 2)) (qv v 2))

/-- A local point in the frame the pose stands in. -/
def Pose.apply (p : Pose) (v : List Q) : List Q := (List.range 3).map fun i => Q.op qAdd (qv p.o i) (qDot p.r i v)

/-- Product of two rotations. -/
def qMat (a b : List Q) : List Q :=
  (List.range 9).map fun n => qDot a (n / 3) [qv b (n % 3), qv b (3 + n % 3), qv b (6 + n % 3)]

/-- Rotation about axis 0 x, 1 y or 2 z by an FP32 angle, sine and cosine converted to Q16.16 (R188). -/
def rotation (axis : Nat) (angle : Word) : List Q :=
  let c := f32ToQ (Config.cosF32 angle)
  let s := f32ToQ (Config.sinF32 angle)
  let n := Q.op qSub (Q.of 0) s
  let z := Q.of 0
  let u := Q.of 65536
  match axis with
  | 0 => [u, z, z, z, c, n, z, s, c]
  | 1 => [c, z, s, z, u, z, n, z, c]
  | _ => [c, n, z, s, c, z, z, z, u]

/-- The pose of body 0 (R179). -/
def rootPose (img : Image) (w : List Word) : Pose :=
  let d := fun i => w.getD i 0
  if img.kind = 0 then
    { o := [Q.of (d 0).toInt, Q.of (d 1).toInt, Q.of (d 2).toInt], r := rotation 2 (d 3) }
  else { o := [Q.of 0, Q.of 0, Q.of 0], r := [Q.of 65536, Q.of 0, Q.of 0, Q.of 0, Q.of 65536, Q.of 0, Q.of 0, Q.of 0, Q.of 65536] }

/-- The pose of body `b` from its parent's (R179). -/
def childPose (img : Image) (w : List Word) (b : Nat) (parent : Pose) : Pose :=
  let o := parent.apply ((List.range 3).map fun a => Q.of (img.bodyOffset b a))
  let q := w.getD (img.bodyJoint b) 0
  match img.bodyJointType b with
  | 2 => { o, r := qMat parent.r (rotation 2 (w.getD (8 + b) 0)) }
  | 3 => { o, r := qMat parent.r (rotation 2 q) }
  | 4 => { o, r := qMat parent.r (rotation 1 q) }
  | 5 => { o, r := qMat parent.r (rotation 0 q) }
  | 6 =>
    let t := f32ToQ q
    { o := (List.range 3).map fun i => Q.op qAdd (qv o i) (Q.op qMul (qv parent.r (3 * i + 2)) t), r := parent.r }
  | _ => { o, r := parent.r }

/-- Poses of all bodies, in index order: a parent stands before its children. -/
def poses (img : Image) (w : List Word) : List Pose :=
  (List.range img.bodyCount).foldl (fun (ps : List Pose) b =>
    ps ++ [if b = 0 then rootPose img w else childPose img w b (ps.getD (img.bodyParent b) (rootPose img w))]) []

/-- True when a pose holds a saturated value. -/
def Pose.sat (p : Pose) : Bool := p.o.any (·.sat) || p.r.any (·.sat)

/-! ## Bounding spheres (R187) -/

/-- Smallest natural number whose square is at least `n`. -/
def sqrtUp (n : Nat) : Nat := if Nat.sqrt n * Nat.sqrt n = n then Nat.sqrt n else Nat.sqrt n + 1

/-- Centre of the bounding sphere of a body along an axis. -/
def boundCentre (img : Image) (b axis : Nat) : Int :=
  let ks := List.range (img.bodySpheres b)
  let lo := ks.map fun k => img.sphere b k axis - img.sphere b k 3
  let hi := ks.map fun k => img.sphere b k axis + img.sphere b k 3
  match lo, hi with
  | l :: ls, h :: hs => Int.fdiv (ls.foldl min l + hs.foldl max h) 2
  | _, _ => 0

/-- Radius of the bounding sphere of a body, distances rounded up to 2^-16 m. -/
def boundRadius (img : Image) (b : Nat) : Int :=
  (List.range (img.bodySpheres b)).foldl (fun r k =>
    let d2 := (List.range 3).foldl (fun n a => n + (img.sphere b k a - boundCentre img b a) ^ 2) 0
    max r ((sqrtUp d2.toNat : Int) + img.sphere b k 3)) 0

/-- PAD (R188). -/
def pad : Int := 16

/-- h of R190: half the cell diagonal over the axes with more than one cell, rounded up to 2^-16 m. -/
def halfDiag (img : Image) : Int :=
  let q := ((List.range 3).filter fun a => img.cellsAlong a > 1).length
  ceilDiv (sqrtUp (q * img.cellSize ^ 2)) 2

/-! ## Queries -/

/-- What the lanes read: the snapshot, which of its panels are final, the poisoned panels, and the frame-relative time of
each sample. -/
structure LaneCtx where
  img : Image
  snap : List (Nat × Nat)
  /-- Final panels; none where every panel counts as final. -/
  final : Option (List (Nat × Nat))
  poisoned : List (Nat × Nat)
  traj : Traj

/-- The result of one query (R190 to R194). -/
structure QRes where
  /-- Its panels are final. -/
  ready : Bool
  c : Int
  sat : Bool
  pass : Bool
  pred : Bool
  capped : Bool
  offGrid : Bool
  poisonedRead : Bool
  keys : List Nat
  /-- The cell it fell in. -/
  cell : Option (Nat × Nat × Nat)
deriving DecidableEq, Repr

/-- Index of a point along an axis (R189). -/
def cellIdx (img : Image) (axis : Nat) (p : Int) : Int :=
  if axis = 2 ∧ img.cellsAlong 2 = 1 then 0 else Int.fdiv (p - img.gridOrigin axis) img.cellSize

/-- The cell of a point; none outside the grid (R189). -/
def cellOf (img : Image) (p : List Q) : Option (Nat × Nat × Nat) :=
  let x := cellIdx img 0 (qv p 0).v
  let y := cellIdx img 1 (qv p 1).v
  let z := cellIdx img 2 (qv p 2).v
  if 0 ≤ x ∧ x < img.cellsAlong 0 ∧ 0 ≤ y ∧ y < img.cellsAlong 1 ∧ 0 ≤ z ∧ z < img.cellsAlong 2 then
    some (x.toNat, y.toNat, z.toNat)
  else none

/-- Predicted slices j0 and j1 of a sample at `t` ns, and PRED_BEYOND (R193). -/
def predSlices (img : Image) (l : Nat) (t : Int) : Nat × Nat × Bool :=
  let d : Int := 1000 * img.sliceIntervalUs l
  let n := img.slices l
  if t ≤ 0 then (0, 0, false)
  else if ((n : Int) - 1) * d ≤ t then (n - 1, n - 1, decide (((n : Int) - 1) * d < t))
  else
    let j := (t / d).toNat
    if t % d = 0 then (j, j, false) else (j, j + 1, false)

/-- Footprint key of a panel (R202). -/
def panelKey (l p : Nat) : Nat := l * 65536 + p

/-- Bits a key sets in a 256-bit signature (R202). -/
def keyBits (x : Nat) : Nat × Nat := let h := x * 0x9E3779B1 % 2 ^ 32; (h / 2 ^ 24, h / 2 ^ 16 % 256)

/-- A 256-bit signature with a key entered. -/
def bloom (f x : Nat) : Nat := let b := keyBits x; f ||| 2 ^ b.1 ||| 2 ^ b.2

/-- A query at centre `p` with padded radius `r` at sample time `t` (R189 to R194). -/
def query (cx : LaneCtx) (p : List Q) (r : Q) (t : Int) : QRes :=
  let img := cx.img
  let dl := img.distLayer
  let pl := img.lanePred
  let cell := cellOf img p
  let panel := cell.map fun c => panelOf img c.1 c.2.1 c.2.2
  let bad := fun l => match panel with
    | some n => cx.poisoned.contains (l, n)
    | none => false
  let fin := fun l => match panel, cx.final with
    | some n, some f => f.contains (l, n)
    | _, _ => true
  let d := match cell with
    | some c => if bad dl then 0 else cellAt img cx.snap dl 0 c.1 c.2.1 c.2.2
    | none => if bitOf (img.layerFlags dl) 1 then dcap img dl else 0
  let c := Q.op qSub (Q.op qSub (qSat ((d : Int) * img.quantum dl)) (Q.of (2 * halfDiag img))) r
  let sl := predSlices img pl t
  let occ := fun j => match cell with
    | some k => if bad pl then true
      else
        let v := cellAt img cx.snap pl j k.1 k.2.1 k.2.2
        v == 1 || (v == 2 && img.laneUnknownOcc)
    | none => img.laneUnknownOcc
  let pred := decide (pl ≠ 0xFF) && (occ sl.1 || occ sl.2.1)
  let sat := c.sat || p.any (·.sat) || r.sat
  { ready := fin dl && (pl == 0xFF || fin pl)
    c := c.v, sat, pred
    pass := !sat && decide (img.clearance ≤ c.v) && !pred
    capped := d == dcap img dl
    offGrid := cell.isNone
    poisonedRead := bad dl || (decide (pl ≠ 0xFF) && bad pl)
    keys := match panel with
      | some n => panelKey dl n :: (if pl = 0xFF then [] else [panelKey pl n])
      | none => []
    cell }

/-- The cost cell of a LAYER term at a bounding centre, as FP32 (R200, R191, R192), with whether its panel is final and
its footprint key. -/
def costRead (cx : LaneCtx) (l : Nat) (cell : Option (Nat × Nat × Nat)) : Bool × Word × List Nat × Bool :=
  let img := cx.img
  let conv := fun v => match img.layerType l with
    | 2 => f32Mul (f32Of (signed 8 v)) (BitVec.ofNat 32 (img.quantum l))
    | 3 => f16ToF32 v
    | _ => f16ToF32 (img.classCost v)
  match cell with
  | none => (true, conv (img.layerInit l % 2 ^ Image.cellBits (img.layerType l)), [], false)
  | some c =>
    let p := panelOf img c.1 c.2.1 c.2.2
    let fin := match cx.final with
      | some f => f.contains (l, p)
      | none => true
    if cx.poisoned.contains (l, p) then (fin, f32Inf false, [panelKey l p], true)
    else (fin, conv (cellAt img cx.snap l 0 c.1 c.2.1 c.2.2), [panelKey l p], false)

/-! ## One candidate's sweep -/

/-- Largest clearance: no query yet. -/
def noClear : Int := 0x7FFFFFFF

/-- The running values of R196. -/
structure Sweep where
  minc : Int := noClear
  mincSample : Nat := 0xFF
  /-- Hit sample, and body and sphere or 0xFF. -/
  hit : Option (Nat × Nat) := none
  queries : Nat := 0
  /-- Sweep flags, bits 15..8 of FLAGS. -/
  flags : Nat := 0
  terms : List Word := [0, 0, 0, 0]
  footprint : Nat := 0
  ready : Bool := true
deriving DecidableEq, Repr

/-- The sweep with a flag of Table 7-5 set. -/
def Sweep.flag (s : Sweep) (b : Nat) (c : Bool := true) : Sweep := if c then { s with flags := s.flags ||| 2 ^ b } else s

/-- The sweep with a query's reads entered: count, footprint and read flags. -/
def Sweep.read (s : Sweep) (q : QRes) : Sweep :=
  (({ s with queries := s.queries + 1, footprint := q.keys.foldl bloom s.footprint, ready := s.ready && q.ready }.flag 10 q.offGrid).flag 11
    q.poisonedRead)

/-- Clearance of a query counted into a running minimum, a saturating query contributing nothing (R198); CAPPED (R199). -/
def Sweep.count (s : Sweep) (q : QRes) (ci : Int) : Sweep × Int :=
  if q.sat then (s, ci) else (s.flag 8 q.capped, min ci q.c)

/-- A sphere's centre in the roadmap frame. -/
def sphereAt (img : Image) (p : Pose) (b k : Nat) : List Q := p.apply ((List.range 3).map fun a => Q.of (img.sphere b k a))

/-- The sphere queries of a body whose bounding query failed, up to a failing one (R196). -/
def sweepSpheres (cx : LaneCtx) (p : Pose) (b i : Nat) (t : Int) (s : Sweep) (ci : Int) : Sweep × Int :=
  (List.range (cx.img.bodySpheres b)).foldl (fun (a : Sweep × Int) k =>
    if a.1.hit.isSome then a
    else
      let q := query cx (sphereAt cx.img p b k) (qSat (cx.img.sphere b k 3 + pad)) t
      let r := (a.1.read q).count q a.2
      if q.sat then ({ r.1 with hit := some (i, 0xFF) }.flag 12, r.2)
      else if q.pass then r
      else ({ r.1 with hit := some (i, 32 * b + k) }.flag 14 q.pred, r.2)) (s, ci)

/-- v_t of the terms at a sample without a hit (R200). -/
def sampleTerms (cx : LaneCtx) (w : List Word) (cells : List (Option (Nat × Nat × Nat))) (ci : Int) (s : Sweep) : Sweep :=
  (List.range cx.img.termCount).foldl (fun s t =>
    let add := fun (s : Sweep) v => { s with terms := s.terms.set t (f32Add (s.terms.getD t 0) v) }
    match cx.img.termKind t with
    | 1 =>
      let r := costRead cx (cx.img.termLayer t) (cells.getD (cx.img.termBody t) none)
      add ({ s with footprint := r.2.2.1.foldl bloom s.footprint, ready := s.ready && r.1 }.flag 11 r.2.2.2) r.2.1
    | 2 => add s (if ci = noClear then 0 else qToF32 (max 0 (qSub (cx.img.termSoft t) ci).v))
    | 3 => add s (f32Abs (w.getD 6 0))
    | _ => s) s

/-- One sample of a sweep (R196 to R200). -/
def sweepSample (cx : LaneCtx) (i : Nat) (w : List Word) (s : Sweep) : Sweep :=
  let t := cx.traj.t0 + i * cx.traj.dtNs
  if s.hit.isSome then s
  else if articulated cx.img w then { s with hit := some (i, 0xFF) }.flag 13
  else
    let ps := poses cx.img w
    if ps.any Pose.sat then { s with hit := some (i, 0xFF) }.flag 12
    else
      let bs := List.range cx.img.bodyCount
      let qb := bs.map fun b =>
        query cx ((ps.getD b (rootPose cx.img w)).apply ((List.range 3).map fun a => Q.of (boundCentre cx.img b a)))
          (qSat (boundRadius cx.img b + pad)) t
      let s := qb.foldl Sweep.read s
      let s := s.flag 9 (decide (cx.img.lanePred ≠ 0xFF) && (predSlices cx.img cx.img.lanePred t).2.2)
      let s := if qb.any (·.sat) then { s with hit := some (i, 0xFF) }.flag 12 else s
      let r := (bs.zip qb).foldl (fun (a : Sweep × Int) x =>
        if a.1.hit.isSome then a
        else if x.2.pass then a.1.count x.2 a.2
        else sweepSpheres cx (ps.getD x.1 (rootPose cx.img w)) x.1 i t a.1 a.2) (s, noClear)
      let s := if r.2 < r.1.minc then { r.1 with minc := r.2, mincSample := i } else r.1
      if s.hit.isSome then s else sampleTerms cx w (qb.map (·.cell)) r.2 s

/-- The score (R201), `learned` giving s_t of LEARNED terms. -/
def scoreOf (img : Image) (terms : List Word) : Word :=
  (List.range img.termCount).foldl (fun a t => f32Add a (f32Mul (img.termWeight t) (terms.getD t 0))) 0

/-- The sweep of a candidate: its result record, and whether every panel read was final (R196 to R204). `score` overrides
the score of a record without a hit, for roadmap paths (R239). -/
def sweepCand (cx : LaneCtx) (c : Cand) (learned : Word) (score : Option Word) : SweepRec × Bool :=
  let s := (c.traj.samples.zipIdx).foldl (fun s x => sweepSample cx x.2 x.1 s) ({} : Sweep)
  let terms := (List.range 4).map fun t => if cx.img.termKind t = 4 ∧ t < cx.img.termCount then learned else s.terms.getD t 0
  let hit := s.hit.isSome
  let s := s.flag 15 hit
  let zero := [0, 0, 0, 0]
  ({ id := c.id, flags := c.flags + s.flags
     hitSample := (s.hit.map (·.1)).getD 0xFF, hitSphere := (s.hit.map (·.2)).getD 0xFF
     mincSample := s.mincSample
     score := if hit then f32Inf false else match score with
       | some x => x
       | none => scoreOf cx.img terms
     minc := s.minc, queries := s.queries % 65536
     terms := if hit ∨ score.isSome then zero else terms
     footprint := s.footprint }, s.ready)

/-! ## The final sweep (R210, R212) -/

/-- One sample of the final sweep: every sphere of every body, no early-out. -/
def finalSample (cx : LaneCtx) (i : Nat) (w : List Word) (s : Sweep) : Sweep :=
  let t := cx.traj.t0 + i * cx.traj.dtNs
  let s := s.flag 13 (articulated cx.img w)
  let ps := poses cx.img w
  let s := s.flag 12 (ps.any Pose.sat)
  (List.range cx.img.bodyCount).foldl (fun s b =>
    (List.range (cx.img.bodySpheres b)).foldl (fun s k =>
      let q := query cx (sphereAt cx.img (ps.getD b (rootPose cx.img w)) b k) (qSat (cx.img.sphere b k 3 + pad)) t
      let r := (s.read q).count q s.minc
      (({ r.1 with minc := r.2 }.flag 12 q.sat).flag 14 q.pred).flag 15 (!q.pass)) s) s

/-- The final sweep of a trajectory: FINAL_CLEARANCE, the flags of R212 and the query count. -/
def finalSweepOf (cx : LaneCtx) : FinalSweep :=
  let s := (cx.traj.samples.zipIdx).foldl (fun s x => finalSample cx x.2 x.1 s) ({} : Sweep)
  let s := s.flag 15 (bitOf s.flags 12 || bitOf s.flags 13)
  { clearance := s.minc, flags := s.flags - (if bitOf s.flags 9 then 2 ^ 9 else 0), queries := s.queries }

/-- Bytes of a sweep result record (Table 7-4). -/
def SweepRec.bytes (r : SweepRec) : List Byte :=
  leBytes r.id 4 ++ leBytes r.flags 2 ++ leBytes r.hitSample 1 ++ leBytes r.hitSphere 1 ++ leBytes r.mincSample 1 ++
  leBytes 0 3 ++ leBytes r.score.toNat 4 ++ leBytes (pattern 32 r.minc) 4 ++ leBytes r.queries 2 ++ leBytes 0 2 ++
  r.terms.flatMap (fun w => leBytes w.toNat 4) ++ leBytes r.footprint 32 ++ leBytes 0 8

end Sys2Proof.Machine
end

