-- ==== Sys2Proof/Machine/LedgerOps.lean ====
section
/-! DEFINITION. The Edge Ledger's operations (chapter 8): the ledger view and its transitions (R220, R221), record updates
and publication (R222), the rebuild (R228), and the roadmap search (R230 to R237). -/

namespace Sys2Proof.Machine

/-- Sum of two shifts. -/
def addShift (a b : Int × Int × Int) : Int × Int × Int := (a.1 + b.1, a.2.1 + b.2.1, a.2.2 + b.2.2)

/-! ## The ledger view -/

/-- The roadmap of the running image, where its stage graph has the ledger stage. -/
def State.roadmap (s : State) : Option (List Byte) := match s.cfg.image with
  | some img => if img.hasStage 5 then some (s.bulk 0xA) else none
  | none => none

/-- Occupancy (false) or cost (true) layer. -/
def viewLayer (b : List Byte) (cost : Bool) : Nat := if cost then Road.costLayer b else Road.ledgerLayer b

/-- The ledger view of the index cell at (x, y, z) in a snapshot under a shift (R220). -/
def ledgerView (img : Image) (b : List Byte) (m : Snap) (poisoned : List (Nat × Nat)) (sh : Int × Int × Int) (cost : Bool)
    (x y z : Nat) : Nat :=
  let l := viewLayer b cost
  let gx : Int := x - sh.1
  let gy : Int := y - sh.2.1
  let gz : Int := z - sh.2.2
  if 0 ≤ gx ∧ gx < img.cellsAlong 0 ∧ 0 ≤ gy ∧ gy < img.cellsAlong 1 ∧ 0 ≤ gz ∧ gz < img.cellsAlong 2 then
    if !cost ∧ poisoned.contains (l, panelOf img gx.toNat gy.toNat gz.toNat) then 1
    else cellAt img m l 0 gx.toNat gy.toNat gz.toNat
  else if cost then img.layerInit l % 256 else 2

/-- CELL of an index cell: index panel ID * 4,096 + cell index (R221). -/
def cellNumber (img : Image) (x y z : Nat) : Nat :=
  4096 * panelOf img x y z + (x % img.edge 0 + img.edge 0 * (y % img.edge 1 + img.edge 1 * (z % img.edge 2)))

/-- The kinds of transition the roadmap has: occupancy, and cost where it has a cost layer. -/
def viewKinds (b : List Byte) : List Bool := if Road.costLayer b = 0xFF then [false] else [false, true]

/-- What a ledger view is read from: a snapshot, its poisoned panels, and the ledger shift. -/
structure ViewOf where
  snap : Snap
  poisoned : List (Nat × Nat)
  shift : Int × Int × Int

/-- The transition of one index cell and kind between two views; none where they agree. -/
def cellTrans (img : Image) (b : List Byte) (e : Epoch) (before after : ViewOf) (cost : Bool) (c : Nat × Nat × Nat) : Option Trans :=
  let o := ledgerView img b before.snap before.poisoned before.shift cost c.1 c.2.1 c.2.2
  let n := ledgerView img b after.snap after.poisoned after.shift cost c.1 c.2.1 c.2.2
  if o = n then none else some { epoch := e, cell := cellNumber img c.1 c.2.1 c.2.2, cost, old := o, new := n }

/-- Transitions in ascending CELL, occupancy before cost (R221). -/
def sortTrans (t : List Trans) : List Trans :=
  t.mergeSort fun a b => decide (a.cell < b.cell) || (a.cell == b.cell && (!a.cost || b.cost))

/-- Every index cell of the grid. -/
def indexCells (img : Image) : List (Nat × Nat × Nat) :=
  (List.range (img.cellsAlong 2)).flatMap fun z => (List.range (img.cellsAlong 1)).flatMap fun y =>
    (List.range (img.cellsAlong 0)).map fun x => (x, y, z)

/-- Transitions that a final panel of a layer releases: the index cells its cells map to, in the ledger's layers. -/
def panelTrans (img : Image) (b : List Byte) (e : Epoch) (before after : ViewOf) (l p : Nat) : List Trans :=
  sortTrans ((viewKinds b).flatMap fun cost =>
    if viewLayer b cost ≠ l then [] else
      (panelCells img p).filterMap fun c =>
        let x : Int := c.1 + after.shift.1
        let y : Int := c.2.1 + after.shift.2.1
        let z : Int := c.2.2 + after.shift.2.2
        if 0 ≤ x ∧ x < img.cellsAlong 0 ∧ 0 ≤ y ∧ y < img.cellsAlong 1 ∧ 0 ≤ z ∧ z < img.cellsAlong 2 then
          cellTrans img b e before after cost (x.toNat, y.toNat, z.toNat)
        else none)

/-- Transitions of the index cells whose grid image left the grid (R226). -/
def leaveTrans (img : Image) (b : List Byte) (e : Epoch) (before : ViewOf) (sh : Int × Int × Int) : List Trans :=
  sortTrans ((viewKinds b).flatMap fun cost => (indexCells img).filterMap fun c =>
    let inside := fun (s : Int × Int × Int) =>
      decide (0 ≤ (c.1 : Int) - s.1 ∧ (c.1 : Int) - s.1 < img.cellsAlong 0 ∧ 0 ≤ (c.2.1 : Int) - s.2.1 ∧
        (c.2.1 : Int) - s.2.1 < img.cellsAlong 1 ∧ 0 ≤ (c.2.2 : Int) - s.2.2 ∧ (c.2.2 : Int) - s.2.2 < img.cellsAlong 2)
    if inside before.shift && !inside sh then cellTrans img b e before { snap := [], poisoned := [], shift := sh } cost c else none)

/-- Transitions enter the queue of 16,777,216 entries; an overflow discards it and schedules a rebuild (R224). -/
def queueTrans (s : State) (t : List Trans) : State :=
  let q := s.ledger.queue ++ t
  if 16777216 < q.length then
    let s := s.set Reg.LEDGER_STATUS.REBUILD_PENDING 1
    (s.set Reg.LEDGER_QUEUE_DEPTH.DEPTH 0 : State) |> fun s => { s with ledger := { s.ledger with queue := [], rebuild := 6 } }
  else
    { s.set Reg.LEDGER_QUEUE_DEPTH.DEPTH q.length with ledger := { s.ledger with queue := q } }

/-! ## Records -/

/-- Checker record of an edge. -/
def edgeRec (r : List (Nat × LRec)) (e : Nat) : LRec := sGet {} e r

/-- One update of a record by a transition (R222). -/
def updateRec (t : Trans) (r : LRec) : LRec :=
  if t.cost then { r with dyn := pattern 32 ((r.dyn : Int) + signed 8 t.new - signed 8 t.old) }
  else
    let r := if t.old = 1 then { r with blocked := r.blocked - 1 } else if t.old = 2 then { r with unknown := r.unknown - 1 } else r
    if t.new = 1 then { r with blocked := r.blocked + 1 } else if t.new = 2 then { r with unknown := r.unknown + 1 } else r

/-- A set of numbers as an ascending list with a member entered. -/
def setAdd (n : Nat) : List Nat → List Nat
  | [] => [n]
  | m :: r => if n < m then n :: m :: r else if n = m then m :: r else m :: setAdd n r

/-- A transition applied to every edge of its cell's list (R222). -/
def applyTrans (ix : List Byte) (t : Trans) (l : LedgerSt) : LedgerSt :=
  let es := indexList ix t.cell
  { es.foldl (fun (l : LedgerSt) e =>
      { l with recs := sSet {} e (updateRec t (edgeRec l.recs e)) l.recs, touched := setAdd e l.touched }) l with
    updates := l.updates + es.length, applied := l.applied + 1 }

/-- Published fields of a record at its close (R222). -/
def publishRec (b : List Byte) (quantum : Word) (e : Nat) (r : LRec) : LRec :=
  let sum := f32Add (f16ToF32 (Road.staticCost b e)) (f32Mul (f32Of (signed 32 r.dyn)) quantum)
  let eff := f32ToF16 (f32Max 0 sum)
  { r with generation := (r.generation + 1) % 65536, eff, sat := eff == 0x7C00
           state := if 0 < r.blocked then 1 else if 0 < r.unknown then 2 else 0 }

/-- QUANTUM of the cost layer, FP32; 0 without one. -/
def costQuantum (img : Image) (b : List Byte) : Word :=
  if Road.costLayer b = 0xFF then 0 else BitVec.ofNat 32 (img.quantum (Road.costLayer b))

/-- Number of records published as STALE. -/
def staleCount (r : List (Nat × LRec)) : Nat := (r.filter fun e => e.2.state == 3).length

/-- Records touched on the busiest of the 256 checkers (R225). -/
def busiest (t : List Nat) : Nat := (List.range 256).foldl (fun m c => max m (t.filter fun e => e % 256 == c).length) 0

/-- The close of an epoch (R222, R223): every touched record is published, and the touch set kept. A record published as STALE
stays so until a rebuild closes (R229). -/
def closeLedger (s : State) (img : Image) (b : List Byte) (e : Epoch) (all : Bool) : State :=
  let l := s.ledger
  let touched := if all then List.range (Road.edgeCount b) else l.touched
  let q := costQuantum img b
  let publish := fun (i : Nat) (r : LRec) => let p := publishRec b q i r
    if r.state = 3 ∧ !all then { p with state := 3 } else p
  let recs := touched.foldl (fun r i => sSet {} i (publish i (edgeRec r i)) r) l.recs
  let s := (s.set Reg.LEDGER_CLOSED_EPOCH.EPOCH e.toNat).set Reg.LEDGER_TRANSITIONS.TRANSITIONS l.applied
  let s := (s.set Reg.LEDGER_UPDATES.UPDATES (min l.updates 0xFFFFFFFF)).set Reg.LEDGER_TOUCHED.TOUCHED touched.length
  let s := s.set Reg.LEDGER_APPLY_CYCLES.CYCLES (ceilDiv (7 * l.updates) (8 * 256) + 256 + ceilDiv (7 * busiest touched) 8)
  let n := staleCount recs
  let s := (s.set Reg.LEDGER_STALE_RECORDS.STALE n).set Reg.LEDGER_STATUS.STALE_PRESENT (bit (n ≠ 0))
  let s := s.set Reg.LEDGER_STATUS.PHASE 0
  { s with ledger := { l with
      recs, touched := [], sets := ((e, touched) :: l.sets).take 3, applying := none, closed := some e
      updates := 0, applied := 0, todo := l.todo.filter fun t => epochLater t.epoch e } }

/-- Counts of a rebuilt record from the ledger view (R228 steps 2 and 3), with the number of transitions applied. -/
def rebuildRecs (img : Image) (b ix : List Byte) (m : Snap) (poisoned : List (Nat × Nat)) (sh : Int × Int × Int) (l : LedgerSt) :
    LedgerSt :=
  let zero := { l with recs := l.recs.map fun p => (p.1, { p.2 with blocked := 0, unknown := 0, dyn := 0 })
                       updates := 0, applied := 0, touched := [] }
  let ts := (viewKinds b).flatMap fun cost => (indexCells img).filterMap fun c =>
    let v := ledgerView img b m poisoned sh cost c.1 c.2.1 c.2.2
    if v = 0 then none
    else some { epoch := 0, cell := cellNumber img c.1 c.2.1 c.2.2, cost, old := 0, new := v : Trans }
  (sortTrans ts).foldl (fun l t => applyTrans ix t l) zero

/-- A shift exceeds SHIFT_TOL on some axis (R226). -/
def shiftBeyond (b : List Byte) (s : Int × Int × Int) : Bool :=
  decide (Road.shiftTol b < s.1.natAbs ∨ Road.shiftTol b < s.2.1.natAbs ∨ Road.shiftTol b < s.2.2.natAbs)

/-- The ledger shift registers. -/
def showShift (s : State) : State :=
  let d := s.ledger.shift
  ((s.set Reg.LEDGER_SHIFT_XY.SX (pattern 16 d.1)).set Reg.LEDGER_SHIFT_XY.SY (pattern 16 d.2.1)).set
    Reg.LEDGER_SHIFT_Z.SZ (pattern 16 d.2.2)

/-- REBUILD_PENDING shows whether a rebuild is scheduled. -/
def showPending (s : State) : State :=
  s.set Reg.LEDGER_STATUS.REBUILD_PENDING (bit (s.ledger.rebuild != 0 || !s.ledger.shifts.isEmpty))

/-- The full rebuild of epoch `e`, whose snapshot is the latest final one, with its cause (R228, Table 8-5). It replaces the
transitions of every epoch up to `e`. Where the next epoch is already under assembly, the view is the one its transitions
start from. -/
def rebuildLedger (s : State) (img : Image) (b : List Byte) (e : Epoch) (cause : Nat) : State :=
  let l := s.ledger
  let now : Bool := e == s.world.epoch
  let poison := if now then s.world.poisoned else l.viewPoisoned
  let sh := if now then l.shift else l.viewShift
  let due : Bool := l.rebuildAfter != some e
  let l := rebuildRecs img b (s.bulk 0xB) s.world.prev poison sh l
  let l := { l with rebuild := if due then 0 else l.rebuild, rebuildAfter := if due then none else l.rebuildAfter
                    shifts := l.shifts.filter fun x => epochLater x e
                    rebuilt := some (e, cause), sentPoisoned := if now then poison else l.sentPoisoned
                    queue := l.queue.filter fun t => epochLater t.epoch e }
  let s := (s.inc Reg.LEDGER_REBUILD_COUNT.REBUILDS).set Reg.LEDGER_REBUILD_CAUSE.CAUSE cause
  let s := showPending { s with ledger := l }
  let s := s.set Reg.LEDGER_QUEUE_DEPTH.DEPTH l.queue.length
  closeLedger s img b e true

/-- A rebuild is scheduled with cause LOAD or WARM, which replace every other; or COMMAND or ECC, for the first epoch whose
application starts later, where none is scheduled (Table 8-5). -/
def scheduleRebuild (s : State) (cause : Nat) : State :=
  if s.roadmap.isNone then s
  else
    let l := s.ledger
    let l : LedgerSt := if cause ≤ 2 then { l with rebuild := cause, rebuildAfter := none, shifts := [] }
      else if l.rebuild = 0 then { l with rebuild := cause, rebuildAfter := l.applying } else l
    showPending { s with ledger := l }

/-- A rebuild with cause SHIFT is scheduled for the epoch of the shift; S becomes (0, 0, 0) (R226, Table 8-5). -/
def scheduleShift (s : State) (e : Epoch) : State :=
  showPending (showShift { s with ledger := { s.ledger with shift := (0, 0, 0), shifts := s.ledger.shifts ++ [e] } })

/-- Cause of the rebuild that replaces the transitions of an epoch, 0 for none; OVERFLOW waits for the latest snapshot. -/
def LedgerSt.dueCause (l : LedgerSt) (e : Epoch) : Nat :=
  if l.shifts.contains e then 3 else if l.rebuild = 6 ∨ l.rebuildAfter = some e then 0 else l.rebuild

/-- The epoch whose transitions are applied next: the one under application, else the first still to close (R224). -/
def ledgerNext (s : State) : Option LedgerEpoch := match s.ledger.applying with
  | some e => s.ledger.todo.find? fun t => t.epoch == e
  | none => s.ledger.todo.head?

/-- The transitions of the epoch under assembly are not sent: a rebuild replaces them (R227). -/
def State.replaced (s : State) : Bool :=
  s.ledger.rebuild == 6 || (match ledgerNext s with
    | some t => t.epoch == s.world.epoch && s.ledger.dueCause t.epoch != 0
    | none => false)

/-- After a warm restart or a wake the ledger starts from the last final snapshot: what the frames in progress had sent is
dropped, and a rebuild with cause WARM follows (Table 8-5, R144). -/
def restartLedger (s : State) : State :=
  let l := s.ledger
  let l : LedgerSt := { l with queue := [], todo := [], applying := none, touched := [], updates := 0, applied := 0, search := none
                               shift := if s.world.active then l.viewShift else l.shift }
  scheduleRebuild (showShift ({ s with ledger := l }.set Reg.LEDGER_QUEUE_DEPTH.DEPTH 0)) 2

/-! ## Search -/

/-- Edge traversable (R231). -/
def traversable (b : List Byte) (recs : List (Nat × LRec)) (e : Nat) : Bool :=
  let r := edgeRec recs e
  (r.state == 0 || (r.state == 2 && Road.traverseUnknown b)) && !Road.edgeDisabled b e &&
  !Road.nodeDisabled b (Road.edgeFrom b e) && !Road.nodeDisabled b (Road.edgeTo b e) && r.eff != 0x7C00

/-- Weight of an edge: EFF_COST widened (R231). -/
def weight (recs : List (Nat × LRec)) (e : Nat) : Word := f16ToF32 (edgeRec recs e).eff

/-- pi and 2 pi in FP32. -/
def piF32 : Word := 0x40490FDB#32
def twoPiF32 : Word := 0x40C90FDB#32

/-- An FP32 angle difference wrapped to (-pi, pi]. -/
def wrapF32 (d : Word) : Word :=
  if f32Lt piF32 d then f32Sub d twoPiF32 else if f32Le d (f32Neg piF32) then f32Add d twoPiF32 else d

/-- A node matches a start state converted to the index frame (R232). -/
def nodeMatches (img : Image) (b : List Byte) (st : List Byte) (sh : Int × Int × Int) (n : Nat) : Bool :=
  if img.kind = 0 then
    let near := fun (o j : Nat) (s : Int) =>
      decide (((Road.nodeWord b n j).toInt - ((stWord st o).toInt + s * img.cellSize)).natAbs ≤ (Road.tolPos b).toNat)
    near 12 0 sh.1 && near 16 1 sh.2.1 &&
    f32Le (f32Abs (wrapF32 (f32Sub (Road.nodeWord b n 3) (stWord st 24)))) (Road.tolAng b) &&
    f32Le (f32Abs (f32Sub (Road.nodeWord b n 4) (stWord st 28))) (Road.tolV b)
  else (List.range img.joints).all fun j =>
    f32Le (f32Abs (f32Sub (Road.nodeWord b n j) (stWord st (12 + 12 * j)))) (Road.tolAng b)

/-- The entry nodes: the lowest-numbered ENTRY_MAX that match (R232). -/
def entryNodes (img : Image) (b : List Byte) (st : List Byte) (sh : Int × Int × Int) : List Nat :=
  ((List.range (Road.nodeCount b)).filter fun n => Road.isEntry b n && nodeMatches img b st sh n).take (Road.entryMax b)

/-- A search at its start (R230, R233). -/
def newSearch (img : Image) (b : List Byte) (l : LedgerSt) (e : Epoch) (st : List Byte) : SearchSt :=
  let es := entryNodes img b st l.shift
  { epoch := e, base := l.closed.getD 0, recs := l.recs, start := st, shift := l.shift, entries := es
    nodes := es.foldl (fun m n => sSet {} n { dist := 0#32, pred := none } m) [], changed := es, settled := []
    bucket := 0, heavy := false, relax := 0, footprint := 0, ended := if es.isEmpty then 1 else 0, paths := [], emitted := false
    hit := false }

/-- Bits an edge ID sets in a 1,024-bit footprint (R236). -/
def edgeBits (x : Nat) : Nat × Nat := let h := x * 0x9E3779B1 % 2 ^ 32; (h / 2 ^ 22, h / 2 ^ 12 % 1024)

/-- Both bits of an ID are set (R335). -/
def edgeHits (f x : Nat) : Bool := let b := edgeBits x; bitOf f b.1 && bitOf f b.2

/-- Node of a search. -/
def SearchSt.node (s : SearchSt) (n : Nat) : NodeSt := sGet {} n s.nodes

/-- A distance lies in bucket `i` or earlier: below (i + 1) * DELTA, computed in FP32. -/
def inBucket (b : List Byte) (i : Nat) (d : Word) : Bool := f32Lt d (f32Mul (f32Of ((i : Int) + 1)) (Road.delta b))

/-- An offer of distance `nd` to a node from (u, e), kept where it is least (R233). -/
def offerNode (s : SearchSt) (v : Nat) (nd : Word) (u e : Nat) : SearchSt :=
  let x := s.node v
  if f32Lt nd x.dist then
    { s with nodes := sSet {} v { dist := nd, pred := some (u, e) } s.nodes, changed := setAdd v s.changed }
  else if f32Le nd x.dist && f32Finite nd && (match x.pred with
      | some (pu, pe) => decide (u < pu ∨ (u = pu ∧ e < pe))
      | none => false) then { s with nodes := sSet {} v { x with pred := some (u, e) } s.nodes }
  else s

/-- Requests of one phase, formed from the distances at its start (R233): the edges examined in ascending node and edge ID,
each counted, up to the quota; the traversable ones as offers. -/
def phaseRequests (b : List Byte) (quota : Option Nat) (s : SearchSt) (front : List Nat) (light : Bool) :
    List (Nat × Word × Nat × Nat) × Nat × Nat × Bool :=
  front.foldl (fun a u =>
    (List.range (Road.outDegree b u)).foldl (fun (a : List (Nat × Word × Nat × Nat) × Nat × Nat × Bool) i =>
      let e := Road.firstEdge b u + i
      let w := weight s.recs e
      if a.2.2.2 ∨ (light != f32Le w (Road.delta b)) then a
      else
        match quota with
        | some q => if q ≤ a.2.1 then (a.1, a.2.1, a.2.2.1, true) else step a u e w
        | none => step a u e w) a) ([], s.relax, s.footprint, false)
where
  step (a : List (Nat × Word × Nat × Nat) × Nat × Nat × Bool) (u e : Nat) (w : Word) :
      List (Nat × Word × Nat × Nat) × Nat × Nat × Bool :=
    let bt := edgeBits e
    let f := a.2.2.1 ||| 2 ^ bt.1 ||| 2 ^ bt.2
    (if traversable b s.recs e then a.1 ++ [(Road.edgeTo b e, f32Add (s.node u).dist w, u, e)] else a.1, a.2.1 + 1, f, false)

/-- The next bucket that holds an unexpanded node. -/
def nextBucket (b : List Byte) (s : SearchSt) : Option Nat :=
  match s.changed with
  | [] => none
  | n :: r =>
    let least := r.foldl (fun m v => f32Min m (s.node v).dist) (s.node n).dist
    (List.range (f32ToInt (f32Div least (Road.delta b)) 0 (2 ^ 31) + 2).toNat).find? fun i => inBucket b i least

/-- One phase of a search (R233): it takes its frontier, forms its requests, and applies them. A light pass with an empty
frontier becomes the heavy pass of the bucket; after the heavy pass the next bucket with a node is taken, and a search
with none left is complete (R234). -/
def searchPhase (b : List Byte) (quota : Option Nat) (s : SearchSt) : SearchSt :=
  if s.ended ≠ 0 then s
  else
    let front := if s.heavy then [] else s.changed.filter fun n => inBucket b s.bucket (s.node n).dist
    let heavy := s.heavy || front.isEmpty
    let f := if heavy then s.settled else front
    let r := phaseRequests b quota s f (!heavy)
    let s := { s with changed := if heavy then s.changed else s.changed.filter fun n => !f.contains n
                      settled := if heavy then s.settled else f.foldl (fun m n => setAdd n m) s.settled
                      relax := r.2.1, footprint := r.2.2.1 }
    let s := r.1.foldl (fun s o => offerNode s o.1 o.2.1 o.2.2.1 o.2.2.2) s
    if r.2.2.2 then { s with ended := 2 }
    else if heavy then
      match nextBucket b s with
      | none => { s with ended := 1 }
      | some i => { s with bucket := i, heavy := false, settled := [] }
    else s

/-- Edges of the predecessor chain of a node, from the entry node, with the entry node. -/
def pathTo (s : SearchSt) : Nat → Nat → List Nat → List Nat × Nat
  | 0, n, acc => (acc, n)
  | k + 1, n, acc => match (s.node n).pred with
    | some (u, e) => pathTo s k u (e :: acc)
    | none => (acc, n)

/-- The PATH_K paths with the lowest (score, v), in that order, under a terminal cost of each node (R237). -/
def bestPaths (b : List Byte) (term : Nat → Word) (s : SearchSt) : List PathRec :=
  let all := s.nodes.filterMap fun p =>
    let t := term p.1
    if f32Finite p.2.dist && f32Finite t && p.2.pred.isSome then
      let c := pathTo s (Road.nodeCount b) p.1 []
      some { node := p.1, entry := c.2, edges := c.1
             score := f32Add (f32Mul (Road.costScale b) (f32Add p.2.dist t)) (Road.costOffset b) : PathRec }
    else none
  (all.mergeSort fun x y => f32Lt x.score y.score || (!f32Lt y.score x.score && decide (x.node ≤ y.node))).take (Road.pathK b)

/-- The paths a search releases, in ascending node (R237). -/
def searchPaths (b : List Byte) (s : SearchSt) : List PathRec :=
  (bestPaths b (Road.terminal b) s).mergeSort fun x y => decide (x.node ≤ y.node)

/-- A search run to its end. Each bucket takes at most one phase a node and a heavy pass, and each bucket settles a node. -/
def runSearch (b : List Byte) (quota : Option Nat) : Nat → SearchSt → SearchSt
  | 0, s => s
  | n + 1, s => if s.ended ≠ 0 then s else runSearch b quota n (searchPhase b quota s)

end Sys2Proof.Machine
end

