-- ==== Sys2Proof/Machine/Tensor.lean ====
section
/-! DEFINITION. The proposal network (chapter 9): tensor elements (R242, R105, R102), the fixed accumulation order (R114,
R115), the operators (R250, R251), world gather (R253, R254), the checksum checks (R269, R270), and the seeds and learned
costs it delivers (R256 to R258). -/

namespace Sys2Proof.Machine

/-! ## Elements -/

/-- What an operator reads: the tensors' bytes by tensor ID, and the world. -/
structure NetCtx where
  img : Image
  weights : List Byte
  /-- Released blocks of the epoch. -/
  blocks : List Block
  /-- The epoch's start state, 120 bytes. -/
  start : List Byte
  snap : List (Nat × Nat)
  poisoned : List (Nat × Nat)

/-- Bytes of a constant tensor. -/
def NetCtx.const (c : NetCtx) (t : Nat) : List Byte :=
  let k := c.img.tensorField t 0x18 4
  (c.weights.drop (weightOffset c.weights k)).take (weightLength c.weights k)

/-- The state tensor: 32 FP32 values (R256). -/
def stateTensor (img : Image) (st : List Byte) : List Word :=
  let q := fun o => qToF32 (stWord st o).toInt
  let w := fun o => stWord st o
  let v := if img.kind = 0 then [q 12, q 16, q 20, w 24, w 28, w 32, w 36, w 40, w 44, w 48]
    else (List.range 9).flatMap fun j => if j < img.joints then [w (12 + 12 * j), w (16 + 12 * j), w (20 + 12 * j)] else [0, 0, 0]
  v ++ List.replicate (32 - v.length) 0

/-- Byte of a tensor. -/
def NetCtx.byte (c : NetCtx) (t i : Nat) : Nat :=
  match c.img.tensorKind t with
  | 1 => byteAt (c.const t) i
  | 2 => byteAt ((stateTensor c.img c.start).flatMap fun w => leBytes w.toNat 4) i
  | _ => match c.blocks.find? fun b => b.tensor == t && b.index == i / 4096 with
    | some b => byteAt b.data (i % 4096)
    | none => 0

/-- Raw pattern of element `i` of a tensor (R105). -/
def NetCtx.raw (c : NetCtx) (t i : Nat) : Nat :=
  match Image.formatBits (c.img.tensorFormat t) with
  | 4 => bits (c.byte t (i / 2)) (4 * (i % 2)) 4
  | 8 => c.byte t i
  | 16 => c.byte t (2 * i) + 256 * c.byte t (2 * i + 1)
  | _ => (List.range 4).foldl (fun n j => n + c.byte t (4 * i + j) * 256 ^ j) 0

/-- Scale of an MXFP4 element: one per 32 consecutive elements along the last dimension (R105). -/
def NetCtx.scale (c : NetCtx) (t i : Nat) : Nat :=
  let l := c.img.tensorDim t (c.img.tensorRank t - 1)
  c.byte (c.img.tensorField t 0x1C 2) (i / l * ceilDiv l 32 + i % l / 32)

/-- Element `i` of a tensor as FP32, exact but for an MXFP4 scale beyond the range (R105, R102). -/
def NetCtx.elem (c : NetCtx) (t i : Nat) : Word :=
  let p := c.raw t i
  match c.img.tensorFormat t with
  | 0 => BitVec.ofNat 32 p
  | 1 => BitVec.ofNat 32 (fp16.conv fp32 p)
  | 2 => BitVec.ofNat 32 (bf16.conv fp32 p)
  | 3 => e4m3ToF32 p
  | 4 => e5m2ToF32 p
  | 5 => mxToF32 p (c.scale t i)
  | 6 => f32Of (signed 8 p)
  | 7 => f32Of (signed 4 p)
  | _ => BitVec.ofNat 32 p

/-- Exact value of an element as a fraction; none for NaN and infinity. -/
def NetCtx.exact (c : NetCtx) (t i : Nat) : Option (Int × Nat) :=
  if c.img.tensorFormat t = 5 then
    let s := c.scale t i
    if s = 0xFF then none
    else
      let v : Int := if bitOf (c.raw t i) 3 then -(e2m1Twice (c.raw t i) : Int) else e2m1Twice (c.raw t i)
      some (v * 2 ^ s, 2 ^ 128)
  else (f32 (c.elem t i)).frac

/-- An integer format. -/
def isInt (f : Nat) : Bool := f == 6 || f == 7

/-- Element as a signed integer. -/
def NetCtx.int (c : NetCtx) (t i : Nat) : Int :=
  signed (if c.img.tensorFormat t = 7 then 4 else 8) (c.raw t i)

/-- The pattern of an FP32 value in a tensor format (Table 4-5). -/
def encodeElem (f : Nat) (r : Rnd) (w : Word) : Nat := match f with
  | 0 => w.toNat
  | 1 => f32ToF16 w r
  | 2 => f32ToBf16 w r
  | 3 => f32ToE4m3 w r
  | 4 => f32ToE5m2 w r
  | _ => pattern 8 (match f32 w with
    | .nan => 0
    | .inf s => if s then -128 else 127
    | v => match v.frac with
      | some (n, d) => let m : Int := r.int (decide (n < 0)) n.natAbs d
                       max (-128) (min 127 (if n < 0 then -m else m))
      | none => 0)

/-! ## Products (R114, R115) -/

/-- A product of two elements in FP32: exact products rounded once (R114 step 2). -/
def elemMul (a b : Option (Int × Nat)) (x y : Word) : Word := match a, b with
  | some (n, d), some (m, e) => if n = 0 ∨ m = 0 then f32Mul x y else f32Round (n * m) (d * e) false
  | _, _ => f32Mul x y

/-- One level of a tree: adjacent pairs added. -/
def treeLevel : List Word → List Word
  | a :: b :: r => f32Add a b :: treeLevel r
  | l => l

/-- The tree sum of a chunk of at most 64 values, padded with +0 (R114 step 3). -/
def treeSum (l : List Word) : Word :=
  (((List.range 6).foldl (fun s _ => treeLevel s) (l ++ List.replicate (64 - l.length) 0)).head?).getD 0

/-- Chunks of 64. -/
def chunks64 (n : Nat) (p : Nat → Word) : List (List Word) :=
  (List.range (ceilDiv n 64)).map fun c => (List.range (min 64 (n - 64 * c))).map fun i => p (64 * c + i)

/-- Reduction of `n` products from a start value, in ascending chunk order (R114 step 4). -/
def reduce (n : Nat) (p : Nat → Word) (start : Word) : Word := (chunks64 n p).foldl (fun a c => f32Add a (treeSum c)) start

/-- A matrix product D = A B + C: sizes, the element places in the input tensors (none for a padded +0), and C. -/
structure Product where
  m : Nat
  n : Nat
  k : Nat
  ta : Nat
  tb : Nat
  a : Nat → Nat → Option Nat
  b : Nat → Nat → Nat
  c : Nat → Nat → Option (Nat × Nat)

/-- A[i, k], B[j, k] and C[i, j] as FP32. -/
def Product.av (p : Product) (x : NetCtx) (i k : Nat) : Word := match p.a i k with
  | some e => x.elem p.ta e
  | none => 0
def Product.bv (p : Product) (x : NetCtx) (j k : Nat) : Word := x.elem p.tb (p.b j k)
def Product.cv (p : Product) (x : NetCtx) (i j : Nat) : Word := match p.c i j with
  | some (t, e) => x.elem t e
  | none => 0

/-- Element D[i, j] as FP32: R114, or the 32-bit sum of R115. -/
def Product.elem (p : Product) (x : NetCtx) (i j : Nat) : Word :=
  if isInt (x.img.tensorFormat p.ta) then
    let c := match p.c i j with
      | some (t, e) => f32ToInt (x.elem t e) (-2 ^ 31) (2 ^ 31 - 1)
      | none => 0
    let s := (List.range p.k).foldl (fun s k => s + (match p.a i k with
      | some e => x.int p.ta e
      | none => 0) * x.int p.tb (p.b j k)) c
    f32Of (signed 32 (pattern 32 s))
  else
    reduce p.k (fun k => match p.a i k with
      | some e => elemMul (x.exact p.ta e) (x.exact p.tb (p.b j k)) (x.elem p.ta e) (p.bv x j k)
      | none => f32Mul 0 (p.bv x j k)) (p.cv x i j)

/-- A PARAM of two bytes. -/
def Image.opParam (i : Image) (o j : Nat) : Nat := i.opField o (0x10 + 2 * j) 2

/-- Input tensor of an operator. -/
def Image.opIn (i : Image) (o j : Nat) : Nat := i.opField o (4 + 2 * j) 2

/-- The product of a GEMM, CONV1D or CONV2D operator (R250). -/
def opProduct (img : Image) (o : Nat) : Option Product :=
  let t0 := img.opIn o 0
  let t1 := img.opIn o 1
  let t2 := img.opIn o 2
  let d := fun t n => img.tensorDim t n
  let pm := img.opParam o
  match img.opField o 0 1 with
  | 1 =>
    let k := d t0 1
    let n := d t1 0
    some { m := d t0 0, n, k, ta := t0, tb := t1, a := fun i j => some (i * k + j), b := fun i j => i * k + j
           c := fun i j => if t2 = 0xFFFF then none else some (t2, if img.tensorRank t2 = 1 then j else i * n + j) }
  | 2 =>
    let cin := d t0 1
    let l := d t0 0
    let kw := pm 0
    let k := kw * cin
    some { m := (l + 2 * pm 2 - (pm 3 * (kw - 1) + 1)) / pm 1 + 1, n := d t1 0, k, ta := t0, tb := t1
           a := fun i j =>
             let x : Int := i * pm 1 + (j / cin) * pm 3 - pm 2
             if 0 ≤ x ∧ x < l then some (x.toNat * cin + j % cin) else none
           b := fun i j => i * k + j, c := fun _ j => if t2 = 0xFFFF then none else some (t2, j) }
  | 3 =>
    let h := d t0 0
    let w := d t0 1
    let cin := d t0 2
    let kh := pm 0
    let kw := pm 1
    let k := kh * kw * cin
    let wout := (w + 2 * pm 5 - (pm 7 * (kw - 1) + 1)) / pm 3 + 1
    let hout := (h + 2 * pm 4 - (pm 6 * (kh - 1) + 1)) / pm 2 + 1
    some { m := hout * wout, n := d t1 0, k, ta := t0, tb := t1
           a := fun i j =>
             let kx := j / cin % kw
             let ky := j / cin / kw
             let y : Int := (i / wout) * pm 2 + ky * pm 6 - pm 4
             let x : Int := (i % wout) * pm 3 + kx * pm 7 - pm 5
             if 0 ≤ x ∧ x < w ∧ 0 ≤ y ∧ y < h then some ((y.toNat * w + x.toNat) * cin + j % cin) else none
           b := fun i j => i * k + j, c := fun _ j => if t2 = 0xFFFF then none else some (t2, j) }
  | _ => none

/-! ## Thread operators (R251) -/

/-- FTZ of the propose program's mode word (R107, R109). -/
def netFtz (img : Image) : Bool := bitOf (byteAt (img.body 4) (img.codeAt (img.stageProgram 2))) 2
/-- ROUND of the propose program's mode word, which governs its conversions (R108). -/
def netRound (img : Image) : Rnd := Rnd.of (byteAt (img.body 4) (img.codeAt (img.stageProgram 2)))

/-- Flush of a subnormal to a zero of its sign (R109). -/
def flush (z : Bool) (w : Word) : Word := if z ∧ bits w.toNat 23 8 = 0 then w &&& 0x80000000#32 else w

/-- An operation under FTZ. -/
def ftz2 (z : Bool) (f : Word → Word → Word) (a b : Word) : Word := flush z (f (flush z a) (flush z b))

/-- One level of a tree under FTZ. -/
def ftzLevel (z : Bool) : List Word → List Word
  | a :: b :: r => ftz2 z f32Add a b :: ftzLevel z r
  | l => l

/-- Tree sum under FTZ, chunks in ascending order from +0. -/
def threadSum (z : Bool) (n : Nat) (p : Nat → Word) : Word :=
  (chunks64 n p).foldl (fun a c => ftz2 z f32Add a
    ((((List.range 6).foldl (fun s _ => ftzLevel z s) (c ++ List.replicate (64 - c.length) 0)).head?).getD 0)) 0

/-- SOFTMAX of a row (Table 9-6). -/
def softmaxRow (z : Bool) (n : Nat) (x : Nat → Word) (i : Nat) : Word :=
  let xs := (List.range n).map x
  if xs.any fun w => decide (f32 w = .nan) then f32Nan
  else if xs.all fun w => decide (w = f32Inf true) then 0
  else
    let m := xs.foldl f32Max (f32Inf true)
    let e := fun j => Config.expF32 z (ftz2 z f32Sub (x j) m)
    ftz2 z f32Div (e i) (threadSum z n e)

/-- LAYERNORM of a row (Table 9-6). -/
def layernormRow (z : Bool) (n : Nat) (x g b : Nat → Word) (eps : Word) (i : Nat) : Word :=
  let mu := ftz2 z f32Div (threadSum z n x) (f32Of n)
  let dv := fun j => ftz2 z f32Sub (x j) mu
  let v := ftz2 z f32Div (threadSum z n fun j => ftz2 z f32Mul (dv j) (dv j)) (f32Of n)
  let r := Config.rsqrtF32 z (ftz2 z f32Add v eps)
  ftz2 z f32Add (ftz2 z f32Mul (ftz2 z f32Mul (dv i) r) (g i)) (b i)

/-- GELU (Table 9-6). -/
def geluOf (z : Bool) (x : Word) : Word :=
  ftz2 z f32Mul (ftz2 z f32Mul (f32Of 1 2) x)
    (ftz2 z f32Add (f32Of 1) (Config.erfF32 z (ftz2 z f32Mul x (f32Of 70710677 100000000))))

/-- Reduction under R114 of two vectors of FP32 values. -/
def dot114 (n : Nat) (a b : Nat → Word) : Word := reduce n (fun k => f32Mul (a k) (b k)) 0

/-- ATTENTION at row `i`, column `j` (Table 9-6). -/
def attentionAt (x : NetCtx) (o i j : Nat) : Word :=
  let img := x.img
  let z := netFtz img
  let tq := img.opIn o 0
  let tk := img.opIn o 1
  let tv := img.opIn o 2
  let hd := img.opParam o 0 * img.opParam o 1
  let d := img.opParam o 1
  let h := j / d
  let lk := img.tensorDim tk 0
  let scale := BitVec.ofNat 32 (img.opField o 0x18 4)
  let s := fun (c : Nat) =>
    if bitOf (img.opParam o 2) 0 ∧ i < c then f32Inf true
    else ftz2 z f32Mul (dot114 d (fun k => x.elem tq (i * hd + h * d + k)) (fun k => x.elem tk (c * hd + h * d + k))) scale
  let row := (List.range lk).map s
  let fv := img.tensorFormat tv
  let p := fun c =>
    let w := softmaxRow z lk (fun n => row.getD n 0) c
    match fv with
    | 1 => BitVec.ofNat 32 (fp16.conv fp32 (encodeElem fv (netRound img) w))
    | 2 => BitVec.ofNat 32 (bf16.conv fp32 (encodeElem fv (netRound img) w))
    | 3 => e4m3ToF32 (encodeElem fv (netRound img) w)
    | 4 => e5m2ToF32 (encodeElem fv (netRound img) w)
    | _ => w
  dot114 lk p (fun c => x.elem tv (c * hd + j))

/-- Cell of a WORLD_GATHER point `n` (R253), by its Q16.16 position. -/
def gatherPoint (x : NetCtx) (o n : Nat) : List Q :=
  let img := x.img
  let t := img.opIn o 0
  let dims := img.tensorDim t (img.tensorRank t - 1)
  let z := netFtz img
  let v := fun k => if k < dims then x.elem t (n * dims + k) else 0
  let st := x.start
  let p := if img.opField o 0x12 1 = 1 then
      let th := stWord st 24
      let c := Config.cosF32 th
      let s := Config.sinF32 th
      let q := fun a => qToF32 (stWord st a).toInt
      [ftz2 z f32Add (ftz2 z f32Sub (ftz2 z f32Mul c (v 0)) (ftz2 z f32Mul s (v 1))) (q 12),
       ftz2 z f32Add (ftz2 z f32Add (ftz2 z f32Mul s (v 0)) (ftz2 z f32Mul c (v 1))) (q 16),
       ftz2 z f32Add (v 2) (q 20)]
    else [v 0, v 1, v 2]
  p.map f32ToQ

/-- WORLD_GATHER of point `n` (R254). -/
def gatherAt (x : NetCtx) (o n : Nat) : Word :=
  let img := x.img
  let l := img.opField o 0x10 1
  let sl := if img.layerType l = 4 then img.opField o 0x11 1 else 0
  let fill := BitVec.ofNat 32 (img.opField o 0x18 4)
  match cellOf img (gatherPoint x o n) with
  | none => fill
  | some c =>
    let ty := img.layerType l
    if x.poisoned.contains (l, panelOf img c.1 c.2.1 c.2.2) then
      if ty = 0 ∨ ty = 4 then f32Of 1 else if ty = 1 then 0 else fill
    else
      let v := cellAt img x.snap l sl c.1 c.2.1 c.2.2
      match ty with
      | 1 => qToF32 ((v : Int) * img.quantum l)
      | 2 => f32Mul (f32Of (signed 8 v)) (BitVec.ofNat 32 (img.quantum l))
      | 3 => f16ToF32 v
      | 5 => if v = 0x8000 then fill else qToF32 (signed 16 v * img.quantum l)
      | _ => f32Of v

/-! ## Operators -/

/-- Channels of the output of an operator: the last dimension of its shape (Table 9-4). -/
def gatherChannels (img : Image) (o : Nat) : Nat :=
  let t := img.opField o 0xA 2
  img.tensorSize t / (img.tensorSize (img.opIn o 0) / img.tensorDim (img.opIn o 0) (img.tensorRank (img.opIn o 0) - 1))

/-- Element `e` of an operator's output in FP32, in the row-major order of its shape (R246); none where another gather
writes it (R247). -/
def opElem (x : NetCtx) (o e : Nat) : Option Word :=
  let img := x.img
  let z := netFtz img
  let t0 := img.opIn o 0
  let t1 := img.opIn o 1
  let t2 := img.opIn o 2
  let last := img.tensorDim t0 (img.tensorRank t0 - 1)
  match opProduct img o with
  | some p => some (p.elem x (e / p.n) (e % p.n))
  | none => match img.opField o 0 1 with
    | 4 => let w := img.opParam o 0 * img.opParam o 1
           some (attentionAt x o (e / w) (e % w))
    | 5 => let i := e / last
           some (layernormRow z last (fun j => x.elem t0 (i * last + j)) (x.elem t1) (x.elem t2)
             (BitVec.ofNat 32 (img.opField o 0x10 4)) (e % last))
    | 6 => some (softmaxRow z last (fun j => x.elem t0 (e / last * last + j)) (e % last))
    | 7 => some (geluOf z (x.elem t0 e))
    | 8 =>
      let w := img.tensorDim t1 1
      let i := f32ToInt (x.elem t0 (e / w)) (-2 ^ 31) (2 ^ 31 - 1)
      some (if 0 ≤ i ∧ i < img.tensorDim t1 0 then x.elem t1 (i.toNat * w + e % w) else 0)
    | _ =>
      let ch := gatherChannels img o
      if e % ch = img.opParam o 2 then some (gatherAt x o (e / ch)) else none

/-- Indices of an EMBED operator outside its table (Table 9-6). -/
def embedRange (x : NetCtx) (o : Nat) : Nat :=
  if x.img.opField o 0 1 = 8 then
    ((List.range (x.img.tensorSize (x.img.opIn o 0))).filter fun n =>
      let i := f32ToInt (x.elem (x.img.opIn o 0) n) (-2 ^ 31) (2 ^ 31 - 1)
      decide (i < 0 ∨ (x.img.tensorDim (x.img.opIn o 1) 0 : Int) ≤ i)).length
  else 0

/-- Panels a gather reads for one point, as footprint keys (R255). -/
def gatherKeys (x : NetCtx) (o n : Nat) : List Nat := match cellOf x.img (gatherPoint x o n) with
  | some c => [panelKey (x.img.opField o 0x10 1) (panelOf x.img c.1 c.2.1 c.2.2)]
  | none => []

/-- Output block `b` of operator `o`: its bytes, the last one padded with zeros (R243), its footprint (R255), and whether
it depends on the state tensor. -/
def opBlock (x : NetCtx) (o b : Nat) : Block :=
  let img := x.img
  let t := img.opField o 0xA 2
  let f := img.tensorFormat t
  let w := Image.formatBits f / 8
  let n := min (4096 / w) (img.tensorSize t - b * (4096 / w))
  let old := (x.blocks.find? fun k => k.tensor == t && k.index == b).map (·.data)
  let data := (List.range n).flatMap fun i => match opElem x o (b * (4096 / w) + i) with
    | some v => leBytes (encodeElem f (netRound img) v) w
    | none => match old with
      | some d => (d.drop (w * i)).take w
      | none => List.replicate w 0
  let ins := x.blocks.filter fun k => [img.opIn o 0, img.opIn o 1, img.opIn o 2].contains k.tensor
  let own := if img.opField o 0 1 = 9 then
      (List.range n).foldl (fun m i => (gatherKeys x o ((b * (4096 / w) + i) / gatherChannels img o)).foldl bloom m) 0
    else 0
  { op := o, tensor := t, index := b, data := data ++ List.replicate (4096 - data.length) 0
    footprint := ins.foldl (fun m k => m ||| k.footprint) own
    onState := ins.any (·.onState) || [img.opIn o 0, img.opIn o 1, img.opIn o 2].contains img.stateTensor ||
      (img.opField o 0 1 == 9 && img.opField o 0x12 1 == 1) }

/-! ## Checks (R269, R270) -/

/-- Outcome of one check: 0 pass, 1 near miss, 2 miss, 3 skipped. -/
def checkOne (k : Nat) (int : Bool) (s r sabs : Word) : Nat :=
  if int then (if s = r then 0 else 2)
  else if !f32Finite s || !f32Finite r || !f32Finite sabs then 3
  else
    let tau := f32Mul (f32Mul (f32Of 1 (2 ^ 23)) (f32Of (14 + ceilDiv k 64))) sabs
    let dlt := f32Abs (f32Sub s r)
    if f32Lt tau dlt then 2 else if f32Lt (f32Div tau (f32Of 4)) dlt then 1 else 0

/-- Outcomes of the column and row checks of the 64 x 64 output tile at (i0, j0). -/
def tileChecks (x : NetCtx) (p : Product) (i0 j0 : Nat) : List Nat :=
  let rs := List.range (min 64 (p.m - i0))
  let cs := List.range (min 64 (p.n - j0))
  let int := isInt (x.img.tensorFormat p.ta)
  let sum := fun (n : Nat) (g : Nat → Word) => reduce n g 0
  let side := fun (abs : Bool) (w : Word) => if abs then f32Abs w else w
  let col := fun (j : Nat) (abs : Bool) =>
    f32Add (sum p.k fun k => f32Mul (sum rs.length fun i => side abs (p.av x (i0 + i) k)) (side abs (p.bv x j k)))
      (sum rs.length fun i => side abs (p.cv x (i0 + i) j))
  let row := fun (i : Nat) (abs : Bool) =>
    f32Add (sum p.k fun k => f32Mul (side abs (p.av x i k)) (sum cs.length fun j => side abs (p.bv x (j0 + j) k)))
      (sum cs.length fun j => side abs (p.cv x i (j0 + j)))
  if int then []
  else (cs.map fun j => checkOne p.k int (sum rs.length fun i => p.elem x (i0 + i) (j0 + j)) (col (j0 + j) false) (col (j0 + j) true)) ++
    rs.map fun i => checkOne p.k int (sum cs.length fun j => p.elem x (i0 + i) (j0 + j)) (row (i0 + i) false) (row (i0 + i) true)

/-- Near misses and skipped checks of an operator's product (R270). -/
def opChecks (x : NetCtx) (o : Nat) : Nat × Nat := match opProduct x.img o with
  | none => (0, 0)
  | some p =>
    let all := (List.range (ceilDiv p.m 64)).flatMap fun a => (List.range (ceilDiv p.n 64)).flatMap fun b =>
      tileChecks x p (64 * a) (64 * b)
    ((all.filter (· == 1)).length, (all.filter (· == 3)).length)

/-- Array-busy cycles of an operator's product (R262). -/
def opCycles (img : Image) (o : Nat) : Nat := match opProduct img o with
  | none => 0
  | some p =>
    let w := max (Image.formatBits (img.tensorFormat p.ta)) (Image.formatBits (img.tensorFormat p.tb))
    let f2 := match w with
      | 4 => 1 | 8 => 2 | 16 => 4 | _ => 32
    ceilDiv p.m 64 * ceilDiv p.n 64 * ceilDiv p.k 64 * 64 * f2 / 2 + 64

/-! ## Seeds and learned costs -/

/-- Number of seeds of the seed tensor. -/
def seedTotal (img : Image) : Nat := if img.seedTensor = 0xFFFF then 0 else min img.seedLimit (img.tensorSize img.seedTensor / 16)

/-- Seed record `i` of R174 from the seed tensor (R257); none where its block is missing. -/
def seedRecord (x : NetCtx) (i : Nat) : Option (List Byte) :=
  if x.blocks.any fun b => b.tensor == x.img.seedTensor && b.index == i / 64 then
    some ((List.range 4).flatMap fun j =>
      let v := fun k => x.elem x.img.seedTensor (16 * i + 4 * j + k)
      let f := f32ToInt (v 0) (-2 ^ 31) (2 ^ 31 - 1)
      leBytes (if 0 ≤ f ∧ f ≤ 63 then f.toNat else 0xFF) 1 ++ [0] ++
        leBytes (f32ToF16 (v 1)) 2 ++ leBytes (f32ToF16 (v 2)) 2 ++ leBytes (f32ToF16 (v 3)) 2)
  else none

/-- The chain of a candidate: a library rank, or a seed (R173, R174). -/
def candChain (x : NetCtx) (id : Nat) : Option (List PrimRef) :=
  if id < 0x40000000 then some (libraryChain x.img id)
  else (seedRecord x (id - 0x40000000)).bind (seedChain x.img)

/-- The LEARNED value of a candidate (R258). -/
def learnedCost (x : NetCtx) (id : Nat) : Word :=
  let img := x.img
  let read := fun (t i : Nat) =>
    if t = 0xFFFF ∨ img.tensorSize t ≤ i ∨ !(x.blocks.any fun b => b.tensor == t && b.index == i / 1024) then 0 else x.elem t i
  if !img.hasStage 2 then 0
  else if id < 0x40000000 then read img.costLibTensor (rankFirst img id)
  else if id < 0x80000000 then read img.costSeedTensor (id - 0x40000000)
  else 0

/-- The operator and block of propose task `t`: ascending operator, then block (R259). -/
def proposeTask (img : Image) (t : Nat) : Option (Nat × Nat) :=
  let go := (List.range img.opCount).foldl (fun (a : Nat × Option (Nat × Nat)) o =>
    match a.2 with
    | some _ => a
    | none =>
      let n := img.tensorBlocks (img.opField o 0xA 2)
      if a.1 < n then (0, some (o, a.1)) else (a.1 - n, none)) (t, none)
  go.2

/-- Number of propose tasks. -/
def proposeCount (img : Image) : Nat := (List.range img.opCount).foldl (fun n o => n + img.tensorBlocks (img.opField o 0xA 2)) 0

/-- The dowel of a block (R265): CRC-64/XZ over payload, block ID and epoch word. -/
def dowel (data : List Byte) (id : Nat) (e : Nat) : BitVec 64 := crc64 (data ++ leBytes id 4 ++ leBytes e 4)

/-- Block ID (R244). -/
def blockId (const : Bool) (tensor block : Nat) : Nat := bit const * 2 ^ 31 + tensor * 2 ^ 19 + block

end Sys2Proof.Machine
end

