-- ==== Sys2Proof/Machine/OrderOps.lean ====
section
/-! DEFINITION. Selection (chapter 10): the total order (R276), partial lists and offers (R278 to R281), the dovetail merge
(R283, R284), duplicates (R286), ties and short lists (R289 to R291), and the selection's bytes (R292, R293). -/

namespace Sys2Proof.Machine

/-- OKEY of a score (R276). -/
def okey (s : Word) : Nat :=
  let n := s.toNat
  let m := n % 2 ^ 31
  if 0x7F800000 < m then 0xFFFFFFFF
  else if m = 0 then 0x80000000
  else if 2 ^ 31 ≤ n then 0xFFFFFFFF - n else n + 2 ^ 31

/-- Entry `a` ranks before entry `b` (R276). -/
def ranksBefore (a b : PEntry) : Bool :=
  decide (okey a.score < okey b.score) || (okey a.score == okey b.score && decide (a.id < b.id))

/-- Two entries are tied (R277). -/
def tied (a b : PEntry) : Bool := okey a.score == okey b.score

/-- A score is NaN. -/
def isNanScore (s : Word) : Bool := okey s == 0xFFFFFFFF

/-- The copy kept of two with one ID, and whether they conflict (R286). -/
def keepCopy (a b : PEntry) : PEntry × Bool :=
  if a.score = b.score ∧ a.flags = b.flags then ({ a with src := min a.src b.src, eflags := a.eflags ||| (b.eflags &&& 2) }, false)
  else
    let first := if okey a.score ≠ okey b.score then decide (okey a.score < okey b.score)
      else if a.score ≠ b.score then decide (a.score.toNat < b.score.toNat) else decide (a.flags ≤ b.flags)
    let k := if first then a else b
    ({ k with eflags := k.eflags ||| 2 }, true)

/-- Insertion in rank order. -/
def insertRanked (x : PEntry) : List PEntry → List PEntry
  | [] => [x]
  | y :: r => if ranksBefore x y then x :: y :: r else y :: insertRanked x r

/-- An offer to a list of capacity `k` (R281), and whether it resolved a conflict. -/
def offerTo (k : Nat) (l : PList) (x : PEntry) : PList × Bool :=
  let l := { l with offered := min (l.offered + 1) 0xFFFFFFFF
                    nanOffered := if isNanScore x.score then min (l.nanOffered + 1) 0xFFFFFFFF else l.nanOffered }
  match l.entries.find? fun e => e.id == x.id with
  | some e =>
    let c := keepCopy e x
    let rest := l.entries.filter fun e => e.id ≠ x.id
    ({ l with entries := insertRanked c.1 rest, conflict := l.conflict || c.2 }, c.2)
  | none =>
    if l.entries.length < k then ({ l with entries := insertRanked x l.entries }, false)
    else match l.entries.getLast? with
      | none => (l, false)
      | some old =>
        if ranksBefore x old then
          let es := (insertRanked x l.entries).take k
          let t := match es.getLast? with
            | some y => tied y old
            | none => false
          ({ l with entries := es, exclTie := if t then min (l.exclTie + 1) 0xFFFF else 0 }, false)
        else if tied x old then ({ l with exclTie := min (l.exclTie + 1) 0xFFFF }, false)
        else (l, false)

/-- An empty partial list. -/
def emptyList (src : Nat) : PList := { src, conflict := false, entries := [], offered := 0, nanOffered := 0, exclTie := 0 }

/-- The ordering entry of a released record (Table 10-2). -/
def entryOf (src : Nat) (r : SweepRec) : PEntry :=
  { id := r.id, score := r.score, flags := r.flags, src, eflags := if isNanScore r.score then 4 else 0, minc := r.minc }

/-! ## The merge -/

/-- Distinct entries of inputs in rank order with duplicates resolved, and the number of conflicts (R284, R286). -/
def distinct (inputs : List PList) : List PEntry × Nat :=
  (inputs.flatMap (·.entries)).foldl (fun (a : List PEntry × Nat) x =>
    match a.1.find? fun e => e.id == x.id with
    | some e =>
      let c := keepCopy e x
      (insertRanked c.1 (a.1.filter fun e => e.id ≠ x.id), a.2 + bit c.2)
    | none => (insertRanked x a.1, a.2)) ([], 0)

/-- The excluded tied count of a group: entries consumed and not output that tie with the last output, and the EXCL_TIE of
inputs whose last entry ties with it (R289); 0 where fewer than `k` survive. -/
def exclTies (k : Nat) (inputs : List PList) (all : List PEntry) : Nat :=
  match (all.take k).getLast? with
  | none => 0
  | some s =>
    if all.length < k then 0
    else ((all.drop k).filter (tied s)).length +
      inputs.foldl (fun n l => n + match l.entries.getLast? with
        | some e => if tied s e then l.exclTie else 0
        | none => 0) 0

/-- One group merge: its result, at most `k` entries, and its conflicts (R284). -/
def mergeGroup (k : Nat) (inputs : List PList) : PList × Nat :=
  let d := distinct inputs
  ({ src := 0xFF, conflict := inputs.any (·.conflict) || decide (0 < d.2), entries := d.1.take k
     offered := min (inputs.foldl (fun n l => n + l.offered) 0) 0xFFFFFFFF
     nanOffered := min (inputs.foldl (fun n l => n + l.nanOffered) 0) 0xFFFFFFFF
     exclTie := min (exclTies k inputs d.1) 0xFFFF }, d.2)

/-- Groups of 16 inputs (R283). -/
def groups16 (l : List PList) : List (List PList) := (List.range (ceilDiv l.length 16)).map fun g => (l.drop (16 * g)).take 16

/-- What a merge gives: the inputs of its final round, the conflicts it resolved, its passes and its entries consumed. -/
structure MergeRun where
  last : List PList
  conflicts : Nat
  passes : Nat
  consumed : Nat

/-- Rounds before the final one (R283). -/
def mergeRounds (k : Nat) : Nat → List PList → MergeRun
  | 0, l => { last := l, conflicts := 0, passes := 0, consumed := 0 }
  | n + 1, l =>
    if l.length ≤ 16 then
      { last := l, conflicts := 0, passes := ceilDiv k 64, consumed := l.foldl (fun n p => n + p.entries.length) 0 }
    else
      let g := (groups16 l).map (mergeGroup k)
      let r := mergeRounds k n (g.map (·.1))
      { r with conflicts := r.conflicts + g.foldl (fun n p => n + p.2) 0, passes := r.passes + g.length * ceilDiv k 64
               consumed := r.consumed + l.foldl (fun n p => n + p.entries.length) 0 }

/-- A sentinel (R290). -/
def sentinel : PEntry := { id := 0xFFFFFFFF, score := 0x7F800000#32, flags := 0, src := 0xFF, eflags := 1, minc := 0x7FFFFFFF }

/-- The selection of an epoch from its final round (R289 to R292). On the fall-back path NaN entries are dropped (R296). -/
def selectionOf (k : Nat) (e : Epoch) (inputs : List PList) (fallback repeated : Bool) : Selection × Nat × Nat :=
  let run := if fallback then { last := inputs, conflicts := 0, passes := 1, consumed := inputs.foldl (fun n p => n + p.entries.length) 0 }
    else mergeRounds k 8 inputs
  let last := if fallback then run.last.map fun l => { l with entries := l.entries.filter fun x => !isNanScore x.score } else run.last
  let d := distinct last
  let out := d.1.take k
  let ties := exclTies k run.last d.1
  let conflicts := run.conflicts + d.2
  let any := decide (0 < conflicts) || inputs.any (·.conflict)
  let n := out.length
  let flags := bit (n < k) + 2 * bit (1 ≤ ties) + 4 * bit any + 8 * bit fallback + 16 * bit repeated
  let cycles := if fallback then 400 + 16 * run.consumed else 64 + 32 * run.passes + run.consumed
  ({ epoch := e, n, flags, tieCount := min ties 255, lists := inputs.length
     nanCount := min (inputs.foldl (fun n l => n + l.nanOffered) 0) 0xFFFFFFFF
     offered := min (inputs.foldl (fun n l => n + l.offered) 0) 0xFFFFFFFF
     entries := out ++ List.replicate (k - n) sentinel }, conflicts, cycles)

/-- The entry handed to refine: the first that is no sentinel and has no NaN score (R294). -/
def Selection.best (s : Selection) : Option PEntry := s.entries.find? fun e => !bitOf e.eflags 0 && !isNanScore e.score

/-- Bytes of an ordering entry (Table 10-2); `src` false reads SRC as 0 (R293). -/
def PEntry.bytes (e : PEntry) (src : Bool) : List Byte :=
  leBytes e.id 4 ++ leBytes e.score.toNat 4 ++ leBytes e.flags 2 ++ leBytes (if src then e.src else 0) 1 ++ leBytes e.eflags 1 ++
  leBytes (pattern 32 e.minc) 4

/-- The bytes of a partial list: header, then its entries (R280). -/
def PList.bytes (l : PList) : List Byte :=
  leBytes l.src 1 ++ leBytes (bit l.conflict) 1 ++ leBytes l.entries.length 2 ++ leBytes l.offered 4 ++ leBytes l.nanOffered 4 ++
  leBytes l.exclTie 2 ++ leBytes 0 2 ++ l.entries.flatMap fun e => e.bytes true

/-- Bytes of the selection as the select digest reads them (R293). -/
def Selection.digestBytes (s : Selection) (k : Nat) : List Byte :=
  leBytes s.epoch.toNat 4 ++ leBytes k 2 ++ leBytes s.n 2 ++ leBytes (s.flags % 8) 2 ++ leBytes 0 1 ++ leBytes 0 1 ++
  leBytes 0 4 ++ leBytes 0 4 ++ leBytes 0 12 ++ s.entries.flatMap fun e => e.bytes false

end Sys2Proof.Machine
end

