-- ==== Sys2Proof/Machine/JigOps.lean ====
section
/-! DEFINITION. The Task Dispatcher's shared operations (chapter 13): the tasks an epoch has (R173 to R176, R259, R358),
descriptors, the trace (R371), readiness (R352, R355, R360), flows and release (R362, R363), and what a released output
does (R205, R239, R281). -/

namespace Sys2Proof.Machine

/-! ## Tiles and stages -/

/-- Number of enabled logical tiles (R3). -/
def State.tiles (s : State) : Nat := s.die.bind.length

/-- Physical tile of a logical tile. -/
def State.phys (s : State) (n : Nat) : Nat := s.die.bind.getD n n

/-- Tiles of a mask, ascending. -/
def maskTiles (m : Nat) : List Nat := (List.range 32).filter fun n => bitOf m n

/-- Tiles that may run a stage's tasks: of a speculative epoch, the highest-numbered TILE_LIMIT of them (R328). -/
def State.stageTiles (s : State) (img : Image) (id : Nat) (spec : Bool) : List Nat :=
  let ts := maskTiles (img.stageTileMask id)
  let lim := s.get Reg.FRAME_SPEC_CTL.TILE_LIMIT
  if spec ∧ lim ≠ 0 then ts.drop (ts.length - lim) else ts

/-- The lowest-numbered tile of a stage that is not SUSPECT (R210, R296, R324). -/
def State.lowestGoodTile (s : State) (img : Image) (id : Nat) : Option Nat :=
  (maskTiles (img.stageTileMask id)).find? fun n => s.unitGood 0 (s.phys n)

/-- Threads no stage reserves on a tile (R350). -/
def poolThreads (img : Image) (tile : Nat) : Nat :=
  256 - ((List.range 10).filter fun id => bitOf (img.stageTileMask id) tile).foldl (fun n id => n + img.stageThreads id) 0

/-- WALL budget mode. -/
def wall (img : Image) : Bool := !img.quotaMode

/-! ## Candidates and tasks of an epoch -/

/-- Library candidates an epoch evaluates (R173, R175). -/
def libLimit (img : Image) : Nat := if img.quotaMode then min (libraryCount img) img.quotaCandidates else libraryCount img

/-- Seeds an epoch has, without a propose stage none (R174). -/
def seedLimit (img : Image) : Nat := if img.hasStage 2 then seedTotal img else 0

/-- Number of expand tasks, and of sweep tasks (R176). -/
def expandCount (img : Image) : Nat := ceilDiv (libLimit img) 64 + ceilDiv (seedLimit img) 64

/-- The IDs of expand task `t` (R176). -/
def taskIds (img : Image) (t : Nat) : List Nat :=
  let n := ceilDiv (libLimit img) 64
  if t < n then (List.range (min 64 (libLimit img - 64 * t))).map fun i => 64 * t + i
  else (List.range (min 64 (seedLimit img - 64 * (t - n)))).map fun i => 0x40000000 + 64 * (t - n) + i

/-- Number of tasks of a stage in the committed epoch. -/
def State.taskCount (s : State) (img : Image) (id : Nat) : Nat := match id with
  | 2 => proposeCount img
  | 3 => expandCount img
  | 4 => expandCount img
  | 5 => match s.ledger.search with
    | some q => q.paths.length
    | none => 0
  | _ => 0

/-- Number of tasks of a stage in a speculative epoch. -/
def specTaskCount (img : Image) (x : SpecEp) (id : Nat) : Nat := match id with
  | 2 => proposeCount img
  | 3 => expandCount img
  | 4 => expandCount img
  | 5 => match x.search with
    | some q => q.paths.length
    | none => 0
  | _ => 0

/-! ## Chain placement (R497) -/

/-- Chain position; 0 on a standalone device. -/
def State.position (s : State) : Nat := if s.get Reg.SAFE_SP_STRAPS.ROLE = 0 then 0 else s.get Reg.TENON_CHAIN.POSITION

/-- The device holds select, refine, verify and commit: it is standalone, or the tail of its chain (Table 17-8). -/
def State.isTail (s : State) : Bool :=
  s.get Reg.SAFE_SP_STRAPS.ROLE == 0 ||
  (s.get Reg.TENON_STATUS.DEVICE == s.get Reg.TENON_DEVICES.TAIL && s.get Reg.TENON_STATUS.DEVICE != 0xFFF)

/-- Number of sweeping devices, and the rank of this one; none where it does not sweep. -/
def State.sweepShare (s : State) : Nat × Option Nat :=
  if s.get Reg.SAFE_SP_STRAPS.ROLE = 0 then (1, some 0)
  else
    let c := s.get Reg.TENON_CHAIN.ACTIVE
    let n := min c 4
    let p := s.get Reg.TENON_CHAIN.POSITION
    (n, if p < c ∧ c ≤ p + n then some (p + n - c) else none)

/-- Task `t` of a stage runs on this device (R497): propose on the device of its operator's CHIP, expand and sweep in turn on
the sweeping devices, the ledger stage on the tail. -/
def State.runsTask (s : State) (img : Image) (id t : Nat) : Bool := match id with
  | 2 => match proposeTask img t with
    | some p => img.opField p.1 3 1 == s.position
    | none => false
  | 5 => s.isTail
  | _ => match s.sweepShare with
    | (n, some r) => t % n == r
    | _ => false

/-- Index of a task among those of its stage that run on this device: floor(t / S) for expand and sweep (R497). -/
def State.localIdx (s : State) (img : Image) (id t : Nat) : Nat :=
  if id = 3 ∨ id = 4 then t / max 1 s.sweepShare.1 else ((List.range t).filter (s.runsTask img id)).length

/-- The tile whose agent creates task `t` of a stage: that of the operator for propose (R261), else the i-th allowed tile
with the device's task index = i modulo their number (R358); none where the task runs on another device. -/
def State.taskTile (s : State) (img : Image) (id t : Nat) (spec : Bool) : Option Nat :=
  if !s.runsTask img id t then none
  else if id = 2 then (proposeTask img t).map fun p => img.opField p.1 2 1
  else
    let ts := s.stageTiles img id spec
    if ts.isEmpty then none else ts[s.localIdx img id t % ts.length]?

/-- Flow of task `t` of a stage, and its sequence (R362), among the tasks that run on this device. -/
def State.taskFlow (s : State) (img : Image) (id t : Nat) : Nat × Nat :=
  let n := max 1 (img.flowCount id)
  let i := s.localIdx img id t
  (img.flowBase id + i % n, i / n)

/-! ## Descriptors -/

/-- Key of a descriptor. -/
def descKey (tile d : Nat) : Nat := 2048 * tile + d

/-- A descriptor. -/
def State.desc (s : State) (tile d : Nat) : Desc := sGet {} (descKey tile d) s.jig.descs

/-- The state with a descriptor written. -/
def State.setDesc (s : State) (tile d : Nat) (x : Desc) : State :=
  { s with jig := { s.jig with descs := sSet {} (descKey tile d) x s.jig.descs } }

/-- Bound descriptors of a tile: index and content. -/
def State.bound (s : State) (tile : Nat) : List (Nat × Desc) :=
  (s.jig.descs.filter fun p => p.1 / 2048 == tile && p.2.state != 0).map fun p => (p.1 % 2048, p.2)

/-- Lowest free descriptor of an agent. -/
def State.freeDesc (s : State) (tile : Nat) : Option Nat := (List.range 2048).find? fun d => (s.desc tile d).state == 0

/-- Ready depth of an agent (R360). -/
def State.readyDepth (s : State) (tile : Nat) : Nat := ((s.bound tile).filter fun p => p.2.state == 3 || p.2.state == 4).length

/-- Counters of the epoch in progress. -/
def State.tally (s : State) (f : Field) (n : Nat) : State :=
  { s with jig := { s.jig with tally := sSet 0 f.key (sGet 0 f.key s.jig.tally + n) s.jig.tally } }

/-- Count so far of a field that is latched at commit. -/
def State.tallied (s : State) (f : Field) : Nat := sGet 0 f.key s.jig.tally

/-- Registers that show an agent now. -/
def showAgent (s : State) (tile : Nat) : State :=
  let p := s.phys tile
  let b := s.bound tile
  let s := s.set (Reg.TILE_JIG_STATE.READY p) (s.readyDepth tile)
  let s := s.set (Reg.TILE_JIG_STATE.RUNNING p) (b.filter fun x => x.2.state == 5).length
  let s := s.set Reg.JIG_STATUS.PEND_READY (bit (s.jig.descs.any fun x => x.2.state == 4))
  let used := s.tallied Reg.JIG_DESC_FREE_MIN.FREE
  if used < b.length then s.tally Reg.JIG_DESC_FREE_MIN.FREE (b.length - used) else s

/-! ## Trace (R371) -/

/-- One trace record (Table 13-6). -/
def traceBytes (s : State) (event tile d : Nat) (x : Desc) (detail : Nat) : List Byte :=
  let flow := match x.kind with
    | .stage _ _ => x.flow
    | _ => 0xFFF
  leBytes s.frame.now.toNat 6 ++ leBytes event 1 ++ leBytes tile 1 ++ leBytes d 2 ++ leBytes (flow + 4096 * x.priority) 2 ++
  leBytes x.seq 2 ++ leBytes x.epoch.toNat 1 ++ leBytes detail 1

/-- A scheduling decision is recorded where its class is enabled; a full ring stops with STOP set and overwrites its oldest
record otherwise. Whether a record can be written at once is free; one that cannot is lost and counted. -/
def trace (s : State) (cls event tile d : Nat) (x : Desc) (detail : Nat) : State :=
  if !bitOf (s.get Reg.JIG_TRACE_CTL.ENABLE) cls ∨ (s.get Reg.JIG_TRACE_CTL.STOP = 1 ∧ 65536 ≤ s.jig.trace.length) then s
  else if (s.draw 1).1 = 1#1 then (s.draw 1).2.inc Reg.JIG_TRACE_LOST.COUNT
  else
    let i := s.get Reg.JIG_TRACE_WR.INDEX
    let bytes := traceBytes s event tile d x detail
    let s := (s.draw 1).2
    let s := { s with jig := { s.jig with trace := (bytes :: s.jig.trace).take 65536 }
                      eth := { s.eth with traceUnsent := min 65536 (s.eth.traceUnsent + 1) } }
    let s := s.set Reg.JIG_TRACE_WR.INDEX ((i + 1) % 65536)
    let s := if i = 65535 then s.inc Reg.JIG_TRACE_WR.WRAPS else s
    s.set Reg.JIG_STATUS.TRACE_FULL (bit (s.get Reg.JIG_TRACE_CTL.STOP = 1 ∧ 65536 ≤ s.jig.trace.length))

/-- A hold under R368: counted, and recorded with the row of Table 13-5. -/
def hold (s : State) (row tile d : Nat) (x : Desc) : State :=
  trace (s.inc Reg.JIG_BACKPRESSURE.COUNT) 5 8 tile d x row

/-! ## Readiness -/

/-- The wait condition (R352). -/
def Desc.waitMet (x : Desc) : Bool :=
  x.waitMask == 0 || (if x.waitAnd then x.flags &&& x.waitMask == x.waitMask else x.flags &&& x.waitMask != 0)

/-- Tasks that may move to another tile: never started, no propose task (R261), and no expand or sweep task, whose pair
stays on one tile (R184, R359, R361). -/
def Desc.mayMove (x : Desc) : Bool := x.lastTile == 0xFF && match x.kind with
  | .stage id _ => id == 5
  | .job _ => true
  | _ => false

/-- Tiles allowed to run a task. -/
def State.allowed (s : State) (img : Image) (x : Desc) : List Nat := match x.kind with
  | .stage id _ => s.stageTiles img id x.speculative
  | .unordered id => s.stageTiles img id x.speculative
  | _ => List.range s.tiles

/-- Announced depth of a tile. -/
def State.announced (s : State) (tile : Nat) : Nat := sGet 0 tile s.jig.announced

/-- The allowed tile with the least announced depth, the lowest number winning (R360). -/
def State.shallowest (s : State) (ts : List Nat) : Option Nat := match ts with
  | [] => none
  | t :: r => some (r.foldl (fun b n => if s.announced n < s.announced b then n else b) t)

/-- A ready task is offered to the shallowest allowed tile when the local depth exceeds its by more than
AFFINITY_THRESHOLD (R360). -/
def offerTask (s : State) (img : Image) (tile d : Nat) : State :=
  let x := s.desc tile d
  match s.shallowest ((s.allowed img x).filter (· ≠ tile)) with
  | some t =>
    if x.mayMove ∧ x.state = 3 ∧ s.get Reg.JIG_AFFINITY.THRESHOLD < s.readyDepth tile - s.announced t then
      s.setDesc tile d { x with state := 6, offer := t }
    else s
  | none => s

/-- A task becomes ready: it takes a ready slot, or waits in PEND_READY while all 1,024 are taken (R355), then may be offered. -/
def makeReady (s : State) (img : Image) (tile d why : Nat) : State :=
  let x := s.desc tile d
  let n := s.jig.order + 1
  let taken := ((s.bound tile).filter fun p => p.2.state == 3).length
  let s := { s with jig := { s.jig with order := n } }
  let s := if x.state = 1 ∨ x.state = 2 then trace s 2 7 tile d x why else s
  if 1024 ≤ taken then
    let y := { x with state := 4, order := n }
    showAgent (trace (hold (s.setDesc tile d y) 1 tile d y) 4 6 tile d y 2) tile
  else showAgent (offerTask (s.setDesc tile d { x with state := 3, order := n }) img tile d) tile

/-- A ready slot freed: the pending task whose condition was met first takes it (R355). -/
def promote (s : State) (tile : Nat) : State :=
  match (s.bound tile).filter fun p => p.2.state == 4 with
  | [] => s
  | p :: r =>
    let q := r.foldl (fun b x => if x.2.order < b.2.order then x else b) p
    s.setDesc tile q.1 { q.2 with state := 3 }

/-! ## Flows -/

/-- Next-release sequence of a flow of the committed epoch. -/
def State.nextSeq (s : State) (f : Nat) : Nat := sGet 0 f s.jig.next

/-- Next sequence of a speculative epoch's flow: the first whose task is not done. -/
def specNext (s : State) (img : Image) (x : SpecEp) (id f : Nat) : Nat :=
  let done := (x.done.filter fun p => p.1 == id).map fun p => s.taskFlow img id p.2
  let seqs := (done.filter fun p => p.1 == f).map (·.2)
  ((List.range (seqs.length + 1)).find? fun q => !seqs.contains q).getD 0

/-- A speculative epoch by number. -/
def State.specEp (s : State) (e : Epoch) : Option SpecEp := s.spec.epochs.find? fun x => x.epoch == e

/-- The state with a speculative epoch replaced. -/
def State.setSpec (s : State) (x : SpecEp) : State :=
  { s with spec := { s.spec with epochs := s.spec.epochs.map fun y => if y.epoch = x.epoch then x else y } }

/-- A sequence lies within its flow's window (R362). -/
def State.inWindow (s : State) (img : Image) (x : Desc) : Bool := match x.kind with
  | .stage id _ =>
    let r := if x.speculative then (match s.specEp x.epoch with
        | some y => specNext s img y id x.flow
        | none => 0) else s.nextSeq x.flow
    decide (x.seq < r + img.flowWindow x.flow)
  | _ => true

/-- The task of a stage and index is complete in the committed epoch. -/
def State.isDone (s : State) (id t : Nat) : Bool :=
  (s.jig.held.any fun d => d.stage == id && d.index == t) || s.jig.released.any fun d => d.stage == id && d.index == t

/-! ## Release -/

/-- A record offered to its tile's partial list (R278, R281); a conflict is charged to the Ordering Unit (R286). -/
def offerRecord (s : State) (img : Image) (tile : Nat) (r : SweepRec) : State :=
  let l := (s.order.lists.find? fun l => l.src == tile).getD (emptyList tile)
  let o := offerTo img.topK l (entryOf tile r)
  let rest := s.order.lists.filter fun l => l.src ≠ tile
  let s := { s with order := { s.order with lists := rest ++ [o.1] } }
  if o.2 then
    detect ((s.set Reg.ORDER_STATUS.SCORE_CONFLICT 1).inc Reg.ORDER_CONFLICT_COUNT.CONFLICTS) (mkError 3 0 1 12 0)
  else s

/-- Devices other than this one that consume a tensor: those of the operators that read it, and the sweeping devices for
seeds and learned costs (R497, R499). -/
def State.consumers (s : State) (img : Image) (tensor : Nat) : List Nat :=
  let ops := ((List.range img.opCount).filter fun o => (List.range 3).any fun k => img.opIn o k == tensor).map fun o => img.opField o 3 1
  let c := s.get Reg.TENON_CHAIN.ACTIVE
  let sweep := if tensor = img.seedTensor ∨ tensor = img.costSeedTensor ∨ tensor = img.costLibTensor
    then (List.range c).filter fun p => decide (c ≤ p + min c 4) else []
  ((ops ++ sweep).eraseDups.filter fun p => p != s.position).filterMap fun p => s.tenon.numbers[p]?

/-- A propose block goes to the devices that consume it, with SPEC while its epoch is speculative, and with RESENT where it
replaces a speculative copy (R499). A kept copy is not sent again. -/
def sendBlock (s : State) (img : Image) (e : Epoch) (spec : Bool) (b : Block) : State :=
  let again := s.tenon.sentSpec.contains (e, b.tensor, b.index)
  if !s.inChain ∨ (again ∧ !spec ∧ s.spec.keptBlocks.any fun k => k.tensor == b.tensor && k.index == b.index) then s
  else
    let id := blockId false b.tensor b.index
    let tag := leBytes id 4 ++ leBytes e.toNat 4 ++ leBytes (dowel b.data id e.toNat).toNat 8
    let s := if spec then { s with tenon := { s.tenon with sentSpec := (e, b.tensor, b.index) :: s.tenon.sentSpec } } else s
    (s.consumers img b.tensor).foldl (fun s d => match s.routeTo d with
      | some l => sendMessage s l (blockMessage d s.device e (4 * bit spec + 8 * bit (again && !spec)) tag b.data)
      | none => s) s

/-- What a released output does: a record enters the counts of its tile and, without COLLIDED, its partial list (R205,
R213, R239); a block counts in the propose registers (R275). -/
def releaseOutput (img : Image) (tile stage : Nat) (s : State) (o : Output) : State :=
  let p := s.phys tile
  match o with
  | .record r =>
    let s := s.tally (Reg.TILE_SWEEP_CANDIDATES.RELEASED p) 1
    let s := if bitOf r.flags 15 then s.tally (Reg.TILE_SWEEP_COLLIDED.COLLIDED p) 1 else s
    let s := if stage = 4 then s.tally Reg.FRAME_CANDIDATES.SWEPT 1 else s
    let s := if bitOf r.flags 10 then s.set (Reg.TILE_SWEEP_STATUS.OFF_GRID p) 1 else s
    let s := if bitOf r.flags 9 then s.set (Reg.TILE_SWEEP_STATUS.PRED_BEYOND p) 1 else s
    let s := if bitOf r.flags 12 then s.set (Reg.TILE_SWEEP_STATUS.SATURATED p) 1 else s
    let s := if bitOf r.flags 11 then s.set (Reg.TILE_SWEEP_STATUS.POISONED_READ p) 1 else s
    if bitOf r.flags 15 then s else offerRecord s img tile r
  | .block b =>
    let s := if b.tensor = img.seedTensor then s.tally Reg.FRAME_PROPOSE_SEED_BLOCKS.BLOCKS 1 else s
    let s := sendBlock s img (epochOf s.frame.k) false b
    { s with jig := { s.jig with proposeDone := some ((s.frame.now - s.frameStartNs s.frame.k) / 1000).toNat } }
  | .cand _ _ _ => s

/-- Outputs of a completed task are released (R363). -/
def releaseTask (img : Image) (s : State) (d : DoneTask) : State :=
  let s := { s with jig := { s.jig with held := s.jig.held.filter fun h => !(h.stage == d.stage && h.index == d.index)
                                        released := s.jig.released ++ [d]
                                        next := sSet 0 d.flow (d.seq + 1) s.jig.next } }
  let s := d.outs.foldl (releaseOutput img d.tile d.stage) s
  trace s 3 5 d.tile 0 { kind := .stage d.stage d.index, flow := d.flow, seq := d.seq, epoch := epochOf s.frame.k, priority := img.stagePriority d.stage }
    (min 255 d.outs.length)

/-- Release of everything a flow can release, in ascending sequence (R363). -/
def releaseFlow (img : Image) (f : Nat) : Nat → State → State
  | 0, s => s
  | n + 1, s => match s.jig.held.find? fun d => d.flow == f && d.seq == s.nextSeq f && !d.replay with
    | some d => releaseFlow img f n (releaseTask img s d)
    | none => s

/-- A task is complete: its outputs wait in its flow, and what can be released is (R363). Outputs of a SUSPECT tile wait
for their replay (R532). -/
def finishTask (s : State) (img : Image) (id t tile : Nat) (outs : List Output) : State :=
  let f := s.taskFlow img id t
  let d : DoneTask := { stage := id, index := t, tile, flow := f.1, seq := f.2, outs
                        replay := !outs.isEmpty && !s.unitGood 0 (s.phys tile) }
  let s := { s with jig := { s.jig with held := s.jig.held ++ [d] } }
  releaseFlow img f.1 (s.jig.held.length) s

/-- Every task of a stage of the committed epoch that runs on this device has released. -/
def State.stageReleased (s : State) (img : Image) (id : Nat) : Bool :=
  (List.range (s.taskCount img id)).all fun t => !s.runsTask img id t || s.jig.released.any fun d => d.stage == id && d.index == t

/-- Outputs of a stage in canonical order: task 0, task 1 and onwards (R364). -/
def State.stageOutputs (s : State) (id : Nat) : List Output :=
  ((s.jig.released.filter fun d => d.stage == id).mergeSort fun a b => decide (a.index ≤ b.index)).flatMap (·.outs)

/-- Released blocks of the committed epoch, and those received from other chips (R499). -/
def State.blocks (s : State) : List Block := s.jig.received ++ (s.stageOutputs 2).filterMap fun
  | .block b => some b
  | _ => none

end Sys2Proof.Machine
end

