-- ==== Sys2Proof/Machine/FieldTest.lean ====
section
/-! DEFINITION. Field tests (R536 to R539): when a slice of each zone's test may run (Table 19-4, R34, R369), its admission
under a TEST token, and what a tile that becomes SUSPECT does at once (R533). -/

namespace Sys2Proof.Machine

/-! ## Windows -/

/-- Start of the next reserved safety window from a time (R34, R369). -/
def State.nextWindow (s : State) (img : Image) : Int :=
  let w := s.frameStartNs s.frame.k + 1000 * (img.searchUs + img.refineUs)
  if s.frame.now < w then w else w + img.periodNs

/-- A time lies in the reserved safety window of the frame (R34). -/
def State.inSafetyWindow (s : State) (img : Image) : Bool :=
  let a := s.frameStartNs s.frame.k + 1000 * (img.searchUs + img.refineUs)
  decide (a ≤ s.frame.now ∧ s.frame.now < a + 1000 * img.verifyUs)

/-- The time lies in the frame margin, and `us` later the next frame has not started (Table 19-4). -/
def State.inMargin (s : State) (img : Image) (us : Nat) : Bool :=
  let a := s.frameStartNs s.frame.k + 1000 * (img.searchUs + img.refineUs + img.verifyUs)
  decide (a ≤ s.frame.now ∧ s.frame.now + 1000 * us ≤ s.frameStartNs (s.frame.k + 1))

/-- A slice of `us` at most ends before the next reserved safety window and starts outside every one; with no frame in
progress no window stands in its way. -/
def State.clearOfWindow (s : State) (us : Nat) : Bool := match s.cfg.image with
  | some img => !s.frame.inFrame || (!s.inSafetyWindow img && decide (s.frame.now + 1000 * us ≤ s.nextWindow img))
  | none => true

/-! ## Tests -/

/-- The TEST token of a unit. -/
def testToken (cls idx : Nat) : Token := { act := 0, cls, idx }

/-- Slices of a zone's test (Table 19-4); 0 where a scrub pass or a retrain is the test, or there is none. -/
def testSlices (cls : Nat) : Nat := match cls with
  | 0 => 96 | 1 => 32 | 2 => 64 | 3 => 4 | 4 => 24 | _ => 0

/-- The unit has a field test: its zone is in Table 19-4, and it is neither absent nor retired. -/
def State.hasTest (s : State) (cls idx : Nat) : Bool := decide (cls ≤ 6) && decide (idx < zoneSize cls) && s.unitUsable cls idx

/-- The unit runs a test slice now. -/
def State.sliceRuns (s : State) (cls idx : Nat) : Bool := s.fault.tokens.contains (testToken cls idx)

/-- A slice may run now on a unit other than a tile (Table 19-4). -/
def State.sliceFits (s : State) (cls idx : Nat) : Bool :=
  match cls with
  | 1 => match s.cfg.image with
    | some img => !s.frame.inFrame || s.inMargin img 10
    | none => true
  | 2 => s.get Reg.LEDGER_STATUS.PHASE == 0 && (match s.cfg.image with
    | some img => !s.frame.inFrame || s.inMargin img 10
    | none => true)
  | 3 => s.order.inputs.isNone && s.clearOfWindow 20
  | 4 => s.clearOfWindow 50 && !(s.solver.run.any fun r => r.engine == idx || r.second == some idx) &&
    !(s.solver.diag.any fun d => d.1 == idx) && !(s.eth.jobs.any fun j => j.state == 1 && j.engine == some idx)
  | _ => false

/-- Admission of the next slice of a unit's test: it takes a TEST token, or stays deferred (R547). -/
def admitSlice (s : State) (cls idx : Nat) : State :=
  let u := s.unit cls idx
  if testSlices cls = 0 ∨ cls = 0 ∨ (!u.due ∧ !u.active) ∨ !s.unitUsable cls idx ∨ s.sliceRuns cls idx ∨ !s.sliceFits cls idx then s
  else
    let r := takeToken s (testToken cls idx)
    if !r.1 then r.2
    else
      let s := r.2.setUnit cls idx { u with due := false, blocked := false, active := true }
      if cls = 4 then { s with solver := { s.solver with testing := setAdd idx s.solver.testing } } else s

/-- Every deferred slice is tried again. -/
def admitWaiting (s : State) : State :=
  s.fault.units.foldl (fun s p => admitSlice s (p.1 / 256) (p.1 % 256)) s

/-! ## A tile becomes SUSPECT -/

/-- The actions of R533 for logical tile `n`: ready tasks that have never run are offered to the shallowest other tile, and
completed outputs that are not released wait for their replay. -/
def tileSuspect (s : State) (n : Nat) : State :=
  let s := { s with jig := { s.jig with held := s.jig.held.map fun (d : DoneTask) =>
    if d.tile = n ∧ !d.outs.isEmpty then { d with replay := true } else d } }
  match s.cfg.image with
  | none => s
  | some img => ((s.bound n).filter fun p => p.2.state == 3 && p.2.mayMove).foldl (fun s p =>
      match s.shallowest ((s.allowed img p.2).filter fun t => t != n) with
      | some t => s.setDesc n p.1 { p.2 with state := 6, offer := t }
      | none => s) s

/-- The tiles that became SUSPECT between two states take the actions of R533. -/
def settleSuspects (old new : State) : State :=
  (List.range new.tiles).foldl (fun s n =>
    if old.unitGood 0 (s.phys n) ∧ (s.unit 0 (s.phys n)).state = 1 then tileSuspect s n else s) new

end Sys2Proof.Machine
end

