-- ==== Sys2Proof/Machine/Jig.lean ====
section
/-! DEFINITION. The Task Dispatcher's commands (chapter 13): creation (R358, R359), flag tokens (R351), ticks (R353, R354),
dispatch (R356, R369), yields (R357, R208), completion with the work each stage's task does (R161 to R171, R188 to R205,
R238, R239, R250 to R259), announcements and offers (R360, R361), aborted slices (R370), and panel reads (R206). -/

namespace Sys2Proof.Machine

/-! ## Creation -/

/-- The descriptor a new task is bound to. -/
def newDesc (s : State) (img : Image) (e : Epoch) (kind : TaskKind) (spec : Bool) (waitMask : Word) (waitAnd : Bool) : Desc := match kind with
  | .stage id t =>
    let f := s.taskFlow img id t
    { kind, program := img.stageProgram id, priority := img.stagePriority id, waitAnd, speculative := spec, state := 1, waitMask
      flow := f.1, seq := f.2, epoch := e, arg := BitVec.ofNat 32 ((taskIds img t).headD 0) }
  | .unordered id =>
    { kind, program := img.stageProgram id, priority := img.stagePriority id, waitAnd, speculative := spec, state := 1, waitMask, epoch := e }
  | .job p => { kind, waitAnd, state := 1, waitMask, partition := p, epoch := e }
  | .slice w => { kind, waitAnd, state := 1, waitMask, epoch := e, arg := BitVec.ofNat 32 w }

/-- A new descriptor is bound; a task whose condition already holds is ready at once (R352). -/
def bindDesc (s : State) (img : Image) (tile d : Nat) (x : Desc) : State :=
  let s := s.setDesc tile d x
  if x.waitMet then makeReady s img tile d 0 else showAgent s tile

/-- Number of tasks a stage has in an epoch. -/
def State.countOf (s : State) (img : Image) (id : Nat) (spec : Bool) (e : Epoch) : Nat :=
  if spec then (match s.specEp e with
    | some y => specTaskCount img y id
    | none => 0)
  else s.taskCount img id

/-- A task exists already: it is bound, or complete. -/
def State.taskExists (s : State) (id t : Nat) (spec : Bool) (e : Epoch) : Bool :=
  (s.jig.descs.any fun p => p.2.state != 0 && p.2.kind == .stage id t && p.2.speculative == spec && p.2.epoch == e) ||
  (if spec then (match s.specEp e with
    | some y => y.done.contains (id, t)
    | none => true)
  else s.isDone id t)

/-- The lowest speculative epoch that takes work. -/
def State.specTarget (s : State) : Option SpecEp := s.spec.epochs.find? fun x => !x.full

/-- A new task `x` of a running image is bound to free descriptor `d` of a tile, or held back (R345, R362, R368). A stage task is created in
ascending canonical index, once, by the tile the stage gives it to; an expand task brings its sweep task, which waits for it. -/
def createTask (s : State) (img : Image) (tile : Nat) (kind : TaskKind) (spec : Bool) (e : Epoch) (x : Desc) (d : Nat) : State :=
  match kind with
  | .stage id t =>
    let able := (id == 2 || id == 3 || id == 5) && (if spec then s.specTarget.isSome && s.flag Reg.FRAME_SPEC_CTL.ENABLE else s.frame.inFrame)
    let mine := s.taskTile img id t spec == some tile && decide (t < s.countOf img id spec e) && !s.taskExists id t spec e
    let first := (List.range t).all fun u => s.taskTile img id u spec != some tile || s.taskExists id u spec e
    let cut := !spec && s.frame.searchOver && wall img
    if !able ∨ !mine ∨ !first ∨ cut then s
    else if !s.inWindow img x then hold s 2 tile d x
    else if id = 3 then
      let y := { newDesc s img e (.stage 4 t) spec 1 true with arg := x.arg }
      let s1 := s.setDesc tile d x
      match s1.freeDesc tile with
      | none => hold s 0 tile 0 x
      | some d2 => if !s.inWindow img y then hold s 2 tile d2 y else bindDesc (bindDesc s img tile d2 y) img tile d x
    else bindDesc s img tile d x
  | .unordered _ => bindDesc s img tile d x
  | .job _ => bindDesc s img tile d x
  | .slice w =>
    let u := s.unit 0 (s.phys tile)
    if 50 < w ∨ (!u.due ∧ !u.active) then s else bindDesc s img tile d x

/-- TASK_CREATE (R358, R359, R362, R368): the agent creates the task when it is the next of the stage that this agent
creates, its sequence lies in the window, and descriptors are free; an exhausted capacity holds the source back. -/
def execTaskCreate (tile : Nat) (kind : TaskKind) (spec : Bool) (waitMask : Word) (waitAnd : Bool) (s : State) : Result :=
  if s.tiles ≤ tile then .fault .noSuchUnit
  else match s.cfg.image with
  | none => .next s
  | some img =>
    let e := if spec then ((s.specTarget.map (·.epoch)).getD 0) else epochOf s.frame.k
    let x := newDesc s img e kind spec waitMask waitAnd
    match s.freeDesc tile with
    | none => .next (hold s 0 tile 0 x)
    | some d => .next (createTask s img tile kind spec e x d)

/-! ## Flags and ticks -/

/-- FLAG_TOKEN (R351, R352). -/
def execFlagToken (tile d : Nat) (value : Word) (s : State) : Result :=
  if s.tiles ≤ tile ∨ 2048 ≤ d then .fault .noSuchUnit
  else match s.cfg.image with
  | none => .next s
  | some img =>
    let x := s.desc tile d
    if x.state = 0 then .next s
    else
      let y := { x with flags := x.flags ||| value }
      let s := s.setDesc tile d y
      .next (if y.state = 1 ∧ y.waitMet then makeReady s img tile d 0 else s)

/-- The tick of a time (R353). -/
def tickAt (img : Image) (t : Int) : Word := BitVec.ofNat 32 (t.toNat / (1000 * max 1 img.tickUs))

/-- TICK (R353, R354): the next boundary passes; after a backward step the tick holds its value until time passes it. Every
delayed task whose WAKE_TICK is not later becomes ready, in list order; deferred test slices are tried again (R369). -/
def execTick (s : State) : Result :=
  match s.cfg.image with
  | none => .next s
  | some img =>
    let len : Int := 1000 * max 1 img.tickUs
    let now := (s.frame.now / len + 1) * len
    let n := tickAt img now
    let s := { s with frame := { s.frame with now } }
    let n := if epochLater n s.jig.tick then n else s.jig.tick
    let s := { s.set Reg.JIG_TICK.TICK n.toNat with jig := { s.jig with tick := n } }
    let due := (s.jig.descs.filter fun p => p.2.state == 2 && !epochLater p.2.wakeTick n).mergeSort fun a b =>
      decide (a.1 / 2048 < b.1 / 2048) || (a.1 / 2048 == b.1 / 2048 &&
        (epochLater b.2.wakeTick a.2.wakeTick || (a.2.wakeTick == b.2.wakeTick && decide (a.1 ≤ b.1))))
    .next (admitWaiting (due.foldl (fun s p => makeReady s img (p.1 / 2048) (p.1 % 2048) 1) s))

/-! ## Dispatch -/

/-- A ready task belongs to a reserve: a stage's own threads, or the pool for jobs and slices (R350). -/
def inReserve (x : Desc) (reserve : Nat) : Bool := match x.kind with
  | .stage id _ => id == reserve
  | .unordered id => id == reserve
  | _ => reserve == 0

/-- Threads of a reserve on a tile. -/
def reserveSize (img : Image) (tile reserve : Nat) : Nat :=
  if reserve = 0 then poolThreads img tile else if bitOf (img.stageTileMask reserve) tile then img.stageThreads reserve else 0

/-- Rank of R356: `a` before `b`. -/
def dispatchBefore (a b : Nat × Desc) : Bool :=
  let x := a.2
  let y := b.2
  if x.speculative != y.speculative then !x.speculative
  else if x.speculative ∧ x.epoch ≠ y.epoch then epochLater y.epoch x.epoch
  else if x.priority ≠ y.priority then decide (y.priority < x.priority)
  else if x.order ≠ y.order then decide (x.order < y.order)
  else if x.flow ≠ y.flow then decide (x.flow < y.flow)
  else if x.seq ≠ y.seq then decide (x.seq < y.seq)
  else decide (a.1 < b.1)

/-- A stage whose tasks of the epoch are cut at T_search in WALL mode (R31, R260). -/
def cutStage (id : Nat) : Bool := id == 2 || id == 3 || id == 4 || id == 5

/-- The test slice running on a tile. -/
def State.sliceOn (s : State) (tile : Nat) : Bool := (s.bound tile).any fun p => p.2.state == 5 && match p.2.kind with
  | .slice _ => true
  | _ => false

/-- A ready task can be dispatched (R356, R31, R328); a tile whose test has passed its deferral limit takes none but the test
(R539). -/
def State.dispatchable (s : State) (img : Image) (tile reserve : Nat) (p : Nat × Desc) : Bool :=
  let x := p.2
  x.state == 3 && inReserve x reserve && s.inWindow img x && !s.sliceOn tile &&
  (match x.kind with
  | .stage id _ => !(cutStage id && !x.speculative && wall img && s.frame.searchOver)
  | _ => true) &&
  (!(s.unit 0 (s.phys tile)).blocked || (match x.kind with
  | .slice _ => true
  | _ => false)) &&
  (!x.speculative || !(s.bound tile).any fun q => q.2.state == 3 && !q.2.speculative && inReserve q.2 reserve)

/-- A task is dispatched on a thread. -/
def runTask (s : State) (tile d reserve thread : Nat) : State :=
  let x := s.desc tile d
  let s := s.setDesc tile d { x with state := 5, lastTile := tile, thread, reserve }
  let s := s.tally (Reg.TILE_JIG_DISPATCHES.COUNT (s.phys tile)) 1
  showAgent (trace (promote s tile) 0 1 tile d x thread) tile

/-- A test slice about to be dispatched: admitted under R369 with a TEST token, or deferred (R547). -/
def trySlice (s : State) (img : Image) (tile d thread : Nat) : State :=
  let x := s.desc tile d
  let busy := (s.bound tile).any fun p => p.2.state == 5
  let ok := !busy && !s.inSafetyWindow img && decide (s.frame.now + 1000 * x.arg.toNat ≤ s.nextWindow img)
  let u := s.unit 0 (s.phys tile)
  let r := if ok then takeToken s (testToken 0 (s.phys tile)) else (false, s)
  let s := r.2
  if r.1 then
    let s := (runTask s tile d 0 thread).inc Reg.JIG_TEST_ADMITS.COUNT
    let s := s.setUnit 0 (s.phys tile) { u with due := false, blocked := false, active := true }
    let s := trace s 6 9 tile d x x.arg.toNat
    ((s.bound tile).filter fun p => p.2.state == 3).foldl (fun s p => offerTask s img tile p.1) s
  else trace (s.inc Reg.JIG_TEST_DEFERS.COUNT) 4 6 tile d x 1

/-- TASK_DISPATCH (R356, R357, R369): a thread of a reserve frees and the first dispatchable task takes it. -/
def execTaskDispatch (tile reserve thread : Nat) (s : State) : Result :=
  if s.tiles ≤ tile ∨ 256 ≤ thread then .fault .noSuchUnit
  else match s.cfg.image with
  | none => .next s
  | some img =>
    let inUse := ((s.bound tile).filter fun p => p.2.state == 5 && p.2.reserve == reserve).length
    if reserveSize img tile reserve ≤ inUse then .next s
    else match (s.bound tile).filter (s.dispatchable img tile reserve) with
      | [] => .next s
      | p :: r =>
        let q := r.foldl (fun b x => if dispatchBefore x b then x else b) p
        match q.2.kind with
        | .slice _ => .next (trySlice s img tile q.1 thread)
        | _ => .next (runTask s tile q.1 reserve thread)

/-! ## Yield -/

/-- Running task `x` yields: at a wait point it goes on where its condition is met already, else waits; it may ask for a delay; at a
plain point it stops where its stage is cut (R31), or gives way to a committed task (R352, R353, R357). -/
def yieldTask (s : State) (img : Image) (tile d : Nat) (x : Desc) (why : Yield) : State :=
  match why with
  | .wait m a =>
    let y := { x with waitMask := m, waitAnd := a }
    if y.waitMet then s.setDesc tile d { y with flags := y.flags &&& ~~~m }
    else showAgent (trace (s.setDesc tile d { y with state := 1 }) 2 4 tile d y 0) tile
  | .delay t =>
    let t := if epochLater t s.jig.tick then t else s.jig.tick + 1
    showAgent (trace (s.setDesc tile d { x with state := 2, wakeTick := t }) 2 4 tile d x 1) tile
  | .plain n =>
    let x := { x with swept := n }
    let s := s.setDesc tile d x
    let stopped := match x.kind with
      | .stage id _ => cutStage id && !x.speculative && wall img && s.frame.searchOver
      | _ => false
    let pressed := x.speculative && (s.bound tile).any fun q => q.2.state == 3 && !q.2.speculative && inReserve q.2 x.reserve
    if stopped then showAgent (trace (s.setDesc tile d {}) 2 4 tile d x 3) tile
    else if pressed then
      let n := s.jig.order + 1
      let s := { s with jig := { s.jig with order := n } }
      showAgent (trace (s.setDesc tile d { x with state := 3, order := n }) 2 4 tile d x 2) tile
    else s

/-- TASK_YIELD (R352, R353, R357, R208): a task reaches a yield point. It continues unless it waits, delays, is
speculative while a task of the committed epoch is ready for its thread, or runs for a stage that is cut. -/
def execTaskYield (tile d : Nat) (why : Yield) (s : State) : Result :=
  if s.tiles ≤ tile ∨ 2048 ≤ d then .fault .noSuchUnit
  else match s.cfg.image with
  | none => .next s
  | some img =>
    let x := s.desc tile d
    .next (if x.state ≠ 5 then s else yieldTask s img tile d x why)

/-! ## Completion -/

/-- What the tasks of an epoch read. -/
def State.netCtx (s : State) (img : Image) (spec : Option SpecEp) : Option NetCtx :=
  match spec with
  | some x => x.start.map fun st =>
    { img, weights := s.bulk 9, blocks := x.blocks, start := st, snap := x.snap, poisoned := [] }
  | none => s.world.start.map fun st =>
    { img, weights := s.bulk 9, blocks := s.blocks, start := st.state, snap := s.world.snap, poisoned := s.world.poisoned }

/-- T0_NS of a start state in an epoch (R169). -/
def State.t0 (s : State) (e : Epoch) (st : List Byte) : Int :=
  signed 32 (pattern 32 ((stTime st : Int) - s.frameStartNs (s.frameOf e)))

/-- The expanded candidate of an ID; none where its seed is discarded or missing. -/
def candidate (s : State) (c : NetCtx) (e : Epoch) (spec : Bool) (id : Nat) : Option Cand :=
  (candChain c id).map fun ch =>
    let fl := if spec then 0 else match s.world.start with
      | some st => bit st.projected + 2 * bit st.reused
      | none => 0
    expand c.img id (fl + if 0x40000000 ≤ id then 4 else 0) ch c.start (s.t0 e c.start)

/-- CRC of a candidate's samples. -/
def sampleCrc (t : Traj) : Nat := (crc64 (t.samples.flatMap fun w => w.flatMap fun x => leBytes x.toNat 4)).toNat

/-- The candidates an epoch evaluates among some IDs: in QUOTA mode seeds beyond the quota are left out (R175). -/
def quotaIds (c : NetCtx) (ids : List Nat) : List Nat :=
  if !c.img.quotaMode then ids
  else ids.filter fun id => id < 0x40000000 ||
    let n := ((List.range (id - 0x40000000 + 1)).filter fun i => ((seedRecord c i).bind (seedChain c.img)).isSome).length
    decide (libLimit c.img + n ≤ c.img.quotaCandidates)

/-- What the lanes read for a trajectory in an epoch. -/
def State.laneCtx (s : State) (img : Image) (spec : Option SpecEp) (t : Traj) : LaneCtx := match spec with
  | some x => { img, snap := x.snap, final := none, poisoned := [], traj := t }
  | none => { img, snap := s.world.snap, final := if s.world.active then some s.world.final else none,
              poisoned := s.world.poisoned, traj := t }

/-- The learned cost block a candidate reads is released, or there is none to wait for (R258, R260). -/
def learnedReady (c : NetCtx) (id : Nat) : Bool :=
  let img := c.img
  let have_ := fun (t i : Nat) => t == 0xFFFF || decide (img.tensorSize t ≤ i) || c.blocks.any fun b => b.tensor == t && b.index == i / 1024
  !img.hasStage 2 || !((List.range img.termCount).any fun t => img.termKind t == 4) ||
  (if id < 0x40000000 then have_ img.costLibTensor (rankFirst img id)
  else decide (0x80000000 ≤ id) || have_ img.costSeedTensor (id - 0x40000000))

/-- Outputs of a completed task, in the order its chapter defines; none where something it reads is not there yet. -/
def taskOutputs (s : State) (img : Image) (x : Desc) : Option (List Output) :=
  let spec := if x.speculative then s.specEp x.epoch else none
  match x.kind with
  | .stage id t =>
    match s.netCtx img spec with
    | none => some []
    | some c =>
      match id with
      | 2 => match proposeTask img t with
        | none => some []
        | some (o, b) =>
          let ins := (List.range 3).map (img.opIn o)
          let ready := ins.all fun i => i == 0xFFFF || img.tensorKind i != 0 ||
            (List.range (img.tensorBlocks i)).all fun k => c.blocks.any fun q => q.tensor == i && q.index == k
          if s.jig.abandoned ∨ s.jig.disabled then some []
          else if ready then some [.block (opBlock c o b)] else none
      | 3 =>
        let ids := quotaIds c (taskIds img t)
        let waits := ids.any fun i => 0x40000000 ≤ i && (seedRecord c (i - 0x40000000)).isNone
        if waits ∧ !s.jig.abandoned ∧ !s.jig.disabled then none
        else some (ids.filterMap fun i => (candidate s c x.epoch x.speculative i).map fun k => .cand i k.flags (sampleCrc k.traj))
      | 4 =>
        let rs := (quotaIds c (taskIds img t)).filterMap fun i =>
          (candidate s c x.epoch x.speculative i).map fun k => sweepCand (s.laneCtx img spec k.traj) k (learnedCost c i) none
        let learned := s.jig.abandoned || s.jig.disabled || (taskIds img t).all (learnedReady c)
        if rs.all (·.2) && learned then some (rs.map fun r => .record r.1) else none
      | 5 =>
        let sr := match spec with
          | some y => y.search
          | none => s.ledger.search
        match sr.bind fun q => (q.paths[t]?).map fun p => (q, p) with
        | none => some []
        | some (q, p) =>
          let k := expandPath img (s.bulk 0xA) q.shift p (s.t0 x.epoch q.start)
          let r := sweepCand (s.laneCtx img spec k.traj) k 0 (some p.score)
          if r.2 then some [.record r.1] else none
      | _ => some []
  | _ => some []

/-- Bytes a speculative output takes in its buffer (R329). -/
def outputBytes : Output → Nat
  | .record _ => 80
  | .block _ => 4096
  | .cand _ _ _ => 0

/-- Bytes a speculation buffer holds. -/
def SpecEp.used (x : SpecEp) : Nat := 80 * x.records.length + 4096 * x.blocks.length

/-- Outputs of a speculative task enter its epoch's buffer of 32 MB; a full one takes no more (R329). -/
def specFinish (s : State) (y : SpecEp) (id t tile : Nat) (outs : List Output) : State :=
  let n := outs.foldl (fun n o => n + outputBytes o) 0
  if 32 * 1024 * 1024 < y.used + n then
    hold ((s.setSpec { y with full := true }).inc Reg.FRAME_SPEC_FULL.FULL) 4 tile 0 {}
  else
    let y := outs.foldl (fun (y : SpecEp) o => match o with
      | .record r => { y with records := y.records ++ [{ cand := r.id, record := r, tile }] }
      | .block b => { y with blocks := y.blocks ++ [b] }
      | .cand i f k => { y with cands := y.cands ++ [(i, f, k)] }) y
    let s := s.setSpec { y with done := y.done ++ [(id, t)] }
    match s.cfg.image with
    | some img => outs.foldl (fun s o => match o with
        | .block b => sendBlock s img y.epoch true b
        | _ => s) s
    | none => s

/-- Counts of the work a task did: query counts of its records (R213), array cycles, near misses and skipped checks of a
propose operator with its last block (R270, R275), EMBED indices out of range, seeds discarded (R174). -/
def countWork (s : State) (img : Image) (x : Desc) (tile : Nat) (outs : List Output) : State :=
  let p := s.phys tile
  let q := outs.foldl (fun n o => match o with
    | .record r => n + r.queries
    | _ => n) 0
  let s := if q = 0 then s else s.tally (Reg.TILE_SWEEP_QUERIES.ISSUED p) q
  match x.kind, s.netCtx img (if x.speculative then s.specEp x.epoch else none) with
  | .stage 2 t, some c => match proposeTask img t with
    | some (o, b) =>
      if b + 1 = img.tensorBlocks (img.opField o 0xA 2) ∧ !outs.isEmpty then
        let k := opChecks c o
        let s := s.tally (Reg.TILE_TENSOR_CYCLES.CYCLES p) (opCycles img o)
        let s := s.add (Reg.TILE_CHK_SKIPPED.SKIPPED p) k.2
        let s := s.tally Reg.FRAME_PROPOSE_EMBED_RANGE.RANGE (embedRange c o)
        if k.1 = 0 then s else { s with jig := { s.jig with nearMisses := s.jig.nearMisses ++ [(tile, x.epoch, k.1)] } }
      else s
    | none => s
  | .stage 3 t, some c =>
    let bad := (taskIds img t).filter fun i => 0x40000000 ≤ i && (match seedRecord c (i - 0x40000000) with
      | some r => (seedChain img r).isNone
      | none => false)
    if x.speculative then s else s.add Reg.WORLD_SEED_INVALID.INVALID bad.length
  | _, _ => s

/-- Near misses of a tile within the latest 1,024 epochs up to `e` (R272). -/
def State.nearCount (s : State) (tile : Nat) (e : Epoch) : Nat :=
  (s.jig.nearMisses.filter fun m => m.1 == tile && decide ((e - m.2.1).toNat < 1024)).foldl (fun n m => n + m.2.2) 0

/-- The near-miss register and, beyond NEAR_MISS_LIMIT, the request of an on-demand test (R272). -/
def nearMissTest (s : State) (img : Image) (tile : Nat) (e : Epoch) : State :=
  let p := s.phys tile
  let n := s.nearCount tile e
  let s := s.set (Reg.TILE_CHK_NEAR.NEAR p) n
  if img.nearMissLimit ≠ 0 ∧ img.nearMissLimit < n ∧ (s.unit 0 p).state < 2 then s.setUnit 0 p { s.unit 0 p with due := true } else s

/-! ## Guest jobs (R465) -/

/-- Units a frame-bound job releases: its trajectories, or its one search. -/
def Job.units (j : Job) : Nat := if j.kind = 1 then beAt j.body 16 2 else 1

/-- Samples of a job body from its sample `i` on, stored least significant byte first (Table 6-7). -/
def bodySamples (b : List Byte) (i n : Nat) : List (List Word) :=
  (List.range n).map fun k => (List.range 16).map fun w => BitVec.ofNat 32 (u32 b (28 + 64 * (i + k) + 4 * w))

/-- Trajectory `k` of a SWEEP or REFINE body. -/
def bodyTraj (b : List Byte) (samples k : Nat) : Traj :=
  { t0 := signed 32 (beAt b 24 4), dtNs := beAt b 20 4, samples := bodySamples b (k * samples) samples }

/-- The record of trajectory `k` of a SWEEP job (R196, R465). A sample index that its 8 bits cannot hold is free. -/
def jobRecord (s : State) (img : Image) (j : Job) (k : Nat) : SweepRec × State :=
  let tr := bodyTraj j.body (beAt j.body 18 2) k
  let r := (sweepCand (s.laneCtx img none tr) { id := k, flags := 0, chain := [], traj := tr } 0 none).1
  if 255 ≤ r.hitSample ∧ r.flags / 2 ^ 15 % 2 = 1 ∨ 256 ≤ r.mincSample then
    let a := s.draw 8
    let b := a.2.draw 8
    ({ r with hitSample := if 255 ≤ r.hitSample then a.1.toNat else r.hitSample
              mincSample := if 256 ≤ r.mincSample then b.1.toNat else r.mincSample }, b.2)
  else (r, s)

/-- TERMINAL of a node among the goals of a SEARCH job; +inf for every other node (R465). -/
def goalTerminal (b : List Byte) (n : Nat) : Word :=
  match (List.range (beAt b 136 2)).find? fun i => beAt b (140 + 8 * i) 4 == n with
  | some i => BitVec.ofNat 32 (beAt b (144 + 8 * i) 4)
  | none => f32Inf false

/-- The result of a SEARCH job: its path list (R472), with the relaxations spent. -/
def jobSearch (s : State) (img : Image) (b : List Byte) (j : Job) : List Byte × Nat :=
  let n := Road.nodeCount b
  let quota := if j.quota = 0 then none else some j.quota
  let q := runSearch b quota ((n + 1) * (n + 2)) (newSearch img b s.ledger j.startEpoch ((j.body.drop 16).take 120))
  let ps := bestPaths b (goalTerminal j.body) q
  (beBytes ps.length 4 ++ ps.flatMap fun p =>
    beBytes p.node 4 ++ beBytes p.score.toNat 4 ++ beBytes p.edges.length 2 ++ beBytes 0 2 ++ p.edges.flatMap fun e => beBytes e 4, q.relax)

/-- Units a job has released. -/
def Job.released (j : Job) : Nat := if j.kind = 1 then j.out.length / 80 else bit (!j.out.isEmpty)

/-- A job has units left to release, and QUOTA allows another (Table 16-11). -/
def Job.more (j : Job) : Bool := decide (j.released < j.units) && (j.kind != 1 || j.quota == 0 || decide (j.work < j.quota))

/-- A pool task of a partition completes: its first running job with units left releases the next one. -/
def jobUnit (s : State) (img : Image) (p : Nat) : State :=
  match s.eth.jobs.find? fun j => j.partition == p && j.state == 1 && j.kind != 3 && j.more with
  | none => s
  | some j =>
    let put := fun (s : State) (out : List Byte) (work : Nat) =>
      { s with eth := { s.eth with jobs := s.eth.jobs.map fun x =>
        if x.partition = j.partition ∧ x.id = j.id ∧ x.state = 1 then { x with out := j.out ++ out, work } else x } }
    if j.kind = 1 then
      let r := jobRecord s img j j.released
      put r.2 r.1.bytes (j.work + r.1.queries)
    else match s.roadmap with
      | some b => let r := jobSearch s img b j; put s r.1 r.2
      | none => s

/-- The sweep task that waits for expand task `t` sees it complete. -/
def flagSweep (s : State) (img : Image) (tile t : Nat) (x : Desc) : State :=
  match (s.bound tile).find? fun p => p.2.kind == .stage 4 t && p.2.speculative == x.speculative && p.2.epoch == x.epoch with
  | some p =>
    let y := { p.2 with flags := p.2.flags ||| 1 }
    let s := s.setDesc tile p.1 y
    if y.state = 1 ∧ y.waitMet then makeReady s img tile p.1 0 else s
  | none => s

/-- The outputs of a completed stage task enter its ordered flow, or the buffer of its speculative epoch. -/
def stageOutputsDone (s : State) (img : Image) (tile d id t : Nat) (x : Desc) (outs : List Output) : State :=
  let s := nearMissTest (countWork s img x tile outs) img tile x.epoch
  let s := s.setDesc tile d {}
  let s := if x.speculative then (match s.specEp x.epoch with
      | some y => specFinish s y id t tile outs
      | none => s) else finishTask s img id t tile outs
  let s := if id = 3 then flagSweep s img tile t x else s
  showAgent s tile

/-- Running stage task `x` completes: one of an epoch that has gone, or that is done already, leaves nothing; one whose inputs are not
at hand goes on. -/
def stageComplete (s : State) (img : Image) (tile d id t : Nat) (x : Desc) : State :=
  let stale := if x.speculative then (s.specEp x.epoch).isNone else s.isDone id t || x.epoch != epochOf s.frame.k
  if stale then showAgent (s.setDesc tile d {}) tile
  else match taskOutputs s img x with
    | none => s
    | some outs => stageOutputsDone s img tile d id t x outs

/-- Running task `x` completes. -/
def completeTask (s : State) (img : Image) (tile d : Nat) (x : Desc) : State := match x.kind with
  | .stage id t => stageComplete s img tile d id t x
  | .job p =>
    let s := showAgent (s.setDesc tile d {}) tile
    if s.frame.searchOver then s else jobUnit s img p
  | _ => showAgent (s.setDesc tile d {}) tile

/-- TASK_COMPLETE (R363): the task's outputs are formed and kept for release in flow order; an expand task wakes its sweep
task (R359); a task cut at T_search leaves nothing more (R365). -/
def execTaskComplete (tile d : Nat) (s : State) : Result :=
  if s.tiles ≤ tile ∨ 2048 ≤ d then .fault .noSuchUnit
  else match s.cfg.image with
  | none => .next s
  | some img =>
    let x := s.desc tile d
    .next (if x.state ≠ 5 then s else completeTask s img tile d x)

/-! ## Announcements, offers, slices, panel reads -/

/-- DEPTH_ANNOUNCE (R360): every agent announces its ready depth. -/
def execDepthAnnounce (s : State) : Result :=
  .next { s with jig := { s.jig with announced := (List.range s.tiles).foldl (fun m t => sSet 0 t (s.readyDepth t) m) [] } }

/-- Offered task `x` migrates to the tile it is offered to, or is declined there and ready again (R360). -/
def answerOffer (s : State) (tile d : Nat) (x : Desc) : State :=
  let declined := trace ((s.setDesc tile d { x with state := 3 }).tally Reg.JIG_DECLINES.COUNT 1) 1 3 tile d x x.offer
  match s.freeDesc x.offer with
  | some e =>
    if s.readyDepth x.offer + 2 ≤ s.readyDepth tile then
      let s := (s.setDesc tile d {}).setDesc x.offer e { x with state := 3, offer := 0 }
      let s := s.tally Reg.JIG_MIGRATIONS.COUNT 1
      showAgent (showAgent (trace s 1 2 tile d x x.offer) tile) x.offer
    else declined
  | none => declined

/-- TASK_OFFER (R361): the receiving agent takes the task, descriptor and ARG, or declines and the task is READY again. -/
def execTaskOffer (tile d : Nat) (s : State) : Result :=
  if s.tiles ≤ tile ∨ 2048 ≤ d then .fault .noSuchUnit
  else
    let x := s.desc tile d
    .next (if x.state ≠ 6 then s else answerOffer s tile d x)

/-- SLICE_ABORT (R370): a slice still running when the window opens is aborted and retried later; its result is discarded. -/
def execSliceAbort (tile : Nat) (s : State) : Result :=
  if s.tiles ≤ tile then .fault .noSuchUnit
  else match (s.bound tile).find? fun p => p.2.state == 5 && (match p.2.kind with
      | .slice _ => true
      | _ => false) with
    | some p =>
      let s := (dropToken (s.setDesc tile p.1 { p.2 with state := 3 }) (testToken 0 (s.phys tile))).inc Reg.JIG_TEST_ABORTS.COUNT
      .next (showAgent (trace s 6 10 tile p.1 p.2 0) tile)
    | none => .next s

/-- Bytes of the unit a panel read fetches (Table 7-6). -/
def fetchBytes (img : Image) (l : Nat) : Nat := if img.layerType l = 4 then 1024 else panelBytes (img.layerType l)

/-- Entries of a bank with one more, the least recently used dropped until 512 KB hold them (R207). -/
def cacheFill (img : Image) (c : List CacheEntry) (x : CacheEntry) : List CacheEntry :=
  let same := fun (y : CacheEntry) => y.tile == x.tile && y.bank == x.bank
  let mine := (c.filter fun y => same y && !(y.layer == x.layer && y.panel == x.panel && y.epoch == x.epoch)) ++ [x]
  let size := fun (l : List CacheEntry) => l.foldl (fun n y => n + fetchBytes img y.layer) 0
  let kept := (List.range mine.length).foldl (fun (l : List CacheEntry) _ => if 524288 < size l then l.drop 1 else l) mine
  c.filter (fun y => !same y) ++ kept

/-- PANEL_READ_DONE (R206): a fetch from the World Cache or HBM fills the panel cache, and the waiting group proceeds. The
level that serves a read affects timing only (R153). -/
def execPanelReadDone (tile d layer panel bank : Nat) (fromHbm : Bool) (s : State) : Result :=
  match s.cfg.image with
  | none => .next s
  | some img =>
    if s.tiles ≤ tile ∨ 2048 ≤ d ∨ img.layerCount ≤ layer ∨ img.panelCount ≤ panel ∨ img.cacheBanks ≤ bank then .fault .noSuchUnit
    else
      let x := s.desc tile d
      let final := x.speculative || !s.world.active || s.world.final.contains (layer, panel)
      if x.state ≠ 5 ∨ !final then .next s
      else
        let p := s.phys tile
        let s := s.tally (if fromHbm then Reg.TILE_PANEL_FILL_HBM.FILLS p else Reg.TILE_PANEL_FILL_WC.FILLS p) 1
        .next { s with jig := { s.jig with cache := cacheFill img s.jig.cache { tile, bank, layer, panel, epoch := x.epoch } } }

end Sys2Proof.Machine
end

