-- ==== Sys2Proof/Machine/Speculation.lean ====
section
/-! DEFINITION. Run-ahead (chapter 12): the predicted snapshot and start state (R330, R331), the matches (R333), the squash
of candidates, blocks, searches and paths (R334 to R337), and whole-epoch discards (R340). -/

namespace Sys2Proof.Machine

/-- `n` times a shift. -/
def mulShift (n : Nat) (d : Int × Int × Int) : Int × Int × Int := (n * d.1, n * d.2.1, n * d.2.2)

/-! ## The predicted world -/

/-- PREDICTED slices moved on by `a` (R330 step 3). -/
def ageSlices (img : Image) (a : Nat → Nat) (m : Snap) : Snap :=
  (List.range img.layerCount).foldl (fun m l =>
    if img.layerType l = 4 then
      let n := img.slices l
      let other := m.filter fun e => (keyCell img e.1).1 != l
      let cells := m.filter fun e => (keyCell img e.1).1 == l
      cells.foldl (fun acc e =>
        let c := keyCell img e.1
        (List.range n).foldl (fun acc j =>
          if min (j + a l) (n - 1) = c.2.1 then setCell img l j c.2.2.1 c.2.2.2.1 c.2.2.2.2 e.2 acc else acc) acc) other
    else m) m

/-- The predicted snapshot from snapshot p, `g` epochs ahead with shift sigma (R330). -/
def predictSnap (img : Image) (g : Nat) (sigma : Int × Int × Int) (m : Snap) : Snap :=
  let flat := m.filter fun e => img.layerType (keyCell img e.1).1 != 1
  let m := shiftSnap img (mulShift g sigma) flat
  let m := ageSlices img (fun l => g * img.periodUs / max 1 (img.sliceIntervalUs l)) m
  (List.range img.layerCount).foldl (fun m l =>
    if img.layerType l = 1 then (List.range img.panelCount).foldl (fun m p => dtPanel img [] l p m) m else m) m

/-- The predicted start state (R331). -/
def predictStart (img : Image) (g : Nat) (sigma : Int × Int × Int) (st : List Byte) : List Byte :=
  let dtUs := g * img.periodUs
  let head := beBytes (stTime st + 1000 * dtUs) 8 ++ (st.drop 8).take 2 ++ [0, 0]
  let word := fun (w : Word) => beBytes w.toNat 4
  let body :=
    if img.kind = 0 then
      let h := secs dtUs 16
      let v := stWord st 28
      let k := stWord st 36
      let p := (List.range 16).foldl (fun p _ => vStep img h v k v k p)
        { x := qToF32 (stWord st 12).toInt, y := qToF32 (stWord st 16).toInt, th := stWord st 24,
          psi := [stWord st 40, stWord st 44, stWord st 48] }
      let pos := fun (w : Word) (n : Int) => word (unshift img w (g * n))
      let q := fun w => BitVec.ofInt 32 (f32ToQ w).v
      pos (q p.x) sigma.1 ++ pos (q p.y) sigma.2.1 ++ pos (stWord st 20) sigma.2.2 ++ word p.th ++ word v ++ word (stWord st 32) ++
        word k ++ p.psi.flatMap word
    else
      let dt := secs dtUs 1
      (List.range img.joints).flatMap fun j =>
        let q := stWord st (12 + 12 * j)
        let qd := stWord st (16 + 12 * j)
        let qdd := stWord st (20 + 12 * j)
        word (f32Add (f32Add q (f32Mul qd dt)) (f32Div (f32Mul (f32Mul qdd dt) dt) (f32Of 2))) ++
          word (f32Add qd (f32Mul qdd dt)) ++ word qdd
  let b := head ++ body
  b ++ List.replicate (120 - b.length) 0

/-- FRAME_PRED_STATE and FRAME_PRED_EPOCH (R332). -/
def showPrediction (s : State) (e : Epoch) : State :=
  match s.specEp e with
  | none => s
  | some x => match x.start with
    | none => s
    | some st =>
      let s := s.set Reg.FRAME_PRED_EPOCH.EPOCH e.toNat
      (List.range 30).foldl (fun s i => s.set (Reg.FRAME_PRED_STATE.STATE i) (u32 st (4 * i))) s

/-- At T_search of frame n, epoch n + D becomes speculative (R326, R330, R331). -/
def beginSpeculation (s : State) (img : Image) : State :=
  let d := img.runahead
  let n := epochOf s.frame.k
  let e := n + BitVec.ofNat 32 d
  if d = 0 ∨ !s.flag Reg.FRAME_SPEC_CTL.ENABLE ∨ (s.specEp e).isSome then s
  else
    let sigma := s.world.shift
    let x : SpecEp :=
      { epoch := e, base := n, snap := predictSnap img d sigma s.world.prev, shift := mulShift d sigma
        start := s.world.start.map fun st => predictStart img d sigma st.raw
        cands := [], records := [], blocks := [], search := none, done := [], full := false }
    let s := { s with spec := { s.spec with epochs := s.spec.epochs ++ [x] } }
    showSpecEpoch (showPrediction s (n + 1))

/-! ## Squash -/

/-- A 256-bit footprint hits a dirty set: some dirty key has both of its bits set in it (R334). -/
def footprintHits (f : Nat) (dirty : List (Nat × Nat)) : Bool := dirty.any fun p =>
  let b := keyBits (panelKey p.1 p.2)
  bitOf f b.1 && bitOf f b.2

/-- Propose blocks kept: in block order, a block is recomputed for the state, its footprint, or an input recomputed
(Table 12-1). -/
def keptBlocks (img : Image) (startMatch : Bool) (dirty : List (Nat × Nat)) (bs : List Block) : List Block :=
  let r := bs.foldl (fun (a : List Block × List Nat) b =>
    let ins := [img.opIn b.op 0, img.opIn b.op 1, img.opIn b.op 2]
    let redo := (!startMatch && b.onState) || footprintHits b.footprint dirty || ins.any a.2.contains
    if redo then (a.1, b.tensor :: a.2) else (a.1 ++ [b], a.2)) ([], [])
  r.1

/-- A candidate's learned cost block was recomputed. -/
def costRedone (img : Image) (kept : List Block) (all : List Block) (id : Nat) : Bool :=
  let learned := (List.range img.termCount).any fun t => img.termKind t == 4
  let gone := fun (t i : Nat) => all.any (fun b => b.tensor == t && b.index == i) && !(kept.any fun b => b.tensor == t && b.index == i)
  learned && (if id < 0x40000000 then gone img.costLibTensor (rankFirst img id / 1024) else gone img.costSeedTensor ((id - 0x40000000) / 1024))

/-- A candidate record is kept (Table 12-1). -/
def keepRecord (s : State) (img : Image) (startMatch : Bool) (dirty : List (Nat × Nat)) (x : SpecEp) (kb : List Block) (r : SpecRec) : Bool :=
  let seedGone := decide (0x40000000 ≤ r.cand) && decide (r.cand < 0x80000000) &&
    !(kb.any fun b => b.tensor == img.seedTensor && b.index == (r.cand - 0x40000000) / 64)
  startMatch && !seedGone && !costRedone img kb x.blocks r.cand && s.unitGood 0 (s.phys r.tile) && !footprintHits r.record.footprint dirty

/-- SHIFT_MATCH: the shifts of epochs p + 1 to e add up to g * sigma (R333). -/
def shiftMatches (s : State) (x : SpecEp) : Bool :=
  let own := (s.spec.shifts.filter fun p => epochLater p.1 x.base && !epochLater p.1 x.epoch).foldl (fun a p => addShift a p.2) (0, 0, 0)
  own == x.shift

/-- Whole tasks whose every candidate was kept enter their flow as completed (R337, R366). -/
def releaseKept (s : State) (img : Image) (kc : List (Nat × Nat × Nat)) (kr : List SpecRec) (kb : List Block) : State :=
  let s := (List.range (proposeCount img)).foldl (fun s t => match proposeTask img t with
    | some (o, b) => match kb.find? fun k => k.op == o && k.index == b with
      | some k => if s.runsTask img 2 t then finishTask s img 2 t (img.opField o 2 1) [.block k]
        else { s with jig := { s.jig with received := s.jig.received ++ [k] } }
      | none => s
    | none => s) s
  (List.range (expandCount img)).foldl (fun s t =>
    let ids := taskIds img t
    let rs := ids.filterMap fun i => kr.find? fun r => r.cand == i
    let cs := ids.filterMap fun i => kc.find? fun c => c.1 == i
    if rs.length = ids.length ∧ cs.length = ids.length then
      let tile := (rs.head?.map (·.tile)).getD 0
      let s := finishTask s img 3 t tile (cs.map fun c => .cand c.1 c.2.1 c.2.2)
      finishTask s img 4 t tile (rs.map fun r => .record r.record)
    else s) s

/-- The squash of the epoch whose admission closed (R333 to R336): candidates and blocks are decided against the closed
dirty-panel map; its search and paths wait for the ledger close. -/
def squash (s : State) (img : Image) : State :=
  let e := s.world.epoch
  let s := { s with spec := { s.spec with shifts := (s.spec.shifts ++ [(e, s.world.shift)]).drop (s.spec.shifts.length - 7)
                                          startMatch := false, shiftMatch := false, paths := [], search := none } }
  match s.specEp e with
  | none => s
  | some x =>
    let fresh := match s.world.start with
      | some st => !st.reused && decide (x.start = some st.raw)
      | none => false
    let sm := shiftMatches s x
    let dirty := s.world.dirty
    let kb := keptBlocks img fresh dirty x.blocks
    let cand := x.records.filter fun r => r.cand < 0x80000000
    let kr := cand.filter (keepRecord s img fresh dirty x kb)
    let kc := x.cands.filter fun c => kr.any fun r => r.cand == c.1
    let s := { s with spec := { s.spec with
      epochs := s.spec.epochs.filter fun y => y.epoch != e
      startMatch := fresh, shiftMatch := sm, keptBlocks := kb
      nKept := s.spec.nKept + kr.length, nSquashed := s.spec.nSquashed + (cand.length - kr.length)
      nRecomputed := s.spec.nRecomputed + (x.blocks.length - kb.length)
      paths := x.records.filter fun r => 0x80000000 ≤ r.cand
      search := x.search } }
    showSpecEpoch (releaseKept (dropSpecDescs s) img kc kr kb)

/-- Touched edge IDs of a close are tested against the speculative searches (R335). -/
def testSearches (f : Epoch) (touched : List Nat) (s : State) : State :=
  let test := fun (q : SearchSt) =>
    if epochLater f q.base ∧ !epochLater f q.epoch ∧ touched.any (edgeHits q.footprint) then { q with hit := true } else q
  { s with spec := { s.spec with epochs := s.spec.epochs.map fun x => { x with search := x.search.map test }
                                 search := s.spec.search.map test } }

/-- The speculative search of epoch `e` and its paths are decided at the ledger close of `e` (Table 12-1): kept, or dropped
so that the search of the committed epoch starts afresh. -/
def decideSearch (s : State) (img : Image) (b : List Byte) (e : Epoch) : State :=
  match s.spec.search with
  | none => s
  | some q =>
    if q.epoch ≠ e then s
    else
      let entries := match s.world.start with
        | some st => if st.epoch = e then some (entryNodes img b st.state s.ledger.shift) else none
        | none => none
      let keep := s.spec.shiftMatch && decide (entries = some q.entries) && !q.hit
      let n := s.spec.paths.length
      if keep then
        let good := s.spec.paths.filter fun r => !footprintHits r.record.footprint s.world.dirty
        let s := { s with ledger := { s.ledger with search := some { q with recs := s.ledger.recs } }
                          spec := { s.spec with search := none, paths := [], nKept := s.spec.nKept + good.length
                                                nSquashed := s.spec.nSquashed + (n - good.length) } }
        (q.paths.zipIdx).foldl (fun s p => match good.find? fun r => r.cand == 0x80000000 + p.1.node with
          | some r => finishTask s img 5 p.2 r.tile [.record r.record]
          | none => s) s
      else { s with spec := { s.spec with search := none, paths := [], nRestarts := s.spec.nRestarts + 1
                                          nSquashed := s.spec.nSquashed + n } }

end Sys2Proof.Machine
end

