-- ==== Sys2Proof/Machine/Ledger.lean ====
section
/-! DEFINITION. The Edge Ledger's and the roadmap search's commands (chapter 8). -/

namespace Sys2Proof.Machine

/-- The search of an epoch is owed and has not ended: application of a later epoch waits (R224). -/
def searchOwed (s : State) (e : Epoch) : Bool :=
  (match s.ledger.search with
  | some q => epochLater e q.epoch && q.ended == 0
  | none => false) ||
  (match s.ledger.closed, s.world.start with
  | some c, some st => epochLater e c && st.epoch == c && c == epochOf s.frame.k && s.frame.inFrame && !s.frame.searchOver &&
      !(match s.ledger.search with
        | some q => q.epoch == c
        | none => false)
  | _, _ => false)

/-- LEDGER_TRANSITION (R222, R224): the oldest transition of the epoch under application is applied. -/
def execLedgerTransition (s : State) : Result :=
  match s.roadmap, ledgerNext s, s.ledger.queue with
  | some _, some t, q :: r =>
    if s.ledger.rebuild = 6 ∨ s.ledger.dueCause t.epoch ≠ 0 ∨ q.epoch ≠ t.epoch ∨ searchOwed s t.epoch then .next s
    else
      let l := applyTrans (s.bulk 0xB) q { s.ledger with queue := r, applying := some t.epoch }
      .next ({ s with ledger := l }.set Reg.LEDGER_STATUS.PHASE 1 |>.set Reg.LEDGER_QUEUE_DEPTH.DEPTH r.length)
  | _, _, _ => .next s

/-- LEDGER_CLOSE (R222, R223): every transition of the epoch is applied; its touched records are published, and the
speculative searches are tested and decided (R335, R336). -/
def execLedgerClose (s : State) : Result :=
  match s.roadmap, ledgerNext s, s.cfg.image with
  | some b, some t, some img =>
    if s.ledger.rebuild = 6 ∨ s.ledger.dueCause t.epoch ≠ 0 ∨ !t.sent ∨ (s.ledger.queue.any fun q => q.epoch == t.epoch) ∨ searchOwed s t.epoch then .next s
    else
      let touched := s.ledger.touched
      let s := closeLedger s img b t.epoch false
      .next (decideSearch (testSearches t.epoch touched s) img b t.epoch)
  | _, _, _ => .next s

/-- Cause of the rebuild that can run now, 0 for none: OVERFLOW once no snapshot is under assembly, any other once the snapshot
of its epoch is final. -/
def State.rebuildReady (s : State) (snap : Epoch) : Nat :=
  if s.ledger.rebuild = 6 then (if s.world.active then 0 else 6)
  else match ledgerNext s with
    | some t => if t.sent ∧ !epochLater t.epoch snap then s.ledger.dueCause t.epoch else 0
    | none => 0

/-- LEDGER_REBUILD (R227, R228): the scheduled rebuild runs from the latest final snapshot and closes its epoch. The token of a
LEDGER_CMD rebuild is released once nothing is scheduled. -/
def execLedgerRebuild (s : State) : Result :=
  match s.roadmap, s.cfg.image with
  | some b, some img =>
    let e : Epoch := BitVec.ofNat 32 (s.get Reg.WORLD_SNAP_EPOCH.EPOCH)
    let cause := s.rebuildReady e
    if cause = 0 ∨ searchOwed s e then .next s
    else
      let s := rebuildLedger s img b e cause
      let s := if s.ledger.rebuild = 0 then dropToken s { act := 4, cls := 0, idx := 0 } else s
      .next (decideSearch (testSearches e (List.range (Road.edgeCount b)) s) img b e)
  | _, _ => .next s

/-- Sources of R75: partition 0 over Sheaz, the Tenon maintenance path, the management processor, and JTAG with debug
unlocked. -/
def State.isOwner (s : State) (src : Source) : Bool := match src with
  | .sheaz p _ _ => p == 0
  | .tenon => true
  | .mgmt => true
  | .jtag => s.get Reg.SEC_DEBUG_STATUS.STATE == 2

/-- What the write of a command register leaves: the command's effect `t`, and the access status, ACCESS_DENIED from a source outside
R75 (R599, R603). -/
def written (src : Source) (s t : State) : State := { t with access := if s.isOwner src then 0 else 1 }

/-- REBUILD written to LEDGER_CMD (R241, R227): a rebuild with cause COMMAND is scheduled under a ROADMAP_RELOAD token, or refused. -/
def rebuildCmd (src : Source) (s : State) : State :=
  let res := fun (s : State) n => s.set Reg.LEDGER_STATUS.CMD_RESULT n
  if !s.isOwner src then res s 1
  else if s.cfg.image.isNone ∨ s.roadmap.isNone ∨ s.flag Reg.LEDGER_STATUS.REBUILD_PENDING then res s 3
  else
    let t := takeToken s { act := 4, cls := 0, idx := 0 }
    if t.1 then res (scheduleRebuild t.2 4) 0 else res t.2 2

/-- LEDGER_REBUILD_CMD (R241). -/
def execLedgerRebuildCmd (src : Source) (s : State) : Result := .next (written src s (rebuildCmd src s))

/-- SEARCH_START (R230, R232, R327): once the ledger has closed the epoch and its start state is known. A speculative search
reads the latest close there is. -/
def execSearchStart (spec : Bool) (s : State) : Result :=
  match s.roadmap, s.cfg.image with
  | some b, some img =>
    if spec then
      match s.specTarget with
      | some x => match x.start, s.ledger.closed with
        | some st, some _ =>
          if x.search.isSome ∨ !s.flag Reg.FRAME_SPEC_CTL.ENABLE then .next s
          else .next (s.setSpec { x with search := some (newSearch img b s.ledger x.epoch st) })
        | _, _ => .next s
      | none => .next s
    else
      let e := epochOf s.frame.k
      let started := match s.ledger.search with
        | some q => q.epoch == e
        | none => false
      match s.world.start with
      | some st =>
        if s.ledger.closed = some e ∧ st.epoch = e ∧ !started ∧ s.frame.inFrame ∧ !(wall img && s.frame.searchOver) ∧ !s.ledger.late ∧ !s.jig.searchCut then
          let q := newSearch img b s.ledger e st.state
          let s := if q.entries.isEmpty then s.set Reg.LEDGER_STATUS.NO_ENTRY 1 else s
          .next { s with ledger := { s.ledger with search := some q } }
        else .next s
      | none => .next s
  | _, _ => .next s

/-- QUOTA_RELAX in QUOTA mode (R234). -/
def relaxQuota (img : Image) : Option Nat := if img.quotaMode then some img.quotaRelax else none

/-- SEARCH_PHASE_END (R233, R234): a phase applies its offers at its end. -/
def execSearchPhaseEnd (spec : Bool) (s : State) : Result :=
  match s.roadmap, s.cfg.image with
  | some b, some img =>
    if spec then
      match s.specTarget with
      | some x => .next (s.setSpec { x with search := x.search.map (searchPhase b (relaxQuota img)) })
      | none => .next s
    else .next { s with ledger := { s.ledger with search := s.ledger.search.map (searchPhase b (relaxQuota img)) } }
  | _, _ => .next s

/-- SEARCH_END (R237): an ended search emits its PATH_K best paths for sweep. -/
def execSearchEnd (spec : Bool) (s : State) : Result :=
  match s.roadmap with
  | some b =>
    let emit := fun (q : SearchSt) => if q.ended ≠ 0 ∧ !q.emitted then { q with paths := searchPaths b q, emitted := true } else q
    if spec then
      match s.specTarget with
      | some x => .next (s.setSpec { x with search := x.search.map emit })
      | none => .next s
    else .next { s with ledger := { s.ledger with search := s.ledger.search.map emit } }
  | none => .next s

/-- PATH_RESERVE_DEADLINE (R234, R235): in WALL mode a search still running ends with the state of its last completed phase;
a ledger that has not closed the epoch releases no path. -/
def execPathReserveDeadline (s : State) : Result :=
  match s.roadmap, s.cfg.image with
  | some b, some img =>
    if !wall img ∨ !s.frame.inFrame ∨ s.frame.searchOver then .next s
    else
      let e := epochOf s.frame.k
      let now := s.frameStartNs s.frame.k + 1000 * ((s.get Reg.FRAME_SEARCH_DEADLINE.SEARCH_US : Int) - Road.pathReserveUs b)
      let s := { s with frame := { s.frame with now } }
      if s.ledger.closed ≠ some e then
        let s := (s.set Reg.LEDGER_STATUS.SEARCH_LATE 1).inc Reg.LEDGER_LATE_COUNT.LATE
        .next { s with ledger := { s.ledger with late := true } }
      else
        match s.ledger.search with
        | some q =>
          if q.epoch = e ∧ q.ended = 0 then
            .next { s with ledger := { s.ledger with search := some { q with ended := 3 } }, jig := { s.jig with searchCut := true } }
          else .next s
        | none => .next s
  | _, _ => .next s

end Sys2Proof.Machine
end

