-- ==== Sys2Proof/Machine/World.lean ====
section
/-! DEFINITION. The World Builder's commands (chapter 5) and the start state (chapter 6): admission (Table 5-7), admission
close (R133, R138, R148), panels becoming final (R142, R143), the distance transform (R147), and the choice and
projection of the start state (R157, R158, R166, R167). -/

namespace Sys2Proof.Machine

/-! ## Streams -/

/-- Admission state of a stream; 0xFFFF is the ego stream. -/
def WorldSt.stream (w : WorldSt) (d : Nat) : StreamSt := if d = 0xFFFF then w.ego else sGet {} d w.streams

/-- Write of a stream's admission state. -/
def WorldSt.setStream (w : WorldSt) (d : Nat) (x : StreamSt) : WorldSt :=
  if d = 0xFFFF then { w with ego := x } else { w with streams := sSet {} d x w.streams }

/-- The earliest epoch whose admission is still open at time `t`: the first with frame start + ADMIT_CLOSE_US later than
`t` (R133). -/
def State.openEpoch (s : State) (img : Image) (t : Nat) : Epoch :=
  let d : Int := (t : Int) - s.origin - 1000 * img.admitCloseUs
  if s.periodNs = 0 ∨ d < 0 then 0 else epochOf (d.toNat / s.periodNs + 1)

/-- Bytes of a stream's frames admitted to an epoch. -/
def epochBytes (w : WorldSt) (d : Nat) (e : Epoch) : Nat :=
  (w.ingest.filter fun f => f.stream == d && f.epoch == e).foldl (fun n f => n + f.bytes) 0

/-- Bytes the ingest buffer holds (R137). -/
def ingestBytes (w : WorldSt) : Nat := w.ingest.foldl (fun n f => n + f.bytes) 0

/-- Capacity of the ingest buffer: 16 MB (R137). -/
def ingestCapacity : Nat := 16 * 1024 * 1024

/-- Epoch after `a`, or `b`, whichever is later. -/
def laterOf (a b : Epoch) : Epoch := if epochLater a b then a else b

/-! ## The ego record (R156, R157) -/


/-- Offsets of the FP32 fields of a STATE that KIND uses (Table 6-1). -/
def stFloats (img : Image) : List Nat :=
  if img.kind = 0 then [24, 28, 32, 36, 40, 44, 48]
  else (List.range img.joints).flatMap fun j => [12 + 12 * j, 16 + 12 * j, 20 + 12 * j]

/-- The discard cause of an ego record for an epoch that starts at `fs`: 1 KIND_MISMATCH, 2 NON_FINITE, 3 TIME_RANGE,
0 for a record that is kept (R157). -/
def egoCause (img : Image) (fs : Nat) (st : List Byte) : Nat :=
  if byteAt st 8 ≠ img.kind ∨ byteAt st 9 ≠ img.joints then 1
  else if !((stFloats img).all fun o => f32Finite (stWord st o)) then 2
  else if stTime st + 1000000000 < fs ∨ fs + img.periodNs < stTime st then 3
  else 0

/-- The status bit of a discard cause. -/
def egoCauseField (c : Nat) : Field := match c with
  | 1 => Reg.WORLD_START_STATUS.KIND_MISMATCH
  | 2 => Reg.WORLD_START_STATUS.NON_FINITE
  | _ => Reg.WORLD_START_STATUS.TIME_RANGE

/-! ## The safety copy path (R150, R381) -/

/-- A safety copy of an admitted frame: queued, or dropped with COPY_LOSS when it does not fit in 512 KB. -/
def safetyCopy (s : State) (f : Admitted) : State :=
  let size := 32 + 4 * ceilDiv f.bytes 4
  let used := s.safety.copies.foldl (fun n c => n + c.size) 0
  if s.safety.copyPathDown then s
  else if used + size ≤ 524288 then { s with safety := { s.safety with copies := s.safety.copies ++ [{ frame := f, size }] } }
  else { s.set Reg.SAFE_MODE.COPY_LOSS 1 with safety := { s.safety with dropped := s.safety.dropped ++ [f.stream] } }

/-! ## Admission (R134 to R137, Table 5-7) -/

/-- A discard counted against a stream: the ego stream has its own counter (R134). -/
def worldDiscard (s : State) (d : Nat) : State :=
  if d = 0xFFFF then s.inc Reg.WORLD_EGO_DISCARD.DISCARD else s.inc (Reg.WORLD_STREAM_DISCARD.DISCARD d)

/-- The good records of an admitted frame wait in the ingest buffer; a frame all of whose records are discarded does not. -/
def putAdmitted (s : State) (a : Admitted) (recs good : List WRec) : State :=
  if good.isEmpty ∧ !recs.isEmpty then s
  else { s with world := { s.world with ingest := s.world.ingest ++ [{ a with recs := good }] } }

/-- A frame admitted to epoch `e`: sequence, GAP, END_OF_EPOCH, bad records, the ego discard rule, the copy (R135, R136,
R132, R157, R150). A stale stream is no longer stale (R138). A frame whose ego records are all discarded counts as not admitted. -/
def admitFrame (s : State) (img : Image) (d : Nat) (e : Epoch) (seq : Word) (recs : List WRec) (eoe late : Bool)
    (len : Nat) (raw : List Byte) : State :=
  let st := s.world.stream d
  let gap := st.started && decide ((seq - st.lastSeq).toNat ≠ 1)
  let closed := if eoe then some (match st.closedTo with
    | some c => laterOf c e
    | none => e) else st.closedTo
  let a : Admitted := { stream := d, epoch := e, seq, recs, bytes := len, raw }
  let s := { s with world := s.world.setStream d { st with started := true, lastSeq := seq, closedTo := closed } }
  let s := if d = 0xFFFF then s.set Reg.WORLD_EGO_SEQ.SEQ seq.toNat
    else
      let s := s.set (Reg.WORLD_STREAM_LAST_SEQ.SEQ d) seq.toNat
      let s := (if gap then s.set (Reg.WORLD_STREAM_STATUS.GAP d) 1 else s).set (Reg.WORLD_STREAM_STATUS.STALE d) 0
      s.add (Reg.WORLD_STREAM_BAD_RECORD.BAD d) (recs.filter (recBad img d)).length
  let s := if late then (if d = 0xFFFF then s.inc Reg.WORLD_EGO_LATE.LATE else s.inc (Reg.WORLD_STREAM_LATE.LATE d)) else s
  let s := if img.safetyCopy d then safetyCopy s a else s
  let cause := fun (r : WRec) => match r with
    | .ego _ _ _ state => egoCause img (s.frameStartNs (s.frameOf e)) state
    | _ => 0
  let good := recs.filter fun r => cause r == 0
  let s := recs.foldl (fun (s : State) r => if cause r = 0 then s else s.set (egoCauseField (cause r)) 1) s
  putAdmitted s a recs good

/-- A WORLD_UPDATE frame handled in the first matching row of Table 5-7. `t` is its receive time. -/
def admitUpdate (s : State) (partition d : Nat) (named : Epoch) (seq : Word) (payload raw : List Byte) (t : Nat) : State :=
  match s.cfg.image with
  | none => s.inc Reg.WORLD_INGEST_DROP.DROPPED
  | some img =>
    let ego := d == 0xFFFF
    let configured := ego || (img.streamIdx d).isSome
    let enabled := ego || s.flag (Reg.WORLD_STREAM_CTL.ENABLE d)
    let owner := if ego then 0 else img.streamPartition d
    let c := s.openEpoch img t
    let st := s.world.stream d
    let late := epochLater c named
    let base := if late then c else named
    -- R135: a stream that has closed an epoch is admitted to the earliest still open for it
    let closedLate := match st.closedTo with
      | some x => !epochLater base x
      | none => false
    let e := if closedLate then laterOf c ((st.closedTo.getD 0) + 1) else base
    if !configured then s.inc Reg.WORLD_INGEST_DROP.DROPPED
    else if !enabled ∨ partition ≠ owner then worldDiscard s d
    else match parsePayload ego payload with
      | none => worldDiscard s d
      | some (recs, eoe) =>
        if st.started && !epochLater seq st.lastSeq then worldDiscard s d
        else if epochLater named (c + 2) then worldDiscard s d
        else if ingestBytes s.world + payload.length > ingestCapacity then
          let s := s.inc Reg.WORLD_INGEST_DROP.DROPPED
          if ego then s else s.set (Reg.WORLD_STREAM_STATUS.LOSS d) 1
        else if !ego && decide (img.byteBudget d < epochBytes s.world d e + payload.length) then
          (worldDiscard s d).set (Reg.WORLD_STREAM_STATUS.LOSS d) 1
        else admitFrame s img d e seq recs eoe (late || closedLate) payload.length raw

/-! ## The start state (R158, R166, R167) -/

/-- Intersection of the envelopes of the families allowed at position 0, for word `j` (R166): the largest minimum or the
smallest maximum. -/
def startEnv (img : Image) (j : Nat) (isMin : Bool) : Word :=
  let fs := (List.range img.familyCount).filter fun f => bitOf (img.famPositions f) 0
  match fs.map fun f => img.famEnv f j with
  | [] => 0
  | w :: r => r.foldl (if isMin then f32Max else f32Min) w

/-- v_stop = v0 + a0 * |a0| / (2J) (R162). -/
def vStop (v a j : Word) : Word := f32Add v (f32Div (f32Mul a (f32Abs a)) (f32Mul (f32Of 2) j))

/-- Replacement of a word of a STATE, most significant byte first. -/
def stPut (st : List Byte) (o : Nat) (w : Word) : List Byte := st.take o ++ beBytes w.toNat 4 ++ st.drop (o + 4)

/-- Projection of a VEHICLE start state onto the start envelope (R166, R167). -/
def projectVehicle (img : Image) (st : List Byte) : List Byte :=
  let vmin := startEnv img 0 true
  let vmax := startEnv img 1 false
  let amin := startEnv img 2 true
  let amax := startEnv img 3 false
  let j := startEnv img 4 false
  let kmax := startEnv img 5 false
  let alat := startEnv img 7 false
  let v0 := stWord st 28
  let a0 := stWord st 32
  let k0 := stWord st 36
  let lim := fun (v a : Word) => let m := f32Max (f32Abs v) (f32Abs (vStop v a j)); f32Mul m m
  let ok := f32Le vmin v0 && f32Le v0 vmax && f32Le amin a0 && f32Le a0 amax && f32Le (f32Abs k0) kmax &&
    f32Le vmin (vStop v0 a0 j) && f32Le (vStop v0 a0 j) vmax && f32Le (f32Mul (f32Abs k0) (lim v0 a0)) alat
  if ok then st
  else
    let a1 := f32Clamp a0 amin amax
    let v1 := f32Clamp v0 vmin vmax
    let vs := vStop v1 a1 j
    let b := if f32Lt vs vmin then some vmin else if f32Lt vmax vs then some vmax else none
    let a2 := match b with
      | some b =>
        let r := Config.sqrtF32 (f32Mul (f32Mul (f32Of 2) j) (f32Abs (f32Sub b v1)))
        if f32Neg? a1 then f32Neg r else r
      | none => a1
    let l := lim v1 a2
    let klim := if f32Le l 0 then kmax else f32Min kmax (f32Div alat l)
    let k1 := f32Clamp k0 (f32Neg klim) klim
    stPut (stPut (stPut st 28 v1) 32 a2) 36 k1

/-- Bounds of Table 6-5 at rest of motion (delta q = 0) scaled by `lam` for joint `j` of a family: true when every d_j is
at least 0, the position limit taken on both sides (R166). -/
def armOk (img : Image) (f j : Nat) (q qd qdd lam : Word) : Bool :=
  let env := fun i => img.famEnv f (5 * j + i)
  let t := f32Div (f32Of (img.famDurationUs f)) (f32Of 1000000)
  let a := f32Abs (f32Mul lam qd)
  let b := f32Abs (f32Mul lam qdd)
  let vel := f32Add a (f32Mul (f32Mul (f32Of 68 1000) t) b)
  let acc := f32Add (f32Div (f32Mul (f32Of 395 100) a) t) b
  let jrk := f32Add (f32Div (f32Mul (f32Of 36) a) (f32Mul t t)) (f32Div (f32Mul (f32Of 9) b) t)
  let ov := f32Add (f32Mul (f32Mul (f32Of 198 1000) t) a) (f32Mul (f32Mul (f32Of 173 10000) (f32Mul t t)) b)
  f32Le vel (env 2) && f32Le acc (env 3) && f32Le jrk (env 4) &&
  f32Le 0 (f32Sub (f32Sub (env 1) q) ov) && f32Le 0 (f32Sub (f32Sub q (env 0)) ov)

/-- Projection of an ARM start state (R167): q0 clamped, then q-dot and q-double-dot multiplied by the largest lambda that
satisfies the start envelope. The largest FP32 lambda is found among the patterns of [0, 1], whose order is the order
of the numbers, by bisection. -/
def projectArm (img : Image) (st : List Byte) : List Byte :=
  let fs := (List.range img.familyCount).filter fun f => bitOf (img.famPositions f) 0
  (List.range img.joints).foldl (fun st j =>
    let q := f32Clamp (stWord st (12 + 12 * j)) (startEnv img (5 * j) true) (startEnv img (5 * j + 1) false)
    let qd := stWord st (16 + 12 * j)
    let qdd := stWord st (20 + 12 * j)
    let ok := fun (p : Nat) => fs.all fun f => armOk img f j q qd qdd (BitVec.ofNat 32 p)
    let one := 0x3F800000
    let lam := if ok one then one
      else ((List.range 30).foldl (fun (r : Nat × Nat) _ =>
        let m := (r.1 + r.2) / 2
        if ok m then (m, r.2) else (r.1, m)) (0, one)).1
    let l := BitVec.ofNat 32 lam
    if lam = one then stPut st (12 + 12 * j) q
    else stPut (stPut (stPut st (12 + 12 * j) q) (16 + 12 * j) (f32Mul l qd)) (20 + 12 * j) (f32Mul l qdd)) st

/-- Projection of a start state onto the start envelope (R167). -/
def projectState (img : Image) (st : List Byte) : List Byte := if img.kind = 0 then projectVehicle img st else projectArm img st

/-- The choice of the start state of the closing epoch (Table 6-2), projected (R167), with its status. -/
def chooseStart (s : State) (img : Image) (e : Epoch) : State :=
  let r := s.get Reg.WORLD_START_STATUS.REUSE_COUNT
  let pick : Option (List Byte × Bool) := match egoOf s.world.ingest e with
    | some (_, _, _, st, _) => some (st, false)
    | none => match s.world.start with
      | some p => if r < 3 then some (p.raw, true) else none
      | none => none
  let s := s.set Reg.WORLD_START_STATUS.NO_STATE (bit pick.isNone)
  match pick with
  | none =>
    let s := (s.set Reg.WORLD_START_STATUS.REUSED 0).set Reg.WORLD_START_STATUS.OUTSIDE_ENVELOPE 0
    { s with world := { s.world with start := none } }
  | some (st, reused) =>
    let p := projectState img st
    let changed := decide (p ≠ st)
    let s := s.set Reg.WORLD_START_STATUS.REUSE_COUNT (if reused then r + 1 else 0)
    let s := s.set Reg.WORLD_START_STATUS.REUSED (bit reused)
    let s := s.set Reg.WORLD_START_STATUS.OUTSIDE_ENVELOPE (bit changed)
    let s := if changed then s.inc Reg.WORLD_START_PROJECTED.PROJECTED else s
    { s with world := { s.world with start := some { raw := st, state := p, epoch := e, reused, projected := changed } } }

/-! ## Admission close -/

/-- Staleness and activity of one stream at the close of epoch `e` (R138, Table 5-11). A disabled stream counts as silent. -/
def closeStream (img : Image) (e : Epoch) (s : State) (d : Nat) : State :=
  let seen := s.world.ingest.any fun f => f.stream == d && f.epoch == e
  let st := s.world.stream d
  let silent := if seen && s.flag (Reg.WORLD_STREAM_CTL.ENABLE d) then 0 else st.silent + 1
  let stale := decide (img.maxSilent d ≠ 0 ∧ img.maxSilent d ≤ silent)
  let w := s.world.setStream d { st with silent }
  let w := if stale && bitOf (img.streamFlags d) 1 then { w with stale := w.stale ++ [d] } else w
  let s := { s with world := w }
  let s := s.set (Reg.WORLD_STREAM_STATUS.SILENT d) (min silent 0xFFFF)
  let s := (s.set (Reg.WORLD_STREAM_STATUS.STALE d) (bit stale)).set (Reg.WORLD_STREAM_STATUS.ACTIVE d) (bit seen)
  s.set (Reg.WORLD_STREAM_BYTES.BYTES d) (epochBytes s.world d e)

/-- True when the panel of a non-DISTANCE layer differs between two snapshots. -/
def panelDiffers (img : Image) (a b : Snap) (l p : Nat) : Bool := decide (panelContent img a l p ≠ panelContent img b l p)

/-- The dirty-panel map of the epoch: against the predicted snapshot, or the change map with run-ahead depth 0 (R148,
R149). -/
def dirtyMap (img : Image) (w : WorldSt) : List (Nat × Nat) :=
  let now := assembled img w
  let (pred, pshift) := match w.predicted with
    | some p => (p.1, p.2)
    | none => (w.prev, (0, 0, 0))
  let flat := (List.range img.layerCount).flatMap fun l =>
    if img.layerType l = 1 then [] else
      ((List.range img.panelCount).filter fun p => w.allChanged || panelDiffers img pred now l p).map fun p => (l, p)
  let dist := (List.range img.layerCount).flatMap fun l =>
    if img.layerType l = 1 then
      ((List.range img.panelCount).filter fun p => decide (pshift ≠ w.shift) ||
        (overlapping img p).any fun r => flat.contains (img.sourceLayer l, r)).map fun p => (l, p)
    else []
  flat ++ dist

/-- The ledger takes the epoch's shift: beyond SHIFT_TOL it rebuilds, else the cells that left are sent (R226). -/
def shiftLedger (s : State) (img : Image) : State :=
  match s.roadmap with
  | none => s
  | some b =>
    let sh := addShift s.ledger.shift s.world.shift
    if shiftBeyond b sh then scheduleShift s s.world.epoch
    else
      let t := if s.world.shift = (0, 0, 0) ∨ s.replaced then []
        else leaveTrans img b s.world.epoch { snap := s.world.prev, poisoned := s.ledger.viewPoisoned, shift := s.ledger.shift } sh
      showShift (queueTrans { s with ledger := { s.ledger with shift := sh } } t)

/-- The ledger's layers of the epoch under assembly are all final: its transitions have all been sent. -/
def markSent (s : State) (img : Image) (b : List Byte) : State :=
  let w := s.world
  let all := (viewKinds b).all fun c => (List.range img.panelCount).all fun p => w.final.contains (viewLayer b c, p)
  if all && w.closed then
    { s with ledger := { s.ledger with todo := s.ledger.todo.map fun t => if t.epoch = w.epoch then { t with sent := true } else t } }
  else s

/-- What the World Builder does at the admission close of the epoch under assembly (R133, R138, R148, R149, R158). -/
def closeAdmission (s : State) (img : Image) : State :=
  let e := s.world.epoch
  let s := img.streamIds.foldl (closeStream img e) s
  let s := if (egoOf s.world.ingest e).isSome then s else s.inc Reg.WORLD_EGO_MISSING.MISSING
  let s := { s with world := { s.world with closed := true, shift := egoShift s.world.ingest e } }
  let dm := dirtyMap img s.world
  let s := { s with world := { s.world with dirty := dm } }
  let s := (List.range img.layerCount).foldl (fun s l =>
    s.set (Reg.WORLD_DIRTY_COUNT.DIRTY l) (dm.filter fun p => p.1 == l).length) s
  let s := shiftLedger (chooseStart (s.set Reg.WORLD_STATUS.PHASE 2) img e) img
  let s := match s.roadmap with
    | some b => markSent s img b
    | none => s
  squash s img

/-! ## Panels becoming final -/

/-- Every panel of every layer is final: the snapshot is final (R143), and it becomes the base of the next epoch. -/
def finishSnapshot (s : State) (img : Image) : State :=
  let w := s.world
  if w.active ∧ w.closed ∧ w.final.length = img.layerCount * img.panelCount then
    let s := (s.set Reg.WORLD_STATUS.PHASE 3).set Reg.WORLD_SNAP_EPOCH.EPOCH w.epoch.toNat
    let s := s.set Reg.WORLD_DT_PANELS.PANELS w.dtDone.length
    let s := s.set Reg.WORLD_DT_CYCLES.CYCLES (w.dtDone.length * dtCycles img)
    let s := (List.range img.layerCount).foldl (fun s l =>
      s.set (Reg.WORLD_CHANGE_COUNT.CHANGED l) (w.changed.filter fun p => p.1 == l).length) s
    { s with world := { w with prev := w.snap, active := false, allChanged := false,
                               ingest := w.ingest.filter fun f => epochLater f.epoch w.epoch
                               kept := w.kept ++ w.ingest.filter fun f => !epochLater f.epoch w.epoch } }
  else s

/-- The conditions of R142 for a panel of a layer other than DISTANCE. -/
def panelReady (img : Image) (w : WorldSt) (l p : Nat) : Bool :=
  let q := panelPos img p
  let mine := img.streamIds.filter fun d => img.streamLayer d == l && img.inRegion d q.1 q.2.1 q.2.2
  let shut := fun d => match (w.stream d).closedTo with
    | some c => !epochLater w.epoch c
    | none => false
  w.active && !w.final.contains (l, p) && (w.closed || mine.all shut) &&
  (!img.egoWait || w.closed || (egoOf w.ingest w.epoch).isSome)

/-- Ledger shift of the epoch under assembly: with the epoch's own shift once its admission has closed (R226). -/
def ledgerShiftNow (s : State) : Int × Int × Int :=
  if s.world.closed then s.ledger.shift else addShift s.ledger.shift (egoShift s.world.ingest s.world.epoch)

/-- A panel of a layer other than DISTANCE becomes final: its content enters the snapshot, its change is mapped, and its
ledger transitions are released (R142, R148, R221). -/
def finalPanel (s : State) (img : Image) (l p : Nat) : State :=
  let w := s.world
  let now := assembled img w
  let ch := w.allChanged || panelDiffers img w.prev now l p
  let s1 := { s with world := { w with
    snap := copyPanel img l p now w.snap
    final := w.final ++ [(l, p)]
    changed := if ch then w.changed ++ [(l, p)] else w.changed } }
  let s2 := match s.roadmap with
    | some b =>
      let t := if s.replaced then []
        else panelTrans img b w.epoch { snap := w.prev, poisoned := s.ledger.viewPoisoned, shift := s.ledger.viewShift }
          { snap := now, poisoned := w.poisoned, shift := ledgerShiftNow s } l p
      let sent := if w.poisoned.contains (l, p) then s1.ledger.sentPoisoned ++ [(l, p)] else s1.ledger.sentPoisoned
      markSent (queueTrans { s1 with ledger := { s1.ledger with sentPoisoned := sent } } t) img b
    | none => s1
  finishSnapshot s2 img

/-- A DISTANCE panel's source panels are all final, and it is not (R146, R147). -/
def distReady (img : Image) (w : WorldSt) (l p : Nat) : Bool :=
  w.active && !w.final.contains (l, p) && (overlapping img p).all fun r => w.final.contains (img.sourceLayer l, r)

/-- The distance transform recomputes the panel (R146). -/
def distNeeded (img : Image) (w : WorldSt) (l p : Nat) : Bool :=
  decide (w.shift ≠ (0, 0, 0)) || w.allChanged || regionChanged img w.prev w.snap l p

/-- A DISTANCE panel keeps its value and becomes final (R146). -/
def keepPanel (s : State) (img : Image) (l p : Nat) : State :=
  let w := s.world
  finishSnapshot { s with world := { w with snap := copyPanel img l p w.prev w.snap, final := w.final ++ [(l, p)] } } img

/-- A DISTANCE panel is recomputed and becomes final (R145, R147, R148). -/
def recomputePanel (s : State) (img : Image) (l p : Nat) : State :=
  let w := s.world
  let snap := dtPanel img w.poisoned l p w.snap
  let ch := w.allChanged || panelDiffers img w.prev snap l p
  finishSnapshot { s with world := { w with
    snap, final := w.final ++ [(l, p)], dtDone := w.dtDone ++ [(l, p)]
    changed := if ch then w.changed ++ [(l, p)] else w.changed } } img

/-- A panel becomes final for the epoch (R142), where its conditions hold; otherwise nothing happens. A DISTANCE panel that
needs no recompute keeps its value and becomes final with its source panels (R146). -/
def execPanelFinal (layer panel : Nat) (s : State) : Result :=
  match s.cfg.image with
  | none => .next s
  | some img =>
    if img.layerCount ≤ layer ∨ img.panelCount ≤ panel then .fault .noSuchUnit
    else if img.layerType layer = 1 then
      if distReady img s.world layer panel && !distNeeded img s.world layer panel then .next (keepPanel s img layer panel) else .next s
    else if panelReady img s.world layer panel then .next (finalPanel s img layer panel)
    else .next s

/-- The distance-transform unit finishes a panel that had to be recomputed (R145 to R147). -/
def execDistancePanelDone (layer panel : Nat) (s : State) : Result :=
  match s.cfg.image with
  | none => .next s
  | some img =>
    if img.layerCount ≤ layer ∨ img.panelCount ≤ panel ∨ img.layerType layer ≠ 1 then .fault .noSuchUnit
    else .next (if distReady img s.world layer panel && distNeeded img s.world layer panel then recomputePanel s img layer panel else s)

/-- One panel of an assembly that is completed late. -/
def completePanel (img : Image) (l : Nat) (s : State) (p : Nat) : State :=
  if !s.world.active ∨ s.world.final.contains (l, p) then s
  else if img.layerType l ≠ 1 then finalPanel s img l p
  else if distNeeded img s.world l p then recomputePanel s img l p
  else keepPanel s img l p

/-- The assembly of the epoch in progress is completed before the next begins: snapshot n is derived from snapshot n - 1 (R140),
the other layers first. -/
def completeAssembly (s : State) (img : Image) : State :=
  if !s.world.active then s
  else
    let s := if s.world.closed then s else closeAdmission s img
    let layers := List.range img.layerCount
    ((layers.filter fun l => img.layerType l != 1) ++ layers.filter fun l => img.layerType l == 1).foldl (fun s l =>
      (List.range img.panelCount).foldl (completePanel img l) s) s

/-- Assembly of a new epoch begins with its frame (R140). -/
def beginEpoch (s : State) (e : Epoch) : State :=
  let w := s.world
  let pred := (s.spec.epochs.find? fun x => x.epoch == e).map fun x => (x.snap, x.shift)
  let w2 : WorldSt := { w with
    epoch := e, closed := false, active := true, snap := [], final := [], changed := [], dirty := [], stale := []
    poisoned := [], dtDone := [], predicted := pred }
  let todo := if s.roadmap.isSome then s.ledger.todo ++ [{ epoch := e, sent := false }] else []
  let l : LedgerSt := { s.ledger with viewShift := s.ledger.shift, viewPoisoned := s.ledger.sentPoisoned, sentPoisoned := [], todo := todo }
  { s.set Reg.WORLD_STATUS.PHASE 1 with world := w2, ledger := l }

end Sys2Proof.Machine
end

