-- ==== Sys2Proof/Machine/Search.lean ====
section
/-! DEFINITION. The search deadline (R31, R208, R260, R341, R365), and propose's error handling (R268, R271, R273). -/

namespace Sys2Proof.Machine

/-! ## The search deadline -/

/-- Candidates of an expand or sweep task of the committed epoch. -/
def taskCands (s : State) (img : Image) (t : Nat) : List Cand := match s.netCtx img none with
  | some c => (quotaIds c (taskIds img t)).filterMap (candidate s c (epochOf s.frame.k) false)
  | none => []

/-- Records of the first `n` candidates of a sweep task, whose sweep was complete at T_search (R208). -/
def cutRecords (s : State) (img : Image) (t n : Nat) : List Output := match s.netCtx img none with
  | some c => ((taskCands s img t).take n).map fun k =>
    .record (sweepCand (s.laneCtx img none k.traj) k (learnedCost c k.id) none).1
  | none => []

/-- The bound descriptor of a task of the committed epoch: tile, index and content. -/
def State.taskDesc (s : State) (id t : Nat) : Option (Nat × Nat × Desc) :=
  (s.jig.descs.find? fun p => p.2.state != 0 && p.2.kind == .stage id t && !p.2.speculative && p.2.epoch == epochOf s.frame.k).map
    fun p => (p.1 / 2048, p.1 % 2048, p.2)

/-- Every candidate that yields no released record is counted against its tile and sets SWEEP_CUT (R208, R341, R365). -/
def countCut (s : State) (tile n : Nat) : State :=
  if n = 0 then s else { s.tally (Reg.TILE_SWEEP_CUT.CUT (s.phys tile)) n with jig := { s.jig with sweepCut := true } }

/-- A task of a cut stage that is not complete at T_search (R365): one not dispatched completes with no output, one still
running with its outputs that were complete. -/
def cutTask (img : Image) (id : Nat) (s : State) (t : Nat) : State :=
  if s.isDone id t ∨ !s.runsTask img id t then s
  else
    let d := s.taskDesc id t
    let tile := match d with
      | some x => x.1
      | none => (s.taskTile img id t false).getD 0
    let n := match d with
      | some x => if x.2.2.state = 5 ∧ id = 4 then x.2.2.swept else 0
      | none => 0
    let outs := if id = 4 then cutRecords s img t n else []
    let s := match d with
      | some x => if x.2.2.state = 5 then s else showAgent (s.setDesc x.1 x.2.1 {}) x.1
      | none => s
    let s := match id with
      | 2 => if s.jig.abandoned ∨ s.jig.disabled then s else { s with jig := { s.jig with proposeCut := true } }
      | 3 => { s with jig := { s.jig with sweepCut := true } }
      | 4 => countCut s tile ((taskCands s img t).length - outs.length)
      | _ => countCut s tile 1
    finishTask s img id t tile outs

/-- Every task of a stage cut. -/
def cutStageTasks (img : Image) (s : State) (id : Nat) : State :=
  if img.hasStage id then (List.range (s.taskCount img id)).foldl (cutTask img id) s else s

/-! ## Propose -/

/-- Propose is abandoned for the epoch in progress (R273). -/
def abandonPropose (s : State) : State := { s with jig := { s.jig with abandoned := true } }

/-- DOWEL_MISMATCH (R268, Table 9-7) at a consumer on a tile: the re-read matches (CORRECTED), the recompute or restore
matches (CONTAINED), or propose is abandoned (CONTAINED), and disabled where a constant block has no readable source. -/
def execDowelMismatch (tile : Nat) (constant readable : Bool) (outcome : DowelEnd) (s : State) : Result :=
  if s.tiles ≤ tile then .fault .noSuchUnit
  else
    let p := s.phys tile
    let s := s.inc (Reg.TILE_DOWEL_MISS.MISS p)
    let err := fun (s : State) cls rep => detect s (mkError 0 p cls 3 rep)
    match outcome with
    | .reread => .next (err s 0 1)
    | .restored => .next (err s 1 2)
    | .failed =>
      let s := abandonPropose s
      .next (err (if constant && !readable then { s with jig := { s.jig with disabled := true } } else s) 1 2)

/-- CHECKSUM_MISS (R271, Table 9-8): a clean repeat is CORRECTED; a second miss makes the tile SUSPECT and the product is
replayed on a spare tile, CONTAINED; without a passing replay propose is abandoned. -/
def execChecksumMiss (tile : Nat) (repeatOk : Bool) (spare : Option Nat) (replayOk : Bool) (s : State) : Result :=
  if s.tiles ≤ tile then .fault .noSuchUnit
  else
    let p := s.phys tile
    let s := (s.inc (Reg.TILE_CHK_MISS.MISS p)).set (Reg.TILE_TENSOR_STATUS.MISS p) 1
    if repeatOk then .next (detect s (mkError 0 p 0 4 1))
    else
      let s := settleSuspects s (detectPermanent s (mkError 0 p 1 4 2))
      match spare with
      | some _ =>
        if replayOk then .next (s.set (Reg.TILE_TENSOR_STATUS.REPLAYING p) 1)
        else .next (abandonPropose s)
      | none => .next (abandonPropose s)

end Sys2Proof.Machine
end

