-- ==== Sys2Proof/Machine/Solver.lean ====
section
/-! DEFINITION. The Solver Cluster's operations (chapter 11): the choice of engine (R318, R319), the reference (R305), the
warm start (R309), the path-local states (R306), the cap (R310), the status (R313) and the output (R321 to R323). The
arithmetic of one iteration is `Config.solverStep`. -/

namespace Sys2Proof.Machine

/-! ## Arithmetic in the solver's precision -/

/-- Format of the solver, of a run on an engine or in microcode (R301, R324). -/
def solverFmt (img : Image) : Fmt := if img.solver32 then fp32 else fp64

/-- FP32 word in the solver's precision. -/
def toPrec (f : Fmt) (w : Word) : Nat := fp32.conv f w.toNat
/-- Solver word as FP32. -/
def ofPrec (f : Fmt) (x : Nat) : Word := BitVec.ofNat 32 (f.conv fp32 x)
/-- Difference. -/
def Fmt.sub (f : Fmt) (a b : Nat) : Nat := f.add a (f.negate b)
/-- The largest of two values; NaN is never larger. -/
def Fmt.lt (f : Fmt) (a b : Nat) : Bool := match (f.val a).frac, (f.val b).frac with
  | some (n, d), some (m, e) => decide (n * e < m * d)
  | _, _ => match f.val a, f.val b with
    | .inf true, .nan => false
    | .inf true, v => decide (v ≠ .inf true)
    | .nan, _ => false
    | v, .inf false => decide (v ≠ .inf false)
    | _, _ => false
/-- An angle wrapped to (-pi, pi], pi rounded to the precision. -/
def wrapPrec (f : Fmt) (x : Nat) : Nat :=
  let pi := toPrec f piF32
  let two := toPrec f twoPiF32
  if f.lt pi x then f.sub x two else if f.lt x (f.negate pi) ∨ x = f.negate pi then f.add x two else x
/-- Sine and cosine: the FP32 device functions (R118). -/
def sinPrec (f : Fmt) (x : Nat) : Nat := toPrec f (Config.sinF32 (ofPrec f x))
def cosPrec (f : Fmt) (x : Nat) : Nat := toPrec f (Config.cosF32 (ofPrec f x))

/-! ## Engines (R318, R319) -/

/-- Engines that are good in the die record and not retired. -/
def State.goodEngines (s : State) : List Nat := (List.range 4).filter fun e => bitOf s.die.engines e && s.unitUsable 4 e

/-- The engine that refines, and the second run of R319 where every good engine is SUSPECT. -/
def State.pickEngine (s : State) : Option (Nat × Option Nat) :=
  let good := s.goodEngines
  let free := good.filter fun e => !s.solver.testing.contains e && !(s.unit 4 e).blocked
  match free.find? fun e => s.unitGood 4 e with
  | some e => some (e, none)
  | none =>
    if good.all fun e => !s.unitGood 4 e then
      match free with
      | e :: f :: _ => some (e, some f)
      | [e] => some (e, some e)
      | [] => none
    else none

/-! ## The reference (R305) -/

/-- Words of a sample record that hold Q16.16 positions: X, Y and Z of a VEHICLE sample. -/
def isPos (img : Image) (j : Nat) : Bool := img.kind == 0 && decide (j < 3)

/-- A sample word in the solver's precision. -/
def samplePrec (img : Image) (f : Fmt) (j : Nat) (w : Word) : Nat :=
  if isPos img j then f.ofFrac w.toInt 65536 else toPrec f w

/-- A word is interpolated along the shorter arc: a field mapped ANGLE, and THETA of a VEHICLE. -/
def isAngleWord (img : Image) (j : Nat) : Bool :=
  (img.kind == 0 && j == 3) || (List.range (img.nx + img.nu)).any fun m => img.mapKind m == 3 && img.mapField m == j

/-- Time of stage `k` from the frame start, ns. -/
def stageTime (img : Image) (k : Nat) : Int := img.stage0Offset + k * img.stageDt

/-- The stage lies outside the candidate's samples. -/
def outside (tr : Traj) (t : Int) : Bool := decide (t < tr.t0 ∨ tr.t0 + ((tr.samples.length - 1 : Nat) : Int) * tr.dtNs < t)

/-- Reference word `j` at a time (R305). -/
def refWord (img : Image) (f : Fmt) (tr : Traj) (j : Nat) (t : Int) : Nat :=
  let at_ := fun (i : Nat) => samplePrec img f j (((tr.samples[i]?).getD []).getD j 0)
  let last := tr.samples.length - 1
  if t ≤ tr.t0 then at_ 0
  else
    let i := (t - tr.t0).toNat / tr.dtNs
    if last ≤ i then at_ last
    else
      let r := f.ofFrac ((t - tr.t0) - ((i * tr.dtNs : Nat) : Int)) tr.dtNs
      let d := f.sub (at_ (i + 1)) (at_ i)
      let ang := isAngleWord img j
      let x := f.add (at_ i) (f.mul (if ang then wrapPrec f d else d) r)
      if ang then wrapPrec f x else x

/-- Reference of MAP entry `m` at stage `k`: 0 for NONE, LON, LAT and HEAD_ERR. -/
def refEntry (img : Image) (f : Fmt) (tr : Traj) (m k : Nat) : Nat :=
  if img.mapKind m ∈ [1, 2, 3] then refWord img f tr (img.mapField m) (stageTime img k) else 0

/-- The reference of every stage: its states, then its inputs. -/
def reference (img : Image) (tr : Traj) : List Nat :=
  let f := solverFmt img
  (List.range (img.horizon + 1)).flatMap fun k => (List.range (img.nx + img.nu)).map fun m => refEntry img f tr m k

/-- Reference poses (X_r, Y_r, THETA_r) of the stages (R306). -/
def refPoses (img : Image) (tr : Traj) : List (List Nat) :=
  (List.range (img.horizon + 1)).map fun k => [0, 1, 3].map fun j => refWord img (solverFmt img) tr j (stageTime img k)

/-! ## Iterates -/

/-- Words of an iterate: states (N + 1) * NX, inputs N * NU, slacks and inequality duals NC * (N + 1) each, dynamics duals
(N + 1) * NX. -/
def Image.atX (i : Image) (k j : Nat) : Nat := k * i.nx + j
def Image.atU (i : Image) (k j : Nat) : Nat := (i.horizon + 1) * i.nx + k * i.nu + j
def Image.atS (i : Image) : Nat := (i.horizon + 1) * i.nx + i.horizon * i.nu
def Image.atL (i : Image) : Nat := i.atS + i.nc * (i.horizon + 1)
def Image.atN (i : Image) : Nat := i.atL + i.nc * (i.horizon + 1)
def Image.iterWords (i : Image) : Nat := i.atN + (i.horizon + 1) * i.nx

/-- Sum of s_i * lambda_i over ascending index, fused, divided by m_ineq: mu of an iterate (R307), FP32. -/
def gapOf (img : Image) (w : List Nat) : Word :=
  let f := solverFmt img
  let n := img.nc * (img.horizon + 1)
  if n = 0 then 0
  else
    let sum := (List.range n).foldl (fun a i => f.fma (w.getD (img.atS + i) 0) (w.getD (img.atL + i) 0) a) 0
    match (f.val sum).frac with
    | some (p, q) => ofPrec f (f.round p (q * n) (f.neg? sum))
    | none => ofPrec f sum

/-- The cold start (R309): the reference, every slack and dual MU0. -/
def coldStart (img : Image) (tr : Traj) : Iterate :=
  let f := solverFmt img
  let m := toPrec f img.mu0
  let xs := (List.range (img.horizon + 1)).flatMap fun k => (List.range img.nx).map fun j => refEntry img f tr j k
  let us := (List.range img.horizon).flatMap fun k => (List.range img.nu).map fun j => refEntry img f tr (img.nx + j) k
  { words := xs ++ us ++ List.replicate (img.iterWords - img.atS) m, resPrim := 0, resDual := 0, gap := img.mu0 }

/-- The absolute position of a path-local state and its expression against another reference pose (R306). -/
def relocate (f : Fmt) (old new : List Nat) (lon lat head : Nat) : List Nat :=
  let o := fun i => old.getD i 0
  let n := fun i => new.getD i 0
  let s := sinPrec f (o 2)
  let c := cosPrec f (o 2)
  let x := f.sub (f.add (o 0) (f.mul lon c)) (f.mul lat s)
  let y := f.add (f.add (o 1) (f.mul lon s)) (f.mul lat c)
  let th := wrapPrec f (f.add (o 2) head)
  let dx := f.sub x (n 0)
  let dy := f.sub y (n 1)
  let s2 := sinPrec f (n 2)
  let c2 := cosPrec f (n 2)
  [f.add (f.mul dx c2) (f.mul dy s2), f.sub (f.mul dy c2) (f.mul dx s2), wrapPrec f (f.sub th (n 2))]

/-- State index mapped with a kind. -/
def mapIdx (img : Image) (kind : Nat) : Option Nat := (List.range img.nx).find? fun j => img.mapKind j == kind

/-- The warm start of a shift by `q` stages (R309). -/
def warmStart (img : Image) (tr : Traj) (w : Warm) (q : Nat) : Iterate :=
  let f := solverFmt img
  let n := img.horizon
  let old := fun i => w.iter.words.getD i 0
  let poses := refPoses img tr
  let src := fun k => min (k + q) n
  let xs := (List.range (n + 1)).flatMap fun k =>
    let raw := (List.range img.nx).map fun j => old (img.atX (src k) j)
    match mapIdx img 4, mapIdx img 5, mapIdx img 6 with
    | some a, some b, some c =>
      let r := relocate f ((w.poses[src k]?).getD []) ((poses[k]?).getD []) (raw.getD a 0) (raw.getD b 0) (raw.getD c 0)
      ((raw.set a (r.getD 0 0)).set b (r.getD 1 0)).set c (r.getD 2 0)
    | _, _, _ => raw
  let us := (List.range n).flatMap fun k => (List.range img.nu).map fun j => if k + q < n then old (img.atU (k + q) j) else 0
  let m := toPrec f img.sigmaMin
  let floor := fun x => if f.lt x m then m else x
  let dual := fun (base per : Nat) => (List.range (n + 1)).flatMap fun k => (List.range per).map fun j => floor (old (base + src k * per + j))
  { words := xs ++ us ++ dual img.atS img.nc ++ dual img.atL img.nc ++ dual img.atN img.nx, resPrim := 0, resDual := 0, gap := 0 }

/-- Set-up (R305, R309): the start point of the refine of epoch `e`, and the epoch it warm-starts from. -/
def setUp (img : Image) (warm : Option Warm) (e : Epoch) (tr : Traj) : Iterate × Option Epoch :=
  match warm with
  | some w =>
    let q := img.solverShift * (e - w.epoch).toNat
    if q ≥ img.horizon then (coldStart img tr, none) else (warmStart img tr w q, some w.epoch)
  | none => (coldStart img tr, none)

/-! ## Iteration, cap and status -/

/-- The iteration cap (R310). -/
def iterCap (img : Image) (micro : Bool) : Nat := match img.quotaMode, micro with
  | false, false => img.iterMax
  | false, true => img.microIterCap
  | true, false => img.quotaSolverIter
  | true, true => min img.quotaSolverIter img.microIterCap

/-- One completed iteration and its convergence test (R307). -/
def iterate (img : Image) (tr : Traj) (c : Iterate) : Iterate × Bool :=
  let r := Config.solverStep (img.body 0xC) (reference img tr) c.words
  let g := gapOf img r.1
  ({ words := r.1, resPrim := r.2.1, resDual := r.2.2, gap := g },
   f32Le r.2.1 img.epsPrim && f32Le r.2.2 img.epsDual && f32Le g img.epsGap)

/-! ## Output (R321) -/

/-- Absolute pose of a stage of an iterate whose states are path-local (R306). -/
def outPose (f : Fmt) (p : List Nat) (lon lat head : Nat) : List Nat := 
  let s := sinPrec f (p.getD 2 0)
  let c := cosPrec f (p.getD 2 0)
  [f.sub (f.add (p.getD 0 0) (f.mul lon c)) (f.mul lat s), f.add (f.add (p.getD 1 0) (f.mul lon s)) (f.mul lat c),
   wrapPrec f (f.add (p.getD 2 0) head)]

/-- Values of output sample for stage `k`, before conversion (R321 steps 1 and 2). -/
def outValues (img : Image) (tr : Traj) (c : Iterate) (k : Nat) : List Nat :=
  let f := solverFmt img
  let base := (List.range 16).map fun j => refWord img f tr j (stageTime img k)
  let ku := min k (img.horizon - 1)
  let val := fun m => if m < img.nx then c.words.getD (img.atX k m) 0 else c.words.getD (img.atU ku (m - img.nx)) 0
  let put := (List.range (img.nx + img.nu)).foldl (fun l m => if img.mapKind m ∈ [1, 2, 3] then l.set (img.mapField m) (val m) else l) base
  match mapIdx img 4, mapIdx img 5, mapIdx img 6 with
  | some a, some b, some h =>
    let r := outPose f [base.getD 0 0, base.getD 1 0, base.getD 3 0] (val a) (val b) (val h)
    ((put.set 0 (r.getD 0 0)).set 1 (r.getD 1 0)).set 3 (r.getD 2 0)
  | _, _, _ => put

/-- A value in its field's format (Table 4-5). -/
def outWord (img : Image) (f : Fmt) (j x : Nat) : Word := if isPos img j then BitVec.ofInt 32 (f.toQ x) else ofPrec f x

/-- Stages of the output samples. -/
def outStages (img : Image) : List Nat := (List.range (img.horizon / img.outStride + 1)).map (· * img.outStride)

/-- Words of a sample record that are reserved or beyond JOINTS keep zero. -/
def usedWord (img : Image) (j : Nat) : Bool := if img.kind = 0 then decide (j < 12) else true

/-- The result of a run as returned: the header (Table 11-6), the samples, and the status of R313. -/
def refineResult (img : Image) (r : RefineRun) (deadline noEngine : Bool) (tr : Traj) : Refined :=
  let f := solverFmt img
  let vals := (outStages img).map (outValues img tr r.cur)
  let finite := (r.cur.words.all f.finite) && vals.all fun v => (v.zipIdx).all fun x => !usedWord img x.2 || f.finite x.1
  let status := if !finite ∨ r.differs then 3 else if r.converged then 0 else if deadline ∨ noEngine then 2 else 1
  let warmOnly := (deadline ∨ noEngine) ∧ r.iterations = 0
  { id := r.id, flags := r.flags, status
    rflags := bit warmOnly + 2 * bit r.cold + 4 * bit (!finite) + 8 * bit (status == 2 && !noEngine) + 16 * bit r.refClamped +
      32 * bit (r.engine == 0xFF) + 64 * bit r.replayed + 128 * bit noEngine
    iterations := r.iterations, engine := if r.engine = 0xFE then 0 else r.engine, failStage := 0xFFFF
    resPrim := r.cur.resPrim, gap := r.cur.gap
    traj := { t0 := img.stage0Offset, dtNs := img.outStride * img.stageDt
              samples := vals.map fun v => (v.zipIdx).map fun x => if usedWord img x.2 then outWord img f x.2 x.1 else 0 } }

/-- Bytes of the refine header and samples; for the digest ENGINE and RFLAGS bits 6 and 7 read as 0 (R323). -/
def Refined.bytes (r : Refined) (digest : Bool) : List Byte :=
  leBytes r.id 4 ++ leBytes r.flags 2 ++ leBytes r.status 1 ++ leBytes (if digest then bits r.rflags 0 6 else r.rflags) 1 ++
  leBytes (pattern 32 r.traj.t0) 4 ++ leBytes r.traj.dtNs 4 ++ leBytes r.traj.samples.length 2 ++ leBytes r.iterations 2 ++
  leBytes (if digest then 0 else r.engine) 1 ++ leBytes 0 1 ++ leBytes r.failStage 2 ++ leBytes r.resPrim.toNat 4 ++
  leBytes r.gap.toNat 4 ++ r.traj.samples.flatMap fun w => w.flatMap fun x => leBytes x.toNat 4

end Sys2Proof.Machine
end

