-- ==== Sys2Proof/Machine/Select.lean ====
section
/-! DEFINITION. The commands of selection (R282 to R299, R502) and of refinement (R305 to R324), and the final sweep (R210 to
R212). -/

namespace Sys2Proof.Machine

/-! ## The merge -/

/-- Tiles that deliver a local partial list: those of the sweep and ledger stages, in ascending SRC (R279, R282). -/
def listTiles (img : Image) : List Nat := maskTiles (img.stageTileMask 4 ||| img.stageTileMask 5)

/-- Local lists, one a tile, then the remote ones in chain and tile order (R282, R283). -/
def State.mergeInputs (s : State) (img : Image) : List PList :=
  (listTiles img).map (fun t => (s.order.lists.find? fun l => l.src == t).getD (emptyList t)) ++ s.order.remote.map (·.2)

/-- Remote lists the tail expects: one a tile of every sweeping device but itself (R497, R502). -/
def State.remoteExpected (s : State) (img : Image) : Nat :=
  if s.get Reg.SAFE_SP_STRAPS.ROLE = 0 then 0
  else (s.sweepShare.1 - bit s.sweepShare.2.isSome) * (maskTiles (img.stageTileMask 4)).length

/-- A test slice runs on a unit: it holds a TEST token. -/
def State.underTest (s : State) (cls idx : Nat) : Bool := s.fault.tokens.any fun t => t.act == 0 && t.cls == cls && t.idx == idx

/-- Work of the committed epoch runs: a frame is in progress and its work has not been discarded. -/
def State.working (s : State) : Bool := s.frame.inFrame && !s.frame.discarded && !s.frame.committed

/-- Expand, sweep and ledger of the epoch have released every task on this device; an epoch without a start state has
none (R158). -/
def State.searchReleased (s : State) (img : Image) : Bool :=
  (s.world.closed && s.world.epoch == epochOf s.frame.k && s.world.start.isNone) ||
  [3, 4, 5].all fun id => !img.hasStage id || s.stageReleased img id

/-- A sweeping device upstream of the tail sends the partial list of each of its sweep tiles to the tail, once an epoch, and
may then confirm it (R497, R500, R502). -/
def sendLists (s : State) (img : Image) : State :=
  let e := epochOf s.frame.k
  if !s.confirms ∨ s.tenon.outputsSent = some e ∨ s.frame.discarded then s
  else
    let s := match s.tenon.down, s.sweepShare.2 with
      | some k, some _ => (maskTiles (img.stageTileMask 4)).foldl (fun (s : State) (t : Nat) =>
          let p : PList := (s.order.lists.find? fun (l : PList) => l.src == t).getD (emptyList t)
          sendMessage s k (crcMessage 2 0 (s.get Reg.TENON_DEVICES.TAIL) s.device e 0 p.bytes)) s
      | _, _ => s
    tryConfirm { s with tenon := { s.tenon with outputsSent := some e } } e

/-- MERGE_START (R282, R295, R502): every task of the epoch has released, or T_search has passed in WALL mode, and the remote
lists are in or left out. The path of the epoch's selection is fixed here. A device upstream of the tail sends its
lists. -/
def execMergeStart (s : State) : Result :=
  match s.cfg.image with
  | none => .next s
  | some img =>
    let localIn := s.searchReleased img || (wall img && s.frame.searchOver)
    let remoteIn := s.order.remoteClosed || decide (s.remoteExpected img ≤ s.order.remote.length)
    if !s.working ∨ !img.hasStage 6 ∨ s.order.inputs.isSome ∨ s.order.selection.isSome ∨ !localIn then .next s
    else if !s.isTail then .next (sendLists s img)
    else if !remoteIn then .next s
    else
      let fb := !s.unitGood 3 0 || s.order.heldOff || s.underTest 3 0
      let s := if fb then s.inc Reg.ORDER_FALLBACK_COUNT.EPOCHS else s
      .next { s with order := { s.order with inputs := some (s.mergeInputs img), fallback := fb } }

/-- SEARCH_DEADLINE (R31, R326): at T_search of the frame in progress, in WALL mode every task of propose, expand, sweep and
the roadmap paths that is not complete is cut; in both modes the epoch D ahead
becomes speculative, but in a drain frame (R87). A device upstream of the tail sends its lists (R502). -/
def execSearchDeadline (s : State) : Result :=
  match s.cfg.image with
  | none => .next s
  | some img =>
    if !s.frame.inFrame ∨ s.frame.searchOver then .next s
    else
      let now : Int := s.frameStartNs s.frame.k + 1000 * s.get Reg.FRAME_SEARCH_DEADLINE.SEARCH_US
      let s := { s with frame := { s.frame with now, searchOver := true } }
      let s := if wall img ∧ !s.frame.discarded ∧ s.world.start.isSome then [2, 3, 4, 5].foldl (cutStageTasks img) s else s
      let s := if wall img then sendLists s img else s
      .next (if s.frame.drain then s else beginSpeculation s img)

/-- REMOTE_LIST_DEADLINE (R502, R341): at T_search + L in WALL mode the tail leaves out the lists that have not arrived. -/
def execRemoteListDeadline (s : State) : Result :=
  match s.cfg.image with
  | none => .next s
  | some img =>
    let missing := s.remoteExpected img - s.order.remote.length
    if !s.working ∨ !s.isTail ∨ !wall img ∨ !s.frame.searchOver ∨ s.order.inputs.isSome ∨ s.order.selection.isSome ∨ missing = 0 then .next s
    else
      let s := s.add Reg.TENON_LIST_LATE.COUNT missing
      .next { s with order := { s.order with remoteClosed := true }, jig := { s.jig with sweepCut := true } }

/-- Re-expansion of a selected candidate (R171, R240, R294). -/
def reexpand (s : State) (img : Image) (id : Nat) : Option Cand :=
  if 0x80000000 ≤ id then
    match s.ledger.search with
    | some q => (q.paths.find? fun p => p.node == id - 0x80000000).map fun p =>
        expandPath img (s.bulk 0xA) q.shift p (s.t0 (epochOf s.frame.k) q.start)
    | none => none
  else match s.netCtx img none with
    | some c => candidate s c (epochOf s.frame.k) false id
    | none => none

/-- An iterate without words, before set-up. -/
def noIterate : Iterate := { words := [], resPrim := 0, resDual := 0, gap := 0 }

/-- Refine of the epoch begins on the engine of R318, in microcode (R324), or without an engine (R319). -/
def startRefine (s : State) (img : Image) (e : PEntry) : State :=
  let pick := if img.refineMicrocode then some (0xFF, none) else s.pickEngine
  let s := if pick.isNone then s.set Reg.SOLVER_STATUS.NO_ENGINE 1 else s
  let run : RefineRun :=
    { id := e.id, flags := e.flags, cand := none, refClamped := false
      engine := (pick.map (·.1)).getD 0xFE, second := (pick.map (·.2)).getD none
      cold := false, warmEpoch := none, start := noIterate, cur := noIterate, iterations := 0, converged := false, stopped := false
      replayed := false, differs := false }
  let diag : Option (Nat × Nat) := match s.solver.diag with
    | some d => if pick.any fun p => p.1 == d.1 || p.2 == some d.1 then none else some d
    | none => none
  let s := if diag.isNone ∧ s.solver.diag.isSome then
      ((s.set Reg.SOLVER_DIAG_STATUS.RESULT 3).set Reg.SOLVER_DIAG_STATUS.ENGINE ((s.solver.diag.map (·.1)).getD 0)).set
        Reg.SOLVER_STATUS.DIAG_BUSY 0 else s
  { s with solver := { s.solver with run := some run, result := none, diag } }

/-- The selection is released (R292, R294): conflicts are charged, and refine receives its entry, or the Gauge learns that
there is none. -/
def releaseSelection (s : State) (img : Image) (inputs : List PList) : State :=
  let r := selectionOf img.topK (epochOf s.frame.k) inputs s.order.fallback s.order.repeated
  let s := { s with order := { s.order with
    selection := some r.1, inputs := none, cycles := if s.order.fallback then s.order.cycles else s.order.cycles + r.2.2 } }
  let s := s.add Reg.ORDER_NAN_TOTAL.NAN r.1.nanCount
  let s := if r.2.1 = 0 then s
    else detect ((s.set Reg.ORDER_STATUS.SCORE_CONFLICT 1).add Reg.ORDER_CONFLICT_COUNT.CONFLICTS r.2.1) (mkError 3 0 1 12 0)
  match r.1.best with
  | none => { s with safety := { s.safety with noCandidate := true } }
  | some e => if img.hasStage 7 then startRefine s img e else s

/-- MERGE_DONE (R283 to R294): the main path of the merge ends. -/
def execMergeDone (s : State) : Result :=
  match s.cfg.image, s.order.inputs with
  | some img, some inputs => if s.order.fallback ∨ !s.working then .next s else .next (releaseSelection s img inputs)
  | _, _ => .next s

/-- ORDER_ERROR (R297, R298): the whole merge is repeated once; a clean repeat is CORRECTED, a failed one makes the Ordering
Unit SUSPECT and the selection is made again on the fall-back path. -/
def execOrderError (mech : Nat) (clean : Bool) (s : State) : Result :=
  match s.cfg.image, s.order.inputs with
  | some img, some inputs =>
    if s.order.fallback ∨ !s.working then .next s
    else
      let once := (selectionOf img.topK (epochOf s.frame.k) inputs false false).2.2
      let s := { s with order := { s.order with cycles := s.order.cycles + once, repeated := true } }
      let s := s.set Reg.ORDER_STATUS.REPEATED 1
      if clean then .next (detect s (mkError 3 0 0 mech 1))
      else
        let s := detectPermanent s (mkError 3 0 1 mech 2)
        .next { s.inc Reg.ORDER_FALLBACK_COUNT.EPOCHS with order := { s.order with fallback := true } }
  | _, _ => .next s

/-- FALLBACK_MERGE_DONE (R296): a sweep tile has merged every input in one pass; without a tile that is not SUSPECT no
merge ends. -/
def execFallbackMergeDone (s : State) : Result :=
  match s.cfg.image, s.order.inputs with
  | some img, some inputs =>
    if !s.order.fallback ∨ !s.working ∨ (s.lowestGoodTile img 4).isNone then .next s else .next (releaseSelection s img inputs)
  | _, _ => .next s

/-! ## Refinement -/

/-- The state with the refine run replaced. -/
def State.setRun (s : State) (r : RefineRun) : State := { s with solver := { s.solver with run := some r } }

/-- Set-up of a run from its candidate's samples (R305, R309). -/
def setUpRun (s : State) (img : Image) (r : RefineRun) (tr : Traj) : State :=
  let p := setUp img s.solver.warm (epochOf s.frame.k) tr
  let clamped := (List.range (img.horizon + 1)).any fun k => outside tr (stageTime img k)
  let s := { s with solver := { s.solver with used := some (p.2.isNone, p.2, p.1.words) } }
  s.setRun { r with cand := some tr, refClamped := clamped, cold := p.2.isNone, warmEpoch := p.2, start := p.1, cur := p.1
                    iterations := 0, converged := false }

/-- REFERENCE_ARRIVAL (R305): the re-expanded samples reach the solver, and set-up runs. -/
def execReferenceArrival (s : State) : Result :=
  match s.cfg.image, s.solver.run with
  | some img, some r =>
    if r.cand.isSome ∨ !s.working then .next s
    else match reexpand s img r.id with
      | none => .next s
      | some c => .next (setUpRun s img r c.traj)
  | _, _ => .next s

/-- A run has ended: it converged, met its cap or was stopped; without an engine it never iterates. -/
def RefineRun.over (img : Image) (r : RefineRun) : Bool :=
  r.converged || r.stopped || r.engine == 0xFE || decide (iterCap img (r.engine == 0xFF) ≤ r.iterations)

/-- SOLVER_ITERATION (R307): one iteration completes. -/
def execSolverIteration (s : State) : Result :=
  match s.cfg.image, s.solver.run with
  | some img, some r =>
    match r.cand with
    | some tr =>
      if r.over img ∨ !s.working then .next s
      else
        let c := iterate img tr r.cur
        .next (s.setRun { r with cur := c.1, converged := c.2, iterations := r.iterations + 1 })
    | none => .next s
  | _, _ => .next s

/-- SOLVER_STOP_TIME (R311): in WALL mode a run still iterating stops; the iteration in progress is discarded. -/
def execSolverStopTime (s : State) : Result :=
  match s.cfg.image, s.solver.run with
  | some img, some r => if !wall img ∨ !s.working ∨ r.over img then .next s else .next (s.setRun { r with stopped := true })
  | _, _ => .next s

/-- Refine results enter the registers, the Gauge's inputs and the next warm start (R309, R317, R325). -/
def returnRefine (s : State) (img : Image) (r : RefineRun) (tr : Traj) (t : Nat) : State :=
  let noEngine := r.engine == 0xFE
  let out := refineResult img r r.stopped noEngine tr
  let s := s.set Reg.SOLVER_RETURN_NS.RETURN t
  let s := if out.status = 2 then s.inc Reg.SOLVER_DEADLINE_COUNT.COUNT else s
  let s := if out.status = 3 then s.inc Reg.SOLVER_NUMERIC_COUNT.COUNT else s
  let s := if r.cold then s.inc Reg.SOLVER_COLD_COUNT.COUNT else s
  let warm := if out.status = 3 then s.solver.warm
    else some { epoch := epochOf s.frame.k, iter := r.cur, poses := refPoses img tr }
  let other := s.goodEngines.find? fun e => e != r.engine && s.unitGood 4 e && !s.solver.testing.contains e
  let diag := if out.status = 3 ∧ img.diagOnNumeric ∧ r.engine < 4 then other.map fun e => (e, r.engine) else s.solver.diag
  let s := s.set Reg.SOLVER_STATUS.DIAG_BUSY (bit diag.isSome)
  { s with solver := { s.solver with run := none, result := some out, warm, diag }
           jig := { s.jig with refineCut := s.jig.refineCut || bitOf out.rflags 3 }
           safety := { s.safety with refineStatus := out.status }
           frame := { s.frame with now := s.frameStartNs s.frame.k + t } }

/-- REFINE_RETURN (R311 to R314, R321): the output of an ended run is released, `t` ns from the frame start. `differ`: the
two runs of R319 differ in some bit. -/
def execRefineReturn (t : Nat) (differ : Bool) (s : State) : Result :=
  match s.cfg.image, s.solver.run with
  | some img, some r =>
    match r.cand with
    | some tr =>
      if !s.working ∨ !r.over img then .next s
      else .next (returnRefine s img { r with differs := r.differs || (differ && r.second.isSome) } tr t)
    | none => .next s
  | _, _ => .next s

/-- SOLVER_ENGINE_ERROR (R320): the refine restarts from set-up on the next engine chosen under R318, keeping its deadline. An
error in either of the two runs of R319 makes their results differ. -/
def execSolverEngineError (mech : Nat) (s : State) : Result :=
  match s.cfg.image, s.solver.run with
  | some img, some r =>
    if !s.working ∨ 4 ≤ r.engine then .next s
    else
      let s := detect s (mkError 4 r.engine 1 mech 0)
      if r.second.isSome then .next (s.setRun { r with differs := true })
      else
        let next := (s.goodEngines.filter fun e => e != r.engine && !s.solver.testing.contains e && s.unitGood 4 e).head?
        let s := (s.set Reg.SOLVER_STATUS.REPLAYED 1).set Reg.SOLVER_STATUS.NO_ENGINE
          (if next.isNone then 1 else s.get Reg.SOLVER_STATUS.NO_ENGINE)
        let r := { r with engine := next.getD 0xFE, replayed := true }
        match r.cand with
        | some tr => .next (setUpRun s img r tr)
        | none => .next (s.setRun r)
  | _, _ => .next s

/-- DIAG_RESOLVE_DONE (R317): the recovery re-solve ends. Its result goes to SOLVER_DIAG_STATUS only; any status but
INFEASIBLE charges the engine that ran the frame. -/
def execDiagResolveDone (result : Diag) (s : State) : Result :=
  match s.solver.diag with
  | none => .next s
  | some (e, charged) =>
    let s := { s.set Reg.SOLVER_STATUS.DIAG_BUSY 0 with solver := { s.solver with diag := none } }
    let s := s.set Reg.SOLVER_DIAG_STATUS.ENGINE e
    match result with
    | .infeasible stage pivot =>
      .next (((s.set Reg.SOLVER_DIAG_STATUS.RESULT 1).set Reg.SOLVER_DIAG_STATUS.STAGE stage).set Reg.SOLVER_DIAG_STATUS.PIVOT pivot)
    | .other => .next (detectPermanent (s.set Reg.SOLVER_DIAG_STATUS.RESULT 2) (mkError 4 charged 1 11 2))
    | .abandoned => .next (s.set Reg.SOLVER_DIAG_STATUS.RESULT 3)

/-! ## The final sweep -/

/-- The trajectory handed to verify: refine's, or the selected candidate where there is no refine stage (R210, R294). -/
def State.finalTraj (s : State) (img : Image) : Option Traj :=
  if img.hasStage 7 then s.solver.result.map (·.traj)
  else match s.order.selection.bind Selection.best with
    | some e => (reexpand s img e.id).map (·.traj)
    | none => none

/-- FINAL_SWEEP_DONE (R210 to R212): the lowest-numbered sweep tile that is not SUSPECT has swept every sphere of every body
at every sample of the trajectory handed to verify. -/
def execFinalSweepDone (s : State) : Result :=
  match s.cfg.image with
  | none => .next s
  | some img =>
    match s.finalTraj img, s.lowestGoodTile img 4 with
    | some tr, some tile =>
      if !s.working ∨ s.safety.finalSweep.isSome ∨ s.frame.verdictDone then .next s
      else
        let f := finalSweepOf (s.laneCtx img none tr)
        let s := s.tally (Reg.TILE_SWEEP_QUERIES.ISSUED (s.phys tile)) f.queries
        .next { s with safety := { s.safety with finalSweep := some f } }
    | _, _ => .next s

end Sys2Proof.Machine
end

