-- ==== Sys2Proof/Machine/TrySquare.lean ====
section
/-! DEFINITION. The Try Square (chapter 14): its grid (R380 to R384), the checks of a trajectory (R385 to R392), and the
construction of fallbacks (R394 to R397). All in Q16.16 and integers; a saturated value carries its flag. -/

namespace Sys2Proof.Machine

/-! ## The grid -/

/-- Number of a cell of the grid. -/
def gridCell (img : Image) (x y z : Nat) : Nat := x + img.cellsAlong 0 * (y + img.cellsAlong 1 * z)

/-- Cells of a layer. -/
def gridCells (img : Image) : Nat := img.cellsAlong 0 * img.cellsAlong 1 * img.cellsAlong 2

/-- Position of a cell. -/
def gridPos (img : Image) (c : Nat) : Nat × Nat × Nat :=
  (c % img.cellsAlong 0, c / img.cellsAlong 0 % img.cellsAlong 1, c / img.cellsAlong 0 / img.cellsAlong 1)

/-- A cell lies in a stream's REGION. -/
def cellInRegion (img : Image) (d c : Nat) : Bool :=
  let p := gridPos img (c % gridCells img)
  img.inRegion d (p.1 / img.edge 0) (p.2.1 / img.edge 1) (p.2.2 / img.edge 2)

/-- The shift of the free cells, entering cells being blocked (R123, R382 step 1). -/
def shiftFree (img : Image) (d : Int × Int × Int) (l : List Nat) : List Nat :=
  l.foldl (fun acc c =>
    let p := gridPos img (c % gridCells img)
    let x : Int := (p.1 : Int) - d.1
    let y : Int := (p.2.1 : Int) - d.2.1
    let z : Int := (p.2.2 : Int) - d.2.2
    if 0 ≤ x ∧ x < img.cellsAlong 0 ∧ 0 ≤ y ∧ y < img.cellsAlong 1 ∧ 0 ≤ z ∧ z < img.cellsAlong 2 then
      setAdd (c / gridCells img * gridCells img + gridCell img x.toNat y.toNat z.toNat) acc
    else acc) []

/-- A write to a grid bit: of the occupancy bit (none) or a slice's, its cell, and blocked or free. -/
structure GridWrite where
  slice : Option Nat
  cell : Nat
  blocked : Bool
deriving DecidableEq, Repr

/-- Grid writes of one copied record, in order (R382). -/
def gridWrites (img : Image) (stream : Nat) (r : WRec) : List GridWrite :=
  let l := img.streamLayer stream
  let ty := img.layerType l
  let pred := ty == 4
  let every := fun (c : Nat) =>
    if pred then (List.range (img.slices l)).map fun j => ({ slice := some j, cell := c, blocked := true } : GridWrite)
    else [{ slice := none, cell := c, blocked := true }]
  let value := fun (sl v : Nat) (c : Nat) =>
    if pred then [({ slice := some sl, cell := c, blocked := v == 1 || (v == 2 && img.predUnknownOcc) || v == 3 } : GridWrite)]
    else [{ slice := none, cell := c, blocked := v != 0 }]
  match r with
  | .span p sl off n data =>
    let q := panelPos img p
    let cellOf := fun (i : Nat) => gridCell img (q.1 * img.edge 0 + i % img.edge 0) (q.2.1 * img.edge 1 + i / img.edge 0 % img.edge 1)
      (q.2.2 * img.edge 2 + i / img.edge 0 / img.edge 1)
    if img.panelCount ≤ p ∨ !img.inRegion stream q.1 q.2.1 q.2.2 then []
    else if recBad img stream r then
      let first := 64 * off * 8 / max 1 (Image.cellBits ty)
      (List.range (4096 - first)).flatMap fun i => every (cellOf (first + i))
    else if n = 0 then [] else (spanCells ty off data).flatMap fun c => value sl c.2 (cellOf c.1)
  | .voxel x y z v =>
    if img.cellsAlong 0 ≤ x ∨ img.cellsAlong 1 ≤ y ∨ img.cellsAlong 2 ≤ z ∨
      !img.inRegion stream (x / img.edge 0) (y / img.edge 1) (z / img.edge 2) then []
    else if recBad img stream r then every (gridCell img x y z)
    else if pred then value (v / 256) (v % 256) (gridCell img x y z) else value 0 v (gridCell img x y z)
  | .ego _ _ _ _ => []

/-- Key of a grid bit: occupancy bits first, then slice by slice. -/
def GridWrite.key (img : Image) (w : GridWrite) : Nat := match w.slice with
  | none => w.cell
  | some j => gridCells img * (j + 1) + w.cell

/-- Streams whose copies the grid follows. -/
def gridStream (img : Image) (d : Nat) : Bool :=
  img.safetyCopy d && d != 0xFFFF && (img.streamLayer d == img.occLayer || img.streamLayer d == img.predLayer)

/-- Steps 1 and 3 for the copies of one epoch: the shift, then the records, a cell that more than one stream writes being
blocked unless every stream's last write is free (R382). The grid is the pair of free cells and free slice bits. -/
def gridRecords (img : Image) (fs : List Admitted) (g : List Nat × List Nat) : List Nat × List Nat :=
  let writes := (img.streamIds.filter (gridStream img)).map fun d =>
    (bySeq (fs.filter fun f => f.stream == d)).foldl (fun m f =>
      (f.recs.flatMap (gridWrites img d)).foldl (fun m w => sInsert (w.key img) (bit w.blocked) m) m) ([] : List (Nat × Nat))
  let all := writes.foldl (fun acc m => m.foldl (fun acc e => sInsert e.1 (max e.2 (sGet 0 e.1 acc)) acc) acc) ([] : List (Nat × Nat))
  all.foldl (fun g e =>
    let n := gridCells img
    let put := fun (l : List Nat) (c : Nat) => if e.2 = 0 then setAdd c l else l.filter (· ≠ c)
    if e.1 < n then (put g.1 e.1, g.2) else (g.1, put g.2 (e.1 - n))) g

/-- Every cell of a stream's REGION blocked (R381, R383). -/
def blockRegion (img : Image) (g : List Nat × List Nat) (d : Nat) : List Nat × List Nat :=
  if img.streamLayer d = img.occLayer ∧ img.streamLayer d = img.predLayer then g
  else if img.streamLayer d = img.occLayer then (g.1.filter fun c => !cellInRegion img d c, g.2)
  else if img.streamLayer d = img.predLayer then (g.1, g.2.filter fun c => !cellInRegion img d c)
  else g

/-- Shift of the ego copy of an epoch. -/
def copyShift (fs : List Admitted) (e : Epoch) : Int × Int × Int := egoShift fs e

/-- The measured state after the ego copies of an update (R384): of the highest sequence among those whose KIND and JOINTS
match and whose fields are finite. -/
def measure (img : Image) (fs : List Admitted) (m : Option (Word × List Byte)) : Option (Word × List Byte) :=
  (fs.filter fun f => f.stream == 0xFFFF).foldl (fun m f => match f.recs.getLast? with
    | some (.ego _ _ _ st) =>
      let ok := byteAt st 8 == img.kind && byteAt st 9 == img.joints && (stFloats img).all fun o => f32Finite (stWord st o)
      let newer := match m with
        | some p => epochLater f.seq p.1
        | none => true
      if ok && newer then some (f.seq, st) else m
    | _ => m) m

/-- GRID_UPDATE's effect for epoch `e` (R381 to R384): passed-over epochs first, then the shift, staleness, the records, and
the blocking for dropped copies. -/
def updateGrid (s : State) (img : Image) (e : Epoch) : State :=
  let mine := (s.safety.copies.map (·.frame)).filter fun f => !epochLater f.epoch e
  let epochs := pendingEpochs mine e
  let g := epochs.foldl (fun g x =>
    let fs := mine.filter fun f => f.epoch == x
    let g := (shiftFree img (copyShift fs x) g.1, shiftFree img (copyShift fs x) g.2)
    if x = e then g else gridRecords img fs g) (s.safety.gridFree, s.safety.sliceFree)
  let streams := img.streamIds.filter (gridStream img)
  let silent := streams.foldl (fun m d =>
    let seen := (mine.any fun f => f.stream == d && f.epoch == e) || s.safety.dropped.contains d
    sSet 0 d (if seen then 0 else sGet 0 d m + 1) m) s.safety.silent
  let stale := streams.filter fun d => decide (img.maxSilent d ≠ 0 ∧ img.maxSilent d ≤ sGet 0 d silent)
  let g := stale.foldl (blockRegion img) g
  let g := gridRecords img (mine.filter fun f => f.epoch == e) g
  let g := if s.safety.dropped.contains 0xFFFF then ([], []) else s.safety.dropped.foldl (blockRegion img) g
  { s with safety := { s.safety with
    gridFree := g.1, sliceFree := g.2, silent, dropped := [], gridEpoch := some e, gridDone := true
    measured := measure img mine s.safety.measured
    copies := s.safety.copies.filter fun c => epochLater c.frame.epoch e } }

/-! ## Samples -/

/-- Words of a sample that are Q16.16 already: X, Y and Z of a VEHICLE. -/
def isQWord (img : Image) (j : Nat) : Bool := img.safetyKind == 0 && decide (j < 3)

/-- A trajectory in the Try Square's form, at absolute times (R385). -/
def QTraj.ofTraj (img : Image) (start : Int) (tr : Traj) : QTraj :=
  let pts := (tr.samples.zipIdx).map fun p =>
    ({ t := start + tr.t0 + (p.2 : Int) * tr.dtNs
       f := (p.1.zipIdx).map fun w => if isQWord img w.2 then Q.of w.1.toInt else f32ToQ w.1 } : QPoint)
  { pts, stopAt := none, endAt := match pts.getLast? with
      | some p => p.t
      | none => start
    rest := false }

/-- Rotation about an axis by a Q16.16 angle, with the own CORDIC (R386). -/
def ownRotation (axis : Nat) (a : Q) : List Q :=
  let c : Q := { v := Config.cordicCos a.v, sat := a.sat }
  let s : Q := { v := Config.cordicSin a.v, sat := a.sat }
  let n := Q.op qSub (Q.of 0) s
  let z := Q.of 0
  let u := Q.of 65536
  match axis with
  | 0 => [u, z, z, z, c, n, z, s, c]
  | 1 => [c, z, s, z, u, z, n, z, c]
  | _ => [c, n, z, s, c, z, z, z, u]

/-- The identity rotation. -/
def qIdentity : List Q := [Q.of 65536, Q.of 0, Q.of 0, Q.of 0, Q.of 65536, Q.of 0, Q.of 0, Q.of 0, Q.of 65536]

/-- Poses of the SAFETY bodies at a point (R179, R377). -/
def boxPoses (img : Image) (p : QPoint) : List Pose :=
  (List.range img.boxCount).foldl (fun (ps : List Pose) b =>
    let root : Pose := if img.safetyKind = 0 then { o := [p.field 0, p.field 1, p.field 2], r := ownRotation 2 (p.field 3) }
      else { o := [Q.of 0, Q.of 0, Q.of 0], r := qIdentity }
    let here := if b = 0 then root
      else
        let parent := ps.getD (img.boxByte b 0) root
        let o := parent.apply ((List.range 3).map fun a => Q.of (img.boxWord b (1 + a)))
        let q := p.field (img.boxByte b 2)
        match img.boxByte b 1 with
        | 2 => { o, r := qMat parent.r (ownRotation 2 (p.field (8 + b))) }
        | 3 => { o, r := qMat parent.r (ownRotation 2 q) }
        | 4 => { o, r := qMat parent.r (ownRotation 1 q) }
        | 5 => { o, r := qMat parent.r (ownRotation 0 q) }
        | 6 => { o := (List.range 3).map fun i => Q.op qAdd (qv o i) (Q.op qMul (qv parent.r (3 * i + 2)) q), r := parent.r }
        | _ => { o, r := parent.r }
    ps ++ [here]) []

/-! ## Collision (R387, R388) -/

/-- Corners of a box enlarged by a margin: half-extents plus 2^-10 m plus the margin (R386, R387). -/
def boxCorners (img : Image) (b : Nat) (margin : Int) (p : Pose) : List (List Q) :=
  (List.range 8).map fun n => p.apply ((List.range 3).map fun a =>
    let h := Q.op qAdd (qSat (img.boxWord b (7 + a) + 64)) (Q.of margin)
    let c := Q.of (img.boxWord b (4 + a))
    if bitOf n a then Q.op qAdd c h else Q.op qSub c h)

/-- Coordinate of a rational point. -/
def axisOf (p : Rat × Rat × Rat) (a : Nat) : Rat := if a = 0 then p.1 else if a = 1 then p.2.1 else p.2.2

/-- The part of a convex hull between two planes across an axis, as points whose hull it is. -/
def clipSlab (a : Nat) (lo hi : Rat) (ps : List (Rat × Rat × Rat)) : List (Rat × Rat × Rat) :=
  (ps.filter fun p => decide (lo ≤ axisOf p a ∧ axisOf p a ≤ hi)) ++
  ps.flatMap fun p => ps.flatMap fun q => [lo, hi].filterMap fun (c : Rat) =>
    if axisOf p a < c ∧ c < axisOf q a then
      let f := (c - axisOf p a) / (axisOf q a - axisOf p a)
      some (p.1 + f * (q.1 - p.1), p.2.1 + f * (q.2.1 - p.2.1), p.2.2 + f * (q.2.2 - p.2.2))
    else none

/-- First and last cell index of a coordinate interval, widened outward to whole cells. -/
def cellSpan (lo hi : Rat) : Int × Int := let a := lo.floor; (a, max a (hi.ceil - 1))

/-- Cells along x, in each row and layer that the enlarged box meets: indexes x0 to x1, y and z. -/
def boxCells (img : Image) (cs : List (List Q)) : List (Int × Int × Int × Int) :=
  let unit := fun (a : Nat) (v : Int) => ((v - img.gridOrigin a : Int) : Rat) / (img.cellSize : Rat)
  let flatZ := img.cellsAlong 2 == 1
  let ps := cs.map fun c => (unit 0 (qv c 0).v, unit 1 (qv c 1).v, if flatZ then (0 : Rat) else unit 2 (qv c 2).v)
  let range := fun (a : Nat) (ps : List (Rat × Rat × Rat)) => match ps.map fun p => axisOf p a with
    | [] => (0, -1)
    | v :: r => cellSpan (r.foldl min v) (r.foldl max v)
  let steps := fun (r : Int × Int) => (List.range (r.2 - r.1 + 1).toNat).map fun (i : Nat) => r.1 + (i : Int)
  (steps (range 1 ps)).flatMap fun (y : Int) =>
    let row := clipSlab 1 (y : Rat) ((y + 1 : Int) : Rat) ps
    if flatZ then [((range 0 row).1, (range 0 row).2, y, 0)]
    else (steps (range 2 row)).map fun (z : Int) =>
      let layer := clipSlab 2 (z : Rat) ((z + 1 : Int) : Rat) row
      ((range 0 layer).1, (range 0 layer).2, y, z)

/-- A blocked cell lies in the enlarged box, in the occupancy bits or in one of the chosen slices. -/
def boxBlocked (s : SafetySt) (img : Image) (slices : List Nat) (cs : List (List Q)) : Bool :=
  (boxCells img cs).any fun r =>
    let y := r.2.2.1
    let z := r.2.2.2
    (List.range (r.2.1 - r.1 + 1).toNat).any fun (i : Nat) =>
      let x := r.1 + (i : Int)
      if 0 ≤ x ∧ x < img.cellsAlong 0 ∧ 0 ≤ y ∧ y < img.cellsAlong 1 ∧ 0 ≤ z ∧ z < img.cellsAlong 2 then
        let c := gridCell img x.toNat y.toNat z.toNat
        !s.gridFree.contains c || slices.any fun j => !s.sliceFree.contains (gridCells img * j + c)
      else true

/-! ## Limits (R389) -/

/-- A difference over an interval of `ns` nanoseconds. -/
def qRate (d : Q) (ns : Int) : Q :=
  if ns ≤ 0 then ⟨qMax, true⟩ else let r := qSat (roundHalfEven (d.v * 1000000000) ns.toNat); { r with sat := r.sat || d.sat }

/-- Absolute value. -/
def Q.abs (x : Q) : Q := if x.v < 0 then Q.op qSub (Q.of 0) x else x

/-- Length of a planar step, an integer square root rounded up. -/
def stepLength (a b : QPoint) : Int :=
  sqrtUp (((b.field 0).v - (a.field 0).v) ^ 2 + ((b.field 1).v - (a.field 1).v) ^ 2).toNat

/-- What a limit test gives: whether a quantity exceeds its limit by more than its tolerance, and whether some value
saturated. -/
structure LimRes where
  bad : Bool := false
  sat : Bool := false
deriving DecidableEq, Repr

/-- A quantity tested against an upper limit. -/
def LimRes.above (r : LimRes) (x : Q) (limit tol : Int) : LimRes := { bad := r.bad || decide (limit + tol < x.v), sat := r.sat || x.sat }
/-- A quantity tested against a lower limit. -/
def LimRes.below (r : LimRes) (x : Q) (limit tol : Int) : LimRes := { bad := r.bad || decide (x.v < limit - tol), sat := r.sat || x.sat }

/-- Curvature between two VEHICLE samples, where the step is at least 0.01 m. -/
def curvature (a b : QPoint) : Option Q :=
  let ds := stepLength a b
  if ds < 656 then none else some (Q.op qDiv (Q.op qSub (b.field 3) (a.field 3)).wrap (Q.of ds))

/-- VEHICLE limits on samples i, i + 1 and, where there is one, i + 2. -/
def vehicleLimits (img : Image) (a b : QPoint) (c : Option QPoint) (r : LimRes) : LimRes :=
  let dt := b.t - a.t
  let L := img.limit
  let T := fun i => img.limit (9 + i)
  let cs : Q := { v := Config.cordicCos (a.field 3).v, sat := (a.field 3).sat }
  let sn : Q := { v := Config.cordicSin (a.field 3).v, sat := (a.field 3).sat }
  let along := Q.op qAdd (Q.op qMul (Q.op qSub (b.field 0) (a.field 0)) cs) (Q.op qMul (Q.op qSub (b.field 1) (a.field 1)) sn)
  let speed := qRate along dt
  let acc := qRate (Q.op qSub (b.field 4) (a.field 4)) dt
  let jerk := qRate (Q.op qSub (b.field 5) (a.field 5)) dt
  let r := (r.above speed (L 1) (T 1)).below speed (L 0) (T 0)
  let r := r.above (Q.op qSub speed (a.field 4)).abs 0 (T 1)
  let r := ((r.above acc (L 3) (T 3)).below acc (L 2) (T 2)).above jerk.abs (L 4) (T 4)
  match curvature a b with
  | none => r
  | some k =>
    let r := r.above k.abs (L 5) (T 5)
    let v := a.field 4
    let r := r.above (Q.op qMul k.abs (Q.op qMul v v)) (L 7) (T 7)
    match c.bind (curvature b) with
    | some k2 => r.above (qRate (Q.op qSub k2 k) dt).abs (L 6) (T 6)
    | none => r

/-- ARM limits of joint `j` on four successive samples, as far as they exist. -/
def armLimits (img : Image) (j : Nat) (a : QPoint) (rest : List QPoint) (r : LimRes) : LimRes :=
  let L := fun q => img.limit (5 * j + q)
  let T := fun q => img.limit (45 + q)
  let vel := fun (p q : QPoint) => qRate (Q.op qSub (q.field j) (p.field j)) (q.t - p.t)
  let acc := fun (p q : QPoint) (n : Option QPoint) =>
    if j < 7 then some (qRate (Q.op qSub (q.field (9 + j)) (p.field (9 + j))) (q.t - p.t))
    else n.map fun m => qRate (Q.op qSub (vel q m) (vel p q)) (q.t - p.t)
  match rest with
  | [] => r
  | b :: more =>
    let r := r.above (vel a b).abs (L 2) (T 2)
    match acc a b more.head? with
    | none => r
    | some x =>
      let r := r.above x.abs (L 3) (T 3)
      match more with
      | [] => r
      | c :: m2 => match acc b c m2.head? with
        | some y => r.above (qRate (Q.op qSub y x) (b.t - a.t)).abs (L 4) (T 4)
        | none => r

/-- Limits that one sample alone meets. -/
def pointLimits (img : Image) (p : QPoint) (r : LimRes) : LimRes :=
  if img.safetyKind = 0 then
    (List.range 3).foldl (fun r b => if b + 1 < img.boxCount ∧ img.boxByte (b + 1) 1 = 2 then
      r.above (p.field (9 + b)).abs (img.limit 8) (img.limit 17) else r) r
  else
    (List.range img.joints).foldl (fun r j =>
      (r.above (p.field j) (img.limit (5 * j + 1)) (img.limit 46)).below (p.field j) (img.limit (5 * j)) (img.limit 45)) r

/-- Limits over a list of samples. -/
def limitsOf (img : Image) : List QPoint → LimRes → LimRes
  | [], r => r
  | a :: rest, r =>
    let r := pointLimits img a r
    let r := if img.safetyKind = 0 then (match rest with
        | b :: more => vehicleLimits img a b more.head? r
        | [] => r)
      else (List.range img.joints).foldl (fun r j => armLimits img j a rest r) r
    limitsOf img rest r

/-- Words of a sample that the checks read. -/
def readWords (img : Image) : List Nat :=
  if img.safetyKind = 0 then
    [0, 1, 2, 3, 4, 5] ++ (List.range 3).filterMap fun b => if b + 1 < img.boxCount ∧ img.boxByte (b + 1) 1 = 2 then some (9 + b) else none
  else List.range img.joints ++ (List.range (min 7 img.joints)).map (9 + ·)

/-! ## The checks -/

/-- Result of the checks R385 to R389 of a list of samples. -/
structure Check where
  format : Bool
  collision : Bool
  limits : Bool
  /-- A hit or a band hit occurred. -/
  near : Bool
deriving DecidableEq, Repr

/-- The checks R385 to R389; `start` is the frame start that sample times of R193 count from. -/
def checkPoints (s : SafetySt) (img : Image) (start : Int) (ps : List QPoint) : Check :=
  let one := ps.map fun p =>
    let poses := boxPoses img p
    let slices := if img.predLayer = 0xFF then [] else
      let c := predSlices img img.predLayer (p.t - start)
      [c.1, c.2.1]
    let at_ := fun (margin : Int) => (List.range img.boxCount).any fun b =>
      boxBlocked s img slices (boxCorners img b margin (poses.getD b { o := [], r := [] }))
    let sat := (readWords img).any (fun j => (p.field j).sat) || poses.any Pose.sat
    (sat, at_ img.safetyMargin, at_ img.clrProbe)
  let lim := limitsOf img ps {}
  { format := one.any (·.1) || lim.sat, collision := one.any (·.2.1), limits := lim.bad
    near := one.any fun r => r.2.1 || r.2.2 }

/-- The check passes. -/
def Check.ok (c : Check) : Bool := !c.format && !c.collision && !c.limits

/-- R392: the trajectory covers the span from the start of the next frame. -/
def spans (img : Image) (next : Int) (t : QTraj) : Bool := match t.pts.head? with
  | some p => decide (p.t ≤ next ∧ next + 63000 * (img.slotPeriodUs : Int) ≤ t.endAt)
  | none => false

/-- The measured state advanced to a time (R390): X, Y, THETA and V of a VEHICLE, Q and QD of an ARM. -/
def advance (img : Image) (st : List Byte) (t : Int) : List Q :=
  let d := t - stTime st
  let sec := fun (den : Nat) => qSat (roundHalfEven (d * 65536) (1000000000 * den))
  if img.safetyKind = 0 then
    let h := sec 16
    let v := f32ToQ (stWord st 28)
    let k := f32ToQ (stWord st 36)
    let r := (List.range 16).foldl (fun (p : Q × Q × Q) _ =>
      let turn := Q.op qMul (Q.op qMul h k) v
      let thm := Q.op qAdd p.2.2 (Q.op qDiv turn (Q.of 131072))
      let hv := Q.op qMul h v
      (Q.op qAdd p.1 (Q.op qMul hv { v := Config.cordicCos thm.v, sat := thm.sat }),
       Q.op qAdd p.2.1 (Q.op qMul hv { v := Config.cordicSin thm.v, sat := thm.sat }),
       (Q.op qAdd p.2.2 turn).wrap)) (Q.of (stWord st 12).toInt, Q.of (stWord st 16).toInt, f32ToQ (stWord st 24))
    [r.1, r.2.1, r.2.2, v]
  else
    (List.range img.joints).map (fun j => Q.op qAdd (f32ToQ (stWord st (12 + 12 * j)))
      (Q.op qMul (f32ToQ (stWord st (16 + 12 * j))) (sec 1))) ++
    (List.range img.joints).map fun j => f32ToQ (stWord st (16 + 12 * j))

/-- R390: the continuity check of the main-channel trajectory fails. -/
def discontinuous (s : SafetySt) (img : Image) (start : Int) (tr : QTraj) : Bool :=
  match s.measured, tr.pts.head? with
  | some (_, st), some p =>
    let old := decide ((stTime st : Int) + 1000000 * (img.contAgeMs : Int) < start)
    let a := advance img st p.t
    let e := fun i j => (Q.op qSub (p.field j) (qv a i)).v
    let far :=
      if img.safetyKind = 0 then
        decide (img.contPos ^ 2 < e 0 0 ^ 2 + e 1 1 ^ 2) || decide (img.contAng < |wrapAngle (e 2 3)|) || decide (img.contV < |e 3 4|)
      else
        (List.range img.joints).any fun j => decide (img.contPos < |e j j|) ||
          (decide (j < 7) && decide (img.contV < |e (img.joints + j) (9 + j)|))
    old || far || a.any (·.sat)
  | _, _ => true

/-- R391: the clearance cross-check fails, for a final sweep result and L_ts. -/
def clearanceFails (img : Image) (f : FinalSweep) (lts : Int) : Bool :=
  let r := (List.range img.bodyCount).foldl (fun m b => (List.range (img.bodySpheres b)).foldl (fun m k => max m (img.sphere b k 3)) m) 0
  let cap : Int := (dcap img img.distLayer : Int) * img.quantum img.distLayer - 2 * halfDiag img - pad - r
  let bound := if bitOf f.flags 8 then min lts cap else lts
  decide (f.clearance < bound - img.clrTol)

/-- Table 14-3 bits 5, 6, 7, 9 and 10 of the check of C, and L_ts (R385 to R392). -/
def checkMain (s : SafetySt) (img : Image) (start next : Int) (c : QTraj) : Nat × Int :=
  let k := checkPoints s img start c.pts
  (32 * bit k.collision + 64 * bit k.limits + 128 * bit (discontinuous s img start c) + 512 * bit (!spans img next c) + 1024 * bit k.format,
   if k.near then img.safetyMargin else img.clrProbe)

/-- H passes its pre-check: R385 to R389 and R392 (R398). -/
def checkHeld (s : SafetySt) (img : Image) (start next : Int) (h : QTraj) : Bool := (checkPoints s img start h.pts).ok && spans img next h

/-- A fallback passes R397: its stop part from a time on, its span, and REST. -/
def checkFallback (s : SafetySt) (img : Image) (start next : Int) (f : QTraj) (after : Int) : Bool :=
  let stop := match f.stopAt with
    | some b => f.pts.filter fun p => decide (b ≤ p.t ∧ after ≤ p.t)
    | none => f.pts
  (checkPoints s img start stop).ok && spans img next f && f.rest

/-! ## Fallbacks (R394 to R397) -/

/-- Arc lengths of the samples of X from a first point, each with its curvature. -/
def arcTable (p : QPoint) (k : Q) (rest : List QPoint) : List (Int × Q) :=
  (rest.foldl (fun (a : List (Int × Q) × QPoint) q =>
    let s0 := match a.1.getLast? with
      | some x => x.1
      | none => 0
    (a.1 ++ [(s0 + stepLength a.2 q, q.field 7)], q)) ([(0, k)], p)).1

/-- Curvature of X at an arc length: linear between samples, the last sample's beyond its end (R395). -/
def curvAt : List (Int × Q) → Int → Q
  | [], _ => Q.of 0
  | [p], _ => p.2
  | p :: q :: r, s =>
    if s ≤ p.1 then p.2
    else if s < q.1 then Q.op qAdd p.2 (Q.op qMul (Q.op qSub q.2 p.2) (qDiv (s - p.1) (q.1 - p.1)))
    else curvAt (q :: r) s

/-- One step of the jerk-limited profile of R395: speed and deceleration. -/
def profileStep (img : Image) (dt : Q) (v a : Q) : Q × Q :=
  let ramp := Q.op qMul (Q.of img.jFb) dt
  let edge := Q.op qDiv (Q.op qMul (Q.of img.aFb) (Q.of img.aFb)) (Q.op qMul (Q.of 131072) (Q.of img.jFb))
  let a1 : Q := if v.v ≤ edge.v ∧ a.v < 0 then (let x := Q.op qAdd a ramp; if x.v < 0 then x else { x with v := 0 })
    else (let x := Q.op qSub a ramp; if x.v < -img.aFb then { x with v := -img.aFb } else x)
  let x := Q.op qAdd v (Q.op qMul a1 dt)
  let v1 : Q := if x.v < 0 then { x with v := 0 } else x
  (v1, if v1.v = 0 then { a1 with v := 0 } else a1)

/-- d psi of R163 with the own CORDIC. -/
def ownDpsi (img : Image) (p v k : Q) (b : Nat) : Q :=
  let len := qSat (roundHalfEven (65536 * (img.trailerLength b : Int)) 1000)
  let e := Q.op qSub (Q.of 0) (Q.of (img.boxWord b 1))
  let sn : Q := { v := Config.cordicSin p.v, sat := p.sat }
  let cs : Q := { v := Config.cordicCos p.v, sat := p.sat }
  let g := Q.op qMul (Q.op qDiv v len) (Q.op qAdd sn (Q.op qMul (Q.op qMul e k) cs))
  Q.op qSub (Q.op qSub (Q.of 0) g) (Q.op qMul v k)

/-- State of a VEHICLE stop between samples. -/
structure StopV where
  x : Q
  y : Q
  th : Q
  psi : List Q
  v : Q
  a : Q
  s : Int

/-- A stop sample. -/
def StopV.point (st : StopV) (t : Int) (z : Q) (dir : Int) (k : Q) (i : Nat) : QPoint :=
  { t, f := [st.x, st.y, z, st.th, { st.v with v := dir * st.v.v }, { st.a with v := dir * st.a.v },
             Q.of (Config.stopWord 6 i).toInt, k, Q.of (Config.stopWord 8 i).toInt, qv st.psi 0, qv st.psi 1, qv st.psi 2] }

/-- One step of a VEHICLE stop (R395). -/
def stopStep (img : Image) (dt : Q) (dir : Int) (tab : List (Int × Q)) (st : StopV) : StopV :=
  let va := profileStep img dt st.v st.a
  let ds := Q.op qMul va.1 dt
  let sds : Q := { ds with v := dir * ds.v }
  let sv : Q := { va.1 with v := dir * va.1.v }
  let half := Q.op qDiv sds (Q.of 131072)
  let k0 := curvAt tab st.s
  let km := curvAt tab (st.s + ds.v / 2)
  let thm := Q.op qAdd st.th (Q.op qMul half k0)
  let hdt := Q.op qDiv dt (Q.of 131072)
  { x := Q.op qAdd st.x (Q.op qMul sds { v := Config.cordicCos thm.v, sat := thm.sat })
    y := Q.op qAdd st.y (Q.op qMul sds { v := Config.cordicSin thm.v, sat := thm.sat })
    th := (Q.op qAdd st.th (Q.op qMul sds km)).wrap
    psi := (List.range 3).map fun b =>
      let p := qv st.psi b
      if b + 1 < img.boxCount ∧ img.boxByte (b + 1) 1 = 2 then
        let m := Q.op qAdd p (Q.op qMul hdt (ownDpsi img p sv k0 (b + 1)))
        Q.op qAdd p (Q.op qMul dt (ownDpsi img m sv km (b + 1)))
      else p
    v := va.1, a := va.2, s := st.s + ds.v }

/-- The fallback F(X, tb) (R394 to R396); none where X does not reach tb. -/
def fallbackOf (img : Image) (x : QTraj) (tb : Int) : Option QTraj :=
  let n := img.fbSamples
  let dtNs : Int := img.fbDtNs
  let dt := qSat (roundHalfEven (dtNs * 65536) 1000000000)
  let at_ := fun (j : Nat) (t : Int) => x.fieldAt (img.safetyKind == 0 && j == 3) j t
  let init := (List.range 16).map fun j => at_ j tb
  if init.any (·.isNone) then none
  else
    let f0 := init.map fun o => o.getD ⟨0, false⟩
    let before := x.pts.filter fun p => decide (p.t < tb)
    let endAt := tb + 1000000 * (img.fbHorizonMs : Int)
    if img.safetyKind = 0 then
      let dir : Int := if (qv f0 4).v < 0 then -1 else 1
      let p0 : QPoint := { t := tb, f := f0 }
      let tab := arcTable p0 (qv f0 7) (x.pts.filter fun p => decide (tb < p.t))
      let z := qv f0 2
      let s0 : StopV := { x := qv f0 0, y := qv f0 1, th := qv f0 3, psi := [qv f0 9, qv f0 10, qv f0 11]
                          v := { qv f0 4 with v := dir * (qv f0 4).v }, a := { qv f0 5 with v := dir * (qv f0 5).v }, s := 0 }
      let r := (List.range (n - 1)).foldl (fun (acc : List QPoint × StopV) (i : Nat) =>
        let st := stopStep img dt dir tab acc.2
        (acc.1 ++ [st.point (tb + ((i : Int) + 1) * dtNs) z dir (curvAt tab st.s) (i + 1)], st)) ([p0], s0)
      some { pts := before ++ r.1, stopAt := some tb, endAt, rest := decide (r.2.v.v = 0 ∧ r.2.a.v = 0) }
    else
      let last := match x.pts.getLast? with
        | some p => p
        | none => { t := tb, f := f0 }
      let point := fun (tau rho : Q) (t : Int) =>
        let u := tb + tau.v * 1000000000 / 65536
        let q := fun (j : Nat) => match at_ j u with
          | some v => v
          | none => if j < 9 then last.field j else Q.of 0
        ({ t, f := (List.range 16).map fun j => if j < 9 then q j else Q.op qMul rho (q j) } : QPoint)
      let r := (List.range (n - 1)).foldl (fun (acc : List QPoint × Q × Q × Q) (i : Nat) =>
        let va := profileStep img dt acc.2.1 acc.2.2.1
        let tau := Q.op qAdd acc.2.2.2 (Q.op qMul va.1 dt)
        (acc.1 ++ [point tau va.1 (tb + ((i : Int) + 1) * dtNs)], va.1, va.2, tau))
        ([{ t := tb, f := f0 }], Q.of 65536, Q.of 0, Q.of 0)
      some { pts := before ++ r.1, stopAt := some tb, endAt, rest := decide (r.2.1.v = 0) }

end Sys2Proof.Machine
end

