-- ==== Sys2Proof/Machine/Digest.lean ====
section
/-! DEFINITION. The digest unit (chapter 18): canonical streams of the stages (R510), their closing (R511, R513), the frame,
world-input and provenance digests (R512, R517, R518), and the records of the capture ring (R520 to R523). -/

namespace Sys2Proof.Machine

/-- CRC-64/XZ as a number. -/
def crcNat (b : List Byte) : Nat := (crc64 b).toNat

/-! ## Panels -/

/-- Cell patterns packed as Table 5-2 packs them, the first cell in the lowest bits. -/
def packCells (w : Nat) (cs : List Nat) : List Byte :=
  if w = 16 then cs.flatMap fun c => leBytes c 2
  else if w = 8 then cs.map fun c => BitVec.ofNat 8 c
  else (List.range (ceilDiv cs.length 4)).map fun i =>
    BitVec.ofNat 8 ((List.range 4).foldl (fun n j => n + cs.getD (4 * i + j) 0 % 4 * 4 ^ j) 0)

/-- Bytes of a panel (R151). -/
def panelRaw (img : Image) (m : Snap) (l p : Nat) : List Byte := packCells (Image.cellBits (img.layerType l)) (panelContent img m l p)

/-- Ascending layer, then panel. -/
def sortPanels (l : List (Nat × Nat)) : List (Nat × Nat) := l.mergeSort fun a b => decide (a.1 < b.1) || (a.1 == b.1 && decide (a.2 ≤ b.2))

/-! ## Canonical streams (Table 18-1) -/

/-- The 128-byte state record. -/
def stateRecord (s : State) : List Byte :=
  let d := s.world.shift
  let st := s.world.start
  leBytes (pattern 16 d.1) 2 ++ leBytes (pattern 16 d.2.1) 2 ++ leBytes (pattern 16 d.2.2) 2 ++
  (match st with
  | some x => leBytes (bit x.reused) 1 ++ leBytes (bit x.projected) 1 ++ x.raw
  | none => leBytes 2 1 ++ leBytes 0 1 ++ List.replicate 120 0)

/-- Stage 1: the state record and one panel record for each set bit of the change map. -/
def stream1 (s : State) (img : Image) : List Byte :=
  stateRecord s ++ (sortPanels s.world.changed).flatMap fun p =>
    leBytes p.1 1 ++ leBytes 0 3 ++ leBytes p.2 4 ++ leBytes (crcNat (panelRaw img s.world.snap p.1 p.2)) 8

/-- Stage 2: the 16-byte tag of each released block: block ID, epoch word and dowel (R265, R266). -/
def stream2 (s : State) : List Byte :=
  (s.stageOutputs 2).flatMap fun o => match o with
    | .block b =>
      let id := blockId false b.tensor b.index
      leBytes id 4 ++ leBytes s.frame.k 4 ++ leBytes (dowel b.data id s.frame.k).toNat 8
    | _ => []

/-- The 32-byte header of a candidate (Table 6-6). -/
def candHeader (img : Image) (c : Cand) : List Byte :=
  leBytes c.id 4 ++ leBytes c.flags 2 ++ leBytes c.chain.length 1 ++ leBytes img.samples 1 ++ leBytes (pattern 32 c.traj.t0) 4 ++
  ((List.range 4).flatMap fun j => leBytes (match c.chain[j]? with
    | some p => p.family
    | none => 0xFF) 1) ++ List.replicate 16 0

/-- Released sweep records in canonical order. -/
def sweepRecords (s : State) : List SweepRec := (s.stageOutputs 4).filterMap fun
  | .record r => some r
  | _ => none

/-- Stage 3: the header and the sample CRC of each candidate whose sweep record is released. -/
def stream3 (s : State) (img : Image) : List Byte := match s.netCtx img none with
  | none => []
  | some c => (sweepRecords s).flatMap fun r => match candidate s c (epochOf s.frame.k) false r.id with
    | some k => candHeader img k ++ leBytes (sampleCrc k.traj) 8
    | none => []

/-- Stage 4: the released result records. -/
def stream4 (s : State) : List Byte := (sweepRecords s).flatMap SweepRec.bytes

/-- The ledger record. -/
def ledgerRecord (s : State) (e : Epoch) : List Byte :=
  let d := s.ledger.shift
  let q := s.ledger.search.filter fun q => q.epoch == e
  let rb := match s.ledger.rebuilt with
    | some (x, c) => if x = e then some c else none
    | none => none
  leBytes e.toNat 4 ++ leBytes (s.get Reg.LEDGER_TRANSITIONS.TRANSITIONS) 4 ++ leBytes (s.get Reg.LEDGER_UPDATES.UPDATES) 4 ++
  leBytes (s.get Reg.LEDGER_TOUCHED.TOUCHED) 4 ++ leBytes ((q.map (·.relax)).getD 0) 4 ++ leBytes ((q.map (·.paths.length)).getD 0) 1 ++
  leBytes (bit (q.any fun q => q.ended == 1) + 2 * bit (q.any fun q => q.entries.isEmpty) + 4 * bit s.ledger.late + 8 * bit rb.isSome) 1 ++
  leBytes (rb.getD 0) 1 ++ leBytes 0 1 ++ leBytes (pattern 16 d.1) 2 ++ leBytes (pattern 16 d.2.1) 2 ++ leBytes (pattern 16 d.2.2) 2 ++
  leBytes 0 2

/-- Stage 5: the ledger record and the released path records in ascending ID. -/
def stream5 (s : State) : List Byte :=
  let rs := (s.stageOutputs 5).filterMap fun o => match o with
    | .record r => some r
    | _ => none
  ledgerRecord s (epochOf s.frame.k) ++ (rs.mergeSort fun a b => decide (a.id ≤ b.id)).flatMap SweepRec.bytes

/-- The verify record. -/
def verifyRecord (s : State) (source : Nat) : List Byte :=
  leBytes s.frame.k 4 ++ leBytes ((s.safety.verdict).getD 0) 1 ++ leBytes source 1 ++ leBytes (s.get Reg.SAFE_REASON.REASON) 2 ++
  leBytes (s.get Reg.SAFE_TS_CLEARANCE.LTS) 4 ++ leBytes (s.get Reg.SAFE_MAIN_CLEARANCE.FINAL) 4 ++
  leBytes (s.get Reg.SAFE_VERDICT.DISAGREE) 1 ++ leBytes 0 3 ++
  leBytes (match s.order.selection.bind Selection.best, s.safety.cand with
    | some b, some _ => b.id
    | _, _ => 0xFFFFFFFF) 4 ++ leBytes 0 8

/-- Stage 9: slots 1 to 63, channels 0 to 14, of the table written. -/
def stream9 (table : List (Nat × Nat)) : List Byte :=
  (List.range 63).flatMap fun n => (List.range 15).flatMap fun c => leBytes (sGet 0 (16 * (n + 1) + c) table) 2

/-! ## Closing -/

/-- The digest of a stage closes; a stage outside the graph never closes (R511). -/
def closeStage (s : State) (img : Image) (id : Nat) (bytes : List Byte) : State :=
  if img.hasStage id ∧ (s.digest.stages.getD (id - 1) none).isNone then
    { s with digest := { s.digest with stages := s.digest.stages.set (id - 1) (some (crcNat bytes)) } }
  else s

/-- The snapshot of the frame in progress is final (R143). -/
def State.snapFinal (s : State) : Bool := !s.world.active && s.world.epoch == epochOf s.frame.k && s.world.closed

/-- The ledger record of the epoch has been emitted: its search has ended, or the ledger stage releases no path (R510). -/
def State.ledgerRecorded (s : State) (img : Image) : Bool :=
  !img.hasStage 5 || s.ledger.late || s.world.start.isNone || (match s.ledger.search with
    | some q => q.epoch == epochOf s.frame.k && q.ended != 0
    | none => false)

/-- Stages 1 to 7, closed as their moments of Table 18-1 have passed by the verdict. -/
def closeMain (s : State) (img : Image) : State :=
  let s := if s.snapFinal then closeStage s img 1 (stream1 s img) else s
  let merged := s.order.selection.isSome || s.order.inputs.isSome || !s.isTail
  let s := if merged then closeStage (closeStage (closeStage s img 2 (stream2 s)) img 3 (stream3 s img)) img 4 (stream4 s) else s
  let s := if merged ∧ s.ledgerRecorded img then closeStage s img 5 (stream5 s) else s
  let s := match s.order.selection with
    | some q => closeStage s img 6 (q.digestBytes img.topK)
    | none => s
  match s.solver.result with
  | some r => closeStage s img 7 (r.bytes true)
  | none => if s.safety.noCandidate then closeStage s img 7 [] else s

/-- STAGE_MASK: bit s - 1 for each closed stage. -/
def DigestSt.mask (d : DigestSt) : Nat := (d.stages.zipIdx).foldl (fun n p => if p.1.isSome then n + 2 ^ p.2 else n) 0

/-- The frame digest (R512). -/
def DigestSt.frame (d : DigestSt) : Nat := crcNat (d.stages.flatMap fun
  | some v => leBytes v 8
  | none => [])

/-- Stages 1 to 7 of the graph have closed, but for refine where nothing was refined. -/
def State.mainClosed (s : State) (img : Image) : Bool :=
  (List.range 7).all fun i => !img.hasStage (i + 1) || (s.digest.stages.getD i none).isSome

/-! ## World-input and provenance digests -/

/-- The frames admitted to an epoch in the order of R517. -/
def rawFrames (img : Image) (fs : List Admitted) (e : Epoch) : List RawFrame :=
  (img.streamIds ++ [0xFFFF]).flatMap fun d =>
    (bySeq (fs.filter fun f => f.stream == d && f.epoch == e)).map fun (f : Admitted) => ({ stream := d, bytes := f.raw } : RawFrame)

/-- The world-input digest (R517). -/
def worldDigest (fs : List RawFrame) : Nat := crcNat (fs.flatMap (·.bytes))

/-- The frame parameter record (Table 18-2). -/
def frameParams (s : State) (img : Image) : List Byte :=
  let w := s.solver.used
  let cold := match w with
    | some (c, _, _) => c
    | none => false
  let we := match w with
    | some (_, some e, _) => some e
    | _ => none
  let size := if img.solver32 then 4 else 8
  let q := img.quotaMode
  leBytes s.frame.k 4 ++ leBytes (s.get Reg.FRAME_PERIOD.PERIOD_US) 4 ++ leBytes (s.frameStartNs s.frame.k) 8 ++
  leBytes (s.get Reg.FRAME_SEARCH_DEADLINE.SEARCH_US) 4 ++ leBytes (s.get Reg.FRAME_REFINE_BUDGET.REFINE_US) 4 ++
  leBytes (if q then img.quotaCandidates else s.tallied Reg.FRAME_CANDIDATES.SWEPT) 4 ++
  leBytes (if q then img.quotaRelax else match s.ledger.search with
    | some x => if x.epoch = epochOf s.frame.k then x.relax else 0
    | none => 0) 4 ++
  leBytes (if q then img.quotaSolverIter else if img.refineMicrocode then img.microIterCap else img.iterMax) 2 ++
  leBytes (bit s.digest.rebase + 2 * bit cold + 4 * bit s.digest.prev.isNone) 2 ++
  leBytes (match we with
    | some e => e.toNat
    | none => 0xFFFFFFFF) 4 ++
  leBytes (match we, w with
    | some _, some (_, _, x) => crcNat (x.flatMap fun v => leBytes v size)
    | _, _ => 0) 8 ++
  (match s.digest.prev with
  | some (e, d) => leBytes e.toNat 4 ++ leBytes 0 4 ++ leBytes d 8
  | none => leBytes 0xFFFFFFFF 4 ++ leBytes 0 4 ++ leBytes 0 8)

/-- The weights digest: BULK_DIGEST of the WEIGHTS section, else 64 zero bytes (R65). -/
def weightsDigest (img : Image) : List Byte := if img.has 9 then (img.body 9).take 64 else List.replicate 64 0

/-- The provenance digest (R518). -/
def provenance (s : State) (img : Image) (world : Nat) : List Byte :=
  Config.sha512 (img.digest ++ weightsDigest img ++ leBytes world 8 ++ frameParams s img)

/-! ## Capture (R520 to R523) -/

/-- Bytes of the capture ring. -/
def State.ringBytes (s : State) : Nat := 1048576 * s.get Reg.DIGEST_CAP_CTL.SIZE_MB

/-- A ring record: header, body, CRC (R520). -/
def ringRecord (kind : Nat) (e : Epoch) (body : List Byte) : List Byte :=
  let n := 16 + body.length + 8
  let h := leBytes kind 1 ++ leBytes 0 3 ++ leBytes n 4 ++ leBytes e.toNat 4 ++ leBytes 0 4 ++ body
  h ++ leBytes (crcNat h) 8

/-- A record is written at the next multiple of 64 bytes; one that does not fit stops capture with FULL (R523). -/
def putRecord (s : State) (rec_ : List Byte) : State :=
  if s.flag Reg.DIGEST_CAP_STATUS.FULL then s
  else if s.ringBytes < s.digest.write + rec_.length then
    (s.set Reg.DIGEST_CAP_STATUS.FULL 1).set Reg.DIGEST_CAP_STATUS.CAPTURING 0
  else
    let next := ceilDiv (s.digest.write + rec_.length) 64 * 64
    let ring := (rec_.zipIdx s.digest.write).foldl (fun m p => sSet 0 p.2 p.1 m) s.digest.ring
    { (s.set Reg.DIGEST_CAP_WR.OFFSET (next / 64)).set Reg.DIGEST_CAP_STATUS.CAPTURING 1 with digest := { s.digest with ring, write := next } }

/-- The body of an EPOCH record. -/
def epochBody (x : EpochRec) : List Byte :=
  x.params ++ leBytes x.flags 2 ++ leBytes x.mask 2 ++ leBytes 0 4 ++ leBytes x.frame 8 ++ x.stages.flatMap (fun d => leBytes d 8) ++
  leBytes x.world 8 ++ x.provenance ++ leBytes x.frames.length 4 ++ leBytes 0 4 ++
  x.frames.flatMap fun f => leBytes f.bytes.length 4 ++ f.bytes ++ List.replicate ((4 - f.bytes.length % 4) % 4) 0

/-- An anchor section (Table 18-3). -/
def anchorSection (kind : Nat) (b : List Byte) : List Byte := leBytes kind 2 ++ leBytes 0 2 ++ leBytes b.length 4 ++ b

/-- The previous snapshot, panel by panel. -/
def anchorPanels (img : Image) (m : Snap) : List Byte :=
  (List.range img.layerCount).flatMap fun l => (List.range img.panelCount).flatMap fun p =>
    leBytes l 1 ++ leBytes 0 3 ++ leBytes p 4 ++ panelRaw img m l p

/-- A checker record (Table 8-4) of edge `e`. -/
def ledgerBytes (b : List Byte) (e : Nat) (r : LRec) : List Byte :=
  leBytes r.blocked 2 ++ leBytes r.unknown 2 ++ leBytes r.dyn 4 ++ leBytes (Road.staticCost b e) 2 ++ leBytes r.generation 2 ++
  leBytes r.eff 2 ++ leBytes (32768 * bit (Road.edgeDisabled b e) + 16384 * bit r.sat + r.state) 2

/-- A trajectory of the island as anchor bytes. -/
def qtrajBytes (t : Option QTraj) : List Byte := match t with
  | none => leBytes 0 4
  | some x => leBytes x.pts.length 4 ++ leBytes (pattern 64 (x.stopAt.getD 0)) 8 ++
    x.pts.flatMap fun p => leBytes (pattern 64 p.t) 8 ++ p.f.flatMap fun q => leBytes (pattern 32 q.v) 4

/-- The body of an anchor: the program digest and the sections of Table 18-3. -/
def anchorBody (s : State) (img : Image) : List Byte :=
  let d := s.ledger.shift
  let grid := packCells 8 ((List.range (ceilDiv (gridCells img) 8)).map fun i =>
    (List.range 8).foldl (fun n j => if s.safety.gridFree.contains (8 * i + j) then n else n + 2 ^ j) 0)
  img.digest ++
  anchorSection 1 (anchorPanels img s.world.prev) ++
  anchorSection 2 (leBytes (pattern 16 d.1) 2 ++ leBytes (pattern 16 d.2.1) 2 ++ leBytes (pattern 16 d.2.2) 2 ++ leBytes 0 2 ++
    (match s.roadmap with
    | some b => (List.range (Road.edgeCount b)).flatMap fun e => ledgerBytes b e (edgeRec s.ledger.recs e)
    | none => [])) ++
  anchorSection 3 (match s.solver.warm with
    | some w => leBytes w.epoch.toNat 4 ++ w.iter.words.flatMap fun v => leBytes v (if img.solver32 then 4 else 8)
    | none => []) ++
  anchorSection 4 ((match s.world.start with
    | some x => x.raw
    | none => List.replicate 120 0) ++ leBytes (s.get Reg.WORLD_START_STATUS.REUSE_COUNT) 4) ++
  anchorSection 5 (grid ++ qtrajBytes s.safety.held ++ qtrajBytes s.safety.armed ++ leBytes (s.get Reg.SAFE_WINDOW.MAP) 2 ++
    (match s.safety.measured with
    | some (q, st) => leBytes q.toNat 4 ++ st
    | none => [])) ++
  anchorSection 6 (match s.digest.prev with
    | some (e, p) => leBytes e.toNat 4 ++ leBytes p 8
    | none => leBytes 0xFFFFFFFF 4 ++ leBytes 0 8)

/-- Capture writes records: it is enabled, frames run, and no replay does (R520, R523). -/
def State.captures (s : State) : Bool := s.flag Reg.DIGEST_CAP_CTL.ENABLE && s.digest.replay.isNone && !s.cfg.held

/-- An anchor that is due is taken at a frame boundary (R522). -/
def takeAnchor (s : State) (img : Image) : State :=
  let en := s.flag Reg.DIGEST_CAP_CTL.ENABLE
  let s := { s with digest := { s.digest with anchorDue := s.digest.anchorDue || (en && !s.digest.wasEnabled), wasEnabled := en } }
  if s.captures ∧ s.digest.anchorDue ∧ !s.flag Reg.DIGEST_CAP_STATUS.FULL then
    let s := putRecord s (ringRecord 2 (epochOf s.frame.k) (anchorBody s img))
    { s with digest := { s.digest with anchorDue := false, anchored := !s.flag Reg.DIGEST_CAP_STATUS.FULL } }
  else s.set Reg.DIGEST_CAP_STATUS.CAPTURING (bit (s.captures && s.digest.anchored))

/-- The record of the committed epoch (R520). Whether it can be written in time is free; a record that cannot is lost, and the next
follows an anchor (R522, R523). -/
def captureEpoch (s : State) (x : EpochRec) : State :=
  if s.captures ∧ s.digest.anchored then
    let d := s.draw 1
    if d.1 = 0#1 then putRecord d.2 (ringRecord 1 x.epoch (epochBody x))
    else { (d.2.set Reg.DIGEST_CAP_STATUS.LOST 1).set Reg.DIGEST_CAP_STATUS.CAPTURING 0 with
           digest := { d.2.digest with anchored := false, anchorDue := true } }
  else s

end Sys2Proof.Machine
end

