-- ==== Sys2Proof/Machine/EthOps.lean ====
section
/-! DEFINITION. The Sheaz engine's shared operations (chapter 16): partition records (Table 16-9), the receive steps (Table
16-6), session keys and tags (R453 to R457), sequences (R449), and sending (R448, R455, R468 to R471). -/

namespace Sys2Proof.Machine

namespace Image

/-- PART_COUNT. -/
def partCount (i : Image) : Nat := byteAt (i.body 0xE) 0
/-- Offset of partition `p`'s record; none where it is not defined. -/
def partOff (i : Image) (p : Nat) : Option Nat :=
  ((List.range i.partCount).map fun j => 16 + 256 * j).find? fun o => byteAt (i.body 0xE) o == p
/-- A field of a partition's record. -/
def partField (i : Image) (p off n : Nat) : Nat := match i.partOff p with
  | some o => le (i.body 0xE) (o + off) n
  | none => 0
/-- The partition is defined. -/
def hasPart (i : Image) (p : Nat) : Bool := (i.partOff p).isSome
/-- FLAGS bits of a partition: AUTH_REQUIRED, RESULTS, TOPK, FRER. -/
def partAuth (i : Image) (p : Nat) : Bool := bitOf (i.partField p 1 1) 0
def partResults (i : Image) (p : Nat) : Bool := bitOf (i.partField p 1 1) 1
def partTopk (i : Image) (p : Nat) : Bool := bitOf (i.partField p 1 1) 2
def partFrer (i : Image) (p : Nat) : Bool := bitOf (i.partField p 1 1) 3
/-- PUBKEY of a partition. -/
def partKey (i : Image) (p : Nat) : List Byte := match i.partOff p with
  | some o => ((i.body 0xE).drop (o + 0x7B)).take 133
  | none => []

end Image

/-- State of a partition. -/
def State.part (s : State) (p : Nat) : PartSt := sGet {} p s.eth.parts

/-- The state with a partition's state written; ETH_PART_STATUS follows. -/
def State.setPart (s : State) (p : Nat) (x : PartSt) : State :=
  { s.set (Reg.ETH_PART_STATUS.KEY_VALID p) (bit x.key.isSome) with eth := { s.eth with parts := sSet {} p x s.eth.parts } }

/-- Ports of the part that are good. -/
def State.portGood (s : State) (p : Nat) : Bool := bitOf s.die.ports p && s.unitUsable 7 p

/-- A port has link. -/
def State.portUp (s : State) (p : Nat) : Bool := bitOf (s.get Reg.ETH_STATUS.LINK) p

/-- MTU of a port (R441). -/
def State.mtu (s : State) (p : Nat) : Nat := if s.get (Reg.ETH_PORT_CTL.JUMBO p) = 1 then 9000 else 1500

/-- FRAG_MAX of a port (R448). -/
def State.fragMax (s : State) (p : Nat) : Nat := (s.mtu p - 112) / 64 * 64

/-! ## Receive steps (Table 16-6) -/

/-- Advance from which sequences are used up (R457). -/
def rollLimit : Nat := 2 ^ 32 - 2 ^ 20

/-- Step 5: the flow meter of a partition on a port, RX_CIR Mb/s with a burst of RX_CBS bytes. -/
def meterPass (img : Image) (x : PartSt) (p port wire t : Nat) : Bool × PartSt :=
  let cap := 8 * img.partField p 0x24 4
  let m := match x.meters.find? fun e => e.1 == port with
    | some e => e.2
    | none => { bits := cap, time := t }
  let fill := min cap (m.bits + (t - m.time) * img.partField p 0x20 2 / 1000)
  if 8 * wire ≤ fill then (true, { x with meters := sInsert port { bits := fill - 8 * wire, time := t } x.meters })
  else (false, { x with meters := sInsert port { bits := fill, time := t } x.meters })

/-- Step 6: TAG where it is required, and a tag that verifies under the key or the previous key (R454), with its sequence
not used up (R457). -/
def authPass (img : Image) (x : PartSt) (f : Frame) : Bool :=
  let tagged := bitOf f.flags 0
  let base := if f.ty = 0x10 then sGet 0 f.stream x.rollStreams else x.rollSeq
  (!tagged && !img.partAuth f.partition) ||
  (tagged && ((x.key.isSome && f.tagOk) || (x.oldKey.isSome && f.tagOldOk)) &&
    decide ((f.seq - BitVec.ofNat 32 base).toNat < rollLimit))

/-- A frame is counted under its reason. -/
def countDrop (s : State) (r : Nat) (f : Frame) : State :=
  let s := s.inc (Reg.ETH_RX_DROP.COUNT r)
  if r = 5 then s.inc (Reg.ETH_PART_AUTH_FAIL.COUNT f.partition)
  else if r = 4 then s.inc (Reg.ETH_PART_METER_DROP.COUNT f.partition) else s

/-- Sequence of step 7 (R449), for a frame other than WORLD_UPDATE and ATTEST_REQ. -/
def seqPass (s : State) (f : Frame) : Bool :=
  !(s.part f.partition).started || epochLater f.seq (BitVec.ofNat 32 (s.get (Reg.ETH_PART_RX_SEQ.SEQ f.partition)))

/-- An accepted sequence. -/
def acceptSeq (s : State) (f : Frame) : State :=
  (s.setPart f.partition { s.part f.partition with started := true }).set (Reg.ETH_PART_RX_SEQ.SEQ f.partition) f.seq.toNat

/-- A frame as the partition it counts for: while no image runs, every frame counts as partition 0 (R588). -/
def State.asPart (s : State) (f : Frame) : Frame := if s.cfg.image.isNone then { f with partition := 0 } else f

/-- The receive steps while no image runs (R588): partition 0 on port 0, and the messages that a start takes. -/
def receiveBoot (s : State) (f : Frame) : Bool × State :=
  let f := s.asPart f
  if f.port ≠ 0 then (false, countDrop s 3 f)
  else if f.ty ≠ 0x51 ∧ f.ty ≠ 0x50 ∧ !seqPass s f then (false, countDrop s 6 f)
  else if f.ty ∉ [0x30, 0x31, 0x60, 0x50] then (false, countDrop s 7 f)
  else (true, if f.ty = 0x50 then s else acceptSeq s f)

/-- The receive steps from step 4 on under a running image (Table 16-6). -/
def receiveRunning (s : State) (img : Image) (f : Frame) (t : Nat) : Bool × State :=
  if !img.hasPart f.partition ∨ !bitOf (img.partField f.partition 2 1) f.port ∨ !f.addrOk then (false, countDrop s 3 f)
  else
    let m := meterPass img (s.part f.partition) f.partition f.port f.wire t
    let s := s.setPart f.partition m.2
    let x := s.part f.partition
    if !m.1 then (false, countDrop s 4 f)
    else if f.ty ≠ 0x50 ∧ !authPass img x f then (false, countDrop s 5 f)
    else if f.ty = 0x50 ∧ bitOf f.flags 0 ∧ !authPass img x f then (false, countDrop s 5 f)
    else if f.ty ≠ 0x10 ∧ f.ty ≠ 0x50 ∧ !seqPass s f then (false, countDrop s 6 f)
    else
      let s := if f.ty = 0x10 ∨ f.ty = 0x50 then s else acceptSeq s f
      if f.ty = 0x60 ∧ f.partition ≠ 0 then (false, countDrop s 7 f) else (true, s)

/-- The steps of Table 16-6 for a Sheaz frame at time `t`: whether it passes, and the state with its counters, meter and
sequence. While no image runs, only port 0 carries Sheaz, every frame counts as partition 0 without a tag, and only
register access, pushes and ATTEST_REQ are accepted (R588). WAKE frames are not counted (R476). In reset, NAP and SLEEP no frame
is received (R605). -/
def receive (s : State) (f : Frame) (t : Nat) : Bool × State :=
  if 4 ≤ f.port ∨ !s.portGood f.port ∨ !s.pins.resetN ∨ s.power.asleep ≠ 0 then (false, s)
  else if !f.linkOk then (false, s.inc (Reg.ETH_PORT_RX_ERR.COUNT f.port))
  else if f.ty = 0x7E ∨ f.ty = 256 then (false, s)
  else if !f.headerOk then (false, countDrop s 2 f)
  else match s.cfg.image with
    | none => receiveBoot s f
    | some img => receiveRunning s img f t

/-! ## Sending -/

/-- The header of a device frame (Table 16-4). -/
def txHeader (p ty words : Nat) (tagged : Bool) (seq : Nat) (e : Epoch) (time : Nat) : List Byte :=
  beBytes 0x535A 2 ++ beBytes 1 1 ++ beBytes ty 1 ++ beBytes p 1 ++ beBytes (4 + bit tagged) 1 ++ beBytes words 2 ++ beBytes seq 4 ++
  beBytes e.toNat 4 ++ beBytes 0 8 ++ beBytes time 8

/-- The nonce of R456 of a device frame. -/
def txNonce (p ty : Nat) (e : Epoch) (seq : Nat) : List Byte :=
  beBytes (0x80 + p) 1 ++ beBytes ty 1 ++ beBytes 0 2 ++ beBytes e.toNat 4 ++ beBytes seq 4

/-- Ports a partition is sent to; port 0 while no image runs. -/
def State.txPorts (s : State) (p : Nat) : List Nat := match s.cfg.image with
  | some img => (List.range 4).filter fun k => bitOf (img.partField p 3 1) k
  | none => [0]

/-- The partition may be sent frames of a type: it is defined; with AUTH_REQUIRED it has a session key, and no roll is due,
unless the frame is ATTEST_RESP (R455, R457). -/
def State.maySend (s : State) (p ty : Nat) : Bool := match s.cfg.image with
  | some img => img.hasPart p && (ty == 0x51 ||
      ((!img.partAuth p || (s.part p).key.isSome) && s.get (Reg.ETH_PART_STATUS.ROLL_DUE p) == 0))
  | none => p == 0

/-- A frame to a partition: it takes the next device sequence, and its copies enter the queues of its ports; a port without
link drops its copy (R449, R456, R457, R471). -/
def sendFrame (s : State) (p ty : Nat) (e : Epoch) (rtag : Option Nat) (payload : List Byte) : State :=
  if !s.maySend p ty then s
  else
    let seq := s.get (Reg.ETH_PART_TX_SEQ.SEQ p)
    let x := s.part p
    let t := s.frame.now.toNat
    let tag := x.key.map fun k => Config.gcmTag k (txNonce p ty e seq) (txHeader p ty (payload.length / 4) true seq e t) payload
    let n := x.txSinceRoll + 1
    let s := s.setPart p { x with txSinceRoll := n }
    let s := s.set (Reg.ETH_PART_TX_SEQ.SEQ p) (seq + 1)
    let s := if x.key.isSome ∧ rollLimit ≤ n then s.set (Reg.ETH_PART_STATUS.ROLL_DUE p) 1 else s
    (s.txPorts p).foldl (fun s k =>
      if s.portUp k then
        { s with eth := { s.eth with tx := s.eth.tx ++ [{ partition := p, ty, port := k, rtag, seq, epoch := e, payload, tag, time := t }] } }
      else s.inc (Reg.ETH_PORT_TX_DROP.COUNT k)) s

/-- A payload padded with zero bytes to a word. -/
def padWord (b : List Byte) : List Byte := b ++ List.replicate ((4 - b.length % 4) % 4) 0

/-- A RESULT body in fragments of FRAG_MAX, each with its fragment header (R468, R469). -/
def sendResult (s : State) (p kind jobId : Nat) (e : Epoch) (body : List Byte) : State :=
  let max_ := match s.txPorts p with
    | k :: r => r.foldl (fun m x => min m (s.fragMax x)) (s.fragMax k)
    | [] => 1344
  let n := max 1 (ceilDiv body.length max_)
  let frer := match s.cfg.image with
    | some img => img.partFrer p
    | none => false
  let s := s.inc (Reg.ETH_PART_RESULTS.COUNT p)
  (List.range n).foldl (fun s i =>
    let h := beBytes kind 1 ++ beBytes i 1 ++ beBytes n 1 ++ beBytes 0 1 ++ beBytes (i * max_) 4 ++ beBytes body.length 4 ++ beBytes jobId 4
    let tag := if frer then some (sGet 0 p s.eth.rtags) else none
    let s := if frer then { s with eth := { s.eth with rtags := sSet 0 p ((sGet 0 p s.eth.rtags + 1) % 65536) s.eth.rtags } } else s
    sendFrame s p 0x20 e tag (h ++ padWord ((body.drop (i * max_)).take max_))) s

/-! ## Frame results (R470, R471) -/

/-- Words of a trajectory of the island re-timed to a frame start: Q16.16 positions stay, other fields become FP32. -/
def qSampleBytes (img : Image) (p : QPoint) : List Byte :=
  (List.range 16).flatMap fun j => leBytes (if isQWord img j then pattern 32 (p.field j).v else (qToF32 (p.field j).v).toNat) 4

/-- What a frame result says: its fixed part's fields that are not read from the state. -/
structure ResultHead where
  epoch : Epoch
  verdict : Nat
  /-- SOURCE: 0 C, 1 H, 2 A, 3 terminal hold. -/
  source : Nat
  flags : Nat
  reason : Nat
  id : Nat
  start : Nat
  t0 : Int
  dt : Nat
  samples : List (List Byte)
  mask : Nat
  frameDigest : Nat
  stages : List Nat
  provenance : List Byte
  refineStatus : Nat
  refineFlags : Nat

/-- The body of a frame result (Table 16-12). -/
def resultBody (s : State) (k : Nat) (sel : Option Selection) (topk : Bool) (h : ResultHead) : List Byte :=
  let sel := if topk then sel else none
  beBytes h.epoch.toNat 4 ++ beBytes h.verdict 1 ++ beBytes h.source 1 ++ beBytes h.refineStatus 1 ++ beBytes h.refineFlags 1 ++
  beBytes h.flags 2 ++ beBytes h.reason 2 ++ beBytes h.id 4 ++ beBytes h.start 8 ++ beBytes (pattern 32 h.t0) 4 ++ beBytes h.dt 4 ++
  beBytes h.samples.length 2 ++ beBytes (if sel.isSome then k else 0) 2 ++ beBytes s.safety.generation 2 ++ beBytes h.mask 2 ++
  beBytes h.frameDigest 8 ++ h.stages.flatMap (fun d => beBytes d 8) ++ h.provenance ++ h.samples.flatten ++
  (match sel with
  | some q => leBytes q.epoch.toNat 4 ++ leBytes k 2 ++ leBytes q.n 2 ++ leBytes q.flags 2 ++ leBytes q.tieCount 1 ++ leBytes q.lists 1 ++
      leBytes q.nanCount 4 ++ leBytes q.offered 4 ++ leBytes 0 12 ++ q.entries.flatMap fun e => e.bytes true
  | none => [])

/-- A frame result is queued to each partition with RESULTS set whose RESULT_DIV divides the epoch, in ascending partition
(R471). -/
def queueResults (s : State) (img : Image) (sel : Option Selection) (h : ResultHead) : State :=
  (List.range 8).foldl (fun s p =>
    if img.hasPart p ∧ img.partResults p ∧ h.epoch.toNat % max 1 (img.partField p 0xF 1) = 0 then
      sendResult s p 0 0 h.epoch (resultBody s img.topK sel (img.partTopk p) h)
    else s) s

/-- The published trajectory as result samples, re-timed to the frame start of the epoch. -/
def resultSamples (img : Image) (start : Int) (tr : Option QTraj) : Int × Nat × List (List Byte) := match tr with
  | some t => match t.pts with
    | p :: q :: r => (p.t - start, (q.t - p.t).toNat, (p :: q :: r).map (qSampleBytes img))
    | [p] => (p.t - start, 0, [qSampleBytes img p])
    | [] => (0, 0, [])
  | none => (0, 0, [])

/-- The result of a table generation the island writes under R88 or R408: STAGE_MASK 0 and no digests. -/
def islandResult (s : State) (img : Image) (k verdict source : Nat) : State :=
  let start := s.frameStartNs k
  let r := resultSamples img start (if source = 2 then s.safety.armed else none)
  queueResults s img none
    { epoch := epochOf k, verdict, source, flags := 128 * s.get Reg.FRAME_STATUS.HOLDOVER, reason := s.get Reg.SAFE_REASON.REASON
      id := 0xFFFFFFFF, start, t0 := r.1, dt := r.2.1, samples := r.2.2, mask := 0, frameDigest := 0, stages := List.replicate 9 0
      provenance := List.replicate 64 0, refineStatus := 7, refineFlags := 0 }

end Sys2Proof.Machine
end

