-- ==== Sys2Proof/Machine/Pairs.lean ====
section
/-! DEFINITION. Redundant pairs (R508, R538): the comparison of the two sides' digests, and the tests that too many mismatches
make due. -/

namespace Sys2Proof.Machine

/-- A test falls due: it waits for its first slice, which is admitted at once where it may run (R537, R538). -/
def makeDue (s : State) (cls idx : Nat) : State :=
  if !s.hasTest cls idx ∨ (s.unit cls idx).due ∨ (s.unit cls idx).active then s
  else admitSlice (s.setUnit cls idx { s.unit cls idx with due := true }) cls idx

/-- The head's side of a pair: strapped B. -/
def State.sideB (s : State) : Bool := s.get Reg.SAFE_SP_STRAPS.PAIR == 2

/-- The link in use PAIR. -/
def State.pairLink (s : State) : Option Nat := (List.range 4).find? fun l => s.linkUp l && s.get (Reg.TENON_LINK_STATUS.USE l) == 2

/-- Mismatches of the latest 1,024 epochs beyond PAIR_LIMIT: every tile, the Ordering Unit and every engine fall due (R538). -/
def pairTests (s : State) (e : Epoch) : State :=
  let ms := (s.fault.mismatches.filter fun x => decide ((e - x).toNat < 1024)) ++ [e]
  let s := { s with fault := { s.fault with mismatches := ms } }
  let lim := s.get Reg.FAULT_OD_LIMIT.PAIR_LIMIT
  if lim = 0 ∨ ms.length ≤ lim then s
  else
    let s := s.die.bind.foldl (fun s p => makeDue s 0 p) s
    (List.range 4).foldl (fun s e => if bitOf s.die.engines e then makeDue s 4 e else s) (makeDue s 3 0)

/-- The comparison of the two tokens of one epoch, by the first matching row of R508. -/
def comparePair (s : State) (a b : PairToken) : State :=
  let s := s.set Reg.TENON_PAIR_EPOCH.EPOCH a.epoch.toNat
  if a.deadlineHit ∨ b.deadlineHit ∨ a.world ≠ b.world then s.inc Reg.TENON_PAIR_SKIPPED.COUNT
  else if a.frame = b.frame then s.inc Reg.TENON_PAIR_MATCH.COUNT
  else
    let d := s.draw 8
    let s := d.2.inc Reg.TENON_PAIR_MISMATCH.COUNT
    let syn := beBytes a.epoch.toNat 4 ++ [d.1, 0, 0, 0]
    pairTests (detect s { zone := 8, index := 0, cls := 1, mech := 6, syndrome := syn, outcome := 0 }) a.epoch

/-- The head takes a DIGEST token: its own side's goes to the peer head; the two tokens of an epoch that come within 2 * T_frame
are compared, and a token without its pair waits (R508). -/
def takePairToken (s : State) (x : PairToken) : State :=
  let s := match s.pairLink with
    | some l =>
      if x.sideB = s.sideB then
        sendFlit s l (tokenFlit (tokenBytes 6 (bit x.deadlineHit + 2 * bit x.sideB) s.device 0 x.epoch x.frame x.world)) else s
    | none => s
  match s.tenon.pairs.find? fun y => y.epoch == x.epoch && y.sideB != x.sideB && decide (x.time ≤ y.time + 2 * s.periodNs) with
  | some y =>
    let s := { s with tenon := { s.tenon with pairs := s.tenon.pairs.filter fun z => z.epoch != x.epoch } }
    comparePair s x y
  | none => { s with tenon := { s.tenon with pairs := (s.tenon.pairs.filter fun z => !(z.epoch == x.epoch && z.sideB == x.sideB)) ++ [x] } }

end Sys2Proof.Machine
end

