-- ==== Sys2Proof/Machine/Gauge.lean ====
section
/-! DEFINITION. The Gauge and the end of a frame: the Try Square's commands (R382, R393, R398, R399), the verdict (R399 to
R404), commit (R35, R82, R299, R325, R342, R348, R512), restarts (R405 to R407, R593), the tables the island writes (R408,
R409), and the island's own faults (R411 to R413). -/

namespace Sys2Proof.Machine

/-- WARM_RESTART_TIMEOUT (R406): a restart that does not complete in time has failed. -/
def execWarmRestartTimeout (s : State) : Result := .next (if s.safety.restart = 1 then startFailed s else s)

/-! ## The Try Square's commands -/

/-- Number of the first frame of the grid whose admission closes at or after the current time and whose grid update has not taken
place. -/
def State.nextGrid (s : State) (img : Image) : Nat :=
  let k := if s.periodNs = 0 then 0
    else ((s.frame.now - 1000 * (img.admitCloseUs : Int) - s.origin + s.periodNs - 1) / (s.periodNs : Int)).toNat
  if s.safety.gridEpoch = some (epochOf k) then k + 1 else k

/-- Number of the frame whose grid the pre-checks read. -/
def State.gridK (s : State) : Nat := if s.frame.inFrame then s.frame.k
  else match s.safety.gridEpoch with
    | some e => s.frameOf e
    | none => s.curK

/-- GRID_UPDATE (R382): once, after the admission close of the epoch; the verify of the previous epoch has ended with its
frame. The frame grid goes on where no frame runs, in a warm restart or under R88, and so does the grid (R405, R407, R408). While the
copy path is down, the update is suspended (R407). -/
def execGridUpdate (s : State) : Result :=
  match s.cfg.image with
  | none => .next s
  | some img =>
    if s.safety.copyPathDown ∨ s.power.asleep ≠ 0 then .next s
    else if s.frame.inFrame then
      if s.safety.gridDone ∨ !s.world.closed ∨ s.world.epoch ≠ epochOf s.frame.k then .next s
      else .next (updateGrid s img s.world.epoch)
    else
      let k := s.nextGrid img
      let s := { s with frame := { s.frame with now := max s.frame.now (s.frameStartNs k + 1000 * img.admitCloseUs : Nat) } }
      .next (updateGrid { s with safety := { s.safety with preRunning := false, preH := none, preA := none, preFH := none } } img (epochOf k))

/-- H and F(H) are pre-checked after an ACCEPT or ACCEPT_PREVIOUS, unless the island serves under R88 (R398). -/
def State.checksHeld (s : State) : Bool :=
  (s.safety.prevVerdict == 1 || s.safety.prevVerdict == 2) && s.get Reg.SAFE_MODE.MODE != modeSwitch

/-- PRECHECK (R398): once the grid is complete, the pre-checks begin; F(H) is formed for the frame. -/
def execPrecheck (s : State) : Result :=
  match s.cfg.image with
  | none => .next s
  | some img =>
    if !s.safety.gridDone ∨ s.safety.preRunning ∨ s.safety.preH.isSome ∨ s.safety.preA.isSome then .next s
    else
      let h := match s.safety.held with
        | some h => if s.checksHeld then fallbackOf img h (s.frameStartNs (s.gridK + 2)) else none
        | none => none
      .next { s with safety := { s.safety with preRunning := true, heldFb := h } }

/-- PRECHECK_DONE (R398): H and F(H) after an ACCEPT or ACCEPT_PREVIOUS, A always, from the frame start of epoch n + 1. -/
def execPrecheckDone (s : State) : Result :=
  match s.cfg.image with
  | none => .next s
  | some img =>
    if !s.safety.preRunning then .next s
    else
      let start := s.frameStartNs s.gridK
      let next := s.frameStartNs (s.gridK + 1)
      let h := match s.safety.held with
        | some h => if s.checksHeld then some (checkHeld s.safety img start next h) else none
        | none => none
      let fh := s.safety.heldFb.map fun f => checkFallback s.safety img start next f next
      let a := s.safety.armed.map fun f => checkFallback s.safety img start next f next
      .next { s with safety := { s.safety with preRunning := false, preH := h, preA := a, preFH := fh, armedOk := a.getD false } }

/-- VERIFY_HANDOVER (R399): C is delivered through the handover port, and its fallback is formed. -/
def execVerifyHandover (s : State) : Result :=
  match s.cfg.image with
  | none => .next s
  | some img =>
    match s.finalTraj img with
    | none => .next s
    | some tr =>
      if !s.working ∨ !s.isTail ∨ s.safety.cand.isSome ∨ s.frame.verdictDone then .next s
      else
        let c := QTraj.ofTraj img (s.frameStartNs s.frame.k) tr
        .next { s with safety := { s.safety with cand := some c, candFb := fallbackOf img c (s.frameStartNs (s.frame.k + 2)) } }

/-- TRY_SQUARE_CHECK_DONE (R385 to R397, R399): the check of C or of F(C) completes. -/
def execTrySquareCheckDone (fallback : Bool) (s : State) : Result :=
  match s.cfg.image, s.safety.cand with
  | some img, some c =>
    if s.frame.verdictDone then .next s
    else
      let start := s.frameStartNs s.frame.k
      let next := s.frameStartNs (s.frame.k + 1)
      if fallback then
        let ok := match s.safety.candFb with
          | some f => checkFallback s.safety img start next f (s.frameStartNs (s.frame.k + 2))
          | none => false
        .next { s with safety := { s.safety with checkF := some ok } }
      else
        let r := checkMain s.safety img start next c
        .next { s with safety := { s.safety with checkC := some r.1, lts := r.2 } }
  | _, _ => .next s

/-! ## The verdict -/

/-- Inputs of the verdict that Table 14-3 bit 0 names are complete (R35, R400). -/
def State.inputsComplete (s : State) (img : Image) : Bool :=
  s.mainClosed img && (s.safety.noCandidate || (s.safety.cand.isSome && s.safety.checkC.isSome && s.safety.checkF.isSome &&
    s.safety.finalSweep.isSome))

/-- VERDICT_TIME (R35, R400): at T_commit - 4 us an incomplete frame is late: its main-channel work is discarded and it is
counted. -/
def execVerdictTime (s : State) : Result :=
  match s.cfg.image with
  | none => .next s
  | some img =>
    if !s.frame.inFrame ∨ s.frame.verdictDone ∨ s.frame.late ∨ !s.isTail then .next s
    else
      let now : Int := s.frameStartNs s.frame.k +
        1000 * (s.get Reg.FRAME_SEARCH_DEADLINE.SEARCH_US + s.get Reg.FRAME_REFINE_BUDGET.REFINE_US + s.get Reg.FRAME_VERIFY_BUDGET.VERIFY_US : Nat) - 4000
      let s := { s with frame := { s.frame with now } }
      let s := closeMain s img
      if s.inputsComplete img then .next s
      else
        let s := (s.set Reg.FRAME_STATUS.LAST_LATE 1).inc Reg.FRAME_LATE_COUNT.LATE
        .next { s with frame := { s.frame with late := true, discarded := true } }

/-- The epoch is not confirmed on the tail (R500, R501): it was condemned, or a CONFIRM has not arrived. -/
def State.unconfirmed (s : State) : Bool :=
  s.safety.confirmMissing || (s.inChain && s.isTail && !(s.tenon.feeders.all fun k => s.tenon.confirms.contains (epochOf s.frame.k, k)))

/-- The conditions of Table 14-3 for the frame. -/
def failBits (s : State) (img : Image) : Nat :=
  let late := s.frame.late
  let st := s.safety.refineStatus
  let warmOnly := match s.solver.result with
    | some r => bitOf r.rflags 0
    | none => false
  let f := s.safety.finalSweep
  bit late + 2 * bit (s.safety.noCandidate || (img.hasStage 7 && st == 7 && !late)) +
  4 * bit (img.hasStage 7 && (st == 3 || st == 4 || (st == 2 && warmOnly))) +
  8 * bit (match s.order.selection with
    | some q => bitOf q.flags 2
    | none => false) +
  16 * bit (match f with
    | some x => bitOf x.flags 15 || bitOf x.flags 14 || bitOf x.flags 13 || bitOf x.flags 12
    | none => false) +
  (s.safety.checkC).getD 0 +
  256 * bit (match f with
    | some x => s.safety.checkC.isSome && clearanceFails img x s.safety.lts
    | none => false) +
  2048 * bit (s.safety.checkF == some false) + 4096 * bit (s.safety.integrity || s.digest.integrity) + 8192 * bit s.unconfirmed

/-- The verdict of Table 14-4, given the failure conditions and the disagreements of the window before this frame. -/
def decideVerdict (s : State) (img : Image) (fails : Nat) : Nat :=
  let count := (s.safety.window.take 15).foldl (fun n b => n + bit b) 1
  if s.safety.permanent then 5
  else if s.safety.rowTwo then 4
  else if fails = 0 then 1
  else if !s.frame.shadow ∧ img.threshold ≤ count then 4
  else if (s.safety.prevVerdict = 1 ∨ s.safety.prevVerdict = 2) ∧ s.safety.preH = some true ∧ s.safety.preFH = some true then 2
  else if s.safety.preA = some true then 3
  else 4

/-- The disagreement window with one more published frame (R403). -/
def pushWindow (s : State) (failed : Bool) : State :=
  let w := (failed :: s.safety.window).take 16
  let s := s.set Reg.SAFE_WINDOW.MAP ((w.zipIdx).foldl (fun n p => if p.1 then n + 2 ^ p.2 else n) 0)
  let s := s.set Reg.SAFE_VERDICT.DISAGREE (w.foldl (fun n b => n + bit b) 0)
  { s with safety := { s.safety with window := w } }

/-- The held trajectory and the armed fallback follow the verdict of a published frame (R404), with the mode and counts. STOP leaves
the terminal hold of a permanent fault as it is (R410, R411). -/
def applyVerdict (s : State) (v : Nat) : State :=
  let s := { s with safety := { s.safety with prevVerdict := v } }
  match v with
  | 1 =>
    setMode { s with safety := { s.safety with held := s.safety.cand, armed := s.safety.candFb, armedOk := s.safety.candFb.isSome } } modeNormal
  | 2 =>
    setMode ({ s with safety := { s.safety with armed := s.safety.heldFb, armedOk := true } }.inc Reg.SAFE_PREV_COUNT.COUNT) modeNormal
  | 3 => setMode ({ s with safety := { s.safety with held := none } }.inc Reg.SAFE_FB_COUNT.COUNT)
      (if s.get Reg.SAFE_MODE.MODE = modeHold then modeHold else modeFallback)
  | 4 => enterSafe s
  | _ => setMode { s with safety := { s.safety with held := none } } modeHold

/-- Source of the published trajectory (Table 16-12): C, H, A or terminal hold. -/
def State.resultSource (s : State) : Nat := match (s.safety.verdict).getD 0 with
  | 1 => 0
  | 2 => 1
  | 3 => 2
  | 4 => if s.armedServes then 2 else 3
  | _ => 3

/-- VERDICT (R399 to R404): issued when its inputs are complete, or late at the verdict time. A shadow frame changes neither
H, A nor the window (R403), and one whose verdict is not ACCEPT fails its start (R406, R593, R91); after a wake it
only starts the count of passes again (R571). -/
def execVerdict (s : State) : Result :=
  match s.cfg.image with
  | none => .next s
  | some img =>
    if !s.frame.inFrame ∨ s.frame.verdictDone ∨ !s.isTail then .next s
    else
      let s := if s.frame.late then s else closeMain s img
      if !s.frame.late ∧ !s.inputsComplete img then .next s
      else
        let fails := failBits s img
        let v := decideVerdict s img fails
        let s := (s.set Reg.SAFE_REASON.REASON fails).set Reg.SAFE_VERDICT_EPOCH.EPOCH s.frame.k
        let s := (s.set Reg.SAFE_VERDICT.VERDICT v).set Reg.SAFE_VERDICT.SHADOW (bit s.frame.shadow)
        let s := s.set Reg.SAFE_TS_CLEARANCE.LTS (pattern 32 s.safety.lts)
        let s := s.set Reg.SAFE_MAIN_CLEARANCE.FINAL (match s.safety.finalSweep with
          | some f => pattern 32 f.clearance
          | none => 0)
        let s := { s with frame := { s.frame with verdictDone := true }, safety := { s.safety with verdict := some v } }
        let s := if s.frame.shadow then s else applyVerdict (pushWindow s (decide (fails ≠ 0))) v
        let s := closeStage s img 8 (verifyRecord s s.resultSource)
        let s := armedStatus s
        if s.frame.shadow ∧ s.flag Reg.PWR_STATUS.WAKING then
          .next { s with power := { s.power with passes := if v = 1 then s.power.passes + 1 else 0 } }
        else .next (if s.frame.shadow ∧ v ≠ 1 then startFailed s else s)

/-! ## Commit -/

/-- Fields that count an epoch and are latched at its commit, on every tile. -/
def tallyFields : List Field :=
  [Reg.FRAME_CANDIDATES.SWEPT, Reg.FRAME_PROPOSE_SEED_BLOCKS.BLOCKS, Reg.FRAME_PROPOSE_EMBED_RANGE.RANGE, Reg.JIG_MIGRATIONS.COUNT,
   Reg.JIG_DECLINES.COUNT] ++
  (List.range 36).flatMap fun n => [Reg.TILE_SWEEP_CANDIDATES.RELEASED n, Reg.TILE_SWEEP_COLLIDED.COLLIDED n,
    Reg.TILE_SWEEP_QUERIES.ISSUED n, Reg.TILE_SWEEP_CUT.CUT n, Reg.TILE_PANEL_FILL_WC.FILLS n, Reg.TILE_PANEL_FILL_HBM.FILLS n,
    Reg.TILE_TENSOR_CYCLES.CYCLES n, Reg.TILE_JIG_DISPATCHES.COUNT n, Reg.PWR_TILE_STATE.DOZES n]

/-- DEADLINE_HIT and BUDGET_CUT of the epoch (R341, R342). -/
def budgetFlags (s : State) (img : Image) : Bool × Bool :=
  let hit := wall img && (s.jig.sweepCut || s.jig.searchCut || s.ledger.late || s.jig.proposeCut || s.jig.refineCut)
  let want := if img.quotaCandidates = 0 then libLimit img + seedLimit img else img.quotaCandidates
  let relax := match s.ledger.search with
    | some q => if q.epoch = epochOf s.frame.k then q.relax else 0
    | none => 0
  let short := decide (s.tallied Reg.FRAME_CANDIDATES.SWEPT < want) ||
    (s.jig.searchCut && (img.quotaRelax == 0 || decide (relax < img.quotaRelax))) || s.ledger.late || s.jig.proposeCut || s.jig.refineCut
  (hit, hit && short)

/-- The budget flags of the epoch and their counts (R341, R348). -/
def latchBudget (s : State) (img : Image) : State :=
  let b := budgetFlags s img
  let s := (s.set Reg.FRAME_BUDGET_STATUS.DEADLINE_HIT (bit b.1)).set Reg.FRAME_BUDGET_STATUS.BUDGET_CUT (bit b.2)
  let s := if b.1 then s.inc Reg.FRAME_DEADLINE_HIT_COUNT.COUNT else s
  let s := if b.2 then s.inc Reg.FRAME_BUDGET_CUT_COUNT.COUNT else s
  let s := (s.set Reg.FRAME_BUDGET_STATUS.SWEEP_CUT (bit s.jig.sweepCut)).set Reg.FRAME_BUDGET_STATUS.SEARCH_CUT (bit s.jig.searchCut)
  let s := (s.set Reg.FRAME_BUDGET_STATUS.SEARCH_LATE (bit s.ledger.late)).set Reg.FRAME_BUDGET_STATUS.PROPOSE_CUT (bit s.jig.proposeCut)
  let s := s.set Reg.FRAME_BUDGET_STATUS.REFINE_CUT (bit s.jig.refineCut)
  let s := (s.set Reg.FRAME_BUDGET_STATUS.START_MATCH (bit s.spec.startMatch)).set Reg.FRAME_BUDGET_STATUS.SHIFT_MATCH (bit s.spec.shiftMatch)
  s.set Reg.FRAME_BUDGET_STATUS.SPEC_USED (bit (s.spec.nKept ≠ 0))

/-- The counts of squash and the state of propose (R275, R348). -/
def latchPropose (s : State) (img : Image) : State :=
  let s := (s.set Reg.FRAME_SPEC_KEPT.KEPT s.spec.nKept).set Reg.FRAME_SPEC_SQUASHED.SQUASHED s.spec.nSquashed
  let s := (s.set Reg.FRAME_SPEC_RECOMPUTED.BLOCKS s.spec.nRecomputed).set Reg.FRAME_SPEC_RESTARTS.RESTARTS s.spec.nRestarts
  let all := decide (proposeCount img ≤ s.blocks.length)
  let s := (s.set Reg.FRAME_PROPOSE_STATUS.DISABLED (bit s.jig.disabled)).set Reg.FRAME_PROPOSE_STATUS.ABANDONED (bit s.jig.abandoned)
  let s := (s.set Reg.FRAME_PROPOSE_STATUS.CUT (bit s.jig.proposeCut)).set Reg.FRAME_PROPOSE_STATUS.NO_STATE (bit s.world.start.isNone)
  (s.set Reg.FRAME_PROPOSE_STATUS.COMPLETE (bit (img.hasStage 2 && all))).set Reg.FRAME_PROPOSE_DONE_US.DONE (s.jig.proposeDone.getD 0xFFFFFFFF)

/-- The counts of the epoch's roadmap search. -/
def latchSearch (s : State) : State := match s.ledger.search with
  | some q =>
    if q.epoch = epochOf s.frame.k then
      ((s.set Reg.LEDGER_RELAX.RELAX q.relax).set Reg.LEDGER_PATHS.PATHS q.paths.length).set Reg.LEDGER_PATHS.COMPLETE (bit (q.ended == 1))
    else s
  | none => s

/-- The selection in the ORDER block (R299). -/
def latchOrder (s : State) : State := match s.order.selection with
  | some q =>
    let s := (State.set s Reg.ORDER_COUNT.N q.n).set Reg.ORDER_NAN_COUNT.NAN q.nanCount
    let s := (s.set Reg.ORDER_TIE_COUNT.TIES q.tieCount).set Reg.ORDER_LISTS.LISTS q.lists
    let s := (s.set Reg.ORDER_STATUS.SHORT (bit (bitOf q.flags 0))).set Reg.ORDER_STATUS.TIES_BEYOND_K (bit (bitOf q.flags 1))
    let s := s.set Reg.ORDER_STATUS.FALLBACK_PATH (bit (bitOf q.flags 3))
    let s := if bitOf q.flags 3 then s else s.set Reg.ORDER_CYCLES.CYCLES s.order.cycles
    let bytes := q.entries.flatMap fun (e : PEntry) => e.bytes true
    (List.range 1024).foldl (fun (s : State) i => s.set (Reg.ORDER_TOP.ENTRY i) (u32 bytes (4 * i))) s
  | none => s

/-- The result of refine in the SOLVER block (R325). -/
def latchRefine (s : State) : State := match s.solver.result with
  | some r =>
    let s := (s.set Reg.SOLVER_RESULT.ITERATIONS r.iterations).set Reg.SOLVER_RESULT.RFLAGS r.rflags
    let d := s.draw 2
    let s := if r.engine = 0xFF then d.2.set Reg.SOLVER_RESULT.ENGINE d.1.toNat else s.set Reg.SOLVER_RESULT.ENGINE r.engine
    let s := s.set Reg.SOLVER_RESULT.STATUS r.status
    (s.set Reg.SOLVER_RES_PRIM.RES r.resPrim.toNat).set Reg.SOLVER_GAP.GAP r.gap.toNat
  | none => (s.set Reg.SOLVER_RESULT.STATUS 7).set Reg.SOLVER_RESULT.RFLAGS 0

/-- FRAME, ORDER, SOLVER, LEDGER and propose registers of the epoch, latched at its commit (R275, R299, R325, R348). -/
def latchEpoch (s : State) (img : Image) : State :=
  let s := tallyFields.foldl (fun s f => s.set f (s.tallied f)) s
  let s := { s with jig := { s.jig with counted := some s.fresh }, fresh := s.fresh + 1 }
  let s := s.set Reg.JIG_DESC_FREE_MIN.FREE (2048 - s.tallied Reg.JIG_DESC_FREE_MIN.FREE)
  latchRefine (latchOrder (latchSearch (latchPropose (latchBudget s img) img)))

/-- RESULT_FLAGS (Table 16-12). -/
def resultFlags (s : State) (img : Image) : Nat :=
  let b := budgetFlags s img
  let q := match s.order.selection with
    | some x => x.flags
    | none => 0
  let start := s.world.start
  bit b.1 + 2 * bit b.2 + 4 * bit (bitOf q 0) + 8 * bit (bitOf q 1) + 16 * bit (bitOf q 2) + 32 * bit (bitOf q 3) + 64 * bit s.frame.late +
  128 * s.get Reg.FRAME_STATUS.HOLDOVER + 256 * bit (s.spec.nKept ≠ 0) + 512 * bit (match start with
    | some x => x.projected
    | none => false) + 1024 * bit (match start with
    | some x => x.reused
    | none => false) + 2048 * bit s.jig.abandoned + 4096 * bit s.ledger.late +
  8192 * bit ((sweepRecords s).any (fun r => bitOf r.flags 11) || (match s.safety.finalSweep with
    | some f => bitOf f.flags 11
    | none => false)) + 16384 * bit s.digest.rebase

/-- The rollback floor in force: the authenticating copy with the higher update count (R80); none without one. -/
def State.floorValue (s : State) : Option Nat :=
  let a := bitOf s.cfg.floorAuth 0
  let b := bitOf s.cfg.floorAuth 1
  if a && (!b || decide (s.cfg.floorCountB ≤ s.cfg.floorCountA)) then some s.cfg.floorA
  else if b then some s.cfg.floorB else none

/-- The rollback floor advances (R80, R82): the copy that is not in use is written, and the other slot retires if it is
COMPLETE with a lower sequence. -/
def advanceFloor (s : State) (seq : Nat) : State :=
  let useB := bitOf s.cfg.floorAuth 1 && (!bitOf s.cfg.floorAuth 0 || decide (s.cfg.floorCountA < s.cfg.floorCountB))
  let n := max s.cfg.floorCountA s.cfg.floorCountB + 1
  let c : ConfigSt := if useB then { s.cfg with floorA := seq, floorCountA := n } else { s.cfg with floorB := seq, floorCountB := n }
  let b : Bool := decide (s.get Reg.CONFIG_SLOT_ACTIVE.SLOT = 1)
  let other : Slot := if b then c.slotA else c.slotB
  let otherSeq := le (flashRead other.header 8 8) 0 8
  let c : ConfigSt := if other.state = 0xA5 ∧ otherSeq < seq then
      (if b then { c with slotA := { other with state := 0 } } else { c with slotB := { other with state := 0 } }) else c
  { s.set64 Reg.CONFIG_FLOOR_LO.FLOOR_LO Reg.CONFIG_FLOOR_HI.FLOOR_HI seq with cfg := { c with floorAuth := 3 } }

/-- ACCEPTS counts published frames with ACCEPT in a row; at two, the floor may advance and the boot count of the slot is
cleared (R82, R594). -/
def countAccept (s : State) (v : Nat) : State :=
  if v ≠ 1 then s.set Reg.CONFIG_SLOT_ACTIVE.ACCEPTS 0
  else
    let n := s.get Reg.CONFIG_SLOT_ACTIVE.ACCEPTS
    let s := s.set Reg.CONFIG_SLOT_ACTIVE.ACCEPTS (min 2 (n + 1))
    if n = 1 then
      let seq := s.get64 Reg.CONFIG_ACTIVE_SEQ_LO.SEQ_LO Reg.CONFIG_ACTIVE_SEQ_HI.SEQ_HI
      let s := s.set (if s.get Reg.CONFIG_SLOT_ACTIVE.SLOT = 1 then Reg.SEC_BOOT_ATTEMPTS.B_FAILS else Reg.SEC_BOOT_ATTEMPTS.A_FAILS) 0
      if (s.floorValue).getD 0 < seq then advanceFloor s seq else s
    else s

/-- The digests of the frame enter the DIGEST registers and the chain (R512, R517, R518, R527). -/
def closeDigests (s : State) (img : Image) : State × Nat × Nat × List Byte :=
  let raws := rawFrames img (s.world.kept ++ s.world.ingest) (epochOf s.frame.k)
  let world := worldDigest raws
  let prov := provenance s img world
  let fd := s.digest.frame
  let m := s.digest.mask
  let s := (s.set Reg.DIGEST_STATUS.MASK m).set Reg.DIGEST_STATUS.SHADOW (bit s.frame.shadow)
  let s := if s.digest.integrity then (s.set Reg.DIGEST_STATUS.INTEGRITY 1).inc Reg.DIGEST_INTEGRITY_COUNT.COUNT else s
  let s := (s.set Reg.DIGEST_EPOCH.EPOCH s.frame.k).set64 Reg.DIGEST_FRAME_LO.LO Reg.DIGEST_FRAME_HI.HI fd
  let s := (List.range 9).foldl (fun s i =>
    s.set64 (Reg.DIGEST_STAGE_LO.LO (i + 1)) (Reg.DIGEST_STAGE_HI.HI (i + 1)) ((s.digest.stages.getD i none).getD 0)) s
  let s := s.set64 Reg.DIGEST_WORLD_LO.LO Reg.DIGEST_WORLD_HI.HI world
  let s := (List.range 16).foldl (fun s i => s.set (Reg.DIGEST_PROVENANCE.DIGEST i) (u32 prov (4 * i))) s
  (captureEpoch s { epoch := epochOf s.frame.k, params := frameParams s img, flags := resultFlags s img, mask := m, frame := fd
                    stages := s.digest.stages.map (·.getD 0), world, provenance := prov, frames := raws }, fd, world, prov)

/-- The table of a published frame (Table 14-4). FAULT_N is released by a first publication and, after terminal hold, by a
published ACCEPT (Table 23-3). -/
def publishVerdict (s : State) (img : Image) (k v : Nat) : State :=
  let free := decide (v = 1 ∨ (v ≤ 3 ∧ s.get Reg.SAFE_MODE.MODE ≠ modeHold))
  let s := if free then { s with pins := { s.pins with faultN := true } } else s
  let hold := publishHold s img k
  match v with
  | 1 => match s.safety.held with
    | some c => publishTraj s img c k 1 false
    | none => hold
  | 2 => match s.safety.held with
    | some h => publishTraj s img h k 2 false
    | none => hold
  | 3 => match s.safety.armed with
    | some a => if s.get Reg.SAFE_MODE.MODE = modeHold then hold else publishTraj s img a k 3 false
    | none => hold
  | 4 => publishEntry s k
  | _ => hold

/-- The port returns to the main channel at the commit of the first published frame after a start, a switch or a hold (R406,
R88, R90). -/
def releasePort (s : State) : State :=
  let v := (s.safety.verdict).getD 0
  if v = 4 ∨ v = 5 then s
  else
    let ph := s.get Reg.CONFIG_SWITCH_STATUS.PHASE
    let s := if ph = 5 then (s.set Reg.CONFIG_SWITCH_STATUS.PHASE 7).set Reg.CONFIG_SWITCH_STATUS.RESULT 0 else s
    let s := ((s.set Reg.SEC_BOOT_STATUS.STATE 2).set Reg.SEC_BOOT_STATUS.STEP 18).set Reg.SAFE_MODE.RESTARTS 0
    let s := (s.set Reg.SEC_BOOT_ATTEMPTS.WARM_FAILS 0).set Reg.PWR_STATUS.WAKING 0
    let s := if s.sec.timing then s.set Reg.SEC_BOOT_TIME_US.US ((s.frame.now - s.sec.since) / 1000).toNat else s
    let s := { s with sec := { s.sec with timing := false }
                      safety := { s.safety with wdSince := if s.sec.timing then s.frame.now else s.safety.wdSince } }
    { s with safety := { s.safety with restart := 0 }, pins := { s.pins with safeState := false } }

/-- The RESULT of a committed frame (R470, R471). -/
def sendFrameResult (s : State) (img : Image) (d : Nat × Nat × List Byte) : State :=
  let k := s.frame.k
  let start := s.frameStartNs k
  let src := s.resultSource
  let r := resultSamples img start (if src = 0 ∨ src = 1 then s.safety.held else if src = 2 then s.safety.armed else none)
  let best := match s.order.selection.bind Selection.best, s.safety.cand with
    | some b, some _ => b.id
    | _, _ => 0xFFFFFFFF
  queueResults s img s.order.selection
    { epoch := epochOf k, verdict := (s.safety.verdict).getD 0, source := src, flags := resultFlags s img
      reason := s.get Reg.SAFE_REASON.REASON, id := best, start, t0 := r.1, dt := r.2.1, samples := r.2.2, mask := s.digest.mask
      frameDigest := d.1, stages := s.digest.stages.map (·.getD 0), provenance := d.2.2, refineStatus := s.safety.refineStatus
      refineFlags := match s.solver.result with
        | some x => x.rflags
        | none => 0 }

/-- The epoch was committed at rest (R563): verdict ACCEPT, a start state at rest, and a C that holds it over every sample. -/
def State.atRest (s : State) (img : Image) (v : Nat) : Bool :=
  let zero := fun (w : Word) => w &&& 0x7FFFFFFF == 0
  let still := match s.world.start with
    | some st =>
      if img.kind = 0 then zero (stWord st.raw 28) && zero (stWord st.raw 32)
      else (List.range img.joints).all fun j => zero (stWord st.raw (16 + 12 * j)) && zero (stWord st.raw (20 + 12 * j))
    | none => false
  v == 1 && still && (match s.safety.cand with
    | some c => match c.pts with
      | p :: r => r.all fun q => q.f == p.f
      | [] => false
    | none => false)

/-- What a commit sends down a chain: CONFIRM from a device upstream of the tail (R500), and from the tail of a paired chain
its digests to its head (R508), which in a chain of one device it is itself. -/
def chainCommit (s : State) (frame world : Nat) : State :=
  let e := epochOf s.frame.k
  if !s.isTail then tryConfirm s e
  else if s.get Reg.SAFE_SP_STRAPS.PAIR = 0 ∨ !s.inChain then s
  else if s.isHead then
    takePairToken s { epoch := e, frame, world, deadlineHit := s.flag Reg.FRAME_BUDGET_STATUS.DEADLINE_HIT, sideB := s.sideB, time := s.frame.now.toNat }
  else match s.routeTo 0 with
    | some l => sendToken s l 6 (s.get Reg.FRAME_BUDGET_STATUS.DEADLINE_HIT + 2 * bit (s.get Reg.SAFE_SP_STRAPS.PAIR == 2)) 0 e frame world
    | none => s

/-- Commit of the frame in progress (R35): what its time leaves in the state once the tables, digests and RESULT frames are done. -/
def endCommit (s : State) (k now frameDigest : Nat) (rest : Option Int) : State :=
  { s with
    power := { s.power with restSince := rest }
    frame := { s.frame with committed := true, inFrame := s.frame.running, now := now }
    world := { s.world with kept := s.world.kept.filter fun f => epochLater f.epoch (epochOf k) }
    digest := { s.digest with prev := some (epochOf k, frameDigest) } }

/-- Time of T_commit of frame number `k` (R28, R35). -/
def State.commitNs (s : State) (k : Nat) : Nat := s.frameStartNs k +
  1000 * (s.get Reg.FRAME_SEARCH_DEADLINE.SEARCH_US + s.get Reg.FRAME_REFINE_BUDGET.REFINE_US + s.get Reg.FRAME_VERIFY_BUDGET.VERIFY_US)

/-- Commit of the frame in progress: on the tail of a frame that is no shadow frame the verdict's table is published and the RESULT frame
queued; elsewhere the stages close (R35, R427, R501). -/
def commitFrame (s : State) (img : Image) : State :=
  let k := s.frame.k
  let now := s.commitNs k
  let s := { s with frame := { s.frame with now } }
  let v := (s.safety.verdict).getD 0
  let publish := s.isTail && !s.frame.shadow
  let s := if publish then releasePort (publishVerdict s img k v) else s
  let s := if publish then closeStage s img 9 (stream9 s.safety.front) else s
  let s := if s.isTail then s else closeMain s img
  let s := latchEpoch s img
  let d := closeDigests s img
  let s := if publish then countAccept (sendFrameResult d.1 img d.2) v else d.1
  let s := chainCommit ((armedStatus s).set Reg.FRAME_STATUS.LAST_LATE (bit s.frame.late)) d.2.1 d.2.2.1
  endCommit s k now d.2.1 (if s.atRest img v ∧ publish then some (s.power.restSince.getD now) else none)

/-- COMMIT (R35): the swap, the digests and the RESULT frame, with the registers latched. A shadow frame publishes nothing
(R406); a device that holds no commit stage closes its digests. Where frames have stopped, none is in progress afterwards. -/
def execCommit (s : State) : Result :=
  match s.cfg.image with
  | none => .next s
  | some img =>
    if !s.frame.inFrame ∨ s.frame.committed ∨ (s.isTail ∧ !s.frame.verdictDone) then .next s
    else .next (commitFrame s img)

/-! ## Tables the island writes (R88, R408, R409) -/

/-- The island serves the Setpoint Port: SAFE_STATE, terminal hold, or the time between a drain frame and the next published
frame. -/
def State.islandServes (s : State) : Bool :=
  let m := s.get Reg.SAFE_MODE.MODE
  m == modeSafe || m == modeHold || m == modeSwitch

/-- Number of the frame at whose commit time the island writes its next generation: the first of the grid with frame start +
T_commit at or after the current time and, at that time, no table yet. -/
def State.nextIsland (s : State) (commit : Nat) : Nat :=
  if s.periodNs = 0 then 0
  else
    let k := ((s.frame.now - commit - s.origin + s.periodNs - 1) / (s.periodNs : Int)).toNat
    let g := fun c => sGet 0 c s.safety.front
    let shown := g 0 + 65536 * g 1 + 2 ^ 32 * g 2 + 2 ^ 48 * g 3
    if s.frame.now = (s.frameStartNs k + commit : Nat) ∧ shown = s.frameStartNs (k + 1) then k + 1 else k

/-- ISLAND_TABLE_GENERATION (R88, R408, R409): a new generation of A at frame start + T_commit; terminal hold where A is
missing, failed its pre-check, or is shorter than 63 slots from the next frame start. -/
def execIslandTableGeneration (s : State) : Result :=
  match s.cfg.image with
  | none => .next s
  | some img =>
    if !s.islandServes ∨ s.safety.permanent then .next s
    else
      let commit := 1000 * (s.get Reg.FRAME_SEARCH_DEADLINE.SEARCH_US + s.get Reg.FRAME_REFINE_BUDGET.REFINE_US +
        s.get Reg.FRAME_VERIFY_BUDGET.VERIFY_US)
      let k := s.nextIsland commit
      let s := { s with frame := { s.frame with now := max s.frame.now (s.frameStartNs k + commit : Nat) } }
      let next := s.frameStartNs (k + 1)
      let ok := s.get Reg.SAFE_MODE.MODE ≠ modeHold && (match s.safety.armed with
        | some a => s.safety.armedOk && decide ((next : Int) + 63000 * img.slotPeriodUs ≤ a.endAt)
        | none => false)
      match ok, s.safety.armed with
      | true, some a =>
        let v := if s.get Reg.SAFE_MODE.MODE = modeSwitch then 3 else 4
        .next (islandResult (armedStatus (publishTraj s img a k v true)) img k v 2)
      | _, _ => .next (islandResult (armedStatus (publishHold (setMode s modeHold) img k)) img k 5 3)

/-! ## Faults of the island (R411 to R413) -/

/-- LOCKSTEP_MISMATCH (R411): the affected check or decision is repeated once; a clean repeat is CORRECTED, a second failure
is a permanent safety island fault. -/
def execLockstepMismatch (again : Bool) (s : State) : Result :=
  if again then .next (permanentFault (detectPermanent s (mkError 9 0 1 7 2)))
  else .next (detect { s with safety := { s.safety with repeated := true } } (mkError 9 0 0 7 1))

/-- CHECKER_CLOCK_DEVIATION (R411): a permanent safety island fault. -/
def execCheckerClockDeviation (s : State) : Result := .next (permanentFault (detectPermanent s (mkError 9 0 1 13 0)))

/-- WD_IN_TIMEOUT (R412): with WD_ENABLE, SAFE_STATE under row 2; a FATAL error of mechanism 9 (Table 19-2). WD_IN is ignored in
NAP and SLEEP (R567). -/
def execWdInTimeout (s : State) : Result :=
  match s.cfg.image with
  | none => .next s
  | some img =>
    if img.wdEnable ∧ s.power.asleep = 0 ∧ s.get Reg.SAFE_MODE.MODE ≠ 0 then
      let s := { s with frame := { s.frame with now := max s.frame.now (s.safety.wdSince + 1000000 * img.wdTimeoutMs) } }
      .next (detect (s.set Reg.SAFE_MODE.WD_EXPIRED 1) (mkError 9 0 3 9 0))
    else .next s

/-- WD_IN_CHANGE (R412): the level changes, and the count of WD_TIMEOUT_MS starts again. -/
def execWdInChange (s : State) : Result :=
  .next { s with pins := { s.pins with wdIn := !s.pins.wdIn }, safety := { s.safety with wdSince := s.frame.now } }

/-- ENTER written to SAFE_CMD (R413): accepted from the sources of R75. -/
def execSafeEnter (src : Source) (s : State) : Result := .next (written src s (if s.isOwner src then enterNow s else s))

end Sys2Proof.Machine
end

