-- ==== Sys2Proof/Machine/LoadLayout.lean ====
section
/-! DEFINITION. The checks of an image up to the layout of its sections: the HEADER, SECTIONS, SIGNATURE and MANIFEST phases
of R66, and steps 1 and 2 of the CONSISTENCY phase (R628). A check answers the first failure it meets. -/

namespace Sys2Proof.Machine

/-- A failed check: reason code (Table 2-17), SECTION_TYPE and ITEM (Table 2-15). -/
structure LoadFail where
  reason : Nat
  type : Nat
  item : Nat
deriving DecidableEq, Repr

/-- What a check answers: its failure, or nothing. -/
abbrev Chk := Option LoadFail

/-- The first failure of a list of checks, in order. -/
def firstFail (l : List Chk) : Chk := l.findSome? id

/-- A condition under which the section as a whole fails. -/
def failIf (c : Bool) (reason type : Nat) : Chk := if c then some ⟨reason, type, 0xFFFF⟩ else none

/-- A condition under which a record fails: the first of `n` records that meets it, counted from `base`. -/
def failRec (n base : Nat) (c : Nat → Bool) (reason type : Nat) : Chk :=
  ((List.range n).find? c).map fun j => ⟨reason, type, base + j⟩

/-! ## HEADER and SECTIONS -/

/-- The checks of the HEADER phase on the first 256 bytes; `slotLength` is IMAGE_LENGTH of the slot header (R42, R43, R66). -/
def headerFail (h : List Byte) (slotLength : Nat) : Chk :=
  let f := fun (c : Bool) (r : Nat) => failIf c r 0
  firstFail [
    f (u32 h 0 != 0x4C434E48) 0x01,
    f (u16 h 4 != 1 || u16 h 6 != 256) 0x02,
    f (decide ((crc64 (h.take 0xF8)).toNat ≠ u64 h 0xF8)) 0x03,
    f (decide (u16 h 0xE / 2 ≠ 0) || !zeroAt h 0x14 4 || !zeroAt h 0x40 184 || decide (u16 h 0xC < 2) || decide (64 < u16 h 0xC)) 0x02,
    f (decide (u32 h 8 ≠ u32 h 0x10 + 240) || decide (u32 h 8 ≠ slotLength) || decide (67104768 < slotLength)) 0x04]

/-- A listed section type (Table 2-3). -/
def knownType (t : Nat) : Bool := (decide (1 ≤ t) && decide (t ≤ 0x11)) || t == 0x7FFF

/-- The bulk types (R45). -/
def bulkType (t : Nat) : Bool := t == 9 || t == 0xA || t == 0xB

/-- The walk over the section headers: the sections, the offset of the last header and whether one has BULK set; or the
first failure. Where a header lies outside the image, its type is not known and the failure names type 0 (DESIGN
CHOICE). -/
def walkSections (b : List Byte) : Nat → Nat → Nat → Bool → Bool → Except LoadFail (List Sec × Nat × Nat × Bool)
  | 0, off, prev, _, bulk => .ok ([], off, prev, bulk)
  | n + 1, off, prev, first, bulk =>
    if b.length < off + 32 then .error ⟨0x04, 0, 0xFFFF⟩
    else
      let ty := u16 b off
      let fl := u16 b (off + 2)
      let len := u32 b (off + 4)
      if b.length < off + 32 + len then .error ⟨0x04, ty, 0xFFFF⟩
      else if ty = 0x7FFF ∧ len ≠ 208 then .error ⟨0x04, ty, 0xFFFF⟩
      else if (first ∧ ty ≠ 1) ∨ ty ≤ prev then .error ⟨0x05, ty, 0xFFFF⟩
      else
        let body := (b.drop (off + 32)).take len
        if (crc64 body).toNat ≠ u64 b (off + 8) then .error ⟨0x06, ty, 0xFFFF⟩
        else if !knownType ty ∧ !bitOf fl 1 then .error ⟨0x07, ty, 0xFFFF⟩
        else if knownType ty ∧ bitOf fl 0 ≠ bulkType ty then .error ⟨0x08, ty, 0xFFFF⟩
        else
          let next := if n = 0 then off else align8 (off + 32 + len)
          match walkSections b n next ty false (bulk || bitOf fl 0) with
          | .ok (r, last, p, any) => .ok ({ type := ty, flags := fl, count := u32 b (off + 0x14), body } :: r, last, p, any)
          | .error e => .error e

/-- The SECTIONS phase: the image, or the first failure. -/
def sectionsOf (b : List Byte) : Except LoadFail Image :=
  match walkSections b (u16 b 0xC) 0x100 0 true false with
  | .error e => .error e
  | .ok (secs, last, prev, any) =>
    if prev ≠ 0x7FFF ∨ last ≠ u32 b 0x10 then .error ⟨0x05, prev, 0xFFFF⟩
    else if bitOf (u16 b 0xE) 0 ≠ any then .error ⟨0x02, 0, 0xFFFF⟩
    else .ok { secs, length := u32 b 8, digest := Config.sha512 (b.take (u32 b 0x10)) }

/-- The SIGNATURE phase (R63, R64): `key` gives the configuration-signing keys. -/
def signatureFail (i : Image) (key : Nat → Option (List Byte)) : Chk :=
  let b := i.body 0x7FFF
  let ok := match (if u32 b 0 < 4 then key (u32 b 0) else none) with
    | none => false
    | some k => decide (Config.sha512 k = (b.drop 8).take 64) &&
      Config.ecdsaVerify k i.digest ((b.drop 0x48).take 66) ((b.drop 0x8A).take 66)
  failIf (!ok) 0x09 0x7FFF

/-! ## MANIFEST -/

/-- HBM available to images (R608). -/
def State.hbmAvailable (s : State) : Nat := s.get64 Reg.IDENT_HBM_IMAGE_LO.BYTES_LO Reg.IDENT_HBM_IMAGE_HI.BYTES_HI

/-- Part number of the die: 0 HN832, 1 HN824, 2 HN816. -/
def State.part0 (s : State) : Nat := s.die.part

/-- SECTION_MASK of the sections present. -/
def Image.presentMask (i : Image) : Nat := (List.range 17).foldl (fun m t => if i.has (t + 1) then m + 2 ^ t else m) 0

/-- The MANIFEST phase (R48, R49). -/
def manifestFail (s : State) (i : Image) : Chk :=
  let b := i.body 1
  let f := fun (c : Bool) (r : Nat) => failIf c r 1
  firstFail [
    f (b.length != 128 || i.countOf 1 != 0) 0x04,
    f (u16 b 2 != s.get Reg.IDENT_FORMAT.MAJOR || decide (s.get Reg.IDENT_FORMAT.MINOR < u16 b 0) ||
       decide (i.variantMask / 8 ≠ 0) || !zeroAt b 6 2 || !zeroAt b 0xF 1 || !zeroAt b 0x50 48 ||
       decide (i.chainRoles / 16 ≠ 0) || decide (i.pairSides / 8 ≠ 0) || decide (i.requiredUnits / 512 ≠ 0) ||
       decide (i.minTiles = 0) || decide (32 < i.minTiles)) 0x10,
    f (!bitOf i.variantMask s.die.part) 0x11,
    f (decide (i.requiredUnits &&& s.get Reg.IDENT_UNITS.UNITS ≠ i.requiredUnits)) 0x12,
    f (decide (s.get Reg.IDENT_TILES.ENABLED < i.minTiles)) 0x12,
    f (!bitOf i.chainRoles (s.get Reg.SAFE_SP_STRAPS.ROLE) || !bitOf i.pairSides (s.get Reg.SAFE_SP_STRAPS.PAIR)) 0x13,
    f (decide (s.hbmAvailable < i.hbmBytes)) 0x14,
    f (decide (i.sectionMask ≠ i.presentMask)) 0x15]

/-! ## CONSISTENCY: presence and layout (R628 steps 1 and 2) -/

/-- Types that must be present: those required always, and those that go with a stage of the graph (Table 2-3). -/
def Image.needs (i : Image) (t : Nat) : Option Bool :=
  if t ∈ [1, 2, 3, 4, 5, 6, 7, 0xD, 0xE, 0x11] then some true
  else if t ∈ [8, 9] then some (i.hasStage 2)
  else if t ∈ [0xA, 0xB] then some (i.hasStage 5)
  else if t = 0xC then some (i.hasStage 7)
  else none

/-- Presence: R47, then R50. -/
def presenceFail (i : Image) : Chk :=
  let wrong := (List.range 17).find? fun t => match i.needs (t + 1) with
    | some b => b != i.has (t + 1)
    | none => false
  match wrong with
  | some t => some ⟨0x15, t + 1, 0xFFFF⟩
  | none => failIf ((i.hasStage 2 && !bitOf i.requiredUnits 0) || (i.hasStage 7 && !i.refineMicrocode && !bitOf i.requiredUnits 1)) 0x15 1

/-- The layout of one section: its length and counts, the reserved parts of its fixed part, and record by record those of its
records. -/
def layoutOf (reason type : Nat) (sizes fixed : Bool) (n : Nat) (rec_ : Nat → Bool) : Chk :=
  firstFail [failIf (!sizes || !fixed) reason type, failRec n 0 (fun j => !rec_ j) reason type]

/-- Offset of record `j` of SOLVER_PROBLEM, walking at most `j` records. -/
def solverOff (i : Image) (j : Nat) : Nat := i.solverRecOff j

/-- Offset of port record `j` of TSN_SCHEDULE. -/
def tsnOff (b : List Byte) : Nat → Nat
  | 0 => 32
  | j + 1 => tsnOff b j + 32 + 8 * u16 b (tsnOff b j + 4)

/-- The layout check of an inline section (R628 step 2); none for a section that is absent, bulk or unlisted. -/
def layoutFail (i : Image) (t : Nat) : Chk :=
  let b := i.body t
  let n := i.countOf t
  let z := zeroAt b
  let len := fun (k : Nat) => decide (b.length = k)
  if !i.has t then none
  else match t with
  | 2 => layoutOf 0x20 t (len (64 + 16 * n) && i.stageCount == n)
      (decide (u32 b 0xC / 16 = 0) && z 0x25 1 && z 0x28 24) n fun j => z (64 + 16 * j + 0xE) 2
  | 3 => layoutOf 0x22 t (len (16 + 8 * n) && u32 b 0 == n) (z 4 12) n fun j => z (16 + 8 * j + 7) 1
  | 4 => layoutOf 0x23 t (len (16 + 16 * n + u32 b 4) && u16 b 0 == n) (z 2 2 && z 8 8) n
      fun j => decide (u16 b (16 + 16 * j + 2) / 4 = 0)
  | 5 => layoutOf 0x24 t (len (32 + 256 * n)) (z 0x11 3 && z 0x18 2) n fun j =>
      let o := 32 + 256 * j
      decide (byteAt b (o + 1) / 16 = 0) && z (o + 3) 1 && z (o + 0xE) 2 &&
      (if byteAt b 0 = 0 then z (o + 0x30) 208 else z (o + 0xFA) 6)
  | 6 => layoutOf 0x24 t (len (i.bodyOff n) && i.bodyCount == n) (z 1 15) 0 fun _ => true
  | 7 => layoutOf 0x24 t (len (64 + 32 * n) && i.layerCount + i.streamCount == n)
      (z 0xA 2 && decide (u32 b 0x20 / 2 = 0) && z 0x24 28) n fun j =>
        let o := 64 + 32 * j
        if j < i.layerCount then decide (byteAt b (o + 1) / 8 = 0) && z (o + 0xE) 18
        else decide (u16 b (o + 4) / 8 = 0) && z (o + 0x18) 8
  | 8 => layoutOf 0x24 t (len (32 + 64 * n) && i.opCount + i.tensorCount == n) (z 6 2 && z 0x18 8) n fun j =>
      let o := 32 + 64 * j
      if j < i.opCount then
        z (o + 1) 1 && z (o + 0xD) 3 && z (o + 0x30) 16 && (match byteAt b o with
          | 4 => z (o + 0x16) 2
          | 9 => z (o + 0x13) 1 && z (o + 0x16) 2
          | _ => true)
      else z (o + 5) 3 && z (o + 0x1E) 34
  | 0xC => layoutOf 0x24 t (len (solverOff i n)) (decide (byteAt b 7 / 2 = 0) && z 0x12 2 && z 0x2C 20) n fun j =>
      let o := solverOff i j
      let d := u32 b (o + 0xC)
      z (o + 1) 1 && z (o + 0xA) 2 && z (o + 16 + d) (align8 d - d) &&
      (byteAt b o != 8 || (List.range (d / 4)).all fun e => z (o + 16 + 4 * e + 2) 2)
  | 0xD =>
    let q := i.safety
    let zq := zeroAt q
    layoutOf 0x24 t (len (64 + 320 + 48 * i.boxCount + 16 * i.channelCount) && decide (1 + i.boxCount + i.channelCount = n))
      (decide (byteAt q 0x34 / 4 = 0) && zq 0x35 1 && zq 0x38 8) n fun j =>
        if j = 0 then (if i.safetyKind = 0 then zq (64 + 0x48) (256 - 0x48) else zq (64 + 0xC8) (256 - 0xC8))
        else if j ≤ i.boxCount then zq (320 + 48 * (j - 1) + 3) 1 && zq (320 + 48 * (j - 1) + 0x28) 8
        else zq (320 + 48 * i.boxCount + 16 * (j - 1 - i.boxCount) + 0xC) 4
  | 0xE => layoutOf 0x24 t (len (16 + 256 * n) && byteAt b 0 == n) (z 1 15) n fun j =>
      let o := 16 + 256 * j
      decide (byteAt b (o + 1) / 64 = 0) && z (o + 0x2E) 2 && z (o + 0x50) 43
  | 0xF => layoutOf 0x24 t (len (32 + 8 * n))
      (decide (byteAt b 0 / 16 = 0) && z 3 1 && z 0x13 1 && decide (u16 b 0x16 / 4096 = 0) && z 0x18 8) n fun j =>
        let o := 32 + 8 * j
        z (o + 1) 1 && decide (u16 b (o + 2) / 4096 = 0) && decide (u16 b (o + 4) / 4096 = 0) && z (o + 6) 2
  | 0x10 => layoutOf 0x24 t (len (tsnOff b n) && byteAt b 0 == n) (z 2 30) n fun j =>
      let o := tsnOff b j
      decide (byteAt b (o + 1) / 8 = 0) && z (o + 0x18) 8 &&
      (List.range (u16 b (o + 4))).all fun g => z (o + 32 + 8 * g + 1) 3
  | 0x11 => layoutOf 0x24 t (len (32 + 8 * n) && u16 b 0 == n) (decide (u16 b 6 / 128 = 0) && z 8 24) n fun j =>
      z (32 + 8 * j + 3) 1 && z (32 + 8 * j + 6) 2
  | _ => none

/-- The layout step over every inline section, in ascending type. -/
def layoutsFail (i : Image) : Chk := firstFail ((List.range 17).map fun t => layoutFail i (t + 1))

end Sys2Proof.Machine
end

