-- ==== Sys2Proof/Machine/LoadValues.lean ====
section
/-! DEFINITION. The value checks of the CONSISTENCY phase in the order of Table 2-18 (R628 step 3), the verify need (R393), the
timing rules (R28, R29), and the safety island's own checks (R58, R67, R379). -/

namespace Sys2Proof.Machine

/-! ## Exact comparisons of stored FP32 values -/

/-- a / da ≤ b / db, exactly; false where either is NaN or infinite. -/
def fracLe (a b : Option (Int × Nat)) : Bool := match a, b with
  | some x, some y => decide (x.1 * y.2 ≤ y.1 * x.2)
  | _, _ => false

/-- Value of an FP32 pattern as a fraction. -/
def f32Frac (w : Word) : Option (Int × Nat) := (f32 w).frac

/-- Value of a Q16.16 pattern as a fraction. -/
def qFrac (x : Int) : Option (Int × Nat) := some (x, 65536)

/-- Strictly positive FP32. -/
def f32Pos (w : Word) : Bool := f32Lt 0 w

/-! ## STAGE_GRAPH (R52) -/

namespace Image

/-- A field of stage entry `j`. -/
def entry (i : Image) (j off n : Nat) : Nat := le (i.body 2) (stageOff j + off) n

/-- PROGRAM_COUNT. -/
def programCount (i : Image) : Nat := i.countOf 4

/-- A field of program entry `p`. -/
def programField (i : Image) (p off n : Nat) : Nat := le (i.body 4) (16 + 16 * p + off) n

/-- FLOW_BASE..FLOW_BASE + FLOW_COUNT - 1 of entry `j`. -/
def entryFlows (i : Image) (j : Nat) : List Nat := (List.range (i.entry j 0xC 2)).map fun x => i.entry j 0xA 2 + x

end Image

/-- R52 but for its flow-declaration and timing conditions, with the bounds of Tables 2-6 and 2-7. -/
def stageValues (s : State) (i : Image) : Chk :=
  let n := i.stageCount
  let f := fun (c : Bool) => failIf c 0x20 2
  let r := fun (c : Nat → Bool) => failRec n 0 c 0x20 2
  let tiles := s.get Reg.IDENT_TILES.ENABLED
  let units := s.get Reg.IDENT_UNITS.UNITS
  let fixedOk := decide (250 ≤ i.periodUs) && decide (i.periodUs ≤ 100000) && decide (i.runahead ≤ 2) && decide (6 ≤ n) &&
    decide (n ≤ 9) && decide (1 ≤ i.topK) && decide (i.topK ≤ 256) && (i.refineMicrocode || i.microIterCap == 0)
  firstFail [
    f (!fixedOk),
    r (fun j => decide (i.entry j 0 1 < 1) || decide (9 < i.entry j 0 1) || decide (15 < i.entry j 1 1) || decide (256 < i.entry j 8 2)),
    r (fun j => decide (0 < j) && decide (i.entry j 0 1 ≤ i.entry (j - 1) 0 1)),
    f ([1, 3, 4, 6, 8, 9].any fun x => !i.hasStage x),
    r (fun j => (i.entry j 0 1 == 2 && !bitOf units 0) || (i.entry j 0 1 == 7 && !bitOf units 1 && !i.refineMicrocode)),
    r (fun j => decide (i.entry j 4 4 / 2 ^ tiles ≠ 0)),
    f ((List.range tiles).any fun t => decide (256 < ((List.range n).filter fun j => bitOf (i.entry j 4 4) t).foldl
      (fun a j => a + i.entry j 8 2) 0)),
    r (fun j => i.entry j 2 2 == 0xFFFF && (i.entry j 4 4 != 0 || decide (i.entry j 0 1 ∈ [3, 4, 5]))),
    r (fun j => i.entry j 2 2 != 0xFFFF && decide (i.programCount ≤ i.entry j 2 2)),
    r (fun j => (List.range j).any fun k => (i.entryFlows j).any fun x => (i.entryFlows k).contains x),
    f (i.refineMicrocode && (!i.hasStage 7 || i.microIterCap == 0)),
    f (i.quotaMode && (i.quotaCandidates == 0 || (i.hasStage 5 && i.quotaRelax == 0) || (i.hasStage 7 && i.quotaSolverIter == 0)))]

/-! ## FABRIC_ROUTES (R54) -/

/-- An endpoint of Table 2-9 is present and enabled. -/
def endpointOk (s : State) (e : Nat) : Bool :=
  let k := e / 256
  let x := e % 256
  match k with
  | 0 => decide (x < s.get Reg.IDENT_TILES.ENABLED)
  | 1 => decide (x < 8)
  | 2 => x == 0
  | 3 => decide (x < 4)
  | 4 => x == 0
  | 5 => decide (x < 4) && bitOf (s.get Reg.IDENT_UNIT_MAP.ENGINES) x
  | 6 => x == 0
  | 7 => x == 0
  | 8 => decide (x < 4) && bitOf (s.get Reg.IDENT_UNIT_MAP.LINKS) x
  | 9 => decide (x < 64) && bitOf (s.get64 Reg.IDENT_HBM_GOOD_LO.GOOD Reg.IDENT_HBM_GOOD_HI.GOOD) x
  | _ => false

/-- R54 with the bounds of Table 2-8. -/
def routeValues (s : State) (i : Image) : Chk :=
  let b := i.body 3
  let n := i.countOf 3
  let r := fun (c : Nat → Bool) => failRec n 0 c 0x22 3
  let src := fun j => u16 b (16 + 8 * j)
  let dst := fun j => u16 b (16 + 8 * j + 2)
  let cr := fun j => u16 b (16 + 8 * j + 4)
  let cl := fun j => byteAt b (16 + 8 * j + 6)
  firstFail [
    failIf (decide (n < 1) || decide (4096 < n)) 0x22 3,
    r (fun j => decide (cr j < 1) || decide (256 < cr j) || decide (2 < cl j)),
    r (fun j => !endpointOk s (src j) || !endpointOk s (dst j)),
    r (fun j => (List.range j).any fun k => src k == src j && dst k == dst j && cl k == cl j),
    r (fun j => decide (1024 < ((List.range (j + 1)).filter fun k => dst k == dst j).foldl (fun a k => a + cr k) 0)),
    r (fun j => dst j == 0x0600 && src j != 0x0700 && !(decide (src j < 32) && bitOf (i.stageTileMask 4) (src j)))]

/-! ## TILE_PROGRAMS (R56) and the stages' programs (R161, R170, R184, R186) -/

/-- R56 with the bounds of Table 2-10. -/
def programValues (s : State) (i : Image) : Chk :=
  let n := i.programCount
  let code := u32 (i.body 4) 4
  let r := fun (c : Nat → Bool) => failRec n 0 c 0x23 4
  let p := i.programField
  firstFail [
    failIf (decide (n < 1) || decide (256 < n) || decide (code % 16 ≠ 0) || decide (524288 < code)) 0x23 4,
    r (fun j => p j 0 2 != j || decide (p j 4 4 % 16 ≠ 0) || decide (p j 0xC 4 % 64 ≠ 0)),
    r (fun j => decide (code < p j 4 4 + 16 * p j 8 4)),
    r (fun j => bitOf (p j 2 2) 0 && !bitOf (s.get Reg.IDENT_UNITS.UNITS) 0),
    r (fun j => p j 8 4 == 0)]

/-- Tile SRAM banks that code, panel cache and thread memory take on tile `t` (R186). -/
def banksUsed (i : Image) (t : Nat) : Nat :=
  let local_ := (List.range i.stageCount).foldl (fun a j =>
    if bitOf (i.entry j 4 4) t ∧ i.entry j 2 2 ≠ 0xFFFF then a + i.entry j 8 2 * i.programField (i.entry j 2 2) 0xC 4 else a) 0
  i.cacheBanks + 1 + ceilDiv local_ 524288

/-- Largest sphere radius of the body model. -/
def largestRadius (i : Image) : Int :=
  (List.range i.bodyCount).foldl (fun m b => (List.range (i.bodySpheres b)).foldl (fun m k => max m (i.sphere b k 3)) m) 0

/-- Largest bounding radius (R187). -/
def largestBound (i : Image) : Int := (List.range i.bodyCount).foldl (fun m b => max m (boundRadius i b)) 0

/-- Checks of the sweep stage's program (R184, R186), under its index. -/
def laneFails (s : State) (i : Image) : Bool :=
  let sem := i.lane 0xD 1
  let terms := List.range i.termCount
  let costTy := fun l => if l < i.layerCount then i.layerType l else 0xFF
  let distOk := decide (i.distLayer < i.layerCount) && i.layerType i.distLayer == 1
  let predOk := i.lanePred == 0xFF || (decide (i.lanePred < i.layerCount) && i.layerType i.lanePred == 4)
  let words := i.programField (i.stageProgram 4) 8 4
  let clear := i.clearance
  let dil := signed 32 (i.lane 8 4)
  !bitOf (i.programField (i.stageProgram 4) 2 2) 1 || !distOk || !predOk ||
  decide (clear < 0) || decide (8 * 65536 < clear) || decide (4 < i.termCount) || (terms.any fun t => i.termKind t == 0) ||
  ((List.range 4).any fun t => decide (i.termCount ≤ t) && !zeroAt (i.body 4) (i.codeAt (i.stageProgram 4) + 32 + 12 * t) 12) ||
  (terms.any fun t => decide (4 < i.termKind t) ||
    (i.termKind t == 1 && (!decide (costTy (i.termLayer t) ∈ [2, 3, 6]) || (costTy (i.termLayer t) == 6 && sem == 0) ||
      decide (i.bodyCount ≤ i.termBody t)))) ||
  (terms.any fun t => (i.termKind t == 3 && i.kind == 1) || (i.termKind t == 4 && !i.hasStage 2)) ||
  (terms.any fun t => !f32Finite (i.termWeight t)) ||
  (sem == 1 && (List.range 256).any fun c => !fp16.finite (i.classCost c)) ||
  decide (1 < sem) || decide (words < 5) || (sem == 1 && decide (words < 37)) ||
  decide (i.cacheBanks < 1) || decide (8 < i.cacheBanks) ||
  ((List.range (s.get Reg.IDENT_TILES.ENABLED)).any fun t => decide (12 < banksUsed i t)) ||
  decide (((dcap i i.distLayer * i.quantum i.distLayer : Nat) : Int) - 2 * halfDiag i < largestRadius i + pad + clear) ||
  (i.lanePred != 0xFF && decide (dil < largestBound i + pad + clear + 2 * halfDiag i))

/-- Order 7 of Table 2-18. -/
def stagePrograms (s : State) (i : Image) : Chk :=
  let fail := fun (c : Bool) (p : Nat) => if c then some (⟨0x23, 4, p⟩ : LoadFail) else none
  let e := i.stageProgram 3
  firstFail [
    fail (decide (byteAt (i.body 4) (i.codeAt e) % 8 ≠ 0)) e,
    fail (decide (i.programField e 0xC 4 < ceilDiv (32 + 64 * i.samples) 64 * 64)) e,
    fail (laneFails s i) (i.stageProgram 4)]

/-! ## PRIMITIVE_LIBRARY (R160) and BODY_MODEL (R178, R180) -/

/-- Quantities of an envelope: their count, and those that are minima. -/
def envCount (i : Image) : Nat := if i.kind = 0 then 8 else 5 * i.joints
/-- A minimum of Table 6-4. -/
def envIsMin (i : Image) (j : Nat) : Bool := if i.kind = 0 then j == 0 || j == 2 else j % 5 == 0

/-- R160 with the bounds of Tables 2-11, 6-3 and 6-4. -/
def primitiveValues (i : Image) : Chk :=
  let b := i.body 5
  let n := i.familyCount
  let f := fun (c : Bool) => failIf c 0x24 5
  let r := fun (c : Nat → Bool) => failRec n 0 c 0x24 5
  let v := i.kind == 0
  let env := i.famEnv
  let fam := List.range n
  let at_ := fun (x j : Nat) => bitOf (i.famPositions x) j
  let steps := fun x => i.famSteps x 0 * i.famSteps x 1 * i.famSteps x 2
  firstFail [
    f (decide (n < 1) || decide (64 < n) || decide (i.chainLen < 1) || decide (4 < i.chainLen) || decide (i.samples < 1) ||
       decide (64 < i.samples)),
    f (decide (1 < i.kind) || (if v then decide (i.substeps < 1) || decide (16 < i.substeps) || i.joints != 0
        else i.substeps != 0 || decide (i.joints < 1) || decide (9 < i.joints)) ||
       decide (i.sampleDtUs < 1) || decide (1000000 < i.sampleDtUs) || decide (i.enumLimit < 1) || decide (2 ^ 30 < i.enumLimit) ||
       decide (2 ^ 24 < i.seedLimit)),
    r (fun x => byteAt b (Image.famOff x) != x || (if v then i.famParams x != 2 else decide (i.famParams x < 1) || decide (3 < i.famParams x)) ||
       decide (i.famDurationUs x < 1000) || ((List.range 3).any fun p => decide (i.famSteps x p < 1) || decide (4096 < i.famSteps x p) ||
         (decide (i.famParams x ≤ p) && i.famSteps x p != 1)) || decide (65536 < steps x)),
    f ((List.range i.chainLen).any fun j => fam.all fun x => !at_ x j),
    r (fun x => decide (i.famPositions x / 2 ^ i.chainLen ≠ 0)),
    f (decide (2 ^ 30 < (List.range i.chainLen).foldl (fun a j => a * positionSize i j) 1)),
    r (fun x => v && !(f32Le (env x 0) 0 && f32Le 0 (env x 1) && f32Lt (env x 2) 0 && f32Pos (env x 3) && f32Pos (env x 4) &&
       f32Pos (env x 5) && f32Pos (env x 6) && f32Pos (env x 7))),
    r (fun x => v && (match f32Frac (f32Max (f32Abs (env x 2)) (env x 3)), f32Frac (env x 4) with
       | some a, some j => decide ((i.famDurationUs x : Int) * j.1 * a.2 < 1000000 * a.1 * j.2)
       | _, _ => false)),
    r (fun x => !v && (List.range i.joints).any fun j => !(f32Lt (env x (5 * j)) (env x (5 * j + 1)) && f32Pos (env x (5 * j + 2)) &&
       f32Pos (env x (5 * j + 3)) && f32Pos (env x (5 * j + 4)))),
    f (if v then !f32Finite i.hitchMax || f32Lt i.hitchMax 0 else decide (i.hitchMax ≠ 0)),
    r (fun x => (List.range 4).any fun j => decide (1 ≤ j) && at_ x j && fam.any fun g => at_ g (j - 1) &&
       (List.range (envCount i)).any fun q => if envIsMin i q then !f32Le (env x q) (env g q) else !f32Le (env g q) (env x q))]

/-- R178 and R180 with the bounds of Table 2-11. -/
def bodyValues (i : Image) : Chk :=
  let n := i.bodyCount
  let r := fun (c : Nat → Bool) => failRec n 0 c 0x24 6
  let ty := i.bodyJointType
  firstFail [
    failIf (decide (n < 1) || decide (4 < n)) 0x24 6,
    r (fun b => decide (i.bodySpheres b < 1) || decide (32 < i.bodySpheres b) ||
       (List.range (i.bodySpheres b)).any fun k => decide (i.sphere b k 3 ≤ 0)),
    r (fun b => if b = 0 then i.bodyParent 0 != 0xFF else decide (b ≤ i.bodyParent b)),
    r (fun b => decide (6 < ty b) || (decide (ty b < 3) && i.bodyJoint b != 0)),
    r (fun b => decide ((ty b = 0) ≠ (b = 0))),
    r (fun b => ty b == 2 && (i.kind == 1 || i.bodyParent b != 0 || i.trailerLength b == 0)),
    r (fun b => decide (3 ≤ ty b) && (i.kind == 0 || decide (i.joints ≤ i.bodyJoint b))),
    failIf (decide (128 < (List.range n).foldl (fun a b => a + i.bodySpheres b) 0)) 0x24 6]

/-! ## WORLD_LAYOUT (R130) -/

/-- INIT has a value that Table 5-4 allows. -/
def initOk (i : Image) (l : Nat) : Bool :=
  let v := u16 (i.body 7) (Image.layerOff l + 0xC)
  match i.layerType l with
  | 2 => decide (v < 0x80) || decide (0xFF80 ≤ v)
  | 3 => true
  | 6 => decide (v < 0x100)
  | _ => v == 0

/-- R130 except its partition condition, with the bounds of Table 2-11. -/
def worldValues (i : Image) : Chk :=
  let b := i.body 7
  let nl := i.layerCount
  let f := fun (c : Bool) => failIf c 0x24 7
  let rl := fun (c : Nat → Bool) => failRec nl 0 c 0x24 7
  let rs := fun (c : Nat → Bool) => failRec i.streamCount nl c 0x24 7
  let ty := i.layerType
  let so := i.streamOff
  let sl := fun j => byteAt b (so j + 2)
  let sflag := fun j k => bitOf (u16 b (so j + 4)) k
  let reg := fun j k => u16 b (so j + 8 + 2 * k)
  let home := fun l => bitOf (i.layerFlags l) 0
  let isOcc := fun l => decide (l < nl) && ty l == 0
  let two := fun l => ty l == 0 || ty l == 4
  firstFail [
    f (decide (2 < i.shape) || decide (nl < 1) || decide (16 < nl) || decide (32 < i.streamCount)),
    rs (fun j => decide (nl ≤ sl j)),
    f (decide (64 < i.halo) || i.gx == 0 || i.gy == 0 || i.gz == 0 || decide (65536 < i.panelCount) || (i.shape == 0 && i.gz != 1) ||
       decide (i.cellSize < 256) || decide (16 * 65536 < i.cellSize) || decide (i.admitCloseUs < 5)),
    rl (fun l =>
      let sb := byteAt b (Image.layerOff l + 3)
      decide (6 < ty l) || (ty l != 1 && i.sourceLayer l != 0xFF) ||
      (if ty l = 4 then decide (sb < 1) || decide (16 < sb) || i.sliceIntervalUs l == 0 else sb != 0 || i.sliceIntervalUs l != 0) ||
      (if ty l = 1 ∨ ty l = 5 then i.quantum l == 0 || decide (2 ^ 31 ≤ i.quantum l) else ty l != 2 && i.quantum l != 0)),
    rs (fun j => decide (31 < u16 b (so j)) || decide (7 < byteAt b (so j + 3)) || decide (1000 < u16 b (so j + 6)) ||
       decide (u32 b (so j + 0x14) < 1024) || decide (16777216 < u32 b (so j + 0x14))),
    f (((List.range nl).all fun l => ty l != 0) || ((List.range nl).all fun l => ty l != 1)),
    rl (fun l => ty l == 1 && !isOcc (i.sourceLayer l)),
    rl (fun l => ty l == 1 && (home l || home (i.sourceLayer l))),
    rs (fun j => (List.range j).any fun k => u16 b (so k) == u16 b (so j)),
    rs (fun j => ty (sl j) == 1),
    rs (fun j => sflag j 0 && !two (sl j)),
    rs (fun j => sflag j 1 && !two (sl j)),
    rs (fun j => (List.range 3).any fun a => decide (reg j (a + 3) < reg j a) ||
       decide ((if a = 0 then i.gx else if a = 1 then i.gy else i.gz) ≤ reg j (a + 3))),
    f (decide (60 * 1024 * 1024 < 2 * (List.range nl).foldl (fun a l =>
      if home l then a else a + 512 * Image.cellBits (ty l) * i.slices l * i.panelCount) 0)),
    rl (fun l => !initOk i l),
    rl (fun l => (bitOf (i.layerFlags l) 1 && ty l != 1) || (bitOf (i.layerFlags l) 2 && !two l))]

/-- R130's partition condition (order 15). -/
def worldPartitions (i : Image) : Chk :=
  failRec i.streamCount i.layerCount (fun j => !((List.range (i.countOf 0xE)).any fun p =>
    byteAt (i.body 0xE) (16 + 256 * p) == byteAt (i.body 7) (i.streamOff j + 3))) 0x24 7

/-! ## NETWORK (R249) -/

/-- Dimensions of a tensor in use. -/
def tensorDims (i : Image) (t : Nat) : List Nat := (List.range (i.tensorRank t)).map (i.tensorDim t)

/-- A dilated window of `k` taps over `n` padded inputs with a stride: the number of positions; none where it does not fit. -/
def windowOut (n k stride pad dil : Nat) : Option Nat :=
  if k = 0 ∨ stride = 0 ∨ dil = 0 ∨ n + 2 * pad < dil * (k - 1) + 1 then none else some ((n + 2 * pad - (dil * (k - 1) + 1)) / stride + 1)

/-- Elements that the operator's output has under Table 9-4; none where the shapes of its inputs disagree with the table. -/
def opOutput (i : Image) (o : Nat) : Option Nat :=
  let d := fun k => tensorDims i (i.opIn o k)
  let no := fun k => i.opIn o k == 0xFFFF
  let pm := i.opParam o
  let bias := fun n => no 2 || d 2 == [n]
  match i.opField o 0 1, d 0 with
  | 1, [m, k] => match d 1 with
    | [n, k2] => if k = k2 ∧ (no 2 ∨ d 2 = [m, n] ∨ d 2 = [n]) then some (m * n) else none
    | _ => none
  | 2, [l, cin] => match d 1, windowOut l (pm 0) (pm 1) (pm 2) (pm 3) with
    | [cout, k], some lo => if k = pm 0 * cin ∧ bias cout then some (lo * cout) else none
    | _, _ => none
  | 3, [h, w, cin] => match d 1, windowOut h (pm 0) (pm 2) (pm 4) (pm 6), windowOut w (pm 1) (pm 3) (pm 5) (pm 7) with
    | [cout, k], some ho, some wo => if k = pm 0 * pm 1 * cin ∧ bias cout then some (ho * wo * cout) else none
    | _, _, _ => none
  | 4, [lq, e] => match d 1, d 2 with
    | [lk, e1], [lk2, e2] => if e = pm 0 * pm 1 ∧ e1 = e ∧ e2 = e ∧ lk2 = lk ∧ 0 < pm 0 ∧ 0 < pm 1 then some (lq * e) else none
    | _, _ => none
  | 5, [r, e] => if d 1 = [e] ∧ d 2 = [e] then some (r * e) else none
  | 6, [r, e] => if no 1 ∧ no 2 then some (r * e) else none
  | 7, l => if no 1 ∧ no 2 then some (l.foldl (· * ·) 1) else none
  | 8, [n] => match d 1 with
    | [_, e] => if no 2 then some (n * e) else none
    | _ => none
  | 9, [n, c] => if (c = 2 ∨ c = 3) ∧ no 1 ∧ no 2 then some (i.tensorSize (i.opField o 0xA 2) / n * n) else none
  | _, _ => none

/-- Input slots in use. -/
def opInputs (i : Image) (o : Nat) : List Nat := ((List.range 3).filter fun k => i.opIn o k != 0xFFFF).map (i.opIn o)

/-- Formats of an operator's inputs and output allowed for their use (Table 9-1, R249). -/
def opFormats (i : Image) (o : Nat) : Bool :=
  let fmt := i.tensorFormat
  let plain := fun t => decide (fmt t ≤ 2)
  let out := i.opField o 0xA 2
  match i.opField o 0 1 with
  | 1 | 2 | 3 => isInt (fmt (i.opIn o 0)) == isInt (fmt (i.opIn o 1))
  | 4 => isInt (fmt (i.opIn o 0)) == isInt (fmt (i.opIn o 1))
  | 5 => (opInputs i o).all plain && plain out
  | 6 | 7 => (opInputs i o).all plain && plain out
  | 8 => fmt (i.opIn o 0) == 0
  | _ => fmt (i.opIn o 0) == 0 && plain out

/-- PARAM values of an operator within Table 9-4, its unused bytes 0. -/
def opParams (i : Image) (o : Nat) : Bool :=
  let pm := i.opParam o
  let z := fun a n => zeroAt (i.body 8) (32 + 64 * o + 0x10 + a) n
  let w := fun a => BitVec.ofNat 32 (i.opField o (0x10 + a) 4)
  match i.opField o 0 1 with
  | 1 | 6 | 7 | 8 => z 0 32
  | 2 => z 8 24
  | 3 => z 16 16
  | 4 => decide (pm 2 ≤ 1) && z 12 20
  | 5 => f32Pos (w 0) && z 4 28
  | 9 =>
    let l := i.opField o 0x10 1
    decide (l < i.layerCount) && decide (i.opField o 0x11 1 < i.slices l) && decide (i.opField o 0x12 1 ≤ 1) && z 12 20
  | _ => false

/-- R249 with the bounds of Tables 2-11 and 9-1 to 9-5. -/
def networkValues (s : State) (i : Image) : Chk :=
  let no := i.opCount
  let nt := i.tensorCount
  let f := fun (c : Bool) => failIf c 0x24 8
  let ro := fun (c : Nat → Bool) => failRec no 0 c 0x24 8
  let rt := fun (c : Nat → Bool) => failRec nt no c 0x24 8
  let fld := i.opField
  let tf := i.tensorField
  let out := fun o => fld o 0xA 2
  let ref_ := fun t => t == 0xFFFF || decide (t < nt)
  let blocks := fun t => i.tensorBlocks t * 4096
  let nameOk := fun t => t == 0xFFFF || decide (t < nt)
  if !i.has 8 then none
  else firstFail [
    f (decide (no < 1) || decide (1024 < no) || decide (nt < 1) || decide (4096 < nt) || !nameOk i.stateTensor || !nameOk i.seedTensor ||
       !nameOk i.costSeedTensor || !nameOk i.costLibTensor),
    ro (fun o => decide (fld o 0 1 < 1) || decide (9 < fld o 0 1) || decide (31 < fld o 2 1) || decide (fld o 0xC 1 < 1) ||
       decide (10 < fld o 0xC 1) || decide (nt ≤ i.opIn o 0) || !ref_ (i.opIn o 1) || !ref_ (i.opIn o 2) || decide (nt ≤ out o) || !opParams i o),
    rt (fun t => tf t 0 2 != t || decide (2 < i.tensorKind t) || decide (8 < i.tensorFormat t) || decide (i.tensorRank t < 1) ||
       decide (4 < i.tensorRank t) || ((List.range 4).any fun d => decide (i.tensorDim t d < 1) || decide (1048576 < i.tensorDim t d) ||
         (decide (i.tensorRank t ≤ d) && i.tensorDim t d != 1)) || decide (524288 < i.tensorBlocks t) ||
       (i.tensorKind t != 1 && tf t 0x18 4 != 0xFFFFFFFF) || (i.tensorFormat t != 5 && tf t 0x1C 2 != 0xFFFF)),
    ro (fun o => i.tensorKind (out o) != 0 || ((List.range no).any fun p => p != o && out p == out o &&
       !(fld p 0 1 == 9 && fld o 0 1 == 9 && decide (i.opParam p 2 ≠ i.opParam o 2)))),
    ro (fun o => (opInputs i o).any fun t => i.tensorKind t == 0 && (((List.range no).all fun p => out p != t) ||
       (List.range no).any fun p => out p == t && decide (o ≤ p))),
    rt (fun t => i.tensorKind t == 0 && (List.range no).all fun p => out p != t),
    ro (fun o => opOutput i o != some (i.tensorSize (out o)) || (fld o 0 1 == 9 && decide (tensorDims i (out o) = []))),
    ro (fun o => !opFormats i o || ((opInputs i o).any fun t => i.tensorFormat t == 8)),
    rt (fun t => (decide (i.tensorFormat t ∈ [5, 7, 8]) && i.tensorKind t != 1) || (i.tensorFormat t == 5 &&
       !(decide (tf t 0x1C 2 < nt) && i.tensorFormat (tf t 0x1C 2) == 8))),
    rt (fun t => i.tensorKind t == 2 && (i.tensorFormat t != 0 || tensorDims i t != [32] || t != i.stateTensor)),
    f (i.stateTensor != 0xFFFF && i.tensorKind i.stateTensor != 2),
    f (i.seedTensor != 0xFFFF && (i.tensorFormat i.seedTensor != 0 || decide (i.tensorSize i.seedTensor % 16 ≠ 0))),
    f ([i.costSeedTensor, i.costLibTensor].any fun t => t != 0xFFFF && (i.tensorFormat t != 0 || i.tensorRank t != 1)),
    ro (fun o => !bitOf (i.stageTileMask 2) (fld o 2 1) || (s.get Reg.SAFE_SP_STRAPS.ROLE == 0 && fld o 3 1 != 0)),
    ro (fun o => decide (fld o 0xC 1 * 524288 < ((opInputs i o).filter fun t => i.tensorKind t == 1).foldl (fun a t => a + blocks t) (blocks (out o)))),
    ro (fun o => decide (12 < banksUsed i (fld o 2 1) + ((List.range no).filter fun p => fld p 2 1 == fld o 2 1 && fld p 3 1 == fld o 3 1).foldl
       (fun a p => a + fld p 0xC 1) 0))]

/-! ## SOLVER_PROBLEM (R303, R304) -/

/-- Stages a block kind must cover: the first past the last, or none for MAP. -/
def coverEnd (i : Image) (k : Nat) : Option Nat := match k with
  | 1 | 2 => some (i.horizon + 1)
  | 3 | 4 => some i.horizon
  | 5 | 7 => if i.nc = 0 then none else some (i.horizon + 1)
  | 6 => if i.nc = 0 then none else some i.horizon
  | _ => none

/-- Rows and columns of a block kind that starts at stage `k0` (Table 11-3). -/
def blockShape (i : Image) (k k0 : Nat) : Nat × Nat :=
  let z := if k0 = i.horizon then i.nx else i.nx + i.nu
  match k with
  | 1 => (z, z)
  | 2 => (z, 1)
  | 3 => (i.nx, i.nx)
  | 4 => (i.nx, i.nu)
  | 5 => (i.nc, i.nx)
  | 6 => (i.nc, i.nu)
  | 7 => (i.nc, 1)
  | _ => (i.nx + i.nu, 1)

/-- A byte offset of a sample field that is not reserved for the library's kind (Table 6-7). -/
def fieldOk (i : Image) (o : Nat) : Bool :=
  decide (o % 4 = 0) && (if i.kind = 0 then decide (o ≤ 0x2C)
    else decide (o ≤ 0x3C) && (if o < 0x24 then decide (o / 4 < i.joints) else decide ((o - 0x24) / 4 < i.joints)))

/-- R303, then R304, with the bounds of Tables 2-11 and 11-1 to 11-4. -/
def solverValues (i : Image) : Chk :=
  let b := i.body 0xC
  let n := i.countOf 0xC
  let f := fun (c : Bool) => failIf c 0x24 0xC
  let r := fun (c : Nat → Bool) => failRec n 0 c 0x24 0xC
  let off := solverOff i
  let kind := fun j => byteAt b (off j)
  let rows := fun j => u16 b (off j + 2)
  let cols := fun j => u16 b (off j + 4)
  let k0 := fun j => u16 b (off j + 6)
  let k1 := fun j => u16 b (off j + 8)
  let size := if i.solver32 then 4 else 8
  let w := fun o => word32 b o
  let fin := fun o => if i.solver32 then f32Finite (w o) else fp64.finite (u64 b o)
  let maps := (List.range n).filter fun j => kind j == 8
  let m := List.range (i.nx + i.nu)
  let useF := fun x => decide (i.mapKind x ∈ [1, 2, 3])
  let raw := fun x => byteAt b (i.mapOff + 4 * x + 1)
  let hasK := fun k => (List.range i.nx).any fun x => i.mapKind x == k
  if !i.has 0xC then none
  else firstFail [
    f (decide (i.horizon < 1) || decide (256 < i.horizon) || decide (i.nx < 1) || decide (24 < i.nx) || decide (i.nu < 1) ||
       decide (12 < i.nu) || decide (48 < i.nc)),
    f (decide (1 < byteAt b 5) || decide (i.stageDt = 0) || decide (i.iterMax < 1) || decide (1000 < i.iterMax) || !f32Pos i.epsPrim ||
       !f32Pos i.epsDual || !f32Pos i.epsGap || !f32Pos i.sigmaMin || !f32Le (f32Of 9 10) (w 0x24) || !f32Le (w 0x24) (f32Of 9999 10000) ||
       !f32Pos i.mu0 || decide (i.horizon < i.outStride) || decide (i.horizon % i.outStride ≠ 0)),
    r (fun j => decide (kind j < 1) || decide (8 < kind j) || decide (k1 j < k0 j) ||
       (kind j == 8 && (k0 j != 0 || k1 j != 0)) || (i.nc == 0 && decide (kind j ∈ [5, 6, 7]))),
    r (fun j => match coverEnd i (kind j) with
       | some e => decide (e ≤ k1 j)
       | none => false),
    r (fun j => kind j != 8 && (List.range j).any fun k => kind k == kind j && decide (k0 j ≤ k1 k) && decide (k0 k ≤ k1 j)),
    f ((List.range 8).any fun k => match coverEnd i k with
       | some e => (List.range e).any fun st => (List.range n).all fun j => kind j != k || decide (st < k0 j) || decide (k1 j < st)
       | none => false),
    r (fun j => (rows j, cols j) != blockShape i (kind j) (k0 j) ||
       u32 b (off j + 0xC) != (if kind j = 8 then 4 * rows j else size * rows j * cols j)),
    r (fun j => kind j != 8 && (List.range (rows j * cols j)).any fun e => !fin (off j + 16 + size * e)),
    r (fun j => kind j == 1 && (List.range (rows j)).any fun a => (List.range (cols j)).any fun c =>
       le b (off j + 16 + size * (a * cols j + c)) size != le b (off j + 16 + size * (c * cols j + a)) size),
    f (maps.length != 1),
    f (m.any fun x => decide (6 < i.mapKind x) || (!useF x && raw x != 0) || decide (raw x % 4 ≠ 0)),
    f (m.any fun x => useF x && (List.range x).any fun y => useF y && raw x == raw y),
    f (m.any fun x => useF x && !fieldOk i (raw x)),
    f ((m.any fun x => decide (4 ≤ i.mapKind x)) && (i.kind == 1 || !(hasK 4 && hasK 5 && hasK 6))),
    f (!i.solver32 && i.refineMicrocode),
    failIf (decide (i.stageDt = 0) || decide (i.periodNs % i.stageDt ≠ 0) || decide (i.periodNs < i.stageDt)) 0x25 0xC]

/-! ## PARTITIONS, POWER_POLICY, TSN_SCHEDULE, JIG_FLOWS -/

/-- Pool threads of a tile (R350): those no stage reserves. -/
def poolOf (i : Image) (t : Nat) : Nat :=
  256 - ((List.range i.stageCount).filter fun j => bitOf (i.entry j 4 4) t).foldl (fun a j => a + i.entry j 8 2) 0

/-- R459 except its JOB_MAX condition, with the bounds of Tables 2-11 and 16-9. -/
def partitionValues (s : State) (i : Image) : Chk :=
  let b := i.body 0xE
  let n := i.countOf 0xE
  let f := fun (c : Bool) => failIf c 0x24 0xE
  let r := fun (c : Nat → Bool) => failRec n 0 c 0x24 0xE
  let g := fun j o k => le b (16 + 256 * j + o) k
  let ports := s.get Reg.IDENT_UNIT_MAP.PORTS
  let tiles := s.get Reg.IDENT_TILES.ENABLED
  let tx := fun j => popCount (g j 3 1) 8
  let frer := fun j => bitOf (g j 1 1) 3
  firstFail [
    f (decide (n < 1) || decide (8 < n) || ((List.range n).all fun j => g j 0 1 != 0)),
    r (fun j => (List.range j).any fun k => decide (g k 0x10 8 < g j 0x10 8 + g j 0x18 8) && decide (g j 0x10 8 < g k 0x10 8 + g k 0x18 8)),
    r (fun j => decide (7 < g j 0 1) || (decide (0 < j) && decide (g j 0 1 ≤ g (j - 1) 0 1)) || decide (7 < g j 4 1) || decide (15 < g j 5 1) ||
       (decide (4094 < g j 6 2) && g j 6 2 != 0xFFFF) || decide (g j 8 4 / 2 ^ tiles ≠ 0) || decide (64 < g j 0xE 1) || g j 0xF 1 == 0 ||
       decide (g j 0x20 2 < 1) || decide (10000 < g j 0x20 2) || decide (g j 0x24 4 < 1600) || decide (16777216 < g j 0x24 4) ||
       g j 3 1 == 0 || decide (g j 2 1 &&& ports ≠ g j 2 1) || decide (g j 3 1 &&& ports ≠ g j 3 1) ||
       (!bitOf (g j 1 1) 5 && (!zeroAt b (16 + 256 * j + 0x30) 12 || !zeroAt b (16 + 256 * j + 0x40) 12))),
    r (fun j => if frer j then tx j != 2 else tx j != 1),
    r (fun j => !Config.p521Point ((b.drop (16 + 256 * j + 0x7B)).take 133)),
    r (fun j => decide (s.hbmAvailable < g j 0x10 8 + g j 0x18 8)),
    f ((List.range tiles).any fun t => decide (poolOf i t < ((List.range n).filter fun j => bitOf (g j 8 4) t).foldl (fun a j => a + g j 0xC 2) 0)),
    r (fun j => bitOf (g j 1 1) 0 && (List.range n).any fun k => g k 0 1 == 0 && !bitOf (g k 1 1) 0)]

/-- R459's JOB_MAX condition (order 15). -/
def partitionFlows (i : Image) : Chk :=
  failRec (i.countOf 0xE) 0 (fun j => decide (0 < byteAt (i.body 0xE) (16 + 256 * j + 0xE)) &&
    !((List.range (i.countOf 0x11)).any fun x => byteAt (i.body 0x11) (32 + 8 * x + 2) == 0x10 + byteAt (i.body 0xE) (16 + 256 * j))) 0x24 0xE

/-- R576 with the bounds of Tables 2-11, 20-7 and 20-8. -/
def powerValues (s : State) (i : Image) : Chk :=
  let b := i.body 0xF
  let n := i.countOf 0xF
  let f := fun (c : Bool) => failIf c 0x24 0xF
  let r := fun (c : Nat → Bool) => failRec n 0 c 0x24 0xF
  let wp := byteAt b 1
  let eth := u16 b 0x16
  let auto := bitOf (byteAt b 0) 1
  let tile := fun j => byteAt b (32 + 8 * j)
  let banks := fun j => u16 b (32 + 8 * j + 2) ||| u16 b (32 + 8 * j + 4)
  let ports := s.get Reg.IDENT_UNIT_MAP.PORTS
  let links := s.get Reg.IDENT_UNIT_MAP.LINKS
  let ethBits := fun p => bitOf eth p || bitOf eth (4 + p) || bitOf eth (8 + p)
  if !i.has 0xF then none
  else firstFail [
    f (decide (32 < n)),
    r (fun j => decide (s.get Reg.IDENT_TILES.ENABLED ≤ tile j) || (decide (0 < j) && decide (tile j ≤ tile (j - 1)))),
    f (decide (u16 b 4 < 16) || decide (4096 < u16 b 4) || decide (u16 b 6 < 20) ||
       (if auto then decide (u32 b 8 < 1000) || decide (86400000 < u32 b 8) else u32 b 8 != 0) || decide (u16 b 0xC < 100) ||
       decide (260 < u16 b 0xC) || decide (u16 b 0xE < 800) || decide (1200 < u16 b 0xE) || decide (u16 b 0x14 < 400) ||
       decide (1200 < u16 b 0x14)),
    r (fun j => (List.range i.cacheBanks).any fun k => bitOf (banks j) (11 - k)),
    f (decide (wp &&& ports ≠ wp) || decide ((byteAt b 2 % 16 ||| byteAt b 2 / 16) &&& links ≠ (byteAt b 2 % 16 ||| byteAt b 2 / 16))),
    f ((List.range 4).any fun p => bitOf wp p != ethBits p)]

/-- R445 with the bounds of Tables 2-11, 16-2 and 16-3; an idle slope is held against the fastest port rate of Table 16-1. -/
def tsnValues (s : State) (i : Image) : Chk :=
  let b := i.body 0x10
  let n := i.countOf 0x10
  let r := fun (c : Nat → Bool) => failRec n 0 c 0x24 0x10
  let o := tsnOff b
  let fl := fun j => byteAt b (o j + 1)
  let gcl := fun j => u16 b (o j + 4)
  let cyc := fun j => u32 b (o j + 8)
  let iv := fun j g => u32 b (o j + 32 + 8 * g + 4)
  if !i.has 0x10 then none
  else firstFail [
    failIf (decide (4 < n)) 0x24 0x10,
    r (fun j => !bitOf (s.get Reg.IDENT_UNIT_MAP.PORTS) (byteAt b (o j)) || decide (3 < byteAt b (o j))),
    r (fun j => cyc j == 0 || !(decide (i.periodNs % cyc j = 0) || decide (cyc j % i.periodNs = 0))),
    r (fun j => decide (0 < j) && decide (byteAt b (o j) ≤ byteAt b (o (j - 1)))),
    r (fun j => (decide (0 < gcl j) || bitOf (fl j) 0) && (List.range (gcl j)).foldl (fun a g => a + iv j g) 0 != cyc j),
    r (fun j => decide (3 < byteAt b (o j + 3)) || decide (256 < gcl j) || (bitOf (fl j) 0 && gcl j == 0) || decide (7 < byteAt b (o j + 6)) ||
       decide (7 < byteAt b (o j + 7)) || byteAt b (o j + 6) == byteAt b (o j + 7) || decide (cyc j ≤ u32 b (o j + 0xC)) ||
       decide (7500000 < u32 b (o j + 0x10)) || decide (7500000 < u32 b (o j + 0x14)) ||
       (List.range (gcl j)).any fun g => decide (iv j g < 64) || decide (1000000000 < iv j g))]

/-- R367 with the bounds of Tables 2-11, 13-3 and 13-4. -/
def flowValues (s : State) (i : Image) : Chk :=
  let b := i.body 0x11
  let n := i.countOf 0x11
  let f := fun (c : Bool) => failIf c 0x24 0x11
  let r := fun (c : Nat → Bool) => failRec n 0 c 0x24 0x11
  let fid := fun j => u16 b (32 + 8 * j)
  let own := fun j => byteAt b (32 + 8 * j + 2)
  let win := fun j => u16 b (32 + 8 * j + 4)
  firstFail [
    f (decide (n < 1) || decide (4096 < n)),
    r (fun j => decide (4095 < fid j) || (decide (0 < j) && decide (fid j ≤ fid (j - 1)))),
    f (decide (i.affinity < 1) || decide (1024 < i.affinity) || decide (i.tickUs < 1) || decide (1000 < i.tickUs)),
    r (fun j => decide (win j < 1) || decide (1024 < win j)),
    r (fun j => !(if own j < 0x10 then i.hasStage (own j)
       else (List.range (i.countOf 0xE)).any fun p => byteAt (i.body 0xE) (16 + 256 * p) + 0x10 == own j)),
    r (fun j => (List.range i.stageCount).any fun e => (i.entryFlows e).contains (fid j) && own j != i.entry e 0 1),
    f (decide (1536 * s.get Reg.IDENT_TILES.ENABLED < (List.range n).foldl (fun a j => a + win j) 0))]

/-- The flow-declaration condition of R52 (order 15). -/
def flowsDeclared (i : Image) : Chk :=
  failRec i.stageCount 0 (fun j => (i.entryFlows j).any fun x => !i.flowIds.contains x) 0x20 2

/-! ## Timing (R28, R29, R211, R393) -/

/-- Row count N_b of a body's box (R393), squared on a grid more than one cell thick. -/
def rowCount (i : Image) (b : Nat) : Nat :=
  let thick := decide (1 < i.cellsAlong 2)
  let h := fun a => (i.boxWord b (7 + a) + 64).toNat
  let rho := sqrtUp (h 0 ^ 2 + h 1 ^ 2 + (if thick then h 2 ^ 2 else 0))
  let n := ceilDiv (2 * (rho + i.clrProbe.toNat) + i.cellSize) i.cellSize
  if thick then n * n else n

/-- CHECKER cycles of a check of `n` samples, with `extra` cycles a sample (R393). -/
def checkCycles (i : Image) (n extra : Nat) : Nat :=
  let p := if i.predLayer = 0xFF then 0 else 1
  1500 + n * (40 + extra + (List.range i.boxCount).foldl (fun a b =>
    let r := rowCount i b
    a + 24 + 3 * r * ceilDiv r 128 * (1 + 2 * p)) 0)

/-- Samples of the largest main-channel trajectory (R393). -/
def mainSamples (i : Image) : Nat := if i.hasStage 7 then i.horizon / i.outStride + 1 else i.samples

/-- T_C + 0 and T_F in quarter nanoseconds, a CHECKER cycle being 1.25 ns (R393). -/
def checkQuarters (i : Image) : Nat × Nat := (5 * checkCycles i (mainSamples i) 0, 5 * checkCycles i i.fbSamples 80)

/-- The verify need V in quarter nanoseconds (R393). -/
def verifyNeed (i : Image) : Nat :=
  let q := checkQuarters i
  max (4000 + max q.1 q.2) 40000 + 16000

/-- The timing rules R28 and R29 for values of T_search and B_refine in µs. -/
def timingBad (i : Image) (search refine : Nat) : Bool :=
  decide (i.periodUs < search + refine + i.verifyUs + 20) || decide (4000 * i.verifyUs < verifyNeed i) ||
  (refine == 0 && i.hasStage 7) || (refine != 0 && !i.hasStage 7) || decide (search ≤ i.admitCloseUs)

/-- Order 16 of Table 2-18. -/
def timingFail (i : Image) : Chk := failIf (timingBad i i.searchUs i.refineUs || decide (i.verifyUs < 10)) 0x21 2

/-! ## The CONSISTENCY and SAFETY phases -/

/-- SAFETY limits of Table 2-11, as the main channel reads them (order 10). -/
def safetyLimits (i : Image) : Chk :=
  failIf (decide (i.threshold < 2) || decide (8 < i.threshold) || decide (i.fbHorizonMs < 500) || decide (8000 < i.fbHorizonMs) ||
    decide (512 < i.fbSamples) || decide (512 < mainSamples i)) 0x24 0xD

/-- The value checks in the order of Table 2-18. -/
def valuesFail (s : State) (i : Image) : Chk := firstFail [
  stageValues s i, routeValues s i, programValues s i, primitiveValues i, bodyValues i, worldValues i, stagePrograms s i,
  networkValues s i, solverValues i, safetyLimits i, partitionValues s i, powerValues s i, tsnValues s i, flowValues s i,
  flowsDeclared i, worldPartitions i, partitionFlows i, timingFail i]

/-- The CONSISTENCY phase (R628): the layout is checked once presence holds, the values once the layout does. -/
def consistencyFail (s : State) (i : Image) : Chk :=
  match presenceFail i with
  | some f => some f
  | none => match layoutsFail i with
    | some f => some f
    | none => valuesFail s i

/-- Size of the safety grid in bytes (R380). -/
def gridBytes (i : Image) : Nat :=
  ceilDiv (gridCells i * (1 + if i.predLayer = 0xFF then 0 else i.slices i.predLayer)) 8

/-- A field of Table 14-2 or R376 to R378 lies outside its bounds (R379, first case). -/
def safetyFields (i : Image) : Bool :=
  let chans := List.range i.channelCount
  let bodies := List.range i.boxCount
  let src := fun c => i.chanByte c 1
  decide (i.threshold < 2) || decide (8 < i.threshold) || decide (1 < i.safetyKind) || decide (i.boxCount < 1) || decide (4 < i.boxCount) ||
  decide (i.channelCount < 1) || decide (14 < i.channelCount) || decide (i.fbHorizonMs < 500) || decide (8000 < i.fbHorizonMs) ||
  decide (i.fbSamples < 2) || decide (512 < i.fbSamples) || i.slotPeriodUs == 0 || decide (65535 < i.slotPeriodUs) ||
  decide (i.clrProbe < i.safetyMargin) || (i.safetyKind == 1 && decide (i.contAng ≠ 0)) || decide (i.contAgeMs < 1) ||
  decide (1000 < i.contAgeMs) || (i.wdEnable && (decide (i.wdTimeoutMs < 1) || decide (1000 < i.wdTimeoutMs))) ||
  (bodies.any fun b => (if b = 0 then i.boxByte 0 0 != 0xFF else decide (b ≤ i.boxByte b 0)) || decide (6 < i.boxByte b 1) ||
    decide ((i.boxByte b 1 = 0) ≠ (b = 0))) ||
  (chans.any fun c => decide (13 < i.chanByte c 0) || decide (src c % 4 ≠ 0) ||
    (if i.safetyKind = 0 then decide (0x2C < src c) else decide (0x3C < src c)) ||
    decide (2 < i.chanByte c 2) || decide (1 < i.chanByte c 3) || decide (i.chanScale c ≤ 0) ||
    (List.range c).any fun d => i.chanByte d 0 == i.chanByte c 0)

/-- A layer of a type that a SAFETY_COPY stream is bound to (R379). -/
def copiedLayer (i : Image) (l ty : Nat) : Bool :=
  decide (l < i.layerCount) && i.layerType l == ty && i.streamIds.any fun d => i.streamLayer d == l && bitOf (i.streamFlags d) 0

/-- R67: every envelope value and HITCH_MAX lies within the SAFETY limit of the same quantity, exactly. -/
def envelopeOut (i : Image) : Bool :=
  let fams := List.range i.familyCount
  (fams.any fun f => (List.range (envCount i)).any fun j =>
    if envIsMin i j then !fracLe (qFrac (i.limit j)) (f32Frac (i.famEnv f j)) else !fracLe (f32Frac (i.famEnv f j)) (qFrac (i.limit j))) ||
  (i.kind == 0 && !fracLe (f32Frac i.hitchMax) (qFrac (i.limit 8)))

/-- The SAFETY phase: R58, R67, R379. -/
def safetyFail (i : Image) : Chk :=
  let f := fun (c : Bool) (r : Nat) => failIf c r 0xD
  let q := checkQuarters i
  firstFail [
    f (decide (Config.sha512 ((i.body 0xD).drop 64) ≠ (i.body 0xD).take 64)) 0x40,
    f (envelopeOut i) 0x41,
    f (safetyFields i) 0x24,
    f (i.safetyKind != i.kind || i.boxCount != i.bodyCount) 0x24,
    f (!copiedLayer i i.occLayer 0 || (i.predLayer != 0xFF && !copiedLayer i i.predLayer 4)) 0x24,
    f (decide (2621440 < gridBytes i)) 0x24,
    f (decide (63 * i.slotPeriodUs < 2 * i.periodUs) || decide (1000 * i.fbHorizonMs < 63 * i.slotPeriodUs)) 0x24,
    f (decide (4000 * i.verifyUs < verifyNeed i)) 0x21,
    f (decide (4000 * (i.searchUs + i.refineUs) < 4000 * (i.admitCloseUs + 41) + q.1 + q.2)) 0x21]

end Sys2Proof.Machine
end

