-- ==== Sys2Proof/Machine/LoadBulk.lean ====
section
/-! DEFINITION. The content checks of bulk data once their digest has verified: ROADMAP and SWEEP_INDEX (R217) and WEIGHTS
(R264), with the fields of reference regions (R59). -/

namespace Sys2Proof.Machine

namespace Image

/-- BULK_LENGTH, SOURCES, CHEST_OFFSET, PUSH_TIMEOUT_MS and BULK_ID of a bulk section (Table 2-12). -/
def bulkLength (i : Image) (t : Nat) : Nat := u64 (i.body t) 0x40
def bulkSources (i : Image) (t : Nat) : Nat := byteAt (i.body t) 0x48
def chestOffset (i : Image) (t : Nat) : Nat := u64 (i.body t) 0x50
def pushTimeoutMs (i : Image) (t : Nat) : Nat := u32 (i.body t) 0x60
def bulkId (i : Image) (t : Nat) : Nat := u32 (i.body t) 0x64
/-- The bulk sections to fetch, in ascending type (R60). -/
def bulkTypes (i : Image) : List Nat := [9, 0xA, 0xB].filter i.has

end Image

/-- Fields of a reference region outside Table 2-12: reported as LIMIT of the section when its fetch begins. -/
def regionBad (i : Image) (t : Nat) : Bool :=
  let b := i.body t
  b.length != 128 || i.countOf t != 0 || i.bulkLength t == 0 || i.bulkSources t == 0 || decide (7 < i.bulkSources t) ||
  !decide (byteAt b 0x49 ∈ [0, 1, 0xFF]) || !zeroAt b 0x4A 6 || !zeroAt b 0x68 24 || decide (i.pushTimeoutMs t < 1) ||
  decide (60000 < i.pushTimeoutMs t) || (bitOf (i.bulkSources t) 0 && decide (i.chestOffset t < i.length)) ||
  (i.bulkTypes.any fun x => x != t && i.bulkId x == i.bulkId t)

/-- FP16 finite. -/
def f16Finite (h : Nat) : Bool := fp16.finite h

/-- R217 on the ROADMAP data alone. -/
def roadmapBad (i : Image) (search : Nat) (b : List Byte) : Bool :=
  let nn := Road.nodeCount b
  let ne := Road.edgeCount b
  let nodes := List.range nn
  let edges := List.range ne
  let no := u64 b 0x48
  let eo := u64 b 0x50
  let finQ := fun (w : Word) => f32Finite w
  let used := if i.kind = 0 then [3, 4, 5] else List.range 9
  let occ := Road.ledgerLayer b
  let cost := Road.costLayer b
  u32 b 0 != 0x504D4452 || u16 b 4 != 1 || decide (byteAt b 7 / 2 ≠ 0) || !zeroAt b 0x60 32 ||
  decide (nn < 1) || decide (1048576 < nn) || decide (ne < 1) || decide (4194304 < ne) || decide (Road.pathK b < 1) ||
  decide (64 < Road.pathK b) || decide (Road.entryMax b < 1) || decide (64 < Road.entryMax b) || decide (32767 < Road.shiftTol b) ||
  decide (Road.pathReserveUs b < 5) || decide (200 < Road.pathReserveUs b) || !f32Pos (Road.delta b) || !f32Pos (Road.costScale b) ||
  !f32Finite (Road.costOffset b) || (i.kind == 1 && decide (Road.tolV b ≠ 0)) || decide (no % 64 ≠ 0) || decide (eo % 64 ≠ 0) ||
  decide (b.length < 128) || decide (b.length < no + 48 * nn) || decide (b.length < eo + 32 * ne) ||
  (nodes.any fun n => decide (u16 b (no + 48 * n + 6) / 4 ≠ 0) || !f32Le 0 (Road.terminal b n) ||
    (i.kind == 0 && !zeroAt b (no + 48 * n + 0x24) 12)) ||
  (edges.any fun e => decide (byteAt b (eo + 32 * e + 9) / 2 ≠ 0) || !f16Finite (Road.staticCost b e) || bitOf (Road.staticCost b e) 15 ||
    !zeroAt b (eo + 32 * e + 0x12) 2 || !zeroAt b (eo + 32 * e + 0x18) 8 || decide (Road.edgeCells b e < 1) ||
    decide (65535 < Road.edgeCells b e) || (List.range 3).any fun p =>
      f16Finite (Road.edgeU b e p) && !(f32Le 0 (f16ToF32 (Road.edgeU b e p)) && f32Le (f16ToF32 (Road.edgeU b e p)) (f32Of 1))) ||
  byteAt b 6 != i.kind || (edges.any fun e => decide (i.familyCount ≤ Road.edgeFamily b e) ||
    (List.range 3).any fun p => !f16Finite (Road.edgeU b e p)) ||
  (nodes.any fun n => used.any fun j => !finQ (Road.nodeWord b n j)) ||
  ((List.range 3).any fun a => Road.indexSize b a != i.cellsAlong a) || u32 b 0x1C != i.cellSize ||
  !(decide (occ < i.layerCount) && i.layerType occ == 0) || !(cost == 0xFF || (decide (cost < i.layerCount) && i.layerType cost == 2)) ||
  (edges.any fun e => decide (nn ≤ Road.edgeFrom b e) || decide (nn ≤ Road.edgeTo b e)) ||
  (edges.any fun e => decide (0 < e) && decide (Road.edgeFrom b e < Road.edgeFrom b (e - 1))) ||
  (nodes.any fun n =>
    let outs := edges.filter fun e => Road.edgeFrom b e == n
    outs.length != Road.outDegree b n || (outs.head? != none && outs.head? != some (Road.firstEdge b n))) ||
  decide (edges.foldl (fun a e => a + Road.edgeCells b e) 0 ≠ Road.totalEntries b) ||
  decide (search - i.admitCloseUs ≤ Road.pathReserveUs b)

/-- R217 on the SWEEP_INDEX data against the ROADMAP data `r`. -/
def indexBad (i : Image) (r b : List Byte) : Bool :=
  let ne := Road.edgeCount r
  let np := u32 b 0x10
  let dir := u64 b 0x20
  let cells := (List.range np).flatMap fun p => (List.range 4096).map fun c => indexList b (p * 4096 + c)
  let off := fun p => u64 b (dir + 8 * p)
  u32 b 0 != 0x58444953 || u16 b 4 != 1 || !zeroAt b 6 2 || !zeroAt b 0x14 4 || !zeroAt b 0x28 24 ||
  u64 b 8 != Road.roadmapId r || np != i.panelCount || u64 b 0x18 != Road.totalEntries r || decide (b.length < dir + 8 * np) ||
  ((List.range np).any fun p => off p != 0 && (decide (off p % 8 ≠ 0) || u32 b (off p) != 0 ||
    decide (b.length < off p + 4 * 4097 + 4 * u32 b (off p + 4 * 4096)) ||
    (List.range 4096).any fun c => decide (u32 b (off p + 4 * c + 4) < u32 b (off p + 4 * c)))) ||
  (cells.any fun l => (l.any fun e => decide (ne ≤ e)) || (l.zip (l.drop 1)).any fun q => decide (q.2 ≤ q.1)) ||
  ((List.range ne).any fun e => decide ((cells.foldl (fun a l => a + (l.filter (· == e)).length) 0) ≠ Road.edgeCells r e))

/-- R264 on the WEIGHTS data. -/
def weightsBad (i : Image) (b : List Byte) : Bool :=
  let ne := u32 b 0x10
  let consts := (List.range i.tensorCount).filter fun t => i.tensorKind t == 1
  let idx := fun t => i.tensorField t 0x18 4
  u32 b 0 != 0x54475457 || u16 b 4 != 1 || u64 b 8 != i.networkId || decide (b.length < 64 + 16 * ne) ||
  ((List.range ne).any fun k => decide (b.length < weightOffset b k + weightLength b k) ||
    decide (weightOffset b k % 4096 ≠ 0)) ||
  (consts.any fun t => decide (ne ≤ idx t) || weightLength b (idx t) != i.tensorBytes t) ||
  (consts.any fun t => i.tensorFormat t == 5 &&
    let q := i.tensorField t 0x1C 2
    let d := tensorDims i t
    i.tensorSize q != ceilDiv (d.getLastD 1) 32 * (d.dropLast.foldl (· * ·) 1))

/-- The content check of a verified bulk section: LIMIT under its type (R217, R264). -/
def contentFail (i : Image) (got : List BulkData) (t : Nat) (data : List Byte) : Chk :=
  let bad := match t with
    | 9 => weightsBad i data
    | 0xA => roadmapBad i i.searchUs data
    | 0xB => indexBad i (bulkIn got 0xA) data
    | _ => false
  failIf bad 0x24 t

end Sys2Proof.Machine
end

