-- ==== Sys2Proof/Machine/Load.lean ====
section
/-! DEFINITION. Slots (R71, R72, R81, R587), load_image (R66) from its HEADER phase to DONE with the bulk fetch (R60 to R62),
and what the load of an image does (R627, R134, R144, R227, R309, R380, R403, R449, R454, R467). -/

namespace Sys2Proof.Machine

/-! ## Slots -/

/-- A pushed or received slot as bytes from its header on, seen as a slot; its STATE is not read (R587). -/
def stagedSlot (m : List Host.Cell) : Slot :=
  { state := 0xA5
    header := m.filter fun c => decide (c.1 < 256)
    content := (m.filter fun c => decide (0x1000 ≤ c.1)).map fun c => (c.1 - 0x1000, c.2) }

/-- Boot source of the straps (R422): 0 Chest, 1 xSPI, 2 push, 3 Tenon upstream. -/
def State.bootSource (s : State) : Nat := s.get Reg.SAFE_SP_STRAPS.BOOT

/-- Slot 0 (A) or 1 (B) of the boot source (Table 21-3). A pushed or received slot counts as B, as it does in
SEC_BOOT_ATTEMPTS; the other slot is then Chest slot A (DESIGN CHOICE). -/
def State.slotOf (s : State) (i : Nat) : Slot := match s.bootSource, i with
  | 1, 0 => s.cfg.xspiA
  | 1, _ => s.cfg.xspiB
  | _, 0 => s.cfg.slotA
  | 0, _ => s.cfg.slotB
  | _, _ => stagedSlot s.cfg.staged

/-- The 256 bytes of the slot header. -/
def Slot.head (sl : Slot) : List Byte := flashRead sl.header 0 256
/-- SEQUENCE, IMAGE_LENGTH and USED_LENGTH (Table 3-1). -/
def Slot.sequence (sl : Slot) : Nat := u64 sl.head 8
def Slot.imageLength (sl : Slot) : Nat := u32 sl.head 0x10
def Slot.usedLength (sl : Slot) : Nat := u32 sl.head 0x14
/-- IMAGE_DIGEST. -/
def Slot.imageDigest (sl : Slot) : List Byte := (sl.head.drop 0x20).take 64
/-- The bytes of the image. -/
def Slot.image (sl : Slot) : List Byte := flashRead sl.content 0 sl.imageLength

/-- A sequence is valid under Table 3-1. -/
def seqValid (q : Nat) : Bool := q != 0 && q != 2 ^ 64 - 1

/-- Validity of a slot under R81 but for its load. -/
def Slot.valid (sl : Slot) (floor : Nat) : Bool :=
  let h := sl.head
  sl.state == 0xA5 && u32 h 0 == 0x544F4C53 && u16 h 4 == 1 && seqValid sl.sequence &&
  (crc64 (h.take 0xF8)).toNat == u64 h 0xF8 && decide (sl.imageLength ≤ sl.usedLength) && decide (sl.usedLength ≤ 67104768) &&
  decide (Config.sha512 sl.image = sl.imageDigest) && decide (floor ≤ sl.sequence)

/-- A slot is excluded by the boot-attempt rules (R593). -/
def State.excluded (s : State) (i : Nat) : Bool :=
  if i = 0 then s.flag Reg.SEC_BOOT_ATTEMPTS.A_EXCLUDED else s.flag Reg.SEC_BOOT_ATTEMPTS.B_EXCLUDED

/-- A candidate of select_slot: not excluded and valid but for its load. -/
def State.candidate? (s : State) (i : Nat) : Bool :=
  !s.excluded i && (s.slotOf i).valid ((s.floorValue).getD 0)

/-- The slots in the order in which select_slot tries them. -/
def State.slotOrder (s : State) : List Nat :=
  let a := s.candidate? 0
  let b := s.candidate? 1
  if 2 ≤ s.bootSource then [1]
  else if b && (!a || decide ((s.slotOf 0).sequence < (s.slotOf 1).sequence)) then [1, 0] else [0, 1]

/-- CONFIG_SLOT_STATE shows the STATE bytes of the Chest slots, and their validity at the last selection. -/
def showSlots (s : State) : State :=
  (s.set Reg.CONFIG_SLOT_STATE.A_STATE s.cfg.slotA.state).set Reg.CONFIG_SLOT_STATE.B_STATE s.cfg.slotB.state

/-- A_VALID and B_VALID after a selection or a switch check. -/
def showValid (s : State) : State :=
  (s.set Reg.CONFIG_SLOT_STATE.A_VALID (bit (s.candidate? 0))).set Reg.CONFIG_SLOT_STATE.B_VALID (bit (s.candidate? 1))

/-! ## load_image -/

/-- Key in slot `k` of the key table (R583). -/
def State.signKey (s : State) (k : Nat) : Option (List Byte) := (s.sec.keys.find? fun p => p.1 == k).map (·.2)

/-- The HEADER, SECTIONS and SIGNATURE phases on the bytes of a slot. -/
def imagePhases (s : State) (sl : Slot) : Except LoadFail Image :=
  match headerFail (flashRead sl.content 0 256) sl.imageLength with
  | some f => .error f
  | none => match sectionsOf sl.image with
    | .error f => .error f
    | .ok i => match signatureFail i s.signKey with
      | some f => .error f
      | none => .ok i

/-- The phases of R66 up to CONSISTENCY. -/
def loadPhases (s : State) (sl : Slot) : Except LoadFail Image :=
  match imagePhases s sl with
  | .error f => .error f
  | .ok i => match manifestFail s i with
    | some f => .error f
    | none => match consistencyFail s i with
      | some f => .error f
      | none => .ok i

/-- CONFIG_LOAD_STATUS PHASE codes (Table 2-14). -/
def phaseBulk : Nat := 6
def phasePush : Nat := 7
def phaseDone : Nat := 9
def phaseFailed : Nat := 0xA

/-- REASON, SECTION_TYPE and ITEM of a failure. -/
def showFail (s : State) (f : LoadFail) : State :=
  let s := s.set Reg.CONFIG_LOAD_STATUS.REASON f.reason
  (s.set Reg.CONFIG_LOAD_DETAIL.SECTION_TYPE f.type).set Reg.CONFIG_LOAD_DETAIL.ITEM f.item

/-- The load attempt fails (R66): its reason is reported and nothing takes effect (R68). -/
def failLoad (s : State) (f : LoadFail) : State :=
  let s := (showFail (s.set Reg.CONFIG_LOAD_STATUS.PHASE phaseFailed) f).set Reg.CONFIG_BULK_WAIT.BULK_ID 0
  { s with cfg := { s.cfg with loading := none, loadResult := f.reason, next := none, nextBulk := [] } }

/-- ETH_PUSH_NEXT written. -/
def setPushNext (s : State) (v : Nat) : State := s.set64 Reg.ETH_PUSH_NEXT_LO.NEXT_LO Reg.ETH_PUSH_NEXT_HI.NEXT_HI v
/-- ETH_PUSH_NEXT. -/
def State.pushNext (s : State) : Nat := s.get64 Reg.ETH_PUSH_NEXT_LO.NEXT_LO Reg.ETH_PUSH_NEXT_HI.NEXT_HI

/-- The first source at or after `from_` that a bulk section may come from (Table 2-12 SOURCES). -/
def nextSource (i : Image) (t from_ : Nat) : Option Nat := [0, 1, 2].find? fun k => decide (from_ ≤ k) && bitOf (i.bulkSources t) k

/-- The load goes on with source `from_` or later of its first section still to fetch (R60 to R62); with none left to fetch,
the SAFETY phase ends it (R66). -/
def goOn (s : State) (l : Loading) (from_ : Nat) : State := match l.todo with
  | [] => match safetyFail l.image with
    | some f => failLoad s f
    | none =>
      let s := (s.set Reg.CONFIG_LOAD_STATUS.PHASE phaseDone).set Reg.CONFIG_BULK_WAIT.BULK_ID 0
      { s with cfg := { s.cfg with loading := none, loadResult := 0, next := some l.image, nextBulk := l.got } }
  | t :: _ =>
    if regionBad l.image t then failLoad s ⟨0x24, t, 0xFFFF⟩
    else match nextSource l.image t from_ with
      | none => failLoad s ⟨if l.mismatch then 0x30 else 0x31, t, 0xFFFF⟩
      | some k =>
        let push := decide (k = 2)
        let s := s.set Reg.CONFIG_LOAD_STATUS.PHASE (if push then phasePush else phaseBulk)
        let s := s.set Reg.CONFIG_BULK_WAIT.BULK_ID (if push then l.image.bulkId t else 0)
        let s := if push then setPushNext s 0 else s
        { s with cfg := { s.cfg with loading := some { l with src := k, pushed := [] } } }

/-- A load attempt on slot `i` begins and runs its phases up to the first bulk fetch (R66, R69). -/
def beginLoad (s : State) (i : Nat) : State :=
  let s := (s.set Reg.CONFIG_LOAD_STATUS.SLOT i).set Reg.CONFIG_LOAD_STATUS.PHASE 1
  let s := showFail s ⟨0, 0, 0xFFFF⟩
  let s := { s with cfg := { s.cfg with loading := none, next := none, nextBulk := [] } }
  match loadPhases s (s.slotOf i) with
  | .error f => failLoad s f
  | .ok img =>
    goOn s { slot := i, image := img, todo := img.bulkTypes, src := 0, mismatch := false, pushed := [], got := [] } 0

/-- Data of the section being fetched arrive from the source in use, or the source cannot be read (R60, R61): data whose
length and digest are right are checked (R217, R264) and kept. -/
def bulkData (s : State) (l : Loading) (data : Option (List Byte)) : State := match l.todo with
  | [] => s
  | t :: rest => match data with
    | none => goOn s l (l.src + 1)
    | some d =>
      let len := decide (d.length = l.image.bulkLength t)
      if len && decide (Config.sha512 d = (l.image.body t).take 64) then
        match contentFail l.image l.got t d with
        | some f => failLoad s f
        | none => goOn s { l with todo := rest, mismatch := false, got := l.got ++ [{ ty := t, data := d }] } 0
      else goOn s { l with mismatch := l.mismatch || len } (l.src + 1)

/-! ## The load of an image takes effect -/

/-- Iterations that fit a refine that starts 3 us after T_search (R308). -/
def fitIter (i : Image) : Nat :=
  let p := i.solverPhases false
  let fixed := p.1 + p.2.2.2.2
  let room := 1200 * (i.refineUs - 3)
  if i.refineUs < 3 ∨ room < fixed then 0 else min 0xFFFF ((room - fixed) / max 1 (i.iterCycles false))

/-- One field of the 32 stream registers. -/
def setStreams (f : Nat → Field) (v : Nat → Nat) (s : State) : State := (List.range 32).foldl (fun s d => s.set (f d) (v d)) s

/-- POWER_POLICY of the image (Table 20-7), or the defaults of R576. -/
def Image.policy (i : Image) (o n dflt : Nat) : Nat := if i.has 0xF then le (i.body 0xF) o n else dflt
/-- DOZE_ALLOW, AUTO_ENTRY, AUTO_SLEEP, THERMAL_WAKE. -/
def Image.powerFlags (i : Image) : Nat := i.policy 0 1 1
/-- IDLE_HOLD, DOZE_MIN_US, AUTO_MS, POWER_CAP_W, THROTTLE_TJ and THERM_WAKE. -/
def Image.dozeMinUs (i : Image) : Nat := i.policy 6 2 50
def Image.autoMs (i : Image) : Nat := i.policy 8 4 0
def Image.powerCap (i : Image) : Nat := i.policy 0xC 2 260
def Image.throttleTj (i : Image) : Nat := i.policy 0xE 2 1150
def Image.thermWake (i : Image) : Nat := i.policy 0x14 2 1050

/-- Retention masks of logical tile `n`: DOZE_BANKS and SLEEP_BANKS (Table 20-8); bank 0 always (R559, R576). -/
def Image.retain (i : Image) (n : Nat) : Nat × Nat :=
  match (List.range (i.countOf 0xF)).find? fun j => byteAt (i.body 0xF) (32 + 8 * j) == n with
  | some j => (u16 (i.body 0xF) (32 + 8 * j + 2) ||| 1, u16 (i.body 0xF) (32 + 8 * j + 4) ||| 1)
  | none => (1, 1)

/-- The PWR and wake fields that an image sets (Tables 15-9 and 20-10). -/
def installPower (s : State) (i : Image) : State :=
  let ports := i.policy 1 1 s.die.ports
  let s := (s.set Reg.PWR_WAKE_CTL.ETH_PORTS ports).set Reg.PWR_WAKE_CTL.KNOCK_ACCEPT (i.policy 2 1 0 % 16)
  let s := (s.set Reg.PWR_WAKE_CTL.KNOCK_SEND (i.policy 2 1 0 / 16)).set Reg.PWR_WAKE_CTL.THERMAL_WAKE (bit (bitOf i.powerFlags 3))
  let all := (List.range 4).foldl (fun m p => if bitOf ports p then m + 7 * 8 ^ p else m) 0
  let s := s.set Reg.PWR_WAKE_ETH.MODES (i.policy 0x16 2 all)
  let wake := i.policy 0x10 4 0
  let s := (s.set Reg.SAFE_SP_WAKE_CFG.ENABLE (wake % 256)).set Reg.SAFE_SP_WAKE_CFG.POLARITY (wake / 256 % 256)
  let s := s.set Reg.SAFE_SP_WAKE_CFG.MODE (wake / 65536 % 256)
  (List.range 32).foldl (fun s n =>
    let r := i.retain n
    (s.set (Reg.PWR_TILE_RETAIN.DOZE_BANKS n) r.1).set (Reg.PWR_TILE_RETAIN.SLEEP_BANKS n) r.2) s

/-- The register fields loaded at section load (R627). -/
def installFields (s : State) (i : Image) (bulk : List BulkData) : State :=
  let s := (s.set Reg.FRAME_PERIOD.PERIOD_US i.periodUs).set64 Reg.FRAME_ORIGIN_LO.ORIGIN_LO Reg.FRAME_ORIGIN_HI.ORIGIN_HI i.frameOrigin
  let s := (s.set Reg.FRAME_SEARCH_DEADLINE.SEARCH_US i.searchUs).set Reg.FRAME_REFINE_BUDGET.REFINE_US i.refineUs
  let s := s.set Reg.FRAME_VERIFY_BUDGET.VERIFY_US i.verifyUs
  let s := (s.set Reg.FRAME_SPEC_CTL.MODE (bit i.quotaMode)).set Reg.FRAME_SPEC_CTL.RUNAHEAD i.runahead
  let s := s.set Reg.FRAME_SPEC_CTL.ENABLE (bit (i.runahead != 0))
  let s := (s.set Reg.WORLD_LAYOUT_INFO.STREAMS i.streamCount).set Reg.WORLD_LAYOUT_INFO.LAYERS i.layerCount
  let s := s.set Reg.WORLD_LAYOUT_INFO.SHAPE i.shape
  let s := setStreams Reg.WORLD_STREAM_CTL.PARTITION i.streamPartition s
  let s := setStreams Reg.WORLD_STREAM_CTL.LAYER i.streamLayer s
  let s := setStreams Reg.WORLD_STREAM_CTL.STALE_UNKNOWN (fun d => bit (bitOf (i.streamFlags d) 1)) s
  let s := setStreams Reg.WORLD_STREAM_CTL.SAFETY_COPY (fun d => bit (bitOf (i.streamFlags d) 0)) s
  let s := setStreams Reg.WORLD_STREAM_CTL.ENABLE (fun d => bit (bitOf (i.streamFlags d) 2)) s
  let s := s.set Reg.ORDER_K.K i.topK
  let s := if i.has 0xC then
      let s := (s.set Reg.SOLVER_PROBLEM_INFO.NC i.nc).set Reg.SOLVER_PROBLEM_INFO.NU i.nu
      let s := (s.set Reg.SOLVER_PROBLEM_INFO.NX i.nx).set Reg.SOLVER_PROBLEM_INFO.PRECISION (bit i.solver32)
      let s := s.set Reg.SOLVER_PROBLEM_INFO.N i.horizon
      (s.set Reg.SOLVER_FIT_ITER.FIT (fitIter i)).set Reg.SOLVER_ITER_CYCLES.CYCLES (i.iterCycles false)
    else s
  let s := (s.set Reg.JIG_AFFINITY.THRESHOLD i.affinity).set Reg.JIG_TRACE_CTL.ENABLE i.traceMask
  let road := bulkIn bulk 0xA
  let s := if i.has 0xA then
      (s.set Reg.LEDGER_EDGE_COUNT.EDGES (Road.edgeCount road)).set Reg.LEDGER_NODE_COUNT.NODES (Road.nodeCount road)
    else s
  let s := s.set Reg.SAFE_VERIFY_NEED.US (ceilDiv (verifyNeed i) 4000)
  installPower s i

/-- Session keys are erased (R454, R586). -/
def eraseKeys (s : State) : State :=
  (List.range 8).foldl (fun s p => if (s.part p).key.isSome ∨ (s.part p).oldKey.isSome then
    s.setPart p { s.part p with key := none, oldKey := none } else s) s

/-- The sequence state of every partition and stream restarts (R134, R449). -/
def restartSequences (s : State) : State :=
  let s := { s with eth := { s.eth with parts := s.eth.parts.map (fun (p : Nat × PartSt) => (p.1, { p.2 with started := false })) } }
  let s := (List.range 8).foldl (fun s p => (s.set (Reg.ETH_PART_RX_SEQ.SEQ p) 0).set (Reg.ETH_PART_TX_SEQ.SEQ p) 0) s
  { s with world := { s.world with streams := [], ego := {} } }

/-- The main channel starts afresh from an image load or the end of a replay: REBASE (R144), ledger rebuild with cause LOAD
(R227), cold refine (R309), an anchor (R522). -/
def rebase (s : State) : State :=
  let s := s.set Reg.WORLD_STATUS.REBASE 1
  let s := s.set Reg.WORLD_STATUS.PHASE 0
  let w : WorldSt := { s.world with
    ingest := [], kept := [], closed := true, active := false, prev := [], snap := [], final := [], changed := [], dirty := []
    allChanged := false, poisoned := [], predicted := none, shift := (0, 0, 0), stale := [], dtDone := [], start := none }
  let s := { s with world := w }
  let s := s.set Reg.WORLD_START_STATUS.REUSE_COUNT 0
  let s := { s with
    ledger := { s.ledger with recs := [], touched := [], sets := [], queue := [], todo := [], applying := none, shift := (0, 0, 0)
                              viewShift := (0, 0, 0), viewPoisoned := [], sentPoisoned := [], rebuild := 0, rebuildAfter := none
                              shifts := [], updates := 0, applied := 0, search := none, closed := none }
    order := {}
    solver := { s.solver with run := none, result := none, warm := none, used := none }
    spec := { s.spec with epochs := [], keptBlocks := [], shifts := [], paths := [], search := none }
    jig := { s.jig with descs := [], next := [], held := [], released := [], cache := [], received := [], abandoned := false
                        disabled := false, proposeDone := none }
    digest := { s.digest with rebaseDue := true, anchorDue := true, anchored := false } }
  let s := (s.set Reg.LEDGER_QUEUE_DEPTH.DEPTH 0).set Reg.LEDGER_STATUS.REBUILD_PENDING 0
  scheduleRebuild (showShift (dropToken s { act := 4, cls := 0, idx := 0 })) 1

/-- A loaded image becomes the running one, from slot `i` with sequence `q`. -/
def install (s : State) (img : Image) (bulk : List BulkData) (i q : Nat) : State :=
  let s := discardAll s
  let s := endJobs s 3 (some 3)
  let s := installFields s img bulk
  let s := { s with cfg := { s.cfg with image := some img, bulk := bulk, next := none, nextBulk := [], firstStarted := false
                                        shadowSet := [], committedSet := [] } }
  let s := (s.set Reg.CONFIG_SLOT_ACTIVE.SLOT i).set Reg.CONFIG_SLOT_ACTIVE.LOADED 1
  let s := (s.set Reg.CONFIG_SLOT_ACTIVE.ACCEPTS 0).set64 Reg.CONFIG_ACTIVE_SEQ_LO.SEQ_LO Reg.CONFIG_ACTIVE_SEQ_HI.SEQ_HI q
  let s := restartSequences (eraseKeys s)
  let s := (s.set Reg.SAFE_WINDOW.MAP 0).set Reg.SAFE_VERDICT.DISAGREE 0
  let s := { s with
    safety := { s.safety with gridFree := [], sliceFree := [], copies := [], dropped := [], silent := [], gridEpoch := none
                              measured := none, window := [], prevVerdict := 0 }
    eth := { s.eth with staging := [] }
    sec := { s.sec with aonSeq := q, aonDigest := (s.slotOf i).imageDigest } }
  rebase s

end Sys2Proof.Machine
end

