-- ==== Sys2Proof/Machine/Slots.lean ====
section
/-! DEFINITION. Writing a Chest slot (R73 to R79), and quiescing blocks (R95 to R97). -/

namespace Sys2Proof.Machine

/-! ## Slot commands -/

/-- RESULT of CONFIG_SLOT_STATUS (Table 3-4). -/
def slotResult (s : State) (r : Nat) : State := s.set Reg.CONFIG_SLOT_STATUS.RESULT r

/-- A Chest operation of kind `k` begins: BUSY is set. -/
def chestStart (s : State) (k : Nat) : State :=
  { s.set Reg.CONFIG_SLOT_STATUS.BUSY 1 with cfg := { s.cfg with chestBusy := k } }

/-- It ends with a result. -/
def chestEnd (s : State) (r : Nat) : State :=
  { (slotResult s r).set Reg.CONFIG_SLOT_STATUS.BUSY 0 with cfg := { s.cfg with chestBusy := 0 } }

/-- Chest slot 0 (A) or 1 (B). -/
def State.chestSlot (s : State) (i : Nat) : Slot := if i = 0 then s.cfg.slotA else s.cfg.slotB

/-- The state with a Chest slot written. -/
def State.setChest (s : State) (i : Nat) (sl : Slot) : State :=
  showSlots (if i = 0 then { s with cfg := { s.cfg with slotA := sl } } else { s with cfg := { s.cfg with slotB := sl } })

/-- The slot a write targets: the one that does not hold the running image; with none running, the one slot selection would
try second (R74). -/
def State.writeTarget (s : State) : Nat :=
  if s.cfg.image.isSome then 1 - s.get Reg.CONFIG_SLOT_ACTIVE.SLOT
  else
    let f := (s.floorValue).getD 0
    let ok := fun (i : Nat) => !(decide (s.bootSource = 0) && s.excluded i) && (s.chestSlot i).valid f
    if ok 1 && (!ok 0 || decide ((s.chestSlot 0).sequence < (s.chestSlot 1).sequence)) then 0 else 1

/-- The slot write ends with a result: its token is released (R79). -/
def finishSlotWrite (s : State) (r : Nat) : State :=
  let s := chestEnd s r
  let s := dropToken s { act := 5, cls := 0, idx := 0 }
  { s with cfg := { s.cfg with writing := none, lastBlock := none } }

/-- OPEN (R76): the sequence is checked, a slot-write token taken, and the erase of the target begins. An OPEN on an excluded
slot ends its exclusion (R594). -/
def slotOpen (src : Source) (s : State) : State :=
  if !s.isOwner src then slotResult s 1
  else if s.get Reg.CONFIG_SLOT_STATUS.BUSY = 1 then s
  else
    let q := s.get64 Reg.CONFIG_SLOT_SEQ_LO.SEQ_LO Reg.CONFIG_SLOT_SEQ_HI.SEQ_HI
    let below := fun (sl : Slot) => sl.state == 0xA5 && decide (q ≤ sl.sequence)
    if !seqValid q ∨ below s.cfg.slotA ∨ below s.cfg.slotB ∨ q ≤ (s.floorValue).getD 0 then slotResult s 3
    else
      let t := takeToken s { act := 5, cls := 0, idx := 0 }
      if !t.1 then slotResult t.2 2
      else
        let i := s.writeTarget
        let s := t.2
        let s := if s.bootSource = 0 ∧ s.excluded i then
            (if i = 0 then (s.set Reg.SEC_BOOT_ATTEMPTS.A_EXCLUDED 0).set Reg.SEC_BOOT_ATTEMPTS.A_FAILS 0
             else (s.set Reg.SEC_BOOT_ATTEMPTS.B_EXCLUDED 0).set Reg.SEC_BOOT_ATTEMPTS.B_FAILS 0)
          else s
        let s := chestStart (s.setChest i {}) 1
        { s with cfg := { s.cfg with writing := some i, lastBlock := none } }

/-- SLOT_OPEN (R75, R76). -/
def execSlotOpen (src : Source) (s : State) : Result := .next (written src s (slotOpen src s))

/-- SLOT_ERASE_DONE (R76, R79): MAGIC, SLOT_VERSION and SEQUENCE are written and STATE becomes WRITING. -/
def execSlotEraseDone (chestOk : Bool) (s : State) : Result :=
  match s.cfg.writing with
  | some i =>
    if s.cfg.chestBusy ≠ 1 then .next s
    else if !chestOk then .next (finishSlotWrite (s.setChest i { state := 0x5A }) 8)
    else
      let q := s.get64 Reg.CONFIG_SLOT_SEQ_LO.SEQ_LO Reg.CONFIG_SLOT_SEQ_HI.SEQ_HI
      let h := leBytes 0x544F4C53 4 ++ leBytes 1 2 ++ leBytes 0xFFFF 2 ++ leBytes q 8
      .next (chestEnd (s.setChest i { state := 0x5A, header := flashWrite [] 0 h }) 0)
  | none => .next s

/-- The 4,096 bytes of the write window. -/
def State.windowBytes (s : State) : List Byte := (List.range 1024).flatMap fun i => leBytes (sGet 0 i s.cfg.window) 4

/-- The write of the window's last word programs a block (R77). -/
def slotDataBlock (src : Source) (value : Word) (s : State) : State :=
  if !s.isOwner src then slotResult s 1
  else if s.get Reg.CONFIG_SLOT_STATUS.BUSY = 1 then s
  else if s.cfg.writing.isNone then slotResult s 0xB
  else
    let s := { s with cfg := { s.cfg with window := sSet 0 1023 value.toNat s.cfg.window } }
    let o := s.get Reg.CONFIG_SLOT_WOFFSET.WOFFSET
    let late : Bool := match s.cfg.lastBlock with
      | some p => decide (o ≤ p)
      | none => false
    if o % 4096 ≠ 0 ∨ late then slotResult s 4
    else if 67104768 < o + 4096 then slotResult s 5
    else chestStart { s with cfg := { s.cfg with lastBlock := some o } } 2

/-- SLOT_DATA_BLOCK (R75, R77). -/
def execSlotDataBlock (src : Source) (value : Word) (s : State) : Result := .next (written src s (slotDataBlock src value s))

/-- SLOT_BLOCK_PROGRAMMED (R77, R79): the block stands in the slot, or a Chest error ends the write. -/
def execSlotBlockProgrammed (chestOk : Bool) (s : State) : Result :=
  match s.cfg.writing, s.cfg.lastBlock with
  | some i, some o =>
    if s.cfg.chestBusy ≠ 2 then .next s
    else if !chestOk then .next (finishSlotWrite s 8)
    else
      let sl := s.chestSlot i
      .next (chestEnd (s.setChest i { sl with content := flashWrite sl.content o s.windowBytes }) 0)
  | _, _ => .next s

/-- CLOSE (R78): the header fields are written and the read-back begins. -/
def slotClose (src : Source) (s : State) : State :=
  if !s.isOwner src then slotResult s 1
  else if s.get Reg.CONFIG_SLOT_STATUS.BUSY = 1 then s
  else match s.cfg.writing with
    | none => slotResult s 0xB
    | some i =>
      let sl := s.chestSlot i
      let dig := (List.range 16).flatMap fun k => leBytes (s.get (Reg.CONFIG_SLOT_DIGEST.DIGEST k)) 4
      let h := flashWrite sl.header 0x10 (leBytes (s.get Reg.CONFIG_SLOT_LENGTH.LENGTH) 4 ++ leBytes (s.get Reg.CONFIG_SLOT_USED.USED) 4)
      let h := flashWrite h 0x20 dig
      let h := flashWrite h 0xF8 (leBytes (crc64 (flashRead h 0 0xF8)).toNat 8)
      chestStart (s.setChest i { sl with header := h }) 3

/-- SLOT_CLOSE (R75, R78). -/
def execSlotClose (src : Source) (s : State) : Result := .next (written src s (slotClose src s))

/-- SLOT_CLOSE_VERIFIED (R78, R79): the digest and the first three phases of R66 are checked on the read-back image. -/
def execSlotCloseVerified (chestOk : Bool) (s : State) : Result :=
  match s.cfg.writing with
  | some i =>
    if s.cfg.chestBusy ≠ 3 then .next s
    else
      let sl := s.chestSlot i
      if !chestOk then .next (finishSlotWrite s 8)
      else if Config.sha512 sl.image ≠ sl.imageDigest then .next (finishSlotWrite s 6)
      else match imagePhases s sl with
        | .error f =>
          .next (finishSlotWrite ((s.set Reg.CONFIG_LOAD_DETAIL.SECTION_TYPE f.type).set Reg.CONFIG_LOAD_DETAIL.ITEM f.item) 7)
        | .ok _ => .next (finishSlotWrite (s.setChest i { sl with state := 0xA5 }) 0)
  | none => .next s

/-- ABORT (R79). -/
def slotAbort (src : Source) (s : State) : State :=
  if !s.isOwner src then slotResult s 1
  else if s.get Reg.CONFIG_SLOT_STATUS.BUSY = 1 then s
  else if s.cfg.writing.isNone then slotResult s 0xB
  else finishSlotWrite s 0

/-- SLOT_ABORT (R75, R79). -/
def execSlotAbort (src : Source) (s : State) : Result := .next (written src s (slotAbort src s))

/-! ## Quiesce -/

/-- Blocks of the frame path, as bits of CONFIG_QUIESCE_REQ: WORLD, JIG, ORDER, SOLVER, LEDGER and HBM (R95). -/
def framePathBlocks : List Nat := [0, 1, 2, 3, 4, 13]

/-- A block may report QUIESCED: on the frame path only during a frame hold; DIGEST while no capture record is written and no
replay runs (R95). -/
def State.mayQuiesce (s : State) (b : Nat) : Bool :=
  if framePathBlocks.contains b then s.cfg.held
  else if b = 14 then s.digest.replay.isNone && (s.cfg.held || !s.flag Reg.DIGEST_CAP_CTL.ENABLE) else true

/-- A block reports QUIESCED. -/
def setQuiesced (s : State) (b : Nat) : State :=
  let q := s.get Reg.CONFIG_QUIESCE_STATUS.QUIESCED
  s.set Reg.CONFIG_QUIESCE_STATUS.QUIESCED (q ||| 2 ^ b)

/-- A write of CONFIG_QUIESCE_REQ (R95, R96): blocks whose bit is cleared return to service; a block off the frame path that
may quiesce does so at once. -/
def quiesceRequest (src : Source) (mask : Nat) (s : State) : State :=
  if !s.isOwner src then s
  else
    let m := mask % 2 ^ 15
    let s := s.set Reg.CONFIG_QUIESCE_REQ.REQ m
    let s := s.set Reg.CONFIG_QUIESCE_STATUS.QUIESCED (s.get Reg.CONFIG_QUIESCE_STATUS.QUIESCED &&& m)
    (List.range 15).foldl (fun s b =>
      if bitOf m b ∧ !framePathBlocks.contains b ∧ s.mayQuiesce b then setQuiesced s b else s) s

/-- QUIESCE_REQUEST (R95, R96). -/
def execQuiesceRequest (src : Source) (mask : Nat) (s : State) : Result := .next (written src s (quiesceRequest src mask s))

/-- BLOCK_QUIESCED (R95): a block that was asked to has finished its work in progress. -/
def execBlockQuiesced (block : Nat) (s : State) : Result :=
  if 15 ≤ block then .fault .noSuchUnit
  else .next (if bitOf (s.get Reg.CONFIG_QUIESCE_REQ.REQ) block ∧ s.mayQuiesce block then setQuiesced s block else s)

end Sys2Proof.Machine
end

