-- ==== Sys2Proof/Machine/Maint.lean ====
section
/-! DEFINITION. Faults and maintenance (chapter 19): errors detected and handled (R528 to R531, R541), replays (R532, R533),
retirement (R535), field tests (R536 to R539), scrubs and trims (R548, R553), and the frames that carry failure records and
trace records (R544, R475). -/

namespace Sys2Proof.Machine

/-! ## Retirement -/

/-- The lowest-numbered good physical tile bound to no logical tile (R3, Table 19-1). -/
def State.spareTile (s : State) : Option Nat :=
  (List.range 36).find? fun p => bitOf s.die.tiles p && s.unitGood 0 p && !s.die.bind.contains p

/-- TILE_BIND LOGICAL of every physical tile (R610). -/
def showBinding (s : State) : State :=
  (List.range 36).foldl (fun s p => s.set (Reg.TILE_BIND.LOGICAL p) ((s.die.bind.idxOf? p).getD 0xFF)) s

/-- Spares take the logical numbers of retired tiles, lowest spare first, at a frame boundary (Table 19-3). -/
def rebindTiles (s : State) : State :=
  let s := (List.range s.tiles).foldl (fun s n =>
    if (s.unit 0 (s.phys n)).state = 2 then
      match s.spareTile with
      | some p => { s with die := { s.die with bind := s.die.bind.set n p } }
      | none => s
    else s) s
  showBinding s

/-- A unit is retired (R535), with the effect of Table 19-3. A bound tile without a spare, a ledger group and an HBM channel
are FATAL; a link or port stays down. -/
def retireUnit (s : State) (cls idx mech : Nat) : State :=
  let u := s.unit cls idx
  if u.state = 2 ∨ u.state = 3 then s
  else
    let s := s.setUnit cls idx { u with state := 2, due := false, blocked := false, active := false, clean := 0, slices := 0 }
    let s := showUnit { s with fault := { s.fault with retired := s.fault.retired ++ [(cls, idx)] } } cls idx
    let fatal := detect s (mkError cls idx 3 mech 2)
    match cls with
    | 0 => if s.die.bind.contains idx ∧ s.spareTile.isNone then fatal else s
    | 2 => fatal
    | 5 => fatal
    | 6 => s.set (Reg.TENON_LINK_STATUS.STATE idx) 0
    | 7 =>
      let m := s.get Reg.ETH_STATUS.LINK
      if bitOf m idx then s.set Reg.ETH_STATUS.LINK (m - 2 ^ idx) else s
    | _ => s

/-! ## Errors -/

/-- A unit of Table 19-1, or "outside every zone" (class 11). -/
def unitExists (cls idx : Nat) : Bool := cls == 11 || decide (idx < zoneSize cls)

/-- HBM ECC counters of a channel, and of its stack (R611). -/
def countEcc (s : State) (e : ErrorInfo) : State :=
  let st := e.index / 32
  let ch := e.index % 32
  if e.cls = 0 then (s.inc (Reg.HBM_ECC_CORR.COUNT st)).inc (Reg.HBM_CH_ECC_CORR.COUNT st ch)
  else (s.inc (Reg.HBM_ECC_UNCORR.COUNT st)).inc (Reg.HBM_CH_ECC_UNCORR.COUNT st ch)

/-- Checker of the bank a ledger error's syndrome names (Table 19-7). -/
def bankChecker (e : ErrorInfo) : Nat :=
  64 * e.index + (be (e.syndrome.take 4)) % 64

/-- An uncorrectable error in a checker's bank publishes every record of that checker as STALE and schedules the rebuild
(R229, Table 8-5). -/
def staleBank (s : State) (c : Nat) : State :=
  match s.roadmap with
  | none => s
  | some b =>
    let mine := (List.range (Road.edgeCount b)).filter fun e => e % 256 == c
    let recs := mine.foldl (fun r e => sSet {} e { edgeRec r e with state := 3 } r) s.ledger.recs
    let n := staleCount recs
    let s := (s.set Reg.LEDGER_STALE_RECORDS.STALE n).set Reg.LEDGER_STATUS.STALE_PRESENT (bit (n ≠ 0))
    scheduleRebuild { s with ledger := { s.ledger with recs } } 5

/-- ERROR_DETECTED (R528 to R530, R541): the owning chapter's effects of the error take place at once, and the error is
handled, merged or queued. A tile that becomes SUSPECT takes the actions of R533. -/
def execErrorDetected (e : ErrorInfo) (s : State) : Result :=
  if !unitExists e.zone e.index then .fault .noSuchUnit
  else
    let t := s
    let s := if e.zone = 5 ∧ e.mech = 2 then countEcc s e else s
    let s := match e.panel with
      | some p => if e.zone = 1 ∧ 1 ≤ e.cls ∧ !s.world.poisoned.contains p then
          { s.set Reg.WORLD_STATUS.POISONED 1 with world := { s.world with poisoned := s.world.poisoned ++ [p] } }
        else s
      | none => s
    let s := if e.zone = 2 ∧ e.mech = 1 ∧ 1 ≤ e.cls then staleBank s (bankChecker e) else s
    let s := detect s e
    let s := if e.zone = 9 ∧ e.outcome = 2 then permanentFault s else s
    .next (settleSuspects t s)

/-- Spare ledger banks of a group in use (R219). -/
def State.banksUsed (s : State) (g : Nat) : Nat := s.die.ledgerSpares / 16 ^ g % 16

/-- Good spare banks of a ledger group (R219). -/
def State.spareBanks (s : State) (g : Nat) : Nat := (List.range 4).foldl (fun n b => n + bit (bitOf s.die.banks (68 * g + 64 + b))) 0

/-- A bank of a ledger group that faults permanently is replaced by a spare, and the ledger rebuilds; without a spare the
group is retired (R219, R535). -/
def replaceBank (s : State) (g : Nat) : State :=
  if s.banksUsed g < s.spareBanks g then
    let n := s.die.ledgerSpares + 16 ^ g
    scheduleRebuild ({ s with die := { s.die with ledgerSpares := n } }.set Reg.LEDGER_SPARES.USED n) 5
  else retireUnit s 2 g 1

/-- ERROR_HANDLED (R529, R531, R541): the record of the error in handling is issued with its repeat outcome and test result;
a failed repeat makes the unit SUSPECT, and a SUSPECT record follows the CONTAINED one. The next queued error is taken. -/
def execErrorHandled (outcome test : Nat) (s : State) : Result :=
  match s.fault.handling with
  | none => .next s
  | some h =>
    let t := s
    let h := { h with info := { h.info with outcome } }
    let s := closeError s h test
    let permanent := decide (h.info.cls = 1 ∧ outcome = 2)
    let s := if permanent then makeSuspect (closeError s { h with info := { h.info with cls := 2 } } test) h.info.zone h.info.index else s
    let s := { s with fault := { s.fault with handling := s.fault.queue.head?, queue := s.fault.queue.drop 1 } }
    let s := if h.info.zone = 2 ∧ outcome = 2 ∧ h.info.mech = 1 then replaceBank s h.info.index else s
    .next (settleSuspects t (showHandler s))

/-! ## Replays (R532) -/

/-- The replay of an output released before its tile became SUSPECT: its copy reaches the merge (R286). Where the two
differ, the copy's score is free. -/
def offerCopy (s : State) (img : Image) (d : DoneTask) (equal : Bool) : State :=
  d.outs.foldl (fun s o => match o with
    | .record r =>
      if bitOf r.flags 15 then s
      else if equal then offerRecord s img d.tile r
      else
        let v := s.draw 32
        offerRecord v.2 img d.tile { r with score := v.1 }
    | _ => s) s

/-- REPLAY_COMPARE (R532, R547): the replay of output task number `i` of a SUSPECT tile, counted over those that wait and
then those released, is compared. Equal: the original is released. Else the replay's output is, the error is CONTAINED
with mechanism 14 and the unit is retired. Where no spare tile can take a token, the replay has failed: nothing is
released. -/
def execReplayCompare (tile i : Nat) (equal : Bool) (s : State) : Result :=
  if s.tiles ≤ tile then .fault .noSuchUnit
  else match s.cfg.image with
  | none => .next s
  | some img =>
    let p := s.phys tile
    let all := (s.jig.held.filter fun d => d.tile == tile && d.replay) ++
      s.jig.released.filter fun d => d.tile == tile && !d.outs.isEmpty
    match all[i]? with
    | none => .next s
    | some d =>
      if (s.unit 0 p).state ≠ 1 then .next s
      else
        let free := (List.range 36).filter fun q => bitOf s.die.tiles q && s.unitGood 0 q && !s.die.bind.contains q &&
          !(s.fault.tokens.any fun h => conflicts { act := 8, cls := 0, idx := q } h)
        let ok := !free.isEmpty
        let put := fun (s : State) (outs : List Output) =>
          let s := { s with jig := { s.jig with held := s.jig.held.map fun h =>
            if h.stage = d.stage ∧ h.index = d.index then { h with outs, replay := false } else h } }
          releaseFlow img d.flow s.jig.held.length s
        let s := if !ok then (if d.replay then put (takeToken s { act := 8, cls := 0, idx := 0 }).2 [] else s)
          else if d.replay then put s d.outs else offerCopy s img d equal
        if ok ∧ equal then .next s
        else
          let t := s
          let s := detect s { zone := 0, index := p, cls := 1, mech := 14, syndrome := [], outcome := 4 }
          .next (settleSuspects t (retireUnit s 0 p 14))

/-! ## Field tests -/

/-- A unit's test has ended (R536, R537): 16 passes in a row return a SUSPECT unit to GOOD; a failure makes a GOOD unit
SUSPECT and retires a SUSPECT one. -/
def endTest (s : State) (cls idx : Nat) (pass : Bool) : State :=
  let t := s
  let u := s.unit cls idx
  let v := { u with due := false, blocked := false, active := false, slices := 0, repeating := false, lastTest := some s.frame.now }
  if pass then
    if u.state = 1 then
      if 16 ≤ u.clean + 1 then showUnit (s.setUnit cls idx { v with state := 0, clean := 0 }) cls idx
      else s.setUnit cls idx { v with clean := u.clean + 1 }
    else s.setUnit cls idx v
  else
    let s := detect (s.setUnit cls idx v) (mkError cls idx 2 10 2)
    settleSuspects t (if u.state = 1 then retireUnit s cls idx 10 else s)

/-- FIELD_TEST_DUE (R537). -/
def execFieldTestDue (cls idx : Nat) (s : State) : Result :=
  if !unitExists cls idx ∨ cls = 11 then .fault .noSuchUnit else .next (makeDue s cls idx)

/-- A write to FAULT_TEST_CMD (R538, Table 19-11). -/
def faultTestCmd (src : Source) (value : Word) (s : State) : State :=
  let cls := value.toNat / 256 % 256
  let idx := value.toNat % 256
  let res := fun (s : State) (r : Nat) => s.set Reg.FAULT_TEST_STATUS.RESULT r
  if !s.isOwner src then res s 1
  else if !s.hasTest cls idx then res s 2
  else if (s.unit cls idx).due then res s 3
  else res (makeDue s cls idx) 0

/-- FAULT_TEST_CMD (R538). -/
def execFaultTestCmd (src : Source) (value : Word) (s : State) : Result := .next (written src s (faultTestCmd src value s))

/-- The running slice of a unit ends: its token is released, and a tile's task is freed. -/
def endSlice (s : State) (cls idx : Nat) : State :=
  let s := dropToken s (testToken cls idx)
  if cls = 4 then { s with solver := { s.solver with testing := s.solver.testing.filter (· ≠ idx) } }
  else if cls = 0 then
    match s.die.bind.idxOf? idx with
    | some n => match (s.bound n).find? fun p => p.2.state == 5 && (match p.2.kind with
        | .slice _ => true
        | _ => false) with
      | some p => showAgent (trace (s.setDesc n p.1 {}) 1 2 n p.1 p.2 0) n
      | none => s
    | none => s
  else s

/-- TEST_SLICE_DONE (R536): a failed slice is repeated once; every slice passed passes the test. -/
def execTestSliceDone (cls idx : Nat) (pass : Bool) (s : State) : Result :=
  if !unitExists cls idx ∨ cls = 11 then .fault .noSuchUnit
  else if !s.sliceRuns cls idx then .next s
  else
    let s := endSlice s cls idx
    let u := s.unit cls idx
    if pass then
      if testSlices cls ≤ u.slices + 1 then .next (endTest s cls idx true)
      else .next (admitSlice (s.setUnit cls idx { u with slices := u.slices + 1, repeating := false }) cls idx)
    else if u.repeating then .next (endTest s cls idx false)
    else .next (admitSlice (s.setUnit cls idx { u with repeating := true }) cls idx)

/-- The job that holds a unit moves to another and resumes from its newest checkpoint (R539, R540): a tile's job tasks leave
the tile; a REFINE job goes to the lowest other good engine that is free. -/
def moveJob (s : State) (cls idx : Nat) : State :=
  if cls = 4 then
    let free := s.goodEngines.filter fun e => e != idx && s.unitGood 4 e && !(s.solver.run.any fun r => r.engine == e || r.second == some e) &&
      !(s.eth.jobs.any fun j => j.state == 1 && j.engine == some e)
    match free.head? with
    | none => s
    | some e =>
      { s with eth := { s.eth with jobs := s.eth.jobs.map fun (j : Job) =>
        if j.state = 1 ∧ j.engine = some idx then
          match j.checkpoints.head? with
          | some c => { j with engine := some e, iter := some c.2, iterations := c.1 }
          | none => { j with engine := some e, iter := none, iterations := 0 }
        else j } }
  else match s.die.bind.idxOf? idx with
    | some n => ((s.bound n).filter fun p => match p.2.kind with
        | .job _ => true
        | _ => false).foldl (fun s p => showAgent (s.setDesc n p.1 {}) n) s
    | none => s

/-- TEST_DEFER_LIMIT (R539): a GOOD unit takes no new task until its test has begun; a SUSPECT unit's job is moved, and the
test runs. -/
def execTestDeferLimit (cls idx : Nat) (s : State) : Result :=
  if !unitExists cls idx ∨ cls = 11 then .fault .noSuchUnit
  else
    let u := s.unit cls idx
    if !u.due ∨ (cls ≠ 0 ∧ cls ≠ 4) then .next s
    else if u.state = 0 then .next (s.setUnit cls idx { u with blocked := true })
    else if u.state = 1 then .next (admitSlice (moveJob s cls idx) cls idx)
    else .next s

/-- RETIREMENT_CLEAR (R535): over JTAG with debug unlocked; the unit counts as good again. -/
def execRetirementClear (cls idx : Nat) (s : State) : Result :=
  if !unitExists cls idx ∨ cls = 11 then .fault .noSuchUnit
  else if s.get Reg.SEC_DEBUG_STATUS.STATE ≠ 2 ∨ !s.fault.retired.contains (cls, idx) then .next s
  else
    let s := { s with fault := { s.fault with retired := s.fault.retired.filter (· ≠ (cls, idx)) } }
    .next (showUnit (s.setUnit cls idx { s.unit cls idx with state := 0, clean := 0 }) cls idx)

/-! ## Scrubs and trims -/

/-- HBM stacks of the part (Table 0-1). -/
def State.stacks (s : State) : Nat := if s.die.part = 0 then 2 else 1

/-- HBM_SCRUB (R548): a pass begins under its token, or, where one runs, it has completed. A complete pass counts as the test
of each channel of the stack (Table 19-4). -/
def execHbmScrub (stack : Nat) (s : State) : Result :=
  if s.stacks ≤ stack then .fault .noSuchUnit
  else
    let t : Token := { act := 1, cls := 0, idx := stack }
    if s.fault.tokens.contains t then
      let s := (dropToken s t).set (Reg.HBM_STATUS.SCRUB_ACTIVE stack) 0
      let s := s.inc (Reg.HBM_SCRUB_PASSES.COUNT stack)
      let s := { s with fault := { s.fault with scrubbed := sInsert stack s.frame.now s.fault.scrubbed } }
      .next ((List.range 32).foldl (fun s c => if s.hasTest 5 (32 * stack + c) then endTest s 5 (32 * stack + c) true else s) s)
    else
      let r := takeToken s t
      .next (if r.1 then r.2.set (Reg.HBM_STATUS.SCRUB_ACTIVE stack) 1 else r.2)

/-- Whole units of `unit_` ns since a time, saturating at 32 bits. -/
def sinceThen (now t : Int) (unit_ : Nat) : Nat := min (2 ^ 32 - 1) ((now - t) / (unit_ : Int)).toNat

/-- HBM_SCRUB_HOURS (R611): hours since the latest completed pass; in self-refresh the value at its entry. -/
def State.scrubHours (s : State) (stack : Nat) : Nat :=
  match s.fault.scrubbed.find? fun p => p.1 == stack with
  | some p => if s.flag (Reg.HBM_STATUS.SELF_REFRESH stack) then s.get (Reg.HBM_SCRUB_HOURS.HOURS stack)
    else sinceThen s.frame.now p.2 3600000000000
  | none => s.get (Reg.HBM_SCRUB_HOURS.HOURS stack)

/-- LEDGER_SCRUB (R548): while the ledger is idle, a pass over a group begins under its token, or the one that runs has
completed. It changes no record. -/
def execLedgerScrub (group : Nat) (s : State) : Result :=
  if 4 ≤ group then .fault .noSuchUnit
  else
    let t : Token := { act := 3, cls := 0, idx := group }
    if s.fault.tokens.contains t then .next (dropToken s t)
    else if s.get Reg.LEDGER_STATUS.PHASE ≠ 0 then .next s
    else .next (takeToken s t).2

/-- CLOCK_TRIM (R553): a trim of the CHECKER oscillator begins under its token, or the one that runs has completed. -/
def execClockTrim (s : State) : Result :=
  let t : Token := { act := 7, cls := 0, idx := domChecker }
  if s.fault.tokens.contains t then .next (dropToken s t) else .next (takeToken s t).2

/-! ## Frames to partition 0 -/

/-- Identity hash of a failure signature: of the identity public key, which follows from the part's PUF (R581, Table 19-6). -/
def State.identityHash (s : State) : List Byte :=
  (Config.sha512 (Config.p521Public (Config.identityPrivate s.die.serial))).take 16

/-- FAULT_RECORD_SEND (R544, R475): the oldest record goes to partition 0 once that can receive it. -/
def execFaultRecordSend (t : Nat) (s : State) : Result :=
  let s := { s with frame := { s.frame with now := max s.frame.now t } }
  match s.fault.records with
  | [] => .next s
  | r :: rest =>
    if !s.maySend 0 0x40 then .next s
    else
      let b := signature s.identityHash r
      let s := { s with fault := { s.fault with records := rest } }
      .next (sendFrame s 0 0x40 (epochOf s.curK) none (beBytes b.length 2 ++ beBytes 0 2 ++ padWord b))

/-- TRACE_FRAME_SEND (R475, Table 16-13): up to 64 records of the ring that have not been sent, oldest first; LOST is the
count of JIG_TRACE_LOST. -/
def execTraceFrameSend (t : Nat) (s : State) : Result :=
  let s := { s with frame := { s.frame with now := max s.frame.now t } }
  let u := min s.eth.traceUnsent s.jig.trace.length
  let n := min 64 u
  if s.get Reg.ETH_CTL.TRACE_STREAM = 0 ∨ n = 0 ∨ !s.maySend 0 0x70 then .next s
  else
    let recs := ((s.jig.trace.take u).reverse).take n
    let first := (65536 + s.get Reg.JIG_TRACE_WR.INDEX - u) % 65536
    let s := { s with eth := { s.eth with traceUnsent := u - n } }
    .next (sendFrame s 0 0x70 (epochOf s.curK) none
      (beBytes first 2 ++ beBytes n 2 ++ beBytes (s.get Reg.JIG_TRACE_LOST.COUNT) 4 ++ recs.flatten))

end Sys2Proof.Machine
end

