-- ==== Sys2Proof/Machine/Eth.lean ====
section
/-! DEFINITION. Sheaz over Ethernet (chapter 16): world updates, ARP and Neighbor Discovery (R442), attestation and session keys
(R451 to R455), jobs (R463 to R467, R540), secure associations (R443, R478), link changes and discarded frames. -/

namespace Sys2Proof.Machine

/-! ## Common -/

/-- A frame arrives at time `t` and passes the receive steps of Table 16-6, or is discarded. -/
def arrive (s : State) (f : Frame) (t : Nat) : Bool × State :=
  receive { s with frame := { s.frame with now := max s.frame.now t } } f t

/-- The 32 bits of a register as its fields hold them. -/
def State.word (s : State) (addr : Nat) : Nat :=
  ((fieldsAt addr).getD []).foldl (fun n f => n + s.get f * 2 ^ f.lo) 0

/-- RECEIVE_DISCARD (R450): a frame that fails a receive step is discarded and counted; one that is not Sheaz is not counted. -/
def execReceiveDiscard (f : Frame) (s : State) : Result :=
  let r := receive s f s.frame.now.toNat
  .next (if r.1 then s else r.2)

/-- ETH_LINK_CHANGE (R471): a port gains or loses link; a port that is absent or retired stays down (Table 19-3). What 802.3br
verification finds on a new link is free. -/
def execEthLinkChange (port : Nat) (up : Bool) (s : State) : Result :=
  if 4 ≤ port then .fault .noSuchUnit
  else
    let m := s.get Reg.ETH_STATUS.LINK
    let off := m - (if bitOf m port then 2 ^ port else 0)
    let on := up && s.portGood port
    let d := s.draw 1
    .next ((d.2.set Reg.ETH_STATUS.LINK (if on then off + 2 ^ port else off)).set (Reg.ETH_PORT_STATUS.PREEMPT port)
      (if on then d.1.toNat else 0))

/-- ARP_ND_REQUEST (R442): answered when the target is the address of a partition of the port. -/
def execArpNdRequest (port : Nat) (ipv6 : Bool) (target sender : List Byte) (s : State) : Result :=
  if 4 ≤ port then .fault .noSuchUnit
  else match s.cfg.image with
  | none => .next s
  | some img =>
    let addr := fun (p : Nat) => match img.partOff p with
      | some o => ((img.body 0xE).drop (o + 0x40)).take 16
      | none => []
    let want := if ipv6 then target else List.replicate 12 0 ++ target
    let mine := (List.range 8).any fun p => img.hasPart p && bitOf (img.partField p 2 1) port &&
      (bitOf (img.partField p 1 1) 5 == ipv6) && addr p == want
    .next (if mine ∧ s.portGood port then { s with eth := { s.eth with answers := (port, target, sender) :: s.eth.answers } } else s)

/-- WORLD_UPDATE (R134, R498): admitted under Table 5-7. In a chain only the head admits, and it forwards every admitted frame in
a WORLD message to every device downstream. -/
def execWorldUpdate (f : Frame) (t : Nat) (s : State) : Result :=
  if f.ty ≠ 0x10 then .next s
  else
    let r := arrive s f t
    if !r.1 then .next r.2
    else
      let s := r.2
      if s.inChain ∧ !s.isHead then .next (countDrop s 7 f)
      else
        let raw := f.header ++ f.payload
        let u := admitUpdate s f.partition f.stream f.epoch f.seq f.payload raw t
        let admitted := decide (u.world ≠ s.world)
        if !(s.inChain && admitted) then .next u
        else
          let e := match u.world.ingest.getLast? with
            | some a => a.epoch
            | none => f.epoch
          .next (u.tenon.away.foldl (fun s l => sendMessage s l (crcMessage 5 3 0xFFF s.device e 0 raw)) u)

/-! ## Attestation (R451 to R454, R585, R586) -/

/-- The identity private key and public key. -/
def State.identityKey (s : State) : List Byte := Config.identityPrivate s.die.serial
def State.identityPublic (s : State) : List Byte := Config.p521Public s.identityKey

/-- A byte string cut or filled with zero bytes to a length. -/
def sized (n : Nat) (b : List Byte) : List Byte := (b ++ List.replicate (n - b.length) 0).take n

/-- Program digest of the running image; zero with none (R65). -/
def State.programDigest (s : State) : List Byte := match s.cfg.image with
  | some i => sized 64 i.digest
  | none => List.replicate 64 0

/-- The quote (Table 16-7); once debug is unlocked its signature is zero (R586). -/
def attestBody (s : State) (nonce : List Byte) (rolled : Bool) : List Byte :=
  let b := nonce ++ sized 133 s.identityPublic ++ List.replicate 3 0 ++ s.programDigest ++
    beBytes (s.get64 Reg.CONFIG_ACTIVE_SEQ_LO.SEQ_LO Reg.CONFIG_ACTIVE_SEQ_HI.SEQ_HI) 8 ++
    beBytes (s.word Reg.SAFE_SP_STRAPS.ROLE.addr % 2 ^ 16) 4 ++ beBytes s.sec.bootCount 4 ++ beBytes (s.get Reg.SEC_RESTART_COUNT.COUNT) 4 ++
    beBytes (bit rolled) 1 ++ List.replicate 3 0
  b ++ (if s.sec.identity then sized 132 (Config.ecdsaSign s.identityKey (Config.sha512 b)) else List.replicate 132 0)

/-- The payload of an ATTEST_REQ is well formed: its length follows ROLL_KEY and its reserved bits are 0. -/
def attestForm (p : List Byte) (roll : Bool) : Bool :=
  p.length == (if roll then 200 else 68) && byteAt p 64 == bit roll && (p.drop 65).take 3 == [0, 0, 0]

/-- The session key rolls (R453, R454, R457): the previous key stays valid for received frames, and every count of R457 starts
again. -/
def rollKey (s : State) (img : Image) (f : Frame) : State :=
  let p := f.partition
  let ikm := Config.ecdhX s.identityKey (img.partKey p)
  let info := [0x53, 0x48, 0x45, 0x41, 0x5A, 0x31, BitVec.ofNat 8 p] ++ s.programDigest
  let x := s.part p
  let bases := s.world.streams.map fun (q : Nat × StreamSt) => (q.1, q.2.lastSeq.toNat)
  let bases := if p = 0 then sInsert 0xFFFF s.world.ego.lastSeq.toNat bases else bases
  let s := s.setPart p { x with key := some (Config.hkdf ikm (f.payload.take 64) info), oldKey := x.key, started := true, txSinceRoll := 0
                                rollSeq := f.seq.toNat, rollStreams := bases }
  (s.set (Reg.ETH_PART_STATUS.ROLL_DUE p) 0).set (Reg.ETH_PART_RX_SEQ.SEQ p) f.seq.toNat

/-- ATTEST_REQ (R451, R455): without ROLL_KEY it is answered with a quote. -/
def execAttestReq (f : Frame) (t : Nat) (s : State) : Result :=
  let f := s.asPart f
  if f.ty ≠ 0x50 ∨ bitOf (byteAt f.payload 64) 0 then .next s
  else
    let r := arrive s f t
    if !r.1 ∨ !attestForm f.payload false then .next r.2
    else .next (sendFrame r.2 f.partition 0x51 0 none (attestBody r.2 (f.payload.take 64) false))

/-- ATTEST_ROLL_KEY (R452, R453): a partition's signature over the request rolls its session key; else the quote says that it
did not. -/
def execAttestRollKey (f : Frame) (t : Nat) (s : State) : Result :=
  let f := s.asPart f
  if f.ty ≠ 0x50 ∨ !bitOf (byteAt f.payload 64) 0 then .next s
  else
    let r := arrive s f t
    if !r.1 ∨ !attestForm f.payload true then .next r.2
    else
      let s := r.2
      let ok : Option Image := match s.cfg.image with
        | some img =>
          let d := Config.sha512 (f.payload.take 68 ++ [BitVec.ofNat 8 f.partition])
          if s.sec.identity ∧ Config.ecdsaVerify (img.partKey f.partition) d ((f.payload.drop 68).take 66) (f.payload.drop 134) then some img else none
        | none => none
      match ok with
      | some img =>
        let s := rollKey s img f
        .next (sendFrame s f.partition 0x51 0 none (attestBody s (f.payload.take 64) true))
      | none => .next (sendFrame s f.partition 0x51 0 none (attestBody s (f.payload.take 64) false))

/-- OLD_KEY_EXPIRY (R454): 10 ms after a roll. -/
def execOldKeyExpiry (partition : Nat) (s : State) : Result :=
  if 8 ≤ partition then .fault .noSuchUnit else .next (s.setPart partition { s.part partition with oldKey := none })

/-! ## Jobs: submission (R463, R464) -/

/-- Active jobs of a partition. -/
def State.activeJobs (s : State) (p : Nat) : Nat := (s.eth.jobs.filter fun j => j.partition == p && decide (j.state < 2)).length

/-- ETH_PART_STATUS JOBS of every partition. -/
def showJobs (s : State) : State := (List.range 8).foldl (fun s p => s.set (Reg.ETH_PART_STATUS.JOBS p) (s.activeJobs p)) s

/-- A fragment is staged: its data, cut at TOTAL. A fragment whose OFFSET does not fit its place leaves its data out, so that the
body comes out malformed. -/
def stageFragment (s : State) (f : Frame) : Option Staging × State :=
  let p := f.payload
  let frag := byteAt p 1
  let frags := byteAt p 2
  let off := beAt p 4 4
  let total := beAt p 8 4
  let id := beAt p 12 4
  let data := (p.drop 16).take (total - off)
  let fits := if frag + 1 < frags then off == frag * data.length else off + data.length == total
  let old := (s.eth.staging.find? fun x => x.partition == f.partition && x.jobId == id).getD
    { partition := f.partition, jobId := id, total, frags, got := [] }
  let new : Staging := { old with got := sInsert frag (if fits ∧ total = old.total ∧ frags = old.frags then data else []) old.got }
  let rest := s.eth.staging.filter fun x => !(x.partition == f.partition && x.jobId == id)
  if frags = 0 ∨ frags ≤ frag ∨ p.length < 16 then (none, s)
  else if new.got.length = new.frags then (some new, { s with eth := { s.eth with staging := rest } })
  else (none, { s with eth := { s.eth with staging := rest ++ [new] } })

/-- Body of a complete fragment set. -/
def Staging.body (x : Staging) : List Byte := x.got.flatMap (·.2)

/-- The body fits R463 and Table 16-11 (R464). -/
def bodyOk (s : State) (x : Staging) : Bool :=
  let b := x.body
  let kind := byteAt b 4
  let ms := beAt b 6 2
  x.total ≤ 262144 && b.length == x.total && decide (16 ≤ b.length) && beAt b 0 4 == x.jobId && beAt b 12 4 == 0 && decide (kind ≤ 3) &&
  (if kind = 3 then decide (1 ≤ ms ∧ ms ≤ 60000) else ms == 0) &&
  (match kind with
  | 1 =>
    let n := beAt b 16 2
    let m := beAt b 18 2
    decide (1 ≤ n ∧ n ≤ 64 ∧ 1 ≤ m ∧ m ≤ 512) && b.length == 28 + 64 * n * m
  | 2 =>
    let g := beAt b 136 2
    decide (1 ≤ g ∧ g ≤ 4096) && beAt b 138 2 == 0 && b.length == 140 + 8 * g &&
    (match s.roadmap with
    | some r => (List.range g).all fun i => decide (beAt b (140 + 8 * i) 4 < Road.nodeCount r)
    | none => true)
  | 3 =>
    let m := beAt b 16 2
    decide (1 ≤ m) && beAt b 18 2 == 0 && b.length == 28 + 64 * m && (m == 1 || beAt b 20 4 != 0)
  | _ => true)

/-- JOB_ACK (R464). START_EPOCH of an answer to which the spec gives none is free. -/
def jobAck (s : State) (p id status reason : Nat) (start : Option Epoch) : State :=
  let r : Epoch × State := match start with
    | some e => (e, s)
    | none => s.draw 32
  let s := showJobs r.2
  sendFrame s p 0x02 0 none (beBytes id 4 ++ beBytes status 1 ++ beBytes reason 1 ++ beBytes (s.activeJobs p) 2 ++ beBytes r.1.toNat 4)

/-- Body of a job's RESULT (R472). -/
def jobResult (j : Job) : List Byte :=
  beBytes j.id 4 ++ beBytes j.status 1 ++ beBytes j.kind 1 ++ beBytes 0 2 ++ beBytes j.startEpoch.toNat 4 ++ beBytes j.work 4 ++
  (if j.kind = 2 ∧ j.out.isEmpty then beBytes 0 4 else j.out)

/-- Bytes staged in a partition's region: bodies in staging and of its active jobs. -/
def stagedBytes (s : State) (p : Nat) : Nat :=
  (s.eth.staging.filter fun x => x.partition == p).foldl (fun n x => n + x.total) 0 +
  (s.eth.jobs.filter fun j => j.partition == p && decide (j.state < 2)).foldl (fun n j => n + j.body.length) 0

/-- No descriptor is free on any tile the partition's jobs may use: the Jig holds back (R368). -/
def jigFull (s : State) (img : Image) (p : Nat) : Bool :=
  ((maskTiles (img.partField p 8 4)).filter fun n => decide (n < s.tiles)).all fun n => (s.freeDesc n).isNone

/-- The answer to a complete JOB_SUBMIT, by the first matching row of R464. A hold of the Jig is recorded in the trace (R368); the
tile of that record is free. -/
def decideJob (s : State) (img : Image) (p : Nat) (x : Staging) (t : Nat) : State :=
  let b := x.body
  let id := x.jobId
  let kind := byteAt b 4
  let jobs := s.eth.jobs.filter fun j => decide (j.state < 3) || decide (t ≤ j.finishedAt + 1000000000)
  let s := { s with eth := { s.eth with jobs } }
  let isIt := fun (j : Job) => j.partition == p && j.id == id
  let active := jobs.find? fun j => isIt j && decide (j.state < 2)
  if bodyOk s x ∧ kind = 0 then
    match active with
    | some _ =>
      let ended := jobs.map fun (j : Job) =>
        if isIt j && decide (j.state < 2) then { j with state := 2, status := 3, engine := none, finishedAt := t } else j
      jobAck { s with eth := { s.eth with jobs := ended } } p id 0 0 none
    | none => jobAck s p id 2 1 none
  else match jobs.find? isIt with
  | some j =>
    let s := jobAck s p id 3 0 (some j.startEpoch)
    if 2 ≤ j.state ∧ s.maySend p 0x20 then sendResult s p 1 id j.startEpoch (jobResult j) else s
  | none =>
    if !bodyOk s x then jobAck s p id 2 1 none
    else if (kind = 2 ∧ (!img.hasStage 5 ∨ s.roadmap.isNone)) ∨ (kind = 3 ∧ (!img.has 0xC ∨ s.goodEngines.isEmpty)) then jobAck s p id 2 2 none
    else if img.partField p 0xE 1 = 0 then jobAck s p id 2 3 none
    else if img.partField p 0xE 1 ≤ s.activeJobs p ∨ img.partField p 0x18 8 < stagedBytes s p + b.length ∨ (kind ≠ 3 ∧ jigFull s img p) then
      let d := s.draw 8
      let s := if kind ≠ 3 ∧ jigFull s img p then hold d.2 3 d.1.toNat 0 {} else s
      jobAck (s.inc Reg.JIG_BUSY_ACKS.COUNT) p id 1 4 none
    else
      let r : Epoch × State := if kind = 3 then s.draw 32 else (s.openEpoch img t, s)
      let j : Job := { partition := p, id, kind, priority := min (byteAt b 5) (img.partField p 5 1), maxMs := beAt b 6 2, quota := beAt b 8 4
                       body := b, startEpoch := r.1, state := 0, status := 0, work := 0, out := [], engine := none, iter := none
                       iterations := 0, checkpoints := [], finishedAt := 0 }
      let s := { r.2 with eth := { r.2.eth with jobs := r.2.eth.jobs ++ [j] } }
      jobAck s p id 0 0 (some r.1)

/-- A JOB_SUBMIT frame: staged, and answered where it completes its body. -/
def submit (s : State) (f : Frame) (t : Nat) : State :=
  let r := arrive s f t
  if !r.1 then r.2
  else
    let q := stageFragment r.2 f
    match r.2.cfg.image, q.1 with
    | some img, some x => decideJob q.2 img f.partition x t
    | _, _ => q.2

/-- KIND of the body that a frame completes; none where it completes none. -/
def completes (s : State) (f : Frame) : Option Nat := ((stageFragment s f).1).map fun x => byteAt x.body 4

/-- JOB_SUBMIT_FRAGMENT (R463, R464): a fragment that does not complete its set is staged. -/
def execJobSubmitFragment (f : Frame) (t : Nat) (s : State) : Result :=
  .next (if f.ty = 0x01 ∧ (completes s f).isNone then submit s f t else s)

/-- JOB_SWEEP (R464, R465): the frame that completes a SWEEP body, or one of a kind that does not exist. -/
def execJobSweep (f : Frame) (t : Nat) (s : State) : Result :=
  .next (if f.ty == 0x01 && (match completes s f with
    | some k => k == 1 || decide (3 < k)
    | none => false) then submit s f t else s)

/-- JOB_SEARCH (R464, R465). -/
def execJobSearch (f : Frame) (t : Nat) (s : State) : Result :=
  .next (if f.ty = 0x01 ∧ completes s f = some 2 then submit s f t else s)

/-- JOB_REFINE (R464, R466). -/
def execJobRefine (f : Frame) (t : Nat) (s : State) : Result :=
  .next (if f.ty = 0x01 ∧ completes s f = some 3 then submit s f t else s)

/-- JOB_CANCEL (R464). -/
def execJobCancel (f : Frame) (t : Nat) (s : State) : Result :=
  .next (if f.ty = 0x01 ∧ completes s f = some 0 then submit s f t else s)

/-- JOB_FRAGMENT_TIMEOUT (R464): an incomplete set is discarded without an answer. -/
def execJobFragmentTimeout (partition jobId : Nat) (s : State) : Result :=
  .next { s with eth := { s.eth with staging := s.eth.staging.filter fun x => !(x.partition == partition && x.jobId == jobId) } }

/-! ## Jobs: running -/

/-- The state with an unfinished job replaced. -/
def State.setJob (s : State) (j : Job) : State :=
  showJobs { s with eth := { s.eth with jobs := s.eth.jobs.map fun x =>
    if x.partition = j.partition ∧ x.id = j.id ∧ x.state < 2 then j else x } }

/-- An unfinished job. -/
def State.openJob (s : State) (p id : Nat) : Option Job :=
  s.eth.jobs.find? fun j => j.partition == p && j.id == id && decide (j.state < 2)

/-- The lowest good engine that the frame's refine, another job and a test leave free (R466). -/
def State.jobEngine (s : State) : Option Nat :=
  let mine := match s.solver.run, s.pickEngine with
    | some r, _ => [r.engine] ++ r.second.toList
    | none, some p => [p.1] ++ p.2.toList
    | none, none => []
  s.goodEngines.find? fun e => s.unitGood 4 e && !mine.contains e && !s.solver.testing.contains e && !(s.unit 4 e).blocked &&
    !(s.eth.jobs.any fun j => j.state == 1 && j.engine == some e)

/-- Reference trajectory of a REFINE job. -/
def Job.reference (j : Job) : Traj := bodyTraj j.body (beAt j.body 16 2) 0

/-- Iteration limit of a REFINE job (Table 16-11). -/
def Job.cap (j : Job) (img : Image) : Nat := if j.quota = 0 then img.iterMax else j.quota

/-- JOB_START (R465, R466): a frame-bound job in the search phase of its start epoch, on its final snapshot and, for SEARCH, the
ledger's close of it; a REFINE job on a free engine, cold-started. -/
def execJobStart (partition jobId : Nat) (s : State) : Result :=
  match s.cfg.image, s.openJob partition jobId with
  | some img, some j =>
    if j.state ≠ 0 then .next s
    else if j.kind = 3 then
      match s.jobEngine with
      | some e => .next (s.setJob { j with state := 1, engine := some e, iter := some (coldStart img j.reference), iterations := 0 })
      | none => .next s
    else
      let here := s.frame.inFrame && !s.frame.searchOver && epochOf s.frame.k == j.startEpoch
      let final := !s.world.active && s.get Reg.WORLD_SNAP_EPOCH.EPOCH == j.startEpoch.toNat
      let closed := j.kind != 2 || s.ledger.closed == some j.startEpoch
      .next (if here && final && closed then s.setJob { j with state := 1 } else s)
  | _, _ => .next s

/-- `n` more iterations of a REFINE job, up to convergence or its limit: the iterate, its count, and whether it converged. -/
def jobIterate (img : Image) (tr : Traj) (cap : Nat) : Nat → Iterate → Nat → Iterate × Nat × Bool
  | 0, c, i => (c, i, false)
  | n + 1, c, i =>
    if cap ≤ i then (c, i, false)
    else
      let r := iterate img tr c
      if r.2 then (r.1, i + 1, true) else jobIterate img tr cap n r.1 (i + 1)

/-- Iterations that fit in a time of `ns`, at 1.2 GHz (R308). -/
def iterationsIn (img : Image) (ns : Nat) : Nat := 12 * ns / (10 * max 1 (img.iterCycles false))

/-- The result of a REFINE job (R472): the header of Table 11-6 and its samples. A job refines no candidate: the header's ID and
FLAGS are free. -/
def jobRefined (s : State) (img : Image) (j : Job) (c : Iterate) (n : Nat) (conv cut : Bool) : List Byte × State :=
  let a := s.draw 32
  let b := a.2.draw 16
  let run : RefineRun := { id := a.1.toNat, flags := b.1.toNat, cand := some j.reference, refClamped := (List.range (img.horizon + 1)).any fun k =>
                             outside j.reference (stageTime img k)
                           engine := j.engine.getD 0, second := none, cold := true, warmEpoch := none, start := c, cur := c
                           iterations := n, converged := conv, stopped := cut, replayed := false, differs := false }
  ((refineResult img run cut false j.reference).bytes false, b.2)

/-- A job's RESULT is sent once the partition can receive it (R467). -/
def sendJob (s : State) (j : Job) : State :=
  if j.state = 2 ∧ s.maySend j.partition 0x20 then
    let s := { s with eth := { s.eth with jobs := s.eth.jobs.map fun x =>
      if x.partition = j.partition ∧ x.id = j.id ∧ x.state = 2 then { x with state := 3 } else x } }
    sendResult s j.partition 1 j.id j.startEpoch (jobResult j)
  else s

/-- A job ends with a status, and its result is sent (R472). -/
def finishJob (s : State) (j : Job) (status : Nat) : State :=
  let j := { j with state := 2, status, engine := none, finishedAt := s.frame.now.toNat }
  sendJob (s.setJob { j with state := 2 }) j

/-- JOB_END (R465 to R467, R472): a frame-bound job ends DONE with every unit released or its QUOTA spent, and CUT once its time
has passed; a REFINE job that converges or meets its limit is DONE. The result of a job that other events have ended is
sent. -/
def execJobEnd (partition jobId : Nat) (s : State) : Result :=
  match s.cfg.image, s.eth.jobs.find? fun j => j.partition == partition && j.id == jobId && decide (j.state < 3) with
  | some img, some j =>
    if j.state = 2 then .next (sendJob s j)
    else if j.kind = 3 then
      match j.iter with
      | some c =>
        if j.state ≠ 1 then .next s
        else
          let cap := j.cap img
          let r := jobIterate img j.reference cap (cap - j.iterations) c j.iterations
          let b := jobRefined s img j r.1 r.2.1 r.2.2 false
          .next (finishJob b.2 { j with out := b.1, work := r.2.1, iterations := r.2.1 } 0)
      | none => .next s
    else if j.state = 1 ∧ !j.more then .next (finishJob s j 0)
    else
      let past := s.frame.searchOver && epochOf s.frame.k == j.startEpoch || epochLater (epochOf s.frame.k) j.startEpoch
      .next (if past then finishJob s j 1 else s)
  | _, _ => .next s

/-- JOB_MAX_MS (R466): a REFINE job that reaches MAX_MS returns its last completed iterate with CUT. -/
def execJobMaxMs (partition jobId : Nat) (s : State) : Result :=
  match s.cfg.image, s.openJob partition jobId with
  | some img, some j =>
    if j.kind ≠ 3 then .next s
    else
      let c := j.iter.getD (coldStart img j.reference)
      let n := iterationsIn img (1000000 * j.maxMs)
      let r := jobIterate img j.reference (j.cap img) (n - j.iterations) c j.iterations
      let b := jobRefined s img j r.1 r.2.1 false true
      .next (finishJob b.2 { j with out := b.1, work := r.2.1, iterations := r.2.1 } 1)
  | _, _ => .next s

/-- JOB_CHECKPOINT (R540): at the first iteration boundary 9 ms after the previous checkpoint, the iterate and its count are kept;
the latest two checkpoints are. -/
def execJobCheckpoint (partition jobId : Nat) (s : State) : Result :=
  match s.cfg.image, s.openJob partition jobId with
  | some img, some j =>
    match j.iter with
    | some c =>
      if j.kind ≠ 3 ∨ j.state ≠ 1 then .next s
      else
        let n := iterationsIn img 8999999 + 1
        let r := jobIterate img j.reference (j.cap img) n c j.iterations
        if r.2.2 ∨ j.cap img ≤ r.2.1 then .next s
        else .next (s.setJob { j with iter := some r.1, iterations := r.2.1, work := r.2.1, checkpoints := (r.2.1, r.1) :: j.checkpoints.take 1 })
    | none => .next s
  | _, _ => .next s

/-! ## Secure associations -/

/-- A write to ETH_MACSEC_INSTALL (R443, R478): from partition 0 under TAG and CONF, or JTAG with debug unlocked; it installs the
eight words of the SAK on the port. -/
def macsecInstall (src : Source) (port : Nat) (value : Word) (s : State) : State :=
  let ok := match src with
    | .sheaz p tag conf => p == 0 && tag && conf
    | .jtag => s.get Reg.SEC_DEBUG_STATUS.STATE == 2
    | _ => false
  if !ok then { s with access := 1 }
  else
    let rx := bitOf value.toNat 2
    let an := value.toNat % 4
    let key := (List.range 8).map fun i => sGet 0 (8 * port + i) s.eth.sak
    let sas : List MacsecSa := (s.eth.sas.filter fun a => !(a.port == port && a.rx == rx && a.an == an)) ++ [{ port := port, rx := rx, an := an, key := key }]
    let up := (sas.any fun a => a.port == port && a.rx) && sas.any fun a => a.port == port && !a.rx
    { s.set (Reg.ETH_PORT_STATUS.MACSEC_UP port) (bit up) with eth := { s.eth with sas }, access := 0 }

/-- MACSEC_INSTALL (R478). -/
def execMacsecInstall (src : Source) (port : Nat) (value : Word) (s : State) : Result :=
  if 4 ≤ port then .fault .noSuchUnit else .next (macsecInstall src port value s)

end Sys2Proof.Machine
end

