-- ==== Sys2Proof/Machine/Replay.lean ====
section
/-! DEFINITION. Capture and replay commands (R522 to R527): anchors on request, the clearing of the ring, and replays of the
recorded epochs with the comparison of their digests (R519, R525). -/

namespace Sys2Proof.Machine

/-! ## DIGEST_CMD -/

/-- A command register without a RESULT code for it: a source outside R75 is denied (R603). -/
def ownerOnly (src : Source) (s : State) (f : State → State) : State :=
  if s.isOwner src then { f s with access := 0 } else { s with access := 1 }

/-- CHECKPOINT (R522): an anchor is due. -/
def checkpointCmd (src : Source) (s : State) : State :=
  ownerOnly src s fun s => { s with digest := { s.digest with anchorDue := true } }

/-- CAP_CLEAR (R523): the ring is emptied, FULL cleared, and capture starts again at a new anchor. -/
def capClearCmd (src : Source) (s : State) : State :=
  ownerOnly src s fun s =>
    { (s.set Reg.DIGEST_CAP_STATUS.FULL 0).set Reg.DIGEST_CAP_WR.OFFSET 0 with
      digest := { s.digest with ring := [], write := 0, anchored := false, anchorDue := true } }

/-- CHECKPOINT (R522). -/
def execCheckpoint (src : Source) (s : State) : Result := .next (checkpointCmd src s)

/-- CAP_CLEAR (R523). -/
def execCapClear (src : Source) (s : State) : Result := .next (capClearCmd src s)

/-! ## Records of the ring -/

/-- `n` bytes of the ring. -/
def State.ring (s : State) (o n : Nat) : List Byte := (List.range n).map fun i => sGet 0 (o + i) s.digest.ring

/-- A record of the ring: its kind, epoch, body, and whether its length and CRC hold. -/
structure RingRec where
  kind : Nat
  epoch : Epoch
  body : List Byte
  ok : Bool
  /-- Offset of the record after it. -/
  next : Nat
deriving DecidableEq, Repr

/-- The record at an offset; none where the records end: past the ring, or at a KIND that is none (R520). -/
def State.recordAt (s : State) (o : Nat) : Option RingRec :=
  let h := s.ring o 16
  let kind := byteAt h 0
  let n := u32 h 4
  if s.ringBytes < o + 24 ∨ (kind ≠ 1 ∧ kind ≠ 2) then none
  else
    let fits := decide (24 ≤ n) && decide (o + n ≤ s.ringBytes)
    let b := if fits then s.ring o n else h
    some { kind, epoch := BitVec.ofNat 32 (u32 h 8), body := (b.drop 16).take (n - 24)
           ok := fits && crcNat (b.take (n - 8)) == u64 b (n - 8), next := ceilDiv (o + max n 24) 64 * 64 }

/-- The first anchor at or after an offset: the record that ends the search, with the offset after it. -/
def State.findAnchor (s : State) : Nat → Nat → Option RingRec
  | 0, _ => none
  | n + 1, o => match s.recordAt o with
    | none => none
    | some r => if r.kind = 2 ∨ !r.ok then some r else s.findAnchor n r.next

/-! ## Replay -/

/-- A replay ends with a RESULT (R525, R526): what it replayed is discarded, and the next frames start as after a structure
switch. -/
def endReplay (s : State) (result stage : Nat) (e : Epoch) : State :=
  let s := ((s.set Reg.DIGEST_REPLAY_STATUS.PHASE 3).set Reg.DIGEST_REPLAY_STATUS.RESULT result).set Reg.DIGEST_REPLAY_STATUS.STAGE stage
  let s := s.set Reg.DIGEST_REPLAY_EPOCH.EPOCH e.toNat
  rebase { s with digest := { s.digest with replay := none } }

/-- The replay stands before a record: it ends with MATCH where none is left, and passes an anchor, whose epoch follows. -/
def replayOn (s : State) (r : ReplaySt) : Nat → State
  | 0 => endReplay s 1 0 (r.last.getD 0)
  | n + 1 => match s.recordAt r.at_ with
    | none => endReplay s 1 0 (r.last.getD 0)
    | some x =>
      if x.kind = 2 ∧ x.ok then replayOn s { r with at_ := x.next, last := some (x.epoch - 1) } n
      else { s with digest := { s.digest with replay := some r } }

/-- A replay may run in a scope (R524): 1 in a frame hold; 2 with the island not serving either; never while the DIGEST block is
quiesced or asked to be. -/
def State.mayReplay (s : State) (scope : Nat) : Bool :=
  let q := s.get Reg.CONFIG_QUIESCE_REQ.REQ ||| s.get Reg.CONFIG_QUIESCE_STATUS.QUIESCED
  s.cfg.held && s.digest.replay.isNone && !bitOf q 14 && (scope == 1 || s.get Reg.SAFE_MODE.MODE == 0)

/-- REPLAY_MAIN and REPLAY_FULL (R524, R525): refused, or the ring is read from its first anchor. -/
def replayCmd (scope : Nat) (src : Source) (s : State) : State :=
  ownerOnly src s fun s =>
    match s.cfg.image with
    | none => s.set Reg.DIGEST_REPLAY_STATUS.RESULT 8
    | some img =>
      if !s.mayReplay scope then s.set Reg.DIGEST_REPLAY_STATUS.RESULT 8
      else
        let s := ((s.set Reg.DIGEST_REPLAY_STATUS.PHASE 2).set Reg.DIGEST_REPLAY_STATUS.RESULT 0).set Reg.DIGEST_REPLAY_STATUS.STAGE 0
        let s := s.set Reg.DIGEST_REPLAY_COUNT.COUNT 0
        let n := s.ringBytes / 64 + 1
        match s.findAnchor n 0 with
        | none => endReplay s 4 0 0
        | some a =>
          if !a.ok then endReplay s 6 0 a.epoch
          else if sized 64 img.digest ≠ a.body.take 64 then endReplay s 5 0 a.epoch
          else replayOn s { scope, at_ := a.next, last := some (a.epoch - 1), count := 0 } n

/-- REPLAY_MAIN (R524). -/
def execReplayMain (src : Source) (s : State) : Result := .next (replayCmd 1 src s)

/-- REPLAY_FULL (R524). -/
def execReplayFull (src : Source) (s : State) : Result := .next (replayCmd 2 src s)

/-- REPLAY_ABORT (R525). -/
def replayAbortCmd (src : Source) (s : State) : State :=
  ownerOnly src s fun s => match s.digest.replay with
    | some r => endReplay s 7 0 (r.last.getD 0)
    | none => s

/-- REPLAY_ABORT (R525). -/
def execReplayAbort (src : Source) (s : State) : Result := .next (replayAbortCmd src s)

/-- Bytes of the frame parameter record (Table 18-2). -/
def paramBytes : Nat := 64

/-- World-input digest of the frames an EPOCH record holds (R517, R520). -/
def recordedWorld (b : List Byte) : Nat :=
  let o := paramBytes + 2 + 2 + 4 + 8 + 72 + 8 + 64
  let n := u32 b o
  let r := (List.range n).foldl (fun (a : List Byte × Nat) _ =>
    let l := u32 b a.2
    (a.1 ++ (b.drop (a.2 + 4)).take l, a.2 + 4 + ceilDiv l 4 * 4)) ([], o + 8)
  crcNat r.1

/-- The first divergence of a replayed epoch from its record (R519): none, or the stage shown, 0 where only the inputs or the
frame digest differ and 10 for the provenance. -/
def divergence (scope : Nat) (b : List Byte) (stages : List Nat) (frame : Nat) (provenance : List Byte) : Option Nat :=
  let mask := u16 b (paramBytes + 2)
  let fd := u64 b (paramBytes + 8)
  let sd := fun (i : Nat) => u64 b (paramBytes + 16 + 8 * i)
  let world := u64 b (paramBytes + 88)
  let prov := (b.drop (paramBytes + 96)).take 64
  let top := if scope = 1 then 7 else 9
  if recordedWorld b ≠ world then some 0
  else match (List.range top).find? fun i => bitOf mask i && stages.getD i 0 != sd i with
    | some i => some (i + 1)
    | none => if provenance ≠ prov then some 10 else if scope = 2 ∧ frame ≠ fd then some 0 else none

/-- REPLAY_EPOCH (R525): the next recorded epoch has been replayed with the given stage digests, frame digest and provenance
digest, which are compared with its record. -/
def execReplayEpoch (stages : List Nat) (frame : Nat) (provenance : List Byte) (s : State) : Result :=
  match s.digest.replay with
  | none => .next s
  | some r => match s.recordAt r.at_ with
    | none => .next (endReplay s 1 0 (r.last.getD 0))
    | some x =>
      if !x.ok ∨ r.last ≠ some (x.epoch - 1) then .next (endReplay s 6 0 x.epoch)
      else if u16 x.body paramBytes % 2 = 1 then .next (endReplay s 3 0 x.epoch)
      else
        let s := s.set Reg.DIGEST_REPLAY_COUNT.COUNT (r.count + 1)
        match divergence r.scope x.body stages frame provenance with
        | some st => .next (endReplay s 2 st x.epoch)
        | none => .next (replayOn s { r with at_ := x.next, last := some x.epoch, count := r.count + 1 } (s.ringBytes / 64 + 1))

end Sys2Proof.Machine
end

