-- ==== Sys2Proof/Machine/Frame.lean ====
section
/-! DEFINITION. The frame (chapter 1) and what changes at its boundaries: frame start (R13, R21, R24, R87, R90), corrections of
the time base (R24), admission close (R133), the structure switch and holds (R85 to R97), and drain frames (R87 to R90,
R93, R566). -/

namespace Sys2Proof.Machine

/-! ## Time -/

/-- Time goes on to `t`; the slew being spread shrinks by at most 1,000 ppm of the time that passed (R24). -/
def advanceTo (s : State) (t : Int) : State :=
  let d := (max 0 (t - s.frame.now)) / 1000
  let l := s.frame.slewLeft
  let l := if 0 ≤ l then max 0 (l - d) else min 0 (l + d)
  { s with frame := { s.frame with now := t, slewLeft := l } }

/-- One correction of the time base: a slew when smaller than T_frame / 4 in magnitude, added to what is left of the
earlier one; else a step at once (R24). -/
def correctTime (s : State) (delta : Int) : State :=
  if 4 * delta.natAbs < s.periodNs then { s with frame := { s.frame with slewLeft := s.frame.slewLeft + delta } }
  else { s with frame := { s.frame with now := s.frame.now + delta } }

/-- The device follows its own 802.1AS: in a chain only the head does (R503). -/
def State.ownTime (s : State) : Bool := !s.inChain || s.isHead

/-- Offset of the latest sync (Table 16-14): device time minus grandmaster time, which the correction takes back. Which port brings
the time is free. -/
def showOffset (s : State) (delta : Int) : State :=
  let d := s.draw 2
  (d.2.set Reg.ETH_PTP_OFFSET.OFFSET ((-delta) % 2 ^ 32).toNat).set Reg.ETH_STATUS.PTP_PORT d.1.toNat

/-- PTP_CORRECTION (R24): in HOLDOVER no correction is applied. -/
def execPtpCorrection (delta : Int) (s : State) : Result :=
  .next (if s.flag Reg.FRAME_STATUS.HOLDOVER ∨ !s.ownTime then s else correctTime (showOffset s delta) delta)

/-- SYNC_LOSS (R24): HOLDOVER is set, and 802.1AS is no longer synchronised. -/
def execSyncLoss (s : State) : Result :=
  let s := s.set Reg.ETH_STATUS.PTP_SYNCED 0
  .next (if s.ownTime then s.set Reg.FRAME_STATUS.HOLDOVER 1 else s)

/-- SYNC_RETURN (R24): HOLDOVER ends, and the whole difference from the grandmaster is one correction. -/
def execSyncReturn (delta : Int) (s : State) : Result :=
  let s := showOffset (s.set Reg.ETH_STATUS.PTP_SYNCED 1) delta
  .next (if s.flag Reg.FRAME_STATUS.HOLDOVER ∧ s.ownTime then correctTime (s.set Reg.FRAME_STATUS.HOLDOVER 0) delta else s)

/-! ## The shadow set -/

/-- The field of a key of the register file. -/
def fieldOfKey (k : Nat) : Option Field := (fieldsAt (k / 32)).bind fun fs => fs.find? fun f => f.lo == k % 32

/-- A committed shadow set applies at a frame boundary (R13); ENABLE written 0 discards every speculative epoch (R340). -/
def applyShadow (s : State) : State :=
  let set_ := s.cfg.committedSet
  let off := set_.any fun p => p.1 == Reg.FRAME_SPEC_CTL.ENABLE.key && p.2 == 0
  let s := set_.foldl (fun s p => match fieldOfKey p.1 with
    | some f => s.set f p.2
    | none => s) s
  let s := { s with cfg := { s.cfg with committedSet := [] } }
  if off then discardAll s else s

/-! ## Frame start -/

/-- What belongs to one frame is cleared at the start of the next. -/
def clearFrame (s : State) : State :=
  let e := epochOf s.frame.k
  let keep := fun (d : Desc) => match d.kind with
    | .stage _ _ => d.speculative && !epochLater e d.epoch
    | .unordered _ => !epochLater e d.epoch
    | _ => true
  { s with
    order := {}
    solver := { s.solver with run := none, result := none, used := none }
    spec := { s.spec with keptBlocks := [], startMatch := false, shiftMatch := false, nKept := 0, nSquashed := 0, nRecomputed := 0
                          nRestarts := 0, paths := [], search := none }
    jig := { s.jig with descs := s.jig.descs.filter (fun p => keep p.2), next := [], held := [], released := [], tally := []
                        sweepCut := false, searchCut := false, proposeCut := false, refineCut := false, abandoned := false
                        proposeDone := none, received := [] }
    ledger := { s.ledger with late := false, search := none }
    safety := { s.safety with cand := none, candFb := none, heldFb := none, preH := none, preA := none, preFH := none
                              preRunning := false, checkC := none, lts := 0, checkF := none, finalSweep := none, refineStatus := 7
                              noCandidate := false, integrity := false, confirmMissing := false, verdict := none, rowTwo := false
                              repeated := false, gridDone := false }
    digest := { s.digest with stages := List.replicate 9 none, integrity := false, rebase := s.digest.rebaseDue, rebaseDue := false
                              prev := if s.digest.rebaseDue then none else s.digest.prev }
    tenon := { s.tenon with confirms := s.tenon.confirms.filter (fun p => !epochLater e p.1)
                            sentSpec := s.tenon.sentSpec.filter fun p => !epochLater e p.1 } }

/-- The frame is a shadow frame: one of the two after a start, a switch or a hold (R90, R406), or, after a wake, one of
those that repeat until two in a row have verdict ACCEPT (R571). -/
def State.startsShadow (s : State) : Bool :=
  if s.flag Reg.PWR_STATUS.WAKING then decide (s.power.passes < 2) else decide (s.frame.shadowLeft ≠ 0)

/-- A frame of number `k` may start: frames run, and its epoch is later than the highest started (R21, R24, R90, R629). -/
def State.mayStart (s : State) (k : Nat) : Bool :=
  s.frame.running && !s.cfg.held && !s.frame.drain && decide (s.frame.notBefore ≤ k) && (match s.frame.highest with
    | some h => epochLater (epochOf k) (epochOf h)
    | none => true)

/-- Epochs passed over since the latest frame are counted (R24), but for those of a restart, a switch, a hold or a wake. -/
def countSkips (s : State) (k : Nat) : State := match s.frame.highest with
  | some h => if s.frame.gapExcused then s else s.add Reg.FRAME_SKIP_COUNT.SKIP (k - h - 1)
  | none => s

/-- The frame of number `k` starts (R21, R36): its shadow set applies, an anchor is taken, speculative epochs it passes over
are discarded, and assembly of its snapshot begins once that of the previous frame is complete. A drain frame begins where one has
been asked for (R87). -/
def startFrame (s : State) (img : Image) (k : Nat) : State :=
  let s := completeAssembly s img
  let s := rebindTiles (countSkips (advanceTo s (s.frameStartNs k)) k)
  let shadow := s.startsShadow
  let drain := decide (s.cfg.drainFor ≠ 0)
  let s := { s with frame := { s.frame with
    inFrame := true, k, highest := some k, shadow, shadowLeft := s.frame.shadowLeft - bit shadow, drain, searchOver := false
    verdictDone := false, committed := false, late := false, gapExcused := false
    discarded := s.tenon.condemned.contains (epochOf k) } }
  let s := applyShadow (clearFrame s)
  let s := (s.set Reg.FRAME_EPOCH.EPOCH k).set Reg.FRAME_STATUS.FRAME_ACTIVE 1
  let s := s.set Reg.FRAME_STATUS.SHADOW (bit shadow)
  let s := if s.cfg.drainFor = 1 ∨ s.cfg.drainFor = 2 then s.set Reg.CONFIG_SWITCH_STATUS.PHASE 3 else s
  let s := { s with cfg := { s.cfg with firstStarted := true }
                    safety := { s.safety with confirmMissing := s.frame.discarded } }
  beginEpoch (discardBefore (takeAnchor s img) (epochOf k)) (epochOf k)

/-- FRAME_START (R21): nothing starts while no frame may. -/
def execFrameStart (k : Nat) (s : State) : Result :=
  match s.cfg.image with
  | none => .next s
  | some img => .next (if s.mayStart k then startFrame s img k else s)

/-- ADMISSION_CLOSE (R133): at frame start + ADMIT_CLOSE_US of the epoch under assembly. -/
def execAdmissionClose (s : State) : Result :=
  match s.cfg.image with
  | none => .next s
  | some img =>
    if !s.frame.inFrame ∨ !s.world.active ∨ s.world.closed then .next s
    else
      let s := advanceTo s (s.frameStartNs s.frame.k + 1000 * img.admitCloseUs : Nat)
      .next (finishSnapshot (closeAdmission s img) img)

/-! ## The structure switch and holds -/

/-- RESULT of CONFIG_SWITCH_STATUS (Table 3-4). -/
def switchResult (s : State) (r : Nat) : State := s.set Reg.CONFIG_SWITCH_STATUS.RESULT r

/-- PHASE of CONFIG_SWITCH_STATUS. -/
def switchPhase (s : State) (p : Nat) : State := s.set Reg.CONFIG_SWITCH_STATUS.PHASE p

/-- The maintenance token of a structure switch or hold. -/
def switchToken : Token := { act := 9, cls := 0, idx := 0 }

/-- A switch or hold is in progress. -/
def State.switching (s : State) : Bool := decide (s.get Reg.CONFIG_SWITCH_STATUS.PHASE ∈ [1, 2, 3, 4, 5, 6]) || s.cfg.drainFor != 0

/-- The device is in SAFE_STATE, terminal hold, a restart, a wake or a shadow frame (R85, R565). -/
def State.unsettled (s : State) : Bool :=
  let m := s.get Reg.SAFE_MODE.MODE
  m == modeSafe || m == modeHold || s.safety.restart != 0 || s.frame.shadow || s.frame.shadowLeft != 0 ||
  s.flag Reg.PWR_STATUS.WAKING || s.power.asleep != 0

/-- SWITCH (R85, R86): refused, or preparation begins with the load of the other slot. -/
def switchCmd (src : Source) (s : State) : State :=
  if !s.isOwner src then switchResult s 1
  else
    let i := 1 - s.get Reg.CONFIG_SLOT_ACTIVE.SLOT
    let s := showValid s
    let run := s.get64 Reg.CONFIG_ACTIVE_SEQ_LO.SEQ_LO Reg.CONFIG_ACTIVE_SEQ_HI.SEQ_HI
    if s.cfg.image.isSome ∧ (!s.candidate? i ∨ (s.slotOf i).sequence ≤ run) then switchResult s 3
    else if s.cfg.image.isNone ∨ s.switching ∨ s.unsettled ∨ !s.frame.running then switchResult s 0xB
    else
      let t := takeToken s switchToken
      if !t.1 then switchResult t.2 2
      else beginLoad (switchPhase (switchResult t.2 0) 1) i

/-- SWITCH (R85). -/
def execStructSwitch (src : Source) (s : State) : Result := .next (written src s (switchCmd src s))

/-- Bytes of HBM regions of the partitions of an image (Table 16-9). -/
def partBytes (i : Image) : Nat :=
  (List.range i.partCount).foldl (fun n j => n + le (i.body 0xE) (16 + 256 * j + 0x18) 8) 0

/-- Bytes of the bulk sections of an image. -/
def bulkBytes (i : Image) : Nat := i.bulkTypes.foldl (fun n t => n + i.bulkLength t) 0

/-- A switch ends before its drain frame: the fetched regions and the token are released (R92). -/
def endSwitch (s : State) (r : Nat) : State :=
  let s := dropToken (switchPhase (switchResult s r) 0) switchToken
  { s with cfg := { s.cfg with loading := none, next := none, nextBulk := [], drainFor := 0 } }

/-- SWITCH_PREPARED (R86): NO_ROOM where the bulk data of both images and the partitions exceed the HBM, LOAD_FAILED where the
load was rejected, else ARMED. -/
def execSwitchPrepared (s : State) : Result :=
  match s.cfg.image with
  | none => .next s
  | some run =>
    if s.get Reg.CONFIG_SWITCH_STATUS.PHASE ≠ 1 then .next s
    else
      let want := match s.cfg.next, s.cfg.loading with
        | some i, _ => some i
        | none, some l => some l.image
        | none, none => none
      match want with
      | none => .next (endSwitch s 0xA)
      | some i =>
        if s.hbmAvailable < bulkBytes run + partBytes run + bulkBytes i then
          .next (endSwitch (s.set Reg.CONFIG_LOAD_STATUS.PHASE 0) 9)
        else if s.cfg.next.isNone then .next s
        else
          let s := switchPhase s 2
          .next { s with cfg := { s.cfg with drainFor := 1 } }

/-- HOLD (R93): before the first frame of an image it stops frames at once; else a drain frame is asked for. -/
def holdCmd (src : Source) (s : State) : State :=
  if !s.isOwner src then switchResult s 1
  else
    let first := s.cfg.image.isSome && !s.cfg.firstStarted && s.frame.running
    if s.cfg.image.isNone ∨ s.switching ∨ (s.unsettled ∧ !first) ∨ !s.frame.running then switchResult s 0xB
    else
      let t := takeToken s switchToken
      if !t.1 then switchResult t.2 2
      else
        let s := switchResult t.2 0
        if first then
          let s := (switchPhase s 6).set Reg.FRAME_STATUS.FRAME_ACTIVE 0
          { s with cfg := { s.cfg with held := true }, frame := { s.frame with running := false } }
        else
          let s := switchPhase s 2
          { s with cfg := { s.cfg with drainFor := 2 } }

/-- HOLD (R93). -/
def execHold (src : Source) (s : State) : Result := .next (written src s (holdCmd src s))

/-- A frame-path block is QUIESCED or has a pending quiesce request (R97). -/
def State.pathQuiesced (s : State) : Bool :=
  framePathBlocks.any fun b => bitOf (s.get Reg.CONFIG_QUIESCE_REQ.REQ ||| s.get Reg.CONFIG_QUIESCE_STATUS.QUIESCED) b

/-- Two shadow frames follow from frame number `k` on (R90, R93, R406). -/
def shadowFrom (s : State) (k : Nat) : State :=
  { s with frame := { s.frame with running := true, inFrame := false, drain := false, shadowLeft := 2, gapExcused := true, notBefore := k } }

/-- Frame number of the first frame start not earlier than `t`. -/
def State.nextFrame (s : State) (t : Int) : Nat :=
  if s.periodNs = 0 then 0 else ((t - s.origin + s.periodNs - 1) / (s.periodNs : Int)).toNat

/-- RESUME (R93, R97): two shadow frames start at the next aligned frame start. -/
def resumeCmd (src : Source) (s : State) : State :=
  if !s.isOwner src then switchResult s 1
  else if !s.cfg.held ∨ s.pathQuiesced ∨ s.digest.replay.isSome then switchResult s 0xB
  else
    let s := dropToken (switchPhase (switchResult s 0) 5) switchToken
    let s := shadowFrom s (s.nextFrame (s.frame.now + 1))
    { s with cfg := { s.cfg with held := false } }

/-- RESUME (R93). -/
def execResume (src : Source) (s : State) : Result := .next (written src s (resumeCmd src s))

/-- CANCEL (R92): before the drain frame of a switch. -/
def cancelCmd (src : Source) (s : State) : State :=
  if !s.isOwner src then switchResult s 1
  else
    let p := s.get Reg.CONFIG_SWITCH_STATUS.PHASE
    if (p = 1 ∨ p = 2) ∧ s.cfg.drainFor ≤ 1 then endSwitch s 0xD else switchResult s 0xB

/-- SWITCH_CANCEL (R92). -/
def execSwitchCancel (src : Source) (s : State) : Result := .next (written src s (cancelCmd src s))

/-! ## Drain frames -/

/-- Fields that describe the latest epoch read 0 from the entry into NAP or SLEEP until the next commit (R572). -/
def epochFields : List Field :=
  tallyFields ++
  [Reg.FRAME_BUDGET_STATUS.DEADLINE_HIT, Reg.FRAME_BUDGET_STATUS.BUDGET_CUT, Reg.FRAME_BUDGET_STATUS.SWEEP_CUT,
   Reg.FRAME_BUDGET_STATUS.SEARCH_CUT, Reg.FRAME_BUDGET_STATUS.SEARCH_LATE, Reg.FRAME_BUDGET_STATUS.PROPOSE_CUT,
   Reg.FRAME_BUDGET_STATUS.REFINE_CUT, Reg.FRAME_BUDGET_STATUS.START_MATCH, Reg.FRAME_BUDGET_STATUS.SHIFT_MATCH,
   Reg.FRAME_BUDGET_STATUS.SPEC_USED, Reg.FRAME_SPEC_KEPT.KEPT, Reg.FRAME_SPEC_SQUASHED.SQUASHED, Reg.FRAME_SPEC_RECOMPUTED.BLOCKS,
   Reg.FRAME_SPEC_RESTARTS.RESTARTS, Reg.FRAME_PROPOSE_STATUS.DISABLED, Reg.FRAME_PROPOSE_STATUS.ABANDONED, Reg.FRAME_PROPOSE_STATUS.CUT,
   Reg.FRAME_PROPOSE_STATUS.NO_STATE, Reg.FRAME_PROPOSE_STATUS.COMPLETE, Reg.FRAME_PROPOSE_DONE_US.DONE, Reg.LEDGER_RELAX.RELAX,
   Reg.LEDGER_PATHS.PATHS, Reg.LEDGER_PATHS.COMPLETE, Reg.LEDGER_TRANSITIONS.TRANSITIONS, Reg.LEDGER_UPDATES.UPDATES,
   Reg.LEDGER_TOUCHED.TOUCHED, Reg.ORDER_COUNT.N, Reg.ORDER_NAN_COUNT.NAN, Reg.ORDER_TIE_COUNT.TIES, Reg.ORDER_LISTS.LISTS,
   Reg.ORDER_STATUS.SHORT, Reg.ORDER_STATUS.TIES_BEYOND_K, Reg.ORDER_STATUS.FALLBACK_PATH, Reg.ORDER_CYCLES.CYCLES,
   Reg.SOLVER_RESULT.ITERATIONS, Reg.SOLVER_RESULT.RFLAGS, Reg.SOLVER_RESULT.ENGINE, Reg.SOLVER_RESULT.STATUS, Reg.SOLVER_RES_PRIM.RES,
   Reg.SOLVER_GAP.GAP, Reg.SAFE_VERDICT.VERDICT, Reg.SAFE_VERDICT.SHADOW, Reg.SAFE_VERDICT_EPOCH.EPOCH, Reg.SAFE_REASON.REASON,
   Reg.SAFE_TS_CLEARANCE.LTS, Reg.SAFE_MAIN_CLEARANCE.FINAL, Reg.DIGEST_STATUS.MASK, Reg.DIGEST_STATUS.SHADOW, Reg.DIGEST_EPOCH.EPOCH,
   Reg.DIGEST_FRAME_LO.LO, Reg.DIGEST_FRAME_HI.HI, Reg.DIGEST_WORLD_LO.LO, Reg.DIGEST_WORLD_HI.HI] ++
  ((List.range 9).flatMap fun i => [Reg.DIGEST_STAGE_LO.LO (i + 1), Reg.DIGEST_STAGE_HI.HI (i + 1)]) ++
  (List.range 16).map Reg.DIGEST_PROVENANCE.DIGEST ++ (List.range 1024).map Reg.ORDER_TOP.ENTRY ++
  ((List.range 16).flatMap fun l => [Reg.WORLD_DIRTY_COUNT.DIRTY l, Reg.WORLD_CHANGE_COUNT.CHANGED l]) ++
  ((List.range 32).map Reg.WORLD_STREAM_BYTES.BYTES) ++ [Reg.WORLD_DT_PANELS.PANELS, Reg.WORLD_DT_CYCLES.CYCLES]

/-- The pins pass from BUS to WAKE (R437 steps 1 and 3): the empty table is published with a swap, then the drivers are off
and HEARTBEAT and SP_SWAP are held low (R567). -/
def pinsToWake (s : State) : State :=
  let ph := s.pins.spPhase
  let s := emptyTable (swapTable s [] 0 0)
  let s := setPhase s (if ph = 1 ∨ ph = 2 then 3 else ph)
  { s with pins := { s.pins with spSwap := false, heartbeat := false }, safety := { s.safety with driven := none, wakeSamples := (0, 0) } }

/-- Frames stop at the end of a drain frame. -/
def stopFrames (s : State) : State :=
  let s := (s.set Reg.FRAME_STATUS.FRAME_ACTIVE 0).set Reg.FRAME_STATUS.SHADOW 0
  { s with frame := { s.frame with running := false, inFrame := false, drain := false, gapExcused := true }
           cfg := { s.cfg with drainFor := 0 } }

/-- DRAIN_FRAME_END (R89, R93, R340, R467, R566, R591): speculative epochs are discarded and jobs cancelled; then the reload, the
hold, the rest of an entry into NAP or SLEEP, or a cold restart follows. -/
def execDrainFrameEnd (s : State) : Result :=
  if !s.frame.inFrame ∨ !s.frame.drain then .next s
  else
    let why := s.cfg.drainFor
    let s := advanceTo s (s.frameStartNs (s.frame.k + 1))
    let s := stopFrames (endJobs (discardAll s) 3 (some 3))
    match why with
    | 1 =>
      let s := if s.cfg.shadowSet.isEmpty then s
        else { s.set Reg.CONFIG_SWITCH_STATUS.SHADOW_DISCARDED 1 with cfg := { s.cfg with shadowSet := [] } }
      .next (setMode (switchPhase s 4) modeSwitch)
    | 2 =>
      let s := setMode (switchPhase s 6) modeSwitch
      .next { s with cfg := { s.cfg with held := true } }
    | 5 => .next (restartAs (setMode s modeSwitch) false)
    | 6 => .next (beginRestart (setMode s modeSwitch))
    | _ =>
      let s := pinsToWake s
      .next { s with power := { s.power with closing := true } }

/-- RELOAD_DONE (R90): the prepared image takes effect, and two shadow frames follow from the first frame start of its timing
that is not earlier than the end of the reload and whose epoch is later than the drain frame's. -/
def execReloadDone (t : Nat) (s : State) : Result :=
  match s.cfg.next with
  | some img =>
    if s.get Reg.CONFIG_SWITCH_STATUS.PHASE ≠ 4 then .next s
    else
      let i := s.get Reg.CONFIG_LOAD_STATUS.SLOT
      let s := advanceTo s (max s.frame.now t)
      let s := install s img s.cfg.nextBulk i (s.slotOf i).sequence
      let s := dropToken (switchPhase s 5) switchToken
      .next (shadowFrom s (s.nextFrame t))
  | none => .next s

end Sys2Proof.Machine
end

