-- ==== Sys2Proof/Machine/Chain.lean ====
section
/-! DEFINITION. The chain (chapter 17): the head's view of the enumerated devices, routes (R495), positions (R494), path
latencies and the topology checks (R496), placements, and the clamp barrier's start (R504). -/

namespace Sys2Proof.Machine

/-! ## Routes (R495) -/

/-- A device of the chain by number. -/
def findDev (ds : List ChainDev) (n : Nat) : Option ChainDev := ds.find? fun d => d.number == n

/-- Links of a device in use TREE or CROSS, ascending: link, peer and latency in ps. -/
def devEdges (d : ChainDev) : List (Nat × Nat × Nat) :=
  ((d.links.filter fun l => decide (l.2.2.1 ≤ 1)).mergeSort fun a b => decide (a.1 ≤ b.1)).map fun l => (l.1, l.2.1, l.2.2.2)

/-- Hop counts to a device, found in rounds. -/
def hopRounds (ds : List ChainDev) : Nat → Nat → List (Nat × Nat) → List (Nat × Nat)
  | 0, _, known => known
  | n + 1, r, known =>
    let new := ds.filter fun d => !(known.any fun k => k.1 == d.number) && (devEdges d).any fun e => known.contains (e.2.1, r)
    hopRounds ds n (r + 1) (known ++ new.map fun d => (d.number, r + 1))

/-- Hop counts to device `b`. -/
def hopsTo (ds : List ChainDev) (b : Nat) : List (Nat × Nat) := hopRounds ds ds.length 0 [(b, 0)]

/-- The first hop of the shortest route from `a` to `b`, the lowest link winning: link, peer, latency. -/
def firstHop (ds : List ChainDev) (a b : Nat) : Option (Nat × Nat × Nat) :=
  let h := hopsTo ds b
  match findDev ds a, h.find? fun k => k.1 == a with
  | some d, some (_, n) => if n = 0 then none else (devEdges d).find? fun e => h.contains (e.2.1, n - 1)
  | _, _ => none

/-- The route from `a` to `b`: each hop as its device and its first hop. -/
def routeHops (ds : List ChainDev) (b : Nat) : Nat → Nat → List (Nat × Nat × Nat × Nat)
  | 0, _ => []
  | n + 1, a => if a = b then [] else match firstHop ds a b with
    | some (l, p, lat) => (a, l, p, lat) :: routeHops ds b n p
    | none => []

/-- The route from `a` to `b` (R495). -/
def routeOf (ds : List ChainDev) (a b : Nat) : List (Nat × Nat × Nat × Nat) := routeHops ds b ds.length a

/-- Path latency in ps: the links' latencies, and 60 ns for each device that forwards (R496). -/
def pathPs (ds : List ChainDev) (a b : Nat) : Nat :=
  let r := routeOf ds a b
  r.foldl (fun n h => n + h.2.2.2) 0 + 60000 * (r.length - 1)

/-! ## Placement (R494, R496) -/

/-- The devices strapped tail; in a chain of one device, which a pair side may be, the head stands in (R423). -/
def tailsOf (ds : List ChainDev) : List ChainDev := match ds with
  | [d] => if d.role == 3 || d.pair == 1 || d.pair == 2 then [d] else []
  | _ => ds.filter fun d => d.role == 3

/-- The tail. -/
def tailOf (ds : List ChainDev) : Option ChainDev := (tailsOf ds).head?

/-- The spare: with four or more devices, the middle device with the highest number. -/
def spareOf (ds : List ChainDev) : Option Nat :=
  if ds.length < 4 then none
  else ((ds.filter fun d => d.role == 2).map (·.number)).foldl (fun m n => some (match m with
    | some x => max x n
    | none => n)) none

/-- Device number of each chain position, with the spare `sp`: the active devices but the tail in ascending number, then the
tail. -/
def positionsOf (ds : List ChainDev) (sp : Option Nat) (tail : Nat) : List Nat :=
  ((ds.map (·.number)).filter fun n => n != tail && sp != some n).mergeSort (fun a b => decide (a ≤ b)) ++ [tail]

/-- The worst path W in ps, over the active devices. -/
def worstPs (ds : List ChainDev) (sp : Option Nat) (tail : Nat) : Nat := (positionsOf ds sp tail).foldl (fun m a => max m (pathPs ds a tail)) 0

/-- The first matching rejection of R496, 0 for none. -/
def topologyFail (ds : List ChainDev) (sp : Option Nat) (img : Option Image) (budgetPs : Nat) : Nat :=
  match tailsOf ds with
  | [t] =>
    let headPair := match findDev ds 0 with
      | some h => h.pair
      | none => 0
    if (ds.any fun d => d.role == 1 && d.number != 0) || ((t.pair == 1 || t.pair == 2) && t.pair != headPair) then 2
    else if 4095 < ds.length then 3
    else if budgetPs < worstPs ds sp t.number then 4
    else
      let c := (positionsOf ds sp t.number).length
      match img with
      | some i => if (List.range i.opCount).any fun o => decide (c ≤ i.opField o 3 1) then 5 else 0
      | none => 0
  | _ => 1

/-- A device sends CONFIRM: it is on the route of some active device to the tail (R500). -/
def confirmsOn (ds : List ChainDev) (sp : Option Nat) (tail n : Nat) : Bool :=
  (positionsOf ds sp tail).any fun a => (routeOf ds a tail).any fun h => h.1 == n

/-- What the head sends device `n` (R494, R495). -/
def placementOf (ds : List ChainDev) (sp : Option Nat) (img : Option Image) (budgetPs n : Nat) : Placement :=
  let fail := topologyFail ds sp img budgetPs
  let tail := match tailOf ds with
    | some t => t.number
    | none => 0xFFF
  let nums := ds.map (·.number)
  let pos := positionsOf ds sp tail
  let mine := match findDev ds n with
    | some d => (devEdges d)
    | none => []
  { number := n, position := if sp = some n then 0xFFF else (pos.idxOf? n).getD 0xFFF, active := pos.length
    count := ds.length, tail, down := (firstHop ds n tail).map (·.1)
    feeders := (mine.filter fun e => confirmsOn ds sp tail e.2.1 && (match firstHop ds e.2.1 tail with
      | some h => h.2.1 == n
      | none => false)).map (·.1)
    away := (mine.filter fun e => nums.any fun b => (routeOf ds 0 b).any fun h => h.1 == n && h.2.1 == e.1).map (·.1)
    routes := nums.filterMap fun b => if b = n then none else (firstHop ds n b).map fun h => (b, h.1)
    numbers := pos, worst := ceilDiv (worstPs ds sp tail) 1000, fail }

/-- A device takes what the head has sent it: its number, position, C, N, the tail and its routes. -/
def applyPlacement (s : State) (p : Placement) : State :=
  let s := (s.set Reg.TENON_STATUS.DEVICE p.number).set Reg.TENON_STATUS.SPARE (bit (p.position == 0xFFF))
  let s := (s.set Reg.TENON_STATUS.STATE (if p.fail = 0 then 4 else 5)).set Reg.TENON_STATUS.FAIL p.fail
  let s := (s.set Reg.TENON_CHAIN.ACTIVE p.active).set Reg.TENON_CHAIN.POSITION p.position
  let s := (s.set Reg.TENON_DEVICES.TAIL p.tail).set Reg.TENON_DEVICES.COUNT p.count
  let s := s.set Reg.TENON_WORST_NS.WORST p.worst
  { s with tenon := { s.tenon with down := p.down, feeders := p.feeders, away := p.away, routes := p.routes, numbers := p.numbers
                                   reenumerate := false } }

/-- The chain latency budget L = B_refine / 16 in ps (R496). -/
def Image.budgetPs (i : Image) : Nat := 1000000 * i.refineUs / 16

/-! ## The clamp barrier (R504, R505) -/

/-- The maintenance token of a clamp. -/
def clampToken : Token := { act := 10, cls := 0, idx := 0 }

/-- The clamp is over: the token is released, the largest residual shown, and a REFUSED reported, to be retried. -/
def endClamp (s : State) (c : ClampSt) : State :=
  let s := dropToken (s.set Reg.TENON_CLAMP_SKEW_PS.SKEW (min c.skew 0xFFFFFFFF)) clampToken
  let s := s.set Reg.TENON_STATUS.STATE 4
  let s := if c.refused then s.set Reg.TENON_CMD_STATUS.RESULT 2 else s
  { s with tenon := { s.tenon with clamp := none, clampDue := c.refused } }

/-- The head runs a clamp: under its token, CLAMP goes to every device with a target at least 20 us ahead that is a frame start.
A refused token leaves the clamp owed. -/
def startClamp (s : State) : State :=
  let r := takeToken s clampToken
  if !r.1 then
    { r.2.set Reg.TENON_CMD_STATUS.RESULT 2 with tenon := { r.2.tenon with clampDue := true } }
  else
    let s := r.2
    let n := s.get Reg.TENON_DEVICES.COUNT
    let k := if s.periodNs = 0 then 0 else ((s.frame.now + 20000 - s.origin + s.periodNs - 1) / (s.periodNs : Int)).toNat
    let target := s.frameStartNs k
    let s := s.tenon.away.foldl (fun s l => sendToken s l 3 0 0xFFF 0 target 0) (s.set Reg.TENON_STATUS.STATE 3)
    let c : ClampSt := { target, left := n - 1, skew := 0, refused := false }
    let s := { s with tenon := { s.tenon with clamp := some c, clampDue := false, armed := some target } }
    if n ≤ 1 then endClamp s c else s

/-- A clamp that is owed is run, on the head of an enumerated chain. -/
def clampIfDue (s : State) : State :=
  if s.isHead ∧ s.get Reg.TENON_STATUS.STATE = 4 ∧ s.tenon.clampDue then startClamp s else s

end Sys2Proof.Machine
end

