-- ==== Sys2Proof/Machine/Tenon.lean ====
section
/-! DEFINITION. Tenon link commands (chapter 17): flits, acknowledgements and replay (R482 to R487), training and loss (R480, R487,
R507), messages (R491, R498, R499), tokens (R500 to R508), and the commands of the TENON block (R509). -/

namespace Sys2Proof.Machine

/-- The part has link `l`, and it is good. -/
def State.hasLink (s : State) (l : Nat) : Bool := decide (l < 4) && bitOf s.die.links l

/-! ## Flits -/

/-- Virtual channel of a sequenced flit type (Table 17-3); none for a type that is not sequenced or does not exist. -/
def typeVc (ty : Nat) : Option Nat := match ty with
  | 1 => some 0
  | 2 => some 0
  | 3 => some 2
  | 4 => some 1
  | 5 => some 3
  | _ => none

/-- A flit is bad (R482). -/
def flitBad (f : Flit) : Bool :=
  !f.codewordOk || !f.crcOk || decide (16 ≤ f.flags) ||
  (match typeVc f.ty with
  | some v => f.vc != v
  | none => !((f.ty == 0 || f.ty == 0x3E) && f.vc == 0))

/-- A retrain asks for its token; refused, the link shows RETRAIN_WAIT and asks again (R487). -/
def requestRetrain (s : State) (l : Nat) : State :=
  let x := s.link l
  if x.retraining ∨ x.lost then s
  else
    let r := takeToken s { act := 6, cls := 0, idx := l }
    if r.1 then
      let s := (r.2.set (Reg.TENON_LINK_STATUS.STATE l) 1).inc (Reg.TENON_LINK_RETRAINS.COUNT l)
      s.setLink l { x with retrainWait := false, retraining := true, episodes := 0, uncorr := [], downAt := some s.frame.now }
    else (r.2.set (Reg.TENON_LINK_STATUS.STATE l) 3).setLink l { x with retrainWait := true, downAt := some (x.downAt.getD s.frame.now) }

/-- An acknowledgement covers every outstanding flit up to its sequence (R484). Epochs it clears may be confirmed (R500). -/
def ackFlits (s : State) (l ack : Nat) : State :=
  let x := s.link l
  match x.outstanding.findIdx? fun o => o.seq == ack with
  | none => s
  | some i =>
    let s := pumpLink (s.setLink l { x with outstanding := x.outstanding.drop (i + 1), episodes := 0 }) l
    match s.tenon.outputsSent with
    | some e => tryConfirm s e
    | none => s

/-- Credits returned to a pool (R490), at most its size. -/
def addCredits (s : State) (l pool n : Nat) : State :=
  if pool ≤ 4 then
    let f := creditField l pool
    pumpLink (s.set f (min (s.get f + n) (if pool = 4 then 160 else 8))) l
  else s

/-- A replay episode: every outstanding flit is sent again in order; the 16th without progress asks for a retrain (R486,
R487). -/
def replayEpisode (s : State) (l : Nat) : State :=
  let x := s.link l
  if x.outstanding.isEmpty ∨ !s.linkUp l then s
  else
    let s := (s.inc (Reg.TENON_LINK_REPLAYS.COUNT l)).setLink l { x with episodes := x.episodes + 1, ackDue := false }
    if 16 ≤ x.episodes + 1 then requestRetrain s l else s

/-- The last sequence accepted, as ACK carries it. -/
def LinkSt.accepted (x : LinkSt) : Nat := (x.rxSeq + 1023) % 1024

/-- One NAK for an episode of bad or out-of-sequence flits (R485). -/
def sendNak (s : State) (l : Nat) : State :=
  let x := s.link l
  if x.nakSent then s
  else s.setLink l { x with nakSent := true, ackDue := false, control := (0x3E, x.txSeq, x.accepted) :: x.control }

/-- Counts of the codeword that carried a flit; more than 64 uncorrectable ones within 1 ms ask for a retrain (R487). -/
def countCodeword (s : State) (l : Nat) (f : Flit) : State :=
  let s := if f.corrected then s.inc (Reg.TENON_LINK_FEC_CORR.COUNT l) else s
  if f.codewordOk then s
  else
    let x := s.link l
    let u := (x.uncorr.filter fun t => decide (s.frame.now < t + 1000000)) ++ [s.frame.now]
    let s := (s.inc (Reg.TENON_LINK_FEC_UNCORR.COUNT l)).setLink l { x with uncorr := u }
    if 64 < u.length then requestRetrain s l else s

/-- FLIT_RECEIVE (R482, R485, R486, R490): a bad flit is counted and discarded; an intact one is taken in sequence. What an
intact flit acknowledges and returns holds whether its payload is taken or not. -/
def execFlitReceive (link : Nat) (f : Flit) (s : State) : Result :=
  if !s.hasLink link then .fault .noSuchUnit
  else if !s.linkUp link then .next s
  else
    let s := countCodeword s link f
    if flitBad f then .next (sendNak (s.inc (Reg.TENON_LINK_CRC_ERR.COUNT link)) link)
    else
      let s := addCredits (ackFlits s link f.ack) link f.pool f.count
      match typeVc f.ty with
      | none => .next (if f.ty = 0x3E then replayEpisode s link else s)
      | some _ =>
        let x := s.link link
        if f.seq = x.rxSeq then
          .next (s.setLink link { x with rxSeq := (x.rxSeq + 1) % 1024, nakSent := false, ackDue := true, creditsDue := x.creditsDue + 1 })
        else .next (sendNak s link)

/-- NAK (R486): every outstanding flit from ACK + 1 is replayed. -/
def execNak (link ack : Nat) (s : State) : Result :=
  if !s.hasLink link then .fault .noSuchUnit else .next (replayEpisode (ackFlits s link ack) link)

/-- REPLAY_TIMEOUT (R486). -/
def execReplayTimeout (link : Nat) (s : State) : Result :=
  if !s.hasLink link then .fault .noSuchUnit else .next (replayEpisode s link)

/-- IDLE_FLIT_TIMER (R485): an IDLE carries an acknowledgement that is due. -/
def execIdleFlitTimer (link : Nat) (s : State) : Result :=
  if !s.hasLink link then .fault .noSuchUnit
  else
    let x := s.link link
    .next (if x.ackDue ∧ s.linkUp link then
      s.setLink link { x with ackDue := false, creditsDue := x.creditsDue - 63, control := (0, x.txSeq, x.accepted) :: x.control } else s)

/-! ## Training and loss -/

/-- LINK_RETRAIN (R487): lane lock is lost. -/
def execLinkRetrain (link : Nat) (s : State) : Result :=
  if !s.hasLink link then .fault .noSuchUnit
  else .next (if s.get (Reg.TENON_LINK_STATUS.STATE link) = 2 then requestRetrain s link else s)

/-- RETRAIN_TOKEN_RETRY (R487): every 10 us. -/
def execRetrainTokenRetry (link : Nat) (s : State) : Result :=
  if !s.hasLink link then .fault .noSuchUnit
  else .next (if (s.link link).retrainWait then requestRetrain s link else s)

/-- A link comes up again after a retrain (R487): its token is released, and the retrain counts as a corrected error. -/
def linkAgain (s : State) (link : Nat) : State :=
  let s := dropToken (s.setLink link { s.link link with retraining := false, retrainWait := false, downAt := none }) { act := 6, cls := 0, idx := link }
  let s := detect s (mkError 6 link 0 8 0)
  if s.hasTest 6 link then endTest s 6 link true else s

/-- A link comes up for the first time: its sequences start at 0 and its credits are full (R481, R489). -/
def linkFirst (s : State) (link : Nat) : State :=
  [0, 1, 2, 3].foldl (fun (s : State) p => s.set (creditField link p) 8) ((s.setLink link {}).set (creditField link 4) 160)

/-- A trained link (R480, R481): it is UP with its latency; after a retrain a clamp is due and its flits are sent again. -/
def linkTrained (s : State) (link latencyPs : Nat) : State :=
  let again := (s.link link).retraining
  let s := (s.set (Reg.TENON_LINK_STATUS.STATE link) 2).set (Reg.TENON_LINK_LAT_PS.LATENCY link) latencyPs
  let s := if again then linkAgain s link else linkFirst s link
  let s := { s with tenon := { s.tenon with clampDue := s.tenon.clampDue || again } }
  clampIfDue (replayEpisode (pumpLink s link) link)

/-- LINK_TRAINED (R480, R487, R490): the link is up with its latency. A retrain is CORRECTED, counts as the link's test and keeps
what was in flight; a link that comes up afresh starts with all 192 credits. A clamp follows (R504). With the 25 MHz crystal as reference, training fails (R620). -/
def execLinkTrained (link latencyPs : Nat) (s : State) : Result :=
  if !s.hasLink link then .fault .noSuchUnit
  else if !s.unitUsable 6 link ∨ s.get (Reg.TENON_LINK_CTL.ENABLE link) = 0 ∨ s.get Reg.SAFE_SP_STRAPS.REF = 1 then .next s
  else .next (linkTrained s link latencyPs)

/-- LINK_LOSS (R507): a link that is down and does not come back up is lost: a CONTAINED error of the link; its replay buffer is
discarded, and the chain is enumerated again at the next restart. -/
def execLinkLoss (link : Nat) (s : State) : Result :=
  if !s.hasLink link then .fault .noSuchUnit
  else
    let x := s.link link
    if x.lost ∨ s.linkUp link ∨ x.downAt.isNone then .next s
    else
      let s := if x.retraining then dropToken s { act := 6, cls := 0, idx := link } else s
      let s := (s.set (Reg.TENON_LINK_STATUS.STATE link) 0).setLink link { x with outstanding := [], waiting := [], lost := true, retraining := false, retrainWait := false }
      let s := { s with tenon := { s.tenon with reenumerate := true } }
      .next (detect s (mkError 6 link 1 8 0))

/-! ## Messages -/

/-- The message goes on towards its destination, where that is another device. -/
def forwardTo (s : State) (dest : Nat) (fs : List OutFlit) : State := match s.routeTo dest with
  | some l => sendMessage s l fs
  | none => s

/-- FLAGS bits of a message that goes on. -/
def msgExtra (m : Message) : Nat := 4 * bit m.speculative + 8 * bit m.resent

/-- A received block as a block of this epoch: its place from its block ID, and the footprint and state dependence its producer
formed (R255), free where its inputs are not at hand. -/
def receivedBlock (s : State) (img : Image) (spec : Option SpecEp) (tensor index : Nat) (data : List Byte) : Option Block × State :=
  match (List.range img.opCount).find? fun o => img.opField o 0xA 2 == tensor with
  | none => (none, s)
  | some o =>
    let ins := (List.range 3).map (img.opIn o)
    match s.netCtx img spec with
    | some c =>
      let ready := ins.all fun i => i == 0xFFFF || img.tensorKind i != 0 ||
        (List.range (img.tensorBlocks i)).all fun k => c.blocks.any fun q => q.tensor == i && q.index == k
      if ready then
        let b := opBlock c o index
        (some { op := o, tensor, index, data, footprint := b.footprint, onState := b.onState }, s)
      else
        let d := s.draw 257
        (some { op := o, tensor, index, data, footprint := d.1.toNat / 2, onState := d.1.toNat % 2 == 1 }, d.2)
    | none =>
      let d := s.draw 257
      (some { op := o, tensor, index, data, footprint := d.1.toNat / 2, onState := d.1.toNat % 2 == 1 }, d.2)

/-- Blocks with one replaced or added: a later copy takes the place of an earlier one (R499). -/
def putBlock (b : Block) (bs : List Block) : List Block := (bs.filter fun q => !(q.tensor == b.tensor && q.index == b.index)) ++ [b]

/-- BLOCK_MESSAGE (R267, R491, R499, R501): forwarded where it is for another device; a block whose dowel fails condemns its
epoch; else it is used, unconfirmed, in the committed or its speculative epoch. -/
def execBlockMessage (m : Message) (s : State) : Result :=
  if !s.hasLink m.link then .fault .noSuchUnit
  else if m.dest ≠ s.device then .next (forwardTo s m.dest (messageFlits 1 0 (epochLo m.epoch) (msgExtra m) (routeHeader m.dest m.source 1 4096 m.epoch ++ m.body)))
  else match s.cfg.image with
  | none => .next s
  | some img =>
    let id := u32 m.body 0
    let data := (m.body.drop 16).take 4096
    let tensor := id / 2 ^ 19 % 2 ^ 12
    let index := id % 2 ^ 19
    let good := m.intact && m.agrees && decide (id < 2 ^ 31) && data.length == 4096 &&
      u64 m.body 8 == (dowel data id m.epoch.toNat).toNat
    if !good then .next (condemn s m.epoch 1)
    else
      match s.specEp m.epoch with
      | some y =>
        let r := receivedBlock s img (some y) tensor index data
        match r.1 with
        | some b => .next (r.2.setSpec { y with blocks := putBlock b y.blocks })
        | none => .next s
      | none =>
        if m.epoch ≠ epochOf s.frame.k ∨ !s.frame.inFrame then .next s
        else
          let r := receivedBlock s img none tensor index data
          match r.1 with
          | some b => .next { r.2 with jig := { r.2.jig with received := putBlock b r.2.jig.received } }
          | none => .next s

/-- An ordering entry from its 16 bytes (Table 10-2). -/
def entryFrom (b : List Byte) : PEntry :=
  { id := u32 b 0, score := BitVec.ofNat 32 (u32 b 4), flags := u16 b 8, src := byteAt b 10, eflags := byteAt b 11, minc := signed 32 (u32 b 12) }

/-- A partial list from its bytes (R280). -/
def listFrom (b : List Byte) : PList :=
  { src := byteAt b 0, conflict := bitOf (byteAt b 1) 0
    entries := (List.range (u16 b 2)).map fun i => entryFrom ((b.drop (16 + 16 * i)).take 16)
    offered := u32 b 4, nanOffered := u32 b 8, exclTie := u16 b 12 }

/-- Chain position of a device number. -/
def State.positionOf (s : State) (d : Nat) : Nat := (s.tenon.numbers.idxOf? d).getD 0xFFF

/-- A RECORD message for another device goes on as it came; where its CRC failed here, the CRC it carries is free. -/
def forwardRecord (s : State) (m : Message) : State :=
  if m.intact then forwardTo s m.dest (crcMessage 2 0 m.dest m.source m.epoch (msgExtra m) m.body)
  else
    let d := s.draw 64
    forwardTo d.2 m.dest (messageFlits 2 0 (epochLo m.epoch) (msgExtra m)
      (routeHeader m.dest m.source 1 m.body.length m.epoch ++ m.body ++ beBytes d.1.toNat 8))

/-- RECORD_MESSAGE (R491, R501, R502): a list whose CRC or epoch fails condemns its epoch; else it waits for the merge, in chain
and tile order, unless the remote lists have been left out. -/
def execRecordMessage (m : Message) (s : State) : Result :=
  if !s.hasLink m.link then .fault .noSuchUnit
  else if m.dest ≠ s.device then .next (forwardRecord s m)
  else if !m.intact ∨ !m.agrees then .next (condemn s m.epoch 1)
  else if m.epoch ≠ epochOf s.frame.k ∨ !s.frame.inFrame ∨ s.order.remoteClosed ∨ s.order.inputs.isSome then .next s
  else
    let l := listFrom m.body
    let p := s.positionOf m.source
    let before := fun (x : Nat × PList) => decide (x.1 < p) || (x.1 == p && decide (x.2.src < l.src))
    let r := s.order.remote.filter fun x => !(x.1 == p && x.2.src == l.src)
    .next { s with order := { s.order with remote := r.filter before ++ [(p, l)] ++ r.filter fun x => !before x } }

/-- WORLD_MESSAGE (R491, R498, R501): an admitted frame the head forwards is applied to the epoch it was admitted to, and goes on
away from the head. -/
def execWorldMessage (m : Message) (t : Nat) (s : State) : Result :=
  if !s.hasLink m.link then .fault .noSuchUnit
  else
    let s := { s with frame := { s.frame with now := max s.frame.now t } }
    if !m.intact ∨ !m.agrees then .next (condemn s m.epoch 1)
    else
    let s := (s.tenon.away.filter (· ≠ m.link)).foldl (fun s l => sendMessage s l (crcMessage 5 3 m.dest m.source m.epoch (msgExtra m) m.body)) s
    match s.cfg.image with
    | none => .next s
    | some img =>
      let d := beAt m.body 16 2
      let payload := m.body.drop 32
      match parsePayload (d == 0xFFFF) payload with
      | none => .next s
      | some (recs, eoe) =>
        if s.isHead then .next s
        else .next (admitFrame s img d m.epoch (BitVec.ofNat 32 (beAt m.body 8 4)) recs eoe false payload.length m.body)

/-! ## CONFIRM and SQUASH -/

/-- CONFIRM (R500): counted for its link; on the tail one after the verdict time is late; elsewhere the device may confirm. -/
def execConfirm (link : Nat) (epoch : Epoch) (s : State) : Result :=
  if !s.hasLink link then .fault .noSuchUnit
  else
    let e := epochOf s.frame.k
    let late := epochLater e epoch || (epoch == e && (s.frame.verdictDone || !s.frame.inFrame))
    let s := if s.isTail ∧ s.inChain ∧ late then s.inc Reg.TENON_CONFIRM_LATE.COUNT else s
    let s := if s.tenon.confirms.contains (epoch, link) then s
      else { s with tenon := { s.tenon with confirms := s.tenon.confirms ++ [(epoch, link)] } }
    .next (tryConfirm s epoch)

/-- SQUASH_TOKEN (R501): the epoch is condemned here too. -/
def execSquashToken (link : Nat) (epoch : Epoch) (_cause : Nat) (s : State) : Result :=
  if !s.hasLink link then .fault .noSuchUnit
  else .next (condemn (s.inc Reg.TENON_SQUASH_RECEIVED.COUNT) epoch 2)

/-! ## Clamp and time -/

/-- Some link retrains. -/
def State.retrains (s : State) : Bool := (List.range 4).any fun l => (s.link l).retraining

/-- A token of another device goes on to the head. -/
def relayToHead (s : State) (kind flags src : Nat) (e : Epoch) (v0 v1 : Nat) : State := match s.routeTo 0 with
  | some l => sendFlit s l (tokenFlit (tokenBytes kind flags src 0 e v0 v1))
  | none => s

/-- CLAMP (R504, R505): the token goes on away from the head; the frame timer is armed to its target and the residual, which the
spec leaves to the hardware, reported; during a retrain the answer is REFUSED. -/
def execClamp (link target : Nat) (s : State) : Result :=
  if !s.hasLink link then .fault .noSuchUnit
  else if s.isHead ∨ !s.inChain then .next s
  else
    let s := (s.tenon.away.filter (· ≠ link)).foldl (fun s l => sendFlit s l (tokenFlit (tokenBytes 3 0 0 0xFFF 0 target 0))) s
    if s.retrains then .next (relayToHead s 4 1 s.device 0 0 0)
    else
      let d := s.draw 64
      .next (relayToHead { d.2 with tenon := { d.2.tenon with armed := some target } } 4 0 s.device 0 d.1.toNat 0)

/-- CLAMP_DONE (R504, R505): the head collects residuals; the last one ends the clamp. Another device passes it on. -/
def execClampDone (source : Nat) (residual : Int) (refused : Bool) (s : State) : Result :=
  if !s.isHead then .next (if s.inChain then relayToHead s 4 (bit refused) source 0 (pattern 64 residual) 0 else s)
  else match s.tenon.clamp with
  | none => .next s
  | some c =>
    let c : ClampSt := { c with left := c.left - 1, skew := if refused then c.skew else max c.skew residual.natAbs, refused := c.refused || refused }
    if c.left = 0 then .next (endClamp s c) else .next { s with tenon := { s.tenon with clamp := some c } }

/-- TIME_TOKEN (R503): the time base follows the sender's plus the link's latency, and HOLDOVER propagates. -/
def execTimeToken (link value : Nat) (holdover : Bool) (s : State) : Result :=
  if !s.hasLink link then .fault .noSuchUnit
  else if s.isHead ∨ !s.inChain then .next s
  else
    let lat := s.get (Reg.TENON_LINK_LAT_PS.LATENCY link)
    let t : Int := ((1000 * value + 65536 * lat) / 65536000 : Nat)
    .next (correctTime (s.set Reg.FRAME_STATUS.HOLDOVER (bit holdover)) (t - s.frame.now))

/-- TIME_TOKEN_TIMER (R503): every 125 us, on each link that leads away from the head. -/
def execTimeTokenTimer (s : State) : Result :=
  .next (s.tenon.away.foldl (fun s l =>
    sendToken s l 5 (s.get Reg.FRAME_STATUS.HOLDOVER) 0xFFF 0 (s.frame.now.toNat * 65536 % 2 ^ 64) 0) s)

/-! ## Pairs (R508) -/

/-- DIGEST_TOKEN (R508): another device passes it on; the head sends its own side's to the peer head, and compares the two tokens
of an epoch that come within 2 * T_frame. -/
def execDigestToken (link : Nat) (epoch : Epoch) (frame world : Nat) (deadlineHit sideB : Bool) (t : Nat) (s : State) : Result :=
  if !s.hasLink link then .fault .noSuchUnit
  else
    let flags := bit deadlineHit + 2 * bit sideB
    if !s.isHead then .next (if s.inChain then relayToHead s 6 flags (s.get Reg.TENON_DEVICES.TAIL) epoch frame world else s)
    else .next (takePairToken s { epoch, frame, world, deadlineHit, sideB, time := t })

/-- PAIR_DIGEST_TIMEOUT (R508): a token whose pair did not come is skipped. -/
def execPairDigestTimeout (epoch : Epoch) (s : State) : Result :=
  if s.tenon.pairs.any fun y => y.epoch == epoch then
    .next ({ s with tenon := { s.tenon with pairs := s.tenon.pairs.filter fun y => y.epoch != epoch } }.inc Reg.TENON_PAIR_SKIPPED.COUNT)
  else .next s

/-! ## The commands of the TENON block (R509) -/

/-- The part has Tenon links. -/
def State.hasTenon (s : State) : Bool := s.die.part != 2

/-- A TENON command is accepted only from the sources of R75; the HN816 answers BAD_ADDRESS. -/
def tenonWrite (src : Source) (s : State) (f : State → State) : State :=
  if !s.hasTenon then { s with access := 8 } else ownerOnly src s f

/-- CLAMP written to TENON_CMD (R504). -/
def clampCmd (src : Source) (s : State) : State :=
  tenonWrite src s fun s =>
    let res := fun (r : Nat) => s.set Reg.TENON_CMD_STATUS.RESULT r
    if !s.isHead then res 1
    else if s.get Reg.TENON_STATUS.STATE ∉ [3, 4] then res 3
    else startClamp (res 0)

/-- TENON_CLAMP_CMD (R504, R509). -/
def execTenonClampCmd (src : Source) (s : State) : Result := .next (clampCmd src s)

/-- ENUMERATE written to TENON_CMD: the head enumerates again at the next restart. -/
def enumerateCmd (src : Source) (s : State) : State :=
  tenonWrite src s fun s =>
    if !s.isHead then s.set Reg.TENON_CMD_STATUS.RESULT 1
    else { s.set Reg.TENON_CMD_STATUS.RESULT 0 with tenon := { s.tenon with reenumerate := true } }

/-- TENON_ENUMERATE_CMD (R509). -/
def execTenonEnumerateCmd (src : Source) (s : State) : Result := .next (enumerateCmd src s)

/-- READ or WRITE in TENON_RMT_CMD: the request goes to its target in a MAINT message, or is UNREACHABLE. -/
def remoteCmd (src : Source) (s : State) : State :=
  tenonWrite src s fun s =>
    if s.get Reg.TENON_RMT_STATUS.BUSY = 1 then s
    else
      let d := s.get Reg.TENON_RMT_DEV.DEVICE
      match s.routeTo d with
      | none => (s.set Reg.TENON_RMT_STATUS.STATUS 0x0A).set Reg.TENON_RMT_STATUS.FAIL_INDEX 0
      | some l =>
        let s := maintMessage (s.set Reg.TENON_RMT_STATUS.BUSY 1) l d 3
        { s with tenon := { s.tenon with remote := some d } }

/-- REMOTE_READ (R509). The COUNT of the command travels in the request. -/
def execRemoteRead (src : Source) (_count : Nat) (s : State) : Result := .next (remoteCmd src s)

/-- REMOTE_WRITE (R509). -/
def execRemoteWrite (src : Source) (_count : Nat) (s : State) : Result := .next (remoteCmd src s)

/-- REMOTE_RESPONSE (R509): the status and the words of the request in flight. -/
def execRemoteResponse (source status fail : Nat) (values : List Word) (s : State) : Result :=
  if s.tenon.remote ≠ some source then .next s
  else
    let s := ((s.set Reg.TENON_RMT_STATUS.BUSY 0).set Reg.TENON_RMT_STATUS.STATUS status).set Reg.TENON_RMT_STATUS.FAIL_INDEX fail
    let s := ((values.take 16).zipIdx).foldl (fun (s : State) p => s.set (Reg.TENON_RMT_DATA.DATA p.2) p.1.toNat) s
    .next { s with tenon := { s.tenon with remote := none } }

end Sys2Proof.Machine
end

