-- ==== Sys2Proof/Machine/Boot.lean ====
section
/-! DEFINITION. Starts (chapter 21): RESET_N and the straps (R418 to R423), the cold start (R579 to R591, R607 to R609), the warm
start (R592), failed starts and BOOT_FAIL (R593 to R595), bulk fetches and pushes during a load (R60 to R62, R474, R587),
enumeration (R493, R494, R496, R507), the key table (R583, R584) and debug (R585, R586). -/

namespace Sys2Proof.Machine

/-! ## BOOT_FAIL -/

/-- STEP of SEC_BOOT_STATUS. -/
def bootStep (s : State) (n : Nat) : State := s.set Reg.SEC_BOOT_STATUS.STEP n

/-- BOOT_FAIL (R595): no image runs, FAULT_N is asserted and the empty table is in force. A permanent island fault keeps its
terminal hold (R410). -/
def bootFail (s : State) (code : Nat) : State :=
  let s := stopMain s
  let s := ((s.set Reg.SEC_BOOT_STATUS.STATE 3).set Reg.SEC_BOOT_STATUS.FAIL code).set Reg.CONFIG_SLOT_ACTIVE.LOADED 0
  let s := { s with
    cfg := { s.cfg with image := none, bulk := [] }
    frame := { s.frame with inFrame := false }
    sec := { s.sec with boot := none, timing := false, captured := false }
    pins := { s.pins with faultN := false }
    safety := { s.safety with restart := 0, copyPathDown := false } }
  if s.safety.permanent then s
  else
    let s := emptyTable (s.set Reg.SAFE_MODE.MODE 0)
    armedStatus { s with safety := { s.safety with held := none, armed := none, armedOk := false }, pins := { s.pins with safeState := false } }

/-! ## RESET_N and the straps -/

/-- The device in reset (R418): everything but what Chest, the external flash and AON keep is lost; the pins return to STRAP. -/
def resetDevice (s : State) : State :=
  let keep : List Field := [Reg.SEC_BOOT_ATTEMPTS.A_FAILS, Reg.SEC_BOOT_ATTEMPTS.B_FAILS, Reg.SEC_BOOT_ATTEMPTS.A_EXCLUDED, Reg.SEC_BOOT_ATTEMPTS.B_EXCLUDED]
  let r : State := { State.reset with
    frame := { now := s.frame.now }
    cfg := { slotA := s.cfg.slotA, slotB := s.cfg.slotB, xspiA := s.cfg.xspiA, xspiB := s.cfg.xspiB, floorA := s.cfg.floorA
             floorCountA := s.cfg.floorCountA, floorB := s.cfg.floorB, floorCountB := s.cfg.floorCountB, floorAuth := s.cfg.floorAuth }
    pins := { wdIn := s.pins.wdIn, aonSupply := s.pins.aonSupply }
    die := s.die
    fault := { retired := s.fault.retired, log := s.fault.log }
    sec := { keys := s.sec.keys, keyUpdates := s.sec.keyUpdates, keyAuth := s.sec.keyAuth, bootCount := s.sec.bootCount, cert := s.sec.cert
             aonSeq := s.sec.aonSeq, aonDigest := s.sec.aonDigest }
    fresh := s.fresh
    pending := s.pending }
  keep.foldl (fun (t : State) f => t.set f (s.get f)) r

/-- RESET_N_FALL (R418). -/
def execResetNFall (s : State) : Result := .next (resetDevice s)

/-- RESET_N_RISE (R419): RESET_N rises, or the AON supply returns with RESET_N high; step 1 of the cold start is done. -/
def execResetNRise (s : State) : Result :=
  if s.pins.resetN ∧ s.pins.aonSupply then .next s
  else .next { bootStep s 1 with pins := { s.pins with resetN := true, aonSupply := true }
                                 sec := { s.sec with rising := true, since := s.frame.now, timing := true } }

/-- The first strap conflict of Table 15-3, 0 for none. -/
def strapError (s : State) : Nat :=
  let role := s.get Reg.SAFE_SP_STRAPS.ROLE
  let boot := s.get Reg.SAFE_SP_STRAPS.BOOT
  let pair := s.get Reg.SAFE_SP_STRAPS.PAIR
  if !s.hasTenon ∧ (role ≠ 0 ∨ boot = 3) then 1
  else if boot = 3 ∧ role ≤ 1 then 2
  else if pair = 3 then 3
  else if (pair = 1 ∨ pair = 2) ∧ role = 0 then 4
  else 0

/-- STRAP_CAPTURE (R419, R420, R422, R423, R433): the straps are latched and checked, the pins enter BUS or BUS_OFF, and the
empty table is the front buffer. -/
def execStrapCapture (straps : Nat) (s : State) : Result :=
  if !s.sec.rising then .next s
  else
    let s := ([Reg.SAFE_SP_STRAPS.ADDRESS, Reg.SAFE_SP_STRAPS.WARM, Reg.SAFE_SP_STRAPS.REF, Reg.SAFE_SP_STRAPS.DEBUG, Reg.SAFE_SP_STRAPS.SP_ENABLE,
      Reg.SAFE_SP_STRAPS.RATE, Reg.SAFE_SP_STRAPS.PAIR, Reg.SAFE_SP_STRAPS.ROLE, Reg.SAFE_SP_STRAPS.BOOT] : List Field).foldl
        (fun (s : State) f => s.set f (bits straps f.lo f.width)) s
    let s := (bootStep s 2).set Reg.SEC_BOOT_STATUS.SOURCE (bits straps 0 2)
    let s := (List.range (if s.die.part = 2 then 2 else 4)).foldl (fun (s : State) p =>
      (s.set (Reg.ETH_PORT_CTL.RATE p) (bits straps 6 2)).set (Reg.ETH_PORT_STATUS.RATE p) (bits straps 6 2)) s
    let s := s.set Reg.TENON_STATUS.STATE (if s.inChain then 1 else 0)
    let s := emptyTable (setPhase s (if bitOf straps 8 then 1 else 2))
    let s := { s with sec := { s.sec with rising := false, captured := true } }
    let e := strapError s
    .next (if e = 0 then s else bootFail (s.set Reg.SAFE_SP_STATUS.STRAP_ERROR e) 1)

/-! ## The die record and IDENT -/

/-- Units of a class good in the die record's map and not retired, as a mask. -/
def goodMask (s : State) (cls mask n : Nat) : Nat :=
  (List.range n).foldl (fun m i => if bitOf mask i ∧ !s.fault.retired.contains (cls, i) then m + 2 ^ i else m) 0

/-- Units of a class that the die record marks bad are ABSENT, and those of the retired-unit record RETIRED (R535). -/
def markUnits (cls mask n : Nat) (s : State) : State :=
  (List.range n).foldl (fun (s : State) i =>
    let st := if !bitOf mask i then 3 else if s.fault.retired.contains (cls, i) then 2 else (s.unit cls i).state
    showUnit (s.setUnit cls i { s.unit cls i with state := st }) cls i) s

/-- Step 6: the fields taken from the verified die record (R578, R579, R607, R627), and the states of the units. -/
def applyDie (s : State) : State :=
  let d := s.die
  let s := (s.set Reg.IDENT_PART.PART (match d.part with
    | 0 => 0x0832 | 1 => 0x0824 | _ => 0x0816)).set Reg.IDENT_PART.DIE_REV d.revision
  let s := s.set Reg.IDENT_PART.GRADE (d.grade + 1)
  let s := (s.set Reg.IDENT_JTAG_IDCODE.VERSION (d.revision % 16)).set Reg.IDENT_JTAG_IDCODE.PARTNO (match d.part with
    | 0 => 0x8320 | 1 => 0x8240 | _ => 0x8160)
  let s := (List.range 4).foldl (fun (s : State) i => s.set (Reg.IDENT_SERIAL.SERIAL i) (u32 d.serial (4 * i))) s
  let s := (List.range 4).foldl (fun (s : State) p =>
    let m := d.macs.getD p []
    (s.set (Reg.IDENT_MAC_LO.MAC_LO p) (beAt m 2 4)).set (Reg.IDENT_MAC_HI.MAC_HI p) (beAt m 0 2)) s
  let s := s.set Reg.LEDGER_SPARES.USED d.ledgerSpares
  let s := markUnits 6 d.links 4 (markUnits 5 d.channels 64 (markUnits 4 d.engines 4 (markUnits 0 d.tiles 36 s)))
  let s := markUnits 7 d.ports 4 s
  [1, 2, 3].foldl (fun (s : State) c => (List.range (zoneSize c)).foldl (fun (s : State) i =>
    if s.fault.retired.contains (c, i) then showUnit (s.setUnit c i { s.unit c i with state := 2 }) c i else s) s) s

/-- The binding list with the substitutions of R3. -/
def bindTiles (good : Nat) (list : List Nat) : List Nat :=
  (go list.length list).1
where
  /-- Entry `n` from the end, with the entries before it settled. -/
  go : Nat → List Nat → List Nat × Nat
    | 0, l => (l, 0)
    | n + 1, l =>
      let r := go n l
      let i := r.2
      let l := r.1
      if bitOf good (l.getD i 0) then (l, i + 1)
      else match (List.range 36).find? fun p => bitOf good p && !l.contains p with
        | some p => (l.set i p, i + 1)
        | none => (l.eraseIdx i, i)

/-- Bytes of a word, byte 0 in the lowest bits. -/
def bindWord (b : List Nat) (i : Nat) : Nat :=
  (List.range 4).foldl (fun n j => n + (b.getD (4 * i + j) 0xFF) * 256 ^ j) 0

/-- Step 10: the binding list and the good maps that IDENT shows until the next cold start (R3, R608, R609). -/
def fixIdent (s : State) : State :=
  let tiles := goodMask s 0 s.die.tiles 36
  let engines := goodMask s 4 s.die.engines 4
  let channels := goodMask s 5 s.die.channels 64
  let links := goodMask s 6 s.die.links 4
  let ports := goodMask s 7 s.die.ports 4
  let count := fun (m n : Nat) => ((List.range n).filter fun i => bitOf m i).length
  let b := bindTiles tiles s.die.list
  let s := { s with die := { s.die with bind := b } }
  let s := (s.set Reg.IDENT_TILES.ENABLED b.length).set Reg.IDENT_TILES.SPARES (count tiles 36 - b.length)
  let s := (s.set Reg.IDENT_TILE_GOOD_LO.GOOD tiles).set Reg.IDENT_TILE_GOOD_HI.GOOD (tiles / 2 ^ 32)
  let s := (s.set Reg.IDENT_UNIT_MAP.PORTS ports).set Reg.IDENT_UNIT_MAP.LINKS links
  let s := (s.set Reg.IDENT_UNIT_MAP.ENGINES engines).set Reg.IDENT_UNIT_MAP.ORDER (bit (!s.fault.retired.contains (3, 0)))
  let s := (s.set Reg.IDENT_HBM_GOOD_LO.GOOD channels).set Reg.IDENT_HBM_GOOD_HI.GOOD (channels / 2 ^ 32)
  let s := (s.set (Reg.HBM_GOOD.GOOD 0) channels).set (Reg.HBM_GOOD.GOOD 1) (channels / 2 ^ 32)
  let bytes := 805306368 * count channels 64 - 1073741824
  let s := s.set64 Reg.IDENT_HBM_IMAGE_LO.BYTES_LO Reg.IDENT_HBM_IMAGE_HI.BYTES_HI bytes
  let s := s.set Reg.IDENT_UNITS.UNITS (bit (s.die.part != 2) + 2 * bit (engines != 0) + 4 * (links % 16) +
    64 * bit (decide (2 ^ 32 ≤ channels)) + 128 * (ports / 4 % 4))
  let s := s.set Reg.IDENT_LEDGER_GOOD.BANKS ((List.range 4).foldl (fun n g => n + s.spareBanks g * 16 ^ g) 0)
  let s := (List.range 8).foldl (fun (s : State) i => s.set (Reg.IDENT_TILE_BIND.PHYS i) (bindWord b i)) s
  showBinding s

/-! ## The cold start -/

/-- The device has a number and knows its place (R493, R494). -/
def State.placed (s : State) : Bool := s.get Reg.TENON_STATUS.STATE == 4 || s.get Reg.TENON_STATUS.STATE == 3

/-- Enumeration starts afresh: no number and no routes. -/
def forgetChain (s : State) : State :=
  if !s.inChain then s
  else
    let s := ((s.set Reg.TENON_STATUS.STATE 1).set Reg.TENON_STATUS.DEVICE 0xFFF).set Reg.TENON_STATUS.FAIL 0
    let s := (s.set Reg.TENON_CHAIN.POSITION 0xFFF).set Reg.TENON_CHAIN.ACTIVE 0
    let s := (List.range 4).foldl (fun (s : State) l => (s.set (Reg.TENON_LINK_STATUS.USE l) 3).set (Reg.TENON_LINK_STATUS.PEER l) 0xFFF) s
    { s with tenon := { s.tenon with parent := none, down := none, feeders := [], away := [], routes := [], numbers := [], devices := []
                                     enumAt := none, enumNext := 0, confirms := [], confirmed := [], outputsSent := none } }

/-- Steps 15 to 17: synchronisation, or HOLDOVER after 50 ms; the loaded image is in force, with its partition tables; two shadow
frames follow at the next aligned frame starts. The clamp follows enumeration (R504). -/
def finishBoot (s : State) : State := match s.sec.boot, s.cfg.next with
  | some r, some img =>
    let s := if !s.ownTime then s else match r.synced with
      | some d => correctTime ((s.set Reg.FRAME_STATUS.HOLDOVER 0).set Reg.ETH_STATUS.PTP_SYNCED 1) d
      | none => (s.set Reg.FRAME_STATUS.HOLDOVER 1).set Reg.ETH_STATUS.PTP_SYNCED 0
    let i := s.get Reg.CONFIG_LOAD_STATUS.SLOT
    let s := install s img s.cfg.nextBulk i (s.slotOf i).sequence
    let s := { bootStep s 17 with
      sec := { s.sec with boot := none, restart := false }
      safety := { s.safety with restart := 2, copyPathDown := false }
      tenon := { s.tenon with clampDue := s.inChain } }
    clampIfDue (shadowFrom s (s.nextFrame s.frame.now))
  | _, _ => s

/-- The image whose operators and budget the head judges the topology by (R496). -/
def State.topologyImage (s : State) : Option Image := if s.sec.boot.isSome then s.cfg.next else s.cfg.image

/-- The reason of R496 that a rejected topology gives the load. -/
def topologyReason (code : Nat) : LoadFail :=
  if code = 4 then ⟨0x21, 0, 0xFFFF⟩ else if code = 5 then ⟨0x24, 8, 0xFFFF⟩ else ⟨0x13, 0, 0xFFFF⟩

/-- A placement is in force. During a start it ends step 14, or a rejected topology ends the start (R496). -/
def settlePlacement (s : State) (p : Placement) : State :=
  let s := applyPlacement s p
  if s.sec.boot.isSome ∧ s.get Reg.SEC_BOOT_STATUS.STEP = 14 then
    if p.fail = 0 then finishBoot s
    else bootFail (failLoad s (topologyReason p.fail)) 10
  else clampIfDue { s with tenon := { s.tenon with clampDue := s.tenon.clampDue || s.isHead } }

/-- The head has heard every device (R494, R496): it places them, nearest first, and then itself. When a device has been lost
since an earlier enumeration with a spare, the spare takes a position and the chain goes on without one (R507). -/
def placeAll (s : State) : State :=
  let ds := s.tenon.devices
  let img := s.topologyImage
  let budget := match img with
    | some i => i.budgetPs
    | none => 0
  let lost := decide (ds.length < s.get Reg.TENON_DEVICES.COUNT ∧ 4 ≤ s.get Reg.TENON_DEVICES.COUNT) && s.sec.boot.isNone
  let sp := if lost then none else spareOf ds
  let s := s.set Reg.TENON_BUDGET_NS.BUDGET (budget / 1000)
  let own := placementOf ds sp img budget 0
  let order := (ds.filter fun d => d.number != 0).mergeSort fun a b => decide ((routeOf ds 0 a.number).length ≤ (routeOf ds 0 b.number).length)
  let s := order.foldl (fun (s : State) d => match firstHop ds 0 d.number with
    | some h => maintMessage s h.1 d.number 1
    | none => s) s
  settlePlacement s own

/-- The device's own entry in the list of enumerated devices, with its links in use. -/
def ownDev (s : State) : ChainDev :=
  { number := s.device, role := s.get Reg.SAFE_SP_STRAPS.ROLE, pair := s.get Reg.SAFE_SP_STRAPS.PAIR
    links := ((List.range 4).filter fun l => s.get (Reg.TENON_LINK_STATUS.USE l) != 3).map fun l =>
      (l, s.get (Reg.TENON_LINK_STATUS.PEER l), s.get (Reg.TENON_LINK_STATUS.USE l), s.get (Reg.TENON_LINK_LAT_PS.LATENCY l)) }

/-- The procedure of R493 goes on at link `from_`: the next link that is up is offered the next number; after the last, the
head places the devices, and another device replies to its parent. -/
def askFrom (s : State) (from_ : Nat) : State :=
  match (List.range 4).find? fun l => decide (from_ ≤ l) && s.linkUp l && s.tenon.parent != some l with
  | some l =>
    let s := maintMessage s l 0xFFF 1
    { s with tenon := { s.tenon with enumAt := some l } }
  | none =>
    let s := { s with tenon := { s.tenon with enumAt := none, devices := ownDev s :: s.tenon.devices.filter fun d => d.number != s.device } }
    match s.tenon.parent with
    | some p => maintMessage s p 0 2
    | none => placeAll s

/-- The head takes number 0 and enumerates (R493). -/
def startEnum (s : State) : State :=
  let s := (forgetChain s).set Reg.TENON_STATUS.STATE 2
  let s := s.set Reg.TENON_STATUS.DEVICE 0
  askFrom { s with tenon := { s.tenon with enumNext := 1, reenumerate := false } } 0

/-- A unit that fails BIST is retired (R590); the answer tells whether Table 19-3 makes that FATAL. A ledger bank is replaced
while a spare is left (R219). -/
def bistFail (a : Bool × State) (u : Nat × Nat) : Bool × State :=
  let s := a.2
  if u.1 = 12 then (a.1 || decide (s.spareBanks u.2 ≤ s.banksUsed u.2), replaceBank s u.2)
  else
    let fatal := u.1 == 2 || u.1 == 5 || decide (7 < u.1) || (u.1 == 0 && s.die.bind.contains u.2 && (s.spareTile.isNone || s.spareTile == some u.2))
    (a.1 || fatal, if unitExists u.1 u.2 then retireUnit s u.1 u.2 (if u.1 = 5 then 2 else 10) else s)

/-- The failed units of some classes, retired. -/
def bistUnits (s : State) (us : List (Nat × Nat)) (classes : List Nat) : Bool × State :=
  (us.filter fun u => classes.contains u.1).foldl bistFail (false, s)

/-- Steps 12 to 14 once the image is loaded: the other units' BIST, the island's self-test but in a cold restart, and
enumeration, which a chain's devices wait for. -/
def afterLoad (s : State) : State := match s.sec.boot with
  | none => s
  | some r =>
    let b := bistUnits (bootStep s 12) r.failed [3, 4, 6, 7, 8, 10]
    if b.1 then bootFail b.2 5
    else
      let s := b.2
      if !s.sec.restart ∧ !r.islandOk then bootFail (bootStep s 13) 9
      else
        let s := bootStep s 14
        if !s.inChain then finishBoot s
        else if s.isHead then startEnum s
        else if s.get Reg.TENON_STATUS.STATE = 5 then bootFail (failLoad s (topologyReason (s.get Reg.TENON_STATUS.FAIL))) 10
        else if s.placed then finishBoot s else s

/-- A slot whose load failed counts a failed start, and is not valid (R593). -/
def rejectSlot (s : State) (i : Nat) : State :=
  let s := chargeSlot s i
  s.set (if i = 0 then Reg.CONFIG_SLOT_STATE.A_VALID else Reg.CONFIG_SLOT_STATE.B_VALID) 0

/-- One slot is tried unless an earlier one has been taken (R66, R81): it is loaded, and waits for bulk data, goes on, or is
rejected. -/
def tryOne (a : Bool × State) (i : Nat) : Bool × State :=
  let s := a.2
  if a.1 ∨ !s.candidate? i ∨ bitOf s.sec.tried i then a
  else
    let s := beginLoad (bootStep { s with sec := { s.sec with tried := s.sec.tried + 2 ^ i } } 11) i
    if s.cfg.loading.isSome then (true, s)
    else if s.cfg.loadResult = 0 then (true, afterLoad s)
    else (false, rejectSlot s i)

/-- Slot selection (R81): the slots that are left are tried in order; with none left the start ends in BOOT_FAIL (R593). -/
def trySlots (l : List Nat) (s : State) : State :=
  let r := l.foldl tryOne (false, s)
  if r.1 then r.2 else bootFail r.2 7

/-- WAIT_HOST (R587): the device waits for a pushed or received slot. -/
def waitHost (s : State) : State :=
  let s := setPushNext (s.set Reg.SEC_BOOT_STATUS.STATE 1) 0
  { s with cfg := { s.cfg with staged := [] } }

/-- Step 10 from slot selection on. -/
def selectSlot (s : State) : State :=
  let s := { s with sec := { s.sec with tried := 0 } }
  if 2 ≤ s.bootSource then (if s.excluded 1 then bootFail s 7 else waitHost s)
  else trySlots s.slotOrder (showValid s)

/-- A cold start or cold restart may run: the straps have been captured without a conflict, or a restart has been triggered. -/
def State.mayColdStart (s : State) : Bool :=
  s.sec.boot.isNone && s.get Reg.SEC_BOOT_STATUS.STATE == 0 && (s.sec.captured || s.safety.restart == 3)

/-- Steps 3 to 5 (R552, R591): the reference is requested where a strap selects the external oscillator. -/
def coldBegin (s : State) : State :=
  let s := if s.sec.captured then
      { s with pins := { s.pins with refclkReq := decide (s.get Reg.SAFE_SP_STRAPS.REF = 0) } } else s
  bootStep { s with sec := { s.sec with captured := false } } 6

/-- Steps 6 to 10 and what follows without waiting (Table 21-4). A cold restart leaves out what would touch the serving island
(R591). -/
def coldRest (s : State) (r : BootReport) : State :=
  if !r.lockstepOk then bootFail (bootStep s 5) 9
  else if !r.dieOk then bootFail s 2
  else
    let s := bootStep (applyDie s) 7
    let s := s.set Reg.SEC_CERT_LENGTH.BYTES s.sec.cert.length
    let s := (List.range 512).foldl (fun (s : State) i => s.set (Reg.SEC_CERT.DATA i) (u32 s.sec.cert (4 * i))) s
    let s := { s with sec := { s.sec with identity := !s.unlocked } }
    if !r.pufOk then bootFail s 3
    else if !r.certOk then bootFail s 4
    else
      let b := bistUnits (bootStep s 8) r.failed (if s.sec.restart then [0, 1, 2, 12] else [0, 1, 2, 9, 12])
      if b.1 then bootFail b.2 5
      else
        let b := bistUnits (bootStep b.2 9) r.failed [5]
        if b.1 then bootFail b.2 6
        else
          let s := (List.range b.2.stacks).foldl (fun (s : State) k =>
            let d := s.draw 16
            (d.2.set (Reg.HBM_STATUS.TRAINED k) 1).set (Reg.HBM_RATE.MBPS k) (d.1.toNat % 9201)) b.2
          let s := bootStep s 10
          if s.floorValue.isNone then bootFail s 8
          else
            let n := s.sec.bootCount + 1
            let s := { s.set Reg.SEC_BOOT_COUNT.COUNT n with sec := { s.sec with bootCount := n, boot := some r } }
            selectSlot (forgetChain (fixIdent s))

/-- A warm start is complete (R406, R592, R144, R309): two shadow frames follow at the next aligned frame starts; every cell
counts as changed, refine starts cold, and the ledger rebuilds with cause WARM. In a chain the head runs a clamp, and
enumerates first where that is due (R504, R507, R509). -/
def warmDone (s : State) : State :=
  let s := (s.set Reg.SEC_BOOT_STATUS.WARM 1).set Reg.SEC_BOOT_STATUS.STEP 17
  let s := restartLedger s
  let s := { s with
    safety := { s.safety with restart := 2 }
    world := { s.world with allChanged := true, active := false, closed := true }
    solver := { s.solver with warm := none, run := none, result := none }
    jig := { s.jig with descs := [], held := [], released := [], next := [], disabled := false, abandoned := false }
    digest := { s.digest with anchorDue := true }
    frame := { s.frame with running := true, inFrame := false, shadowLeft := 2, gapExcused := true
                            notBefore := s.gridAt s.frame.now + 1 }
    tenon := { s.tenon with clampDue := s.isHead } }
  if s.inChain ∧ s.tenon.reenumerate then
    if s.isHead then startEnum s
    else
      let s := forgetChain s
      { s with tenon := { s.tenon with reenumerate := false } }
  else clampIfDue s

/-! ## Loads that go on -/

/-- A load attempt has gone on: within a start its end continues the start. -/
def loadWent (s : State) (slot : Nat) : State :=
  if s.sec.boot.isNone ∨ s.cfg.loading.isSome then s
  else if s.cfg.loadResult = 0 then afterLoad s
  else trySlots s.slotOrder (rejectSlot s slot)

/-- BULK_FETCH_DONE (R60, R61): a source delivers the data of the section being fetched, or cannot be read. -/
def execBulkFetchDone (ty : Nat) (data : Option (List Byte)) (s : State) : Result :=
  match s.cfg.loading with
  | some l =>
    if l.todo.head? ≠ some ty ∨ s.get Reg.CONFIG_LOAD_STATUS.PHASE ≠ phaseBulk then .next s
    else .next (loadWent (bulkData s l data) l.slot)
  | none => .next s

/-- PUSH_TIMEOUT (R62): the push source counts as unreadable. -/
def execPushTimeout (s : State) : Result :=
  match s.cfg.loading with
  | some l =>
    if s.get Reg.CONFIG_LOAD_STATUS.PHASE ≠ phasePush then .next s
    else .next (loadWent (bulkData s l none) l.slot)
  | none => .next s

/-- The chunk of R474: BULK_ID, OFFSET and data, where its payload is well formed. -/
def chunkOf (s : State) (f : Frame) : Option (Nat × Nat × List Byte) :=
  let n := beAt f.payload 4 2
  if f.payload.length < 16 ∨ n = 0 ∨ s.fragMax f.port < n ∨ f.payload.length ≠ 16 + 4 * ((n + 3) / 4) then none
  else some (beAt f.payload 0 4, beAt f.payload 8 8, (f.payload.drop 16).take n)

/-- Bytes of a slot image that is received, staged. -/
def stageBytes (s : State) (off : Nat) (data : List Byte) : State :=
  { s with cfg := { s.cfg with staged := flashWrite s.cfg.staged off data } }

/-- The next part of the data that are pushed: staged bytes of a slot, or data of the bulk section that the load waits for. -/
def takeChunk (s : State) (host : Bool) (off : Nat) (data : List Byte) : State :=
  let s := setPushNext s (off + data.length)
  if host then stageBytes s off data
  else match s.cfg.loading with
    | none => s
    | some l =>
      let got := l.pushed ++ data
      let full := match l.todo.head? with
        | some ty => decide (l.image.bulkLength ty ≤ got.length)
        | none => false
      if full then loadWent (bulkData s { l with pushed := got } (some got)) l.slot
      else { s with cfg := { s.cfg with loading := some { l with pushed := got } } }

/-- A received chunk (R62, R588): the next part of what is awaited is taken; one below NEXT is ignored, any other is dropped and
counted. -/
def chunk (s : State) (f : Frame) : State :=
  let drop := s.inc Reg.CONFIG_CHUNK_DROP.DROPPED
  match chunkOf s f with
  | none => drop
  | some (id, off, data) =>
    let host := decide (s.get Reg.SEC_BOOT_STATUS.STATE = 1)
    let push := decide (s.get Reg.CONFIG_LOAD_STATUS.PHASE = phasePush) && s.cfg.loading.isSome
    let want := if host then some 0xFFFFFFFF else if push then some (s.get Reg.CONFIG_BULK_WAIT.BULK_ID) else none
    if want ≠ some id then drop
    else if off < s.pushNext then s
    else if off ≠ s.pushNext then drop
    else takeChunk s host off data

/-- CONFIG_CHUNK (R62, R474, R587): taken in order for the awaited BULK_ID, or for the pushed slot in WAIT_HOST; a repeat is
ignored; every other chunk is counted. A push is complete once it has its section's length. -/
def execConfigChunk (f : Frame) (t : Nat) (s : State) : Result :=
  let f := s.asPart f
  if f.ty ≠ 0x60 then .next s
  else
    let r := arrive s f t
    .next (if r.1 then chunk r.2 f else r.2)

/-! ## SEC_BOOT_CMD -/

/-- RESULT of SEC_BOOT_CMD_STATUS. -/
def bootResult (s : State) (r : Nat) : State := s.set Reg.SEC_BOOT_CMD_STATUS.RESULT r

/-- WARM or COLD: a drain frame is asked for (R591, R592). They are taken while frames run in RUN and no other activity is under
way that stops them. -/
def restartCmd (why : Nat) (src : Source) (s : State) : State :=
  if !s.isOwner src then bootResult s 1
  else if s.get Reg.SEC_BOOT_STATUS.STATE ≠ 2 ∨ !s.frame.running ∨ s.switching ∨ s.unsettled ∨ s.power.entry ≠ 0 then bootResult s 3
  else { bootResult s 0 with cfg := { s.cfg with drainFor := why } }

/-- BOOT_WARM (R592). -/
def execBootWarm (src : Source) (s : State) : Result := .next (written src s (restartCmd 6 src s))

/-- BOOT_COLD (R591). -/
def execBootCold (src : Source) (s : State) : Result := .next (written src s (restartCmd 5 src s))

/-- RETRY (R595): the boot-attempt record is cleared and a cold start under R591 begins. -/
def retryCmd (src : Source) (s : State) : State :=
  if !s.isOwner src then bootResult s 1
  else if s.get Reg.SEC_BOOT_STATUS.STATE ≠ 3 then bootResult s 3
  else
    let s := (s.set Reg.SEC_BOOT_ATTEMPTS.A_FAILS 0).set Reg.SEC_BOOT_ATTEMPTS.B_FAILS 0
    let s := (s.set Reg.SEC_BOOT_ATTEMPTS.A_EXCLUDED 0).set Reg.SEC_BOOT_ATTEMPTS.B_EXCLUDED 0
    restartAs ((bootResult s 0).set Reg.SEC_BOOT_STATUS.FAIL 0) false

/-- BOOT_RETRY (R595). -/
def execBootRetry (src : Source) (s : State) : Result := .next (written src s (retryCmd src s))

/-- LOAD (R587): the pushed slot is selected. -/
def loadCmd (src : Source) (s : State) : State :=
  if !s.isOwner src then bootResult s 1
  else if s.get Reg.SEC_BOOT_STATUS.STATE ≠ 1 then bootResult s 3
  else trySlots s.slotOrder ((bootResult s 0).set Reg.SEC_BOOT_STATUS.STATE 0)

/-- BOOT_LOAD (R587). -/
def execBootLoad (src : Source) (s : State) : Result := .next (written src s (loadCmd src s))

/-! ## Enumeration and image distribution -/

/-- ENUM (R493, R494): an offer is refused by a standalone device, answered PAIR_HEAD by the head of the other pair side and KNOWN by
a numbered device; else its number is accepted and the procedure runs on. A placement is taken, or passed on. -/
def execEnum (link source next side : Nat) (place : Option Placement) (s : State) : Result :=
  if !s.hasLink link then .fault .noSuchUnit
  else match place with
  | some p =>
    if p.number = s.device then .next (settlePlacement s p)
    else match s.routeTo p.number with
      | some l => .next (maintMessage s l p.number 1)
      | none => .next s
  | none =>
    let pair := s.get Reg.SAFE_SP_STRAPS.PAIR
    if !s.inChain then .next (maintMessage s link source 2)
    else if s.isHead ∧ side ≠ pair then
      let s := (s.set (Reg.TENON_LINK_STATUS.USE link) 2).set Reg.TENON_STATUS.PAIR_LINKED 1
      .next (maintMessage s link source 2)
    else if s.isHead ∨ s.device ≠ 0xFFF then
      let s := (s.set (Reg.TENON_LINK_STATUS.USE link) 1).set (Reg.TENON_LINK_STATUS.PEER link) source
      .next (maintMessage s link source 2)
    else
      let s := (s.set Reg.TENON_STATUS.DEVICE next).set Reg.TENON_STATUS.STATE 2
      let s := (s.set (Reg.TENON_LINK_STATUS.USE link) 0).set (Reg.TENON_LINK_STATUS.PEER link) source
      .next (askFrom { s with tenon := { s.tenon with parent := some link, enumNext := next + 1, devices := [] } } 0)

/-- ENUM_REPLY (R493): the link's use follows the status, and the next link is asked. -/
def execEnumReply (link status next peer : Nat) (devices : List ChainDev) (s : State) : Result :=
  if !s.hasLink link then .fault .noSuchUnit
  else if s.tenon.enumAt ≠ some link then .next s
  else
    let s := s.set (Reg.TENON_LINK_STATUS.USE link) (min status 3)
    let s := s.set (Reg.TENON_LINK_STATUS.PEER link) (if status ≤ 2 then peer else 0xFFF)
    let s := if status = 0 then { s with tenon := { s.tenon with enumNext := next, devices := s.tenon.devices ++ devices } } else s
    let s := if status = 2 then s.set Reg.TENON_STATUS.PAIR_LINKED 1 else s
    .next (askFrom s (link + 1))

/-- Bytes of a slot from its header on, up to its used length. -/
def slotBytes (sl : Slot) : List Byte :=
  flashRead sl.header 0 256 ++ List.replicate (0x1000 - 256) erased ++ flashRead sl.content 0 sl.usedLength

/-- A MAINT message of KIND 5 (R491, R587). -/
def imageMessage (s : State) (l : Nat) (b : List Byte) : State :=
  sendMessage s l (messageFlits 3 2 0 0 (routeHeader 0xFFF s.device 5 b.length 0 ++ b))

/-- Bytes in parts of 4 KB. -/
def imageParts (b : List Byte) : List (List Byte) := (List.range ((b.length + 4095) / 4096)).map fun i => (b.drop (4096 * i)).take 4096

/-- This device's slot is sent on a link in parts of 4 KB. -/
def sendImage (s : State) (link : Nat) : State :=
  let t := { s with tenon := { s.tenon with imageSent := link :: s.tenon.imageSent } }
  (imageParts (slotBytes (s.slotOf (s.get Reg.CONFIG_SLOT_ACTIVE.SLOT)))).foldl (fun s b => imageMessage s link b) t

/-- The next part of the slot that the device waits for; with the whole of it at hand it is loaded. -/
def receiveImage (s : State) (data : List Byte) : State :=
  let n := s.pushNext
  let m := n + data.length
  let s := setPushNext (stageBytes s n data) m
  if 0x1000 ≤ m ∧ 0x1000 + (s.slotOf 1).usedLength ≤ m then trySlots s.slotOrder (s.set Reg.SEC_BOOT_STATUS.STATE 0) else s

/-- IMAGE_DISTRIBUTION (R587): a device that boots from Tenon adds the bytes to its slot, and loads it once it is whole. A device
that runs an image and is asked sends its running slot, 4 KB a message. -/
def execImageDistribution (link : Nat) (data : List Byte) (s : State) : Result :=
  if !s.hasLink link then .fault .noSuchUnit
  else if data.isEmpty then .next (if s.cfg.image.isSome then sendImage s link else s)
  else if s.bootSource ≠ 3 ∨ s.get Reg.SEC_BOOT_STATUS.STATE ≠ 1 then .next s
  else .next (receiveImage s data)

/-! ## The key table (R583, R584) -/

/-- The enrolment record in SEC_KEY_DATA (Table 21-2). -/
def State.keyRecord (s : State) : List Byte := (List.range 69).flatMap fun i => leBytes (s.get (Reg.SEC_KEY_DATA.DATA i)) 4

/-- RESULT of SEC_KEY_RESULT. -/
def keyResult (s : State) (r : Nat) : State := s.set Reg.SEC_KEY_RESULT.RESULT r

/-- Steps 1 and 2 of R584: the failure, 0 for none. -/
def recordFail (s : State) (b : List Byte) : Nat :=
  let d := Config.sha512 (b.take 0x90 ++ s.identityPublic)
  let signer := byteAt b 2
  let signed := match (s.sec.keys.find? fun p => p.1 == signer && decide (p.1 < 4)) with
    | some k => Config.ecdsaVerify k.2 d ((b.drop 0x90).take 66) ((b.drop 0xD2).take 66)
    | none => false
  if u32 b 4 ≠ s.sec.keyUpdates + 1 then 3
  else if s.sec.keys.isEmpty then (if signer = 0xFF then 0 else 2)
  else if signed then 0 else 2

/-- The key table written, with its update count. -/
def putKeys (s : State) (ks : List (Nat × List Byte)) : State :=
  keyResult { s with sec := { s.sec with keys := ks, keyUpdates := s.sec.keyUpdates + 1 } } 0

/-- ENROL of slot KEY_INDEX (R584 step 3). -/
def enrolKey (s : State) (b : List Byte) : State :=
  let f := recordFail s b
  let k := byteAt b 1
  let key := (b.drop 8).take 133
  if f ≠ 0 then keyResult s f
  else if 4 < k ∨ s.sec.keys.any (fun p => p.1 == k) then keyResult s 4
  else if !Config.p521Point key then keyResult s 6
  else putKeys s (sInsert k key s.sec.keys)

/-- REVOKE of slot KEY_INDEX (R584 step 4). -/
def revokeKey (s : State) (b : List Byte) : State :=
  let f := recordFail s b
  let k := byteAt b 1
  if f ≠ 0 then keyResult s f
  else if k < 4 ∧ (s.sec.keys.filter fun p => decide (p.1 < 4)).map (·.1) = [k] then keyResult s 5
  else putKeys s (sErase k s.sec.keys)

/-- APPLY (R583, R584). A record whose OP is neither is checked and changes nothing; its result is free. -/
def applyKey (src : Source) (s : State) : State :=
  if !s.isOwner src then keyResult s 1
  else
    let b := s.keyRecord
    match byteAt b 0 with
    | 1 => enrolKey s b
    | 2 => revokeKey s b
    | _ =>
      let f := recordFail s b
      let d := s.draw 8
      if f ≠ 0 then keyResult s f else keyResult d.2 d.1.toNat

/-- KEY_ENROL (R584): APPLY while the record's OP is ENROL. -/
def execKeyEnrol (src : Source) (s : State) : Result := .next (if byteAt s.keyRecord 0 = 1 then written src s (applyKey src s) else s)

/-- KEY_REVOKE (R584): APPLY while the record's OP is REVOKE. -/
def execKeyRevoke (src : Source) (s : State) : Result := .next (if byteAt s.keyRecord 0 = 2 then written src s (applyKey src s) else s)

/-! ## Debug (R585, R586) -/

/-- A debug unlock is accepted (R585). -/
def State.debugAllowed (s : State) : Bool :=
  s.flag Reg.SAFE_SP_STRAPS.DEBUG && (s.get Reg.SEC_BOOT_STATUS.STATE != 2 || s.get Reg.SAFE_MODE.MODE == 0)

/-- RESULT of SEC_DEBUG_STATUS. -/
def debugResult (s : State) (r : Nat) : State := s.set Reg.SEC_DEBUG_STATUS.RESULT r

/-- CHALLENGE: 64 fresh random bytes, byte 4 i + j in bits 8 j + 7 to 8 j of word i. -/
def challengeCmd (src : Source) (s : State) : State :=
  ownerOnly src s fun s =>
    if !s.debugAllowed then debugResult s 1
    else
      let d := s.draw 512
      let b := (List.range 64).map fun i => d.1.extractLsb' (8 * i) 8
      let s := (List.range 16).foldl (fun (s : State) i => s.set (Reg.SEC_DEBUG_CHALLENGE.DATA i) (u32 b (4 * i))) d.2
      let s := if s.unlocked then s else s.set Reg.SEC_DEBUG_STATUS.STATE 1
      debugResult { s with sec := { s.sec with challenge := some b } } 0

/-- DEBUG_CHALLENGE (R585). -/
def execDebugChallenge (src : Source) (s : State) : Result := .next (challengeCmd src s)

/-- RESPOND: the signature over the challenge and the identity public key is verified under key slot 4 or the Aeddom debug
authority key; an accepted unlock erases the identity private key and every session key. -/
def respondCmd (src : Source) (s : State) : State :=
  ownerOnly src s fun s =>
    if !s.debugAllowed then debugResult s 1
    else match s.sec.challenge with
    | none => debugResult s 3
    | some c =>
      let b := (List.range 33).flatMap fun i => leBytes (s.get (Reg.SEC_DEBUG_RESPONSE.DATA i)) 4
      let d := Config.sha512 (c ++ s.identityPublic)
      let good := fun (k : List Byte) => Config.ecdsaVerify k d (b.take 66) (b.drop 66)
      let slot := match s.signKey 4 with
        | some k => good k
        | none => false
      if slot || good Config.debugAuthority then
        let s := eraseKeys (debugResult (s.set Reg.SEC_DEBUG_STATUS.STATE 2) 0)
        { s with sec := { s.sec with identity := false, challenge := none } }
      else debugResult s 2

/-- DEBUG_RESPOND (R585, R586). -/
def execDebugRespond (src : Source) (s : State) : Result := .next (respondCmd src s)

end Sys2Proof.Machine
end

