-- ==== Sys2Proof/Machine/Power.lean ====
section
/-! DEFINITION. Power (chapter 20): NAP and SLEEP (R562 to R567), wake sources and the WAKE pins (R435, R436, R476, R506, R568), waking
(R569 to R572), leases (R564), IDLE and DOZE (R557 to R560), throttling (R573, R574, R618), hot HBM stacks (R575), supplies
(R617, R618) and the I2C target (R622). -/

namespace Sys2Proof.Machine

/-! ## Entry into NAP and SLEEP -/

/-- RESULT of PWR_CMD_STATUS. -/
def powerResult (s : State) (r : Nat) : State := s.set Reg.PWR_CMD_STATUS.RESULT r

/-- The refusal of R565 in the order of its table, 0 for none. Without frames there is no drain frame, and an entry is not
ready. -/
def entryRefusal (s : State) : Nat :=
  if s.cfg.image.isNone ∨ !s.frame.running ∨ s.switching ∨ s.unsettled ∨ s.digest.replay.isSome ∨ s.power.entry ≠ 0 then 3
  else if !s.fault.tokens.isEmpty then 2 else 0

/-- An entry is accepted: the next frame is a drain frame (R566). -/
def acceptEntry (s : State) (kind : Nat) : State :=
  { s.set Reg.PWR_STATUS.ENTRY_PENDING 1 with power := { s.power with entry := kind, latched := 0 }, cfg := { s.cfg with drainFor := 2 + kind } }

/-- NAP (kind 1) or SLEEP (kind 2) written to PWR_CMD (R563, R565). -/
def entryCmd (kind : Nat) (src : Source) (s : State) : State :=
  if !s.isOwner src then powerResult s 1
  else
    let r := entryRefusal s
    if r ≠ 0 then powerResult s r else acceptEntry (powerResult s 0) kind

/-- NAP (R563, R565, R566). -/
def execNap (src : Source) (s : State) : Result := .next (written src s (entryCmd 1 src s))

/-- SLEEP (R563, R565, R566). -/
def execSleep (src : Source) (s : State) : Result := .next (written src s (entryCmd 2 src s))

/-- CANCEL (R565): until the drain frame ends. -/
def cancelEntry (src : Source) (s : State) : State :=
  if !s.isOwner src then powerResult s 1
  else if s.power.entry = 0 ∨ s.power.closing then powerResult s 3
  else
    let s := (powerResult s 0).set Reg.PWR_STATUS.ENTRY_PENDING 0
    { s with power := { s.power with entry := 0, latched := 0 }, cfg := { s.cfg with drainFor := 0 }, frame := { s.frame with drain := false } }

/-- SLEEP_CANCEL (R565). -/
def execSleepCancel (src : Source) (s : State) : Result := .next (written src s (cancelEntry src s))

/-- Some Guest holds a keep-awake lease (R564). -/
def State.leased (s : State) : Bool := (List.range 7).any fun q => s.get (Reg.PWR_LEASE.MS (q + 1)) != 0

/-- AUTO_ENTRY (R563): under policy, with no lease, no active job, and AUTO_MS at rest. -/
def execAutoEntry (s : State) : Result :=
  match s.cfg.image with
  | none => .next s
  | some img =>
    let rest := match s.power.restSince with
      | some t => decide (t + 1000000 * (img.autoMs : Int) ≤ s.frame.now)
      | none => false
    if !bitOf img.powerFlags 1 ∨ s.leased ∨ s.eth.jobs.any (fun j => decide (j.state < 2)) ∨ !rest ∨ entryRefusal s ≠ 0 then .next s
    else .next (acceptEntry s (if bitOf img.powerFlags 2 then 2 else 1))

/-! ## Wake events -/

/-- The wake begins (R568, R570): its sources are shown. -/
def beginWake (s : State) (m : Nat) : State :=
  let s := s.set Reg.PWR_WAKE_SOURCE.SOURCE (s.get Reg.PWR_WAKE_SOURCE.SOURCE ||| m % 128)
  let s := s.set Reg.SAFE_SP_WAKE_STATUS.SOURCE (s.get Reg.SAFE_SP_WAKE_STATUS.SOURCE ||| m / 256)
  { s with power := { s.power with waking := 1, latched := 0 } }

/-- An enabled wake event with the bits `m` (R562, R568). In NAP and SLEEP it wakes the device. Before the entry window it is
latched; in the window a level is, and an edge is lost. The end of a drain frame and the start of the window are not told
apart here, so an edge between the drain frame and the end of the window is latched or lost by a free choice. -/
def wakeEvent (s : State) (m : Nat) (level : Bool) : State :=
  if s.power.asleep ≠ 0 then (if s.power.waking = 0 then beginWake s m else s)
  else if s.power.entry = 0 then s
  else
    let latch := fun (s : State) => { s with power := { s.power with latched := s.power.latched ||| m } }
    if !s.power.closing ∨ level then latch s
    else
      let d := s.draw 1
      if d.1 = 1#1 then latch d.2 else d.2

/-- A port wakes the device by mode `k` of PWR_WAKE_ETH: 0 ENERGY, 1 ANY_FRAME, 2 WAKE_FRAME (R568). -/
def State.wakePort (s : State) (p k : Nat) : Bool :=
  bitOf (s.get Reg.PWR_WAKE_CTL.ETH_PORTS) p && bitOf (s.get Reg.PWR_WAKE_ETH.MODES) (3 * p + k)

/-- ENERGY_DETECT (R568): a level. -/
def execEnergyDetect (port : Nat) (s : State) : Result :=
  if 4 ≤ port then .fault .noSuchUnit else .next (if s.wakePort port 0 then wakeEvent s 1 true else s)

/-- ANY_FRAME_WAKE (R568): the frame is dropped. -/
def execAnyFrameWake (port : Nat) (s : State) : Result :=
  if 4 ≤ port then .fault .noSuchUnit else .next (if s.wakePort port 1 then wakeEvent s 2 false else s)

/-- The 64 bytes of the WAKE pattern (Table 16-13). -/
def wakePattern : List Byte := (List.range 16).flatMap fun _ => [0x48, 0x4E, 0x57, 0x4B]

/-- WAKE_FRAME (R476, R568): recognised by its type and pattern; in RUN it is discarded without count. -/
def execWakeFrame (f : Frame) (s : State) : Result :=
  if 4 ≤ f.port then .fault .noSuchUnit
  else .next (if f.ty = 0x7E ∧ f.linkOk ∧ f.payload = wakePattern ∧ s.wakePort f.port 2 then wakeEvent s 4 false else s)

/-- WAKE_KNOCK (R506, R568). -/
def execWakeKnock (link : Nat) (s : State) : Result :=
  if !s.hasLink link then .fault .noSuchUnit
  else .next (if bitOf (s.get Reg.PWR_WAKE_CTL.KNOCK_ACCEPT) link then wakeEvent s 8 false else s)

/-- WAKE_PIN (R435, R436): one sample of WAKE[p] at an AON edge. A pin is active when two consecutive samples show its active
level; in edge mode it triggers when it becomes active, in level mode while it is active. -/
def execWakePin (pin : Nat) (level : Bool) (s : State) : Result :=
  if 8 ≤ pin then .fault .noSuchUnit
  else if s.pins.spPhase ≠ 3 then .next s
  else
    let shows := level == bitOf (s.get Reg.SAFE_SP_WAKE_CFG.POLARITY) pin
    let a := s.safety.wakeSamples
    let was := bitOf a.1 pin && bitOf a.2 pin
    let put := fun (m : Nat) (b : Bool) => (if bitOf m pin then m - 2 ^ pin else m) + (if b then 2 ^ pin else 0)
    let s := { s with safety := { s.safety with wakeSamples := (put a.1 (bitOf a.2 pin), put a.2 shows) } }
    let active := bitOf a.2 pin && shows
    let edge := bitOf (s.get Reg.SAFE_SP_WAKE_CFG.MODE) pin
    if !bitOf (s.get Reg.SAFE_SP_WAKE_CFG.ENABLE) pin ∨ !active ∨ (edge && was) then .next s
    else .next (wakeEvent s (16 + 2 ^ (8 + pin)) (!edge))

/-- AON_ALARM (R568): the AON time counter reaches PWR_ALARM; the alarm stays pending until PWR_ALARM is written. -/
def execAonAlarm (s : State) : Result :=
  if s.get64 Reg.PWR_ALARM_LO.LO Reg.PWR_ALARM_HI.HI = 0 then .next s
  else .next (wakeEvent { s with power := { s.power with alarm := true } } 32 true)

/-- THERMAL_ALARM (R568). -/
def execThermalAlarm (s : State) : Result :=
  .next (if s.flag Reg.PWR_WAKE_CTL.THERMAL_WAKE then wakeEvent s 64 true else s)

/-! ## Sleeping and waking -/

/-- Links that leave RUN go down without counting as lost (R567). -/
def linksDown (s : State) : State := (List.range 4).foldl (fun (s : State) l =>
  if s.get (Reg.TENON_LINK_STATUS.STATE l) = 0 then s else (s.set (Reg.TENON_LINK_STATUS.STATE l) 0).setLink l { s.link l with downAt := none }) s

/-- HBM stacks in self-refresh, or out of it. -/
def selfRefresh (s : State) (on : Bool) : State := (List.range s.stacks).foldl (fun (s : State) k => s.set (Reg.HBM_STATUS.SELF_REFRESH k) (bit on)) s

/-- The device is in NAP or SLEEP (R564, R566, R572): links are down, HBM refreshes itself, the fields of the latest epoch read 0, and a
latched wake event ends it at once. -/
def enterPower (s : State) : State :=
  let kind := s.power.entry
  let s := ((s.set Reg.PWR_STATUS.ENTRY_PENDING 0).set Reg.PWR_STATUS.LAST_SLEEP kind).inc Reg.PWR_SLEEP_COUNT.COUNT
  let s := (List.range s.stacks).foldl (fun (s : State) k => s.set (Reg.HBM_SCRUB_HOURS.HOURS k) (s.scrubHours k)) s
  let s := epochFields.foldl (fun (s : State) f => s.set f 0) (selfRefresh (linksDown s) true)
  let latched := s.power.latched ||| (if s.power.alarm then 32 else 0)
  let s := { s with
    power := { s.power with entry := 0, closing := false, asleep := kind, restSince := none, idle := [] }
    jig := { s.jig with counted := none }
    pins := { s.pins with refclkReq := s.pins.refclkReq && kind != 2 } }
  if latched = 0 then s else beginWake s latched

/-- ENTRY_WINDOW_END (R562, R566, R567, R572): the device is in NAP or SLEEP, or wakes at once on a latched event, on a pending alarm
or on a level-mode WAKE pin that is active. -/
def execEntryWindowEnd (s : State) : Result := .next (if s.power.closing then enterPower s else s)

/-- WAKE (R569, R570, R554): the reference is requested, HBM leaves self-refresh, the PTP time base is loaded from the AON time
counter in HOLDOVER, and the links in KNOCK_SEND are knocked. -/
def execWake (s : State) : Result :=
  if s.power.waking ≠ 1 then .next s
  else
    let s := ((selfRefresh s false).set Reg.FRAME_STATUS.HOLDOVER 1).set Reg.ETH_STATUS.PTP_SYNCED 0
    let sent := (List.range 4).filter fun l => s.hasLink l && bitOf (s.get Reg.PWR_WAKE_CTL.KNOCK_SEND) l
    .next { s with
      pins := { s.pins with refclkReq := decide (s.get Reg.SAFE_SP_STRAPS.REF = 0) }
      power := { s.power with waking := 2, knockSince := some s.frame.now, knocks := sent.reverse } }

/-- KNOCK_REPEAT (R569): every 200 us until the link trains, for at most 5 ms. -/
def execKnockRepeat (link : Nat) (s : State) : Result :=
  if !s.hasLink link then .fault .noSuchUnit
  else match s.power.knockSince with
  | some t =>
    if bitOf (s.get Reg.PWR_WAKE_CTL.KNOCK_SEND) link ∧ s.get (Reg.TENON_LINK_STATUS.STATE link) = 0 ∧ s.frame.now ≤ t + 5000000 then
      .next { s with power := { s.power with knocks := link :: s.power.knocks } }
    else .next s
  | none => .next s

/-- WAKE_DONE (R437, R571): RUN. The pins return to BUS with the empty table, the world starts as after a warm restart with
REBASE, the ledger rebuilds with cause WARM, refine starts cold, the safety grid is blocked, H, A and the window are cleared,
and shadow frames run until two in a row pass. In a chain the head runs a clamp. -/
def execWakeDone (s : State) : Result :=
  if s.power.waking ≠ 2 then .next s
  else
    let s := (s.set Reg.PWR_STATUS.WAKING 1).set Reg.WORLD_STATUS.REBASE 1
    let s := (s.set Reg.SAFE_WINDOW.MAP 0).set Reg.SAFE_VERDICT.DISAGREE 0
    let s := setPhase s (if s.get Reg.SAFE_SP_STRAPS.SP_ENABLE = 1 then 1 else 2)
    let s := restartLedger s
    let s := { s with
      power := { s.power with asleep := 0, waking := 0, passes := 0 }
      world := { s.world with allChanged := true, active := false, closed := true }
      solver := { s.solver with warm := none, run := none, result := none }
      jig := { s.jig with descs := [], held := [], released := [], next := [], cache := [], disabled := false, abandoned := false }
      safety := { s.safety with gridFree := [], sliceFree := [], held := none, armed := none, armedOk := false, window := [], prevVerdict := 0 }
      digest := { s.digest with anchorDue := true, rebaseDue := true }
      frame := { s.frame with running := true, inFrame := false, drain := false, gapExcused := true, shadowLeft := 0
                              notBefore := s.nextFrame s.frame.now }
      tenon := { s.tenon with clampDue := s.isHead } }
    .next (clampIfDue (armedStatus s))

/-- LEASE_TICK (R564). -/
def execLeaseTick (s : State) : Result :=
  .next ((List.range 7).foldl (fun (s : State) q =>
    let f := Reg.PWR_LEASE.MS (q + 1)
    s.set f (s.get f - 1)) s)

/-! ## IDLE and DOZE -/

/-- Islands that enter IDLE: physical tiles 0 to 35, World Cache slices 36 to 43, ledger groups 44 to 47, the Ordering Unit 48, solver
engines 49 to 52, the distance-transform unit 53 (R557). -/
def islandCount : Nat := 54

/-- IDLE_ENTRY (R557): a tile shows IDLE; the other islands' state no register shows. -/
def execIdleEntry (island : Nat) (s : State) : Result :=
  if islandCount ≤ island then .fault .noSuchUnit
  else if island < 36 then .next (if s.get (Reg.PWR_TILE_STATE.STATE island) = 0 then s.set (Reg.PWR_TILE_STATE.STATE island) 1 else s)
  else .next { s with power := { s.power with idle := setAdd island s.power.idle } }

/-- IDLE_WAKE (R557). -/
def execIdleWake (island : Nat) (s : State) : Result :=
  if islandCount ≤ island then .fault .noSuchUnit
  else if island < 36 then .next (if s.get (Reg.PWR_TILE_STATE.STATE island) = 1 then s.set (Reg.PWR_TILE_STATE.STATE island) 0 else s)
  else .next { s with power := { s.power with idle := s.power.idle.filter (· ≠ island) } }

/-- DOZE_ENTRY (R558, R559): with DOZE_ALLOW, a tile without a task in WAITING, READY, PEND_READY, RUNNING or MIGRATING and
without a due test; its panel cache is not retained. That the next delay wake and frame start lie far enough ahead is the
event's own condition. -/
def execDozeEntry (tile : Nat) (s : State) : Result :=
  if s.tiles ≤ tile then .fault .noSuchUnit
  else match s.cfg.image with
  | none => .next s
  | some img =>
    let p := s.phys tile
    let busy := s.jig.descs.any fun d => d.1 / 2048 == tile && decide (d.2.state ∈ [1, 3, 4, 5, 6])
    let u := s.unit 0 p
    if !bitOf img.powerFlags 0 ∨ busy ∨ u.due ∨ u.active ∨ 2 ≤ s.get (Reg.PWR_TILE_STATE.STATE p) then .next s
    else
      let s := (s.set (Reg.PWR_TILE_STATE.STATE p) 2).tally (Reg.PWR_TILE_STATE.DOZES p) 1
      .next { s with jig := { s.jig with cache := s.jig.cache.filter fun c => c.tile != tile } }

/-- DOZE_WAKE (R560): the tile is in RUN; the reload of constants changes timing only (R561). -/
def execDozeWake (tile : Nat) (s : State) : Result :=
  if s.tiles ≤ tile then .fault .noSuchUnit
  else .next (if s.get (Reg.PWR_TILE_STATE.STATE (s.phys tile)) = 2 then s.set (Reg.PWR_TILE_STATE.STATE (s.phys tile)) 0 else s)

/-! ## Throttling (R573, R574, R618) -/

/-- THROTTLE_STEP_DOWN (R574): `cause` 0 CURRENT, 1 POWER, 2 THERMAL, now in force; the voltage is lowered after the step. -/
def execThrottleStepDown (cause : Nat) (s : State) : Result :=
  if 3 ≤ cause then .fault .noSuchUnit
  else
    let c := s.get Reg.PWR_STATUS.CAUSE
    let s := s.set Reg.PWR_STATUS.CAUSE (c ||| 2 ^ cause)
    let n := s.get Reg.PWR_STATUS.STEP
    let s := { s with power := { s.power with lastTrigger := s.frame.now, raising := false } }
    if 12 ≤ n then .next s
    else
      let s := (s.set Reg.PWR_STATUS.STEP (n + 1)).inc Reg.PWR_THROTTLE_COUNT.COUNT
      .next { s with power := { s.power with vout := s.die.vf.getD (n + 1) 0 } }

/-- THROTTLE_STEP_UP (R573, R574): with no trigger for 100 us the voltage of the next step is asked for; once the regulator has
reported it, the command comes again and the step is taken. -/
def execThrottleStepUp (s : State) : Result :=
  let s := s.set Reg.PWR_STATUS.CAUSE 0
  let n := s.get Reg.PWR_STATUS.STEP
  if n = 0 then .next s
  else if s.power.raising then .next { s.set Reg.PWR_STATUS.STEP (n - 1) with power := { s.power with raising := false } }
  else .next { s with power := { s.power with raising := true, vout := s.die.vf.getD (n - 1) 0 } }

/-- VOUT_SETTLE_TIMEOUT (R618): the step up is abandoned and STEP stays; the attempt repeats after 100 us. -/
def execVoutSettleTimeout (s : State) : Result :=
  .next (if s.power.raising then { s with power := { s.power with raising := false, lastTrigger := s.frame.now } } else s)

/-- A supply error (R617): FATAL, zone 8, mechanism 9. -/
def supplyError (s : State) : State := detect s (mkError 8 0 3 9 0)

/-- PMB_ALERT (R618): a set fault bit of STATUS_WORD other than the input-voltage warning is a supply error. PRESUMED from PMBus
1.3: bit 13 tells of the input, and bit 7 (BUSY) is no fault. -/
def execPmbAlert (status : Word) (s : State) : Result :=
  .next (if status.toNat &&& 0xDF7F ≠ 0 ∧ s.pins.resetN then supplyError s else s)

/-- CURRENT_CALIBRATION (R618). -/
def execCurrentCalibration (iout : Nat) (s : State) : Result := .next { s with power := { s.power with calibration := iout } }

/-- HBM_HOT (R575): above 85 degrees the refresh rate doubles under maintenance activity 2; with the token refused it is tried
again. -/
def execHbmHot (stack temp : Nat) (s : State) : Result :=
  if s.stacks ≤ stack then .fault .noSuchUnit
  else
    let s := s.set (Reg.HBM_STATUS.TEMP stack) temp
    if temp ≤ 85 ∨ s.flag (Reg.HBM_STATUS.REFRESH_2X stack) then .next s
    else
      let t : Token := { act := 2, cls := 5, idx := stack }
      let r := takeToken s t
      .next (if r.1 then dropToken (r.2.set (Reg.HBM_STATUS.REFRESH_2X stack) 1) t else r.2)

/-! ## Supplies and telemetry -/

/-- RAIL_FAULT (R617): a rail of Table 23-4 but VDD_AON, numbered from 0 (VDD_AON) to 8 (VDDA_SD). -/
def execRailFault (rail : Nat) (s : State) : Result :=
  if 9 ≤ rail ∨ rail = 0 then .fault .noSuchUnit else .next (if s.pins.resetN then supplyError s else s)

/-- AON_UNDERVOLTAGE (R617, R594): as RESET_N low, with the loss of what AON holds. -/
def execAonUndervoltage (s : State) : Result :=
  let r := resetDevice s
  .next { r with
    regs := []
    pins := { r.pins with aonSupply := false, resetN := s.pins.resetN }
    sec := { r.sec with aonSeq := 0, aonDigest := [] } }

/-- I2C_READ (R622): the 8 bytes, served in every state with supply. -/
def execI2cRead (s : State) : Result :=
  if !s.pins.aonSupply then .next s
  else
    let s := s.sense
    let front := fun (c : Nat) => sGet 0 c s.safety.front
    let b5 := bit (!s.pins.faultN) + 2 * bit s.pins.safeState + 4 * s.get Reg.PWR_STATUS.LAST_SLEEP + 16 * s.get Reg.PWR_STATUS.STEP
    let b := leBytes (s.get Reg.PWR_TJ.TJ) 2 ++ leBytes (s.get Reg.SAFE_MODE.MODE) 1 ++ leBytes (s.get Reg.SEC_BOOT_STATUS.STATE) 1 ++
      leBytes (front 5) 1 ++ leBytes b5 1 ++ leBytes (front 15) 2
    .next { s with power := { s.power with i2c := b } }

/-- I2C_WRITE (R622): every byte is answered with NACK, and nothing changes. -/
def execI2cWrite (s : State) : Result := .next s

end Sys2Proof.Machine
end

