-- ==== Sys2Proof/Machine/Access.lean ====
section
/-! DEFINITION. Register access (R13 to R18, R460 to R462, R478, R509, R598 to R606): the rights of the access paths, reads with the
windows and the values that are formed when they are read, writes by access class and the effects of command registers,
EPOCH_COMMIT (R94), and the requests of Sheaz, Tenon and JTAG with their queue (R600, R605). The two steps of a restart at which
waiting requests are applied end the file. -/

namespace Sys2Proof.Machine

/-! ## Addresses and rights -/

/-- The register at an address belongs to a unit that the part does not have (R604). -/
def State.absentUnit (s : State) (a : Nat) : Bool :=
  let hn816 := s.die.part == 2
  let inside := fun (lo n : Nat) => decide (lo ≤ a) && decide (a < lo + n)
  (hn816 && (inside 0x80000 0x10000 || inside 0xD0000 0x10000 || inside 0xC0060 0x20 || inside 0xC0480 0x80)) ||
  (s.die.part != 0 && inside 0x210000 0x10000) || (s.die.part == 1 && inside 0xD0180 0x80)

/-- What a Guest may read (Table 16-8): the IDENT, FRAME and SAFETY blocks and its own ETH_PART registers. -/
def guestReads (p a : Nat) : Bool :=
  a / 65536 == 0 || a / 65536 == 4 || a / 65536 == 0xA || (decide (0xC0200 ≤ a) && (a - 0xC0200) / 32 == p && decide (p < 8))

/-- What JTAG may read with debug locked (Table 22-2). -/
def lockedReads (a : Nat) : Bool :=
  a / 65536 == 0 || (decide (0x30000 ≤ a) && decide (a ≤ 0x3000F)) || a / 65536 == 0xB || a / 65536 == 0xE ||
  (decide (0x60030 ≤ a) && decide (a ≤ 0x6004F))

/-- A path may read an address (R599). -/
def State.mayRead (s : State) (src : Source) (a : Nat) : Bool := s.isOwner src || match src with
  | .sheaz p _ _ => guestReads p a
  | .jtag => lockedReads a
  | _ => false

/-- A path may write an address (R599): a Guest only its own lease, locked JTAG nothing. -/
def State.mayWrite (s : State) (src : Source) (a : Nat) : Bool := s.isOwner src || match src with
  | .sheaz p _ _ => decide (1 ≤ p) && decide (p < 8) && a == 0x10040 + 4 * p
  | _ => false

/-! ## Reads -/

/-- Tasks of a flow whose outputs wait for their release. -/
def flowHeld (s : State) (f : Nat) : Nat := (s.jig.held.filter fun d => d.flow == f).length

/-- Some source is held back now (R368, Table 13-5). -/
def State.backpressure (s : State) : Bool :=
  ((List.range s.tiles).any fun n => decide (2048 ≤ (s.bound n).length)) || (s.jig.descs.any fun x => x.2.state == 4) ||
  (s.spec.epochs.any fun x => x.full) || match s.cfg.image with
    | some img => s.jig.descs.any fun x => x.2.state == 3 && !s.inWindow img x.2
    | none => false

/-- Record `i` of the trace ring (R371), 16 bytes; zero where the ring has none. -/
def State.traceRecord (s : State) (i : Nat) : List Byte :=
  s.jig.trace.getD ((65536 + s.get Reg.JIG_TRACE_WR.INDEX - 1 - i % 65536) % 65536) (List.replicate 16 0)

/-- FAULT_UNIT_INFO of the selected unit (Table 19-11); a class and index that name no unit read 0. -/
def State.unitWord (s : State) : Nat :=
  let c := s.get Reg.FAULT_UNIT_SEL.CLASS
  let i := s.get Reg.FAULT_UNIT_SEL.INDEX
  if !unitExists c i then 0
  else
    let u := s.unit c i
    2 ^ 30 * u.state + 2 ^ 25 * min u.clean 31 + 2 ^ 24 * bit u.due + min u.errors 65535

/-- FAULT_UNIT_LAST_TEST of the selected unit. -/
def State.lastTestWord (s : State) : Nat :=
  match (s.unit (s.get Reg.FAULT_UNIT_SEL.CLASS) (s.get Reg.FAULT_UNIT_SEL.INDEX)).lastTest with
  | some t => sinceThen s.frame.now t 60000000000
  | none => 0xFFFFFFFF

/-- The registers whose value is formed when they are read: windows over other state, and the counters of timing alone. -/
def State.derived (s : State) (a : Nat) : Option Nat :=
  if 0xA1000 ≤ a ∧ a < 0xA1800 then
    let i := (a - 0xA1000) / 4
    some (sGet 0 (2 * i) s.safety.front + 65536 * sGet 0 (2 * i + 1) s.safety.front)
  else if 0xE1000 ≤ a ∧ a < 0xE2000 then
    let o := s.get Reg.DIGEST_CAP_WIN.OFFSET / 4096 * 4096 + (a - 0xE1000)
    some (u32 (s.ring o 4) 0)
  else if 0x60040 ≤ a ∧ a < 0x60050 then some (u32 (s.traceRecord (s.get Reg.JIG_TRACE_RD.INDEX)) (a - 0x60040))
  else if 0x100000 ≤ a ∧ a < 0x124000 ∧ a % 4096 ∈ [0x214, 0x220, 0x224, 0x408] then
    some (match s.jig.counted with
      | some k => (Config.timingCount a k).toNat
      | none => 0)
  else if a = 0x200000 + 0x1C ∨ a = 0x210000 + 0x1C then some (s.scrubHours ((a - 0x200000) / 65536))
  else if a = 0x60000 then some (bit s.backpressure + 2 * s.get Reg.JIG_STATUS.PEND_READY +
    4 * bit (s.get Reg.JIG_TRACE_CTL.STOP = 1 ∧ 65536 ≤ s.jig.trace.length))
  else if a = 0x60054 then
    let f := s.get Reg.JIG_FLOW_SEL.FLOW
    some (65536 * min (flowHeld s f) 65535 + s.nextSeq f % 65536)
  else if a = 0xB0044 then some s.unitWord
  else if a = 0xB0048 then some s.lastTestWord
  else if a = 0x30020 then some (65536 * (s.sec.keyUpdates % 65536) + (s.sec.keys.filter fun p => decide (p.1 < 5)).foldl (fun n p => n + 2 ^ p.1) 0)
  else none

/-- The word a register reads as; a register of an absent unit reads 0 (R604). -/
def State.readWord (s : State) (a : Nat) : Nat :=
  if s.absentUnit a then 0 else (s.derived a).getD (s.word a)

/-- The words of a read up to the first that is refused, and its status (R461). -/
def readRegs (src : Source) (s : State) : Nat → Nat → List Nat × Nat
  | _, 0 => ([], 0)
  | a, n + 1 =>
    if !s.mayRead src a then ([], 1)
    else if (fieldsAt a).isNone then ([], 8)
    else
      let r := readRegs src s (a + 4) n
      (s.readWord a :: r.1, r.2)

/-! ## EPOCH_COMMIT -/

/-- From the start of a switch's drain frame until the first shadow frame starts, RWE writes and EPOCH_COMMIT are refused
(R89, R629). -/
def State.switchActive (s : State) : Bool :=
  (s.frame.drain && s.cfg.drainFor == 1) || s.get Reg.CONFIG_SWITCH_STATUS.PHASE == 4 ||
  (s.get Reg.CONFIG_SWITCH_STATUS.PHASE == 5 && !s.cfg.firstStarted)

/-- A field of the pending shadow set. -/
def State.pendingField (s : State) (f : Field) : Option Nat := (s.cfg.shadowSet.find? fun p => p.1 == f.key).map (·.2)

/-- The value a field would have once the pending set and the committed one have applied. -/
def State.soon (s : State) (f : Field) : Nat := match s.pendingField f with
  | some v => v
  | none => match s.cfg.committedSet.find? fun p => p.1 == f.key with
    | some p => p.2
    | none => s.get f

/-- A pending field breaks a rule. -/
def State.breaks (s : State) (f : Field) (bad : Nat → Bool) : Bool := match s.pendingField f with
  | some v => bad v
  | none => false

/-- The timing of the pending set, with T_frame and B_verify as loaded, breaks R28 or R29 (R30). -/
def State.timingBroken (s : State) : Bool :=
  ((s.pendingField Reg.FRAME_SEARCH_DEADLINE.SEARCH_US).isSome || (s.pendingField Reg.FRAME_REFINE_BUDGET.REFINE_US).isSome) &&
  match s.cfg.image with
  | some img => timingBad img (s.soon Reg.FRAME_SEARCH_DEADLINE.SEARCH_US) (s.soon Reg.FRAME_REFINE_BUDGET.REFINE_US)
  | none => true

/-- Banks of the panel cache, the highest-numbered of 12, as a mask (R559). -/
def State.cacheMask (s : State) : Nat := match s.cfg.image with
  | some img => 2 ^ 12 - 2 ^ (12 - min img.cacheBanks 12)
  | none => 0

/-- Bytes of partition 0's HBM region, which holds the capture ring (R520). -/
def State.ownerRegion (s : State) : Nat := match s.cfg.image with
  | some img => img.partField 0 0x18 8
  | none => 0

/-- The status of EPOCH_COMMIT's checks, in ascending address of the register concerned (R94): the retained banks (R577), the
frame timing (R30), the tile limit (R348), the affinity threshold (R372), the log's base (R549) and the capture ring (R527). -/
def State.commitStatus (s : State) : Nat :=
  let cache := s.cacheMask
  let retain := (List.range 32).any fun n =>
    s.breaks (Reg.PWR_TILE_RETAIN.SLEEP_BANKS n) (fun v => v &&& cache != 0) || s.breaks (Reg.PWR_TILE_RETAIN.DOZE_BANKS n) (fun v => v &&& cache != 0)
  let ringBad := fun (v : Nat) => decide (v < 16) || decide (s.ownerRegion < 1048576 * v)
  if retain then 5
  else if s.timingBroken then 3
  else if s.breaks Reg.FRAME_SPEC_CTL.TILE_LIMIT (fun v => decide (s.tiles < v)) then 4
  else if s.breaks Reg.JIG_AFFINITY.THRESHOLD (fun v => v == 0 || decide (1024 < v)) then 5
  else if s.breaks Reg.FAULT_LOG_BASE.BASE (fun v => v % 65536 != 0) then 5
  else if s.breaks Reg.DIGEST_CAP_CTL.SIZE_MB (fun v => (v != 0 || s.soon Reg.DIGEST_CAP_CTL.ENABLE == 1) && ringBad v) then 5
  else 0

/-- A write to CONFIG_EPOCH_COMMIT: its status, and the pending set committed where it is OK (R13 to R15, R30, R94, R629). -/
def commitWrite (src : Source) (s : State) : Nat × State :=
  if !s.isOwner src then (1, s)
  else if s.switchActive then (6, s)
  else
    let r := s.commitStatus
    if r ≠ 0 then (r, s)
    else (0, { s with cfg := { s.cfg with committedSet := s.cfg.shadowSet.foldl (fun m p => sInsert p.1 p.2 m) s.cfg.committedSet, shadowSet := [] } })

/-- EPOCH_COMMIT (R94). -/
def execEpochCommit (src : Source) (s : State) : Result :=
  let r := commitWrite src s
  .next { r.2 with access := r.1 }

/-! ## Writes -/

/-- NOT_OWNER in the status register of a command register that an unprivileged source wrote (R603). -/
def notOwner (a : Nat) (s : State) : State :=
  if a = 0x20020 ∨ a = 0x21FFC then slotResult s 1
  else if a = 0x20050 then switchResult s 1
  else if a = 0x9003C then s.set Reg.LEDGER_STATUS.CMD_RESULT 1
  else if a = 0xB0034 then s.set Reg.FAULT_TEST_STATUS.RESULT 1
  else if a = 0x10004 then powerResult s 1
  else if a = 0x30014 then bootResult s 1
  else if a = 0x30024 then keyResult s 1
  else s

/-- The block of CONFIG_QUIESCE_REQ that owns an RWQ register (R98): a port, a link, or the DIGEST block. -/
def quiesceBlock (a : Nat) : Nat :=
  if 0xC0040 ≤ a ∧ a < 0xC0080 then 5 + (a - 0xC0040) / 16
  else if 0xD0100 ≤ a ∧ a < 0xD0200 then 9 + (a - 0xD0100) / 64 else 14

/-- The block has reported QUIESCED and has not been returned to service. -/
def State.quiesced (s : State) (b : Nat) : Bool := bitOf (s.get Reg.CONFIG_QUIESCE_STATUS.QUIESCED) b

/-- A link that is disabled while its block is quiesced is down, without being lost. -/
def disableLink (s : State) (l : Nat) : State :=
  let x := s.link l
  let s := if x.retraining then dropToken s { act := 6, cls := 0, idx := l } else s
  (s.set (Reg.TENON_LINK_STATUS.STATE l) 0).setLink l { x with outstanding := [], waiting := [], downAt := none, retraining := false, retrainWait := false }

/-- What follows a write of live and quiesce-only fields: the port's rate is in force, a disabled link goes down, a written alarm is
no longer pending (R568), and the capture window's bytes stand in the ring. -/
def afterWrite (a v : Nat) (s : State) : State :=
  if 0xC0040 ≤ a ∧ a < 0xC0080 then s.set (Reg.ETH_PORT_STATUS.RATE ((a - 0xC0040) / 16)) (v % 4)
  else if 0xD0100 ≤ a ∧ a < 0xD0200 then (if v % 2 = 0 then disableLink s ((a - 0xD0100) / 64) else s)
  else if a = 0x10010 ∨ a = 0x10014 then { s with power := { s.power with alarm := false } }
  else if 0xE1000 ≤ a ∧ a < 0xE2000 then
    let o := s.get Reg.DIGEST_CAP_WIN.OFFSET / 4096 * 4096 + (a - 0xE1000)
    { s with digest := { s.digest with ring := ((leBytes v 4).zipIdx o).foldl (fun m p => sSet 0 p.2 p.1 m) s.digest.ring } }
  else s

/-- The value of a field in a written word. -/
def Field.of (f : Field) (v : Nat) : Nat := v / 2 ^ f.lo % 2 ^ f.width

/-- The retained banks read 1 in bit 0 (Table 20-10). -/
def fixed (a v : Nat) : Nat := if 0x10100 ≤ a ∧ a < 0x10180 then v ||| 1 else v

/-- One field written under its access class (Table 0-3). The fields of the capture window stand in the ring alone. -/
def writeField (a v : Nat) (s : State) (f : Field) : State := match f.access with
  | .rw => s.set f (f.of v)
  | .rwq => if 0xE1000 ≤ a ∧ a < 0xE2000 then s else s.set f (f.of v)
  | .rwe => { s with cfg := { s.cfg with shadowSet := sInsert f.key (fixed a (f.of v)) s.cfg.shadowSet } }
  | .w1c => s.set f (s.get f &&& ((2 ^ f.width - 1) - f.of v))
  | .ro => s
  | .wo => s

/-- A write by the access classes of the register's fields (R13, R17, R602): refused as a whole, or applied to every writable
field. -/
def plainWrite (a v : Nat) (fs : List Field) (s : State) : Nat × State :=
  if fs.any (fun f => f.access == .rwq) ∧ !s.quiesced (quiesceBlock a) then (2, s)
  else if fs.any (fun f => f.access == .rwe) ∧ s.switchActive then (6, s)
  else (0, afterWrite a v (fs.foldl (writeField a v) s))

/-- A word of CONFIG_SLOT_WDATA; the last one programs the block (R77). -/
def windowWrite (src : Source) (a : Nat) (w : Word) (s : State) : State :=
  if a = 0x21FFC then slotDataBlock src w s
  else { s with cfg := { s.cfg with window := sSet 0 ((a - 0x21000) / 4) w.toNat s.cfg.window } }

/-- Port and register of an address among the MACsec key registers. -/
def macsecReg (a : Nat) : Nat × Nat := ((a - 0xC0400) / 64, (a - 0xC0400) % 64)

/-- A write to a MACsec key register (R478). -/
def macsecWrite (src : Source) (a : Nat) (w : Word) (s : State) : Nat × State :=
  let p := (macsecReg a).1
  let o := (macsecReg a).2
  if o = 0x20 then
    let s := macsecInstall src p w s
    (s.access, s)
  else
    let ok := match src with
      | .sheaz q tag conf => q == 0 && tag && conf
      | .jtag => s.get Reg.SEC_DEBUG_STATUS.STATE == 2
      | _ => false
    if ok then (0, { s with eth := { s.eth with sak := sSet 0 (8 * p + o / 4) w.toNat s.eth.sak } }) else (1, s)

/-- The effect of a write to a command register of the CONFIG block by a source of R75; none for any other register. -/
def configCommand (src : Source) (a : Nat) (w : Word) (s : State) : Option State :=
  if a = 0x20020 then some (match w.toNat % 4 with
    | 1 => slotOpen src s | 2 => slotClose src s | 3 => slotAbort src s | _ => s)
  else if a = 0x20050 then some (match w.toNat % 8 with
    | 1 => switchCmd src s | 2 => holdCmd src s | 3 => resumeCmd src s | 4 => cancelCmd src s | _ => s)
  else if a = 0x20058 then some (quiesceRequest src w.toNat s)
  else if 0x21000 ≤ a ∧ a < 0x22000 then some (windowWrite src a w s)
  else none

/-- The effect of a write to a command register of the blocks that watch over the device: PWR, SEC, SAFETY and FAULT. -/
def deviceCommand (src : Source) (a : Nat) (w : Word) (s : State) : Option State :=
  if a = 0x10004 then some (match w.toNat % 4 with
    | 1 => entryCmd 1 src s | 2 => entryCmd 2 src s | 3 => cancelEntry src s | _ => s)
  else if a = 0x30014 then some (match w.toNat % 4 with
    | 1 => restartCmd 6 src s | 2 => restartCmd 5 src s
    | 3 => if s.get Reg.SEC_BOOT_STATUS.STATE = 1 then loadCmd src s else retryCmd src s
    | _ => s)
  else if a = 0x30024 then some (if w.toNat % 2 = 1 then applyKey src s else s)
  else if a = 0x30030 then some (match w.toNat % 4 with
    | 1 => challengeCmd src s | 2 => respondCmd src s | _ => s)
  else if a = 0xA0034 then some (if w.toNat % 2 = 1 then enterNow s else s)
  else if a = 0xB0034 then some (faultTestCmd src w s)
  else none

/-- The effect of a write to a command register of the LEDGER, TENON and DIGEST blocks. -/
def blockCommand (src : Source) (a : Nat) (w : Word) (s : State) : Option State :=
  if a = 0x9003C then some (if w.toNat % 2 = 1 then rebuildCmd src s else s)
  else if a = 0xD0014 then
    let s := if bitOf w.toNat 1 then enumerateCmd src s else s
    some (if bitOf w.toNat 0 then clampCmd src s else s)
  else if a = 0xD0208 then some (if w.toNat % 4 = 1 ∨ w.toNat % 4 = 2 then remoteCmd src s else s)
  else if a = 0xE0110 then some (match w.toNat % 8 with
    | 1 => checkpointCmd src s | 2 => replayCmd 1 src s | 3 => replayCmd 2 src s | 4 => replayAbortCmd src s | 5 => capClearCmd src s | _ => s)
  else none

/-- The effect of a write to a command register by a source of R75, and its status; none for any other register. -/
def commandWrite (src : Source) (a : Nat) (w : Word) (s : State) : Option (Nat × State) :=
  if a = 0x2003C then some (commitWrite src s)
  else if 0xC0400 ≤ a ∧ a < 0xC0500 then some (macsecWrite src a w s)
  else ((configCommand src a w s).or ((deviceCommand src a w s).or (blockCommand src a w s))).map fun t => (0, t)

/-- A write of one word: its status (Table 16-10), and the state after it. -/
def applyWrite (src : Source) (a : Nat) (w : Word) (s : State) : Nat × State :=
  if !s.mayWrite src a then (1, if s.isOwner src then s else notOwner a s)
  else match fieldsAt a with
  | none => (8, s)
  | some fs =>
    if s.absentUnit a then (8, s)
    else if fs.all fun f => f.access == .ro then (1, s)
    else match commandWrite src a w s with
      | some r => r
      | none => plainWrite a w.toNat fs s

/-- The words of a write up to the first that is refused: how many were applied, the status, the state (R461). -/
def writeRegs (src : Source) : Nat → List Word → State → Nat × Nat × State
  | _, [], s => (0, 0, s)
  | a, w :: ws, s =>
    let r := applyWrite src a w s
    if r.1 ≠ 0 then (0, r.1, r.2)
    else
      let q := writeRegs src (a + 4) ws r.2
      (q.1 + 1, q.2)

/-- REGISTER_WRITE (R13): the write of one word, as the management processor applies it. -/
def execRegisterWrite (src : Source) (addr : Nat) (value : Word) (s : State) : Result :=
  let r := applyWrite src addr value s
  .next { r.2 with access := r.1 }

/-! ## Requests -/

/-- The management processor applies requests (R605): not in reset, in NAP or SLEEP, in a warm restart or in the steps of a cold
start up to step 5. -/
def State.mgmtReady (s : State) : Bool :=
  s.pins.resetN && s.power.asleep == 0 && s.safety.restart != 1 &&
  (s.get Reg.SEC_BOOT_STATUS.STATE == 3 || decide (5 < s.get Reg.SEC_BOOT_STATUS.STEP))

/-- MGMT_RESP (R460): the header fields and the words read, sent to the partition that asked. -/
def answer (s : State) (f : Frame) (addr count status fail : Nat) (words : List Nat) : State :=
  sendFrame { s with access := status } f.partition 0x32 0 none
    (beBytes f.seq.toNat 4 ++ beBytes addr 4 ++ beBytes count 2 ++ beBytes status 1 ++ beBytes 0 1 ++ beBytes fail 2 ++ beBytes 0 2 ++
     words.flatMap fun w => beBytes w 4)

/-- Source of a frame's request. -/
def Frame.source (f : Frame) : Source := .sheaz f.partition (bitOf f.flags 0) (bitOf f.flags 1)

/-- Sensor values are formed when they are read. -/
def senseFor (s : State) (a n : Nat) : State := if a < 0x10028 ∧ 0x1001C < a + 4 * n then s.sense else s

/-- A read request, or a write request, as one unit (R461). ADDRESS and COUNT of a payload too short for them are free. -/
def serveFrame (f : Frame) (s : State) : State :=
  let write := f.ty == 0x31
  let n := beAt f.payload 4 2
  let a := beAt f.payload 0 4
  if f.payload.length < 8 then
    let d := s.draw 48
    answer d.2 f (d.1.toNat / 65536) (d.1.toNat % 65536) 9 0 []
  else if n = 0 ∨ 256 < n ∨ f.payload.length ≠ (if write then 8 + 4 * n else 8) then answer s f a n 9 0 []
  else if write then
    let ws : List Word := (List.range n).map fun i => BitVec.ofNat 32 (beAt f.payload (8 + 4 * i) 4)
    let r := writeRegs (Frame.source f) a ws s
    answer r.2.2 f a n r.2.1 (if r.2.1 = 0 then 0xFFFF else r.1) []
  else
    let s := senseFor s a n
    let r := readRegs (Frame.source f) s a n
    answer s f a n r.2 (if r.2 = 0 then 0xFFFF else r.1.length) r.1

/-- A remote request of another device, as partition 0 (R509), and its answer in a MAINT message of KIND 4 on the route back. -/
def serveRemote (link source : Nat) (write : Bool) (addr count : Nat) (values : List Word) (s : State) : State :=
  let s :=
    if count = 0 ∨ 256 < count ∨ (write ∧ values.length ≠ count) then { s with access := 9 }
    else if write then
      let r := writeRegs .tenon addr values s
      { r.2.2 with access := r.2.1 }
    else
      let s := senseFor s addr count
      { s with access := (readRegs .tenon s addr count).2 }
  maintMessage s ((s.routeTo source).getD link) source 4

/-- A JTAG access (R606): its status and data stand in the data register. -/
def serveJtag (write : Bool) (addr : Nat) (value : Word) (s : State) : State :=
  if write then
    let r := applyWrite .jtag addr value s
    { r.2 with access := r.1, jtag := { busy := false, status := r.1, data := 0 } }
  else
    let s := senseFor s addr 1
    let r := readRegs .jtag s addr 1
    { s with access := r.2, jtag := { busy := false, status := r.2, data := BitVec.ofNat 32 (r.1.headD 0) } }

/-- A request is applied. -/
def serve (r : Request) (s : State) : State := match r with
  | .jtag w a v => serveJtag w a v s
  | .tenon l d w a n vs => serveRemote l d w a n vs s
  | .sheaz f => serveFrame f s

/-- The requests that have waited are applied in order of arrival (R600, R605). -/
def applyWaiting (s : State) : State := s.waiting.foldl (fun (s : State) r => serve r s) { s with waiting := [] }

/-- Sheaz requests of a port that wait. -/
def State.waitingAt (s : State) (port : Nat) : Nat := (s.waiting.filter fun r => match r with
  | .sheaz f => f.port == port
  | _ => false).length

/-- A Sheaz request: it is applied and answered, or waits in its port's queue of 16, or is discarded without a response (R605). -/
def takeRequest (f : Frame) (t : Nat) (s : State) : State :=
  let f := s.asPart f
  let r := arrive s f t
  if !r.1 then r.2
  else if r.2.mgmtReady then serveFrame f r.2
  else if 16 ≤ r.2.waitingAt f.port then r.2
  else { r.2 with waiting := r.2.waiting ++ [.sheaz f] }

/-- MGMT_READ (R460, R461). -/
def execMgmtRead (f : Frame) (t : Nat) (s : State) : Result := .next (if f.ty ≠ 0x30 then s else takeRequest f t s)

/-- MGMT_WRITE (R460, R461). -/
def execMgmtWrite (f : Frame) (t : Nat) (s : State) : Result := .next (if f.ty ≠ 0x31 then s else takeRequest f t s)

/-- REMOTE_REQUEST (R509): in NAP and SLEEP the links are down and nothing arrives. -/
def execRemoteRequest (link source : Nat) (write : Bool) (addr count : Nat) (values : List Word) (s : State) : Result :=
  if !s.hasLink link then .fault .noSuchUnit
  else if !s.pins.resetN ∨ s.power.asleep ≠ 0 then .next s
  else if s.mgmtReady then .next (serveRemote link source write addr count values s)
  else .next { s with waiting := s.waiting ++ [.tenon link source write addr count values] }

/-- Update-DR of REGACC (R606): ignored while BUSY; not applied in reset, NAP and SLEEP; it waits in a restart (R605). -/
def jtagAccess (write : Bool) (addr : Nat) (value : Word) (s : State) : State :=
  if s.jtag.busy ∨ !s.pins.resetN ∨ s.power.asleep ≠ 0 then s
  else if s.mgmtReady then serveJtag write addr value s
  else { s with jtag := { s.jtag with busy := true }, waiting := s.waiting ++ [.jtag write addr value] }

/-- REGACC_READ (R606). -/
def execRegaccRead (address : Nat) (s : State) : Result := .next (jtagAccess false address 0 s)

/-- REGACC_WRITE (R606). -/
def execRegaccWrite (address : Nat) (value : Word) (s : State) : Result := .next (jtagAccess true address value s)

/-! ## Restarts -/

/-- COLD_START (R589, R605): steps 3 to 5, the requests that have waited, and the rest. -/
def execColdStart (found : BootReport) (s : State) : Result :=
  .next (if s.mayColdStart then coldRest (applyWaiting (coldBegin s)) found else s)

/-- WARM_RESTART_DONE (R406, R605): the warm start is complete, and the requests that have waited are applied. -/
def execWarmRestartDone (s : State) : Result :=
  .next (if s.safety.restart = 1 ∧ s.cfg.image.isSome then applyWaiting (warmDone s) else s)

end Sys2Proof.Machine
end

