-- ==== Sys2Proof/Machine/Dispatch.lean ====
section
/-! DEFINITION. The dispatch of a command to its meaning. -/

namespace Sys2Proof.Machine

/-- The effect of a command on everything but the queue. -/
def exec (i : Instr) (s : State) : Host.Outcome State Fault Refusal :=
  match i with
  | .frameStart k => Sys2Proof.Machine.execFrameStart k s
  | .ptpCorrection delta => Sys2Proof.Machine.execPtpCorrection delta s
  | .syncLoss => Sys2Proof.Machine.execSyncLoss s
  | .syncReturn delta => Sys2Proof.Machine.execSyncReturn delta s
  | .admissionClose => Sys2Proof.Machine.execAdmissionClose s
  | .searchDeadline => Sys2Proof.Machine.execSearchDeadline s
  | .pathReserveDeadline => Sys2Proof.Machine.execPathReserveDeadline s
  | .remoteListDeadline => Sys2Proof.Machine.execRemoteListDeadline s
  | .verdictTime => Sys2Proof.Machine.execVerdictTime s
  | .verdict => Sys2Proof.Machine.execVerdict s
  | .commit => Sys2Proof.Machine.execCommit s
  | .spSwapPulseEnd => Sys2Proof.Machine.execSpSwapPulseEnd s
  | .registerWrite src addr value => Sys2Proof.Machine.execRegisterWrite src addr value s
  | .epochCommit src => Sys2Proof.Machine.execEpochCommit src s
  | .mgmtRead f t => Sys2Proof.Machine.execMgmtRead f t s
  | .mgmtWrite f t => Sys2Proof.Machine.execMgmtWrite f t s
  | .bulkFetchDone ty data => Sys2Proof.Machine.execBulkFetchDone ty data s
  | .pushTimeout => Sys2Proof.Machine.execPushTimeout s
  | .configChunk f t => Sys2Proof.Machine.execConfigChunk f t s
  | .slotOpen src => Sys2Proof.Machine.execSlotOpen src s
  | .slotDataBlock src value => Sys2Proof.Machine.execSlotDataBlock src value s
  | .slotBlockProgrammed chestOk => Sys2Proof.Machine.execSlotBlockProgrammed chestOk s
  | .slotClose src => Sys2Proof.Machine.execSlotClose src s
  | .slotCloseVerified chestOk => Sys2Proof.Machine.execSlotCloseVerified chestOk s
  | .slotAbort src => Sys2Proof.Machine.execSlotAbort src s
  | .structSwitch src => Sys2Proof.Machine.execStructSwitch src s
  | .switchPrepared => Sys2Proof.Machine.execSwitchPrepared s
  | .hold src => Sys2Proof.Machine.execHold src s
  | .resume src => Sys2Proof.Machine.execResume src s
  | .switchCancel src => Sys2Proof.Machine.execSwitchCancel src s
  | .drainFrameEnd => Sys2Proof.Machine.execDrainFrameEnd s
  | .reloadDone t => Sys2Proof.Machine.execReloadDone t s
  | .quiesceRequest src mask => Sys2Proof.Machine.execQuiesceRequest src mask s
  | .blockQuiesced block => Sys2Proof.Machine.execBlockQuiesced block s
  | .worldUpdate f t => Sys2Proof.Machine.execWorldUpdate f t s
  | .panelFinal layer panel => Sys2Proof.Machine.execPanelFinal layer panel s
  | .distancePanelDone layer panel => Sys2Proof.Machine.execDistancePanelDone layer panel s
  | .taskCreate tile kind speculative waitMask waitAnd => Sys2Proof.Machine.execTaskCreate tile kind speculative waitMask waitAnd s
  | .flagToken tile desc value => Sys2Proof.Machine.execFlagToken tile desc value s
  | .tick => Sys2Proof.Machine.execTick s
  | .taskDispatch tile reserve thread => Sys2Proof.Machine.execTaskDispatch tile reserve thread s
  | .taskYield tile desc why => Sys2Proof.Machine.execTaskYield tile desc why s
  | .taskComplete tile desc => Sys2Proof.Machine.execTaskComplete tile desc s
  | .depthAnnounce => Sys2Proof.Machine.execDepthAnnounce s
  | .taskOffer tile desc => Sys2Proof.Machine.execTaskOffer tile desc s
  | .sliceAbort tile => Sys2Proof.Machine.execSliceAbort tile s
  | .panelReadDone tile desc layer panel bank fromHbm => Sys2Proof.Machine.execPanelReadDone tile desc layer panel bank fromHbm s
  | .ledgerTransition => Sys2Proof.Machine.execLedgerTransition s
  | .ledgerClose => Sys2Proof.Machine.execLedgerClose s
  | .ledgerRebuild => Sys2Proof.Machine.execLedgerRebuild s
  | .ledgerRebuildCmd src => Sys2Proof.Machine.execLedgerRebuildCmd src s
  | .searchStart speculative => Sys2Proof.Machine.execSearchStart speculative s
  | .searchPhaseEnd speculative => Sys2Proof.Machine.execSearchPhaseEnd speculative s
  | .searchEnd speculative => Sys2Proof.Machine.execSearchEnd speculative s
  | .dowelMismatch tile constant readable outcome => Sys2Proof.Machine.execDowelMismatch tile constant readable outcome s
  | .checksumMiss tile repeatOk spare replayOk => Sys2Proof.Machine.execChecksumMiss tile repeatOk spare replayOk s
  | .mergeStart => Sys2Proof.Machine.execMergeStart s
  | .mergeDone => Sys2Proof.Machine.execMergeDone s
  | .orderError mech clean => Sys2Proof.Machine.execOrderError mech clean s
  | .fallbackMergeDone => Sys2Proof.Machine.execFallbackMergeDone s
  | .referenceArrival => Sys2Proof.Machine.execReferenceArrival s
  | .solverIteration => Sys2Proof.Machine.execSolverIteration s
  | .solverStopTime => Sys2Proof.Machine.execSolverStopTime s
  | .refineReturn t differ => Sys2Proof.Machine.execRefineReturn t differ s
  | .solverEngineError mech => Sys2Proof.Machine.execSolverEngineError mech s
  | .diagResolveDone result => Sys2Proof.Machine.execDiagResolveDone result s
  | .finalSweepDone => Sys2Proof.Machine.execFinalSweepDone s
  | .gridUpdate => Sys2Proof.Machine.execGridUpdate s
  | .precheck => Sys2Proof.Machine.execPrecheck s
  | .precheckDone => Sys2Proof.Machine.execPrecheckDone s
  | .verifyHandover => Sys2Proof.Machine.execVerifyHandover s
  | .trySquareCheckDone fallback => Sys2Proof.Machine.execTrySquareCheckDone fallback s
  | .warmRestartDone => Sys2Proof.Machine.execWarmRestartDone s
  | .islandTableGeneration => Sys2Proof.Machine.execIslandTableGeneration s
  | .lockstepMismatch again => Sys2Proof.Machine.execLockstepMismatch again s
  | .checkerClockDeviation => Sys2Proof.Machine.execCheckerClockDeviation s
  | .wdInTimeout => Sys2Proof.Machine.execWdInTimeout s
  | .safeEnter src => Sys2Proof.Machine.execSafeEnter src s
  | .resetNFall => Sys2Proof.Machine.execResetNFall s
  | .strapCapture straps => Sys2Proof.Machine.execStrapCapture straps s
  | .busRead address csLow oeLow edge => Sys2Proof.Machine.execBusRead address csLow oeLow edge s
  | .wakePin pin level => Sys2Proof.Machine.execWakePin pin level s
  | .arpNdRequest port ipv6 target sender => Sys2Proof.Machine.execArpNdRequest port ipv6 target sender s
  | .attestReq f t => Sys2Proof.Machine.execAttestReq f t s
  | .attestRollKey f t => Sys2Proof.Machine.execAttestRollKey f t s
  | .oldKeyExpiry partition => Sys2Proof.Machine.execOldKeyExpiry partition s
  | .jobSweep f t => Sys2Proof.Machine.execJobSweep f t s
  | .jobSearch f t => Sys2Proof.Machine.execJobSearch f t s
  | .jobRefine f t => Sys2Proof.Machine.execJobRefine f t s
  | .jobCancel f t => Sys2Proof.Machine.execJobCancel f t s
  | .jobFragmentTimeout partition jobId => Sys2Proof.Machine.execJobFragmentTimeout partition jobId s
  | .jobStart partition jobId => Sys2Proof.Machine.execJobStart partition jobId s
  | .jobEnd partition jobId => Sys2Proof.Machine.execJobEnd partition jobId s
  | .jobMaxMs partition jobId => Sys2Proof.Machine.execJobMaxMs partition jobId s
  | .jobCheckpoint partition jobId => Sys2Proof.Machine.execJobCheckpoint partition jobId s
  | .wakeFrame f => Sys2Proof.Machine.execWakeFrame f s
  | .macsecInstall src port value => Sys2Proof.Machine.execMacsecInstall src port value s
  | .traceFrameSend t => Sys2Proof.Machine.execTraceFrameSend t s
  | .faultRecordSend t => Sys2Proof.Machine.execFaultRecordSend t s
  | .flitReceive link flit => Sys2Proof.Machine.execFlitReceive link flit s
  | .nak link ack => Sys2Proof.Machine.execNak link ack s
  | .replayTimeout link => Sys2Proof.Machine.execReplayTimeout link s
  | .idleFlitTimer link => Sys2Proof.Machine.execIdleFlitTimer link s
  | .linkRetrain link => Sys2Proof.Machine.execLinkRetrain link s
  | .retrainTokenRetry link => Sys2Proof.Machine.execRetrainTokenRetry link s
  | .linkTrained link latencyPs => Sys2Proof.Machine.execLinkTrained link latencyPs s
  | .linkLoss link => Sys2Proof.Machine.execLinkLoss link s
  | .blockMessage m => Sys2Proof.Machine.execBlockMessage m s
  | .recordMessage m => Sys2Proof.Machine.execRecordMessage m s
  | .worldMessage m t => Sys2Proof.Machine.execWorldMessage m t s
  | .enum link source next side place => Sys2Proof.Machine.execEnum link source next side place s
  | .enumReply link status next peer devices => Sys2Proof.Machine.execEnumReply link status next peer devices s
  | .imageDistribution link data => Sys2Proof.Machine.execImageDistribution link data s
  | .confirm link epoch => Sys2Proof.Machine.execConfirm link epoch s
  | .squashToken link epoch cause => Sys2Proof.Machine.execSquashToken link epoch cause s
  | .clamp link target => Sys2Proof.Machine.execClamp link target s
  | .clampDone source residual refused => Sys2Proof.Machine.execClampDone source residual refused s
  | .timeToken link value holdover => Sys2Proof.Machine.execTimeToken link value holdover s
  | .timeTokenTimer => Sys2Proof.Machine.execTimeTokenTimer s
  | .digestToken link epoch frame world deadlineHit sideB t => Sys2Proof.Machine.execDigestToken link epoch frame world deadlineHit sideB t s
  | .pairDigestTimeout epoch => Sys2Proof.Machine.execPairDigestTimeout epoch s
  | .tenonClampCmd src => Sys2Proof.Machine.execTenonClampCmd src s
  | .tenonEnumerateCmd src => Sys2Proof.Machine.execTenonEnumerateCmd src s
  | .remoteRead src count => Sys2Proof.Machine.execRemoteRead src count s
  | .remoteWrite src count => Sys2Proof.Machine.execRemoteWrite src count s
  | .remoteRequest link source write addr count values => Sys2Proof.Machine.execRemoteRequest link source write addr count values s
  | .remoteResponse source status fail values => Sys2Proof.Machine.execRemoteResponse source status fail values s
  | .wakeKnock link => Sys2Proof.Machine.execWakeKnock link s
  | .knockRepeat link => Sys2Proof.Machine.execKnockRepeat link s
  | .checkpoint src => Sys2Proof.Machine.execCheckpoint src s
  | .replayMain src => Sys2Proof.Machine.execReplayMain src s
  | .replayFull src => Sys2Proof.Machine.execReplayFull src s
  | .replayEpoch stages frame provenance => Sys2Proof.Machine.execReplayEpoch stages frame provenance s
  | .replayAbort src => Sys2Proof.Machine.execReplayAbort src s
  | .capClear src => Sys2Proof.Machine.execCapClear src s
  | .errorDetected e => Sys2Proof.Machine.execErrorDetected e s
  | .errorHandled outcome test => Sys2Proof.Machine.execErrorHandled outcome test s
  | .replayCompare tile desc equal => Sys2Proof.Machine.execReplayCompare tile desc equal s
  | .fieldTestDue cls idx => Sys2Proof.Machine.execFieldTestDue cls idx s
  | .faultTestCmd src value => Sys2Proof.Machine.execFaultTestCmd src value s
  | .testSliceDone cls idx pass => Sys2Proof.Machine.execTestSliceDone cls idx pass s
  | .testDeferLimit cls idx => Sys2Proof.Machine.execTestDeferLimit cls idx s
  | .hbmScrub stack => Sys2Proof.Machine.execHbmScrub stack s
  | .ledgerScrub group => Sys2Proof.Machine.execLedgerScrub group s
  | .clockTrim => Sys2Proof.Machine.execClockTrim s
  | .nap src => Sys2Proof.Machine.execNap src s
  | .sleep src => Sys2Proof.Machine.execSleep src s
  | .sleepCancel src => Sys2Proof.Machine.execSleepCancel src s
  | .autoEntry => Sys2Proof.Machine.execAutoEntry s
  | .entryWindowEnd => Sys2Proof.Machine.execEntryWindowEnd s
  | .energyDetect port => Sys2Proof.Machine.execEnergyDetect port s
  | .anyFrameWake port => Sys2Proof.Machine.execAnyFrameWake port s
  | .aonAlarm => Sys2Proof.Machine.execAonAlarm s
  | .thermalAlarm => Sys2Proof.Machine.execThermalAlarm s
  | .wake => Sys2Proof.Machine.execWake s
  | .wakeDone => Sys2Proof.Machine.execWakeDone s
  | .leaseTick => Sys2Proof.Machine.execLeaseTick s
  | .idleEntry island => Sys2Proof.Machine.execIdleEntry island s
  | .idleWake island => Sys2Proof.Machine.execIdleWake island s
  | .dozeEntry tile => Sys2Proof.Machine.execDozeEntry tile s
  | .dozeWake tile => Sys2Proof.Machine.execDozeWake tile s
  | .throttleStepDown cause => Sys2Proof.Machine.execThrottleStepDown cause s
  | .throttleStepUp => Sys2Proof.Machine.execThrottleStepUp s
  | .voutSettleTimeout => Sys2Proof.Machine.execVoutSettleTimeout s
  | .pmbAlert status => Sys2Proof.Machine.execPmbAlert status s
  | .currentCalibration iout => Sys2Proof.Machine.execCurrentCalibration iout s
  | .hbmHot stack temp => Sys2Proof.Machine.execHbmHot stack temp s
  | .railFault rail => Sys2Proof.Machine.execRailFault rail s
  | .aonUndervoltage => Sys2Proof.Machine.execAonUndervoltage s
  | .coldStart found => Sys2Proof.Machine.execColdStart found s
  | .bootWarm src => Sys2Proof.Machine.execBootWarm src s
  | .bootCold src => Sys2Proof.Machine.execBootCold src s
  | .bootRetry src => Sys2Proof.Machine.execBootRetry src s
  | .bootLoad src => Sys2Proof.Machine.execBootLoad src s
  | .keyEnrol src => Sys2Proof.Machine.execKeyEnrol src s
  | .keyRevoke src => Sys2Proof.Machine.execKeyRevoke src s
  | .debugChallenge src => Sys2Proof.Machine.execDebugChallenge src s
  | .debugRespond src => Sys2Proof.Machine.execDebugRespond src s
  | .regaccRead address => Sys2Proof.Machine.execRegaccRead address s
  | .regaccWrite address value => Sys2Proof.Machine.execRegaccWrite address value s
  | .i2cRead => Sys2Proof.Machine.execI2cRead s
  | .i2cWrite => Sys2Proof.Machine.execI2cWrite s
  | .resetNRise => Sys2Proof.Machine.execResetNRise s
  | .wdInChange => Sys2Proof.Machine.execWdInChange s
  | .ethLinkChange port up => Sys2Proof.Machine.execEthLinkChange port up s
  | .receiveDiscard f => Sys2Proof.Machine.execReceiveDiscard f s
  | .jobSubmitFragment f t => Sys2Proof.Machine.execJobSubmitFragment f t s
  | .slotEraseDone chestOk => Sys2Proof.Machine.execSlotEraseDone chestOk s
  | .warmRestartTimeout => Sys2Proof.Machine.execWarmRestartTimeout s
  | .retirementClear cls idx => Sys2Proof.Machine.execRetirementClear cls idx s

end Sys2Proof.Machine
end

