-- ==== Sys2Proof/WellFormed.lean ====
section
/-! DEFINITION. Well-formed commands: every operand that numbers a unit, or stands for a field of fixed width, is in its range.
The meanings check the unit numbers again against the part and the image. -/

namespace Sys2Proof

/-- A source names a partition (Table 16-8). -/
def Source.wf : Source → Bool
  | .sheaz p _ _ => decide (p < 8)
  | .tenon => true
  | .jtag => true
  | .mgmt => true

/-- A byte address of a register (R601). -/
def addrWf (a : Nat) : Bool := decide (a < 2 ^ 32)

/-- A port number. -/
def portWf (p : Nat) : Bool := decide (p < 4)

/-- A Tenon link number. -/
def linkWf (l : Nat) : Bool := decide (l < 4)

/-- A logical tile number. -/
def tileWf (t : Nat) : Bool := decide (t < 36)

/-- A tile and a descriptor of its agent. -/
def descWf (t d : Nat) : Bool := tileWf t && decide (d < 2048)

/-- A layer and a panel number. -/
def panelWf (l p : Nat) : Bool := decide (l < 16) && decide (p < 2 ^ 17)

/-- A device number (R493). -/
def deviceWf (n : Nat) : Bool := decide (n < 4096)

/-- A unit class and index (Table 19-1). -/
def unitWf (c i : Nat) : Bool := decide (c ≤ 11) && decide (i < 64)

/-- A received frame: its port, its header and the widths of its fields (Table 16-4). -/
def Frame.wf (f : Frame) : Bool :=
  portWf f.port && decide (f.ty ≤ 256) && decide (f.partition < 256) && decide (f.stream < 65536) && decide (f.flags < 256) &&
  (!f.headerOk || (f.header.length == 32 && f.payload.length % 4 == 0))

/-- An error names a unit class, an error class, a repeat outcome, and at most 32 bytes of syndrome (Table 19-6). -/
def ErrorInfo.wf (e : ErrorInfo) : Bool :=
  unitWf e.zone e.index && decide (e.cls < 4) && decide (e.outcome < 5) && decide (e.syndrome.length ≤ 32)

/-- The widths of a flit's header fields (Table 17-2). -/
def Flit.wf (f : Flit) : Bool :=
  decide (f.ty < 64) && decide (f.vc < 4) && decide (f.seq < 1024) && decide (f.ack < 1024) && decide (f.pool < 8) &&
  decide (f.count < 64) && decide (f.flags < 2048)

/-- A message came in on a link and names two devices. -/
def Message.wf (m : Message) : Bool := linkWf m.link && deviceWf m.dest && deviceWf m.source

/-- An enumerated device. -/
def ChainDev.wf (d : ChainDev) : Bool :=
  deviceWf d.number && decide (d.role < 4) && decide (d.pair < 4) && d.links.all fun x => linkWf x.1 && deviceWf x.2.1

/-- A placement. -/
def Placement.wf (p : Placement) : Bool :=
  deviceWf p.number && deviceWf p.position && deviceWf p.active && deviceWf p.count && deviceWf p.tail

/-- What a start finds names units of Table 19-1, or ledger groups (class 12). -/
def BootReport.wf (r : BootReport) : Bool := r.failed.all fun u => if u.1 = 12 then decide (u.2 < 4) else unitWf u.1 u.2

/-- A task names a stage or a partition. -/
def TaskKind.wf : TaskKind → Bool
  | .stage id _ => decide (1 ≤ id) && decide (id ≤ 9)
  | .unordered id => decide (1 ≤ id) && decide (id ≤ 9)
  | .job p => decide (p < 8)
  | .slice w => decide (w < 65536)

/-- A job of a partition. -/
def jobWf (p id : Nat) : Bool := decide (p < 8) && decide (id < 2 ^ 32)

/-- The operands of a command are in their ranges. -/
def Instr.wf : Instr → Bool
  | .frameStart _ => true
  | .ptpCorrection _ => true
  | .syncLoss => true
  | .syncReturn _ => true
  | .admissionClose => true
  | .searchDeadline => true
  | .pathReserveDeadline => true
  | .remoteListDeadline => true
  | .verdictTime => true
  | .verdict => true
  | .commit => true
  | .spSwapPulseEnd => true
  | .registerWrite src addr _ => src.wf && addrWf addr
  | .epochCommit src => src.wf
  | .mgmtRead f _ => f.wf
  | .mgmtWrite f _ => f.wf
  | .bulkFetchDone ty _ => decide (ty < 65536)
  | .pushTimeout => true
  | .configChunk f _ => f.wf
  | .slotOpen src => src.wf
  | .slotDataBlock src _ => src.wf
  | .slotBlockProgrammed _ => true
  | .slotClose src => src.wf
  | .slotCloseVerified _ => true
  | .slotAbort src => src.wf
  | .structSwitch src => src.wf
  | .switchPrepared => true
  | .hold src => src.wf
  | .resume src => src.wf
  | .switchCancel src => src.wf
  | .drainFrameEnd => true
  | .reloadDone _ => true
  | .quiesceRequest src mask => src.wf && decide (mask < 2 ^ 32)
  | .blockQuiesced block => decide (block < 15)
  | .worldUpdate f _ => f.wf
  | .panelFinal layer panel => panelWf layer panel
  | .distancePanelDone layer panel => panelWf layer panel
  | .taskCreate tile kind _ _ _ => tileWf tile && kind.wf
  | .flagToken tile desc _ => descWf tile desc
  | .tick => true
  | .taskDispatch tile reserve thread => tileWf tile && decide (reserve ≤ 9) && decide (thread < 256)
  | .taskYield tile desc _ => descWf tile desc
  | .taskComplete tile desc => descWf tile desc
  | .depthAnnounce => true
  | .taskOffer tile desc => descWf tile desc
  | .sliceAbort tile => tileWf tile
  | .panelReadDone tile desc layer panel bank _ => descWf tile desc && panelWf layer panel && decide (bank < 12)
  | .ledgerTransition => true
  | .ledgerClose => true
  | .ledgerRebuild => true
  | .ledgerRebuildCmd src => src.wf
  | .searchStart _ => true
  | .searchPhaseEnd _ => true
  | .searchEnd _ => true
  | .dowelMismatch tile _ _ _ => tileWf tile
  | .checksumMiss tile _ spare _ => tileWf tile && (spare.all tileWf)
  | .mergeStart => true
  | .mergeDone => true
  | .orderError mech _ => decide (mech < 256)
  | .fallbackMergeDone => true
  | .referenceArrival => true
  | .solverIteration => true
  | .solverStopTime => true
  | .refineReturn _ _ => true
  | .solverEngineError mech => decide (mech < 256)
  | .diagResolveDone _ => true
  | .finalSweepDone => true
  | .gridUpdate => true
  | .precheck => true
  | .precheckDone => true
  | .verifyHandover => true
  | .trySquareCheckDone _ => true
  | .warmRestartDone => true
  | .islandTableGeneration => true
  | .lockstepMismatch _ => true
  | .checkerClockDeviation => true
  | .wdInTimeout => true
  | .safeEnter src => src.wf
  | .resetNFall => true
  | .strapCapture straps => decide (straps < 65536)
  | .busRead address _ _ edge => decide (address < 65536) && decide (edge < 3)
  | .wakePin pin _ => decide (pin < 8)
  | .arpNdRequest port ipv6 target _ => portWf port && target.length == (if ipv6 then 16 else 4)
  | .attestReq f _ => f.wf
  | .attestRollKey f _ => f.wf
  | .oldKeyExpiry partition => decide (partition < 8)
  | .jobSweep f _ => f.wf
  | .jobSearch f _ => f.wf
  | .jobRefine f _ => f.wf
  | .jobCancel f _ => f.wf
  | .jobFragmentTimeout partition jobId => jobWf partition jobId
  | .jobStart partition jobId => jobWf partition jobId
  | .jobEnd partition jobId => jobWf partition jobId
  | .jobMaxMs partition jobId => jobWf partition jobId
  | .jobCheckpoint partition jobId => jobWf partition jobId
  | .wakeFrame f => f.wf
  | .macsecInstall src port _ => src.wf && portWf port
  | .traceFrameSend _ => true
  | .faultRecordSend _ => true
  | .flitReceive link flit => linkWf link && flit.wf
  | .nak link ack => linkWf link && decide (ack < 1024)
  | .replayTimeout link => linkWf link
  | .idleFlitTimer link => linkWf link
  | .linkRetrain link => linkWf link
  | .retrainTokenRetry link => linkWf link
  | .linkTrained link _ => linkWf link
  | .linkLoss link => linkWf link
  | .blockMessage m => m.wf
  | .recordMessage m => m.wf
  | .worldMessage m _ => m.wf
  | .enum link source next side place => linkWf link && deviceWf source && deviceWf next && decide (side < 4) && (place.all Placement.wf)
  | .enumReply link status next peer devices => linkWf link && decide (status < 4) && deviceWf next && deviceWf peer && (devices.all ChainDev.wf)
  | .imageDistribution link _ => linkWf link
  | .confirm link _ => linkWf link
  | .squashToken link _ cause => linkWf link && decide (cause < 256)
  | .clamp link target => linkWf link && deviceWf target
  | .clampDone source _ _ => deviceWf source
  | .timeToken link _ _ => linkWf link
  | .timeTokenTimer => true
  | .digestToken link _ frame world _ _ _ => linkWf link && decide (frame < 2 ^ 64) && decide (world < 2 ^ 64)
  | .pairDigestTimeout _ => true
  | .tenonClampCmd src => src.wf
  | .tenonEnumerateCmd src => src.wf
  | .remoteRead src count => src.wf && decide (count < 16)
  | .remoteWrite src count => src.wf && decide (count < 16)
  | .remoteRequest link source _ addr count values => linkWf link && addrWf addr && deviceWf source && decide (count ≤ 16) && decide (values.length ≤ 16)
  | .remoteResponse source status fail values => deviceWf source && decide (status < 256) && decide (fail < 65536) && decide (values.length ≤ 16)
  | .wakeKnock link => linkWf link
  | .knockRepeat link => linkWf link
  | .checkpoint src => src.wf
  | .replayMain src => src.wf
  | .replayFull src => src.wf
  | .replayEpoch stages _ _ => stages.length == 9
  | .replayAbort src => src.wf
  | .capClear src => src.wf
  | .errorDetected e => e.wf
  | .errorHandled outcome test => decide (outcome < 5) && decide (test < 4)
  | .replayCompare tile desc _ => descWf tile desc
  | .fieldTestDue cls idx => unitWf cls idx
  | .faultTestCmd src _ => src.wf
  | .testSliceDone cls idx _ => unitWf cls idx
  | .testDeferLimit cls idx => unitWf cls idx
  | .hbmScrub stack => decide (stack < 2)
  | .ledgerScrub group => decide (group < 4)
  | .clockTrim => true
  | .nap src => src.wf
  | .sleep src => src.wf
  | .sleepCancel src => src.wf
  | .autoEntry => true
  | .entryWindowEnd => true
  | .energyDetect port => portWf port
  | .anyFrameWake port => portWf port
  | .aonAlarm => true
  | .thermalAlarm => true
  | .wake => true
  | .wakeDone => true
  | .leaseTick => true
  | .idleEntry island => decide (island < 54)
  | .idleWake island => decide (island < 54)
  | .dozeEntry tile => tileWf tile
  | .dozeWake tile => tileWf tile
  | .throttleStepDown cause => decide (cause < 3)
  | .throttleStepUp => true
  | .voutSettleTimeout => true
  | .pmbAlert _ => true
  | .currentCalibration _ => true
  | .hbmHot stack _ => decide (stack < 2)
  | .railFault rail => decide (1 ≤ rail ∧ rail < 9)
  | .aonUndervoltage => true
  | .coldStart found => found.wf
  | .bootWarm src => src.wf
  | .bootCold src => src.wf
  | .bootRetry src => src.wf
  | .bootLoad src => src.wf
  | .keyEnrol src => src.wf
  | .keyRevoke src => src.wf
  | .debugChallenge src => src.wf
  | .debugRespond src => src.wf
  | .regaccRead address => addrWf address
  | .regaccWrite address _ => addrWf address
  | .i2cRead => true
  | .i2cWrite => true
  | .resetNRise => true
  | .wdInChange => true
  | .ethLinkChange port _ => portWf port
  | .receiveDiscard f => f.wf
  | .jobSubmitFragment f _ => f.wf
  | .slotEraseDone _ => true
  | .warmRestartTimeout => true
  | .retirementClear cls idx => unitWf cls idx

end Sys2Proof
end

