-- ==== Sys2Proof/Safety.lean ====
section
/-! DEFINITION. What counts as a sound state and a safe run, in the terms the statements use: the canonical form of the byte stores and
of the register file, the queue of well-formed commands, and the rollback floor. -/

namespace Sys2Proof.Machine

/-- A byte store is in canonical form: addresses strictly rising, and no entry equal to what an unlisted address reads as. -/
def Memory.wf (d : Byte) (m : List Host.Cell) : Bool := sWf d m

/-- The byte stores of a slot. -/
def Slot.wf (l : Slot) : Bool := Memory.wf erased l.header && Memory.wf erased l.content

/-- The addressed byte stores of the device: the slots of Chest and of the external flash, the staged slot, and the capture ring. -/
def State.memoryWf (s : State) : Bool :=
  s.cfg.slotA.wf && s.cfg.slotB.wf && s.cfg.xspiA.wf && s.cfg.xspiB.wf && Memory.wf erased s.cfg.staged && Memory.wf 0 s.digest.ring

/-- Keys strictly rising. -/
def ascends {α : Type} : List (Nat × α) → Bool
  | [] => true
  | [_] => true
  | p :: q :: r => decide (p.1 < q.1) && ascends (q :: r)

/-- The register file lists every field once, in ascending address. -/
def State.registersWf (s : State) : Bool := ascends s.regs

/-- The tables of task descriptors, units, partitions, checker records and links list every key once, ascending. -/
def State.tablesWf (s : State) : Bool :=
  ascends s.jig.descs && ascends s.fault.units && ascends s.eth.parts && ascends s.ledger.recs && ascends s.tenon.links

/-- Every command that waits is well-formed. -/
def State.queueWf (s : State) : Bool := s.pending.all Instr.wf

/-- The rollback floor in force (R80); 0 where neither copy authenticates. -/
def State.floor (s : State) : Nat := (s.floorValue).getD 0

/-- The command completes: exec answers a next state, of which `P` holds. -/
def Answers (c : Instr) (s : State) (P : State → Prop) : Prop := ∃ t, exec c s = .next t ∧ P t

/-- A counter counted up by one, saturating at its largest value. -/
def State.counted (s : State) (f : Field) : Nat := if s.get f + 1 < 2 ^ f.width then s.get f + 1 else s.get f

/-- The copies of a frame to a partition that enter the queues of its ports (R449, R456, R471): one for each of its ports with link. -/
def State.copies (s : State) (p ty : Nat) (e : Epoch) (payload : List Byte) : List TxFrame :=
  ((s.txPorts p).filter fun k => s.portUp k).map fun k =>
    { partition := p, ty, port := k, rtag := none, seq := s.get (Reg.ETH_PART_TX_SEQ.SEQ p), epoch := e, payload
      tag := (s.part p).key.map fun key => Config.gcmTag key (txNonce p ty e (s.get (Reg.ETH_PART_TX_SEQ.SEQ p)))
        (txHeader p ty (payload.length / 4) true (s.get (Reg.ETH_PART_TX_SEQ.SEQ p)) e s.frame.now.toNat) payload
      time := s.frame.now.toNat }

/-- A flit waits to be sent on a link, or has been sent and is not yet acknowledged (R484, R489). -/
def State.carries (s : State) (l : Nat) (f : OutFlit) : Prop := f ∈ (s.link l).waiting ∨ ∃ o ∈ (s.link l).outstanding, o.flit = f

/-- Every register field reads as before, but for those listed. -/
def RegsSame (s t : State) (fs : List Field) : Prop := ∀ f : Field, f.key ∉ fs.map Field.key → t.get f = s.get f

/-- The parts of the state other than the register file. -/
inductive Part where
  | frame | cfg | world | ledger | order | solver | spec | jig | safety | pins | die | fault | digest | eth | tenon | power | sec | jtag | waiting | access | fresh | pending
deriving DecidableEq, Repr

/-- A part of the state is as before. -/
def Part.Same (s t : State) : Part → Prop
  | .frame => t.frame = s.frame
  | .cfg => t.cfg = s.cfg
  | .world => t.world = s.world
  | .ledger => t.ledger = s.ledger
  | .order => t.order = s.order
  | .solver => t.solver = s.solver
  | .spec => t.spec = s.spec
  | .jig => t.jig = s.jig
  | .safety => t.safety = s.safety
  | .pins => t.pins = s.pins
  | .die => t.die = s.die
  | .fault => t.fault = s.fault
  | .digest => t.digest = s.digest
  | .eth => t.eth = s.eth
  | .tenon => t.tenon = s.tenon
  | .power => t.power = s.power
  | .sec => t.sec = s.sec
  | .jtag => t.jtag = s.jtag
  | .waiting => t.waiting = s.waiting
  | .access => t.access = s.access
  | .fresh => t.fresh = s.fresh
  | .pending => t.pending = s.pending

/-- Every register field reads as before, but for those listed and those of the indexed registers listed. -/
def RegsFrame (s t : State) (fs : List Field) (gs : List (Nat → Field)) : Prop :=
  ∀ f : Field, f.key ∉ fs.map Field.key → (∀ g ∈ gs, ∀ i, f.key ≠ (g i).key) → t.get f = s.get f

/-- Every part of the state other than the register file is as before but for those listed. -/
def PartsSame (s t : State) (ps : List Part) : Prop := ∀ p : Part, p ∉ ps → p.Same s t

/-- A frame: every part of the state is as before but for those listed, and every register field but for those listed and
those of the indexed registers listed. -/
def Changes (s t : State) (ps : List Part) (fs : List Field) (gs : List (Nat → Field) := []) : Prop :=
  PartsSame s t ps ∧ RegsFrame s t fs gs

/-- Every byte of the addressed stores reads as before. -/
def StoresSame (s t : State) : Prop := ∀ a : Nat,
  sGet erased a t.cfg.slotA.header = sGet erased a s.cfg.slotA.header ∧ sGet erased a t.cfg.slotA.content = sGet erased a s.cfg.slotA.content ∧
  sGet erased a t.cfg.slotB.header = sGet erased a s.cfg.slotB.header ∧ sGet erased a t.cfg.slotB.content = sGet erased a s.cfg.slotB.content ∧
  sGet erased a t.cfg.xspiA.header = sGet erased a s.cfg.xspiA.header ∧ sGet erased a t.cfg.xspiA.content = sGet erased a s.cfg.xspiA.content ∧
  sGet erased a t.cfg.xspiB.header = sGet erased a s.cfg.xspiB.header ∧ sGet erased a t.cfg.xspiB.content = sGet erased a s.cfg.xspiB.content ∧
  sGet erased a t.cfg.staged = sGet erased a s.cfg.staged ∧ sGet 0 a t.cfg.window = sGet 0 a s.cfg.window ∧
  sGet 0 a t.digest.ring = sGet 0 a s.digest.ring

/-- The register fields that the handling of an error may write, the entry to SAFE_STATE and the restart after a failed start with
it (R404, R407, R530, R545). -/
def detectFields : List Field :=
  [Reg.CONFIG_SLOT_ACTIVE.ACCEPTS, Reg.CONFIG_SWITCH_STATUS.PHASE, Reg.CONFIG_SWITCH_STATUS.RESULT,
   Reg.FAULT_CONTAINED_COUNT.COUNT, Reg.FAULT_CORRECTED_COUNT.COUNT, Reg.FAULT_FATAL_COUNT.COUNT, Reg.FAULT_LAST_FATAL.CLASS,
   Reg.FAULT_LAST_FATAL.INDEX, Reg.FAULT_LAST_FATAL.MECHANISM, Reg.FAULT_LOG_NEXT.OFFSET, Reg.FAULT_MERGED_COUNT.COUNT,
   Reg.FAULT_RECORD_LOST.COUNT, Reg.FAULT_RECORD_SEQ.SEQ, Reg.FAULT_STATUS.HANDLING, Reg.FAULT_STATUS.LOG_ERROR,
   Reg.FAULT_STATUS.QUEUE, Reg.FAULT_STATUS.RECORD_LOST, Reg.FAULT_SUSPECT_COUNT.COUNT, Reg.FRAME_SPEC_DISCARDS.DISCARDS,
   Reg.FRAME_SPEC_EPOCH.EPOCH, Reg.FRAME_STATUS.FRAME_ACTIVE, Reg.FRAME_STATUS.SHADOW, Reg.ORDER_STATUS.SUSPECT,
   Reg.PWR_CORE.AMPS, Reg.PWR_CORE.MV, Reg.PWR_POWER.BUCKET_MJ, Reg.PWR_POWER.WATTS, Reg.PWR_TJ.TJ, Reg.SAFE_ENTRY_COUNT.COUNT,
   Reg.SAFE_FB_REMAIN.MS, Reg.SAFE_MODE.ARMED, Reg.SAFE_MODE.MODE, Reg.SAFE_MODE.RESTARTS, Reg.SAFE_SP_CLIPPED.COUNT,
   Reg.SAFE_SP_STATUS.GENERATION, Reg.SAFE_SP_SWAPS.COUNT, Reg.SAFE_STOP_COUNT.COUNT, Reg.SAFE_VERDICT.SHADOW,
   Reg.SAFE_VERDICT.VERDICT, Reg.SAFE_VERDICT_EPOCH.EPOCH, Reg.SAFE_WINDOW.MAP, Reg.SEC_BOOT_ATTEMPTS.A_EXCLUDED,
   Reg.SEC_BOOT_ATTEMPTS.A_FAILS, Reg.SEC_BOOT_ATTEMPTS.B_EXCLUDED, Reg.SEC_BOOT_ATTEMPTS.B_FAILS,
   Reg.SEC_BOOT_ATTEMPTS.WARM_FAILS, Reg.SEC_BOOT_STATUS.STATE, Reg.SEC_BOOT_STATUS.STEP, Reg.SEC_BOOT_STATUS.WARM,
   Reg.SEC_RESTART_COUNT.COUNT, Reg.SOLVER_STATUS.GOOD, Reg.SOLVER_STATUS.SUSPECT, Reg.TENON_SQUASH_SENT.COUNT]

/-- The indexed registers that the handling of an error may write. -/
def detectFamilies : List (Nat → Field) :=
  [Reg.TENON_LINK_CREDITS.SHARED, Reg.TENON_LINK_CREDITS.VC0, Reg.TENON_LINK_CREDITS.VC1, Reg.TENON_LINK_CREDITS.VC2,
   Reg.TENON_LINK_CREDITS.VC3, Reg.TILE_BIND.STATE]

/-- The addressed stores. -/
inductive Store where
  | slotA | slotB | xspiA | xspiB | staged | window | ring
deriving DecidableEq, Repr

/-- Every byte of the addressed store (every word of the write window) reads as before. -/
def Store.Same (s t : State) : Store → Prop
  | .slotA => ∀ a : Nat, sGet erased a t.cfg.slotA.header = sGet erased a s.cfg.slotA.header ∧
      sGet erased a t.cfg.slotA.content = sGet erased a s.cfg.slotA.content
  | .slotB => ∀ a : Nat, sGet erased a t.cfg.slotB.header = sGet erased a s.cfg.slotB.header ∧
      sGet erased a t.cfg.slotB.content = sGet erased a s.cfg.slotB.content
  | .xspiA => ∀ a : Nat, sGet erased a t.cfg.xspiA.header = sGet erased a s.cfg.xspiA.header ∧
      sGet erased a t.cfg.xspiA.content = sGet erased a s.cfg.xspiA.content
  | .xspiB => ∀ a : Nat, sGet erased a t.cfg.xspiB.header = sGet erased a s.cfg.xspiB.header ∧
      sGet erased a t.cfg.xspiB.content = sGet erased a s.cfg.xspiB.content
  | .staged => ∀ a : Nat, sGet erased a t.cfg.staged = sGet erased a s.cfg.staged
  | .window => ∀ a : Nat, sGet 0 a t.cfg.window = sGet 0 a s.cfg.window
  | .ring => ∀ a : Nat, sGet 0 a t.digest.ring = sGet 0 a s.digest.ring

/-- Every addressed store reads as before but for those listed. -/
def StoresBut (s t : State) (xs : List Store) : Prop := ∀ x : Store, x ∉ xs → x.Same s t

end Sys2Proof.Machine
end

