-- ==== Sys2Proof/Certificates/Slice0/Obligations.lean ====
section
/-! DEFINITION. The statements for the provers. -/

open Sys2Proof Sys2Proof.Machine

/-- For every command and state, a step of the state with that command at the front of its queue is the command's effect on the state with the rest of the
queue; on an empty queue the step leaves the state as it is. That commands wait in a queue, and that an empty queue idles, is the model's convention
(log entries 1 and 2). -/
def Obligations.StepRunsFrontCommand : Prop :=
  (∀ (c : Instr) (rest : List Instr) (s : State), step (s.withPending (c :: rest)) = exec c (s.withPending rest)) ∧
  ∀ s : State, s.pending = [] → step s = .next s

/-- A correction smaller in magnitude than a quarter of T_frame is added to the slew still being spread; any other moves the time at once; in both cases
ETH_PTP_OFFSET shows the offset that the correction takes back and nothing but the time base and ETH_STATUS.PTP_PORT changes. In HOLDOVER, and in a
chain on every device but the head, nothing is corrected. Loss of synchronisation sets HOLDOVER; its return in HOLDOVER clears it and applies the
whole difference as one correction. (R24; the free port number is log entry 11.) -/
def Obligations.TimeBaseCorrections : Prop :=
  ∀ (delta : Int) (s : State), s.registersWf = true →
    (s.flag Reg.FRAME_STATUS.HOLDOVER = false → s.ownTime = true → 4 * delta.natAbs < s.periodNs →
      Answers (.ptpCorrection delta) s fun t => t.frame = { s.frame with slewLeft := s.frame.slewLeft + delta } ∧
        t.get Reg.ETH_PTP_OFFSET.OFFSET = ((-delta) % 2 ^ 32).toNat ∧
        Changes s t [.frame, .fresh] [Reg.ETH_PTP_OFFSET.OFFSET, Reg.ETH_STATUS.PTP_PORT]) ∧
    (s.flag Reg.FRAME_STATUS.HOLDOVER = false → s.ownTime = true → s.periodNs ≤ 4 * delta.natAbs →
      Answers (.ptpCorrection delta) s fun t => t.frame = { s.frame with now := s.frame.now + delta } ∧
        t.get Reg.ETH_PTP_OFFSET.OFFSET = ((-delta) % 2 ^ 32).toNat ∧
        Changes s t [.frame, .fresh] [Reg.ETH_PTP_OFFSET.OFFSET, Reg.ETH_STATUS.PTP_PORT]) ∧
    (s.flag Reg.FRAME_STATUS.HOLDOVER = true ∨ s.ownTime = false → exec (.ptpCorrection delta) s = .next s) ∧
    (Answers .syncLoss s fun t => t.get Reg.ETH_STATUS.PTP_SYNCED = 0 ∧
      t.get Reg.FRAME_STATUS.HOLDOVER = (if s.ownTime then 1 else s.get Reg.FRAME_STATUS.HOLDOVER) ∧
      Changes s t [] [Reg.ETH_STATUS.PTP_SYNCED, Reg.FRAME_STATUS.HOLDOVER]) ∧
    (s.flag Reg.FRAME_STATUS.HOLDOVER = true → s.ownTime = true →
      Answers (.syncReturn delta) s fun t => t.get Reg.FRAME_STATUS.HOLDOVER = 0 ∧ t.get Reg.ETH_STATUS.PTP_SYNCED = 1 ∧
        t.frame = (if 4 * delta.natAbs < s.periodNs then { s.frame with slewLeft := s.frame.slewLeft + delta }
          else { s.frame with now := s.frame.now + delta }) ∧
        Changes s t [.frame, .fresh]
          [Reg.ETH_STATUS.PTP_SYNCED, Reg.FRAME_STATUS.HOLDOVER, Reg.ETH_PTP_OFFSET.OFFSET, Reg.ETH_STATUS.PTP_PORT])

/-- Frame k starts where frames run and its epoch is later than the highest started one: the device is in that frame, the time is its frame start, the
committed shadow set has taken effect and is empty, and the epoch is under assembly with its admission open. A frame that may not start changes
nothing. Admission close closes the admission of the epoch under assembly, whose number stays. (R13, R21, R24, R133, R140.) -/
def Obligations.FrameStartOpensEpoch : Prop :=
  ∀ (s : State) (img : Image), s.registersWf = true → s.cfg.image = some img →
    (∀ k : Nat, s.mayStart k = true → Answers (.frameStart k) s fun t =>
      t.frame.inFrame = true ∧ t.frame.k = k ∧ t.frame.highest = some k ∧ t.frame.shadow = s.startsShadow ∧ t.frame.committed = false ∧
      t.get Reg.FRAME_STATUS.FRAME_ACTIVE = 1 ∧ t.cfg.committedSet = [] ∧ t.cfg.firstStarted = true ∧
      t.world.active = true ∧ t.world.closed = false ∧ t.world.epoch = epochOf k ∧ t.world.snap = [] ∧
      t.world.prev = (completeAssembly s img).world.prev) ∧
    (∀ k : Nat, s.mayStart k = false → exec (.frameStart k) s = .next s) ∧
    (s.frame.inFrame = true → s.world.active = true → s.world.closed = false → Answers .admissionClose s fun t =>
      t.world.closed = true ∧ t.world.epoch = s.world.epoch ∧ t.die = s.die)

/-- A SWITCH from a source that is not the Owner is NOT_OWNER; one whose other slot is no candidate, or no newer than the running image, has RESULT 3;
with no image, during another switch or hold, in SAFE_STATE, terminal hold, a restart, a wake or shadow frames, or while no frames run it is
NOT_READY; a conflicting maintenance activity makes it BUSY_CONFLICT. Otherwise RESULT is 0, PHASE is 1 until the preparation ends, the token is held
and a load attempt on the other slot has begun. (R85, R86, Table 3-4. That the access status follows the source is R603.) -/
def Obligations.StructSwitchIsTakenOrRefused : Prop :=
  ∀ (src : Source) (s : State), s.registersWf = true →
    (s.isOwner src = false → Answers (.structSwitch src) s fun t => t.get Reg.CONFIG_SWITCH_STATUS.RESULT = 1 ∧ t.access = 1 ∧
      Changes s t [.access] [Reg.CONFIG_SWITCH_STATUS.RESULT]) ∧
    (s.isOwner src = true → s.cfg.image = none → Answers (.structSwitch src) s fun t =>
      t.get Reg.CONFIG_SWITCH_STATUS.RESULT = 0xB ∧ t.fault = s.fault ∧ t.cfg = s.cfg) ∧
    (s.isOwner src = true → s.cfg.image.isSome = true → Answers (.structSwitch src) s fun t =>
      let other := 1 - s.get Reg.CONFIG_SLOT_ACTIVE.SLOT
      let run := s.get64 Reg.CONFIG_ACTIVE_SEQ_LO.SEQ_LO Reg.CONFIG_ACTIVE_SEQ_HI.SEQ_HI
      if s.candidate? other = false ∨ (s.slotOf other).sequence ≤ run then
        t.get Reg.CONFIG_SWITCH_STATUS.RESULT = 3 ∧ t.fault = s.fault ∧ t.cfg = s.cfg
      else if s.switching = true ∨ s.unsettled = true ∨ s.frame.running = false then
        t.get Reg.CONFIG_SWITCH_STATUS.RESULT = 0xB ∧ t.fault = s.fault ∧ t.cfg = s.cfg
      else if s.fault.tokens.any (conflicts switchToken) = true then
        t.get Reg.CONFIG_SWITCH_STATUS.RESULT = 2 ∧ t.fault = s.fault ∧ t.cfg = s.cfg
      else
        t.get Reg.CONFIG_SWITCH_STATUS.RESULT = 0 ∧ t.get Reg.CONFIG_SWITCH_STATUS.PHASE = 1 ∧
        t.fault.tokens = s.fault.tokens ++ [switchToken] ∧ t.get Reg.CONFIG_LOAD_STATUS.SLOT = other ∧
        t.cfg.image = s.cfg.image ∧ t.frame = s.frame)

/-- HOLD between frames of a settled device with no conflicting activity has RESULT 0, holds the token of a switch and asks for the drain frame after
which frames are held; before the first frame of an image it stops frames at once. From a source other than the Owner it is NOT_OWNER and changes
nothing else. RESUME in a hold with no frame-path block quiesced and no replay has RESULT 0: frames run again, the next two are shadow frames, and the
token is given back. (R85, R93, R97.) -/
def Obligations.HoldAndResume : Prop :=
  ∀ (src : Source) (s : State), s.registersWf = true →
    (s.isOwner src = false → Answers (.hold src) s fun t => t.get Reg.CONFIG_SWITCH_STATUS.RESULT = 1 ∧
      Changes s t [.access] [Reg.CONFIG_SWITCH_STATUS.RESULT]) ∧
    (s.isOwner src = true → s.cfg.image.isSome = true → s.cfg.firstStarted = true → s.switching = false → s.unsettled = false →
      s.frame.running = true → s.fault.tokens.any (conflicts switchToken) = false → Answers (.hold src) s fun t =>
        t.get Reg.CONFIG_SWITCH_STATUS.RESULT = 0 ∧ t.get Reg.CONFIG_SWITCH_STATUS.PHASE = 2 ∧ t.cfg = { s.cfg with drainFor := 2 } ∧
        t.fault.tokens = s.fault.tokens ++ [switchToken] ∧ t.frame = s.frame ∧ t.access = 0) ∧
    (s.isOwner src = true → s.cfg.image.isSome = true → s.cfg.firstStarted = false → s.switching = false → s.frame.running = true →
      s.fault.tokens.any (conflicts switchToken) = false → Answers (.hold src) s fun t =>
        t.get Reg.CONFIG_SWITCH_STATUS.RESULT = 0 ∧ t.get Reg.CONFIG_SWITCH_STATUS.PHASE = 6 ∧ t.cfg = { s.cfg with held := true } ∧
        t.frame = { s.frame with running := false } ∧ t.fault.tokens = s.fault.tokens ++ [switchToken]) ∧
    (s.isOwner src = true → s.cfg.held = true → s.pathQuiesced = false → s.digest.replay = none → Answers (.resume src) s fun t =>
        t.get Reg.CONFIG_SWITCH_STATUS.RESULT = 0 ∧ t.get Reg.CONFIG_SWITCH_STATUS.PHASE = 5 ∧ t.cfg = { s.cfg with held := false } ∧
        t.frame.running = true ∧ t.frame.shadowLeft = 2 ∧ t.frame.inFrame = false ∧ t.frame.notBefore = s.nextFrame (s.frame.now + 1) ∧
        t.fault.tokens = s.fault.tokens.erase switchToken ∧ t.access = 0)

/-- RESUME from the Owner in a hold, with a frame-path block QUIESCED or with a pending quiesce request, has RESULT NOT_READY and leaves the hold as it
is. -/
def Obligations.ResumeRefusedWhileQuiesced : Prop :=
  ∀ (src : Source) (s : State), s.registersWf = true → s.isOwner src = true → s.cfg.held = true → s.pathQuiesced = true →
    Answers (.resume src) s fun t => t.get Reg.CONFIG_SWITCH_STATUS.RESULT = 0xB ∧
      Changes s t [.access] [Reg.CONFIG_SWITCH_STATUS.RESULT]

/-- CANCEL from the Owner while a switch prepares or is ARMED, before its drain frame, ends it: RESULT is CANCELLED, PHASE is 0, nothing prepared or
fetched is kept, no drain frame is asked for and the token is given back, while frames, the running image and the stores stay as they are. Once the
drain frame has started (PHASE 3 and later) CANCEL is NOT_READY and changes nothing else. -/
def Obligations.CancelEndsSwitchBeforeDrain : Prop :=
  ∀ (src : Source) (s : State), s.registersWf = true → s.isOwner src = true →
    (s.get Reg.CONFIG_SWITCH_STATUS.PHASE ∈ [1, 2] → s.cfg.drainFor ≤ 1 → Answers (.switchCancel src) s fun t =>
      t.get Reg.CONFIG_SWITCH_STATUS.RESULT = 0xD ∧ t.get Reg.CONFIG_SWITCH_STATUS.PHASE = 0 ∧
      t.cfg = { s.cfg with loading := none, next := none, nextBulk := [], drainFor := 0 } ∧
      t.fault.tokens = s.fault.tokens.erase switchToken ∧ t.access = 0 ∧
      Changes s t [.cfg, .fault, .access]
        [Reg.CONFIG_SWITCH_STATUS.RESULT, Reg.CONFIG_SWITCH_STATUS.PHASE, Reg.FAULT_MAINT_HELD.HELD]) ∧
    (s.get Reg.CONFIG_SWITCH_STATUS.PHASE ∈ [3, 4, 5, 6] → Answers (.switchCancel src) s fun t =>
      t.get Reg.CONFIG_SWITCH_STATUS.RESULT = 0xB ∧ Changes s t [.access] [Reg.CONFIG_SWITCH_STATUS.RESULT])

/-- A prepared switch whose data fit is ARMED and asks for its drain frame; one whose data do not fit has RESULT NO_ROOM, and one whose load failed has
LOAD_FAILED, and both give the token back and leave no prepared image. The end of a drain frame stops frames with the time at the frame's end; for a
switch the shadow set is discarded and PHASE is 4, for a hold frames are held with PHASE 6, and for an entry into NAP or SLEEP the entry goes on. At
the end of the reload the prepared image runs, and two shadow frames follow from the first frame that may start. (R86 to R90, R93, R566.) -/
def Obligations.SwitchRunsToItsReload : Prop :=
  ∀ (s : State) (run : Image), s.registersWf = true → s.cfg.image = some run →
    (∀ i : Image, s.get Reg.CONFIG_SWITCH_STATUS.PHASE = 1 → s.cfg.next = some i →
      bulkBytes run + partBytes run + bulkBytes i ≤ s.hbmAvailable → Answers .switchPrepared s fun t =>
        t.get Reg.CONFIG_SWITCH_STATUS.PHASE = 2 ∧ t.cfg = { s.cfg with drainFor := 1 } ∧
        Changes s t [.cfg] [Reg.CONFIG_SWITCH_STATUS.PHASE]) ∧
    (∀ i : Image, s.get Reg.CONFIG_SWITCH_STATUS.PHASE = 1 → s.cfg.next = some i →
      s.hbmAvailable < bulkBytes run + partBytes run + bulkBytes i → Answers .switchPrepared s fun t =>
        t.get Reg.CONFIG_SWITCH_STATUS.RESULT = 9 ∧ t.get Reg.CONFIG_SWITCH_STATUS.PHASE = 0 ∧ t.cfg.next = none ∧ t.cfg.loading = none ∧
        t.fault.tokens = s.fault.tokens.erase switchToken) ∧
    (s.get Reg.CONFIG_SWITCH_STATUS.PHASE = 1 → s.cfg.next = none → s.cfg.loading = none → Answers .switchPrepared s fun t =>
        t.get Reg.CONFIG_SWITCH_STATUS.RESULT = 0xA ∧ t.get Reg.CONFIG_SWITCH_STATUS.PHASE = 0 ∧
        t.fault.tokens = s.fault.tokens.erase switchToken) ∧
    (s.frame.inFrame = true → s.frame.drain = true →
      (s.cfg.drainFor = 1 → Answers .drainFrameEnd s fun t => t.frame.running = false ∧ t.frame.inFrame = false ∧ t.frame.drain = false ∧
        t.frame.now = s.frameStartNs (s.frame.k + 1) ∧ t.get Reg.CONFIG_SWITCH_STATUS.PHASE = 4 ∧ t.cfg.shadowSet = [] ∧
        t.cfg.drainFor = 0 ∧ t.spec.epochs = [] ∧ t.get Reg.SAFE_MODE.MODE = modeSwitch) ∧
      (s.cfg.drainFor = 2 → Answers .drainFrameEnd s fun t => t.frame.running = false ∧ t.cfg.held = true ∧
        t.get Reg.CONFIG_SWITCH_STATUS.PHASE = 6 ∧ t.cfg.shadowSet = s.cfg.shadowSet ∧ t.spec.epochs = [] ∧
        t.get Reg.SAFE_MODE.MODE = modeSwitch) ∧
      (s.cfg.drainFor = 3 ∨ s.cfg.drainFor = 4 → Answers .drainFrameEnd s fun t => t.frame.running = false ∧ t.power.closing = true ∧
        t.safety.driven = none ∧ t.pins.heartbeat = false ∧ t.spec.epochs = [])) ∧
    (∀ (i : Image) (time : Nat), s.get Reg.CONFIG_SWITCH_STATUS.PHASE = 4 → s.cfg.next = some i → Answers (.reloadDone time) s fun t =>
        t.cfg.image = some i ∧ t.frame.running = true ∧ t.frame.shadowLeft = 2 ∧ t.frame.inFrame = false ∧
        t.get Reg.CONFIG_SWITCH_STATUS.PHASE = 5)

/-- An OPEN from the Owner with no Chest operation under way, a valid sequence above every COMPLETE slot's and the floor, and no conflicting activity
opens a write on the target slot: it is erased, the other slot stays, a slot-write token is held and BUSY is set. With another sequence it is
SEQ_INVALID, with a conflicting activity BUSY_CONFLICT, and both leave the slots. When the erase ends, the header holds MAGIC, SLOT_VERSION and
SEQUENCE alone and STATE is WRITING with RESULT 0; a Chest error ends the write with CHEST_ERROR in STATE WRITING. (R74, R75, R76, R79.) -/
def Obligations.SlotOpenErasesTheTarget : Prop :=
  ∀ (s : State), s.registersWf = true →
    (∀ src : Source, s.isOwner src = true → s.get Reg.CONFIG_SLOT_STATUS.BUSY = 0 → Answers (.slotOpen src) s fun t =>
      let q := s.get64 Reg.CONFIG_SLOT_SEQ_LO.SEQ_LO Reg.CONFIG_SLOT_SEQ_HI.SEQ_HI
      if seqValid q = false ∨ (s.cfg.slotA.state = 0xA5 ∧ q ≤ s.cfg.slotA.sequence) ∨ (s.cfg.slotB.state = 0xA5 ∧ q ≤ s.cfg.slotB.sequence) ∨
          q ≤ s.floor then
        t.get Reg.CONFIG_SLOT_STATUS.RESULT = 3 ∧ Changes s t [.access] [Reg.CONFIG_SLOT_STATUS.RESULT]
      else if s.fault.tokens.any (conflicts { act := 5, cls := 0, idx := 0 }) = true then
        t.get Reg.CONFIG_SLOT_STATUS.RESULT = 2 ∧ t.cfg = s.cfg ∧ t.fault = s.fault
      else
        t.cfg.writing = some s.writeTarget ∧ t.chestSlot s.writeTarget = {} ∧
        t.chestSlot (1 - s.writeTarget) = s.chestSlot (1 - s.writeTarget) ∧ t.get Reg.CONFIG_SLOT_STATUS.BUSY = 1 ∧ t.cfg.chestBusy = 1 ∧
        t.fault.tokens = s.fault.tokens ++ [{ act := 5, cls := 0, idx := 0 }] ∧ t.access = 0) ∧
    (∀ src : Source, s.isOwner src = false → Answers (.slotOpen src) s fun t => t.get Reg.CONFIG_SLOT_STATUS.RESULT = 1 ∧ t.access = 1 ∧
      Changes s t [.access] [Reg.CONFIG_SLOT_STATUS.RESULT]) ∧
    (∀ i : Nat, s.cfg.writing = some i → s.cfg.chestBusy = 1 → Answers (.slotEraseDone true) s fun t =>
      t.chestSlot i = { state := 0x5A, header := flashWrite [] 0 (leBytes 0x544F4C53 4 ++ leBytes 1 2 ++ leBytes 0xFFFF 2 ++
        leBytes (s.get64 Reg.CONFIG_SLOT_SEQ_LO.SEQ_LO Reg.CONFIG_SLOT_SEQ_HI.SEQ_HI) 8) } ∧
      t.chestSlot (1 - i) = s.chestSlot (1 - i) ∧ t.cfg.writing = some i ∧ t.cfg.chestBusy = 0 ∧
      t.get Reg.CONFIG_SLOT_STATUS.RESULT = 0 ∧ t.get Reg.CONFIG_SLOT_STATUS.BUSY = 0 ∧ t.fault = s.fault) ∧
    (∀ i : Nat, s.cfg.writing = some i → s.cfg.chestBusy = 1 → Answers (.slotEraseDone false) s fun t =>
      t.chestSlot i = { state := 0x5A } ∧ t.chestSlot (1 - i) = s.chestSlot (1 - i) ∧ t.cfg.writing = none ∧ t.cfg.chestBusy = 0 ∧
      t.get Reg.CONFIG_SLOT_STATUS.RESULT = 8 ∧ t.get Reg.CONFIG_SLOT_STATUS.BUSY = 0 ∧
      t.fault.tokens = s.fault.tokens.erase { act := 5, cls := 0, idx := 0 })

/-- A write of the window's last word by the Owner while no Chest operation runs: with no slot write open it is NOT_READY; with an offset that is no
multiple of 4,096 or not greater than the previous block's it has RESULT ORDER; reaching beyond 67,104,768 bytes it has RESULT RANGE; in each case
both slots and the write's state stay, and NOT_READY changes nothing else at all. Any other block is taken: BUSY is set and its offset is the previous
block's from then on. -/
def Obligations.DataBlockOrderAndRange : Prop :=
  ∀ (src : Source) (v : Word) (s : State), s.registersWf = true → s.isOwner src = true → s.get Reg.CONFIG_SLOT_STATUS.BUSY = 0 →
    (s.cfg.writing = none → Answers (.slotDataBlock src v) s fun t => t.get Reg.CONFIG_SLOT_STATUS.RESULT = 0xB ∧
      Changes s t [.access] [Reg.CONFIG_SLOT_STATUS.RESULT]) ∧
    (s.cfg.writing.isSome = true →
      (s.get Reg.CONFIG_SLOT_WOFFSET.WOFFSET % 4096 ≠ 0 ∨ (∃ p, s.cfg.lastBlock = some p ∧ s.get Reg.CONFIG_SLOT_WOFFSET.WOFFSET ≤ p)) →
      Answers (.slotDataBlock src v) s fun t => t.get Reg.CONFIG_SLOT_STATUS.RESULT = 4 ∧
        t.cfg = { s.cfg with window := sSet 0 1023 v.toNat s.cfg.window } ∧ Changes s t [.cfg, .access] [Reg.CONFIG_SLOT_STATUS.RESULT]) ∧
    (s.cfg.writing.isSome = true → s.get Reg.CONFIG_SLOT_WOFFSET.WOFFSET % 4096 = 0 →
      (∀ p, s.cfg.lastBlock = some p → p < s.get Reg.CONFIG_SLOT_WOFFSET.WOFFSET) →
      (67104768 < s.get Reg.CONFIG_SLOT_WOFFSET.WOFFSET + 4096 → Answers (.slotDataBlock src v) s fun t =>
        t.get Reg.CONFIG_SLOT_STATUS.RESULT = 5 ∧
        t.cfg = { s.cfg with window := sSet 0 1023 v.toNat s.cfg.window } ∧ Changes s t [.cfg, .access] [Reg.CONFIG_SLOT_STATUS.RESULT]) ∧
      (s.get Reg.CONFIG_SLOT_WOFFSET.WOFFSET + 4096 ≤ 67104768 → Answers (.slotDataBlock src v) s fun t =>
        t.get Reg.CONFIG_SLOT_STATUS.BUSY = 1 ∧
        t.cfg = { s.cfg with window := sSet 0 1023 v.toNat s.cfg.window, lastBlock := some (s.get Reg.CONFIG_SLOT_WOFFSET.WOFFSET), chestBusy := 2 } ∧
        Changes s t [.cfg, .access] [Reg.CONFIG_SLOT_STATUS.BUSY]))

/-- When the Chest has programmed the block at offset o of the slot being written, the 4,096 bytes from o read as the write window; every other byte of
the slot and every byte of the other stores reads as before, RESULT is 0 and BUSY is clear. A Chest error ends the write with CHEST_ERROR and stores
nothing. CLOSE by the Owner writes only header bytes 0x10 to 0x17, 0x20 to 0x5F and 0xF8 to 0xFF of the slot being written. (R77, R78, R79.) -/
def Obligations.BlockProgrammedStoresTheWindow : Prop :=
  ∀ (s : State) (i : Nat), s.registersWf = true → s.memoryWf = true → s.cfg.writing = some i →
    (∀ o : Nat, s.cfg.lastBlock = some o → s.cfg.chestBusy = 2 → Answers (.slotBlockProgrammed true) s fun t =>
      (∀ a : Nat, sGet erased a (t.chestSlot i).content =
        if o ≤ a ∧ a < o + 4096 then s.windowBytes.getD (a - o) 0 else sGet erased a (s.chestSlot i).content) ∧
      (t.chestSlot i).header = (s.chestSlot i).header ∧ (t.chestSlot i).state = (s.chestSlot i).state ∧
      t.chestSlot (1 - i) = s.chestSlot (1 - i) ∧ t.cfg.xspiA = s.cfg.xspiA ∧ t.cfg.xspiB = s.cfg.xspiB ∧ t.cfg.staged = s.cfg.staged ∧
      t.cfg.window = s.cfg.window ∧ t.digest = s.digest ∧ t.get Reg.CONFIG_SLOT_STATUS.RESULT = 0 ∧ t.get Reg.CONFIG_SLOT_STATUS.BUSY = 0) ∧
    (∀ o : Nat, s.cfg.lastBlock = some o → s.cfg.chestBusy = 2 → Answers (.slotBlockProgrammed false) s fun t =>
      StoresSame s t ∧ t.get Reg.CONFIG_SLOT_STATUS.RESULT = 8 ∧ t.get Reg.CONFIG_SLOT_STATUS.BUSY = 0 ∧ t.cfg.writing = none ∧
      t.fault.tokens = s.fault.tokens.erase { act := 5, cls := 0, idx := 0 }) ∧
    (∀ src : Source, s.isOwner src = true → s.get Reg.CONFIG_SLOT_STATUS.BUSY = 0 → Answers (.slotClose src) s fun t =>
      (∀ a : Nat, (a < 0x10 ∨ 0x18 ≤ a) → (a < 0x20 ∨ 0x60 ≤ a) → (a < 0xF8 ∨ 0x100 ≤ a) →
        sGet erased a (t.chestSlot i).header = sGet erased a (s.chestSlot i).header) ∧
      u32 (t.chestSlot i).head 0x10 = s.get Reg.CONFIG_SLOT_LENGTH.LENGTH % 2 ^ 32 ∧
      u32 (t.chestSlot i).head 0x14 = s.get Reg.CONFIG_SLOT_USED.USED % 2 ^ 32 ∧
      (t.chestSlot i).content = (s.chestSlot i).content ∧ (t.chestSlot i).state = (s.chestSlot i).state ∧
      t.chestSlot (1 - i) = s.chestSlot (1 - i) ∧ t.cfg.xspiA = s.cfg.xspiA ∧ t.cfg.xspiB = s.cfg.xspiB ∧ t.cfg.staged = s.cfg.staged ∧
      t.cfg.window = s.cfg.window ∧ t.digest = s.digest ∧ t.get Reg.CONFIG_SLOT_STATUS.BUSY = 1 ∧ t.cfg.chestBusy = 3)

/-- At the end of the read-back, a Chest error has RESULT CHEST_ERROR, a digest that differs VERIFY_DIGEST, a failed image phase VERIFY_IMAGE, and else
RESULT is 0 and STATE is COMPLETE; in every case but the last the slot is left as it is, and in every case the write is over, BUSY is clear and the
token is given back. ABORT ends an open write with RESULT 0, leaves the slots and gives the token back. (R78, R79.) -/
def Obligations.CloseCompletesOnlyAVerifiedSlot : Prop :=
  ∀ (s : State) (i : Nat), s.registersWf = true → s.cfg.writing = some i →
    (∀ ok : Bool, s.cfg.chestBusy = 3 → Answers (.slotCloseVerified ok) s fun t =>
      t.get Reg.CONFIG_SLOT_STATUS.RESULT = (if ok = false then 8
        else if Config.sha512 (s.chestSlot i).image ≠ (s.chestSlot i).imageDigest then 6
        else if (imagePhases s (s.chestSlot i)).isOk = false then 7 else 0) ∧
      t.chestSlot i = (if t.get Reg.CONFIG_SLOT_STATUS.RESULT = 0 then { s.chestSlot i with state := 0xA5 } else s.chestSlot i) ∧
      t.chestSlot (1 - i) = s.chestSlot (1 - i) ∧ t.cfg.writing = none ∧ t.cfg.lastBlock = none ∧ t.cfg.chestBusy = 0 ∧
      t.get Reg.CONFIG_SLOT_STATUS.BUSY = 0 ∧ t.fault.tokens = s.fault.tokens.erase { act := 5, cls := 0, idx := 0 }) ∧
    (∀ src : Source, s.isOwner src = true → s.get Reg.CONFIG_SLOT_STATUS.BUSY = 0 → Answers (.slotAbort src) s fun t =>
      t.get Reg.CONFIG_SLOT_STATUS.RESULT = 0 ∧ t.cfg = { s.cfg with writing := none, lastBlock := none, chestBusy := 0 } ∧
      t.fault.tokens = s.fault.tokens.erase { act := 5, cls := 0, idx := 0 } ∧ t.access = 0)

/-- A write of CONFIG_QUIESCE_REQ by the Owner sets the request; a block stays QUIESCED only while its bit is set, and a block off the frame path whose
bit is set and that may quiesce is QUIESCED at once. A requested block that may quiesce and has finished is QUIESCED; blocks of the frame path may
only in a hold. A block number of 15 or more is none of the device. (R95, R96, R97.) -/
def Obligations.QuiesceRequests : Prop :=
  ∀ (s : State), s.registersWf = true →
    (∀ (src : Source) (m : Nat), s.isOwner src = true → m < 2 ^ 15 → Answers (.quiesceRequest src m) s fun t =>
      t.get Reg.CONFIG_QUIESCE_REQ.REQ = m ∧ t.access = 0 ∧
      (∀ b : Nat, b < 15 → bitOf (t.get Reg.CONFIG_QUIESCE_STATUS.QUIESCED) b =
        (bitOf m b && (bitOf (s.get Reg.CONFIG_QUIESCE_STATUS.QUIESCED) b || (!framePathBlocks.contains b && s.mayQuiesce b)))) ∧
      Changes s t [.access] [Reg.CONFIG_QUIESCE_REQ.REQ, Reg.CONFIG_QUIESCE_STATUS.QUIESCED]) ∧
    (∀ (src : Source) (m : Nat), s.isOwner src = false → Answers (.quiesceRequest src m) s fun t => t.access = 1 ∧ Changes s t [.access] []) ∧
    (∀ b : Nat, b < 15 → bitOf (s.get Reg.CONFIG_QUIESCE_REQ.REQ) b = true → s.mayQuiesce b = true → Answers (.blockQuiesced b) s fun t =>
      bitOf (t.get Reg.CONFIG_QUIESCE_STATUS.QUIESCED) b = true ∧ Changes s t [] [Reg.CONFIG_QUIESCE_STATUS.QUIESCED]) ∧
    (∀ b : Nat, b < 15 → framePathBlocks.contains b = true → s.cfg.held = false → exec (.blockQuiesced b) s = .next s) ∧
    (∀ b : Nat, 15 ≤ b → exec (.blockQuiesced b) s = .fault .noSuchUnit)

/-- CHECKPOINT makes an anchor due. CAP_CLEAR empties the ring, clears FULL and makes an anchor due. REPLAY_MAIN or REPLAY_FULL in a hold whose scope may
replay counts from 0: with no anchor in the ring it ends with RESULT 4, at an anchor that does not check 6, at an anchor of another image 5, and
otherwise it stands before the record after the anchor. Out of a hold, or during a replay, RESULT is 8. REPLAY_ABORT ends a replay with 7. A replayed
epoch is counted; it ends the replay with RESULT 2 and its stage where it diverges, and lets it go on where it agrees; a record out of order or with a
bad CRC ends it with 6. A source other than the Owner changes only the access status. Every end leaves PHASE 3 and no replay. (R519, R522 to R526.) -/
def Obligations.CaptureAndReplay : Prop :=
  ∀ (s : State), s.registersWf = true →
    (∀ src : Source, s.isOwner src = true → Answers (.checkpoint src) s fun t => t.digest = { s.digest with anchorDue := true } ∧ t.access = 0 ∧
      Changes s t [.digest, .access] []) ∧
    (∀ src : Source, s.isOwner src = true → Answers (.capClear src) s fun t =>
      t.digest = { s.digest with ring := [], write := 0, anchored := false, anchorDue := true } ∧ t.get Reg.DIGEST_CAP_STATUS.FULL = 0 ∧
      t.get Reg.DIGEST_CAP_WR.OFFSET = 0 ∧ Changes s t [.digest, .access] [Reg.DIGEST_CAP_STATUS.FULL, Reg.DIGEST_CAP_WR.OFFSET]) ∧
    (∀ (src : Source) (c : Instr), c ∈ [Instr.checkpoint src, .capClear src, .replayMain src, .replayFull src, .replayAbort src] →
      s.isOwner src = false → exec c s = .next { s with access := 1 }) ∧
    (∀ (src : Source) (scope : Nat) (c : Instr), (scope, c) ∈ [(1, Instr.replayMain src), (2, .replayFull src)] → s.isOwner src = true →
      (s.mayReplay scope = false → Answers c s fun t => t.get Reg.DIGEST_REPLAY_STATUS.RESULT = 8 ∧
        Changes s t [.access] [Reg.DIGEST_REPLAY_STATUS.RESULT]) ∧
      (∀ img : Image, s.cfg.image = some img → s.mayReplay scope = true → Answers c s fun t =>
        t.get Reg.DIGEST_REPLAY_COUNT.COUNT = 0 ∧
        match s.findAnchor (s.ringBytes / 64 + 1) 0 with
        | none => t.get Reg.DIGEST_REPLAY_STATUS.RESULT = 4 ∧ t.get Reg.DIGEST_REPLAY_STATUS.PHASE = 3 ∧ t.digest.replay = none
        | some a =>
          if a.ok = false then t.get Reg.DIGEST_REPLAY_STATUS.RESULT = 6 ∧ t.get Reg.DIGEST_REPLAY_EPOCH.EPOCH = a.epoch.toNat ∧ t.digest.replay = none
          else if sized 64 img.digest ≠ a.body.take 64 then
            t.get Reg.DIGEST_REPLAY_STATUS.RESULT = 5 ∧ t.get Reg.DIGEST_REPLAY_EPOCH.EPOCH = a.epoch.toNat ∧ t.digest.replay = none
          else ∀ x : RingRec, s.recordAt a.next = some x → x.kind = 1 →
            t.get Reg.DIGEST_REPLAY_STATUS.RESULT = 0 ∧ t.get Reg.DIGEST_REPLAY_STATUS.PHASE = 2 ∧
            t.digest = { s.digest with replay := some { scope := scope, at_ := a.next, last := some (a.epoch - 1), count := 0 } } ∧
            t.world = s.world ∧ t.ledger = s.ledger)) ∧
    (∀ (r : ReplaySt), s.digest.replay = some r →
      (∀ src : Source, s.isOwner src = true → Answers (.replayAbort src) s fun t => t.get Reg.DIGEST_REPLAY_STATUS.RESULT = 7 ∧
        t.get Reg.DIGEST_REPLAY_STATUS.PHASE = 3 ∧ t.get Reg.DIGEST_REPLAY_EPOCH.EPOCH = (r.last.getD 0).toNat ∧
        t.digest.replay = none ∧ t.digest.ring = s.digest.ring ∧ t.access = 0) ∧
      (∀ (stages : List Nat) (frame : Nat) (prov : List Byte) (x : RingRec), s.recordAt r.at_ = some x →
        (x.ok = false ∨ r.last ≠ some (x.epoch - 1) → Answers (.replayEpoch stages frame prov) s fun t =>
          t.get Reg.DIGEST_REPLAY_STATUS.RESULT = 6 ∧ t.get Reg.DIGEST_REPLAY_EPOCH.EPOCH = x.epoch.toNat ∧ t.digest.replay = none) ∧
        (x.ok = true → r.last = some (x.epoch - 1) → u16 x.body paramBytes % 2 = 0 → Answers (.replayEpoch stages frame prov) s fun t =>
          t.get Reg.DIGEST_REPLAY_COUNT.COUNT = (r.count + 1) % 2 ^ 32 ∧
          match divergence r.scope x.body stages frame prov with
          | some st => t.get Reg.DIGEST_REPLAY_STATUS.RESULT = 2 ∧ t.get Reg.DIGEST_REPLAY_STATUS.STAGE = st ∧
              t.get Reg.DIGEST_REPLAY_EPOCH.EPOCH = x.epoch.toNat ∧ t.digest.replay = none
          | none =>
            (s.recordAt x.next = none → t.get Reg.DIGEST_REPLAY_STATUS.RESULT = 1 ∧ t.get Reg.DIGEST_REPLAY_EPOCH.EPOCH = x.epoch.toNat ∧
              t.digest.replay = none) ∧
            (∀ y : RingRec, s.recordAt x.next = some y → y.kind = 1 →
              t.digest.replay = some { r with at_ := x.next, last := some x.epoch, count := r.count + 1 } ∧
              t.get Reg.DIGEST_REPLAY_STATUS.RESULT = s.get Reg.DIGEST_REPLAY_STATUS.RESULT))))

/-- The oldest waiting transition of the epoch under application, when no rebuild or owed search stands before it, leaves the queue and changes the
records of the edges that index its cell and no other. When every transition of that epoch is applied, the close publishes exactly the touched
records, keeps the touch set as the newest of three, and shows the epoch as closed. A rebuild that is due closes its epoch with every edge touched and
counts. A REBUILD command is NOT_OWNER, NOT_READY, or refused for a conflicting activity, or schedules a rebuild under a token. (R221 to R224, R227,
R228, R241.) -/
def Obligations.LedgerAppliesAndCloses : Prop :=
  ∀ (s : State) (img : Image) (b : List Byte), s.registersWf = true → s.cfg.image = some img → s.roadmap = some b →
    (∀ (t₀ : LedgerEpoch) (q : Trans) (rest : List Trans), ledgerNext s = some t₀ → s.ledger.queue = q :: rest → q.epoch = t₀.epoch →
      s.ledger.rebuild ≠ 6 → s.ledger.dueCause t₀.epoch = 0 → searchOwed s t₀.epoch = false → Answers .ledgerTransition s fun t =>
        t.ledger.queue = rest ∧ t.ledger.applying = some t₀.epoch ∧ t.ledger.applied = s.ledger.applied + 1 ∧
        t.ledger.updates = s.ledger.updates + (indexList (s.bulk 0xB) q.cell).length ∧
        (∀ e : Nat, e ∉ indexList (s.bulk 0xB) q.cell → edgeRec t.ledger.recs e = edgeRec s.ledger.recs e ∧
          (e ∈ t.ledger.touched ↔ e ∈ s.ledger.touched)) ∧
        (∀ e ∈ indexList (s.bulk 0xB) q.cell, e ∈ t.ledger.touched) ∧
        t.ledger.recs = (indexList (s.bulk 0xB) q.cell).foldl (fun r e => sSet {} e (updateRec q (edgeRec r e)) r) s.ledger.recs ∧
        t.ledger.closed = s.ledger.closed ∧ t.ledger.sets = s.ledger.sets ∧ t.get Reg.LEDGER_STATUS.PHASE = 1) ∧
    (∀ t₀ : LedgerEpoch, ledgerNext s = some t₀ → t₀.sent = true → (∀ q ∈ s.ledger.queue, q.epoch ≠ t₀.epoch) →
      s.ledger.rebuild ≠ 6 → s.ledger.dueCause t₀.epoch = 0 → searchOwed s t₀.epoch = false → Answers .ledgerClose s fun t =>
        t.ledger.closed = some t₀.epoch ∧ t.ledger.applying = none ∧ t.ledger.touched = [] ∧
        t.ledger.sets = ((t₀.epoch, s.ledger.touched) :: s.ledger.sets).take 3 ∧
        (∀ e : Nat, e ∉ s.ledger.touched → edgeRec t.ledger.recs e = edgeRec s.ledger.recs e) ∧
        t.ledger.recs = s.ledger.touched.foldl (fun r e => sSet {} e
          (let p := publishRec b (costQuantum img b) e (edgeRec r e)
           if (edgeRec r e).state = 3 then { p with state := 3 } else p) r) s.ledger.recs ∧
        t.ledger.queue = s.ledger.queue ∧ t.ledger.shift = s.ledger.shift ∧ t.world = s.world ∧
        (s.spec.search = none → t.get Reg.LEDGER_CLOSED_EPOCH.EPOCH = t₀.epoch.toNat ∧ t.get Reg.LEDGER_STATUS.PHASE = 0 ∧
          t.get Reg.LEDGER_TRANSITIONS.TRANSITIONS = s.ledger.applied % 2 ^ 32 ∧ t.jig = s.jig ∧ t.order = s.order)) ∧
    (let e : Epoch := BitVec.ofNat 32 (s.get Reg.WORLD_SNAP_EPOCH.EPOCH)
     s.rebuildReady e ≠ 0 → searchOwed s e = false → Answers .ledgerRebuild s fun t =>
        t.ledger.closed = some e ∧ t.ledger.rebuilt = some (e, s.rebuildReady e) ∧ t.ledger.touched = [] ∧
        t.ledger.sets = ((e, List.range (Road.edgeCount b)) :: s.ledger.sets).take 3 ∧ t.world = s.world ∧
        (∀ q ∈ t.ledger.queue, q ∈ s.ledger.queue ∧ epochLater q.epoch e = true) ∧
        (s.spec.search = none → t.get Reg.LEDGER_CLOSED_EPOCH.EPOCH = e.toNat ∧
          t.get Reg.LEDGER_REBUILD_COUNT.REBUILDS = s.counted Reg.LEDGER_REBUILD_COUNT.REBUILDS)) ∧
    (∀ src : Source, Answers (.ledgerRebuildCmd src) s fun t => t.world = s.world ∧
      if s.isOwner src = false then t.get Reg.LEDGER_STATUS.CMD_RESULT = 1 ∧ t.access = 1 ∧ Changes s t [.access] [Reg.LEDGER_STATUS.CMD_RESULT]
      else if s.flag Reg.LEDGER_STATUS.REBUILD_PENDING = true then
        t.get Reg.LEDGER_STATUS.CMD_RESULT = 3 ∧ Changes s t [.access] [Reg.LEDGER_STATUS.CMD_RESULT]
      else if s.fault.tokens.any (conflicts { act := 4, cls := 0, idx := 0 }) = true then
        t.get Reg.LEDGER_STATUS.CMD_RESULT = 2 ∧ t.ledger = s.ledger ∧ t.fault = s.fault ∧
        t.get Reg.FAULT_MAINT_REFUSED.COUNT = s.counted Reg.FAULT_MAINT_REFUSED.COUNT
      else
        t.get Reg.LEDGER_STATUS.CMD_RESULT = 0 ∧ t.fault.tokens = s.fault.tokens ++ [{ act := 4, cls := 0, idx := 0 }] ∧
        t.ledger = (if s.ledger.rebuild = 0 then { s.ledger with rebuild := 4, rebuildAfter := s.ledger.applying } else s.ledger))

/-- The search of the committed epoch starts when the ledger has closed that epoch and its start state is known, at the entry nodes that match it; with
none, NO_ENTRY is set and it is over. A speculative search starts for the run-ahead epoch being filled when it has a predicted start state and none
yet. Each phase is applied to the committed or to the speculative search and to nothing else; an ended search emits its paths once. In WALL mode a
search still running at T_search - PATH_RESERVE_US ends there, and a ledger that has not closed the epoch is late and counted. (R230, R232 to R235,
R237, R327.) -/
def Obligations.SearchRunsFromItsClose : Prop :=
  ∀ (s : State) (img : Image) (b : List Byte), s.registersWf = true → s.cfg.image = some img → s.roadmap = some b →
    (∀ st : StartSt, s.world.start = some st → st.epoch = epochOf s.frame.k → s.ledger.closed = some (epochOf s.frame.k) →
      s.ledger.search = none → s.frame.inFrame = true → s.frame.searchOver = false → s.ledger.late = false → s.jig.searchCut = false →
      Answers (.searchStart false) s fun t =>
        t.ledger = { s.ledger with search := some (newSearch img b s.ledger (epochOf s.frame.k) st.state) } ∧
        t.get Reg.LEDGER_STATUS.NO_ENTRY = (if entryNodes img b st.state s.ledger.shift = [] then 1 else s.get Reg.LEDGER_STATUS.NO_ENTRY) ∧
        Changes s t [.ledger] [Reg.LEDGER_STATUS.NO_ENTRY]) ∧
    (∀ (x : SpecEp) (st : List Byte), s.specTarget = some x → x.start = some st → s.ledger.closed.isSome = true → x.search = none →
      s.flag Reg.FRAME_SPEC_CTL.ENABLE = true →
      exec (.searchStart true) s = .next (s.setSpec { x with search := some (newSearch img b s.ledger x.epoch st) })) ∧
    (exec (.searchPhaseEnd false) s =
      .next { s with ledger := { s.ledger with search := s.ledger.search.map (searchPhase b (relaxQuota img)) } }) ∧
    (∀ x : SpecEp, s.specTarget = some x →
      exec (.searchPhaseEnd true) s = .next (s.setSpec { x with search := x.search.map (searchPhase b (relaxQuota img)) })) ∧
    (∀ q : SearchSt, s.ledger.search = some q → q.ended ≠ 0 → q.emitted = false →
      exec (.searchEnd false) s =
        .next { s with ledger := { s.ledger with search := some { q with paths := searchPaths b q, emitted := true } } }) ∧
    (∀ (x : SpecEp) (q : SearchSt), s.specTarget = some x → x.search = some q → q.ended ≠ 0 → q.emitted = false →
      exec (.searchEnd true) s = .next (s.setSpec { x with search := some { q with paths := searchPaths b q, emitted := true } })) ∧
    (wall img = true → s.frame.inFrame = true → s.frame.searchOver = false →
      (s.ledger.closed ≠ some (epochOf s.frame.k) → Answers .pathReserveDeadline s fun t =>
        t.ledger = { s.ledger with late := true } ∧ t.get Reg.LEDGER_STATUS.SEARCH_LATE = 1 ∧
        t.get Reg.LEDGER_LATE_COUNT.LATE = s.counted Reg.LEDGER_LATE_COUNT.LATE ∧
        Changes s t [.frame, .ledger] [Reg.LEDGER_STATUS.SEARCH_LATE, Reg.LEDGER_LATE_COUNT.LATE]) ∧
      (∀ q : SearchSt, s.ledger.closed = some (epochOf s.frame.k) → s.ledger.search = some q → q.epoch = epochOf s.frame.k → q.ended = 0 →
        Answers .pathReserveDeadline s fun t => t.ledger = { s.ledger with search := some { q with ended := 3 } } ∧
          t.jig = { s.jig with searchCut := true } ∧
          t.frame = { s.frame with now := s.frameStartNs s.frame.k +
            1000 * ((s.get Reg.FRAME_SEARCH_DEADLINE.SEARCH_US : Int) - Road.pathReserveUs b) } ∧
          Changes s t [.frame, .ledger, .jig] []))

/-- A panel of a layer other than DISTANCE that is ready enters the snapshot with the content the admitted records assemble, and is final from then on; a
DISTANCE panel whose source panels are final either keeps the value it had in the previous snapshot, or is recomputed, and is then final. While panels
are left, the final panels are those before and this one, and the previous snapshot stays; with the last, the snapshot is the previous one of the next
epoch. A panel or layer outside the image's is none of the device. (R142, R143, R145 to R147.) -/
def Obligations.PanelsBecomeFinal : Prop :=
  ∀ (s : State) (img : Image) (l p : Nat), s.registersWf = true → s.cfg.image = some img →
    (img.layerCount ≤ l ∨ img.panelCount ≤ p → exec (.panelFinal l p) s = .fault .noSuchUnit) ∧
    (l < img.layerCount → p < img.panelCount → img.layerType l ≠ 1 → panelReady img s.world l p = true → Answers (.panelFinal l p) s fun t =>
      t.world.final = s.world.final ++ [(l, p)] ∧ t.world.snap = copyPanel img l p (assembled img s.world) s.world.snap ∧
      t.world.epoch = s.world.epoch ∧ t.frame = s.frame ∧
      (s.world.closed = true → s.world.final.length + 1 = img.layerCount * img.panelCount →
        t.world.active = false ∧ t.world.prev = t.world.snap ∧ t.get Reg.WORLD_SNAP_EPOCH.EPOCH = s.world.epoch.toNat ∧
        t.get Reg.WORLD_STATUS.PHASE = 3) ∧
      (s.world.final.length + 1 ≠ img.layerCount * img.panelCount →
        t.world.active = true ∧ t.world.prev = s.world.prev ∧ t.world.ingest = s.world.ingest ∧
        t.get Reg.WORLD_SNAP_EPOCH.EPOCH = s.get Reg.WORLD_SNAP_EPOCH.EPOCH)) ∧
    (l < img.layerCount → p < img.panelCount → img.layerType l = 1 → distReady img s.world l p = true →
      (distNeeded img s.world l p = false → Answers (.panelFinal l p) s fun t =>
        t.world.final = s.world.final ++ [(l, p)] ∧ t.world.snap = copyPanel img l p s.world.prev s.world.snap ∧
        t.world.changed = s.world.changed ∧ t.ledger = s.ledger) ∧
      (distNeeded img s.world l p = true → Answers (.distancePanelDone l p) s fun t =>
        t.world.final = s.world.final ++ [(l, p)] ∧ t.world.snap = dtPanel img s.world.poisoned l p s.world.snap ∧
        t.world.dtDone = s.world.dtDone ++ [(l, p)] ∧ t.ledger = s.ledger)) ∧
    (img.layerCount ≤ l ∨ img.panelCount ≤ p ∨ img.layerType l ≠ 1 → exec (.distancePanelDone l p) s = .fault .noSuchUnit)

/-- With the error handler free, a dowel mismatch on a tile counts a miss of its physical tile and is handled as a CORRECTED or CONTAINED error of
mechanism 3; one that neither re-read nor restore mends abandons propose for the epoch, and disables it where the block is constant and unreadable. A
checksum miss counts a miss; a clean repeat is CORRECTED; a second miss makes the tile SUSPECT, and without a passing replay on a spare propose is
abandoned. A tile the device does not have stops by name. (R268, R271, R273, R541.) -/
def Obligations.ProposeErrorsAreCounted : Prop :=
  ∀ (s : State) (tile : Nat), s.registersWf = true →
    (tile < s.tiles → s.fault.handling = none →
      (Answers (.dowelMismatch tile false true .reread) s fun t =>
        t.get (Reg.TILE_DOWEL_MISS.MISS (s.phys tile)) = s.counted (Reg.TILE_DOWEL_MISS.MISS (s.phys tile)) ∧
        t.fault.handling = some { info := mkError 0 (s.phys tile) 0 3 1, time := s.frame.now.toNat, epoch := epochOf s.curK } ∧ t.jig = s.jig) ∧
      (∀ con rd : Bool, Answers (.dowelMismatch tile con rd .restored) s fun t =>
        t.get (Reg.TILE_DOWEL_MISS.MISS (s.phys tile)) = s.counted (Reg.TILE_DOWEL_MISS.MISS (s.phys tile)) ∧
        t.fault.handling = some { info := mkError 0 (s.phys tile) 1 3 2, time := s.frame.now.toNat, epoch := epochOf s.curK } ∧ t.jig = s.jig) ∧
      (∀ con rd : Bool, Answers (.dowelMismatch tile con rd .failed) s fun t =>
        t.get (Reg.TILE_DOWEL_MISS.MISS (s.phys tile)) = s.counted (Reg.TILE_DOWEL_MISS.MISS (s.phys tile)) ∧
        t.fault.handling = some { info := mkError 0 (s.phys tile) 1 3 2, time := s.frame.now.toNat, epoch := epochOf s.curK } ∧
        t.jig = { s.jig with abandoned := true, disabled := s.jig.disabled || (con && !rd) }) ∧
      (∀ (spare : Option Nat) (ok : Bool), Answers (.checksumMiss tile true spare ok) s fun t =>
        t.get (Reg.TILE_CHK_MISS.MISS (s.phys tile)) = s.counted (Reg.TILE_CHK_MISS.MISS (s.phys tile)) ∧
        t.get (Reg.TILE_TENSOR_STATUS.MISS (s.phys tile)) = 1 ∧
        t.fault.handling = some { info := mkError 0 (s.phys tile) 0 4 1, time := s.frame.now.toNat, epoch := epochOf s.curK } ∧ t.jig = s.jig) ∧
      (∀ (spare : Option Nat) (ok : Bool), s.unitGood 0 (s.phys tile) = true → Answers (.checksumMiss tile false spare ok) s fun t =>
        t.get (Reg.TILE_CHK_MISS.MISS (s.phys tile)) = s.counted (Reg.TILE_CHK_MISS.MISS (s.phys tile)) ∧
        t.get (Reg.TILE_BIND.STATE (s.phys tile)) = 1 ∧ t.unitGood 0 (s.phys tile) = false ∧
        (spare.isSome = true → ok = true → t.get (Reg.TILE_TENSOR_STATUS.REPLAYING (s.phys tile)) = 1 ∧ t.jig.abandoned = s.jig.abandoned) ∧
        (spare = none ∨ ok = false → t.jig.abandoned = true))) ∧
    (s.tiles ≤ tile → (∀ con rd r, exec (.dowelMismatch tile con rd r) s = .fault .noSuchUnit) ∧
      ∀ ok sp rp, exec (.checksumMiss tile ok sp rp) s = .fault .noSuchUnit)

/-- On a port that is good, out of reset and awake: a frame whose link check fails is counted against its port; one that is not Sheaz, or a WAKE frame, is
not counted; a bad header has reason 2; under a running image an address, port or partition that does not match has reason 3, an exceeded flow meter 4
with the partition's own count, a tag that is missing or wrong 5 with the partition's own count, an old sequence 6, and register access from a
partition other than 0 reason 7. With no image only port 0 carries Sheaz, and a type that a start does not take has reason 7. A frame that passes, or
comes while no frame is received, leaves everything as it is. (R446, R450, R476, R588, R605, Table 16-6.) -/
def Obligations.ReceiveStepsCountTheirDrops : Prop :=
  ∀ (s : State) (f : Frame), s.registersWf = true → f.partition < 8 →
    (f.port < 4 → s.portGood f.port = true → s.pins.resetN = true → s.power.asleep = 0 →
      (f.linkOk = false → Answers (.receiveDiscard f) s fun t => t.get (Reg.ETH_PORT_RX_ERR.COUNT f.port) = s.counted (Reg.ETH_PORT_RX_ERR.COUNT f.port) ∧
        Changes s t [] [Reg.ETH_PORT_RX_ERR.COUNT f.port]) ∧
      (f.linkOk = true → f.ty = 0x7E ∨ f.ty = 256 → exec (.receiveDiscard f) s = .next s) ∧
      (f.linkOk = true → f.ty ≠ 0x7E → f.ty ≠ 256 → f.headerOk = false → Answers (.receiveDiscard f) s fun t =>
        t.get (Reg.ETH_RX_DROP.COUNT 2) = s.counted (Reg.ETH_RX_DROP.COUNT 2) ∧ Changes s t [] [Reg.ETH_RX_DROP.COUNT 2]) ∧
      (f.linkOk = true → f.ty ≠ 0x7E → f.ty ≠ 256 → f.headerOk = true →
        (∀ img : Image, s.cfg.image = some img →
          let here := img.hasPart f.partition && bitOf (img.partField f.partition 2 1) f.port && f.addrOk
          let meter := meterPass img (s.part f.partition) f.partition f.port f.wire s.frame.now.toNat
          let auth := authPass img meter.2 f
          (here = false → Answers (.receiveDiscard f) s fun t => t.get (Reg.ETH_RX_DROP.COUNT 3) = s.counted (Reg.ETH_RX_DROP.COUNT 3) ∧
            Changes s t [] [Reg.ETH_RX_DROP.COUNT 3]) ∧
          (here = true → meter.1 = false → Answers (.receiveDiscard f) s fun t =>
            t.get (Reg.ETH_RX_DROP.COUNT 4) = s.counted (Reg.ETH_RX_DROP.COUNT 4) ∧
            t.get (Reg.ETH_PART_METER_DROP.COUNT f.partition) = s.counted (Reg.ETH_PART_METER_DROP.COUNT f.partition) ∧ t.part f.partition = meter.2) ∧
          (here = true → meter.1 = true → auth = false → f.ty ≠ 0x50 ∨ bitOf f.flags 0 = true → Answers (.receiveDiscard f) s fun t =>
            t.get (Reg.ETH_RX_DROP.COUNT 5) = s.counted (Reg.ETH_RX_DROP.COUNT 5) ∧
            t.get (Reg.ETH_PART_AUTH_FAIL.COUNT f.partition) = s.counted (Reg.ETH_PART_AUTH_FAIL.COUNT f.partition) ∧
            t.get (Reg.ETH_PART_RX_SEQ.SEQ f.partition) = s.get (Reg.ETH_PART_RX_SEQ.SEQ f.partition)) ∧
          (here = true → meter.1 = true → auth = true → f.ty ≠ 0x50 → f.ty ≠ 0x10 → (s.part f.partition).started = true →
            epochLater f.seq (BitVec.ofNat 32 (s.get (Reg.ETH_PART_RX_SEQ.SEQ f.partition))) = false → Answers (.receiveDiscard f) s fun t =>
            t.get (Reg.ETH_RX_DROP.COUNT 6) = s.counted (Reg.ETH_RX_DROP.COUNT 6) ∧
            t.get (Reg.ETH_PART_RX_SEQ.SEQ f.partition) = s.get (Reg.ETH_PART_RX_SEQ.SEQ f.partition)) ∧
          (here = true → meter.1 = true → auth = true → f.ty = 0x60 → f.partition ≠ 0 → (s.part f.partition).started = false →
            Answers (.receiveDiscard f) s fun t => t.get (Reg.ETH_RX_DROP.COUNT 7) = s.counted (Reg.ETH_RX_DROP.COUNT 7)) ∧
          (here = true → meter.1 = true → f.ty = 0x10 → auth = true → exec (.receiveDiscard f) s = .next s)) ∧
        (s.cfg.image = none →
          (f.port ≠ 0 → Answers (.receiveDiscard f) s fun t => t.get (Reg.ETH_RX_DROP.COUNT 3) = s.counted (Reg.ETH_RX_DROP.COUNT 3) ∧
            Changes s t [] [Reg.ETH_RX_DROP.COUNT 3]) ∧
          (f.port = 0 → f.ty ∉ [0x30, 0x31, 0x50, 0x51, 0x60] → seqPass s { f with partition := 0 } = true → Answers (.receiveDiscard f) s fun t =>
            t.get (Reg.ETH_RX_DROP.COUNT 7) = s.counted (Reg.ETH_RX_DROP.COUNT 7) ∧ Changes s t [] [Reg.ETH_RX_DROP.COUNT 7])))) ∧
    (4 ≤ f.port ∨ s.portGood f.port = false ∨ s.pins.resetN = false ∨ s.power.asleep ≠ 0 → exec (.receiveDiscard f) s = .next s)

/-- A port of the device that gains link is shown in ETH_STATUS.LINK unless it is absent or retired, and one that loses it is not; the other ports' bits
stay (what 802.3br verification finds is free, log entry 11). An ARP or Neighbor Discovery request for the address of a partition of a good port is
answered. MACSEC_INSTALL from partition 0 under TAG and CONF, or JTAG with debug unlocked, stores the eight words written as the SAK of the
association of that port, direction and number, and shows the port up once both directions have one; from any other source it is denied and installs
nothing. A port the device does not have stops by name. (R442, R443, R471, R478.) -/
def Obligations.PortsAnswerAndHoldAssociations : Prop :=
  ∀ (s : State) (port : Nat), s.registersWf = true →
    (port < 4 →
      (∀ up : Bool, Answers (.ethLinkChange port up) s fun t =>
        bitOf (t.get Reg.ETH_STATUS.LINK) port = (up && s.portGood port) ∧
        (∀ q : Nat, q < 4 → q ≠ port → bitOf (t.get Reg.ETH_STATUS.LINK) q = bitOf (s.get Reg.ETH_STATUS.LINK) q) ∧
        Changes s t [.fresh] [Reg.ETH_STATUS.LINK, Reg.ETH_PORT_STATUS.PREEMPT port]) ∧
      (∀ (img : Image) (v6 : Bool) (target sender : List Byte) (p o : Nat), s.cfg.image = some img → s.portGood port = true → p < 8 →
        img.partOff p = some o → bitOf (img.partField p 2 1) port = true → bitOf (img.partField p 1 1) 5 = v6 →
        ((img.body 0xE).drop (o + 0x40)).take 16 = (if v6 then target else List.replicate 12 0 ++ target) →
        exec (.arpNdRequest port v6 target sender) s = .next { s with eth := { s.eth with answers := (port, target, sender) :: s.eth.answers } }) ∧
      (∀ (src : Source) (v : Word), src = .sheaz 0 true true ∨ (src = .jtag ∧ s.get Reg.SEC_DEBUG_STATUS.STATE = 2) →
        Answers (.macsecInstall src port v) s fun t => t.access = 0 ∧
          t.eth.sas = (s.eth.sas.filter fun a => !(a.port == port && a.rx == bitOf v.toNat 2 && a.an == v.toNat % 4)) ++
            [{ port := port, rx := bitOf v.toNat 2, an := v.toNat % 4, key := (List.range 8).map fun i => sGet 0 (8 * port + i) s.eth.sak }] ∧
          t.get (Reg.ETH_PORT_STATUS.MACSEC_UP port) =
            bit ((t.eth.sas.any fun a => a.port == port && a.rx) && t.eth.sas.any fun a => a.port == port && !a.rx) ∧
          Changes s t [.eth, .access] [Reg.ETH_PORT_STATUS.MACSEC_UP port]) ∧
      (∀ (src : Source) (v : Word), src ∈ [Source.mgmt, .tenon, .sheaz 0 false false, .sheaz 0 true false, .sheaz 0 false true] →
        exec (.macsecInstall src port v) s = .next { s with access := 1 }) ∧
      (∀ v : Word, s.get Reg.SEC_DEBUG_STATUS.STATE ≠ 2 → exec (.macsecInstall .jtag port v) s = .next { s with access := 1 }) ∧
      (∀ (p : Nat) (a b : Bool) (v : Word), p ≠ 0 → exec (.macsecInstall (.sheaz p a b) port v) s = .next { s with access := 1 })) ∧
    (4 ≤ port → (∀ up, exec (.ethLinkChange port up) s = .fault .noSuchUnit) ∧ (∀ v6 a b, exec (.arpNdRequest port v6 a b) s = .fault .noSuchUnit) ∧
      ∀ src v, exec (.macsecInstall src port v) s = .fault .noSuchUnit)

/-- On a standalone device and on a head, a WORLD_UPDATE that passes the receive steps at time t: of a stream that is not configured it is counted as an
ingest drop; of a disabled stream, from another partition, malformed, of an old sequence, or more than two epochs ahead it is counted against its
stream, and the world stays. Otherwise, where the ingest buffer and the stream's budget have room and the stream has closed no epoch, it waits in the
buffer for the epoch it names, or for the earliest open one where that is later, and its sequence is the stream's. On another device of a chain it is
discarded with reason 7. (R134 to R137, R498, Table 5-7.) -/
def Obligations.WorldUpdatesAreAdmitted : Prop :=
  ∀ (s : State) (f : Frame) (t : Nat) (img : Image), s.registersWf = true → s.cfg.image = some img → f.ty = 0x10 → f.partition < 8 → (arrive s f t).1 = true →
    (s.inChain = true → s.isHead = false → Answers (.worldUpdate f t) s fun u =>
      u.get (Reg.ETH_RX_DROP.COUNT 7) = s.counted (Reg.ETH_RX_DROP.COUNT 7) ∧ u.world = s.world) ∧
    (s.inChain = false ∨ s.isHead = true → f.stream < 32 →
      let c := s.openEpoch img t
      let st := s.world.stream f.stream
      (img.streamIdx f.stream = none → Answers (.worldUpdate f t) s fun u =>
        u.get Reg.WORLD_INGEST_DROP.DROPPED = s.counted Reg.WORLD_INGEST_DROP.DROPPED ∧ u.world = s.world) ∧
      ((img.streamIdx f.stream).isSome = true →
        (s.flag (Reg.WORLD_STREAM_CTL.ENABLE f.stream) = false ∨ f.partition ≠ img.streamPartition f.stream ∨ parsePayload false f.payload = none ∨
          (st.started = true ∧ epochLater f.seq st.lastSeq = false) ∨ epochLater f.epoch (c + 2) = true) → Answers (.worldUpdate f t) s fun u =>
          u.get (Reg.WORLD_STREAM_DISCARD.DISCARD f.stream) = s.counted (Reg.WORLD_STREAM_DISCARD.DISCARD f.stream) ∧ u.world = s.world) ∧
      (∀ (recs : List WRec) (eoe : Bool), (img.streamIdx f.stream).isSome = true → s.flag (Reg.WORLD_STREAM_CTL.ENABLE f.stream) = true →
        f.partition = img.streamPartition f.stream → parsePayload false f.payload = some (recs, eoe) →
        (∀ r ∈ recs, ∀ dx dy dz b, r ≠ .ego dx dy dz b) → (st.started = false ∨ epochLater f.seq st.lastSeq = true) → epochLater f.epoch (c + 2) = false →
        st.closedTo = none →
        let e := if epochLater c f.epoch then c else f.epoch
        ingestBytes s.world + f.payload.length ≤ ingestCapacity → epochBytes s.world f.stream e + f.payload.length ≤ img.byteBudget f.stream →
        Answers (.worldUpdate f t) s fun u =>
          u.world.ingest = s.world.ingest ++
            [{ stream := f.stream, epoch := e, seq := f.seq, recs := recs, bytes := f.payload.length, raw := f.header ++ f.payload }] ∧
          (u.world.stream f.stream).lastSeq = f.seq ∧ (u.world.stream f.stream).closedTo = (if eoe then some e else none) ∧
          u.get (Reg.WORLD_STREAM_LAST_SEQ.SEQ f.stream) = f.seq.toNat ∧ u.get (Reg.WORLD_STREAM_STATUS.STALE f.stream) = 0 ∧
          u.world.final = s.world.final ∧ u.world.prev = s.world.prev))

/-- A well-formed ATTEST_REQ that passes the receive steps is answered on every port of its partition that has link with the quote over its nonce, and
takes the next device sequence. With ROLL_KEY and the partition's valid signature, the session key becomes the one derived from the ECDH secret, the
old key stays valid for received frames until it expires, and the count of frames since the roll starts again; without a valid signature the keys stay
and the quote says so. The expiry removes the old key alone. A partition above 7 stops by name. (R451 to R454, R457.) -/
def Obligations.AttestationAndSessionKeys : Prop :=
  ∀ (s : State), s.registersWf = true →
    (∀ (f : Frame) (t : Nat), f.ty = 0x50 → (s.asPart f).partition < 8 → bitOf (byteAt f.payload 64) 0 = false → (arrive s (s.asPart f) t).1 = true →
      attestForm f.payload false = true → Answers (.attestReq f t) s fun u =>
        let p := (s.asPart f).partition
        let s' := (arrive s (s.asPart f) t).2
        u.eth.tx = s.eth.tx ++ s'.copies p 0x51 0 (attestBody s' (f.payload.take 64) false) ∧
        u.get (Reg.ETH_PART_TX_SEQ.SEQ p) = (s.get (Reg.ETH_PART_TX_SEQ.SEQ p) + 1) % 2 ^ 32 ∧
        (u.part p).key = (s.part p).key ∧ (u.part p).oldKey = (s.part p).oldKey) ∧
    (∀ (f : Frame) (t : Nat) (img : Image), s.cfg.image = some img → f.ty = 0x50 → f.partition < 8 → bitOf (byteAt f.payload 64) 0 = true →
      (arrive s f t).1 = true → attestForm f.payload true = true → s.sec.identity = true → Answers (.attestRollKey f t) s fun u =>
        u.get (Reg.ETH_PART_TX_SEQ.SEQ f.partition) = (s.get (Reg.ETH_PART_TX_SEQ.SEQ f.partition) + 1) % 2 ^ 32 ∧
        if Config.ecdsaVerify (img.partKey f.partition) (Config.sha512 (f.payload.take 68 ++ [BitVec.ofNat 8 f.partition]))
            ((f.payload.drop 68).take 66) (f.payload.drop 134) = true then
          (u.part f.partition).key = some (Config.hkdf (Config.ecdhX s.identityKey (img.partKey f.partition)) (f.payload.take 64)
            ([0x53, 0x48, 0x45, 0x41, 0x5A, 0x31, BitVec.ofNat 8 f.partition] ++ s.programDigest)) ∧
          (u.part f.partition).oldKey = (s.part f.partition).key ∧ (u.part f.partition).rollSeq = f.seq.toNat ∧
          (u.part f.partition).txSinceRoll = 1 ∧ u.get (Reg.ETH_PART_RX_SEQ.SEQ f.partition) = f.seq.toNat ∧
          u.get (Reg.ETH_PART_STATUS.KEY_VALID f.partition) = 1
        else (u.part f.partition).key = (s.part f.partition).key ∧ (u.part f.partition).oldKey = (s.part f.partition).oldKey) ∧
    (∀ p : Nat, p < 8 → Answers (.oldKeyExpiry p) s fun u => u.eth.parts = sSet {} p { s.part p with oldKey := none } s.eth.parts ∧
      (∀ q : Nat, q ≠ p → u.part q = s.part q) ∧ u.eth.tx = s.eth.tx ∧ u.get (Reg.ETH_PART_STATUS.KEY_VALID p) = bit (s.part p).key.isSome ∧
      Changes s u [.eth] [Reg.ETH_PART_STATUS.KEY_VALID p]) ∧
    (∀ p : Nat, 8 ≤ p → exec (.oldKeyExpiry p) s = .fault .noSuchUnit)

/-- A JOB_SUBMIT frame that passes the receive steps under a running image and leaves its set incomplete is staged and answered by nothing. One that
completes a well-formed SWEEP, SEARCH or REFINE body that the image supports, of a job ID not in use and within the partition's job count, staging
bytes and free descriptors, appends a waiting job of that kind with its body (the start epoch of a REFINE job is free, log entry 11). One that
completes a CANCEL of an active job ends that job with status CANCELLED, and leaves every other job. A set that times out is dropped alone. (R463,
R464.) -/
def Obligations.JobsAreSubmitted : Prop :=
  ∀ (s : State) (img : Image), s.registersWf = true → s.cfg.image = some img →
    (∀ (f : Frame) (t : Nat), f.ty = 0x01 → f.partition < 8 → completes s f = none → (arrive s f t).1 = true → Answers (.jobSubmitFragment f t) s fun u =>
      u.eth.staging = (stageFragment s f).2.eth.staging ∧ u.eth.jobs = s.eth.jobs ∧ u.eth.tx = s.eth.tx) ∧
    (∀ (f : Frame) (t k : Nat) (x : Staging) (c : Instr), f.ty = 0x01 → f.partition < 8 → (arrive s f t).1 = true → (stageFragment s f).1 = some x →
      byteAt x.body 4 = k → (k, c) ∈ [(1, Instr.jobSweep f t), (2, .jobSearch f t), (3, .jobRefine f t)] →
      bodyOk s x = true → (∀ j ∈ s.eth.jobs, j.partition = f.partition → j.id ≠ x.jobId) →
      (k = 2 → img.hasStage 5 = true ∧ s.roadmap.isSome = true) → (k = 3 → img.has 0xC = true ∧ s.goodEngines ≠ []) →
      s.activeJobs f.partition < img.partField f.partition 0xE 1 →
      stagedBytes (stageFragment s f).2 f.partition + x.body.length ≤ img.partField f.partition 0x18 8 → (k ≠ 3 → jigFull s img f.partition = false) →
      Answers c s fun u => u.eth.staging = (stageFragment s f).2.eth.staging ∧ ∃ j : Job,
        u.eth.jobs = (s.eth.jobs.filter fun j => decide (j.state < 3) || decide (t ≤ j.finishedAt + 1000000000)) ++ [j] ∧
        j.partition = f.partition ∧ j.id = x.jobId ∧ j.kind = k ∧ j.body = x.body ∧ j.state = 0 ∧ j.out = [] ∧
        j.priority = min (byteAt x.body 5) (img.partField f.partition 5 1) ∧ (k ≠ 3 → j.startEpoch = s.openEpoch img t)) ∧
    (∀ (f : Frame) (t : Nat) (x : Staging) (j : Job), f.ty = 0x01 → f.partition < 8 → (arrive s f t).1 = true → (stageFragment s f).1 = some x →
      byteAt x.body 4 = 0 → bodyOk s x = true → s.openJob f.partition x.jobId = some j → Answers (.jobCancel f t) s fun u =>
        u.eth.staging = (stageFragment s f).2.eth.staging ∧
        u.eth.jobs = (s.eth.jobs.filter fun j => decide (j.state < 3) || decide (t ≤ j.finishedAt + 1000000000)).map fun j =>
          if j.partition = f.partition ∧ j.id = x.jobId ∧ j.state < 2 then { j with state := 2, status := 3, engine := none, finishedAt := t } else j) ∧
    (∀ p id : Nat, exec (.jobFragmentTimeout p id) s =
      .next { s with eth := { s.eth with staging := s.eth.staging.filter fun x => !(x.partition == p && x.jobId == id) } })

/-- A waiting SWEEP or SEARCH job starts in the search phase of its start epoch, on its final snapshot and, for SEARCH, the ledger's close of it; a REFINE
job on the engine that is free, cold-started. A checkpoint of a REFINE job keeps its iterate and count, with the one before. A job that has released
every unit ends with status DONE, a REFINE job that meets its limit or converges ends DONE, and one that reaches MAX_MS ends CUT with the iterations
that fit in that time; the state of an ended job says whether its result could be sent. (R465 to R467, R472, R540.) -/
def Obligations.JobsRunAndEnd : Prop :=
  ∀ (s : State) (img : Image) (p id : Nat) (j : Job), s.registersWf = true → s.cfg.image = some img → p < 8 → s.openJob p id = some j →
    (j.state = 0 → j.kind ≠ 3 → s.frame.inFrame = true → s.frame.searchOver = false → epochOf s.frame.k = j.startEpoch → s.world.active = false →
      s.get Reg.WORLD_SNAP_EPOCH.EPOCH = j.startEpoch.toNat → (j.kind = 2 → s.ledger.closed = some j.startEpoch) →
      exec (.jobStart p id) s = .next (s.setJob { j with state := 1 })) ∧
    (∀ e : Nat, j.state = 0 → j.kind = 3 → s.jobEngine = some e → exec (.jobStart p id) s =
      .next (s.setJob { j with state := 1, engine := some e, iter := some (coldStart img j.reference), iterations := 0 })) ∧
    (∀ c : Iterate, j.state = 1 → j.kind = 3 → j.iter = some c →
      let r := jobIterate img j.reference (j.cap img) (iterationsIn img 8999999 + 1) c j.iterations
      exec (.jobCheckpoint p id) s = .next (if r.2.2 = true ∨ j.cap img ≤ r.2.1 then s
        else s.setJob { j with iter := some r.1, iterations := r.2.1, work := r.2.1, checkpoints := (r.2.1, r.1) :: j.checkpoints.take 1 })) ∧
    (s.eth.jobs.find? (fun x => x.partition == p && x.id == id && decide (x.state < 3)) = some j →
      (j.state = 1 → j.kind ≠ 3 → j.more = false → Answers (.jobEnd p id) s fun u =>
        ∃ x ∈ u.eth.jobs, x = { j with state := (if s.maySend p 0x20 = true then 3 else 2), status := 0, engine := none, finishedAt := s.frame.now.toNat }) ∧
      (∀ c : Iterate, j.state = 1 → j.kind = 3 → j.iter = some c → Answers (.jobEnd p id) s fun u =>
        ∃ x ∈ u.eth.jobs, x.partition = p ∧ x.id = id ∧ x.status = 0 ∧ x.state = (if s.maySend p 0x20 = true then 3 else 2) ∧
          x.iterations = (jobIterate img j.reference (j.cap img) (j.cap img - j.iterations) c j.iterations).2.1 ∧ x.engine = none)) ∧
    (j.kind = 3 → Answers (.jobMaxMs p id) s fun u =>
      ∃ x ∈ u.eth.jobs, x.partition = p ∧ x.id = id ∧ x.status = 1 ∧ x.state = (if s.maySend p 0x20 = true then 3 else 2) ∧
        x.iterations = (jobIterate img j.reference (j.cap img) (iterationsIn img (1000000 * j.maxMs) - j.iterations)
          (j.iter.getD (coldStart img j.reference)) j.iterations).2.1)

/-- The next task of a stage that a tile creates, in its window, or a job's task, is bound to the lowest free descriptor of that tile; it waits until its
wait condition is met and is then ready, pending, or offered. With no free descriptor the hold is counted and no descriptor changes. A flag token sets
its flags and may make the task ready. A tick moves the tick on, never backwards. A running task that reaches a wait point goes on where its condition
holds and waits otherwise; a delay stops it until a later tick; at a plain point it continues unless its stage is cut or a committed task needs its
thread. A tile or descriptor the device does not have stops by name. (R351 to R359, R362, R368.) -/
def Obligations.TasksAreCreatedAndWait : Prop :=
  ∀ (s : State) (img : Image) (tile : Nat), s.registersWf = true → s.tablesWf = true → s.cfg.image = some img → tile < s.tiles →
    (∀ (k : TaskKind) (m : Word) (a : Bool) (d : Nat), s.freeDesc tile = some d →
      ((∃ p, k = .job p) ∨ (∃ id, k = .unordered id) ∨ ∃ id t, k = .stage id t ∧ id ∈ [2, 5] ∧ s.frame.inFrame = true ∧ s.frame.searchOver = false ∧
        s.taskTile img id t false = some tile ∧ t < s.taskCount img id ∧ s.taskExists id t false (epochOf s.frame.k) = false ∧
        (∀ u < t, s.taskTile img id u false ≠ some tile ∨ s.taskExists id u false (epochOf s.frame.k) = true) ∧
        s.inWindow img (newDesc s img (epochOf s.frame.k) k false m a) = true) →
      Answers (.taskCreate tile k false m a) s fun t => (t.desc tile d).kind = k ∧ (t.desc tile d).epoch = epochOf s.frame.k ∧
        (t.desc tile d).waitMask = m ∧ (if m = 0 then (t.desc tile d).state ∈ [3, 4, 6] else (t.desc tile d).state = 1)) ∧
    (∀ (t : Nat) (m : Word) (a : Bool) (d d2 : Nat), s.freeDesc tile = some d → s.frame.inFrame = true → s.frame.searchOver = false →
      s.taskTile img 3 t false = some tile → t < s.taskCount img 3 → s.taskExists 3 t false (epochOf s.frame.k) = false →
      (∀ u < t, s.taskTile img 3 u false ≠ some tile ∨ s.taskExists 3 u false (epochOf s.frame.k) = true) →
      s.inWindow img (newDesc s img (epochOf s.frame.k) (.stage 3 t) false m a) = true →
      s.inWindow img (newDesc s img (epochOf s.frame.k) (.stage 4 t) false 1 true) = true →
      (s.setDesc tile d (newDesc s img (epochOf s.frame.k) (.stage 3 t) false m a)).freeDesc tile = some d2 →
      Answers (.taskCreate tile (.stage 3 t) false m a) s fun u => (u.desc tile d).kind = .stage 3 t ∧ (u.desc tile d2).kind = .stage 4 t ∧
        (u.desc tile d2).state = 1 ∧ (u.desc tile d2).waitMask = 1) ∧
    (∀ (k : TaskKind) (sp : Bool) (m : Word) (a : Bool), s.freeDesc tile = none → Answers (.taskCreate tile k sp m a) s fun t =>
      t.get Reg.JIG_BACKPRESSURE.COUNT = s.counted Reg.JIG_BACKPRESSURE.COUNT ∧ t.jig.descs = s.jig.descs) ∧
    (∀ (d : Nat) (v : Word), d < 2048 → (s.desc tile d).state ≠ 0 → Answers (.flagToken tile d v) s fun t =>
      (t.desc tile d).flags = (s.desc tile d).flags ||| v ∧ (t.desc tile d).kind = (s.desc tile d).kind ∧
      (if (s.desc tile d).state = 1 ∧ Desc.waitMet { s.desc tile d with flags := (s.desc tile d).flags ||| v } = true then
        (t.desc tile d).state ∈ [3, 4, 6] else (t.desc tile d).state = (s.desc tile d).state)) ∧
    (Answers .tick s fun t =>
      let now := (s.frame.now / (1000 * max 1 img.tickUs : Nat) + 1) * (1000 * max 1 img.tickUs : Nat)
      t.frame = { s.frame with now := now } ∧
      t.jig.tick = (if epochLater (tickAt img now) s.jig.tick then tickAt img now else s.jig.tick) ∧ t.get Reg.JIG_TICK.TICK = t.jig.tick.toNat) ∧
    (∀ d : Nat, d < 2048 → (s.desc tile d).state = 5 →
      (∀ (m : Word) (a : Bool), Answers (.taskYield tile d (.wait m a)) s fun t => (t.desc tile d).waitMask = m ∧ (t.desc tile d).waitAnd = a ∧
        (t.desc tile d).state = (if Desc.waitMet { s.desc tile d with waitMask := m, waitAnd := a } = true then 5 else 1)) ∧
      (∀ w : Word, Answers (.taskYield tile d (.delay w)) s fun t => (t.desc tile d).state = 2 ∧
        (t.desc tile d).wakeTick = (if epochLater w s.jig.tick then w else s.jig.tick + 1)) ∧
      (∀ n : Nat, (s.frame.searchOver = false ∨ img.quotaMode = true) → (s.desc tile d).speculative = false →
        exec (.taskYield tile d (.plain n)) s = .next (s.setDesc tile d { s.desc tile d with swept := n }))) ∧
    (∀ (d : Nat), 2048 ≤ d → (∀ v, exec (.flagToken tile d v) s = .fault .noSuchUnit) ∧ ∀ w, exec (.taskYield tile d w) s = .fault .noSuchUnit) ∧
    (∀ n : Nat, s.tiles ≤ n → (∀ k sp m a, exec (.taskCreate n k sp m a) s = .fault .noSuchUnit) ∧ (∀ d v, exec (.flagToken n d v) s = .fault .noSuchUnit) ∧
      ∀ d w, exec (.taskYield n d w) s = .fault .noSuchUnit)

/-- A freed thread takes the first dispatchable task by the rank of R356, which is then RUNNING on that thread; a test slice only where nothing runs, the
safety window is clear and its token is free, and otherwise it is deferred and counted. A completed expand task of the committed epoch is released
where it is the next of its flow and held otherwise; a task whose inputs are not at hand goes on; a slice's or an unordered task's descriptor is free.
Announcing takes every tile's ready depth. An offered task moves to the receiver's descriptor or is ready again. An aborted slice is ready again and
its token given back. A panel read fills the cache. (R356, R360 to R363, R369, R370, R206.) -/
def Obligations.TasksRunAndComplete : Prop :=
  ∀ (s : State) (img : Image) (tile : Nat), s.registersWf = true → s.tablesWf = true → s.cfg.image = some img → tile < s.tiles →
    (∀ (reserve thread : Nat) (p : Nat × Desc) (r : List (Nat × Desc)), thread < 256 →
      ((s.bound tile).filter fun p => p.2.state == 5 && p.2.reserve == reserve).length < reserveSize img tile reserve →
      (s.bound tile).filter (s.dispatchable img tile reserve) = p :: r →
      Answers (.taskDispatch tile reserve thread) s fun t =>
        let q := r.foldl (fun b x => if dispatchBefore x b then x else b) p
        match q.2.kind with
        | .slice _ =>
          if (∀ x ∈ s.bound tile, x.2.state ≠ 5) ∧ s.inSafetyWindow img = false ∧ s.frame.now + 1000 * q.2.arg.toNat ≤ s.nextWindow img ∧
              s.fault.tokens.any (conflicts (testToken 0 (s.phys tile))) = false then
            (t.desc tile q.1).state = 5 ∧ t.get Reg.JIG_TEST_ADMITS.COUNT = s.counted Reg.JIG_TEST_ADMITS.COUNT ∧
            t.fault.tokens = s.fault.tokens ++ [testToken 0 (s.phys tile)]
          else t.get Reg.JIG_TEST_DEFERS.COUNT = s.counted Reg.JIG_TEST_DEFERS.COUNT ∧ t.jig.descs = s.jig.descs
        | _ => (t.desc tile q.1).state = 5 ∧ (t.desc tile q.1).thread = thread ∧ (t.desc tile q.1).reserve = reserve ∧
            (t.desc tile q.1).lastTile = tile ∧ (t.desc tile q.1).kind = q.2.kind ∧ t.fault = s.fault) ∧
    (∀ d : Nat, d < 2048 → (s.desc tile d).state = 5 →
      ((∃ w, (s.desc tile d).kind = .slice w) ∨ (∃ id, (s.desc tile d).kind = .unordered id) → Answers (.taskComplete tile d) s fun t =>
        (t.desc tile d).state = 0 ∧ t.jig.held = s.jig.held ∧ t.jig.released = s.jig.released) ∧
      (∀ p : Nat, (s.desc tile d).kind = .job p → s.frame.searchOver = true → Answers (.taskComplete tile d) s fun t =>
        (t.desc tile d).state = 0 ∧ t.eth = s.eth) ∧
      (∀ (p : Nat) (j : Job), (s.desc tile d).kind = .job p → s.frame.searchOver = false → j.kind = 1 →
        s.eth.jobs.find? (fun j => j.partition == p && j.state == 1 && j.kind != 3 && j.more) = some j → Answers (.taskComplete tile d) s fun t =>
        (t.desc tile d).state = 0 ∧ ∃ x ∈ t.eth.jobs, x.partition = p ∧ x.id = j.id ∧
          x.out = j.out ++ (jobRecord s img j j.released).1.bytes ∧ x.work = j.work + (jobRecord s img j j.released).1.queries) ∧
      (∀ (t : Nat) (outs : List Output), (s.desc tile d).kind = .stage 3 t → (s.desc tile d).speculative = false →
        (s.desc tile d).epoch = epochOf s.frame.k → s.isDone 3 t = false → taskOutputs s img (s.desc tile d) = some outs →
        (∀ h ∈ s.jig.held, h.flow ≠ (s.taskFlow img 3 t).1) → Answers (.taskComplete tile d) s fun u =>
          let x : DoneTask := { stage := 3, index := t, tile := tile, flow := (s.taskFlow img 3 t).1, seq := (s.taskFlow img 3 t).2, outs := outs
                                replay := !outs.isEmpty && !s.unitGood 0 (s.phys tile) }
          (u.desc tile d).state = 0 ∧ u.world = s.world ∧
          if x.seq = s.nextSeq x.flow ∧ x.replay = false then u.jig.released = s.jig.released ++ [x] ∧ u.jig.held = s.jig.held
          else u.jig.held = s.jig.held ++ [x] ∧ u.jig.released = s.jig.released) ∧
      (∀ id t : Nat, (s.desc tile d).kind = .stage id t → (s.desc tile d).speculative = false → (s.desc tile d).epoch = epochOf s.frame.k →
        s.isDone id t = false → taskOutputs s img (s.desc tile d) = none → exec (.taskComplete tile d) s = .next s) ∧
      (∀ id t : Nat, (s.desc tile d).kind = .stage id t → Answers (.taskComplete tile d) s fun u =>
        u.world = s.world ∧ u.ledger = s.ledger ∧ u.solver = s.solver)) ∧
    (Answers .depthAnnounce s fun t => (∀ n < s.tiles, t.announced n = s.readyDepth n) ∧ t.jig.descs = s.jig.descs ∧ Changes s t [.jig] []) ∧
    (∀ d : Nat, d < 2048 → (s.desc tile d).state = 6 → Answers (.taskOffer tile d) s fun t =>
      let x := s.desc tile d
      (∀ e : Nat, s.freeDesc x.offer = some e → s.readyDepth x.offer + 2 ≤ s.readyDepth tile →
        (t.desc x.offer e).state = 3 ∧ (t.desc x.offer e).kind = x.kind ∧ (t.desc x.offer e).arg = x.arg ∧ (t.desc tile d).state = 0) ∧
      (s.freeDesc x.offer = none ∨ s.readyDepth tile < s.readyDepth x.offer + 2 → (t.desc tile d).state = 3 ∧ (t.desc tile d).kind = x.kind)) ∧
    (∀ p : Nat × Desc, (s.bound tile).find? (fun p => p.2.state == 5 && (match p.2.kind with | .slice _ => true | _ => false)) = some p →
      Answers (.sliceAbort tile) s fun t => (t.desc tile p.1).state = 3 ∧ t.fault.tokens = s.fault.tokens.erase (testToken 0 (s.phys tile)) ∧
        t.get Reg.JIG_TEST_ABORTS.COUNT = s.counted Reg.JIG_TEST_ABORTS.COUNT) ∧
    (∀ (d layer panel bank : Nat) (hbm : Bool), d < 2048 → layer < img.layerCount → panel < img.panelCount → bank < img.cacheBanks →
      (s.desc tile d).state = 5 → ((s.desc tile d).speculative = true ∨ s.world.active = false ∨ (layer, panel) ∈ s.world.final) →
      Answers (.panelReadDone tile d layer panel bank hbm) s fun t =>
        t.jig.cache = cacheFill img s.jig.cache { tile := tile, bank := bank, layer := layer, panel := panel, epoch := (s.desc tile d).epoch } ∧
        t.jig.descs = s.jig.descs ∧ Changes s t [.jig] []) ∧
    (∀ n : Nat, s.tiles ≤ n → (∀ a b, exec (.taskDispatch n a b) s = .fault .noSuchUnit) ∧ (∀ d, exec (.taskComplete n d) s = .fault .noSuchUnit) ∧
      (∀ d, exec (.taskOffer n d) s = .fault .noSuchUnit) ∧ exec (.sliceAbort n) s = .fault .noSuchUnit ∧
      ∀ d l p b h, exec (.panelReadDone n d l p b h) s = .fault .noSuchUnit)

/-- T_search ends the search of the frame: in QUOTA mode nothing is cut, and out of a drain frame the epoch D ahead becomes speculative; in WALL mode
tasks that are not complete are cut. A tail in WALL mode then leaves out and counts the lists that have not arrived. The merge begins once, on the
tail, with every list in order, on the fall-back path when the Ordering Unit is SUSPECT, held off or under test; another device sends its lists. Its
end on either path releases the selection of K entries, sentinels last, and a selection without a best entry is a failed check. An error repeats the
merge: a clean repeat is used, a failed one makes the unit SUSPECT and takes the fall-back path. (R31, R282, R290, R292, R294 to R298, R326, R502.) -/
def Obligations.SelectionIsMergedOnce : Prop :=
  ∀ (s : State) (img : Image), s.registersWf = true → s.cfg.image = some img →
    (s.frame.inFrame = true → s.frame.searchOver = false →
      let f := { s.frame with now := s.frameStartNs s.frame.k + 1000 * s.get Reg.FRAME_SEARCH_DEADLINE.SEARCH_US, searchOver := true }
      (img.quotaMode = true → Answers .searchDeadline s fun t => t.frame = f ∧ t.jig = s.jig ∧
        (s.frame.drain = true ∨ img.runahead = 0 ∨ s.flag Reg.FRAME_SPEC_CTL.ENABLE = false → t.spec = s.spec) ∧
        (s.frame.drain = false → img.runahead ≠ 0 → s.flag Reg.FRAME_SPEC_CTL.ENABLE = true →
          s.specEp (epochOf s.frame.k + BitVec.ofNat 32 img.runahead) = none → ∃ x : SpecEp, t.spec = { s.spec with epochs := s.spec.epochs ++ [x] } ∧
            x.epoch = epochOf s.frame.k + BitVec.ofNat 32 img.runahead ∧ x.base = epochOf s.frame.k ∧ x.records = [] ∧
            x.snap = predictSnap img img.runahead s.world.shift s.world.prev)) ∧
      (wall img = true → Answers .searchDeadline s fun t => t.world = s.world ∧ t.ledger = s.ledger ∧ t.solver = s.solver)) ∧
    (s.working = true → s.isTail = true → wall img = true → s.frame.searchOver = true → s.order.inputs = none → s.order.selection = none →
      s.order.remote.length < s.remoteExpected img → Answers .remoteListDeadline s fun t =>
        t.order = { s.order with remoteClosed := true } ∧ t.jig = { s.jig with sweepCut := true } ∧
        t.get Reg.TENON_LIST_LATE.COUNT =
          min (s.get Reg.TENON_LIST_LATE.COUNT + (s.remoteExpected img - s.order.remote.length)) (2 ^ Reg.TENON_LIST_LATE.COUNT.width - 1) ∧
        Changes s t [.order, .jig] [Reg.TENON_LIST_LATE.COUNT]) ∧
    (s.working = true → img.hasStage 6 = true → s.order.inputs = none → s.order.selection = none →
      (s.searchReleased img = true ∨ (wall img = true ∧ s.frame.searchOver = true)) →
      (s.isTail = true → (s.order.remoteClosed = true ∨ s.remoteExpected img ≤ s.order.remote.length) → Answers .mergeStart s fun t =>
        let fb := !s.unitGood 3 0 || s.order.heldOff || s.underTest 3 0
        t.order = { s.order with inputs := some (s.mergeInputs img), fallback := fb } ∧
        t.get Reg.ORDER_FALLBACK_COUNT.EPOCHS = (if fb then s.counted Reg.ORDER_FALLBACK_COUNT.EPOCHS else s.get Reg.ORDER_FALLBACK_COUNT.EPOCHS) ∧
        Changes s t [.order] [Reg.ORDER_FALLBACK_COUNT.EPOCHS]) ∧
      (s.isTail = false → exec .mergeStart s = .next (sendLists s img))) ∧
    (∀ (inputs : List PList) (c : Instr), s.working = true → s.order.inputs = some inputs →
      (c = .mergeDone ∧ s.order.fallback = false ∨ c = .fallbackMergeDone ∧ s.order.fallback = true ∧ (s.lowestGoodTile img 4).isSome = true) →
      let r := selectionOf img.topK (epochOf s.frame.k) inputs s.order.fallback s.order.repeated
      (r.2.1 = 0 ∨ s.fault.handling = none) → Answers c s fun t =>
        t.order.selection = some r.1 ∧ t.order.inputs = none ∧ t.order.lists = s.order.lists ∧ r.1.entries.length = img.topK ∧
        r.1.entries.drop r.1.n = List.replicate (img.topK - r.1.n) sentinel ∧
        (r.1.best = none → t.safety = { s.safety with noCandidate := true } ∧ t.solver = s.solver) ∧
        (∀ e : PEntry, r.1.best = some e → img.hasStage 7 = true → ∃ q : RefineRun, t.solver.run = some q ∧ q.id = e.id ∧ q.cand = none) ∧
        (0 < r.2.1 → ∃ h, t.fault.handling = some h ∧ h.info = mkError 3 0 1 12 0)) ∧
    (∀ (inputs : List PList) (mech : Nat), s.working = true → s.order.inputs = some inputs → s.order.fallback = false → s.fault.handling = none →
      (Answers (.orderError mech true) s fun t => t.order.repeated = true ∧ t.order.fallback = false ∧ t.order.inputs = some inputs ∧
        t.get Reg.ORDER_STATUS.REPEATED = 1 ∧ t.unitGood 3 0 = s.unitGood 3 0 ∧
        t.fault.handling = some { info := mkError 3 0 0 mech 1, time := s.frame.now.toNat, epoch := epochOf s.curK }) ∧
      (Answers (.orderError mech false) s fun t => t.order.fallback = true ∧ t.order.inputs = some inputs ∧ t.unitGood 3 0 = false ∧
        t.get Reg.ORDER_FALLBACK_COUNT.EPOCHS = s.counted Reg.ORDER_FALLBACK_COUNT.EPOCHS ∧
        t.fault.handling = some { info := mkError 3 0 1 mech 2, time := s.frame.now.toNat, epoch := epochOf s.curK }))

/-- When the re-expanded samples arrive, the run is set up from them with no iteration; an iteration replaces the iterate and is counted; in WALL mode the
stop time stops a run still iterating. The return of an ended run releases its output, keeps the time it took, and counts a deadline, a numeric
failure and a cold start. With the error handler free, an error in the refining engine charges that engine, and restarts the run from set-up on the
next good engine, or makes the two runs of a dual refine differ. The end of a recovery re-solve shows its result, and charges the examined engine only
for a result other than INFEASIBLE. The final sweep is made once. (R210, R305, R307, R311, R317, R319, R320.) -/
def Obligations.RefineRunsOnOneEngine : Prop :=
  ∀ (s : State) (img : Image), s.registersWf = true → s.cfg.image = some img →
    (∀ r : RefineRun, s.solver.run = some r → s.working = true →
      (∀ c : Cand, r.cand = none → reexpand s img r.id = some c → Answers .referenceArrival s fun t =>
        let p := setUp img s.solver.warm (epochOf s.frame.k) c.traj
        t.solver.used = some (p.2.isNone, p.2, p.1.words) ∧ Changes s t [.solver] [] ∧ ∃ q : RefineRun, t.solver.run = some q ∧ q.cand = some c.traj ∧
          q.id = r.id ∧ q.engine = r.engine ∧ q.cold = p.2.isNone ∧ q.start = p.1 ∧ q.cur = p.1 ∧ q.iterations = 0 ∧ q.converged = false) ∧
      (∀ tr : Traj, r.cand = some tr → r.over img = false →
        exec .solverIteration s = .next (s.setRun { r with cur := (iterate img tr r.cur).1, converged := (iterate img tr r.cur).2, iterations := r.iterations + 1 })) ∧
      (wall img = true → r.over img = false → exec .solverStopTime s = .next (s.setRun { r with stopped := true })) ∧
      (∀ (tr : Traj) (n : Nat) (differ : Bool), r.cand = some tr → r.over img = true → Answers (.refineReturn n differ) s fun t =>
        let r' := { r with differs := r.differs || (differ && r.second.isSome) }
        let out := refineResult img r' r.stopped (r.engine == 0xFE) tr
        t.solver.run = none ∧ t.solver.result = some out ∧ t.safety.refineStatus = out.status ∧
        t.get Reg.SOLVER_RETURN_NS.RETURN = n % 2 ^ Reg.SOLVER_RETURN_NS.RETURN.width ∧
        t.get Reg.SOLVER_DEADLINE_COUNT.COUNT =
          (if out.status = 2 then s.counted Reg.SOLVER_DEADLINE_COUNT.COUNT else s.get Reg.SOLVER_DEADLINE_COUNT.COUNT) ∧
        t.get Reg.SOLVER_NUMERIC_COUNT.COUNT =
          (if out.status = 3 then s.counted Reg.SOLVER_NUMERIC_COUNT.COUNT else s.get Reg.SOLVER_NUMERIC_COUNT.COUNT) ∧
        t.get Reg.SOLVER_COLD_COUNT.COUNT = (if r.cold then s.counted Reg.SOLVER_COLD_COUNT.COUNT else s.get Reg.SOLVER_COLD_COUNT.COUNT) ∧
        t.frame = { s.frame with now := s.frameStartNs s.frame.k + n } ∧ t.order = s.order ∧ t.world = s.world) ∧
      (∀ mech : Nat, r.engine < 4 → s.fault.handling = none → Answers (.solverEngineError mech) s fun t =>
        t.fault.handling = some { info := mkError 4 r.engine 1 mech 0, time := s.frame.now.toNat, epoch := epochOf s.curK } ∧
        (r.second.isSome = true → t.solver = { s.solver with run := some { r with differs := true } }) ∧
        (r.second = none → t.get Reg.SOLVER_STATUS.REPLAYED = 1 ∧ ∃ q : RefineRun, t.solver.run = some q ∧ q.replayed = true ∧ q.id = r.id ∧ q.cand = r.cand ∧
          q.engine = ((s.goodEngines.filter fun e => e != r.engine && !s.solver.testing.contains e && s.unitGood 4 e).head?).getD 0xFE ∧
          (r.cand.isSome = true → q.iterations = 0 ∧ q.converged = false)))) ∧
    (∀ (e charged : Nat), s.solver.diag = some (e, charged) →
      (∀ stage pivot : Nat, Answers (.diagResolveDone (.infeasible stage pivot)) s fun t => t.solver = { s.solver with diag := none } ∧
        t.get Reg.SOLVER_DIAG_STATUS.RESULT = 1 ∧ t.get Reg.SOLVER_STATUS.DIAG_BUSY = 0 ∧ t.fault = s.fault) ∧
      (Answers (.diagResolveDone .abandoned) s fun t => t.solver = { s.solver with diag := none } ∧
        t.get Reg.SOLVER_DIAG_STATUS.RESULT = 3 ∧ t.get Reg.SOLVER_STATUS.DIAG_BUSY = 0 ∧ t.fault = s.fault) ∧
      (charged < 4 → s.fault.handling = none → Answers (.diagResolveDone .other) s fun t => t.solver = { s.solver with diag := none } ∧
        t.get Reg.SOLVER_DIAG_STATUS.RESULT = 2 ∧
        t.fault.handling = some { info := mkError 4 charged 1 11 2, time := s.frame.now.toNat, epoch := epochOf s.curK })) ∧
    (∀ (tr : Traj) (tile : Nat), s.finalTraj img = some tr → s.lowestGoodTile img 4 = some tile → s.working = true → s.safety.finalSweep = none →
      s.frame.verdictDone = false → Answers .finalSweepDone s fun t =>
        t.safety = { s.safety with finalSweep := some (finalSweepOf (s.laneCtx img none tr)) } ∧ Changes s t [.jig, .safety] [])

/-- On the bus, an address latched with SP_CS_N low that names this board drives, with SP_OE_N low, the value of its slot and channel: of the old buffer
more than 2 ns before the swap edge, of the new one more than 2 ns after it, and of one of the two in between (which of them is free, log entry 11).
Another board address, SP_OE_N high, SP_CS_N high or pins that are not a bus drive nothing. The end of the swap pulse lowers SP_SWAP and changes
nothing else. (R424, R425, R429, R430.) -/
def Obligations.SetpointReadsComeFromOneBuffer : Prop :=
  ∀ (s : State) (a : Nat),
    (s.pins.spPhase = 1 → bits a 12 4 = s.get Reg.SAFE_SP_STRAPS.ADDRESS →
      (Answers (.busRead a true true 0) s fun t => t.safety.driven = some (bufferAt s.safety.back a) ∧ t.safety.latched = some (a % 2 ^ 16) ∧
        Changes s t [.safety] []) ∧
      (Answers (.busRead a true true 1) s fun t => t.safety.driven = some (bufferAt s.safety.front a) ∧ t.safety.latched = some (a % 2 ^ 16) ∧
        Changes s t [.safety] []) ∧
      (Answers (.busRead a true true 2) s fun t =>
        (t.safety.driven = some (bufferAt s.safety.back a) ∨ t.safety.driven = some (bufferAt s.safety.front a)) ∧
        t.safety.latched = some (a % 2 ^ 16) ∧ t.safety.front = s.safety.front ∧ t.safety.back = s.safety.back ∧ Changes s t [.safety, .fresh] [])) ∧
    (s.pins.spPhase = 1 → ∀ (oe : Bool) (e : Nat), bits a 12 4 ≠ s.get Reg.SAFE_SP_STRAPS.ADDRESS ∨ oe = false →
      Answers (.busRead a true oe e) s fun t => t.safety = { s.safety with latched := some (a % 2 ^ 16), driven := none }) ∧
    (∀ (cs oe : Bool) (e : Nat), s.pins.spPhase ≠ 1 ∨ cs = false → exec (.busRead a cs oe e) s = .next { s with safety := { s.safety with driven := none } }) ∧
    (∀ slot ch : Nat, slot < 64 → ch < 16 → bufferAt s.safety.front (a - a % 1024 + 16 * slot + ch) = sGet 0 (16 * slot + ch) s.safety.front) ∧
    exec .spSwapPulseEnd s = .next { s with pins := { s.pins with spSwap := false } }

/-- A grid update after the admission close of the frame's epoch, or on the frame grid while no frame runs, takes the safety copies up to that epoch into
the grid and keeps the later ones; while the copy path is down or the device sleeps nothing is updated. A pre-check begins once the grid is complete
and forms F(H) after an ACCEPT or ACCEPT_PREVIOUS; its end says whether H, F(H) and A pass. C is handed over with its fallback once, and the check of
each is recorded. (R381, R382, R384, R394, R398, R399, R407.) -/
def Obligations.TrySquareFollowsTheGrid : Prop :=
  ∀ (s : State) (img : Image), s.cfg.image = some img →
    (s.safety.copyPathDown = true ∨ s.power.asleep ≠ 0 → exec .gridUpdate s = .next s) ∧
    (s.safety.copyPathDown = false → s.power.asleep = 0 →
      (s.frame.inFrame = true → s.safety.gridDone = false → s.world.closed = true → s.world.epoch = epochOf s.frame.k → Answers .gridUpdate s fun t =>
        t.safety.gridDone = true ∧ t.safety.gridEpoch = some s.world.epoch ∧ t.safety.dropped = [] ∧
        t.safety.copies = (s.safety.copies.filter fun c => epochLater c.frame.epoch s.world.epoch) ∧ t.safety.front = s.safety.front ∧
        t.safety.held = s.safety.held ∧ t.safety.armed = s.safety.armed ∧ Changes s t [.safety] []) ∧
      (s.frame.inFrame = false → Answers .gridUpdate s fun t =>
        t.safety.gridDone = true ∧ t.safety.gridEpoch = some (epochOf (s.nextGrid img)) ∧ t.safety.preRunning = false ∧ t.safety.preH = none ∧
        t.safety.preA = none ∧ t.safety.copies = (s.safety.copies.filter fun c => epochLater c.frame.epoch (epochOf (s.nextGrid img))) ∧
        t.frame = { s.frame with now := max s.frame.now (s.frameStartNs (s.nextGrid img) + 1000 * img.admitCloseUs : Nat) } ∧
        Changes s t [.frame, .safety] [])) ∧
    (s.safety.gridDone = true → s.safety.preRunning = false → s.safety.preH = none → s.safety.preA = none → Answers .precheck s fun t =>
      t.safety = { s.safety with preRunning := true, heldFb := (match s.safety.held with
        | some h => if s.checksHeld then fallbackOf img h (s.frameStartNs (s.gridK + 2)) else none
        | none => none) } ∧ Changes s t [.safety] []) ∧
    (s.safety.preRunning = true → Answers .precheckDone s fun t => t.safety.preRunning = false ∧
      (∀ a : QTraj, s.safety.armed = some a →
        t.safety.preA = some (checkFallback s.safety img (s.frameStartNs s.gridK) (s.frameStartNs (s.gridK + 1)) a (s.frameStartNs (s.gridK + 1)))) ∧
      (s.safety.armed = none → t.safety.preA = none ∧ t.safety.armedOk = false) ∧
      (∀ h : QTraj, s.safety.held = some h → s.checksHeld = true →
        t.safety.preH = some (checkHeld s.safety img (s.frameStartNs s.gridK) (s.frameStartNs (s.gridK + 1)) h)) ∧
      (s.safety.held = none ∨ s.checksHeld = false → t.safety.preH = none) ∧ t.safety.held = s.safety.held ∧ Changes s t [.safety] []) ∧
    (∀ tr : Traj, s.finalTraj img = some tr → s.working = true → s.isTail = true → s.safety.cand = none → s.frame.verdictDone = false →
      Answers .verifyHandover s fun t => t.safety = { s.safety with
        cand := some (QTraj.ofTraj img (s.frameStartNs s.frame.k) tr)
        candFb := fallbackOf img (QTraj.ofTraj img (s.frameStartNs s.frame.k) tr) (s.frameStartNs (s.frame.k + 2)) } ∧ Changes s t [.safety] []) ∧
    (∀ c : QTraj, s.safety.cand = some c → s.frame.verdictDone = false →
      (Answers (.trySquareCheckDone false) s fun t =>
        let r := checkMain s.safety img (s.frameStartNs s.frame.k) (s.frameStartNs (s.frame.k + 1)) c
        t.safety = { s.safety with checkC := some r.1, lts := r.2 } ∧ Changes s t [.safety] []) ∧
      (Answers (.trySquareCheckDone true) s fun t => t.safety = { s.safety with checkF := some (match s.safety.candFb with
        | some f => checkFallback s.safety img (s.frameStartNs s.frame.k) (s.frameStartNs (s.frame.k + 1)) f (s.frameStartNs (s.frame.k + 2))
        | none => false) } ∧ Changes s t [.safety] []))

/-- At the verdict time a frame of the tail whose inputs are not complete is late, counted, and its work discarded. The verdict of a late frame, or of one
whose inputs are complete, is STOP on a permanent island fault, SAFE_STATE on a row 2 event, ACCEPT with no failure condition, SAFE_STATE when the
disagreements with this frame reach THRESHOLD, ACCEPT_PREVIOUS, FALLBACK or SAFE_STATE as the pre-checks allow; it is shown with its reason. In a
published frame ACCEPT makes C held and F(C) armed, ACCEPT_PREVIOUS arms F(H), FALLBACK and STOP clear H, SAFE_STATE clears H and the window; a shadow
frame with ACCEPT changes none of them. (R35, R400, R401, R403, R404; that a shadow frame does not reach THRESHOLD is the model's reading, log entry
6.) -/
def Obligations.VerdictFollowsItsTable : Prop :=
  ∀ (s : State) (img : Image), s.registersWf = true → s.cfg.image = some img → s.frame.inFrame = true → s.frame.verdictDone = false → s.isTail = true →
    (s.frame.late = false → Answers .verdictTime s fun t =>
      let now : Int := s.frameStartNs s.frame.k + 1000 * (s.get Reg.FRAME_SEARCH_DEADLINE.SEARCH_US + s.get Reg.FRAME_REFINE_BUDGET.REFINE_US +
        s.get Reg.FRAME_VERIFY_BUDGET.VERIFY_US : Nat) - 4000
      t.frame.now = now ∧
      if (closeMain { s with frame := { s.frame with now := now } } img).inputsComplete img then t.frame.late = false ∧ RegsSame s t []
      else t.frame.late = true ∧ t.frame.discarded = true ∧ t.get Reg.FRAME_STATUS.LAST_LATE = 1 ∧
        t.get Reg.FRAME_LATE_COUNT.LATE = s.counted Reg.FRAME_LATE_COUNT.LATE) ∧
    (let s1 := if s.frame.late then s else closeMain s img
     s.frame.late = true ∨ s1.inputsComplete img = true → Answers .verdict s fun t =>
      let fails := failBits s1 img
      let v := if s.safety.permanent then 5 else if s.safety.rowTwo then 4 else if fails = 0 then 1
        else if s.frame.shadow = false ∧ img.threshold ≤ (s.safety.window.take 15).count true + 1 then 4
        else if (s.safety.prevVerdict = 1 ∨ s.safety.prevVerdict = 2) ∧ s.safety.preH = some true ∧ s.safety.preFH = some true then 2
        else if s.safety.preA = some true then 3 else 4
      t.get Reg.SAFE_VERDICT.VERDICT = v ∧ t.get Reg.SAFE_VERDICT_EPOCH.EPOCH = s.frame.k % 2 ^ 32 ∧ t.safety.verdict = some v ∧
      t.get Reg.SAFE_REASON.REASON = fails % 2 ^ Reg.SAFE_REASON.REASON.width ∧ t.get Reg.SAFE_VERDICT.SHADOW = bit s.frame.shadow ∧
      (s.frame.shadow = true → v = 1 → t.safety.held = s.safety.held ∧ t.safety.armed = s.safety.armed ∧ t.safety.window = s.safety.window ∧
        t.safety.prevVerdict = s.safety.prevVerdict ∧ t.frame.running = s.frame.running) ∧
      (s.frame.shadow = false →
        (v = 1 → t.safety.held = s.safety.cand ∧ t.safety.armed = s.safety.candFb ∧ t.get Reg.SAFE_MODE.MODE = modeNormal) ∧
        (v = 2 → t.safety.held = s.safety.held ∧ t.safety.armed = s.safety.heldFb ∧ t.get Reg.SAFE_MODE.MODE = modeNormal) ∧
        (v = 3 → t.safety.held = none ∧ t.safety.armed = s.safety.armed ∧
          t.get Reg.SAFE_MODE.MODE = (if s.get Reg.SAFE_MODE.MODE = modeHold then modeHold else modeFallback)) ∧
        (v = 4 → t.safety.held = none ∧ t.safety.armed = s.safety.armed ∧ t.safety.window = [] ∧ t.pins.safeState = true ∧
          t.get Reg.SAFE_MODE.MODE = (if s.armedServes then modeSafe else modeHold) ∧ t.frame.running = false) ∧
        (v = 5 → t.safety.held = none ∧ t.get Reg.SAFE_MODE.MODE = modeHold) ∧
        (v ≠ 4 → t.safety.window = (decide (fails ≠ 0) :: s.safety.window).take 16 ∧ t.safety.prevVerdict = v)))

/-- A frame whose verdict is issued, or of a device upstream of the tail, commits once, at T_commit, and its frame digest is the last one. With debug
locked, out of a device pair, a published ACCEPT swaps in the table of the held trajectory with the next generation, keeps the old table in the back
buffer and counts the swap; FALLBACK out of terminal hold swaps in that of the armed one; a shadow frame or another device leaves the tables.
Published ACCEPTs in a row are counted to two. While the island serves, it swaps in a table of A while A passed its pre-check and covers 63 slots, and
terminal hold with STOP and FAULT_N otherwise. (R35, R82, R88, R406, R408, R409, R427, R429, R431.) -/
def Obligations.CommitPublishesTheVerdict : Prop :=
  ∀ (s : State) (img : Image), s.registersWf = true → s.cfg.image = some img →
    (s.frame.inFrame = true → s.frame.committed = false → (s.isTail = true → s.frame.verdictDone = true) →
      (Answers .commit s fun t => t.frame.committed = true ∧ t.frame.now = s.commitNs s.frame.k ∧ ∃ d, t.digest.prev = some (epochOf s.frame.k, d)) ∧
      (s.get Reg.SAFE_SP_STRAPS.PAIR = 0 →
        (s.isTail = false ∨ s.frame.shadow = true → Answers .commit s fun t =>
          t.safety.front = s.safety.front ∧ t.safety.back = s.safety.back ∧ t.safety.generation = s.safety.generation ∧
          t.frame.inFrame = s.frame.running ∧ t.get Reg.CONFIG_SLOT_ACTIVE.ACCEPTS = s.get Reg.CONFIG_SLOT_ACTIVE.ACCEPTS) ∧
        (∀ c : QTraj, s.isTail = true → s.frame.shadow = false → s.safety.verdict = some 1 → s.safety.held = some c → s.unlocked = false →
          Answers .commit s fun t =>
            t.safety.front = (trajTable img { s.tableHead s.frame.k 1 false false with fault := false } c).1 ∧ t.safety.back = s.safety.front ∧
            t.safety.generation = nextGeneration s.safety.generation ∧ t.pins.faultN = true ∧ t.pins.heartbeat = !s.pins.heartbeat ∧
            t.get Reg.SAFE_SP_SWAPS.COUNT = s.counted Reg.SAFE_SP_SWAPS.COUNT ∧
            t.get Reg.CONFIG_SLOT_ACTIVE.ACCEPTS = min 2 (s.get Reg.CONFIG_SLOT_ACTIVE.ACCEPTS + 1) ∧ t.frame.inFrame = s.frame.running) ∧
        (∀ a : QTraj, s.isTail = true → s.frame.shadow = false → s.safety.verdict = some 3 → s.safety.armed = some a →
          s.get Reg.SAFE_MODE.MODE ≠ modeHold → s.unlocked = false → Answers .commit s fun t =>
            t.safety.front = (trajTable img { s.tableHead s.frame.k 3 false false with fault := false } a).1 ∧ t.safety.back = s.safety.front ∧
            t.get Reg.CONFIG_SLOT_ACTIVE.ACCEPTS = 0))) ∧
    (s.islandServes = true → s.safety.permanent = false → s.unlocked = false → Answers .islandTableGeneration s fun t =>
      let commit := 1000 * (s.get Reg.FRAME_SEARCH_DEADLINE.SEARCH_US + s.get Reg.FRAME_REFINE_BUDGET.REFINE_US + s.get Reg.FRAME_VERIFY_BUDGET.VERIFY_US)
      let k := s.nextIsland commit
      t.safety.back = s.safety.front ∧ t.safety.generation = nextGeneration s.safety.generation ∧
      t.get Reg.SAFE_SP_SWAPS.COUNT = s.counted Reg.SAFE_SP_SWAPS.COUNT ∧
      (∀ a : QTraj, s.get Reg.SAFE_MODE.MODE ≠ modeHold → s.safety.armed = some a → s.safety.armedOk = true →
        ((s.frameStartNs (k + 1) : Nat) : Int) + 63000 * img.slotPeriodUs ≤ a.endAt →
        t.safety.front = (trajTable img (s.tableHead k (if s.get Reg.SAFE_MODE.MODE = modeSwitch then 3 else 4) true false) a).1 ∧
        t.get Reg.SAFE_MODE.MODE = s.get Reg.SAFE_MODE.MODE ∧ t.pins.faultN = s.pins.faultN) ∧
      (s.get Reg.SAFE_MODE.MODE = modeHold ∨ s.safety.armed = none ∨ s.safety.armedOk = false ∨
          (∃ a, s.safety.armed = some a ∧ a.endAt < ((s.frameStartNs (k + 1) : Nat) : Int) + 63000 * img.slotPeriodUs) →
        sGet 0 5 t.safety.front = 5 ∧ t.get Reg.SAFE_MODE.MODE = modeHold ∧ t.pins.faultN = false))

/-- On a tail out of a device pair, the commit of a published ACCEPT that is the second in a row, of an image whose sequence is greater than the rollback
floor, makes that sequence the floor; the other slot is RETIRED if it is COMPLETE with a lower sequence, and keeps its bytes; the slot that runs
stays. The first ACCEPT, another verdict, and a shadow frame leave the floor. (R80, R82.) -/
def Obligations.FloorAdvancesAtTwoAccepts : Prop :=
  ∀ (s : State) (img : Image), s.registersWf = true → s.cfg.image = some img → s.frame.inFrame = true → s.frame.committed = false →
    s.get Reg.SAFE_SP_STRAPS.PAIR = 0 → s.isTail = true → s.frame.verdictDone = true →
    (let seq := s.get64 Reg.CONFIG_ACTIVE_SEQ_LO.SEQ_LO Reg.CONFIG_ACTIVE_SEQ_HI.SEQ_HI
     let other := 1 - s.get Reg.CONFIG_SLOT_ACTIVE.SLOT
     s.frame.shadow = false → s.safety.verdict = some 1 → s.get Reg.CONFIG_SLOT_ACTIVE.ACCEPTS = 1 → s.floor < seq →
      s.get Reg.CONFIG_SLOT_ACTIVE.SLOT < 2 → Answers .commit s fun t =>
        t.floor = seq ∧ t.get64 Reg.CONFIG_FLOOR_LO.FLOOR_LO Reg.CONFIG_FLOOR_HI.FLOOR_HI = seq % 2 ^ 64 ∧
        t.get Reg.CONFIG_SLOT_ACTIVE.ACCEPTS = 2 ∧
        t.chestSlot (s.get Reg.CONFIG_SLOT_ACTIVE.SLOT) = s.chestSlot (s.get Reg.CONFIG_SLOT_ACTIVE.SLOT) ∧
        t.chestSlot other = (if (s.chestSlot other).state = 0xA5 ∧ (s.chestSlot other).sequence < seq then { s.chestSlot other with state := 0 }
          else s.chestSlot other)) ∧
    (s.frame.shadow = true ∨ s.safety.verdict ≠ some 1 ∨ s.get Reg.CONFIG_SLOT_ACTIVE.ACCEPTS ≠ 1 → Answers .commit s fun t => t.floor = s.floor)

/-- From an Owner while an image runs and the island has no permanent fault, ENTER leaves the island serving SAFE_STATE, or terminal hold where A is
missing or failed its check; where the island did not serve either before, the entry is counted, H and the window are cleared, the SAFE_STATE pin is
asserted, frames stop, a restart begins, and the verdict shown is SAFE_STATE or STOP. From any other source nothing changes but the access status,
which is ACCESS_DENIED. -/
def Obligations.EnterIsTakenFromOwnersOnly : Prop :=
  ∀ (src : Source) (s : State), s.registersWf = true →
    (s.isOwner src = true → s.cfg.image.isSome = true → s.safety.permanent = false → Answers (.safeEnter src) s fun t => t.access = 0 ∧
      (t.get Reg.SAFE_MODE.MODE = modeSafe ∨ t.get Reg.SAFE_MODE.MODE = modeHold) ∧
      (s.get Reg.SAFE_MODE.MODE ≠ modeSafe → s.get Reg.SAFE_MODE.MODE ≠ modeHold →
        t.get Reg.SAFE_MODE.MODE = (if s.armedServes then modeSafe else modeHold) ∧
        t.get Reg.SAFE_VERDICT.VERDICT = (if s.armedServes then 4 else 5) ∧ t.get Reg.SAFE_VERDICT_EPOCH.EPOCH = s.curK % 2 ^ 32 ∧
        t.get Reg.SAFE_ENTRY_COUNT.COUNT = s.counted Reg.SAFE_ENTRY_COUNT.COUNT ∧ t.safety.held = none ∧ t.safety.armed = s.safety.armed ∧
        t.safety.window = [] ∧ t.pins.safeState = true ∧ t.frame.inFrame = false ∧ t.frame.running = false ∧ t.spec.epochs = [] ∧
        t.safety.restart = (if s.get Reg.SAFE_SP_STRAPS.WARM = 1 then 1 else 3))) ∧
    (s.isOwner src = false → exec (.safeEnter src) s = .next { s with access := 1 })

/-- A warm restart that does not complete in time has failed: the restart is counted, and the next one is warm once more within a SAFE_STATE and cold
after that. With the error handler free, a lockstep mismatch with a clean repeat is CORRECTED; a second failure, or a deviating checker clock, is a
permanent island fault: terminal hold, STOP and FAULT_N. A change of WD_IN starts its count again; a timeout with WD_ENABLE, out of sleep, is a FATAL
error of mechanism 9 and, with no restart or start under way, enters SAFE_STATE. (R405, R407, R411, R412, Table 19-2.) -/
def Obligations.IslandFaultsAndRestarts : Prop :=
  ∀ (s : State), s.registersWf = true →
    (s.safety.restart ≠ 1 → exec .warmRestartTimeout s = .next s) ∧
    (s.safety.restart = 1 → s.sec.boot = none → Answers .warmRestartTimeout s fun t =>
      let n := min 3 (s.get Reg.SAFE_MODE.RESTARTS + 1)
      t.get Reg.SAFE_MODE.RESTARTS = n ∧ t.get Reg.SEC_BOOT_ATTEMPTS.WARM_FAILS = n ∧
      t.safety.restart = (if n < 2 ∧ s.get Reg.SAFE_SP_STRAPS.WARM = 1 then 1 else 3) ∧
      t.get Reg.SEC_RESTART_COUNT.COUNT = s.counted Reg.SEC_RESTART_COUNT.COUNT ∧ t.frame.running = false ∧ t.safety.front = s.safety.front) ∧
    (s.fault.handling = none →
      (Answers (.lockstepMismatch false) s fun t => t.safety = { s.safety with repeated := true } ∧
        t.fault.handling = some { info := mkError 9 0 0 7 1, time := s.frame.now.toNat, epoch := epochOf s.curK }) ∧
      (∀ c : Instr, c ∈ [Instr.lockstepMismatch true, .checkerClockDeviation] → Answers c s fun t => t.safety.permanent = true ∧ t.safety.held = none ∧
        t.get Reg.SAFE_MODE.MODE = modeHold ∧ t.get Reg.SAFE_MODE.ISLAND_FAULT = 1 ∧ t.pins.faultN = false ∧ t.unitGood 9 0 = false ∧
        (s.cfg.image.isSome = true → s.unlocked = false → sGet 0 5 t.safety.front = 5 ∧ t.safety.back = s.safety.front))) ∧
    (∀ img : Image, s.cfg.image = some img → img.wdEnable = true → s.power.asleep = 0 → s.get Reg.SAFE_MODE.MODE ≠ 0 → s.fault.handling = none →
      Answers .wdInTimeout s fun t => t.get Reg.SAFE_MODE.WD_EXPIRED = 1 ∧ t.get Reg.FAULT_LAST_FATAL.MECHANISM = 9 ∧
        t.get Reg.FAULT_LAST_FATAL.CLASS = 9 ∧
        (s.safety.restart = 0 → s.sec.boot = none → s.safety.permanent = false →
          t.get Reg.SAFE_MODE.MODE = modeSafe ∨ t.get Reg.SAFE_MODE.MODE = modeHold)) ∧
    (Answers .wdInChange s fun t => t.pins = { s.pins with wdIn := !s.pins.wdIn } ∧ t.safety = { s.safety with wdSince := s.frame.now } ∧
      Changes s t [.safety, .pins] [])

/-- On a link that is up, a bad flit is counted and not taken; it and an intact flit out of sequence send one NAK for the episode, with the last sequence
accepted. An intact sequenced flit with the next expected sequence is taken: the expected sequence advances, the episode is over, and an
acknowledgement is due. An intact flit returns credits to their pool, at most its size. A NAK acknowledges up to its sequence and replays what is
left; a replay timeout replays everything outstanding; each episode is counted, and the 16th without progress asks for a retrain. An idle timer sends
the acknowledgement that is due in an IDLE. A link the part does not have stops by name. (R482, R484 to R487, R490.) -/
def Obligations.FlitsAreTakenInSequence : Prop :=
  ∀ (s : State) (l : Nat), s.registersWf = true → s.tablesWf = true →
    (s.hasLink l = false → (∀ f, exec (.flitReceive l f) s = .fault .noSuchUnit) ∧ (∀ a, exec (.nak l a) s = .fault .noSuchUnit) ∧
      exec (.replayTimeout l) s = .fault .noSuchUnit ∧ exec (.idleFlitTimer l) s = .fault .noSuchUnit) ∧
    (s.hasLink l = true →
      let x := s.link l
      (∀ f : Flit, s.linkUp l = false → exec (.flitReceive l f) s = .next s) ∧
      (s.linkUp l = true →
        (∀ f : Flit, flitBad f = true → Answers (.flitReceive l f) s fun t =>
          t.get (Reg.TENON_LINK_CRC_ERR.COUNT l) = s.counted (Reg.TENON_LINK_CRC_ERR.COUNT l) ∧
          (t.link l).rxSeq = x.rxSeq ∧ (t.link l).outstanding = x.outstanding ∧ (t.link l).nakSent = true ∧
          (t.link l).control = (if x.nakSent then x.control else (0x3E, x.txSeq, (x.rxSeq + 1023) % 1024) :: x.control)) ∧
        (∀ f : Flit, flitBad f = false → (typeVc f.ty).isSome = true → Answers (.flitReceive l f) s fun t =>
          if f.seq = x.rxSeq then (t.link l).rxSeq = (x.rxSeq + 1) % 1024 ∧ (t.link l).nakSent = false ∧ (t.link l).ackDue = true ∧ (t.link l).control = x.control
          else (t.link l).rxSeq = x.rxSeq ∧ (t.link l).nakSent = true ∧
            if x.nakSent then (t.link l).control = x.control else ∃ n, (t.link l).control = (0x3E, n, (x.rxSeq + 1023) % 1024) :: x.control) ∧
        (∀ f : Flit, flitBad f = false → f.pool ≤ 4 → x.waiting = [] → s.tenon.outputsSent = none → Answers (.flitReceive l f) s fun t =>
          t.get (creditField l f.pool) = min (s.get (creditField l f.pool) + f.count) (if f.pool = 4 then 160 else 8)) ∧
        (∀ ack i : Nat, (x.outstanding.findIdx? fun o => o.seq == ack) = some i → x.waiting = [] → s.tenon.outputsSent = none →
          Answers (.nak l ack) s fun t => (t.link l).outstanding = x.outstanding.drop (i + 1) ∧ (t.link l).txSeq = x.txSeq ∧
            (x.outstanding.length = i + 1 → (t.link l).episodes = 0 ∧ RegsSame s t []) ∧
            (i + 1 < x.outstanding.length → (t.link l).episodes = 1 ∧
              t.get (Reg.TENON_LINK_REPLAYS.COUNT l) = s.counted (Reg.TENON_LINK_REPLAYS.COUNT l))) ∧
        (∀ (ack : Nat) (c : Instr), (c = .nak l ack ∧ (x.outstanding.findIdx? fun o => o.seq == ack) = none ∨ c = .replayTimeout l) →
          (x.outstanding = [] → exec c s = .next s) ∧
          (x.outstanding ≠ [] → Answers c s fun t =>
            t.get (Reg.TENON_LINK_REPLAYS.COUNT l) = s.counted (Reg.TENON_LINK_REPLAYS.COUNT l) ∧ (t.link l).outstanding = x.outstanding ∧
            (x.episodes < 15 → (t.link l).episodes = x.episodes + 1 ∧ t.get (Reg.TENON_LINK_STATUS.STATE l) = 2) ∧
            (15 ≤ x.episodes → x.retraining = false → x.lost = false →
              if (s.fault.tokens.any fun h => conflicts { act := 6, cls := 0, idx := l } h) then
                t.get (Reg.TENON_LINK_STATUS.STATE l) = 3 ∧ (t.link l).retrainWait = true
              else t.get (Reg.TENON_LINK_STATUS.STATE l) = 1 ∧ (t.link l).retraining = true))) ∧
        (x.ackDue = true → Answers (.idleFlitTimer l) s fun t =>
          t.link l = { x with ackDue := false, creditsDue := x.creditsDue - 63, control := (0, x.txSeq, (x.rxSeq + 1023) % 1024) :: x.control } ∧
          Changes s t [.tenon] [])) ∧
      (x.ackDue = false ∨ s.linkUp l = false → exec (.idleFlitTimer l) s = .next s))

/-- A loss of lane lock, and the retry of a refused retrain, ask for the retrain token: granted, the link trains and the retrain is counted, its replay
buffer kept; refused, it shows RETRAIN_WAIT and the refusal is counted. A trained link is UP with its latency: afresh it starts at sequence 0 with 192
credits; after a retrain it keeps what was in flight, and the retrain is a corrected error with a clamp owed. A link that does not come back is lost:
its buffers are discarded, the chain is to be enumerated again, and it is a contained error. A link the part does not have stops by name. (R480, R487,
R488, R490, R504, R507, R546.) -/
def Obligations.LinksRetrainAndAreLost : Prop :=
  ∀ (s : State) (l : Nat), s.registersWf = true → s.tablesWf = true →
    (s.hasLink l = false → exec (.linkRetrain l) s = .fault .noSuchUnit ∧ exec (.retrainTokenRetry l) s = .fault .noSuchUnit ∧
      (∀ n, exec (.linkTrained l n) s = .fault .noSuchUnit) ∧ exec (.linkLoss l) s = .fault .noSuchUnit) ∧
    (s.hasLink l = true →
      let x := s.link l
      let tok : Token := { act := 6, cls := 0, idx := l }
      (s.get (Reg.TENON_LINK_STATUS.STATE l) ≠ 2 → exec (.linkRetrain l) s = .next s) ∧
      (x.retrainWait = false → exec (.retrainTokenRetry l) s = .next s) ∧
      (∀ c : Instr, (c = .linkRetrain l ∧ s.get (Reg.TENON_LINK_STATUS.STATE l) = 2 ∨ c = .retrainTokenRetry l ∧ x.retrainWait = true) →
        x.retraining = false → x.lost = false →
        (s.fault.tokens.find? (conflicts tok) = none → Answers c s fun t =>
          t.get (Reg.TENON_LINK_STATUS.STATE l) = 1 ∧ t.get (Reg.TENON_LINK_RETRAINS.COUNT l) = s.counted (Reg.TENON_LINK_RETRAINS.COUNT l) ∧
          t.fault = { s.fault with tokens := s.fault.tokens ++ [tok] } ∧
          t.link l = { x with retrainWait := false, retraining := true, episodes := 0, uncorr := [], downAt := some s.frame.now }) ∧
        (∀ h : Token, s.fault.tokens.find? (conflicts tok) = some h → Answers c s fun t =>
          t.get (Reg.TENON_LINK_STATUS.STATE l) = 3 ∧ t.get Reg.FAULT_MAINT_REFUSED.COUNT = s.counted Reg.FAULT_MAINT_REFUSED.COUNT ∧
          t.get Reg.FAULT_MAINT_LAST.REQUESTED = 6 ∧ t.fault = s.fault ∧
          (t.link l).retrainWait = true ∧ (t.link l).outstanding = x.outstanding ∧ (t.link l).retraining = false)) ∧
      (∀ n : Nat,
        (s.unitUsable 6 l = false ∨ s.get (Reg.TENON_LINK_CTL.ENABLE l) = 0 ∨ s.get Reg.SAFE_SP_STRAPS.REF = 1 → exec (.linkTrained l n) s = .next s) ∧
        (s.unitUsable 6 l = true → s.get (Reg.TENON_LINK_CTL.ENABLE l) ≠ 0 → s.get Reg.SAFE_SP_STRAPS.REF ≠ 1 →
          (x.retraining = false → Answers (.linkTrained l n) s fun t =>
            t.get (Reg.TENON_LINK_STATUS.STATE l) = 2 ∧ t.get (Reg.TENON_LINK_LAT_PS.LATENCY l) = n % 2 ^ 32 ∧
            (s.isHead = false ∨ s.get Reg.TENON_STATUS.STATE ≠ 4 ∨ s.tenon.clampDue = false →
              t.link l = {} ∧ (∀ p < 4, t.get (creditField l p) = 8) ∧ t.get (creditField l 4) = 160 ∧ t.fault = s.fault)) ∧
          (x.retraining = true → x.episodes < 15 → s.fault.handling = none → Answers (.linkTrained l n) s fun t =>
            t.get (Reg.TENON_LINK_STATUS.STATE l) = 2 ∧ t.get (Reg.TENON_LINK_LAT_PS.LATENCY l) = n % 2 ^ 32 ∧
            (t.link l).retraining = false ∧ (t.link l).downAt = none ∧ (t.link l).rxSeq = x.rxSeq ∧ x.outstanding <+: (t.link l).outstanding ∧
            t.fault.handling = some { info := mkError 6 l 0 8 0, time := s.frame.now.toNat, epoch := epochOf s.curK } ∧
            (s.isHead = false ∨ s.get Reg.TENON_STATUS.STATE ≠ 4 → t.tenon.clampDue = true ∧ t.fault.tokens = s.fault.tokens.erase tok)))) ∧
      (x.lost = true ∨ s.linkUp l = true ∨ x.downAt = none → exec (.linkLoss l) s = .next s) ∧
      (x.lost = false → s.linkUp l = false → x.downAt.isSome = true → s.fault.handling = none → Answers (.linkLoss l) s fun t =>
        t.get (Reg.TENON_LINK_STATUS.STATE l) = 0 ∧ t.tenon.reenumerate = true ∧
        t.link l = { x with outstanding := [], waiting := [], lost := true, retraining := false, retrainWait := false } ∧
        t.fault.handling = some { info := mkError 6 l 1 8 0, time := s.frame.now.toNat, epoch := epochOf s.curK } ∧
        t.fault.tokens = (if x.retraining then s.fault.tokens.erase tok else s.fault.tokens)))

/-- A block or a list for another device goes on along its route, a block as 18 flits. A block whose dowel fails, a list or a world frame whose CRC or
epoch fails, and a SQUASH condemn the epoch: a SQUASH with its cause goes downstream at once, and the work of the epoch is discarded. A good block is
used in its speculative epoch, or in the frame in progress, in place of an earlier copy; a good list waits for the merge in order of chain position
and tile; a good world frame is admitted on every device but the head. A CONFIRM is counted for its link and, past the tail's verdict, as late; a
device whose conditions are met then confirms downstream. A link the part does not have stops by name. (R267, R491, R498 to R502.) -/
def Obligations.MessagesAreUsedOrCondemnTheirEpoch : Prop :=
  ∀ (s : State), s.registersWf = true → s.tablesWf = true →
    (∀ (l : Nat), s.hasLink l = false → (∀ e, exec (.confirm l e) s = .fault .noSuchUnit) ∧ (∀ e c, exec (.squashToken l e c) s = .fault .noSuchUnit) ∧
      ∀ m : Message, m.link = l → exec (.blockMessage m) s = .fault .noSuchUnit ∧ exec (.recordMessage m) s = .fault .noSuchUnit ∧
        ∀ n, exec (.worldMessage m n) s = .fault .noSuchUnit) ∧
    (∀ (c : Instr) (e : Epoch) (cause : Nat), s.inChain = true → s.tenon.condemned.contains e = false →
      (∃ m : Message, m.epoch = e ∧ s.hasLink m.link = true ∧ (m.intact = false ∨ m.agrees = false) ∧ cause = 1 ∧
        (c = .blockMessage m ∧ m.dest = s.device ∧ s.cfg.image.isSome = true ∨ c = .recordMessage m ∧ m.dest = s.device ∨ ∃ n, c = .worldMessage m n)) ∨
      (∃ l k, c = .squashToken l e k ∧ s.hasLink l = true ∧ cause = 2) → Answers c s fun t =>
        t.tenon.condemned = e :: s.tenon.condemned.take 15 ∧ t.get Reg.TENON_SQUASH_SENT.COUNT = s.counted Reg.TENON_SQUASH_SENT.COUNT ∧
        t.spec = { s.spec with epochs := s.spec.epochs.filter fun x => x.epoch != e } ∧ t.world = s.world ∧ t.order = s.order ∧
        (∀ d : Nat, s.tenon.down = some d → (s.link d).lost = false →
          t.carries d (tokenFlit (tokenBytes 2 0 s.device (s.get Reg.TENON_DEVICES.TAIL) e cause 0))) ∧
        (if s.frame.inFrame = true ∧ epochOf s.frame.k = e ∧ s.frame.committed = false then t.frame.discarded = true ∧ t.safety.confirmMissing = true
          else t.frame.discarded = s.frame.discarded ∧ t.safety = s.safety)) ∧
    (∀ (l : Nat) (e : Epoch) (k : Nat), s.hasLink l = true →
      Answers (.squashToken l e k) s fun t => t.get Reg.TENON_SQUASH_RECEIVED.COUNT = s.counted Reg.TENON_SQUASH_RECEIVED.COUNT ∧
        (s.inChain = false ∨ s.tenon.condemned.contains e = true → Changes s t [] [Reg.TENON_SQUASH_RECEIVED.COUNT])) ∧
    (∀ m : Message, s.hasLink m.link = true →
      (m.dest ≠ s.device →
        let fs := messageFlits 1 0 (epochLo m.epoch) (msgExtra m) (routeHeader m.dest m.source 1 4096 m.epoch ++ m.body)
        (m.body.length = 4112 → fs.length = 18) ∧
        exec (.blockMessage m) s = .next (match s.routeTo m.dest with
          | some k => sendMessage s k fs
          | none => s) ∧
        (m.intact = true → exec (.recordMessage m) s = .next (match s.routeTo m.dest with
          | some k => sendMessage s k (crcMessage 2 0 m.dest m.source m.epoch (msgExtra m) m.body)
          | none => s)) ∧
        (m.intact = false → Answers (.recordMessage m) s fun t => t.order = s.order ∧ t.spec = s.spec ∧ t.fresh = s.fresh + 1)) ∧
      (∀ (img : Image) (data : List Byte) (id : Nat), m.dest = s.device → s.cfg.image = some img → m.intact = true → m.agrees = true →
        data = (m.body.drop 16).take 4096 → data.length = 4096 → id = u32 m.body 0 → id < 2 ^ 31 → u64 m.body 8 = (dowel data id m.epoch.toNat).toNat →
        let made := fun (o : Nat) => img.opField o 0xA 2 == id / 2 ^ 19 % 2 ^ 12
        ((List.range img.opCount).find? made = none → exec (.blockMessage m) s = .next s) ∧
        (∀ o : Nat, (List.range img.opCount).find? made = some o →
          (∀ y : SpecEp, s.specEp m.epoch = some y → Answers (.blockMessage m) s fun t =>
            ∃ b : Block, b.op = o ∧ b.tensor = id / 2 ^ 19 % 2 ^ 12 ∧ b.index = id % 2 ^ 19 ∧ b.data = data ∧
              t.spec = (s.setSpec { y with blocks := putBlock b y.blocks }).spec ∧ t.jig = s.jig) ∧
          (s.specEp m.epoch = none → m.epoch = epochOf s.frame.k → s.frame.inFrame = true → Answers (.blockMessage m) s fun t =>
            ∃ b : Block, b.op = o ∧ b.tensor = id / 2 ^ 19 % 2 ^ 12 ∧ b.index = id % 2 ^ 19 ∧ b.data = data ∧
              t.jig = { s.jig with received := putBlock b s.jig.received } ∧ Changes s t [.jig, .fresh] []) ∧
          (s.specEp m.epoch = none → m.epoch ≠ epochOf s.frame.k ∨ s.frame.inFrame = false → exec (.blockMessage m) s = .next s))) ∧
      (m.dest = s.device → m.intact = true → m.agrees = true →
        (m.epoch ≠ epochOf s.frame.k ∨ s.frame.inFrame = false ∨ s.order.remoteClosed = true ∨ s.order.inputs.isSome = true → exec (.recordMessage m) s = .next s) ∧
        (m.epoch = epochOf s.frame.k → s.frame.inFrame = true → s.order.remoteClosed = false → s.order.inputs = none → Answers (.recordMessage m) s fun t =>
          let p := s.positionOf m.source
          let list := listFrom m.body
          (∀ x, x ∈ t.order.remote ↔ x = (p, list) ∨ (x ∈ s.order.remote ∧ ¬(x.1 = p ∧ x.2.src = list.src))) ∧
          (s.order.remote.Pairwise (fun a b => a.1 < b.1 ∨ a.1 = b.1 ∧ a.2.src < b.2.src) →
            t.order.remote.Pairwise (fun a b => a.1 < b.1 ∨ a.1 = b.1 ∧ a.2.src < b.2.src)) ∧ Changes s t [.order] [])) ∧
      (∀ n : Nat, m.intact = true → m.agrees = true →
        let s0 := { s with frame := { s.frame with now := max s.frame.now n } }
        let s1 := (s.tenon.away.filter (· ≠ m.link)).foldl (fun s l => sendMessage s l (crcMessage 5 3 m.dest m.source m.epoch (msgExtra m) m.body)) s0
        let d := beAt m.body 16 2
        (s.isHead = true ∨ parsePayload (d == 0xFFFF) (m.body.drop 32) = none → exec (.worldMessage m n) s = .next s1 ∧ s1.world = s.world) ∧
        (∀ (img : Image) (recs : List WRec) (eoe : Bool), s.isHead = false → s.cfg.image = some img → parsePayload (d == 0xFFFF) (m.body.drop 32) = some (recs, eoe) →
          exec (.worldMessage m n) s = .next (admitFrame s1 img d m.epoch (BitVec.ofNat 32 (beAt m.body 8 4)) recs eoe false (m.body.drop 32).length m.body)))) ∧
    (∀ (l : Nat) (e : Epoch), s.hasLink l = true → Answers (.confirm l e) s fun t =>
      let cur := epochOf s.frame.k
      (e, l) ∈ t.tenon.confirms ∧ (∀ x ∈ s.tenon.confirms, x ∈ t.tenon.confirms) ∧
      t.get Reg.TENON_CONFIRM_LATE.COUNT =
        (if s.isTail = true ∧ s.inChain = true ∧ (epochLater cur e = true ∨ e = cur ∧ (s.frame.verdictDone = true ∨ s.frame.inFrame = false)) then
          s.counted Reg.TENON_CONFIRM_LATE.COUNT else s.get Reg.TENON_CONFIRM_LATE.COUNT) ∧
      (∀ d : Nat, s.tenon.down = some d →
        if s.confirms = true ∧ s.tenon.outputsSent = some e ∧ e ∉ s.tenon.confirmed ∧ e ∉ s.tenon.condemned ∧ linkClear (s.link d) e = true ∧
            (∀ k ∈ s.tenon.feeders, k = l ∨ (e, k) ∈ s.tenon.confirms) then
          t.tenon.confirmed = e :: s.tenon.confirmed.take 15 ∧
          ((s.link d).lost = false → t.carries d (tokenFlit (tokenBytes 1 0 s.device (s.get Reg.TENON_DEVICES.TAIL) e 0 0)))
        else t.tenon.confirmed = s.tenon.confirmed) ∧
      (s.tenon.down = none → t.tenon.confirmed = s.tenon.confirmed))

/-- CLAMP written to TENON_CMD is accepted from the sources of R75 on a part with links: not the head answers NOT_HEAD, a chain that is not enumerated
NOT_READY, a refused token BUSY_CONFLICT with the clamp owed. Granted, the head sends CLAMP away from itself on every link, with a target that is a
frame start at least 20 us ahead. Another device passes it on, arms its timer to the target, and reports; during a retrain it arms nothing. The head
collects the residuals: the last one releases the token, shows the largest, and owes a clamp again where one was refused. TIME tokens leave on each
link away from the head, and their receiver's time base follows with the link's latency. (R503 to R505, R509.) -/
def Obligations.ClampAlignsFrameStarts : Prop :=
  ∀ (s : State), s.registersWf = true → s.tablesWf = true →
    (∀ src : Source,
      (s.hasTenon = false → exec (.tenonClampCmd src) s = .next { s with access := 8 }) ∧
      (s.hasTenon = true → s.isOwner src = false → exec (.tenonClampCmd src) s = .next { s with access := 1 }) ∧
      (s.hasTenon = true → s.isOwner src = true →
        (s.isHead = false → exec (.tenonClampCmd src) s = .next { s.set Reg.TENON_CMD_STATUS.RESULT 1 with access := 0 }) ∧
        (s.isHead = true → s.get Reg.TENON_STATUS.STATE ≠ 3 → s.get Reg.TENON_STATUS.STATE ≠ 4 →
          exec (.tenonClampCmd src) s = .next { s.set Reg.TENON_CMD_STATUS.RESULT 3 with access := 0 }) ∧
        (s.isHead = true → (s.get Reg.TENON_STATUS.STATE = 3 ∨ s.get Reg.TENON_STATUS.STATE = 4) →
          (∀ h : Token, s.fault.tokens.find? (conflicts clampToken) = some h → Answers (.tenonClampCmd src) s fun t =>
            t.get Reg.TENON_CMD_STATUS.RESULT = 2 ∧ t.tenon = { s.tenon with clampDue := true } ∧ t.fault = s.fault ∧ t.access = 0 ∧
            t.get Reg.FAULT_MAINT_REFUSED.COUNT = s.counted Reg.FAULT_MAINT_REFUSED.COUNT) ∧
          (s.fault.tokens.find? (conflicts clampToken) = none → Answers (.tenonClampCmd src) s fun t =>
            t.get Reg.TENON_CMD_STATUS.RESULT = 0 ∧ t.access = 0 ∧ ∃ k : Nat,
              t.tenon.armed = some (s.frameStartNs k) ∧ (0 < s.periodNs → s.frame.now + 20000 ≤ (s.frameStartNs k : Int)) ∧
              (∀ l ∈ s.tenon.away, (s.link l).lost = false → t.carries l (tokenFlit (tokenBytes 3 0 s.device 0xFFF 0 (s.frameStartNs k) 0))) ∧
              (1 < s.get Reg.TENON_DEVICES.COUNT → t.get Reg.TENON_STATUS.STATE = 3 ∧ t.fault = { s.fault with tokens := s.fault.tokens ++ [clampToken] } ∧
                t.tenon.clamp = some { target := s.frameStartNs k, left := s.get Reg.TENON_DEVICES.COUNT - 1, skew := 0, refused := false }) ∧
              (s.get Reg.TENON_DEVICES.COUNT ≤ 1 → t.get Reg.TENON_STATUS.STATE = 4 ∧ t.tenon.clamp = none ∧ t.get Reg.TENON_CLAMP_SKEW_PS.SKEW = 0))))) ∧
    (∀ l target : Nat, (s.hasLink l = false → exec (.clamp l target) s = .fault .noSuchUnit) ∧
      (s.hasLink l = true → s.isHead = true ∨ s.inChain = false → exec (.clamp l target) s = .next s) ∧
      (s.hasLink l = true → s.isHead = false → s.inChain = true → Answers (.clamp l target) s fun t =>
        t.tenon.armed = (if (List.range 4).any fun k => (s.link k).retraining then s.tenon.armed else some target) ∧
        (∀ k ∈ s.tenon.away, k ≠ l → (s.link k).lost = false → t.carries k (tokenFlit (tokenBytes 3 0 0 0xFFF 0 target 0))) ∧
        (∀ k : Nat, s.routeTo 0 = some k → (s.link k).lost = false → ((List.range 4).any fun k => (s.link k).retraining) = true →
          t.carries k (tokenFlit (tokenBytes 4 1 s.device 0 0 0 0))))) ∧
    (∀ (source : Nat) (residual : Int) (refused : Bool),
      (s.isHead = false → s.inChain = false → exec (.clampDone source residual refused) s = .next s) ∧
      (s.isHead = false → s.inChain = true → Answers (.clampDone source residual refused) s fun t => t.tenon.clamp = s.tenon.clamp ∧
        ∀ k : Nat, s.routeTo 0 = some k → (s.link k).lost = false → t.carries k (tokenFlit (tokenBytes 4 (bit refused) source 0 0 (pattern 64 residual) 0))) ∧
      (s.isHead = true → s.tenon.clamp = none → exec (.clampDone source residual refused) s = .next s) ∧
      (∀ c : ClampSt, s.isHead = true → s.tenon.clamp = some c →
        let skew := if refused then c.skew else max c.skew residual.natAbs
        (1 < c.left → Answers (.clampDone source residual refused) s fun t =>
          t.tenon = { s.tenon with clamp := some { c with left := c.left - 1, skew := skew, refused := c.refused || refused } } ∧ Changes s t [.tenon] []) ∧
        (c.left ≤ 1 → Answers (.clampDone source residual refused) s fun t =>
          t.tenon = { s.tenon with clamp := none, clampDue := c.refused || refused } ∧ t.get Reg.TENON_STATUS.STATE = 4 ∧
          t.get Reg.TENON_CLAMP_SKEW_PS.SKEW = min skew (2 ^ 32 - 1) ∧ t.fault = { s.fault with tokens := s.fault.tokens.erase clampToken } ∧
          t.get Reg.TENON_CMD_STATUS.RESULT = (if c.refused || refused then 2 else s.get Reg.TENON_CMD_STATUS.RESULT)))) ∧
    (∀ (l value : Nat) (holdover : Bool), (s.hasLink l = false → exec (.timeToken l value holdover) s = .fault .noSuchUnit) ∧
      (s.hasLink l = true → s.isHead = true ∨ s.inChain = false → exec (.timeToken l value holdover) s = .next s) ∧
      (s.hasLink l = true → s.isHead = false → s.inChain = true → Answers (.timeToken l value holdover) s fun t =>
        let delta : Int := ((1000 * value + 65536 * s.get (Reg.TENON_LINK_LAT_PS.LATENCY l)) / 65536000 : Nat) - s.frame.now
        t.get Reg.FRAME_STATUS.HOLDOVER = bit holdover ∧
        t.frame = (if 4 * delta.natAbs < s.periodNs then { s.frame with slewLeft := s.frame.slewLeft + delta } else { s.frame with now := s.frame.now + delta }))) ∧
    (Answers .timeTokenTimer s fun t => ∀ l ∈ s.tenon.away, (s.link l).lost = false →
      t.carries l (tokenFlit (tokenBytes 5 (s.get Reg.FRAME_STATUS.HOLDOVER) s.device 0xFFF 0 (s.frame.now.toNat * 65536 % 2 ^ 64) 0)))

/-- The head compares the two DIGEST tokens of one epoch that come within 2 * T_frame: a deadline hit or a different world input is skipped, equal frame
digests match, anything else is a mismatch with a contained error; a token whose pair has not come waits, and one whose pair does not come is skipped.
Another device of the chain passes the token to the head. ENUMERATE on the head makes the chain enumerate again at the next restart. A remote request
is ignored while one is in flight, is UNREACHABLE without a route, and else is sent and in flight until its response, whose status and words the
registers then show. (R508, R509.) -/
def Obligations.PairsCompareAndRemoteRequestsRun : Prop :=
  ∀ (s : State), s.registersWf = true → s.tablesWf = true →
    (∀ (l : Nat) (e : Epoch) (f w : Nat) (hit side : Bool) (n : Nat),
      (s.hasLink l = false → exec (.digestToken l e f w hit side n) s = .fault .noSuchUnit) ∧
      (s.hasLink l = true → s.isHead = false → s.inChain = false → exec (.digestToken l e f w hit side n) s = .next s) ∧
      (s.hasLink l = true → s.isHead = false → s.inChain = true → Answers (.digestToken l e f w hit side n) s fun t =>
        t.tenon.pairs = s.tenon.pairs ∧ ∀ k : Nat, s.routeTo 0 = some k → (s.link k).lost = false →
          t.carries k (tokenFlit (tokenBytes 6 (bit hit + 2 * bit side) (s.get Reg.TENON_DEVICES.TAIL) 0 e f w))) ∧
      (s.hasLink l = true → s.isHead = true →
        let x : PairToken := { epoch := e, frame := f, world := w, deadlineHit := hit, sideB := side, time := n }
        let other := s.tenon.pairs.find? fun y => y.epoch == e && y.sideB != side && decide (n ≤ y.time + 2 * s.periodNs)
        (other = none → Answers (.digestToken l e f w hit side n) s fun t =>
          t.tenon.pairs = (s.tenon.pairs.filter fun z => !(z.epoch == e && z.sideB == side)) ++ [x] ∧ t.fault = s.fault ∧
          t.get Reg.TENON_PAIR_MATCH.COUNT = s.get Reg.TENON_PAIR_MATCH.COUNT) ∧
        (∀ y : PairToken, other = some y →
          (hit = true ∨ y.deadlineHit = true ∨ w ≠ y.world → Answers (.digestToken l e f w hit side n) s fun t =>
            t.get Reg.TENON_PAIR_SKIPPED.COUNT = s.counted Reg.TENON_PAIR_SKIPPED.COUNT ∧ t.get Reg.TENON_PAIR_EPOCH.EPOCH = e.toNat ∧
            t.get Reg.TENON_PAIR_MATCH.COUNT = s.get Reg.TENON_PAIR_MATCH.COUNT ∧ t.get Reg.TENON_PAIR_MISMATCH.COUNT = s.get Reg.TENON_PAIR_MISMATCH.COUNT ∧
            t.tenon.pairs = (s.tenon.pairs.filter fun z => z.epoch != e) ∧ t.fault = s.fault) ∧
          (hit = false → y.deadlineHit = false → w = y.world → f = y.frame → Answers (.digestToken l e f w hit side n) s fun t =>
            t.get Reg.TENON_PAIR_MATCH.COUNT = s.counted Reg.TENON_PAIR_MATCH.COUNT ∧ t.get Reg.TENON_PAIR_EPOCH.EPOCH = e.toNat ∧
            t.get Reg.TENON_PAIR_SKIPPED.COUNT = s.get Reg.TENON_PAIR_SKIPPED.COUNT ∧ t.get Reg.TENON_PAIR_MISMATCH.COUNT = s.get Reg.TENON_PAIR_MISMATCH.COUNT ∧
            t.tenon.pairs = (s.tenon.pairs.filter fun z => z.epoch != e) ∧ t.fault = s.fault) ∧
          (hit = false → y.deadlineHit = false → w = y.world → f ≠ y.frame → s.fault.handling = none → s.get Reg.FAULT_OD_LIMIT.PAIR_LIMIT = 0 →
            Answers (.digestToken l e f w hit side n) s fun t =>
            t.get Reg.TENON_PAIR_MISMATCH.COUNT = s.counted Reg.TENON_PAIR_MISMATCH.COUNT ∧ t.get Reg.TENON_PAIR_EPOCH.EPOCH = e.toNat ∧
            t.get Reg.TENON_PAIR_MATCH.COUNT = s.get Reg.TENON_PAIR_MATCH.COUNT ∧ t.safety = s.safety ∧
            ∃ h, t.fault.handling = some h ∧ h.info.zone = 8 ∧ h.info.cls = 1 ∧ h.info.mech = 6 ∧ h.info.syndrome.take 4 = beBytes e.toNat 4)))) ∧
    (∀ e : Epoch,
      ((s.tenon.pairs.any fun y => y.epoch == e) = true → Answers (.pairDigestTimeout e) s fun t =>
        t.get Reg.TENON_PAIR_SKIPPED.COUNT = s.counted Reg.TENON_PAIR_SKIPPED.COUNT ∧
        t.tenon = { s.tenon with pairs := s.tenon.pairs.filter fun y => y.epoch != e } ∧ Changes s t [.tenon] [Reg.TENON_PAIR_SKIPPED.COUNT]) ∧
      ((s.tenon.pairs.any fun y => y.epoch == e) = false → exec (.pairDigestTimeout e) s = .next s)) ∧
    (∀ (src : Source) (n : Nat) (c : Instr), c = .tenonEnumerateCmd src ∨ c = .remoteRead src n ∨ c = .remoteWrite src n →
      (s.hasTenon = false → exec c s = .next { s with access := 8 }) ∧
      (s.hasTenon = true → s.isOwner src = false → exec c s = .next { s with access := 1 }) ∧
      (s.hasTenon = true → s.isOwner src = true →
        (c = .tenonEnumerateCmd src → s.isHead = false → exec c s = .next { s.set Reg.TENON_CMD_STATUS.RESULT 1 with access := 0 }) ∧
        (c = .tenonEnumerateCmd src → s.isHead = true →
          exec c s = .next { s.set Reg.TENON_CMD_STATUS.RESULT 0 with tenon := { s.tenon with reenumerate := true }, access := 0 }) ∧
        (c ≠ .tenonEnumerateCmd src →
          (s.get Reg.TENON_RMT_STATUS.BUSY = 1 → exec c s = .next { s with access := 0 }) ∧
          (s.get Reg.TENON_RMT_STATUS.BUSY ≠ 1 → s.routeTo (s.get Reg.TENON_RMT_DEV.DEVICE) = none → Answers c s fun t =>
            t.get Reg.TENON_RMT_STATUS.STATUS = 0x0A ∧ t.get Reg.TENON_RMT_STATUS.BUSY = s.get Reg.TENON_RMT_STATUS.BUSY ∧ t.tenon = s.tenon ∧ t.access = 0) ∧
          (∀ l : Nat, s.get Reg.TENON_RMT_STATUS.BUSY ≠ 1 → s.routeTo (s.get Reg.TENON_RMT_DEV.DEVICE) = some l → Answers c s fun t =>
            t.get Reg.TENON_RMT_STATUS.BUSY = 1 ∧ t.tenon.remote = some (s.get Reg.TENON_RMT_DEV.DEVICE) ∧ t.access = 0 ∧
            ((s.link l).lost = false → ∃ f : OutFlit, t.carries l f ∧ f.ty = 3 ∧ f.vc = 2 ∧
              f.payload.take 16 = routeHeader (s.get Reg.TENON_RMT_DEV.DEVICE) s.device 3 224 0))))) ∧
    (∀ (source status fail : Nat) (values : List Word),
      (s.tenon.remote ≠ some source → exec (.remoteResponse source status fail values) s = .next s) ∧
      (s.tenon.remote = some source → Answers (.remoteResponse source status fail values) s fun t =>
        t.tenon = { s.tenon with remote := none } ∧ t.get Reg.TENON_RMT_STATUS.BUSY = 0 ∧ t.get Reg.TENON_RMT_STATUS.STATUS = status % 2 ^ 8 ∧
        t.get Reg.TENON_RMT_STATUS.FAIL_INDEX = fail % 2 ^ 16 ∧
        (∀ i < 16, t.get (Reg.TENON_RMT_DATA.DATA i) = (match values[i]? with
          | some w => w.toNat
          | none => s.get (Reg.TENON_RMT_DATA.DATA i)))))

/-- An error of an existing unit, or outside every zone, is charged to its unit. With the handler free it is taken, and SUSPECT places a good unit under
observation; a FATAL error is shown and enters SAFE_STATE where no restart is under way. While the handler is busy an error of the same unit is merged
one class higher, and one of another unit waits as long as fewer than 8 wait. HBM errors are counted per channel, and a poisoned panel is noted. The
end of the handling counts the class, issues the next record, makes the unit SUSPECT after a failed repeat, and takes the next error. The replay of an
output of a SUSPECT tile releases it where the two agree; where they differ the unit is retired, with a contained error of mechanism 14. (R154, R528,
R529, R531, R532, R535, R541 to R545.) -/
def Obligations.ErrorsAreHandledMergedOrQueued : Prop :=
  ∀ (s : State), s.registersWf = true → s.tablesWf = true →
    (∀ e : ErrorInfo, e.zone ≠ 11 → zoneSize e.zone ≤ e.index → exec (.errorDetected e) s = .fault .noSuchUnit) ∧
    (∀ e : ErrorInfo, e.index < zoneSize e.zone →
      (s.fault.handling = none → e.cls ≤ 2 → ¬(e.zone = 9 ∧ e.outcome = 2) → Answers (.errorDetected e) s fun t =>
        t.fault.handling = some { info := e, time := s.frame.now.toNat, epoch := epochOf s.curK } ∧ t.fault.queue = s.fault.queue ∧
        t.get Reg.FAULT_STATUS.HANDLING = 1 ∧
        (t.unit e.zone e.index).errors = min ((s.unit e.zone e.index).errors + 1) 0xFFFF ∧
        (t.unit e.zone e.index).clean = (if 1 ≤ e.cls then 0 else (s.unit e.zone e.index).clean) ∧
        (t.unit e.zone e.index).state = (if e.cls = 2 ∧ (s.unit e.zone e.index).state = 0 then 1 else (s.unit e.zone e.index).state) ∧
        (e.zone = 5 → e.mech = 2 → e.cls = 0 →
          t.get (Reg.HBM_CH_ECC_CORR.COUNT (e.index / 32) (e.index % 32)) = s.counted (Reg.HBM_CH_ECC_CORR.COUNT (e.index / 32) (e.index % 32))) ∧
        (∀ p, e.zone = 1 → 1 ≤ e.cls → e.panel = some p → p ∈ t.world.poisoned ∧ (p ∉ s.world.poisoned → t.get Reg.WORLD_STATUS.POISONED = 1))) ∧
      (s.fault.handling = none → e.cls = 3 → s.safety.restart = 0 → s.sec.boot = none → Answers (.errorDetected e) s fun t =>
        t.get Reg.FAULT_LAST_FATAL.MECHANISM = e.mech % 256 ∧ t.get Reg.FAULT_LAST_FATAL.CLASS = e.zone ∧ t.get Reg.FAULT_LAST_FATAL.INDEX = e.index ∧
        (s.cfg.image.isSome = true → s.safety.permanent = false → s.get Reg.SAFE_MODE.MODE ≠ modeSafe → s.get Reg.SAFE_MODE.MODE ≠ modeHold →
          t.safety.rowTwo = true ∧ t.safety.held = none ∧ t.safety.restart ≠ 0 ∧ t.frame.inFrame = false ∧ t.frame.running = false)) ∧
      (∀ g : Handling, s.fault.handling = some g → ¬(e.zone = 9 ∧ e.outcome = 2) →
        (g.info.zone = e.zone → g.info.index = e.index → max g.info.cls e.cls < 2 → Answers (.errorDetected e) s fun t =>
          t.fault.handling = some { g with info := { g.info with cls := max g.info.cls e.cls + 1 } } ∧ t.fault.queue = s.fault.queue ∧
          t.get Reg.FAULT_MERGED_COUNT.COUNT = s.counted Reg.FAULT_MERGED_COUNT.COUNT) ∧
        (g.info.zone ≠ e.zone ∨ g.info.index ≠ e.index → s.fault.queue.length < 8 → e.cls ≤ 2 → Answers (.errorDetected e) s fun t =>
          t.fault.handling = some g ∧ t.get Reg.FAULT_STATUS.QUEUE = s.fault.queue.length + 1 ∧
          t.fault.queue = s.fault.queue ++ [{ info := e, time := s.frame.now.toNat, epoch := epochOf s.curK }]) ∧
        (g.info.zone ≠ e.zone ∨ g.info.index ≠ e.index → 8 ≤ s.fault.queue.length → Answers (.errorDetected e) s fun t =>
          t.get Reg.FAULT_LAST_FATAL.CLASS = 8 ∧ t.fault.handling = some g ∧ t.fault.queue = s.fault.queue))) ∧
    (s.fault.handling = none → ∀ n m, exec (.errorHandled n m) s = .next s) ∧
    (∀ (h : Handling) (outcome test : Nat), s.fault.handling = some h → ¬(h.info.zone = 2 ∧ outcome = 2 ∧ h.info.mech = 1) →
      Answers (.errorHandled outcome test) s fun t =>
        t.fault.handling = s.fault.queue.head? ∧ t.fault.queue = s.fault.queue.drop 1 ∧
        (h.info.cls = 0 → t.get Reg.FAULT_CORRECTED_COUNT.COUNT = s.counted Reg.FAULT_CORRECTED_COUNT.COUNT) ∧
        (1 ≤ h.info.cls → ¬(h.info.cls = 1 ∧ outcome = 2) → t.get (classCounter h.info.cls) = s.counted (classCounter h.info.cls) ∧
          t.get Reg.FAULT_RECORD_SEQ.SEQ = (s.get Reg.FAULT_RECORD_SEQ.SEQ + 1) % 2 ^ 32 ∧
          ∃ r : FaultRec, t.fault.records = (if 64 ≤ s.fault.records.length then s.fault.records.drop 1 else s.fault.records) ++ [r] ∧
            r.seq = s.get Reg.FAULT_RECORD_SEQ.SEQ + 1 ∧ r.handled = { h with info := { h.info with outcome := outcome } } ∧ r.test = test) ∧
        (h.info.cls = 1 → outcome = 2 → t.get Reg.FAULT_CONTAINED_COUNT.COUNT = s.counted Reg.FAULT_CONTAINED_COUNT.COUNT ∧
          t.get Reg.FAULT_SUSPECT_COUNT.COUNT = s.counted Reg.FAULT_SUSPECT_COUNT.COUNT ∧
          (t.unit h.info.zone h.info.index).state = (if (s.unit h.info.zone h.info.index).state = 0 then 1 else (s.unit h.info.zone h.info.index).state)) ∧
        (∀ p, h.info.cls = 0 → s.fault.lastCorrected.find? (fun p => p.1 == 65536 * h.info.zone + 256 * h.info.index + h.info.mech) = some p →
          h.time < p.2 + 1000000000 → t.fault.records = s.fault.records ∧ t.get Reg.FAULT_RECORD_SEQ.SEQ = s.get Reg.FAULT_RECORD_SEQ.SEQ)) ∧
    (∀ (tile i : Nat) (equal : Bool), (s.tiles ≤ tile → exec (.replayCompare tile i equal) s = .fault .noSuchUnit) ∧
      (∀ (img : Image) (d : DoneTask), tile < s.tiles → s.cfg.image = some img →
        ((s.jig.held.filter fun d => d.tile == tile && d.replay) ++ s.jig.released.filter fun d => d.tile == tile && !d.outs.isEmpty)[i]? = some d →
        (s.unit 0 (s.phys tile)).state = 1 →
        ((List.range 36).any fun q => bitOf s.die.tiles q && s.unitGood 0 q && !s.die.bind.contains q &&
          !(s.fault.tokens.any fun h => conflicts { act := 8, cls := 0, idx := q } h)) = true →
        Answers (.replayCompare tile i equal) s fun t =>
          if equal then (t.unit 0 (s.phys tile)).state = 1 ∧ t.fault.retired = s.fault.retired ∧
            ∀ h ∈ t.jig.held, h.stage = d.stage → h.index = d.index → d.replay = true → h.replay = false
          else (t.unit 0 (s.phys tile)).state = 2 ∧ t.fault.retired = s.fault.retired ++ [(0, s.phys tile)] ∧
            (d.replay = false → (∀ r, Output.record r ∉ d.outs) → s.fault.handling = none → ∃ h, t.fault.handling = some h ∧
              h.info = { zone := 0, index := s.phys tile, cls := 1, mech := 14, syndrome := [], outcome := 4 })))

/-- A test falls due on a unit that has one and waits, or its first slice is admitted under a TEST token where it fits. FAULT_TEST_CMD answers NOT_OWNER,
BAD_UNIT or ALREADY_DUE, or makes the test due. A slice's end releases its token; the last passed slice ends the test, 16 clean tests return a SUSPECT
unit to GOOD, a failed slice is repeated once, and a failed test makes a GOOD unit SUSPECT and retires a SUSPECT one. Past its deferral limit a GOOD
unit takes no new task. A retirement is cleared with debug unlocked. Scrubs and the trim begin under their token, or end and release it; a refusal is
counted. The oldest record, and up to 64 trace records, go to partition 0 once that can receive them. Units that do not exist stop by name. (R475,
R535 to R539, R544 to R548, R553.) -/
def Obligations.FieldTestsScrubsAndTheirFrames : Prop :=
  ∀ (s : State), s.registersWf = true → s.tablesWf = true →
    (∀ cls idx : Nat, (cls = 11 ∨ zoneSize cls ≤ idx) → exec (.fieldTestDue cls idx) s = .fault .noSuchUnit ∧ exec (.testDeferLimit cls idx) s = .fault .noSuchUnit ∧
      exec (.retirementClear cls idx) s = .fault .noSuchUnit ∧ ∀ b, exec (.testSliceDone cls idx b) s = .fault .noSuchUnit) ∧
    (∀ cls idx : Nat, cls ≠ 11 → idx < zoneSize cls →
      let u := s.unit cls idx
      let tok := testToken cls idx
      let fits := decide (1 ≤ cls ∧ cls ≤ 4) && s.sliceFits cls idx && !(s.fault.tokens.any fun h => conflicts tok h)
      (s.hasTest cls idx = false ∨ u.due = true ∨ u.active = true → exec (.fieldTestDue cls idx) s = .next s) ∧
      (∀ (c : Instr) (src : Source) (v : Word), (c = .fieldTestDue cls idx ∨
          c = .faultTestCmd src v ∧ s.isOwner src = true ∧ v.toNat / 256 % 256 = cls ∧ v.toNat % 256 = idx) →
        s.hasTest cls idx = true → u.due = false → u.active = false → Answers c s fun t =>
          (c = .faultTestCmd src v → t.get Reg.FAULT_TEST_STATUS.RESULT = 0 ∧ t.access = 0) ∧
          if fits then (t.unit cls idx) = { u with due := false, blocked := false, active := true } ∧ t.fault.tokens = s.fault.tokens ++ [tok]
          else (t.unit cls idx) = { u with due := true } ∧ t.fault.tokens = s.fault.tokens) ∧
      (s.sliceRuns cls idx = false → ∀ b, exec (.testSliceDone cls idx b) s = .next s) ∧
      (s.sliceRuns cls idx = true →
        (u.slices + 1 < testSlices cls → Answers (.testSliceDone cls idx true) s fun t =>
          (t.unit cls idx).slices = u.slices + 1 ∧ (t.unit cls idx).repeating = false ∧ (t.unit cls idx).state = u.state ∧ t.fault.handling = s.fault.handling) ∧
        (testSlices cls ≤ u.slices + 1 → Answers (.testSliceDone cls idx true) s fun t =>
          (t.unit cls idx).lastTest = some s.frame.now ∧ (t.unit cls idx).due = false ∧ (t.unit cls idx).active = false ∧
          (t.unit cls idx).state = (if u.state = 1 ∧ 15 ≤ u.clean then 0 else u.state) ∧
          (u.state = 1 → (t.unit cls idx).clean = (if 15 ≤ u.clean then 0 else u.clean + 1)) ∧
          t.fault.tokens = s.fault.tokens.erase tok) ∧
        (u.repeating = false → Answers (.testSliceDone cls idx false) s fun t =>
          (t.unit cls idx).repeating = true ∧ (t.unit cls idx).state = u.state ∧ (t.unit cls idx).slices = u.slices ∧ t.fault.handling = s.fault.handling) ∧
        (u.repeating = true → s.fault.handling = none → (cls = 1 ∨ cls = 3 ∨ cls = 4 ∨ cls = 0 ∧ (idx ∉ s.die.bind ∨ s.spareTile.isSome = true)) →
          Answers (.testSliceDone cls idx false) s fun t =>
          (t.unit cls idx).state = (if u.state = 0 then 1 else if u.state = 1 then 2 else u.state) ∧ (t.unit cls idx).active = false ∧
          ∃ h, t.fault.handling = some h ∧ h.info = mkError cls idx 2 10 2)) ∧
      (u.due = true → u.state = 0 → (cls = 0 ∨ cls = 4) → Answers (.testDeferLimit cls idx) s fun t =>
        t.unit cls idx = { u with blocked := true } ∧ Changes s t [.fault] []) ∧
      (u.due = true → u.state = 1 → (cls = 0 ∨ cls = 4) → Answers (.testDeferLimit cls idx) s fun t =>
        (cls = 0 → t.unit cls idx = u ∧ ∀ n, s.die.bind.idxOf? idx = some n → ∀ d p, d < 2048 → (t.desc n d).kind = .job p → (t.desc n d).state = 0) ∧
        (cls = 4 → t.jig = s.jig ∧ ((t.unit cls idx).due = true ∨ t.sliceRuns cls idx = true))) ∧
      (u.due = false ∨ (cls ≠ 0 ∧ cls ≠ 4) ∨ 2 ≤ u.state → exec (.testDeferLimit cls idx) s = .next s) ∧
      (s.get Reg.SEC_DEBUG_STATUS.STATE ≠ 2 ∨ (cls, idx) ∉ s.fault.retired → exec (.retirementClear cls idx) s = .next s) ∧
      (s.get Reg.SEC_DEBUG_STATUS.STATE = 2 → (cls, idx) ∈ s.fault.retired → Answers (.retirementClear cls idx) s fun t =>
        (t.unit cls idx).state = 0 ∧ (t.unit cls idx).clean = 0 ∧ t.fault.retired = s.fault.retired.filter (· ≠ (cls, idx)) ∧
        (cls = 0 → t.get (Reg.TILE_BIND.STATE idx) = 0))) ∧
    (∀ (src : Source) (v : Word),
      (s.isOwner src = false → exec (.faultTestCmd src v) s = .next { s.set Reg.FAULT_TEST_STATUS.RESULT 1 with access := 1 }) ∧
      (s.isOwner src = true → s.hasTest (v.toNat / 256 % 256) (v.toNat % 256) = false →
        exec (.faultTestCmd src v) s = .next { s.set Reg.FAULT_TEST_STATUS.RESULT 2 with access := 0 }) ∧
      (s.isOwner src = true → s.hasTest (v.toNat / 256 % 256) (v.toNat % 256) = true → (s.unit (v.toNat / 256 % 256) (v.toNat % 256)).due = true →
        exec (.faultTestCmd src v) s = .next { s.set Reg.FAULT_TEST_STATUS.RESULT 3 with access := 0 })) ∧
    (∀ n : Nat, (s.stacks ≤ n → exec (.hbmScrub n) s = .fault .noSuchUnit) ∧ (4 ≤ n → exec (.ledgerScrub n) s = .fault .noSuchUnit)) ∧
    (∀ (c : Instr) (tok : Token), (∃ n, c = .hbmScrub n ∧ n < s.stacks ∧ tok = { act := 1, cls := 0, idx := n }) ∨
        (∃ n, c = .ledgerScrub n ∧ n < 4 ∧ tok = { act := 3, cls := 0, idx := n }) ∨ c = .clockTrim ∧ tok = { act := 7, cls := 0, idx := domChecker } →
      (s.fault.tokens.contains tok = true → Answers c s fun t => t.fault.tokens = s.fault.tokens.erase tok ∧ t.ledger = s.ledger ∧
        ∀ n, c = .hbmScrub n → t.get (Reg.HBM_STATUS.SCRUB_ACTIVE n) = 0 ∧
          t.get (Reg.HBM_SCRUB_PASSES.COUNT n) = s.counted (Reg.HBM_SCRUB_PASSES.COUNT n) ∧
          ∀ ch < 32, s.hasTest 5 (32 * n + ch) = true → (t.unit 5 (32 * n + ch)).lastTest = some s.frame.now) ∧
      (s.fault.tokens.contains tok = false → (tok.act ≠ 3 ∨ s.get Reg.LEDGER_STATUS.PHASE = 0) →
        (s.fault.tokens.find? (conflicts tok) = none → Answers c s fun t => t.fault = { s.fault with tokens := s.fault.tokens ++ [tok] } ∧
          ∀ n, c = .hbmScrub n → t.get (Reg.HBM_STATUS.SCRUB_ACTIVE n) = 1) ∧
        (∀ h : Token, s.fault.tokens.find? (conflicts tok) = some h → Answers c s fun t => t.fault = s.fault ∧
          t.get Reg.FAULT_MAINT_REFUSED.COUNT = s.counted Reg.FAULT_MAINT_REFUSED.COUNT ∧ t.get Reg.FAULT_MAINT_LAST.REQUESTED = tok.act ∧
          t.get Reg.FAULT_MAINT_LAST.HOLDER = h.act % 256)) ∧
      (s.fault.tokens.contains tok = false → tok.act = 3 → s.get Reg.LEDGER_STATUS.PHASE ≠ 0 → exec c s = .next s)) ∧
    (∀ n : Nat,
      let s0 := { s with frame := { s.frame with now := max s.frame.now n } }
      (s.fault.records = [] ∨ s.maySend 0 0x40 = false → exec (.faultRecordSend n) s = .next s0) ∧
      (∀ (r : FaultRec) (rest : List FaultRec), s.fault.records = r :: rest → s.maySend 0 0x40 = true → Answers (.faultRecordSend n) s fun t =>
        let b := signature s.identityHash r
        t.fault = { s.fault with records := rest } ∧
        t.eth.tx = s.eth.tx ++ s0.copies 0 0x40 (epochOf s0.curK) (beBytes b.length 2 ++ beBytes 0 2 ++ padWord b)) ∧
      (let u := min s.eth.traceUnsent s.jig.trace.length
       (s.get Reg.ETH_CTL.TRACE_STREAM = 0 ∨ u = 0 ∨ s.maySend 0 0x70 = false → exec (.traceFrameSend n) s = .next s0) ∧
       (s.get Reg.ETH_CTL.TRACE_STREAM ≠ 0 → 0 < u → s.maySend 0 0x70 = true → Answers (.traceFrameSend n) s fun t =>
        t.eth.traceUnsent = u - min 64 u ∧ t.jig = s.jig ∧
        t.eth.tx = s.eth.tx ++ s0.copies 0 0x70 (epochOf s0.curK) (beBytes ((65536 + s.get Reg.JIG_TRACE_WR.INDEX - u) % 65536) 2 ++ beBytes (min 64 u) 2 ++
          beBytes (s.get Reg.JIG_TRACE_LOST.COUNT) 4 ++ (((s.jig.trace.take u).reverse).take (min 64 u)).flatten))))

/-- NAP and SLEEP from a source outside R75 answer NOT_OWNER; without frames, while a switch, a SAFE_STATE or restart, a replay or another entry is under
way NOT_READY; while a token is held BUSY_CONFLICT; else the next frame is a drain frame. CANCEL ends an entry until its drain frame has ended. Policy
enters after AUTO_MS at rest with no lease and no job. An enabled wake event of a port, a frame, a knock, a WAKE pin, the alarm or the thermal sensor
wakes a sleeping device and shows its source; before the entry window it is latched, in the window a level still is, and in RUN it does nothing. A pin
is active on two consecutive samples. Ports, links and pins that do not exist stop by name. (R436, R476, R506, R562 to R566, R568.) -/
def Obligations.EntriesAndWakeEvents : Prop :=
  ∀ (s : State), s.registersWf = true →
    (let notReady := s.cfg.image = none ∨ s.frame.running = false ∨ s.switching = true ∨ s.unsettled = true ∨ s.digest.replay.isSome = true ∨ s.power.entry ≠ 0
     let accepted := fun (t : State) (kind : Nat) => t.get Reg.PWR_STATUS.ENTRY_PENDING = 1 ∧ t.power = { s.power with entry := kind, latched := 0 } ∧
       t.cfg = { s.cfg with drainFor := 2 + kind } ∧ t.frame = s.frame
     (∀ (src : Source) (c : Instr) (kind : Nat), (c = .nap src ∧ kind = 1 ∨ c = .sleep src ∧ kind = 2) →
      (s.isOwner src = false → exec c s = .next { s.set Reg.PWR_CMD_STATUS.RESULT 1 with access := 1 }) ∧
      (s.isOwner src = true → notReady → exec c s = .next { s.set Reg.PWR_CMD_STATUS.RESULT 3 with access := 0 }) ∧
      (s.isOwner src = true → ¬notReady → s.fault.tokens ≠ [] → exec c s = .next { s.set Reg.PWR_CMD_STATUS.RESULT 2 with access := 0 }) ∧
      (s.isOwner src = true → ¬notReady → s.fault.tokens = [] → Answers c s fun t =>
        t.get Reg.PWR_CMD_STATUS.RESULT = 0 ∧ t.access = 0 ∧ accepted t kind)) ∧
     (∀ src : Source,
      (s.isOwner src = false → exec (.sleepCancel src) s = .next { s.set Reg.PWR_CMD_STATUS.RESULT 1 with access := 1 }) ∧
      (s.isOwner src = true → s.power.entry = 0 ∨ s.power.closing = true → exec (.sleepCancel src) s = .next { s.set Reg.PWR_CMD_STATUS.RESULT 3 with access := 0 }) ∧
      (s.isOwner src = true → s.power.entry ≠ 0 → s.power.closing = false → Answers (.sleepCancel src) s fun t =>
        t.get Reg.PWR_CMD_STATUS.RESULT = 0 ∧ t.get Reg.PWR_STATUS.ENTRY_PENDING = 0 ∧ t.power = { s.power with entry := 0, latched := 0 } ∧
        t.cfg.drainFor = 0 ∧ t.frame = { s.frame with drain := false } ∧ t.access = 0)) ∧
     (∀ img : Image, s.cfg.image = some img →
      let ready := bitOf img.powerFlags 1 = true ∧ (∀ q < 7, s.get (Reg.PWR_LEASE.MS (q + 1)) = 0) ∧ (∀ j ∈ s.eth.jobs, 2 ≤ j.state) ∧
        (∃ t, s.power.restSince = some t ∧ t + 1000000 * (img.autoMs : Int) ≤ s.frame.now) ∧ ¬notReady ∧ s.fault.tokens = []
      (¬ready → exec .autoEntry s = .next s) ∧
      (ready → Answers .autoEntry s fun t => accepted t (if bitOf img.powerFlags 2 then 2 else 1) ∧
        t.get Reg.PWR_CMD_STATUS.RESULT = s.get Reg.PWR_CMD_STATUS.RESULT))) ∧
    (∀ (c : Instr) (m : Nat) (level : Bool) (u : State),
      (∃ p < 4, c = .energyDetect p ∧ s.wakePort p 0 = true ∧ m = 1 ∧ level = true ∧ u = s) ∨
      (∃ p < 4, c = .anyFrameWake p ∧ s.wakePort p 1 = true ∧ m = 2 ∧ level = false ∧ u = s) ∨
      (∃ f : Frame, c = .wakeFrame f ∧ f.port < 4 ∧ f.ty = 0x7E ∧ f.linkOk = true ∧ f.payload = wakePattern ∧ s.wakePort f.port 2 = true ∧ m = 4 ∧ level = false ∧ u = s) ∨
      (∃ l, c = .wakeKnock l ∧ s.hasLink l = true ∧ bitOf (s.get Reg.PWR_WAKE_CTL.KNOCK_ACCEPT) l = true ∧ m = 8 ∧ level = false ∧ u = s) ∨
      (c = .aonAlarm ∧ s.get64 Reg.PWR_ALARM_LO.LO Reg.PWR_ALARM_HI.HI ≠ 0 ∧ m = 32 ∧ level = true ∧ u = { s with power := { s.power with alarm := true } }) ∨
      (c = .thermalAlarm ∧ s.flag Reg.PWR_WAKE_CTL.THERMAL_WAKE = true ∧ m = 64 ∧ level = true ∧ u = s) →
        (s.power.asleep ≠ 0 → s.power.waking = 0 → Answers c s fun t =>
          t.get Reg.PWR_WAKE_SOURCE.SOURCE = (s.get Reg.PWR_WAKE_SOURCE.SOURCE ||| m) % 2 ^ 7 ∧ t.power = { u.power with waking := 1, latched := 0 } ∧
          Changes s t [.power] [Reg.PWR_WAKE_SOURCE.SOURCE, Reg.SAFE_SP_WAKE_STATUS.SOURCE]) ∧
        (s.power.asleep ≠ 0 → s.power.waking ≠ 0 → exec c s = .next u) ∧
        (s.power.asleep = 0 → s.power.entry = 0 → exec c s = .next u) ∧
        (s.power.asleep = 0 → s.power.entry ≠ 0 → s.power.closing = false ∨ level = true →
          exec c s = .next { u with power := { u.power with latched := s.power.latched ||| m } }) ∧
        (s.power.asleep = 0 → s.power.entry ≠ 0 → s.power.closing = true → level = false → Answers c s fun t =>
          (t.power.latched = s.power.latched ∨ t.power.latched = s.power.latched ||| m) ∧ t.power.asleep = 0 ∧ t.power.waking = s.power.waking ∧
          Changes s t [.power, .fresh] [])) ∧
    (∀ p : Nat, (4 ≤ p → exec (.energyDetect p) s = .fault .noSuchUnit ∧ exec (.anyFrameWake p) s = .fault .noSuchUnit ∧
        ∀ f : Frame, f.port = p → exec (.wakeFrame f) s = .fault .noSuchUnit) ∧
      (s.hasLink p = false → exec (.wakeKnock p) s = .fault .noSuchUnit) ∧ (8 ≤ p → ∀ b, exec (.wakePin p b) s = .fault .noSuchUnit) ∧
      (p < 4 → (s.wakePort p 0 = false → exec (.energyDetect p) s = .next s) ∧ (s.wakePort p 1 = false → exec (.anyFrameWake p) s = .next s))) ∧
    (∀ (p : Nat) (b : Bool), p < 8 → (s.pins.spPhase ≠ 3 → exec (.wakePin p b) s = .next s) ∧
      (s.pins.spPhase = 3 →
        let shows := b == bitOf (s.get Reg.SAFE_SP_WAKE_CFG.POLARITY) p
        let before := bitOf s.safety.wakeSamples.2 p
        let edge := bitOf (s.get Reg.SAFE_SP_WAKE_CFG.MODE) p
        let triggers := bitOf (s.get Reg.SAFE_SP_WAKE_CFG.ENABLE) p && before && shows && !(edge && bitOf s.safety.wakeSamples.1 p)
        Answers (.wakePin p b) s fun t => bitOf t.safety.wakeSamples.2 p = shows ∧ bitOf t.safety.wakeSamples.1 p = before ∧
          (triggers = false → t.power = s.power) ∧
          (triggers = true → s.power.asleep ≠ 0 → s.power.waking = 0 → t.power = { s.power with waking := 1, latched := 0 } ∧
            t.get Reg.PWR_WAKE_SOURCE.SOURCE = (s.get Reg.PWR_WAKE_SOURCE.SOURCE ||| 16) % 2 ^ 7 ∧
            t.get Reg.SAFE_SP_WAKE_STATUS.SOURCE = (s.get Reg.SAFE_SP_WAKE_STATUS.SOURCE ||| 2 ^ p) % 2 ^ 8)))

/-- At the end of the entry window the device is in NAP or SLEEP: the entry is counted, links are down, HBM refreshes itself, the fields of the latest
epoch read 0, and what was latched wakes it at once. A wake asks for the reference, loads the time base in HOLDOVER and knocks; a knock is repeated
for at most 5 ms. When it is done the device runs again as after a warm restart: REBASE, a WARM rebuild, a cold refine, H, A and the window cleared. A
lease counts down to 0 each ms. An island idles and wakes; with DOZE_ALLOW a tile without work or a due test dozes, and its panel cache is not
retained. Islands, tiles and links that do not exist stop by name. (R435, R437, R557 to R560, R564, R566, R567, R569 to R572.) -/
def Obligations.SleepsWakesAndIdles : Prop :=
  ∀ (s : State), s.registersWf = true →
    (s.power.closing = false → exec .entryWindowEnd s = .next s) ∧
    (s.power.closing = true → Answers .entryWindowEnd s fun t =>
      let latched := s.power.latched ||| (if s.power.alarm then 32 else 0)
      t.get Reg.PWR_STATUS.ENTRY_PENDING = 0 ∧ t.get Reg.PWR_STATUS.LAST_SLEEP = s.power.entry % 4 ∧
      t.get Reg.PWR_SLEEP_COUNT.COUNT = s.counted Reg.PWR_SLEEP_COUNT.COUNT ∧ t.power.asleep = s.power.entry ∧ t.power.entry = 0 ∧ t.power.closing = false ∧
      (∀ l < 4, t.get (Reg.TENON_LINK_STATUS.STATE l) = 0) ∧ (∀ k < s.stacks, t.get (Reg.HBM_STATUS.SELF_REFRESH k) = 1) ∧
      (∀ f ∈ epochFields, t.get f = 0) ∧ (s.power.entry = 2 → t.pins.refclkReq = false) ∧
      (latched = 0 → t.power.waking = s.power.waking) ∧
      (latched ≠ 0 → t.power.waking = 1 ∧ t.power.latched = 0 ∧
        t.get Reg.PWR_WAKE_SOURCE.SOURCE = (s.get Reg.PWR_WAKE_SOURCE.SOURCE ||| latched % 128) % 2 ^ 7)) ∧
    (s.power.waking ≠ 1 → exec .wake s = .next s) ∧
    (s.power.waking = 1 → Answers .wake s fun t =>
      t.get Reg.FRAME_STATUS.HOLDOVER = 1 ∧ t.get Reg.ETH_STATUS.PTP_SYNCED = 0 ∧ (∀ k < s.stacks, t.get (Reg.HBM_STATUS.SELF_REFRESH k) = 0) ∧
      t.pins = { s.pins with refclkReq := decide (s.get Reg.SAFE_SP_STRAPS.REF = 0) } ∧ t.power.waking = 2 ∧ t.power.knockSince = some s.frame.now ∧
      (∀ l, l ∈ t.power.knocks ↔ l < 4 ∧ s.hasLink l = true ∧ bitOf (s.get Reg.PWR_WAKE_CTL.KNOCK_SEND) l = true)) ∧
    (∀ l : Nat, (s.hasLink l = false → exec (.knockRepeat l) s = .fault .noSuchUnit) ∧
      (s.hasLink l = true → (s.power.knockSince = none → exec (.knockRepeat l) s = .next s) ∧
        (∀ t0 : Int, s.power.knockSince = some t0 →
          exec (.knockRepeat l) s = .next (if bitOf (s.get Reg.PWR_WAKE_CTL.KNOCK_SEND) l = true ∧ s.get (Reg.TENON_LINK_STATUS.STATE l) = 0 ∧ s.frame.now ≤ t0 + 5000000
            then { s with power := { s.power with knocks := l :: s.power.knocks } } else s)))) ∧
    (s.power.waking ≠ 2 → exec .wakeDone s = .next s) ∧
    (s.power.waking = 2 → Answers .wakeDone s fun t =>
      t.get Reg.PWR_STATUS.WAKING = 1 ∧ t.get Reg.WORLD_STATUS.REBASE = 1 ∧ t.get Reg.SAFE_WINDOW.MAP = 0 ∧ t.get Reg.SAFE_MODE.ARMED = 0 ∧
      t.power = { s.power with asleep := 0, waking := 0, passes := 0 } ∧
      t.solver = { s.solver with warm := none, run := none, result := none } ∧ t.safety.held = none ∧ t.safety.armed = none ∧ t.safety.window = [] ∧
      t.safety.gridFree = [] ∧ t.world = { s.world with allChanged := true, active := false, closed := true } ∧
      t.pins.spPhase = (if s.get Reg.SAFE_SP_STRAPS.SP_ENABLE = 1 then 1 else 2) ∧ (s.roadmap.isSome = true → t.ledger.rebuild = 2) ∧
      t.frame.running = true ∧ t.frame.inFrame = false ∧ t.frame.drain = false ∧ t.digest.anchorDue = true ∧
      (s.isHead = true → s.get Reg.TENON_STATUS.STATE ≠ 4 → t.tenon = { s.tenon with clampDue := true })) ∧
    (Answers .leaseTick s fun t => (∀ q < 7, t.get (Reg.PWR_LEASE.MS (q + 1)) = (s.get (Reg.PWR_LEASE.MS (q + 1)) - 1) % 2 ^ 16) ∧
      Changes s t [] [] [Reg.PWR_LEASE.MS]) ∧
    (∀ n : Nat, (54 ≤ n → exec (.idleEntry n) s = .fault .noSuchUnit ∧ exec (.idleWake n) s = .fault .noSuchUnit) ∧
      (n < 36 → (s.get (Reg.PWR_TILE_STATE.STATE n) = 0 → Answers (.idleEntry n) s fun t =>
          t.get (Reg.PWR_TILE_STATE.STATE n) = 1 ∧ Changes s t [] [Reg.PWR_TILE_STATE.STATE n]) ∧
        (s.get (Reg.PWR_TILE_STATE.STATE n) ≠ 0 → exec (.idleEntry n) s = .next s) ∧
        (s.get (Reg.PWR_TILE_STATE.STATE n) = 1 → Answers (.idleWake n) s fun t =>
          t.get (Reg.PWR_TILE_STATE.STATE n) = 0 ∧ Changes s t [] [Reg.PWR_TILE_STATE.STATE n]) ∧
        (s.get (Reg.PWR_TILE_STATE.STATE n) ≠ 1 → exec (.idleWake n) s = .next s)) ∧
      (36 ≤ n → n < 54 → (Answers (.idleEntry n) s fun t => n ∈ t.power.idle ∧ (∀ k, k ≠ n → (k ∈ t.power.idle ↔ k ∈ s.power.idle)) ∧ Changes s t [.power] []) ∧
        (Answers (.idleWake n) s fun t => n ∉ t.power.idle ∧ (∀ k, k ≠ n → (k ∈ t.power.idle ↔ k ∈ s.power.idle)) ∧ Changes s t [.power] []))) ∧
    (∀ n : Nat, (s.tiles ≤ n → exec (.dozeEntry n) s = .fault .noSuchUnit ∧ exec (.dozeWake n) s = .fault .noSuchUnit) ∧
      (n < s.tiles →
        let p := s.phys n
        (∀ img : Image, s.cfg.image = some img →
          if bitOf img.powerFlags 0 = true ∧ (∀ d ∈ s.jig.descs, d.1 / 2048 = n → d.2.state ∉ [1, 3, 4, 5, 6]) ∧ (s.unit 0 p).due = false ∧
              (s.unit 0 p).active = false ∧ s.get (Reg.PWR_TILE_STATE.STATE p) < 2 then
            Answers (.dozeEntry n) s fun t => t.get (Reg.PWR_TILE_STATE.STATE p) = 2 ∧
              t.jig = { (s.tally (Reg.PWR_TILE_STATE.DOZES p) 1).jig with cache := s.jig.cache.filter fun c => c.tile != n } ∧
              Changes s t [.jig] [Reg.PWR_TILE_STATE.STATE p]
          else exec (.dozeEntry n) s = .next s) ∧
        (s.get (Reg.PWR_TILE_STATE.STATE p) = 2 → Answers (.dozeWake n) s fun t =>
          t.get (Reg.PWR_TILE_STATE.STATE p) = 0 ∧ Changes s t [] [Reg.PWR_TILE_STATE.STATE p]) ∧
        (s.get (Reg.PWR_TILE_STATE.STATE p) ≠ 2 → exec (.dozeWake n) s = .next s)))

/-- A trigger records its cause and lowers the clock by a step, at most to step 12, with the voltage after it; a step up asks for its voltage first and is
taken when the regulator has reported it, or abandoned. A hot HBM stack doubles its refresh rate under the HBM_REFRESH token, or is refused it. A rail
fault and a fault bit of the regulator are FATAL errors of zone 8 with mechanism 9 while the device is out of reset. An AON undervoltage loses every
register but keeps the slots. An I2C read serves its 8 bytes wherever AON has supply; an I2C write changes nothing. Causes, stacks and rails that do
not exist stop by name. (R573 to R575, R617, R618, R622; the bits of the regulator's status word are presumed, log entry 9.) -/
def Obligations.ThrottlesAndSupplies : Prop :=
  ∀ (s : State), s.registersWf = true →
    (∀ cause : Nat, (3 ≤ cause → exec (.throttleStepDown cause) s = .fault .noSuchUnit) ∧
      (cause < 3 → Answers (.throttleStepDown cause) s fun t =>
        let n := s.get Reg.PWR_STATUS.STEP
        t.get Reg.PWR_STATUS.CAUSE = (s.get Reg.PWR_STATUS.CAUSE ||| 2 ^ cause) % 2 ^ 3 ∧ t.power.lastTrigger = s.frame.now ∧ t.power.raising = false ∧
        (12 ≤ n → t.get Reg.PWR_STATUS.STEP = n ∧ t.power.vout = s.power.vout ∧ t.get Reg.PWR_THROTTLE_COUNT.COUNT = s.get Reg.PWR_THROTTLE_COUNT.COUNT) ∧
        (n < 12 → t.get Reg.PWR_STATUS.STEP = n + 1 ∧ t.power.vout = s.die.vf.getD (n + 1) 0 ∧
          t.get Reg.PWR_THROTTLE_COUNT.COUNT = s.counted Reg.PWR_THROTTLE_COUNT.COUNT))) ∧
    (Answers .throttleStepUp s fun t =>
      let n := s.get Reg.PWR_STATUS.STEP
      t.get Reg.PWR_STATUS.CAUSE = 0 ∧
      (n = 0 → t.power = s.power ∧ t.get Reg.PWR_STATUS.STEP = 0) ∧
      (0 < n → s.power.raising = false → t.get Reg.PWR_STATUS.STEP = n ∧ t.power = { s.power with raising := true, vout := s.die.vf.getD (n - 1) 0 }) ∧
      (0 < n → s.power.raising = true → t.get Reg.PWR_STATUS.STEP = (n - 1) % 2 ^ 4 ∧ t.power = { s.power with raising := false })) ∧
    (exec .voutSettleTimeout s = .next (if s.power.raising then { s with power := { s.power with raising := false, lastTrigger := s.frame.now } } else s)) ∧
    (∀ i : Nat, Answers (.currentCalibration i) s fun t => t.power = { s.power with calibration := i } ∧ Changes s t [.power] []) ∧
    (∀ k temp : Nat, (s.stacks ≤ k → exec (.hbmHot k temp) s = .fault .noSuchUnit) ∧
      (k < s.stacks →
        let tok : Token := { act := 2, cls := 5, idx := k }
        (temp ≤ 85 ∨ s.flag (Reg.HBM_STATUS.REFRESH_2X k) = true → exec (.hbmHot k temp) s = .next (s.set (Reg.HBM_STATUS.TEMP k) temp)) ∧
        (85 < temp → s.flag (Reg.HBM_STATUS.REFRESH_2X k) = false →
          (s.fault.tokens.find? (conflicts tok) = none → Answers (.hbmHot k temp) s fun t =>
            t.get (Reg.HBM_STATUS.REFRESH_2X k) = 1 ∧ t.get (Reg.HBM_STATUS.TEMP k) = temp % 2 ^ 8 ∧ t.fault = s.fault) ∧
          (∀ h : Token, s.fault.tokens.find? (conflicts tok) = some h → Answers (.hbmHot k temp) s fun t =>
            t.get (Reg.HBM_STATUS.REFRESH_2X k) = s.get (Reg.HBM_STATUS.REFRESH_2X k) ∧ t.fault = s.fault ∧
            t.get Reg.FAULT_MAINT_REFUSED.COUNT = s.counted Reg.FAULT_MAINT_REFUSED.COUNT ∧ t.get Reg.FAULT_MAINT_LAST.REQUESTED = 2)))) ∧
    (∀ rail : Nat, 9 ≤ rail ∨ rail = 0 → exec (.railFault rail) s = .fault .noSuchUnit) ∧
    (∀ c : Instr, (∃ rail, c = .railFault rail ∧ 1 ≤ rail ∧ rail < 9) ∨ (∃ w : Word, c = .pmbAlert w ∧ w.toNat &&& 0xDF7F ≠ 0) →
      (s.pins.resetN = false → exec c s = .next s) ∧
      (s.pins.resetN = true → s.fault.handling = none → Answers c s fun t =>
        t.fault.handling = some { info := mkError 8 0 3 9 0, time := s.frame.now.toNat, epoch := epochOf s.curK } ∧
        t.get Reg.FAULT_LAST_FATAL.MECHANISM = 9 ∧ t.get Reg.FAULT_LAST_FATAL.CLASS = 8)) ∧
    (∀ w : Word, w.toNat &&& 0xDF7F = 0 → exec (.pmbAlert w) s = .next s) ∧
    (Answers .aonUndervoltage s fun t => (∀ f : Field, t.get f = f.reset) ∧ t.pins.aonSupply = false ∧ t.pins.resetN = s.pins.resetN ∧ t.cfg.image = none ∧
      t.cfg.slotA = s.cfg.slotA ∧ t.cfg.slotB = s.cfg.slotB ∧ t.cfg.floorA = s.cfg.floorA ∧ t.cfg.floorB = s.cfg.floorB ∧ t.sec.keys = s.sec.keys ∧
      t.sec.bootCount = s.sec.bootCount ∧ t.fault.retired = s.fault.retired ∧ t.die = s.die ∧ t.pending = s.pending) ∧
    (s.pins.aonSupply = false → exec .i2cRead s = .next s) ∧
    (s.pins.aonSupply = true → Answers .i2cRead s fun t => t.power.i2c.length = 8 ∧
      (t.power.i2c.drop 2).take 4 = [BitVec.ofNat 8 (s.get Reg.SAFE_MODE.MODE), BitVec.ofNat 8 (s.get Reg.SEC_BOOT_STATUS.STATE),
        BitVec.ofNat 8 (sGet 0 5 s.safety.front),
        BitVec.ofNat 8 (bit (!s.pins.faultN) + 2 * bit s.pins.safeState + 4 * s.get Reg.PWR_STATUS.LAST_SLEEP + 16 * s.get Reg.PWR_STATUS.STEP)] ∧
      t.safety = s.safety ∧ t.pins = s.pins) ∧
    (exec .i2cWrite s = .next s)

/-- RESET_N low loses every register but the boot-attempt record and keeps the slots, the rollback floor, the key table, the boot count, the die record
and the retirements. Its rise starts step 1. At the capture every strap is latched, the port rates follow, and the pins enter BUS, or BUS_OFF where
the port is disabled; a strap conflict is shown and ends in BOOT_FAIL STRAP. WARM and COLD ask for a drain frame and RETRY clears the attempts and
begins a cold start; they answer NOT_OWNER or NOT_READY otherwise. (R418 to R423, R433, R591, R592, R594, R595.) -/
def Obligations.ResetStrapsAndRestartCommands : Prop :=
  ∀ (s : State), s.registersWf = true →
    (Answers .resetNFall s fun t =>
      let kept : List Field := [Reg.SEC_BOOT_ATTEMPTS.A_FAILS, Reg.SEC_BOOT_ATTEMPTS.B_FAILS, Reg.SEC_BOOT_ATTEMPTS.A_EXCLUDED, Reg.SEC_BOOT_ATTEMPTS.B_EXCLUDED]
      (∀ f ∈ kept, t.get f = s.get f % 2 ^ f.width) ∧ (∀ f : Field, f.key ∉ kept.map Field.key → t.get f = f.reset) ∧
      t.frame = { now := s.frame.now } ∧ t.cfg.image = none ∧ t.cfg.slotA = s.cfg.slotA ∧ t.cfg.slotB = s.cfg.slotB ∧ t.cfg.xspiA = s.cfg.xspiA ∧
      t.cfg.xspiB = s.cfg.xspiB ∧ t.floorValue = s.floorValue ∧ t.die = s.die ∧ t.fault.retired = s.fault.retired ∧ t.fault.tokens = [] ∧
      t.sec.keys = s.sec.keys ∧ t.sec.keyUpdates = s.sec.keyUpdates ∧ t.sec.bootCount = s.sec.bootCount ∧ t.eth.parts = [] ∧ t.world = {} ∧ t.ledger = {} ∧
      t.pins = { wdIn := s.pins.wdIn, aonSupply := s.pins.aonSupply } ∧ t.pending = s.pending) ∧
    (s.pins.resetN = true → s.pins.aonSupply = true → exec .resetNRise s = .next s) ∧
    (s.pins.resetN = false ∨ s.pins.aonSupply = false → Answers .resetNRise s fun t =>
      t.get Reg.SEC_BOOT_STATUS.STEP = 1 ∧ t.pins = { s.pins with resetN := true, aonSupply := true } ∧ t.sec.rising = true) ∧
    (∀ straps : Nat, (s.sec.rising = false → exec (.strapCapture straps) s = .next s) ∧
      (s.sec.rising = true →
        let role := bits straps 2 2
        let boot := bits straps 0 2
        let pair := bits straps 4 2
        let e := if s.die.part = 2 ∧ (role ≠ 0 ∨ boot = 3) then 1 else if boot = 3 ∧ role ≤ 1 then 2 else if pair = 3 then 3
          else if (pair = 1 ∨ pair = 2) ∧ role = 0 then 4 else 0
        (e = 0 → Answers (.strapCapture straps) s fun t =>
          (∀ f ∈ ([Reg.SAFE_SP_STRAPS.ADDRESS, Reg.SAFE_SP_STRAPS.WARM, Reg.SAFE_SP_STRAPS.REF, Reg.SAFE_SP_STRAPS.DEBUG, Reg.SAFE_SP_STRAPS.SP_ENABLE,
            Reg.SAFE_SP_STRAPS.RATE, Reg.SAFE_SP_STRAPS.PAIR, Reg.SAFE_SP_STRAPS.ROLE, Reg.SAFE_SP_STRAPS.BOOT] : List Field), t.get f = bits straps f.lo f.width) ∧
          t.get Reg.SEC_BOOT_STATUS.STEP = 2 ∧ t.get Reg.SEC_BOOT_STATUS.SOURCE = boot ∧
          (∀ p < 2, t.get (Reg.ETH_PORT_CTL.RATE p) = bits straps 6 2 ∧ t.get (Reg.ETH_PORT_STATUS.RATE p) = bits straps 6 2) ∧
          t.get Reg.TENON_STATUS.STATE = (if role = 0 then 0 else 1) ∧ t.pins.spPhase = (if bitOf straps 8 then 1 else 2) ∧
          t.safety = { s.safety with front := [], back := [] } ∧ t.sec = { s.sec with rising := false, captured := true }) ∧
        (e ≠ 0 → Answers (.strapCapture straps) s fun t =>
          t.get Reg.SAFE_SP_STATUS.STRAP_ERROR = e ∧ t.get Reg.SEC_BOOT_STATUS.STATE = 3 ∧ t.get Reg.SEC_BOOT_STATUS.FAIL = 1 ∧
          t.pins.faultN = false ∧ t.cfg.image = none ∧ t.sec.captured = false))) ∧
    (∀ (src : Source) (c : Instr) (why : Nat), (c = .bootWarm src ∧ why = 6 ∨ c = .bootCold src ∧ why = 5) →
      (s.isOwner src = false → exec c s = .next { s.set Reg.SEC_BOOT_CMD_STATUS.RESULT 1 with access := 1 }) ∧
      (s.isOwner src = true →
        if s.get Reg.SEC_BOOT_STATUS.STATE = 2 ∧ s.frame.running = true ∧ s.switching = false ∧ s.unsettled = false ∧ s.power.entry = 0 then
          exec c s = .next { s.set Reg.SEC_BOOT_CMD_STATUS.RESULT 0 with cfg := { s.cfg with drainFor := why }, access := 0 }
        else exec c s = .next { s.set Reg.SEC_BOOT_CMD_STATUS.RESULT 3 with access := 0 })) ∧
    (∀ src : Source,
      (s.isOwner src = false → exec (.bootRetry src) s = .next { s.set Reg.SEC_BOOT_CMD_STATUS.RESULT 1 with access := 1 }) ∧
      (s.isOwner src = true → s.get Reg.SEC_BOOT_STATUS.STATE ≠ 3 → exec (.bootRetry src) s = .next { s.set Reg.SEC_BOOT_CMD_STATUS.RESULT 3 with access := 0 }) ∧
      (s.isOwner src = true → s.get Reg.SEC_BOOT_STATUS.STATE = 3 → Answers (.bootRetry src) s fun t =>
        t.get Reg.SEC_BOOT_CMD_STATUS.RESULT = 0 ∧ t.get Reg.SEC_BOOT_STATUS.STATE = 0 ∧ t.get Reg.SEC_BOOT_STATUS.FAIL = 0 ∧
        t.get Reg.SEC_BOOT_STATUS.STEP = 5 ∧ t.get Reg.SEC_BOOT_ATTEMPTS.A_FAILS = 0 ∧ t.get Reg.SEC_BOOT_ATTEMPTS.B_FAILS = 0 ∧
        t.get Reg.SEC_BOOT_ATTEMPTS.A_EXCLUDED = 0 ∧ t.get Reg.SEC_BOOT_ATTEMPTS.B_EXCLUDED = 0 ∧ t.safety.restart = 3 ∧
        t.frame.running = false ∧ t.sec.boot = none ∧ t.access = 0))

/-- Data of the section being fetched with the right length and digest are kept when their content holds, and the load goes on; a content that fails ends
the load with its reason. A source that cannot be read, or whose data are wrong, is followed by the next one; with none left the load fails. A push
that times out counts as unreadable. A chunk is taken where it is the next part of what is awaited, ignored below it, and else dropped and counted.
LOAD in WAIT_HOST selects the pushed slot, which BOOT_FAIL follows where it cannot be loaded. A device that boots from Tenon stages the parts it
receives, and one that runs an image sends its slot when asked. (R60 to R62, R66, R474, R587.) -/
def Obligations.LoadsTakeTheirBulkData : Prop :=
  ∀ (s : State), s.registersWf = true →
    (s.cfg.loading = none → (∀ ty data, exec (.bulkFetchDone ty data) s = .next s) ∧ exec .pushTimeout s = .next s) ∧
    (∀ (l : Loading), s.cfg.loading = some l →
      (∀ ty data, l.todo.head? ≠ some ty ∨ s.get Reg.CONFIG_LOAD_STATUS.PHASE ≠ phaseBulk → exec (.bulkFetchDone ty data) s = .next s) ∧
      (s.get Reg.CONFIG_LOAD_STATUS.PHASE ≠ phasePush → exec .pushTimeout s = .next s) ∧
      (∀ (ty : Nat) (rest : List Nat), l.todo = ty :: rest →
        let next := fun (t : State) (l' : Loading) => match (if regionBad l.image ty then none else nextSource l.image ty (l.src + 1)) with
          | some k => t.cfg.loading = some { l' with src := k, pushed := [] } ∧ t.get Reg.CONFIG_LOAD_STATUS.PHASE = (if k = 2 then phasePush else phaseBulk)
          | none => s.sec.boot = none → t.cfg.loading = none ∧ t.get Reg.CONFIG_LOAD_STATUS.PHASE = phaseFailed ∧
              t.cfg.loadResult = (if regionBad l.image ty then 0x24 else if l'.mismatch then 0x30 else 0x31)
        (∀ c : Instr, (c = .pushTimeout ∧ s.get Reg.CONFIG_LOAD_STATUS.PHASE = phasePush) ∨
            (s.get Reg.CONFIG_LOAD_STATUS.PHASE = phaseBulk ∧ (c = .bulkFetchDone ty none ∨
              ∃ d, c = .bulkFetchDone ty (some d) ∧ d.length ≠ l.image.bulkLength ty)) → Answers c s fun t => next t l) ∧
        (∀ d : List Byte, s.get Reg.CONFIG_LOAD_STATUS.PHASE = phaseBulk → d.length = l.image.bulkLength ty → s.sec.boot = none →
          Answers (.bulkFetchDone ty (some d)) s fun t =>
            if Config.sha512 d = (l.image.body ty).take 64 then
              (∀ f : LoadFail, contentFail l.image l.got ty d = some f → t.cfg.loading = none ∧ t.cfg.loadResult = f.reason ∧
                t.get Reg.CONFIG_LOAD_STATUS.PHASE = phaseFailed) ∧
              (contentFail l.image l.got ty d = none → rest = [] → safetyFail l.image = none → t.cfg.loading = none ∧ t.cfg.loadResult = 0 ∧
                t.cfg.next = some l.image ∧ t.cfg.nextBulk = l.got ++ [{ ty := ty, data := d }] ∧ t.get Reg.CONFIG_LOAD_STATUS.PHASE = phaseDone) ∧
              (∀ (ty' k : Nat) (r : List Nat), contentFail l.image l.got ty d = none → rest = ty' :: r → regionBad l.image ty' = false →
                nextSource l.image ty' 0 = some k → t.cfg.loading = some { l with
                  todo := rest, mismatch := false, got := l.got ++ [{ ty := ty, data := d }], src := k, pushed := [] })
            else next t { l with mismatch := true }))) ∧
    (∀ (f : Frame) (n : Nat), (f.ty ≠ 0x60 → exec (.configChunk f n) s = .next s) ∧
      (f.ty = 0x60 → (arrive s (s.asPart f) n).1 = true →
        let u := (arrive s (s.asPart f) n).2
        let host := u.get Reg.SEC_BOOT_STATUS.STATE = 1
        let push := u.get Reg.CONFIG_LOAD_STATUS.PHASE = phasePush ∧ u.cfg.loading.isSome = true
        let awaits := fun (id : Nat) => host ∧ id = 0xFFFFFFFF ∨ ¬host ∧ push ∧ id = u.get Reg.CONFIG_BULK_WAIT.BULK_ID
        ((chunkOf u (s.asPart f) = none ∨ ∃ id off data, chunkOf u (s.asPart f) = some (id, off, data) ∧ (¬awaits id ∨ u.pushNext < off)) →
          Answers (.configChunk f n) s fun t => t.get Reg.CONFIG_CHUNK_DROP.DROPPED = u.counted Reg.CONFIG_CHUNK_DROP.DROPPED ∧ t.cfg = u.cfg) ∧
        (∀ (id off : Nat) (data : List Byte), chunkOf u (s.asPart f) = some (id, off, data) → awaits id →
          (off < u.pushNext → exec (.configChunk f n) s = .next u) ∧
          (off = u.pushNext → off + data.length < 2 ^ 64 →
            (host → Answers (.configChunk f n) s fun t => t.cfg = { u.cfg with staged := flashWrite u.cfg.staged off data } ∧ t.pushNext = off + data.length) ∧
            (∀ l : Loading, ¬host → u.cfg.loading = some l →
              (∀ ty ∈ l.todo.head?, (l.pushed ++ data).length < l.image.bulkLength ty) → Answers (.configChunk f n) s fun t =>
                t.cfg = { u.cfg with loading := some { l with pushed := l.pushed ++ data } } ∧ t.pushNext = off + data.length) ∧
            (∀ (l : Loading) (ty : Nat), ¬host → u.cfg.loading = some l → l.todo.head? = some ty → l.image.bulkLength ty ≤ (l.pushed ++ data).length →
              exec (.configChunk f n) s = .next (loadWent (bulkData (setPushNext u (off + data.length)) { l with pushed := l.pushed ++ data }
                (some (l.pushed ++ data))) l.slot)))))) ∧
    (∀ src : Source,
      (s.isOwner src = false → exec (.bootLoad src) s = .next { s.set Reg.SEC_BOOT_CMD_STATUS.RESULT 1 with access := 1 }) ∧
      (s.isOwner src = true → s.get Reg.SEC_BOOT_STATUS.STATE ≠ 1 → exec (.bootLoad src) s = .next { s.set Reg.SEC_BOOT_CMD_STATUS.RESULT 3 with access := 0 }) ∧
      (s.isOwner src = true → s.get Reg.SEC_BOOT_STATUS.STATE = 1 → 2 ≤ s.bootSource → Answers (.bootLoad src) s fun t =>
        t.get Reg.SEC_BOOT_CMD_STATUS.RESULT = 0 ∧ t.access = 0 ∧
        if s.candidate? 1 = true ∧ bitOf s.sec.tried 1 = false then t.get Reg.CONFIG_LOAD_STATUS.SLOT = 1
        else t.get Reg.SEC_BOOT_STATUS.STATE = 3 ∧ t.get Reg.SEC_BOOT_STATUS.FAIL = 7 ∧ t.pins.faultN = false ∧ t.cfg.image = none)) ∧
    (∀ (l : Nat) (data : List Byte), (s.hasLink l = false → exec (.imageDistribution l data) s = .fault .noSuchUnit) ∧
      (s.hasLink l = true →
        (data = [] → s.cfg.image = none → exec (.imageDistribution l data) s = .next s) ∧
        (data = [] → s.cfg.image.isSome = true → Answers (.imageDistribution l data) s fun t =>
          t.tenon.imageSent = l :: s.tenon.imageSent ∧ t.cfg = s.cfg ∧ t.fresh = s.fresh) ∧
        (data ≠ [] → s.bootSource ≠ 3 ∨ s.get Reg.SEC_BOOT_STATUS.STATE ≠ 1 → exec (.imageDistribution l data) s = .next s) ∧
        (data ≠ [] → s.bootSource = 3 → s.get Reg.SEC_BOOT_STATUS.STATE = 1 → s.pushNext + data.length < 0x1000 → Answers (.imageDistribution l data) s fun t =>
          t.cfg = { s.cfg with staged := flashWrite s.cfg.staged s.pushNext data } ∧ t.pushNext = s.pushNext + data.length ∧
          t.get Reg.SEC_BOOT_STATUS.STATE = 1)))

/-- An ENUM offer is refused by a standalone device, answered PAIR_HEAD by the head of the other pair side and KNOWN by a numbered device; else the number
is taken and the next link that is up is asked. A placement is taken or passed on. A reply sets the link's use and the next link is asked; after the
last, the head places the devices it has heard. ENROL and REVOKE follow their checks in order and change the table and its update count only where all
hold. CHALLENGE gives 64 random bytes while debug is allowed, and a RESPOND whose signature verifies unlocks debug and erases the identity key and the
session keys. Links that do not exist stop by name. (R493, R494, R583 to R586.) -/
def Obligations.ChainsAreNumberedAndKeysAreKept : Prop :=
  ∀ (s : State), s.registersWf = true → s.tablesWf = true →
    (∀ l : Nat, s.hasLink l = false → (∀ a b c p, exec (.enum l a b c p) s = .fault .noSuchUnit) ∧ ∀ a b c ds, exec (.enumReply l a b c ds) s = .fault .noSuchUnit) ∧
    (∀ (l source next side : Nat), s.hasLink l = true →
      let replies := fun (t : State) => (s.link l).lost = false → ∃ f : OutFlit, t.carries l f ∧ f.ty = 3 ∧ f.payload.take 16 = routeHeader source s.device 2 224 0
      (s.inChain = false → Answers (.enum l source next side none) s fun t => replies t ∧
        t.get (Reg.TENON_LINK_STATUS.USE l) = s.get (Reg.TENON_LINK_STATUS.USE l) ∧ t.get Reg.TENON_STATUS.DEVICE = s.device) ∧
      (s.inChain = true → s.isHead = true → side ≠ s.get Reg.SAFE_SP_STRAPS.PAIR → Answers (.enum l source next side none) s fun t => replies t ∧
        t.get (Reg.TENON_LINK_STATUS.USE l) = 2 ∧ t.get Reg.TENON_STATUS.PAIR_LINKED = 1) ∧
      (s.inChain = true → (s.isHead = true ∧ side = s.get Reg.SAFE_SP_STRAPS.PAIR) ∨ (s.isHead = false ∧ s.device ≠ 0xFFF) →
        Answers (.enum l source next side none) s fun t => replies t ∧
        t.get (Reg.TENON_LINK_STATUS.USE l) = 1 ∧ t.get (Reg.TENON_LINK_STATUS.PEER l) = source % 2 ^ 12 ∧ t.get Reg.TENON_STATUS.DEVICE = s.device) ∧
      (s.inChain = true → s.isHead = false → s.device = 0xFFF → Answers (.enum l source next side none) s fun t =>
        t.get Reg.TENON_STATUS.DEVICE = next % 2 ^ 12 ∧ t.get Reg.TENON_STATUS.STATE = 2 ∧ t.get (Reg.TENON_LINK_STATUS.USE l) = 0 ∧
        t.get (Reg.TENON_LINK_STATUS.PEER l) = source % 2 ^ 12 ∧ t.tenon.parent = some l ∧ t.tenon.enumNext = next + 1 ∧
        t.tenon.enumAt = (List.range 4).find? fun k => s.linkUp k && k != l) ∧
      (∀ p : Placement,
        (p.number = s.device → s.sec.boot = none → s.isHead = false → Answers (.enum l source next side (some p)) s fun t =>
          t.get Reg.TENON_STATUS.STATE = (if p.fail = 0 then 4 else 5) ∧ t.get Reg.TENON_CHAIN.POSITION = p.position % 2 ^ 12 ∧
          t.get Reg.TENON_CHAIN.ACTIVE = p.active % 2 ^ 12 ∧ t.get Reg.TENON_DEVICES.TAIL = p.tail % 2 ^ 12 ∧ t.get Reg.TENON_DEVICES.COUNT = p.count % 2 ^ 12 ∧
          t.tenon = { s.tenon with down := p.down, feeders := p.feeders, away := p.away, routes := p.routes, numbers := p.numbers, reenumerate := false }) ∧
        (p.number ≠ s.device → (s.routeTo p.number = none → exec (.enum l source next side (some p)) s = .next s) ∧
          (∀ k : Nat, s.routeTo p.number = some k → Answers (.enum l source next side (some p)) s fun t =>
            (s.link k).lost = false → ∃ f : OutFlit, t.carries k f ∧ f.payload.take 16 = routeHeader p.number s.device 1 224 0)))) ∧
    (∀ (l status next peer : Nat) (ds : List ChainDev), s.hasLink l = true →
      (s.tenon.enumAt ≠ some l → exec (.enumReply l status next peer ds) s = .next s) ∧
      (s.tenon.enumAt = some l →
        let heard := if status = 0 then s.tenon.devices ++ ds else s.tenon.devices
        (∀ k : Nat, (List.range 4).find? (fun k => decide (l + 1 ≤ k) && s.linkUp k && s.tenon.parent != some k) = some k →
          Answers (.enumReply l status next peer ds) s fun t => t.tenon.enumAt = some k ∧ t.tenon.devices = heard ∧
            t.get (Reg.TENON_LINK_STATUS.USE l) = min status 3 ∧ t.get (Reg.TENON_LINK_STATUS.PEER l) = (if status ≤ 2 then peer % 2 ^ 12 else 0xFFF) ∧
            (status = 0 → t.tenon.enumNext = next) ∧ (status = 2 → t.get Reg.TENON_STATUS.PAIR_LINKED = 1)) ∧
        ((List.range 4).find? (fun k => decide (l + 1 ≤ k) && s.linkUp k && s.tenon.parent != some k) = none →
          (∀ p : Nat, s.tenon.parent = some p → Answers (.enumReply l status next peer ds) s fun t => t.tenon.enumAt = none ∧
            ∃ own : ChainDev, own.number = s.device ∧ t.tenon.devices = own :: heard.filter fun d => d.number != s.device) ∧
          (s.tenon.parent = none → Answers (.enumReply l status next peer ds) s fun t =>
            t.get Reg.TENON_DEVICES.COUNT = ((heard.filter fun d => d.number != s.device).length + 1) % 2 ^ 12)))) ∧
    (∀ src : Source,
      let b := s.keyRecord
      let k := byteAt b 1
      (byteAt b 0 ≠ 1 → exec (.keyEnrol src) s = .next s) ∧ (byteAt b 0 ≠ 2 → exec (.keyRevoke src) s = .next s) ∧
      (∀ c : Instr, (c = .keyEnrol src ∧ byteAt b 0 = 1 ∨ c = .keyRevoke src ∧ byteAt b 0 = 2) → s.isOwner src = false →
        exec c s = .next { s.set Reg.SEC_KEY_RESULT.RESULT 1 with access := 1 }) ∧
      (byteAt b 0 = 1 → s.isOwner src = true → Answers (.keyEnrol src) s fun t =>
        let r := if recordFail s b ≠ 0 then recordFail s b else if 4 < k ∨ (∃ p ∈ s.sec.keys, p.1 = k) then 4
          else if Config.p521Point ((b.drop 8).take 133) = true then 0 else 6
        t.get Reg.SEC_KEY_RESULT.RESULT = r ∧ t.access = 0 ∧
        t.sec = (if r = 0 then { s.sec with keys := sInsert k ((b.drop 8).take 133) s.sec.keys, keyUpdates := s.sec.keyUpdates + 1 } else s.sec)) ∧
      (byteAt b 0 = 2 → s.isOwner src = true → Answers (.keyRevoke src) s fun t =>
        let r := if recordFail s b ≠ 0 then recordFail s b
          else if k < 4 ∧ (s.sec.keys.filter fun p => decide (p.1 < 4)).map (·.1) = [k] then 5 else 0
        t.get Reg.SEC_KEY_RESULT.RESULT = r ∧ t.access = 0 ∧
        t.sec = (if r = 0 then { s.sec with keys := sErase k s.sec.keys, keyUpdates := s.sec.keyUpdates + 1 } else s.sec))) ∧
    (∀ (src : Source) (c : Instr), c = .debugChallenge src ∨ c = .debugRespond src →
      (s.isOwner src = false → exec c s = .next { s with access := 1 }) ∧
      (s.isOwner src = true → s.debugAllowed = false → exec c s = .next { s.set Reg.SEC_DEBUG_STATUS.RESULT 1 with access := 0 }) ∧
      (s.isOwner src = true → s.debugAllowed = true →
        (c = .debugChallenge src → Answers c s fun t => t.get Reg.SEC_DEBUG_STATUS.RESULT = 0 ∧ t.access = 0 ∧
          t.get Reg.SEC_DEBUG_STATUS.STATE = (if s.unlocked then 2 else 1) ∧
          ∃ ch : List Byte, ch.length = 64 ∧ t.sec = { s.sec with challenge := some ch } ∧ ∀ i < 16, t.get (Reg.SEC_DEBUG_CHALLENGE.DATA i) = u32 ch (4 * i)) ∧
        (c = .debugRespond src → s.sec.challenge = none → exec c s = .next { s.set Reg.SEC_DEBUG_STATUS.RESULT 3 with access := 0 }) ∧
        (∀ ch : List Byte, c = .debugRespond src → s.sec.challenge = some ch → Answers c s fun t =>
          let sig := (List.range 33).flatMap fun i => leBytes (s.get (Reg.SEC_DEBUG_RESPONSE.DATA i)) 4
          let d := Config.sha512 (ch ++ s.identityPublic)
          t.access = 0 ∧
          let good := fun (key : List Byte) => Config.ecdsaVerify key d (sig.take 66) (sig.drop 66)
          if (∃ key ∈ s.signKey 4, good key = true) ∨ good Config.debugAuthority = true then
            t.get Reg.SEC_DEBUG_STATUS.STATE = 2 ∧ t.get Reg.SEC_DEBUG_STATUS.RESULT = 0 ∧ t.sec = { s.sec with identity := false, challenge := none } ∧
            ∀ p < 8, (t.part p).key = none ∧ (t.part p).oldKey = none
          else t.get Reg.SEC_DEBUG_STATUS.RESULT = 2 ∧ t.get Reg.SEC_DEBUG_STATUS.STATE = s.get Reg.SEC_DEBUG_STATUS.STATE ∧ t.sec = s.sec)))

/-- A write from a path without the right is denied, one to no register or to an absent unit has a bad address, and one to a register with only read-only
fields is denied; nothing else changes. A register without a command: an RWQ field needs its block quiesced, an RWE field no switch under way.
Applied, RW and RWQ fields take their bits, W1C fields are cleared by ones, RWE fields stay until a commit and their bits are pending, RO and WO
fields stay. A port's rate is then in force, a disabled link goes down, and a written alarm is no longer pending. EPOCH_COMMIT refuses a source
outside R75, a switch, and the first rule the pending set breaks, and else moves it into the committed set. (R13 to R17, R30, R94, R98, R568, R598 to
R604, R629.) -/
def Obligations.WritesFollowTheirAccessClass : Prop :=
  ∀ (s : State), s.registersWf = true → s.tablesWf = true →
    (∀ (src : Source) (a : Nat) (w : Word),
      (s.mayWrite src a = false → Answers (.registerWrite src a w) s fun t => t.access = 1 ∧
        Changes s t [.access] [Reg.CONFIG_SLOT_STATUS.RESULT, Reg.CONFIG_SWITCH_STATUS.RESULT, Reg.LEDGER_STATUS.CMD_RESULT, Reg.FAULT_TEST_STATUS.RESULT,
          Reg.PWR_CMD_STATUS.RESULT, Reg.SEC_BOOT_CMD_STATUS.RESULT, Reg.SEC_KEY_RESULT.RESULT] ∧
        (a = 0x10004 → t.get Reg.PWR_CMD_STATUS.RESULT = 1) ∧ (a = 0x20050 → t.get Reg.CONFIG_SWITCH_STATUS.RESULT = 1)) ∧
      (s.mayWrite src a = true → fieldsAt a = none ∨ s.absentUnit a = true → exec (.registerWrite src a w) s = .next { s with access := 8 }) ∧
      (∀ fs : List Field, s.mayWrite src a = true → fieldsAt a = some fs → s.absentUnit a = false → (∀ f ∈ fs, f.access = .ro) →
        exec (.registerWrite src a w) s = .next { s with access := 1 }) ∧
      (∀ fs : List Field, s.mayWrite src a = true → fieldsAt a = some fs → s.absentUnit a = false → (∃ f ∈ fs, f.access ≠ .ro) → commandWrite src a w s = none →
        let v := w.toNat
        ((∃ f ∈ fs, f.access = .rwq) → s.quiesced (quiesceBlock a) = false → exec (.registerWrite src a w) s = .next { s with access := 2 }) ∧
        ((∀ f ∈ fs, f.access ≠ .rwq) → (∃ f ∈ fs, f.access = .rwe) → s.switchActive = true → exec (.registerWrite src a w) s = .next { s with access := 6 }) ∧
        (((∃ f ∈ fs, f.access = .rwq) → s.quiesced (quiesceBlock a) = true) → ((∃ f ∈ fs, f.access = .rwe) → s.switchActive = false) →
          ¬(0xE1000 ≤ a ∧ a < 0xE2000) → Answers (.registerWrite src a w) s fun t => t.access = 0 ∧
            (∀ f ∈ fs, (f.access = .rw ∨ f.access = .rwq → t.get f = f.of v) ∧
              (f.access = .w1c → t.get f = s.get f &&& (2 ^ f.width - 1 - f.of v)) ∧ (f.access = .ro ∨ f.access = .wo → t.get f = s.get f) ∧
              (f.access = .rwe → t.get f = s.get f ∧ (f.key, fixed a (f.of v)) ∈ t.cfg.shadowSet)) ∧
            (∀ k x, (k, x) ∈ s.cfg.shadowSet → (∀ f ∈ fs, f.key ≠ k) → (k, x) ∈ t.cfg.shadowSet)))) ∧
    (∀ (src : Source) (w : Word), s.isOwner src = true →
      (∀ p < 4, s.absentUnit (0xC0040 + 16 * p) = false → s.quiesced (5 + p) = true → Answers (.registerWrite src (0xC0040 + 16 * p) w) s fun t =>
        t.access = 0 ∧ t.get (Reg.ETH_PORT_CTL.RATE p) = w.toNat % 4 ∧ t.get (Reg.ETH_PORT_STATUS.RATE p) = w.toNat % 4) ∧
      (∀ l < 4, s.absentUnit (0xD0100 + 64 * l) = false → s.quiesced (9 + l) = true → w.toNat % 2 = 0 → Answers (.registerWrite src (0xD0100 + 64 * l) w) s fun t =>
        t.access = 0 ∧ t.get (Reg.TENON_LINK_CTL.ENABLE l) = 0 ∧ t.get (Reg.TENON_LINK_STATUS.STATE l) = 0 ∧
        (t.link l).outstanding = [] ∧ (t.link l).waiting = [] ∧ (t.link l).lost = (s.link l).lost) ∧
      (Answers (.registerWrite src 0x10010 w) s fun t => t.access = 0 ∧ t.get Reg.PWR_ALARM_LO.LO = w.toNat ∧ t.power.alarm = false)) ∧
    (∀ src : Source,
      (s.isOwner src = false → exec (.epochCommit src) s = .next { s with access := 1 }) ∧
      (s.isOwner src = true → s.switchActive = true → exec (.epochCommit src) s = .next { s with access := 6 }) ∧
      (s.isOwner src = true → s.switchActive = false → s.commitStatus ≠ 0 → exec (.epochCommit src) s = .next { s with access := s.commitStatus } ∧
        s.commitStatus ∈ [3, 4, 5]) ∧
      (s.isOwner src = true → s.switchActive = false → s.commitStatus = 0 → Answers (.epochCommit src) s fun t =>
        t.access = 0 ∧ t.cfg.shadowSet = [] ∧ (ascends s.cfg.shadowSet = true → ∀ p ∈ s.cfg.shadowSet, p ∈ t.cfg.committedSet) ∧
        (∀ p ∈ s.cfg.committedSet, (∀ q ∈ s.cfg.shadowSet, q.1 ≠ p.1) → p ∈ t.cfg.committedSet) ∧ Changes s t [.cfg, .access] []))

/-- A MGMT request that passes the receive steps is applied and answered in one MGMT_RESP: malformed with BAD_LENGTH and nothing applied, a read with the
words up to the first refused, a write with the words up to it applied. A Tenon request of another device and a JTAG access are served likewise. While
the management processor cannot, they wait, 16 a port, and in reset and sleep none arrives. A cold start fails at the step whose check fails, with its
code; else it fixes the binding and the identity registers, counts the boot, and waits for a pushed slot where the straps say so. A warm start that is
done runs two shadow frames, with a cold refine and a WARM rebuild. A link that does not exist stops by name. (R3, R406, R460, R461, R509, R535, R587
to R595, R605 to R609.) -/
def Obligations.RequestsAndStartsAreServed : Prop :=
  ∀ (s : State), s.registersWf = true → s.tablesWf = true →
    (∀ (c : Instr) (f0 : Frame) (n : Nat), (c = .mgmtRead f0 n ∧ f0.ty ≠ 0x30 ∨ c = .mgmtWrite f0 n ∧ f0.ty ≠ 0x31) → exec c s = .next s) ∧
    (∀ (c : Instr) (f0 : Frame) (n : Nat), (c = .mgmtRead f0 n ∧ f0.ty = 0x30 ∨ c = .mgmtWrite f0 n ∧ f0.ty = 0x31) →
      let f := s.asPart f0
      let u := (arrive s f n).2
      let count := beAt f.payload 4 2
      let addr := beAt f.payload 0 4
      let resp := fun (status fail : Nat) (words : List Nat) => beBytes f.seq.toNat 4 ++ beBytes addr 4 ++ beBytes count 2 ++ beBytes status 1 ++
        beBytes 0 1 ++ beBytes fail 2 ++ beBytes 0 2 ++ words.flatMap fun w => beBytes w 4
      let good := 8 ≤ f.payload.length ∧ 1 ≤ count ∧ count ≤ 256 ∧ f.payload.length = (if f.ty = 0x31 then 8 + 4 * count else 8)
      ((arrive s f n).1 = false → exec c s = .next u) ∧
      ((arrive s f n).1 = true →
        (u.mgmtReady = false → exec c s = .next (if u.waitingAt f.port < 16 then { u with waiting := u.waiting ++ [.sheaz f] } else u)) ∧
        (u.mgmtReady = true →
          (¬good → Answers c s fun t => t.access = 9 ∧ t.cfg = u.cfg ∧ (8 ≤ f.payload.length → u.maySend f.partition 0x32 = true →
            t.eth.tx = u.eth.tx ++ u.copies f.partition 0x32 0 (resp 9 0 []))) ∧
          (good → f.ty = 0x30 → Answers c s fun t =>
            let u' := senseFor u addr count
            let r := readRegs (Frame.source f) u' addr count
            t.access = r.2 ∧ t.cfg = u.cfg ∧ t.world = u.world ∧ (u.maySend f.partition 0x32 = true →
              t.eth.tx = u.eth.tx ++ u'.copies f.partition 0x32 0 (resp r.2 (if r.2 = 0 then 0xFFFF else r.1.length) r.1))) ∧
          (good → f.ty = 0x31 → Answers c s fun t =>
            let r := writeRegs (Frame.source f) addr ((List.range count).map fun i => BitVec.ofNat 32 (beAt f.payload (8 + 4 * i) 4)) u
            t.access = r.2.1 ∧ t.cfg = r.2.2.cfg ∧ t.power = r.2.2.power ∧ (r.2.2.maySend f.partition 0x32 = true →
              t.eth.tx = r.2.2.eth.tx ++ r.2.2.copies f.partition 0x32 0 (resp r.2.1 (if r.2.1 = 0 then 0xFFFF else r.1) [])))))) ∧
    (∀ (l source : Nat) (write : Bool) (addr count : Nat) (values : List Word),
      (s.hasLink l = false → exec (.remoteRequest l source write addr count values) s = .fault .noSuchUnit) ∧
      (s.hasLink l = true →
        (s.pins.resetN = false ∨ s.power.asleep ≠ 0 → exec (.remoteRequest l source write addr count values) s = .next s) ∧
        (s.pins.resetN = true → s.power.asleep = 0 → s.mgmtReady = false →
          exec (.remoteRequest l source write addr count values) s = .next { s with waiting := s.waiting ++ [.tenon l source write addr count values] }) ∧
        (s.mgmtReady = true → Answers (.remoteRequest l source write addr count values) s fun t =>
          if count = 0 ∨ 256 < count ∨ write = true ∧ values.length ≠ count then t.access = 9 ∧ t.cfg = s.cfg
          else if write = true then t.access = (writeRegs .tenon addr values s).2.1 ∧ t.cfg = (writeRegs .tenon addr values s).2.2.cfg
          else t.access = (readRegs .tenon (senseFor s addr count) addr count).2 ∧ t.cfg = s.cfg ∧
            ((s.link ((s.routeTo source).getD l)).lost = false → ∃ f : OutFlit, t.carries ((s.routeTo source).getD l) f ∧
              f.payload.take 16 = routeHeader source s.device 4 224 0)))) ∧
    (∀ (c : Instr) (write : Bool) (addr : Nat) (v : Word), (c = .regaccRead addr ∧ write = false ∧ v = 0 ∨ c = .regaccWrite addr v ∧ write = true) →
      (s.jtag.busy = true ∨ s.pins.resetN = false ∨ s.power.asleep ≠ 0 → exec c s = .next s) ∧
      (s.jtag.busy = false → s.pins.resetN = true → s.power.asleep = 0 → s.mgmtReady = false →
        exec c s = .next { s with jtag := { s.jtag with busy := true }, waiting := s.waiting ++ [.jtag write addr v] }) ∧
      (s.jtag.busy = false → s.mgmtReady = true → Answers c s fun t =>
        if write = true then t.jtag = { busy := false, status := (applyWrite .jtag addr v s).1, data := 0 } ∧ t.access = (applyWrite .jtag addr v s).1
        else
          let r := readRegs .jtag (senseFor s addr 1) addr 1
          t.jtag = { busy := false, status := r.2, data := BitVec.ofNat 32 (r.1.headD 0) } ∧ t.access = r.2 ∧ t.cfg = s.cfg)) ∧
    (∀ b : BootReport, (s.mayColdStart = false → exec (.coldStart b) s = .next s) ∧
      (s.mayColdStart = true → s.waiting = [] →
        (∀ code : Nat, (b.lockstepOk = false ∧ code = 9 ∨ b.lockstepOk = true ∧ (b.dieOk = false ∧ code = 2 ∨
            b.dieOk = true ∧ (b.pufOk = false ∧ code = 3 ∨ b.pufOk = true ∧ b.certOk = false ∧ code = 4))) →
          Answers (.coldStart b) s fun t => t.get Reg.SEC_BOOT_STATUS.STATE = 3 ∧ t.get Reg.SEC_BOOT_STATUS.FAIL = code ∧ t.pins.faultN = false ∧
            t.cfg.image = none ∧ t.sec.boot = none) ∧
        (b.lockstepOk = true → b.dieOk = true → b.pufOk = true → b.certOk = true → b.failed = [] →
          (s.floorValue = none → Answers (.coldStart b) s fun t => t.get Reg.SEC_BOOT_STATUS.STATE = 3 ∧ t.get Reg.SEC_BOOT_STATUS.FAIL = 8) ∧
          (s.floorValue.isSome = true → 2 ≤ s.bootSource →
            (s.excluded 1 = true → Answers (.coldStart b) s fun t => t.get Reg.SEC_BOOT_STATUS.STATE = 3 ∧ t.get Reg.SEC_BOOT_STATUS.FAIL = 7) ∧
            (s.excluded 1 = false → Answers (.coldStart b) s fun t =>
              t.get Reg.SEC_BOOT_STATUS.STATE = 1 ∧ t.get Reg.SEC_BOOT_STATUS.STEP = 10 ∧ t.pushNext = 0 ∧ t.cfg.staged = [] ∧ t.sec.boot = some b ∧
              t.sec.bootCount = s.sec.bootCount + 1 ∧ t.get Reg.SEC_BOOT_COUNT.COUNT = (s.sec.bootCount + 1) % 2 ^ 32 ∧
              t.die.bind = bindTiles (goodMask s 0 s.die.tiles 36) s.die.list ∧ t.get Reg.IDENT_TILES.ENABLED = t.die.bind.length % 2 ^ 8 ∧
              t.get Reg.IDENT_PART.PART = (match s.die.part with
                | 0 => 0x0832
                | 1 => 0x0824
                | _ => 0x0816) ∧
              (∀ k < s.stacks, t.get (Reg.HBM_STATUS.TRAINED k) = 1) ∧ (∀ p < 36, bitOf s.die.tiles p = false → (t.unit 0 p).state = 3) ∧
              (∀ p < 36, bitOf s.die.tiles p = true → (0, p) ∈ s.fault.retired → (t.unit 0 p).state = 2)))))) ∧
    (s.safety.restart ≠ 1 ∨ s.cfg.image = none → exec .warmRestartDone s = .next s) ∧
    (s.safety.restart = 1 → s.cfg.image.isSome = true → s.waiting = [] → s.inChain = false ∨ s.tenon.reenumerate = false → Answers .warmRestartDone s fun t =>
      t.get Reg.SEC_BOOT_STATUS.WARM = 1 ∧ t.get Reg.SEC_BOOT_STATUS.STEP = 17 ∧ t.safety = { s.safety with restart := 2 } ∧
      t.frame = { s.frame with running := true, inFrame := false, shadowLeft := 2, gapExcused := true, notBefore := s.gridAt s.frame.now + 1 } ∧
      t.solver = { s.solver with warm := none, run := none, result := none } ∧
      t.world = { s.world with allChanged := true, active := false, closed := true } ∧ (s.roadmap.isSome = true → t.ledger.rebuild = 2) ∧
      t.digest = { s.digest with anchorDue := true })

/-- Whenever one of the 37 commands of this group answers a next state, the parts of the state it does not name are as before, the queue of waiting
commands among them, and so are the register fields it does not name and every byte of the addressed stores it does not store to. The lists are the
effects the rules of the cited files give each command, through every operation its effect sets off (an error's handling, a restart, a message sent). -/
def Obligations.FramesOfTasksAndSelection : Prop :=
  (∀ (s s' : State), exec .spSwapPulseEnd s = .next s' → Changes s s' [.pins] [] ∧ StoresSame s s') ∧
  (∀ (address : Nat) (csLow : Bool) (oeLow : Bool) (edge : Nat) (s s' : State), exec (.busRead address csLow oeLow edge) s = .next s' →
      Changes s s' [.safety, .fresh] [] ∧ StoresSame s s') ∧
  (∀ (tile : Nat) (kind : TaskKind) (spec : Bool) (waitMask : Word) (waitAnd : Bool) (s s' : State), exec (.taskCreate tile kind spec
      waitMask waitAnd) s = .next s' → Changes s s' [.jig, .eth, .fresh] [Reg.JIG_BACKPRESSURE.COUNT, Reg.JIG_STATUS.PEND_READY,
      Reg.JIG_STATUS.TRACE_FULL, Reg.JIG_TRACE_LOST.COUNT, Reg.JIG_TRACE_WR.INDEX, Reg.JIG_TRACE_WR.WRAPS] [Reg.TILE_JIG_STATE.READY,
      Reg.TILE_JIG_STATE.RUNNING] ∧ StoresSame s s') ∧
  (∀ (tile : Nat) (d : Nat) (value : Word) (s s' : State), exec (.flagToken tile d value) s = .next s' → Changes s s' [.jig, .eth, .fresh]
      [Reg.JIG_BACKPRESSURE.COUNT, Reg.JIG_STATUS.PEND_READY, Reg.JIG_STATUS.TRACE_FULL, Reg.JIG_TRACE_LOST.COUNT, Reg.JIG_TRACE_WR.INDEX,
      Reg.JIG_TRACE_WR.WRAPS] [Reg.TILE_JIG_STATE.READY, Reg.TILE_JIG_STATE.RUNNING] ∧ StoresSame s s') ∧
  (∀ (s s' : State), exec .tick s = .next s' → Changes s s' [.frame, .solver, .jig, .fault, .eth, .fresh] [Reg.FAULT_MAINT_HELD.HELD,
      Reg.FAULT_MAINT_LAST.HOLDER, Reg.FAULT_MAINT_LAST.REQUESTED, Reg.FAULT_MAINT_REFUSED.COUNT, Reg.JIG_BACKPRESSURE.COUNT,
      Reg.JIG_STATUS.PEND_READY, Reg.JIG_STATUS.TRACE_FULL, Reg.JIG_TICK.TICK, Reg.JIG_TRACE_LOST.COUNT, Reg.JIG_TRACE_WR.INDEX,
      Reg.JIG_TRACE_WR.WRAPS] [Reg.TILE_JIG_STATE.READY, Reg.TILE_JIG_STATE.RUNNING] ∧ StoresSame s s') ∧
  (∀ (tile : Nat) (reserve : Nat) (thread : Nat) (s s' : State), exec (.taskDispatch tile reserve thread) s = .next s' → Changes s s'
      [.jig, .fault, .eth, .fresh] [Reg.FAULT_MAINT_HELD.HELD, Reg.FAULT_MAINT_LAST.HOLDER, Reg.FAULT_MAINT_LAST.REQUESTED,
      Reg.FAULT_MAINT_REFUSED.COUNT, Reg.JIG_STATUS.PEND_READY, Reg.JIG_STATUS.TRACE_FULL, Reg.JIG_TEST_ADMITS.COUNT,
      Reg.JIG_TEST_DEFERS.COUNT, Reg.JIG_TRACE_LOST.COUNT, Reg.JIG_TRACE_WR.INDEX, Reg.JIG_TRACE_WR.WRAPS] [Reg.TILE_JIG_STATE.READY,
      Reg.TILE_JIG_STATE.RUNNING] ∧ StoresSame s s') ∧
  (∀ (tile : Nat) (d : Nat) (why : Yield) (s s' : State), exec (.taskYield tile d why) s = .next s' → Changes s s' [.jig, .eth, .fresh]
      [Reg.JIG_STATUS.PEND_READY, Reg.JIG_STATUS.TRACE_FULL, Reg.JIG_TRACE_LOST.COUNT, Reg.JIG_TRACE_WR.INDEX, Reg.JIG_TRACE_WR.WRAPS]
      [Reg.TILE_JIG_STATE.READY, Reg.TILE_JIG_STATE.RUNNING] ∧ StoresSame s s') ∧
  (∀ (tile : Nat) (d : Nat) (s s' : State), exec (.taskComplete tile d) s = .next s' → Changes s s' [.frame, .cfg, .order, .spec, .jig,
      .safety, .pins, .fault, .digest, .eth, .tenon, .power, .sec, .fresh] (detectFields ++ [Reg.FRAME_SPEC_FULL.FULL,
      Reg.JIG_BACKPRESSURE.COUNT, Reg.JIG_STATUS.PEND_READY, Reg.JIG_STATUS.TRACE_FULL, Reg.JIG_TRACE_LOST.COUNT, Reg.JIG_TRACE_WR.INDEX,
      Reg.JIG_TRACE_WR.WRAPS, Reg.ORDER_CONFLICT_COUNT.CONFLICTS, Reg.ORDER_STATUS.SCORE_CONFLICT, Reg.WORLD_SEED_INVALID.INVALID])
      (detectFamilies ++ [Reg.TILE_CHK_NEAR.NEAR, Reg.TILE_CHK_SKIPPED.SKIPPED, Reg.TILE_JIG_STATE.READY, Reg.TILE_JIG_STATE.RUNNING,
      Reg.TILE_SWEEP_STATUS.OFF_GRID, Reg.TILE_SWEEP_STATUS.POISONED_READ, Reg.TILE_SWEEP_STATUS.PRED_BEYOND,
      Reg.TILE_SWEEP_STATUS.SATURATED]) ∧ StoresSame s s') ∧
  (∀ (s s' : State), exec .depthAnnounce s = .next s' → Changes s s' [.jig] [] ∧ StoresSame s s') ∧
  (∀ (tile : Nat) (d : Nat) (s s' : State), exec (.taskOffer tile d) s = .next s' → Changes s s' [.jig, .eth, .fresh]
      [Reg.JIG_STATUS.PEND_READY, Reg.JIG_STATUS.TRACE_FULL, Reg.JIG_TRACE_LOST.COUNT, Reg.JIG_TRACE_WR.INDEX, Reg.JIG_TRACE_WR.WRAPS]
      [Reg.TILE_JIG_STATE.READY, Reg.TILE_JIG_STATE.RUNNING] ∧ StoresSame s s') ∧
  (∀ (tile : Nat) (s s' : State), exec (.sliceAbort tile) s = .next s' → Changes s s' [.jig, .fault, .eth, .fresh]
      [Reg.FAULT_MAINT_HELD.HELD, Reg.JIG_STATUS.PEND_READY, Reg.JIG_STATUS.TRACE_FULL, Reg.JIG_TEST_ABORTS.COUNT, Reg.JIG_TRACE_LOST.COUNT,
      Reg.JIG_TRACE_WR.INDEX, Reg.JIG_TRACE_WR.WRAPS] [Reg.TILE_JIG_STATE.READY, Reg.TILE_JIG_STATE.RUNNING] ∧ StoresSame s s') ∧
  (∀ (tile : Nat) (d : Nat) (layer : Nat) (panel : Nat) (bank : Nat) (fromHbm : Bool) (s s' : State), exec (.panelReadDone tile d layer
      panel bank fromHbm) s = .next s' → Changes s s' [.jig] [] ∧ StoresSame s s') ∧
  (∀ (s s' : State), exec .ledgerTransition s = .next s' → Changes s s' [.ledger] [Reg.LEDGER_QUEUE_DEPTH.DEPTH, Reg.LEDGER_STATUS.PHASE]
      ∧ StoresSame s s') ∧
  (∀ (s s' : State), exec .ledgerClose s = .next s' → Changes s s' [.frame, .cfg, .ledger, .order, .spec, .jig, .safety, .pins, .fault,
      .digest, .eth, .tenon, .power, .sec, .fresh] (detectFields ++ [Reg.JIG_STATUS.TRACE_FULL, Reg.JIG_TRACE_LOST.COUNT,
      Reg.JIG_TRACE_WR.INDEX, Reg.JIG_TRACE_WR.WRAPS, Reg.LEDGER_APPLY_CYCLES.CYCLES, Reg.LEDGER_CLOSED_EPOCH.EPOCH,
      Reg.LEDGER_STALE_RECORDS.STALE, Reg.LEDGER_STATUS.PHASE, Reg.LEDGER_STATUS.STALE_PRESENT, Reg.LEDGER_TOUCHED.TOUCHED,
      Reg.LEDGER_TRANSITIONS.TRANSITIONS, Reg.LEDGER_UPDATES.UPDATES, Reg.ORDER_CONFLICT_COUNT.CONFLICTS, Reg.ORDER_STATUS.SCORE_CONFLICT])
      (detectFamilies ++ [Reg.TILE_SWEEP_STATUS.OFF_GRID, Reg.TILE_SWEEP_STATUS.POISONED_READ, Reg.TILE_SWEEP_STATUS.PRED_BEYOND,
      Reg.TILE_SWEEP_STATUS.SATURATED]) ∧ StoresSame s s') ∧
  (∀ (s s' : State), exec .ledgerRebuild s = .next s' → Changes s s' [.frame, .cfg, .ledger, .order, .spec, .jig, .safety, .pins, .fault,
      .digest, .eth, .tenon, .power, .sec, .fresh] (detectFields ++ [Reg.FAULT_MAINT_HELD.HELD, Reg.JIG_STATUS.TRACE_FULL,
      Reg.JIG_TRACE_LOST.COUNT, Reg.JIG_TRACE_WR.INDEX, Reg.JIG_TRACE_WR.WRAPS, Reg.LEDGER_APPLY_CYCLES.CYCLES, Reg.LEDGER_CLOSED_EPOCH.EPOCH,
      Reg.LEDGER_QUEUE_DEPTH.DEPTH, Reg.LEDGER_REBUILD_CAUSE.CAUSE, Reg.LEDGER_REBUILD_COUNT.REBUILDS, Reg.LEDGER_STALE_RECORDS.STALE,
      Reg.LEDGER_STATUS.PHASE, Reg.LEDGER_STATUS.REBUILD_PENDING, Reg.LEDGER_STATUS.STALE_PRESENT, Reg.LEDGER_TOUCHED.TOUCHED,
      Reg.LEDGER_TRANSITIONS.TRANSITIONS, Reg.LEDGER_UPDATES.UPDATES, Reg.ORDER_CONFLICT_COUNT.CONFLICTS, Reg.ORDER_STATUS.SCORE_CONFLICT])
      (detectFamilies ++ [Reg.TILE_SWEEP_STATUS.OFF_GRID, Reg.TILE_SWEEP_STATUS.POISONED_READ, Reg.TILE_SWEEP_STATUS.PRED_BEYOND,
      Reg.TILE_SWEEP_STATUS.SATURATED]) ∧ StoresSame s s') ∧
  (∀ (src : Source) (s s' : State), exec (.ledgerRebuildCmd src) s = .next s' → Changes s s' [.ledger, .fault, .access]
      [Reg.FAULT_MAINT_HELD.HELD, Reg.FAULT_MAINT_LAST.HOLDER, Reg.FAULT_MAINT_LAST.REQUESTED, Reg.FAULT_MAINT_REFUSED.COUNT,
      Reg.LEDGER_STATUS.CMD_RESULT, Reg.LEDGER_STATUS.REBUILD_PENDING] ∧ StoresSame s s') ∧
  (∀ (spec : Bool) (s s' : State), exec (.searchStart spec) s = .next s' → Changes s s' [.ledger, .spec] [Reg.LEDGER_STATUS.NO_ENTRY] ∧
      StoresSame s s') ∧
  (∀ (spec : Bool) (s s' : State), exec (.searchPhaseEnd spec) s = .next s' → Changes s s' [.ledger, .spec] [] ∧ StoresSame s s') ∧
  (∀ (spec : Bool) (s s' : State), exec (.searchEnd spec) s = .next s' → Changes s s' [.ledger, .spec] [] ∧ StoresSame s s') ∧
  (∀ (s s' : State), exec .pathReserveDeadline s = .next s' → Changes s s' [.frame, .ledger, .jig] [Reg.LEDGER_LATE_COUNT.LATE,
      Reg.LEDGER_STATUS.SEARCH_LATE] ∧ StoresSame s s') ∧
  (∀ (tile : Nat) (constant : Bool) (readable : Bool) (outcome : DowelEnd) (s s' : State), exec (.dowelMismatch tile constant readable
      outcome) s = .next s' → Changes s s' [.frame, .cfg, .spec, .jig, .safety, .pins, .fault, .digest, .eth, .tenon, .power, .sec, .fresh]
      detectFields (detectFamilies ++ [Reg.TILE_DOWEL_MISS.MISS]) ∧ StoresSame s s') ∧
  (∀ (tile : Nat) (repeatOk : Bool) (spare : Option Nat) (replayOk : Bool) (s s' : State), exec (.checksumMiss tile repeatOk spare
      replayOk) s = .next s' → Changes s s' [.frame, .cfg, .spec, .jig, .safety, .pins, .fault, .digest, .eth, .tenon, .power, .sec, .fresh]
      detectFields (detectFamilies ++ [Reg.TILE_CHK_MISS.MISS, Reg.TILE_TENSOR_STATUS.MISS, Reg.TILE_TENSOR_STATUS.REPLAYING]) ∧ StoresSame s
      s') ∧
  (∀ (layer : Nat) (panel : Nat) (s s' : State), exec (.panelFinal layer panel) s = .next s' → Changes s s' [.world, .ledger]
      [Reg.LEDGER_QUEUE_DEPTH.DEPTH, Reg.LEDGER_STATUS.REBUILD_PENDING, Reg.WORLD_DT_CYCLES.CYCLES, Reg.WORLD_DT_PANELS.PANELS,
      Reg.WORLD_SNAP_EPOCH.EPOCH, Reg.WORLD_STATUS.PHASE] [Reg.WORLD_CHANGE_COUNT.CHANGED] ∧ StoresSame s s') ∧
  (∀ (layer : Nat) (panel : Nat) (s s' : State), exec (.distancePanelDone layer panel) s = .next s' → Changes s s' [.world]
      [Reg.WORLD_DT_CYCLES.CYCLES, Reg.WORLD_DT_PANELS.PANELS, Reg.WORLD_SNAP_EPOCH.EPOCH, Reg.WORLD_STATUS.PHASE]
      [Reg.WORLD_CHANGE_COUNT.CHANGED] ∧ StoresSame s s') ∧
  (∀ (s s' : State), exec .mergeStart s = .next s' → Changes s s' [.order, .tenon] [Reg.ORDER_FALLBACK_COUNT.EPOCHS]
      [Reg.TENON_LINK_CREDITS.SHARED, Reg.TENON_LINK_CREDITS.VC0, Reg.TENON_LINK_CREDITS.VC1, Reg.TENON_LINK_CREDITS.VC2,
      Reg.TENON_LINK_CREDITS.VC3] ∧ StoresSame s s') ∧
  (∀ (s s' : State), exec .searchDeadline s = .next s' → Changes s s' [.frame, .cfg, .order, .spec, .jig, .safety, .pins, .fault, .digest,
      .eth, .tenon, .power, .sec, .fresh] (detectFields ++ [Reg.FRAME_PRED_EPOCH.EPOCH, Reg.JIG_STATUS.PEND_READY, Reg.JIG_STATUS.TRACE_FULL,
      Reg.JIG_TRACE_LOST.COUNT, Reg.JIG_TRACE_WR.INDEX, Reg.JIG_TRACE_WR.WRAPS, Reg.ORDER_CONFLICT_COUNT.CONFLICTS,
      Reg.ORDER_STATUS.SCORE_CONFLICT]) (detectFamilies ++ [Reg.FRAME_PRED_STATE.STATE, Reg.TILE_JIG_STATE.READY, Reg.TILE_JIG_STATE.RUNNING,
      Reg.TILE_SWEEP_STATUS.OFF_GRID, Reg.TILE_SWEEP_STATUS.POISONED_READ, Reg.TILE_SWEEP_STATUS.PRED_BEYOND,
      Reg.TILE_SWEEP_STATUS.SATURATED]) ∧ StoresSame s s') ∧
  (∀ (s s' : State), exec .remoteListDeadline s = .next s' → Changes s s' [.order, .jig] [Reg.TENON_LIST_LATE.COUNT] ∧ StoresSame s s') ∧
  (∀ (s s' : State), exec .mergeDone s = .next s' → Changes s s' [.frame, .cfg, .order, .solver, .spec, .jig, .safety, .pins, .fault,
      .digest, .eth, .tenon, .power, .sec, .fresh] (detectFields ++ [Reg.ORDER_CONFLICT_COUNT.CONFLICTS, Reg.ORDER_NAN_TOTAL.NAN,
      Reg.ORDER_STATUS.SCORE_CONFLICT, Reg.SOLVER_DIAG_STATUS.ENGINE, Reg.SOLVER_DIAG_STATUS.RESULT, Reg.SOLVER_STATUS.DIAG_BUSY,
      Reg.SOLVER_STATUS.NO_ENGINE]) detectFamilies ∧ StoresSame s s') ∧
  (∀ (mech : Nat) (clean : Bool) (s s' : State), exec (.orderError mech clean) s = .next s' → Changes s s' [.frame, .cfg, .order, .spec,
      .jig, .safety, .pins, .fault, .digest, .eth, .tenon, .power, .sec, .fresh] (detectFields ++ [Reg.ORDER_FALLBACK_COUNT.EPOCHS,
      Reg.ORDER_STATUS.REPEATED]) detectFamilies ∧ StoresSame s s') ∧
  (∀ (s s' : State), exec .fallbackMergeDone s = .next s' → Changes s s' [.frame, .cfg, .order, .solver, .spec, .jig, .safety, .pins,
      .fault, .digest, .eth, .tenon, .power, .sec, .fresh] (detectFields ++ [Reg.ORDER_CONFLICT_COUNT.CONFLICTS, Reg.ORDER_NAN_TOTAL.NAN,
      Reg.ORDER_STATUS.SCORE_CONFLICT, Reg.SOLVER_DIAG_STATUS.ENGINE, Reg.SOLVER_DIAG_STATUS.RESULT, Reg.SOLVER_STATUS.DIAG_BUSY,
      Reg.SOLVER_STATUS.NO_ENGINE]) detectFamilies ∧ StoresSame s s') ∧
  (∀ (s s' : State), exec .referenceArrival s = .next s' → Changes s s' [.solver] [] ∧ StoresSame s s') ∧
  (∀ (s s' : State), exec .solverIteration s = .next s' → Changes s s' [.solver] [] ∧ StoresSame s s') ∧
  (∀ (s s' : State), exec .solverStopTime s = .next s' → Changes s s' [.solver] [] ∧ StoresSame s s') ∧
  (∀ (t : Nat) (differ : Bool) (s s' : State), exec (.refineReturn t differ) s = .next s' → Changes s s' [.frame, .solver, .jig, .safety]
      [Reg.SOLVER_COLD_COUNT.COUNT, Reg.SOLVER_DEADLINE_COUNT.COUNT, Reg.SOLVER_NUMERIC_COUNT.COUNT, Reg.SOLVER_RETURN_NS.RETURN,
      Reg.SOLVER_STATUS.DIAG_BUSY] ∧ StoresSame s s') ∧
  (∀ (mech : Nat) (s s' : State), exec (.solverEngineError mech) s = .next s' → Changes s s' [.frame, .cfg, .solver, .spec, .jig, .safety,
      .pins, .fault, .digest, .eth, .tenon, .power, .sec, .fresh] (detectFields ++ [Reg.SOLVER_STATUS.NO_ENGINE, Reg.SOLVER_STATUS.REPLAYED])
      detectFamilies ∧ StoresSame s s') ∧
  (∀ (result : Diag) (s s' : State), exec (.diagResolveDone result) s = .next s' → Changes s s' [.frame, .cfg, .solver, .spec, .jig,
      .safety, .pins, .fault, .digest, .eth, .tenon, .power, .sec, .fresh] (detectFields ++ [Reg.SOLVER_DIAG_STATUS.ENGINE,
      Reg.SOLVER_DIAG_STATUS.PIVOT, Reg.SOLVER_DIAG_STATUS.RESULT, Reg.SOLVER_DIAG_STATUS.STAGE, Reg.SOLVER_STATUS.DIAG_BUSY]) detectFamilies
      ∧ StoresSame s s') ∧
  (∀ (s s' : State), exec .finalSweepDone s = .next s' → Changes s s' [.jig, .safety] [] ∧ StoresSame s s')

/-- Whenever one of the 42 commands of this group answers a next state, the parts of the state it does not name are as before, the queue of waiting
commands among them, and so are the register fields it does not name and every byte of the addressed stores it does not store to. Of the registers
nothing is said here for frameStart, reloadDone, commit, which take an image, restart the device or run other commands' effects. A capture record goes
to the bytes of the ring from the old write offset up to the new one. The lists are the effects the rules of the cited files give each command,
through every operation its effect sets off (an error's handling, a restart, a message sent). -/
def Obligations.FramesOfTheFrameAndSafety : Prop :=
  (∀ (delta : Int) (s s' : State), exec (.ptpCorrection delta) s = .next s' → Changes s s' [.frame, .fresh] [Reg.ETH_PTP_OFFSET.OFFSET,
      Reg.ETH_STATUS.PTP_PORT] ∧ StoresSame s s') ∧
  (∀ (s s' : State), exec .syncLoss s = .next s' → Changes s s' [] [Reg.ETH_STATUS.PTP_SYNCED, Reg.FRAME_STATUS.HOLDOVER] ∧ StoresSame s
      s') ∧
  (∀ (delta : Int) (s s' : State), exec (.syncReturn delta) s = .next s' → Changes s s' [.frame, .fresh] [Reg.ETH_PTP_OFFSET.OFFSET,
      Reg.ETH_STATUS.PTP_PORT, Reg.ETH_STATUS.PTP_SYNCED, Reg.FRAME_STATUS.HOLDOVER] ∧ StoresSame s s') ∧
  (∀ (k : Nat) (s s' : State), exec (.frameStart k) s = .next s' → PartsSame s s' [.frame, .cfg, .world, .ledger, .order, .solver, .spec,
      .jig, .safety, .pins, .die, .fault, .digest, .eth, .tenon, .power, .sec, .fresh] ∧ StoresBut s s' [.ring] ∧
      ∀ a : Nat, a < s.digest.write ∨ s'.digest.write ≤ a → sGet 0 a s'.digest.ring = sGet 0 a s.digest.ring) ∧
  (∀ (s s' : State), exec .admissionClose s = .next s' → Changes s s' [.frame, .cfg, .world, .ledger, .order, .spec, .jig, .safety, .pins,
      .fault, .digest, .eth, .tenon, .power, .sec, .fresh] (detectFields ++ [Reg.JIG_STATUS.TRACE_FULL, Reg.JIG_TRACE_LOST.COUNT,
      Reg.JIG_TRACE_WR.INDEX, Reg.JIG_TRACE_WR.WRAPS, Reg.LEDGER_QUEUE_DEPTH.DEPTH, Reg.LEDGER_SHIFT_XY.SX, Reg.LEDGER_SHIFT_XY.SY,
      Reg.LEDGER_SHIFT_Z.SZ, Reg.LEDGER_STATUS.REBUILD_PENDING, Reg.ORDER_CONFLICT_COUNT.CONFLICTS, Reg.ORDER_STATUS.SCORE_CONFLICT,
      Reg.WORLD_DT_CYCLES.CYCLES, Reg.WORLD_DT_PANELS.PANELS, Reg.WORLD_EGO_MISSING.MISSING, Reg.WORLD_SNAP_EPOCH.EPOCH,
      Reg.WORLD_START_PROJECTED.PROJECTED, Reg.WORLD_START_STATUS.NO_STATE, Reg.WORLD_START_STATUS.OUTSIDE_ENVELOPE,
      Reg.WORLD_START_STATUS.REUSED, Reg.WORLD_START_STATUS.REUSE_COUNT, Reg.WORLD_STATUS.PHASE]) (detectFamilies ++
      [Reg.TILE_SWEEP_STATUS.OFF_GRID, Reg.TILE_SWEEP_STATUS.POISONED_READ, Reg.TILE_SWEEP_STATUS.PRED_BEYOND,
      Reg.TILE_SWEEP_STATUS.SATURATED, Reg.WORLD_CHANGE_COUNT.CHANGED, Reg.WORLD_DIRTY_COUNT.DIRTY, Reg.WORLD_STREAM_BYTES.BYTES,
      Reg.WORLD_STREAM_STATUS.ACTIVE, Reg.WORLD_STREAM_STATUS.SILENT, Reg.WORLD_STREAM_STATUS.STALE]) ∧ StoresSame s s') ∧
  (∀ (src : Source) (s s' : State), exec (.structSwitch src) s = .next s' → Changes s s' [.cfg, .fault, .access]
      [Reg.CONFIG_BULK_WAIT.BULK_ID, Reg.CONFIG_LOAD_DETAIL.ITEM, Reg.CONFIG_LOAD_DETAIL.SECTION_TYPE, Reg.CONFIG_LOAD_STATUS.PHASE,
      Reg.CONFIG_LOAD_STATUS.REASON, Reg.CONFIG_LOAD_STATUS.SLOT, Reg.CONFIG_SLOT_STATE.A_VALID, Reg.CONFIG_SLOT_STATE.B_VALID,
      Reg.CONFIG_SWITCH_STATUS.PHASE, Reg.CONFIG_SWITCH_STATUS.RESULT, Reg.ETH_PUSH_NEXT_HI.NEXT_HI, Reg.ETH_PUSH_NEXT_LO.NEXT_LO,
      Reg.FAULT_MAINT_HELD.HELD, Reg.FAULT_MAINT_LAST.HOLDER, Reg.FAULT_MAINT_LAST.REQUESTED, Reg.FAULT_MAINT_REFUSED.COUNT] ∧ StoresSame s
      s') ∧
  (∀ (s s' : State), exec .switchPrepared s = .next s' → Changes s s' [.cfg, .fault] [Reg.CONFIG_LOAD_STATUS.PHASE,
      Reg.CONFIG_SWITCH_STATUS.PHASE, Reg.CONFIG_SWITCH_STATUS.RESULT, Reg.FAULT_MAINT_HELD.HELD] ∧ StoresSame s s') ∧
  (∀ (src : Source) (s s' : State), exec (.hold src) s = .next s' → Changes s s' [.frame, .cfg, .fault, .access]
      [Reg.CONFIG_SWITCH_STATUS.PHASE, Reg.CONFIG_SWITCH_STATUS.RESULT, Reg.FAULT_MAINT_HELD.HELD, Reg.FAULT_MAINT_LAST.HOLDER,
      Reg.FAULT_MAINT_LAST.REQUESTED, Reg.FAULT_MAINT_REFUSED.COUNT, Reg.FRAME_STATUS.FRAME_ACTIVE] ∧ StoresSame s s') ∧
  (∀ (src : Source) (s s' : State), exec (.resume src) s = .next s' → Changes s s' [.frame, .cfg, .fault, .access]
      [Reg.CONFIG_SWITCH_STATUS.PHASE, Reg.CONFIG_SWITCH_STATUS.RESULT, Reg.FAULT_MAINT_HELD.HELD] ∧ StoresSame s s') ∧
  (∀ (src : Source) (s s' : State), exec (.switchCancel src) s = .next s' → Changes s s' [.cfg, .fault, .access]
      [Reg.CONFIG_SWITCH_STATUS.PHASE, Reg.CONFIG_SWITCH_STATUS.RESULT, Reg.FAULT_MAINT_HELD.HELD] ∧ StoresSame s s') ∧
  (∀ (s s' : State), exec .drainFrameEnd s = .next s' → Changes s s' [.frame, .cfg, .spec, .jig, .safety, .pins, .fault, .digest, .eth,
      .tenon, .power, .sec] [Reg.CONFIG_SWITCH_STATUS.PHASE, Reg.CONFIG_SWITCH_STATUS.RESULT, Reg.CONFIG_SWITCH_STATUS.SHADOW_DISCARDED,
      Reg.FRAME_SPEC_DISCARDS.DISCARDS, Reg.FRAME_SPEC_EPOCH.EPOCH, Reg.FRAME_STATUS.FRAME_ACTIVE, Reg.FRAME_STATUS.SHADOW,
      Reg.SAFE_MODE.MODE, Reg.SAFE_SP_CLIPPED.COUNT, Reg.SAFE_SP_STATUS.GENERATION, Reg.SAFE_SP_STATUS.PHASE, Reg.SAFE_SP_SWAPS.COUNT,
      Reg.SAFE_STOP_COUNT.COUNT, Reg.SEC_BOOT_STATUS.STATE, Reg.SEC_BOOT_STATUS.STEP, Reg.SEC_BOOT_STATUS.WARM, Reg.SEC_RESTART_COUNT.COUNT,
      Reg.TENON_SQUASH_SENT.COUNT] [Reg.TENON_LINK_CREDITS.SHARED, Reg.TENON_LINK_CREDITS.VC0, Reg.TENON_LINK_CREDITS.VC1,
      Reg.TENON_LINK_CREDITS.VC2, Reg.TENON_LINK_CREDITS.VC3] ∧ StoresSame s s') ∧
  (∀ (t : Nat) (s s' : State), exec (.reloadDone t) s = .next s' → PartsSame s s' [.frame, .cfg, .world, .ledger, .order, .solver, .spec,
      .jig, .safety, .fault, .digest, .eth, .sec] ∧ StoresSame s s') ∧
  (∀ (s s' : State), exec .warmRestartTimeout s = .next s' → Changes s s' [.frame, .cfg, .spec, .jig, .safety, .fault, .digest, .eth,
      .tenon, .power, .sec] [Reg.CONFIG_SWITCH_STATUS.PHASE, Reg.CONFIG_SWITCH_STATUS.RESULT, Reg.FRAME_SPEC_DISCARDS.DISCARDS,
      Reg.FRAME_SPEC_EPOCH.EPOCH, Reg.FRAME_STATUS.FRAME_ACTIVE, Reg.FRAME_STATUS.SHADOW, Reg.SAFE_MODE.RESTARTS,
      Reg.SEC_BOOT_ATTEMPTS.A_EXCLUDED, Reg.SEC_BOOT_ATTEMPTS.A_FAILS, Reg.SEC_BOOT_ATTEMPTS.B_EXCLUDED, Reg.SEC_BOOT_ATTEMPTS.B_FAILS,
      Reg.SEC_BOOT_ATTEMPTS.WARM_FAILS, Reg.SEC_BOOT_STATUS.STATE, Reg.SEC_BOOT_STATUS.STEP, Reg.SEC_BOOT_STATUS.WARM,
      Reg.SEC_RESTART_COUNT.COUNT, Reg.TENON_SQUASH_SENT.COUNT] [Reg.TENON_LINK_CREDITS.SHARED, Reg.TENON_LINK_CREDITS.VC0,
      Reg.TENON_LINK_CREDITS.VC1, Reg.TENON_LINK_CREDITS.VC2, Reg.TENON_LINK_CREDITS.VC3] ∧ StoresSame s s') ∧
  (∀ (s s' : State), exec .gridUpdate s = .next s' → Changes s s' [.frame, .safety] [] ∧ StoresSame s s') ∧
  (∀ (s s' : State), exec .precheck s = .next s' → Changes s s' [.safety] [] ∧ StoresSame s s') ∧
  (∀ (s s' : State), exec .precheckDone s = .next s' → Changes s s' [.safety] [] ∧ StoresSame s s') ∧
  (∀ (s s' : State), exec .verifyHandover s = .next s' → Changes s s' [.safety] [] ∧ StoresSame s s') ∧
  (∀ (fallback : Bool) (s s' : State), exec (.trySquareCheckDone fallback) s = .next s' → Changes s s' [.safety] [] ∧ StoresSame s s') ∧
  (∀ (s s' : State), exec .verdictTime s = .next s' → Changes s s' [.frame, .digest] [Reg.FRAME_LATE_COUNT.LATE,
      Reg.FRAME_STATUS.LAST_LATE] ∧ StoresSame s s') ∧
  (∀ (s s' : State), exec .verdict s = .next s' → Changes s s' [.frame, .cfg, .spec, .jig, .safety, .pins, .fault, .digest, .eth, .tenon,
      .power, .sec] [Reg.CONFIG_SLOT_ACTIVE.ACCEPTS, Reg.CONFIG_SWITCH_STATUS.PHASE, Reg.CONFIG_SWITCH_STATUS.RESULT,
      Reg.FRAME_SPEC_DISCARDS.DISCARDS, Reg.FRAME_SPEC_EPOCH.EPOCH, Reg.FRAME_STATUS.FRAME_ACTIVE, Reg.FRAME_STATUS.SHADOW,
      Reg.SAFE_ENTRY_COUNT.COUNT, Reg.SAFE_FB_COUNT.COUNT, Reg.SAFE_FB_REMAIN.MS, Reg.SAFE_MAIN_CLEARANCE.FINAL, Reg.SAFE_MODE.ARMED,
      Reg.SAFE_MODE.MODE, Reg.SAFE_MODE.RESTARTS, Reg.SAFE_PREV_COUNT.COUNT, Reg.SAFE_REASON.REASON, Reg.SAFE_STOP_COUNT.COUNT,
      Reg.SAFE_TS_CLEARANCE.LTS, Reg.SAFE_VERDICT.DISAGREE, Reg.SAFE_VERDICT.SHADOW, Reg.SAFE_VERDICT.VERDICT, Reg.SAFE_VERDICT_EPOCH.EPOCH,
      Reg.SAFE_WINDOW.MAP, Reg.SEC_BOOT_ATTEMPTS.A_EXCLUDED, Reg.SEC_BOOT_ATTEMPTS.A_FAILS, Reg.SEC_BOOT_ATTEMPTS.B_EXCLUDED,
      Reg.SEC_BOOT_ATTEMPTS.B_FAILS, Reg.SEC_BOOT_ATTEMPTS.WARM_FAILS, Reg.SEC_BOOT_STATUS.STATE, Reg.SEC_BOOT_STATUS.STEP,
      Reg.SEC_BOOT_STATUS.WARM, Reg.SEC_RESTART_COUNT.COUNT, Reg.TENON_SQUASH_SENT.COUNT] [Reg.TENON_LINK_CREDITS.SHARED,
      Reg.TENON_LINK_CREDITS.VC0, Reg.TENON_LINK_CREDITS.VC1, Reg.TENON_LINK_CREDITS.VC2, Reg.TENON_LINK_CREDITS.VC3] ∧ StoresSame s s') ∧
  (∀ (s s' : State), exec .commit s = .next s' → PartsSame s s' [.frame, .cfg, .world, .solver, .spec, .jig, .safety, .pins, .fault,
      .digest, .eth, .tenon, .power, .sec, .fresh] ∧ StoresBut s s' [.ring] ∧
      ∀ a : Nat, a < s.digest.write ∨ s'.digest.write ≤ a → sGet 0 a s'.digest.ring = sGet 0 a s.digest.ring) ∧
  (∀ (s s' : State), exec .islandTableGeneration s = .next s' → Changes s s' [.frame, .safety, .pins, .eth] [Reg.SAFE_FB_REMAIN.MS,
      Reg.SAFE_MODE.ARMED, Reg.SAFE_MODE.MODE, Reg.SAFE_SP_CLIPPED.COUNT, Reg.SAFE_SP_STATUS.GENERATION, Reg.SAFE_SP_SWAPS.COUNT,
      Reg.SAFE_STOP_COUNT.COUNT] [Reg.ETH_PART_RESULTS.COUNT, Reg.ETH_PART_STATUS.KEY_VALID, Reg.ETH_PART_STATUS.ROLL_DUE,
      Reg.ETH_PART_TX_SEQ.SEQ, Reg.ETH_PORT_TX_DROP.COUNT] ∧ StoresSame s s') ∧
  (∀ (again : Bool) (s s' : State), exec (.lockstepMismatch again) s = .next s' → Changes s s' [.frame, .cfg, .spec, .jig, .safety, .pins,
      .fault, .digest, .eth, .tenon, .power, .sec, .fresh] (detectFields ++ [Reg.SAFE_MODE.ISLAND_FAULT]) detectFamilies ∧ StoresSame s s') ∧
  (∀ (s s' : State), exec .checkerClockDeviation s = .next s' → Changes s s' [.frame, .cfg, .spec, .jig, .safety, .pins, .fault, .digest,
      .eth, .tenon, .power, .sec, .fresh] (detectFields ++ [Reg.SAFE_MODE.ISLAND_FAULT]) detectFamilies ∧ StoresSame s s') ∧
  (∀ (s s' : State), exec .wdInTimeout s = .next s' → Changes s s' [.frame, .cfg, .spec, .jig, .safety, .pins, .fault, .digest, .eth,
      .tenon, .power, .sec, .fresh] (detectFields ++ [Reg.SAFE_MODE.WD_EXPIRED]) detectFamilies ∧ StoresSame s s') ∧
  (∀ (s s' : State), exec .wdInChange s = .next s' → Changes s s' [.safety, .pins] [] ∧ StoresSame s s') ∧
  (∀ (src : Source) (s s' : State), exec (.safeEnter src) s = .next s' → Changes s s' [.frame, .cfg, .spec, .jig, .safety, .pins, .fault,
      .digest, .eth, .tenon, .power, .sec, .access] [Reg.CONFIG_SLOT_ACTIVE.ACCEPTS, Reg.CONFIG_SWITCH_STATUS.PHASE,
      Reg.CONFIG_SWITCH_STATUS.RESULT, Reg.FRAME_SPEC_DISCARDS.DISCARDS, Reg.FRAME_SPEC_EPOCH.EPOCH, Reg.FRAME_STATUS.FRAME_ACTIVE,
      Reg.FRAME_STATUS.SHADOW, Reg.SAFE_ENTRY_COUNT.COUNT, Reg.SAFE_FB_REMAIN.MS, Reg.SAFE_MODE.ARMED, Reg.SAFE_MODE.MODE,
      Reg.SAFE_MODE.RESTARTS, Reg.SAFE_SP_CLIPPED.COUNT, Reg.SAFE_SP_STATUS.GENERATION, Reg.SAFE_SP_SWAPS.COUNT, Reg.SAFE_STOP_COUNT.COUNT,
      Reg.SAFE_VERDICT.SHADOW, Reg.SAFE_VERDICT.VERDICT, Reg.SAFE_VERDICT_EPOCH.EPOCH, Reg.SAFE_WINDOW.MAP, Reg.SEC_BOOT_STATUS.STATE,
      Reg.SEC_BOOT_STATUS.STEP, Reg.SEC_BOOT_STATUS.WARM, Reg.SEC_RESTART_COUNT.COUNT, Reg.TENON_SQUASH_SENT.COUNT]
      [Reg.TENON_LINK_CREDITS.SHARED, Reg.TENON_LINK_CREDITS.VC0, Reg.TENON_LINK_CREDITS.VC1, Reg.TENON_LINK_CREDITS.VC2,
      Reg.TENON_LINK_CREDITS.VC3] ∧ StoresSame s s') ∧
  (∀ (src : Source) (s s' : State), exec (.slotOpen src) s = .next s' → Changes s s' [.cfg, .fault, .access]
      [Reg.CONFIG_SLOT_STATE.A_STATE, Reg.CONFIG_SLOT_STATE.B_STATE, Reg.CONFIG_SLOT_STATUS.BUSY, Reg.CONFIG_SLOT_STATUS.RESULT,
      Reg.FAULT_MAINT_HELD.HELD, Reg.FAULT_MAINT_LAST.HOLDER, Reg.FAULT_MAINT_LAST.REQUESTED, Reg.FAULT_MAINT_REFUSED.COUNT,
      Reg.SEC_BOOT_ATTEMPTS.A_EXCLUDED, Reg.SEC_BOOT_ATTEMPTS.A_FAILS, Reg.SEC_BOOT_ATTEMPTS.B_EXCLUDED, Reg.SEC_BOOT_ATTEMPTS.B_FAILS] ∧
      StoresBut s s' [.slotA, .slotB]) ∧
  (∀ (chestOk : Bool) (s s' : State), exec (.slotEraseDone chestOk) s = .next s' → Changes s s' [.cfg, .fault]
      [Reg.CONFIG_SLOT_STATE.A_STATE, Reg.CONFIG_SLOT_STATE.B_STATE, Reg.CONFIG_SLOT_STATUS.BUSY, Reg.CONFIG_SLOT_STATUS.RESULT,
      Reg.FAULT_MAINT_HELD.HELD] ∧ StoresBut s s' [.slotA, .slotB]) ∧
  (∀ (src : Source) (value : Word) (s s' : State), exec (.slotDataBlock src value) s = .next s' → Changes s s' [.cfg, .access]
      [Reg.CONFIG_SLOT_STATUS.BUSY, Reg.CONFIG_SLOT_STATUS.RESULT] ∧ StoresBut s s' [.window]) ∧
  (∀ (chestOk : Bool) (s s' : State), exec (.slotBlockProgrammed chestOk) s = .next s' → Changes s s' [.cfg, .fault]
      [Reg.CONFIG_SLOT_STATE.A_STATE, Reg.CONFIG_SLOT_STATE.B_STATE, Reg.CONFIG_SLOT_STATUS.BUSY, Reg.CONFIG_SLOT_STATUS.RESULT,
      Reg.FAULT_MAINT_HELD.HELD] ∧ StoresBut s s' [.slotA, .slotB]) ∧
  (∀ (src : Source) (s s' : State), exec (.slotClose src) s = .next s' → Changes s s' [.cfg, .access] [Reg.CONFIG_SLOT_STATE.A_STATE,
      Reg.CONFIG_SLOT_STATE.B_STATE, Reg.CONFIG_SLOT_STATUS.BUSY, Reg.CONFIG_SLOT_STATUS.RESULT] ∧ StoresBut s s' [.slotA, .slotB]) ∧
  (∀ (chestOk : Bool) (s s' : State), exec (.slotCloseVerified chestOk) s = .next s' → Changes s s' [.cfg, .fault]
      [Reg.CONFIG_LOAD_DETAIL.ITEM, Reg.CONFIG_LOAD_DETAIL.SECTION_TYPE, Reg.CONFIG_SLOT_STATE.A_STATE, Reg.CONFIG_SLOT_STATE.B_STATE,
      Reg.CONFIG_SLOT_STATUS.BUSY, Reg.CONFIG_SLOT_STATUS.RESULT, Reg.FAULT_MAINT_HELD.HELD] ∧ StoresBut s s' [.slotA, .slotB]) ∧
  (∀ (src : Source) (s s' : State), exec (.slotAbort src) s = .next s' → Changes s s' [.cfg, .fault, .access]
      [Reg.CONFIG_SLOT_STATUS.BUSY, Reg.CONFIG_SLOT_STATUS.RESULT, Reg.FAULT_MAINT_HELD.HELD] ∧ StoresSame s s') ∧
  (∀ (src : Source) (mask : Nat) (s s' : State), exec (.quiesceRequest src mask) s = .next s' → Changes s s' [.access]
      [Reg.CONFIG_QUIESCE_REQ.REQ, Reg.CONFIG_QUIESCE_STATUS.QUIESCED] ∧ StoresSame s s') ∧
  (∀ (block : Nat) (s s' : State), exec (.blockQuiesced block) s = .next s' → Changes s s' [] [Reg.CONFIG_QUIESCE_STATUS.QUIESCED] ∧
      StoresSame s s') ∧
  (∀ (src : Source) (s s' : State), exec (.checkpoint src) s = .next s' → Changes s s' [.digest, .access] [] ∧ StoresSame s s') ∧
  (∀ (src : Source) (s s' : State), exec (.capClear src) s = .next s' → Changes s s' [.digest, .access] [Reg.DIGEST_CAP_STATUS.FULL,
      Reg.DIGEST_CAP_WR.OFFSET] ∧ StoresBut s s' [.ring]) ∧
  (∀ (src : Source) (s s' : State), exec (.replayMain src) s = .next s' → Changes s s' [.world, .ledger, .order, .solver, .spec, .jig,
      .fault, .digest, .access] [Reg.DIGEST_REPLAY_COUNT.COUNT, Reg.DIGEST_REPLAY_EPOCH.EPOCH, Reg.DIGEST_REPLAY_STATUS.PHASE,
      Reg.DIGEST_REPLAY_STATUS.RESULT, Reg.DIGEST_REPLAY_STATUS.STAGE, Reg.FAULT_MAINT_HELD.HELD, Reg.LEDGER_QUEUE_DEPTH.DEPTH,
      Reg.LEDGER_SHIFT_XY.SX, Reg.LEDGER_SHIFT_XY.SY, Reg.LEDGER_SHIFT_Z.SZ, Reg.LEDGER_STATUS.REBUILD_PENDING,
      Reg.WORLD_START_STATUS.REUSE_COUNT, Reg.WORLD_STATUS.PHASE, Reg.WORLD_STATUS.REBASE] ∧ StoresSame s s') ∧
  (∀ (src : Source) (s s' : State), exec (.replayFull src) s = .next s' → Changes s s' [.world, .ledger, .order, .solver, .spec, .jig,
      .fault, .digest, .access] [Reg.DIGEST_REPLAY_COUNT.COUNT, Reg.DIGEST_REPLAY_EPOCH.EPOCH, Reg.DIGEST_REPLAY_STATUS.PHASE,
      Reg.DIGEST_REPLAY_STATUS.RESULT, Reg.DIGEST_REPLAY_STATUS.STAGE, Reg.FAULT_MAINT_HELD.HELD, Reg.LEDGER_QUEUE_DEPTH.DEPTH,
      Reg.LEDGER_SHIFT_XY.SX, Reg.LEDGER_SHIFT_XY.SY, Reg.LEDGER_SHIFT_Z.SZ, Reg.LEDGER_STATUS.REBUILD_PENDING,
      Reg.WORLD_START_STATUS.REUSE_COUNT, Reg.WORLD_STATUS.PHASE, Reg.WORLD_STATUS.REBASE] ∧ StoresSame s s') ∧
  (∀ (src : Source) (s s' : State), exec (.replayAbort src) s = .next s' → Changes s s' [.world, .ledger, .order, .solver, .spec, .jig,
      .fault, .digest, .access] [Reg.DIGEST_REPLAY_EPOCH.EPOCH, Reg.DIGEST_REPLAY_STATUS.PHASE, Reg.DIGEST_REPLAY_STATUS.RESULT,
      Reg.DIGEST_REPLAY_STATUS.STAGE, Reg.FAULT_MAINT_HELD.HELD, Reg.LEDGER_QUEUE_DEPTH.DEPTH, Reg.LEDGER_SHIFT_XY.SX, Reg.LEDGER_SHIFT_XY.SY,
      Reg.LEDGER_SHIFT_Z.SZ, Reg.LEDGER_STATUS.REBUILD_PENDING, Reg.WORLD_START_STATUS.REUSE_COUNT, Reg.WORLD_STATUS.PHASE,
      Reg.WORLD_STATUS.REBASE] ∧ StoresSame s s') ∧
  (∀ (stages : List Nat) (frame : Nat) (provenance : List Byte) (s s' : State), exec (.replayEpoch stages frame provenance) s = .next s' →
      Changes s s' [.world, .ledger, .order, .solver, .spec, .jig, .fault, .digest] [Reg.DIGEST_REPLAY_COUNT.COUNT,
      Reg.DIGEST_REPLAY_EPOCH.EPOCH, Reg.DIGEST_REPLAY_STATUS.PHASE, Reg.DIGEST_REPLAY_STATUS.RESULT, Reg.DIGEST_REPLAY_STATUS.STAGE,
      Reg.FAULT_MAINT_HELD.HELD, Reg.LEDGER_QUEUE_DEPTH.DEPTH, Reg.LEDGER_SHIFT_XY.SX, Reg.LEDGER_SHIFT_XY.SY, Reg.LEDGER_SHIFT_Z.SZ,
      Reg.LEDGER_STATUS.REBUILD_PENDING, Reg.WORLD_START_STATUS.REUSE_COUNT, Reg.WORLD_STATUS.PHASE, Reg.WORLD_STATUS.REBASE] ∧ StoresSame s
      s')

/-- Whenever one of the 31 commands of this group answers a next state, the parts of the state it does not name are as before, the queue of waiting
commands among them, and so are the register fields it does not name and every byte of the addressed stores it does not store to. The lists are the
effects the rules of the cited files give each command, through every operation its effect sets off (an error's handling, a restart, a message sent). -/
def Obligations.FramesOfMaintenanceAndPorts : Prop :=
  (∀ (e : ErrorInfo) (s s' : State), exec (.errorDetected e) s = .next s' → Changes s s' [.frame, .cfg, .world, .ledger, .spec, .jig,
      .safety, .pins, .fault, .digest, .eth, .tenon, .power, .sec, .fresh] (detectFields ++ [Reg.LEDGER_STALE_RECORDS.STALE,
      Reg.LEDGER_STATUS.REBUILD_PENDING, Reg.LEDGER_STATUS.STALE_PRESENT, Reg.SAFE_MODE.ISLAND_FAULT, Reg.WORLD_STATUS.POISONED])
      (detectFamilies ++ [fun i => Reg.HBM_CH_ECC_CORR.COUNT (i / 32) (i % 32), fun i => Reg.HBM_CH_ECC_UNCORR.COUNT (i / 32) (i % 32),
      Reg.HBM_ECC_CORR.COUNT, Reg.HBM_ECC_UNCORR.COUNT]) ∧ StoresSame s s') ∧
  (∀ (outcome : Nat) (test : Nat) (s s' : State), exec (.errorHandled outcome test) s = .next s' → Changes s s' [.frame, .cfg, .ledger,
      .spec, .jig, .safety, .pins, .die, .fault, .digest, .eth, .tenon, .power, .sec, .fresh] (detectFields ++ [Reg.ETH_STATUS.LINK,
      Reg.LEDGER_SPARES.USED, Reg.LEDGER_STATUS.REBUILD_PENDING]) (detectFamilies ++ [Reg.TENON_LINK_STATUS.STATE]) ∧ StoresSame s s') ∧
  (∀ (tile : Nat) (i : Nat) (equal : Bool) (s s' : State), exec (.replayCompare tile i equal) s = .next s' → Changes s s' [.frame, .cfg,
      .order, .spec, .jig, .safety, .pins, .fault, .digest, .eth, .tenon, .power, .sec, .fresh] (detectFields ++ [Reg.ETH_STATUS.LINK,
      Reg.FAULT_MAINT_HELD.HELD, Reg.FAULT_MAINT_LAST.HOLDER, Reg.FAULT_MAINT_LAST.REQUESTED, Reg.FAULT_MAINT_REFUSED.COUNT,
      Reg.JIG_STATUS.TRACE_FULL, Reg.JIG_TRACE_LOST.COUNT, Reg.JIG_TRACE_WR.INDEX, Reg.JIG_TRACE_WR.WRAPS, Reg.ORDER_CONFLICT_COUNT.CONFLICTS,
      Reg.ORDER_STATUS.SCORE_CONFLICT]) (detectFamilies ++ [Reg.TENON_LINK_STATUS.STATE, Reg.TILE_SWEEP_STATUS.OFF_GRID,
      Reg.TILE_SWEEP_STATUS.POISONED_READ, Reg.TILE_SWEEP_STATUS.PRED_BEYOND, Reg.TILE_SWEEP_STATUS.SATURATED]) ∧ StoresSame s s') ∧
  (∀ (cls : Nat) (idx : Nat) (s s' : State), exec (.fieldTestDue cls idx) s = .next s' → Changes s s' [.solver, .fault]
      [Reg.FAULT_MAINT_HELD.HELD, Reg.FAULT_MAINT_LAST.HOLDER, Reg.FAULT_MAINT_LAST.REQUESTED, Reg.FAULT_MAINT_REFUSED.COUNT] ∧ StoresSame s
      s') ∧
  (∀ (src : Source) (value : Word) (s s' : State), exec (.faultTestCmd src value) s = .next s' → Changes s s' [.solver, .fault, .access]
      [Reg.FAULT_MAINT_HELD.HELD, Reg.FAULT_MAINT_LAST.HOLDER, Reg.FAULT_MAINT_LAST.REQUESTED, Reg.FAULT_MAINT_REFUSED.COUNT,
      Reg.FAULT_TEST_STATUS.RESULT] ∧ StoresSame s s') ∧
  (∀ (cls : Nat) (idx : Nat) (pass : Bool) (s s' : State), exec (.testSliceDone cls idx pass) s = .next s' → Changes s s' [.frame, .cfg,
      .solver, .spec, .jig, .safety, .pins, .fault, .digest, .eth, .tenon, .power, .sec, .fresh] (detectFields ++ [Reg.ETH_STATUS.LINK,
      Reg.FAULT_MAINT_HELD.HELD, Reg.FAULT_MAINT_LAST.HOLDER, Reg.FAULT_MAINT_LAST.REQUESTED, Reg.FAULT_MAINT_REFUSED.COUNT,
      Reg.JIG_STATUS.PEND_READY, Reg.JIG_STATUS.TRACE_FULL, Reg.JIG_TRACE_LOST.COUNT, Reg.JIG_TRACE_WR.INDEX, Reg.JIG_TRACE_WR.WRAPS])
      (detectFamilies ++ [Reg.TENON_LINK_STATUS.STATE, Reg.TILE_JIG_STATE.READY, Reg.TILE_JIG_STATE.RUNNING]) ∧ StoresSame s s') ∧
  (∀ (cls : Nat) (idx : Nat) (s s' : State), exec (.testDeferLimit cls idx) s = .next s' → Changes s s' [.solver, .jig, .fault, .eth]
      [Reg.FAULT_MAINT_HELD.HELD, Reg.FAULT_MAINT_LAST.HOLDER, Reg.FAULT_MAINT_LAST.REQUESTED, Reg.FAULT_MAINT_REFUSED.COUNT,
      Reg.JIG_STATUS.PEND_READY] [Reg.TILE_JIG_STATE.READY, Reg.TILE_JIG_STATE.RUNNING] ∧ StoresSame s s') ∧
  (∀ (cls : Nat) (idx : Nat) (s s' : State), exec (.retirementClear cls idx) s = .next s' → Changes s s' [.fault]
      [Reg.ORDER_STATUS.SUSPECT, Reg.SOLVER_STATUS.GOOD, Reg.SOLVER_STATUS.SUSPECT] [Reg.TILE_BIND.STATE] ∧ StoresSame s s') ∧
  (∀ (stack : Nat) (s s' : State), exec (.hbmScrub stack) s = .next s' → Changes s s' [.frame, .cfg, .spec, .jig, .safety, .pins, .fault,
      .digest, .eth, .tenon, .power, .sec, .fresh] (detectFields ++ [Reg.ETH_STATUS.LINK, Reg.FAULT_MAINT_HELD.HELD,
      Reg.FAULT_MAINT_LAST.HOLDER, Reg.FAULT_MAINT_LAST.REQUESTED, Reg.FAULT_MAINT_REFUSED.COUNT]) (detectFamilies ++
      [Reg.HBM_SCRUB_PASSES.COUNT, Reg.HBM_STATUS.SCRUB_ACTIVE, Reg.TENON_LINK_STATUS.STATE]) ∧ StoresSame s s') ∧
  (∀ (group : Nat) (s s' : State), exec (.ledgerScrub group) s = .next s' → Changes s s' [.fault] [Reg.FAULT_MAINT_HELD.HELD,
      Reg.FAULT_MAINT_LAST.HOLDER, Reg.FAULT_MAINT_LAST.REQUESTED, Reg.FAULT_MAINT_REFUSED.COUNT] ∧ StoresSame s s') ∧
  (∀ (s s' : State), exec .clockTrim s = .next s' → Changes s s' [.fault] [Reg.FAULT_MAINT_HELD.HELD, Reg.FAULT_MAINT_LAST.HOLDER,
      Reg.FAULT_MAINT_LAST.REQUESTED, Reg.FAULT_MAINT_REFUSED.COUNT] ∧ StoresSame s s') ∧
  (∀ (t : Nat) (s s' : State), exec (.faultRecordSend t) s = .next s' → Changes s s' [.frame, .fault, .eth] []
      [Reg.ETH_PART_STATUS.KEY_VALID, Reg.ETH_PART_STATUS.ROLL_DUE, Reg.ETH_PART_TX_SEQ.SEQ, Reg.ETH_PORT_TX_DROP.COUNT] ∧ StoresSame s s') ∧
  (∀ (t : Nat) (s s' : State), exec (.traceFrameSend t) s = .next s' → Changes s s' [.frame, .eth] [] [Reg.ETH_PART_STATUS.KEY_VALID,
      Reg.ETH_PART_STATUS.ROLL_DUE, Reg.ETH_PART_TX_SEQ.SEQ, Reg.ETH_PORT_TX_DROP.COUNT] ∧ StoresSame s s') ∧
  (∀ (f : Frame) (s s' : State), exec (.receiveDiscard f) s = .next s' → Changes s s' [.eth] [] [Reg.ETH_PART_AUTH_FAIL.COUNT,
      Reg.ETH_PART_METER_DROP.COUNT, Reg.ETH_PART_RX_SEQ.SEQ, Reg.ETH_PART_STATUS.KEY_VALID, Reg.ETH_PORT_RX_ERR.COUNT, Reg.ETH_RX_DROP.COUNT]
      ∧ StoresSame s s') ∧
  (∀ (port : Nat) (up : Bool) (s s' : State), exec (.ethLinkChange port up) s = .next s' → Changes s s' [.fresh] [Reg.ETH_STATUS.LINK]
      [Reg.ETH_PORT_STATUS.PREEMPT] ∧ StoresSame s s') ∧
  (∀ (port : Nat) (ipv6 : Bool) (target : List Byte) (sender : List Byte) (s s' : State), exec (.arpNdRequest port ipv6 target sender) s =
      .next s' → Changes s s' [.eth] [] ∧ StoresSame s s') ∧
  (∀ (f : Frame) (t : Nat) (s s' : State), exec (.worldUpdate f t) s = .next s' → Changes s s' [.frame, .world, .safety, .eth, .tenon]
      [Reg.SAFE_MODE.COPY_LOSS, Reg.WORLD_EGO_DISCARD.DISCARD, Reg.WORLD_EGO_LATE.LATE, Reg.WORLD_EGO_SEQ.SEQ, Reg.WORLD_INGEST_DROP.DROPPED,
      Reg.WORLD_START_STATUS.KIND_MISMATCH, Reg.WORLD_START_STATUS.NON_FINITE, Reg.WORLD_START_STATUS.TIME_RANGE]
      [Reg.ETH_PART_AUTH_FAIL.COUNT, Reg.ETH_PART_METER_DROP.COUNT, Reg.ETH_PART_RX_SEQ.SEQ, Reg.ETH_PART_STATUS.KEY_VALID,
      Reg.ETH_PORT_RX_ERR.COUNT, Reg.ETH_RX_DROP.COUNT, Reg.TENON_LINK_CREDITS.SHARED, Reg.TENON_LINK_CREDITS.VC0, Reg.TENON_LINK_CREDITS.VC1,
      Reg.TENON_LINK_CREDITS.VC2, Reg.TENON_LINK_CREDITS.VC3, Reg.WORLD_STREAM_BAD_RECORD.BAD, Reg.WORLD_STREAM_DISCARD.DISCARD,
      Reg.WORLD_STREAM_LAST_SEQ.SEQ, Reg.WORLD_STREAM_LATE.LATE, Reg.WORLD_STREAM_STATUS.GAP, Reg.WORLD_STREAM_STATUS.LOSS,
      Reg.WORLD_STREAM_STATUS.STALE] ∧ StoresSame s s') ∧
  (∀ (f : Frame) (t : Nat) (s s' : State), exec (.attestReq f t) s = .next s' → Changes s s' [.frame, .eth] []
      [Reg.ETH_PART_AUTH_FAIL.COUNT, Reg.ETH_PART_METER_DROP.COUNT, Reg.ETH_PART_RX_SEQ.SEQ, Reg.ETH_PART_STATUS.KEY_VALID,
      Reg.ETH_PART_STATUS.ROLL_DUE, Reg.ETH_PART_TX_SEQ.SEQ, Reg.ETH_PORT_RX_ERR.COUNT, Reg.ETH_PORT_TX_DROP.COUNT, Reg.ETH_RX_DROP.COUNT] ∧
      StoresSame s s') ∧
  (∀ (f : Frame) (t : Nat) (s s' : State), exec (.attestRollKey f t) s = .next s' → Changes s s' [.frame, .eth] []
      [Reg.ETH_PART_AUTH_FAIL.COUNT, Reg.ETH_PART_METER_DROP.COUNT, Reg.ETH_PART_RX_SEQ.SEQ, Reg.ETH_PART_STATUS.KEY_VALID,
      Reg.ETH_PART_STATUS.ROLL_DUE, Reg.ETH_PART_TX_SEQ.SEQ, Reg.ETH_PORT_RX_ERR.COUNT, Reg.ETH_PORT_TX_DROP.COUNT, Reg.ETH_RX_DROP.COUNT] ∧
      StoresSame s s') ∧
  (∀ (partition : Nat) (s s' : State), exec (.oldKeyExpiry partition) s = .next s' → Changes s s' [.eth] []
      [Reg.ETH_PART_STATUS.KEY_VALID] ∧ StoresSame s s') ∧
  (∀ (f : Frame) (t : Nat) (s s' : State), exec (.jobSubmitFragment f t) s = .next s' → Changes s s' [.frame, .jig, .eth, .fresh]
      [Reg.JIG_BACKPRESSURE.COUNT, Reg.JIG_BUSY_ACKS.COUNT, Reg.JIG_STATUS.TRACE_FULL, Reg.JIG_TRACE_LOST.COUNT, Reg.JIG_TRACE_WR.INDEX,
      Reg.JIG_TRACE_WR.WRAPS] [Reg.ETH_PART_AUTH_FAIL.COUNT, Reg.ETH_PART_METER_DROP.COUNT, Reg.ETH_PART_RESULTS.COUNT,
      Reg.ETH_PART_RX_SEQ.SEQ, Reg.ETH_PART_STATUS.JOBS, Reg.ETH_PART_STATUS.KEY_VALID, Reg.ETH_PART_STATUS.ROLL_DUE, Reg.ETH_PART_TX_SEQ.SEQ,
      Reg.ETH_PORT_RX_ERR.COUNT, Reg.ETH_PORT_TX_DROP.COUNT, Reg.ETH_RX_DROP.COUNT] ∧ StoresSame s s') ∧
  (∀ (f : Frame) (t : Nat) (s s' : State), exec (.jobSweep f t) s = .next s' → Changes s s' [.frame, .jig, .eth, .fresh]
      [Reg.JIG_BACKPRESSURE.COUNT, Reg.JIG_BUSY_ACKS.COUNT, Reg.JIG_STATUS.TRACE_FULL, Reg.JIG_TRACE_LOST.COUNT, Reg.JIG_TRACE_WR.INDEX,
      Reg.JIG_TRACE_WR.WRAPS] [Reg.ETH_PART_AUTH_FAIL.COUNT, Reg.ETH_PART_METER_DROP.COUNT, Reg.ETH_PART_RESULTS.COUNT,
      Reg.ETH_PART_RX_SEQ.SEQ, Reg.ETH_PART_STATUS.JOBS, Reg.ETH_PART_STATUS.KEY_VALID, Reg.ETH_PART_STATUS.ROLL_DUE, Reg.ETH_PART_TX_SEQ.SEQ,
      Reg.ETH_PORT_RX_ERR.COUNT, Reg.ETH_PORT_TX_DROP.COUNT, Reg.ETH_RX_DROP.COUNT] ∧ StoresSame s s') ∧
  (∀ (f : Frame) (t : Nat) (s s' : State), exec (.jobSearch f t) s = .next s' → Changes s s' [.frame, .jig, .eth, .fresh]
      [Reg.JIG_BACKPRESSURE.COUNT, Reg.JIG_BUSY_ACKS.COUNT, Reg.JIG_STATUS.TRACE_FULL, Reg.JIG_TRACE_LOST.COUNT, Reg.JIG_TRACE_WR.INDEX,
      Reg.JIG_TRACE_WR.WRAPS] [Reg.ETH_PART_AUTH_FAIL.COUNT, Reg.ETH_PART_METER_DROP.COUNT, Reg.ETH_PART_RESULTS.COUNT,
      Reg.ETH_PART_RX_SEQ.SEQ, Reg.ETH_PART_STATUS.JOBS, Reg.ETH_PART_STATUS.KEY_VALID, Reg.ETH_PART_STATUS.ROLL_DUE, Reg.ETH_PART_TX_SEQ.SEQ,
      Reg.ETH_PORT_RX_ERR.COUNT, Reg.ETH_PORT_TX_DROP.COUNT, Reg.ETH_RX_DROP.COUNT] ∧ StoresSame s s') ∧
  (∀ (f : Frame) (t : Nat) (s s' : State), exec (.jobRefine f t) s = .next s' → Changes s s' [.frame, .jig, .eth, .fresh]
      [Reg.JIG_BACKPRESSURE.COUNT, Reg.JIG_BUSY_ACKS.COUNT, Reg.JIG_STATUS.TRACE_FULL, Reg.JIG_TRACE_LOST.COUNT, Reg.JIG_TRACE_WR.INDEX,
      Reg.JIG_TRACE_WR.WRAPS] [Reg.ETH_PART_AUTH_FAIL.COUNT, Reg.ETH_PART_METER_DROP.COUNT, Reg.ETH_PART_RESULTS.COUNT,
      Reg.ETH_PART_RX_SEQ.SEQ, Reg.ETH_PART_STATUS.JOBS, Reg.ETH_PART_STATUS.KEY_VALID, Reg.ETH_PART_STATUS.ROLL_DUE, Reg.ETH_PART_TX_SEQ.SEQ,
      Reg.ETH_PORT_RX_ERR.COUNT, Reg.ETH_PORT_TX_DROP.COUNT, Reg.ETH_RX_DROP.COUNT] ∧ StoresSame s s') ∧
  (∀ (f : Frame) (t : Nat) (s s' : State), exec (.jobCancel f t) s = .next s' → Changes s s' [.frame, .jig, .eth, .fresh]
      [Reg.JIG_BACKPRESSURE.COUNT, Reg.JIG_BUSY_ACKS.COUNT, Reg.JIG_STATUS.TRACE_FULL, Reg.JIG_TRACE_LOST.COUNT, Reg.JIG_TRACE_WR.INDEX,
      Reg.JIG_TRACE_WR.WRAPS] [Reg.ETH_PART_AUTH_FAIL.COUNT, Reg.ETH_PART_METER_DROP.COUNT, Reg.ETH_PART_RESULTS.COUNT,
      Reg.ETH_PART_RX_SEQ.SEQ, Reg.ETH_PART_STATUS.JOBS, Reg.ETH_PART_STATUS.KEY_VALID, Reg.ETH_PART_STATUS.ROLL_DUE, Reg.ETH_PART_TX_SEQ.SEQ,
      Reg.ETH_PORT_RX_ERR.COUNT, Reg.ETH_PORT_TX_DROP.COUNT, Reg.ETH_RX_DROP.COUNT] ∧ StoresSame s s') ∧
  (∀ (partition : Nat) (jobId : Nat) (s s' : State), exec (.jobFragmentTimeout partition jobId) s = .next s' → Changes s s' [.eth] [] ∧
      StoresSame s s') ∧
  (∀ (partition : Nat) (jobId : Nat) (s s' : State), exec (.jobStart partition jobId) s = .next s' → Changes s s' [.eth] []
      [Reg.ETH_PART_STATUS.JOBS] ∧ StoresSame s s') ∧
  (∀ (partition : Nat) (jobId : Nat) (s s' : State), exec (.jobEnd partition jobId) s = .next s' → Changes s s' [.eth, .fresh] []
      [Reg.ETH_PART_RESULTS.COUNT, Reg.ETH_PART_STATUS.JOBS, Reg.ETH_PART_STATUS.KEY_VALID, Reg.ETH_PART_STATUS.ROLL_DUE,
      Reg.ETH_PART_TX_SEQ.SEQ, Reg.ETH_PORT_TX_DROP.COUNT] ∧ StoresSame s s') ∧
  (∀ (partition : Nat) (jobId : Nat) (s s' : State), exec (.jobMaxMs partition jobId) s = .next s' → Changes s s' [.eth, .fresh] []
      [Reg.ETH_PART_RESULTS.COUNT, Reg.ETH_PART_STATUS.JOBS, Reg.ETH_PART_STATUS.KEY_VALID, Reg.ETH_PART_STATUS.ROLL_DUE,
      Reg.ETH_PART_TX_SEQ.SEQ, Reg.ETH_PORT_TX_DROP.COUNT] ∧ StoresSame s s') ∧
  (∀ (partition : Nat) (jobId : Nat) (s s' : State), exec (.jobCheckpoint partition jobId) s = .next s' → Changes s s' [.eth] []
      [Reg.ETH_PART_STATUS.JOBS] ∧ StoresSame s s') ∧
  (∀ (src : Source) (port : Nat) (value : Word) (s s' : State), exec (.macsecInstall src port value) s = .next s' → Changes s s' [.eth,
      .access] [] [Reg.ETH_PORT_STATUS.MACSEC_UP] ∧ StoresSame s s')

/-- Whenever one of the 41 commands of this group answers a next state, the parts of the state it does not name are as before, the queue of waiting
commands among them, and so are the register fields it does not name and every byte of the addressed stores it does not store to. Of the registers
nothing is said here for resetNFall, strapCapture, bulkFetchDone, pushTimeout, configChunk, bootLoad, enum, enumReply, imageDistribution, which take
an image, restart the device or run other commands' effects. The lists are the effects the rules of the cited files give each command, through every
operation its effect sets off (an error's handling, a restart, a message sent). -/
def Obligations.FramesOfLinksAndBoot : Prop :=
  (∀ (link : Nat) (f : Flit) (s s' : State), exec (.flitReceive link f) s = .next s' → Changes s s' [.fault, .tenon]
      [Reg.FAULT_MAINT_HELD.HELD, Reg.FAULT_MAINT_LAST.HOLDER, Reg.FAULT_MAINT_LAST.REQUESTED, Reg.FAULT_MAINT_REFUSED.COUNT]
      [Reg.TENON_LINK_CRC_ERR.COUNT, Reg.TENON_LINK_CREDITS.SHARED, Reg.TENON_LINK_CREDITS.VC0, Reg.TENON_LINK_CREDITS.VC1,
      Reg.TENON_LINK_CREDITS.VC2, Reg.TENON_LINK_CREDITS.VC3, Reg.TENON_LINK_FEC_CORR.COUNT, Reg.TENON_LINK_FEC_UNCORR.COUNT,
      Reg.TENON_LINK_REPLAYS.COUNT, Reg.TENON_LINK_RETRAINS.COUNT, Reg.TENON_LINK_STATUS.STATE] ∧ StoresSame s s') ∧
  (∀ (link : Nat) (ack : Nat) (s s' : State), exec (.nak link ack) s = .next s' → Changes s s' [.fault, .tenon]
      [Reg.FAULT_MAINT_HELD.HELD, Reg.FAULT_MAINT_LAST.HOLDER, Reg.FAULT_MAINT_LAST.REQUESTED, Reg.FAULT_MAINT_REFUSED.COUNT]
      [Reg.TENON_LINK_CREDITS.SHARED, Reg.TENON_LINK_CREDITS.VC0, Reg.TENON_LINK_CREDITS.VC1, Reg.TENON_LINK_CREDITS.VC2,
      Reg.TENON_LINK_CREDITS.VC3, Reg.TENON_LINK_REPLAYS.COUNT, Reg.TENON_LINK_RETRAINS.COUNT, Reg.TENON_LINK_STATUS.STATE] ∧ StoresSame s s') ∧
  (∀ (link : Nat) (s s' : State), exec (.replayTimeout link) s = .next s' → Changes s s' [.fault, .tenon] [Reg.FAULT_MAINT_HELD.HELD,
      Reg.FAULT_MAINT_LAST.HOLDER, Reg.FAULT_MAINT_LAST.REQUESTED, Reg.FAULT_MAINT_REFUSED.COUNT] [Reg.TENON_LINK_REPLAYS.COUNT,
      Reg.TENON_LINK_RETRAINS.COUNT, Reg.TENON_LINK_STATUS.STATE] ∧ StoresSame s s') ∧
  (∀ (link : Nat) (s s' : State), exec (.idleFlitTimer link) s = .next s' → Changes s s' [.tenon] [] ∧ StoresSame s s') ∧
  (∀ (link : Nat) (s s' : State), exec (.linkRetrain link) s = .next s' → Changes s s' [.fault, .tenon] [Reg.FAULT_MAINT_HELD.HELD,
      Reg.FAULT_MAINT_LAST.HOLDER, Reg.FAULT_MAINT_LAST.REQUESTED, Reg.FAULT_MAINT_REFUSED.COUNT] [Reg.TENON_LINK_RETRAINS.COUNT,
      Reg.TENON_LINK_STATUS.STATE] ∧ StoresSame s s') ∧
  (∀ (link : Nat) (s s' : State), exec (.retrainTokenRetry link) s = .next s' → Changes s s' [.fault, .tenon] [Reg.FAULT_MAINT_HELD.HELD,
      Reg.FAULT_MAINT_LAST.HOLDER, Reg.FAULT_MAINT_LAST.REQUESTED, Reg.FAULT_MAINT_REFUSED.COUNT] [Reg.TENON_LINK_RETRAINS.COUNT,
      Reg.TENON_LINK_STATUS.STATE] ∧ StoresSame s s') ∧
  (∀ (link : Nat) (latencyPs : Nat) (s s' : State), exec (.linkTrained link latencyPs) s = .next s' → Changes s s' [.frame, .cfg, .spec,
      .jig, .safety, .pins, .fault, .digest, .eth, .tenon, .power, .sec, .fresh] (detectFields ++ [Reg.ETH_STATUS.LINK,
      Reg.FAULT_MAINT_HELD.HELD, Reg.FAULT_MAINT_LAST.HOLDER, Reg.FAULT_MAINT_LAST.REQUESTED, Reg.FAULT_MAINT_REFUSED.COUNT,
      Reg.TENON_CLAMP_SKEW_PS.SKEW, Reg.TENON_CMD_STATUS.RESULT, Reg.TENON_STATUS.STATE]) (detectFamilies ++ [Reg.TENON_LINK_LAT_PS.LATENCY,
      Reg.TENON_LINK_REPLAYS.COUNT, Reg.TENON_LINK_RETRAINS.COUNT, Reg.TENON_LINK_STATUS.STATE]) ∧ StoresSame s s') ∧
  (∀ (link : Nat) (s s' : State), exec (.linkLoss link) s = .next s' → Changes s s' [.frame, .cfg, .spec, .jig, .safety, .pins, .fault,
      .digest, .eth, .tenon, .power, .sec, .fresh] (detectFields ++ [Reg.FAULT_MAINT_HELD.HELD]) (detectFamilies ++
      [Reg.TENON_LINK_STATUS.STATE]) ∧ StoresSame s s') ∧
  (∀ (m : Message) (s s' : State), exec (.blockMessage m) s = .next s' → Changes s s' [.frame, .spec, .jig, .safety, .tenon, .fresh]
      [Reg.TENON_SQUASH_SENT.COUNT] [Reg.TENON_LINK_CREDITS.SHARED, Reg.TENON_LINK_CREDITS.VC0, Reg.TENON_LINK_CREDITS.VC1,
      Reg.TENON_LINK_CREDITS.VC2, Reg.TENON_LINK_CREDITS.VC3] ∧ StoresSame s s') ∧
  (∀ (m : Message) (s s' : State), exec (.recordMessage m) s = .next s' → Changes s s' [.frame, .order, .spec, .safety, .tenon, .fresh]
      [Reg.TENON_SQUASH_SENT.COUNT] [Reg.TENON_LINK_CREDITS.SHARED, Reg.TENON_LINK_CREDITS.VC0, Reg.TENON_LINK_CREDITS.VC1,
      Reg.TENON_LINK_CREDITS.VC2, Reg.TENON_LINK_CREDITS.VC3] ∧ StoresSame s s') ∧
  (∀ (m : Message) (t : Nat) (s s' : State), exec (.worldMessage m t) s = .next s' → Changes s s' [.frame, .world, .spec, .safety, .tenon]
      [Reg.SAFE_MODE.COPY_LOSS, Reg.TENON_SQUASH_SENT.COUNT, Reg.WORLD_EGO_LATE.LATE, Reg.WORLD_EGO_SEQ.SEQ,
      Reg.WORLD_START_STATUS.KIND_MISMATCH, Reg.WORLD_START_STATUS.NON_FINITE, Reg.WORLD_START_STATUS.TIME_RANGE]
      [Reg.TENON_LINK_CREDITS.SHARED, Reg.TENON_LINK_CREDITS.VC0, Reg.TENON_LINK_CREDITS.VC1, Reg.TENON_LINK_CREDITS.VC2,
      Reg.TENON_LINK_CREDITS.VC3, Reg.WORLD_STREAM_BAD_RECORD.BAD, Reg.WORLD_STREAM_LAST_SEQ.SEQ, Reg.WORLD_STREAM_LATE.LATE,
      Reg.WORLD_STREAM_STATUS.GAP, Reg.WORLD_STREAM_STATUS.STALE] ∧ StoresSame s s') ∧
  (∀ (link : Nat) (epoch : Epoch) (s s' : State), exec (.confirm link epoch) s = .next s' → Changes s s' [.tenon]
      [Reg.TENON_CONFIRM_LATE.COUNT] [Reg.TENON_LINK_CREDITS.SHARED, Reg.TENON_LINK_CREDITS.VC0, Reg.TENON_LINK_CREDITS.VC1,
      Reg.TENON_LINK_CREDITS.VC2, Reg.TENON_LINK_CREDITS.VC3] ∧ StoresSame s s') ∧
  (∀ (link : Nat) (epoch : Epoch) (_cause : Nat) (s s' : State), exec (.squashToken link epoch _cause) s = .next s' → Changes s s'
      [.frame, .spec, .safety, .tenon] [Reg.TENON_SQUASH_RECEIVED.COUNT, Reg.TENON_SQUASH_SENT.COUNT] [Reg.TENON_LINK_CREDITS.SHARED,
      Reg.TENON_LINK_CREDITS.VC0, Reg.TENON_LINK_CREDITS.VC1, Reg.TENON_LINK_CREDITS.VC2, Reg.TENON_LINK_CREDITS.VC3] ∧ StoresSame s s') ∧
  (∀ (link : Nat) (target : Nat) (s s' : State), exec (.clamp link target) s = .next s' → Changes s s' [.tenon, .fresh] []
      [Reg.TENON_LINK_CREDITS.SHARED, Reg.TENON_LINK_CREDITS.VC0, Reg.TENON_LINK_CREDITS.VC1, Reg.TENON_LINK_CREDITS.VC2,
      Reg.TENON_LINK_CREDITS.VC3] ∧ StoresSame s s') ∧
  (∀ (source : Nat) (residual : Int) (refused : Bool) (s s' : State), exec (.clampDone source residual refused) s = .next s' → Changes s
      s' [.fault, .tenon] [Reg.FAULT_MAINT_HELD.HELD, Reg.TENON_CLAMP_SKEW_PS.SKEW, Reg.TENON_CMD_STATUS.RESULT, Reg.TENON_STATUS.STATE]
      [Reg.TENON_LINK_CREDITS.SHARED, Reg.TENON_LINK_CREDITS.VC0, Reg.TENON_LINK_CREDITS.VC1, Reg.TENON_LINK_CREDITS.VC2,
      Reg.TENON_LINK_CREDITS.VC3] ∧ StoresSame s s') ∧
  (∀ (link : Nat) (value : Nat) (holdover : Bool) (s s' : State), exec (.timeToken link value holdover) s = .next s' → Changes s s'
      [.frame] [Reg.FRAME_STATUS.HOLDOVER] ∧ StoresSame s s') ∧
  (∀ (s s' : State), exec .timeTokenTimer s = .next s' → Changes s s' [.tenon] [] [Reg.TENON_LINK_CREDITS.SHARED,
      Reg.TENON_LINK_CREDITS.VC0, Reg.TENON_LINK_CREDITS.VC1, Reg.TENON_LINK_CREDITS.VC2, Reg.TENON_LINK_CREDITS.VC3] ∧ StoresSame s s') ∧
  (∀ (link : Nat) (epoch : Epoch) (frame : Nat) (world : Nat) (deadlineHit : Bool) (sideB : Bool) (t : Nat) (s s' : State), exec
      (.digestToken link epoch frame world deadlineHit sideB t) s = .next s' → Changes s s' [.frame, .cfg, .solver, .spec, .jig, .safety,
      .pins, .fault, .digest, .eth, .tenon, .power, .sec, .fresh] (detectFields ++ [Reg.FAULT_MAINT_HELD.HELD, Reg.FAULT_MAINT_LAST.HOLDER,
      Reg.FAULT_MAINT_LAST.REQUESTED, Reg.FAULT_MAINT_REFUSED.COUNT, Reg.TENON_PAIR_EPOCH.EPOCH, Reg.TENON_PAIR_MATCH.COUNT,
      Reg.TENON_PAIR_MISMATCH.COUNT, Reg.TENON_PAIR_SKIPPED.COUNT]) detectFamilies ∧ StoresSame s s') ∧
  (∀ (epoch : Epoch) (s s' : State), exec (.pairDigestTimeout epoch) s = .next s' → Changes s s' [.tenon] [Reg.TENON_PAIR_SKIPPED.COUNT] ∧
      StoresSame s s') ∧
  (∀ (src : Source) (s s' : State), exec (.tenonClampCmd src) s = .next s' → Changes s s' [.fault, .tenon, .access]
      [Reg.FAULT_MAINT_HELD.HELD, Reg.FAULT_MAINT_LAST.HOLDER, Reg.FAULT_MAINT_LAST.REQUESTED, Reg.FAULT_MAINT_REFUSED.COUNT,
      Reg.TENON_CLAMP_SKEW_PS.SKEW, Reg.TENON_CMD_STATUS.RESULT, Reg.TENON_STATUS.STATE] [Reg.TENON_LINK_CREDITS.SHARED,
      Reg.TENON_LINK_CREDITS.VC0, Reg.TENON_LINK_CREDITS.VC1, Reg.TENON_LINK_CREDITS.VC2, Reg.TENON_LINK_CREDITS.VC3] ∧ StoresSame s s') ∧
  (∀ (src : Source) (s s' : State), exec (.tenonEnumerateCmd src) s = .next s' → Changes s s' [.tenon, .access]
      [Reg.TENON_CMD_STATUS.RESULT] ∧ StoresSame s s') ∧
  (∀ (src : Source) (_count : Nat) (s s' : State), exec (.remoteRead src _count) s = .next s' → Changes s s' [.tenon, .access, .fresh]
      [Reg.TENON_RMT_STATUS.BUSY, Reg.TENON_RMT_STATUS.FAIL_INDEX, Reg.TENON_RMT_STATUS.STATUS] [Reg.TENON_LINK_CREDITS.SHARED,
      Reg.TENON_LINK_CREDITS.VC0, Reg.TENON_LINK_CREDITS.VC1, Reg.TENON_LINK_CREDITS.VC2, Reg.TENON_LINK_CREDITS.VC3] ∧ StoresSame s s') ∧
  (∀ (src : Source) (_count : Nat) (s s' : State), exec (.remoteWrite src _count) s = .next s' → Changes s s' [.tenon, .access, .fresh]
      [Reg.TENON_RMT_STATUS.BUSY, Reg.TENON_RMT_STATUS.FAIL_INDEX, Reg.TENON_RMT_STATUS.STATUS] [Reg.TENON_LINK_CREDITS.SHARED,
      Reg.TENON_LINK_CREDITS.VC0, Reg.TENON_LINK_CREDITS.VC1, Reg.TENON_LINK_CREDITS.VC2, Reg.TENON_LINK_CREDITS.VC3] ∧ StoresSame s s') ∧
  (∀ (source : Nat) (status : Nat) (fail : Nat) (values : List Word) (s s' : State), exec (.remoteResponse source status fail values) s =
      .next s' → Changes s s' [.tenon] [Reg.TENON_RMT_STATUS.BUSY, Reg.TENON_RMT_STATUS.FAIL_INDEX, Reg.TENON_RMT_STATUS.STATUS]
      [Reg.TENON_RMT_DATA.DATA] ∧ StoresSame s s') ∧
  (∀ (s s' : State), exec .resetNFall s = .next s' → PartsSame s s' [.frame, .cfg, .world, .ledger, .order, .solver, .spec, .jig, .safety,
      .pins, .die, .fault, .digest, .eth, .tenon, .power, .sec, .jtag, .waiting, .access, .fresh] ∧ StoresBut s s' [.slotA, .slotB, .xspiA,
      .xspiB, .staged, .window, .ring]) ∧
  (∀ (s s' : State), exec .resetNRise s = .next s' → Changes s s' [.pins, .sec] [Reg.SEC_BOOT_STATUS.STEP] ∧ StoresSame s s') ∧
  (∀ (straps : Nat) (s s' : State), exec (.strapCapture straps) s = .next s' → PartsSame s s' [.frame, .cfg, .spec, .jig, .safety, .pins,
      .fault, .digest, .tenon, .power, .sec] ∧ StoresSame s s') ∧
  (∀ (ty : Nat) (data : Option (List Byte)) (s s' : State), exec (.bulkFetchDone ty data) s = .next s' → PartsSame s s' [.frame, .cfg,
      .world, .ledger, .order, .solver, .spec, .jig, .safety, .pins, .die, .fault, .digest, .eth, .tenon, .power, .sec, .fresh] ∧ StoresSame s
      s') ∧
  (∀ (s s' : State), exec .pushTimeout s = .next s' → PartsSame s s' [.frame, .cfg, .world, .ledger, .order, .solver, .spec, .jig,
      .safety, .pins, .die, .fault, .digest, .eth, .tenon, .power, .sec, .fresh] ∧ StoresSame s s') ∧
  (∀ (f : Frame) (t : Nat) (s s' : State), exec (.configChunk f t) s = .next s' → PartsSame s s' [.frame, .cfg, .world, .ledger, .order,
      .solver, .spec, .jig, .safety, .pins, .die, .fault, .digest, .eth, .tenon, .power, .sec, .fresh] ∧ StoresBut s s' [.staged]) ∧
  (∀ (src : Source) (s s' : State), exec (.bootWarm src) s = .next s' → Changes s s' [.cfg, .access] [Reg.SEC_BOOT_CMD_STATUS.RESULT] ∧
      StoresSame s s') ∧
  (∀ (src : Source) (s s' : State), exec (.bootCold src) s = .next s' → Changes s s' [.cfg, .access] [Reg.SEC_BOOT_CMD_STATUS.RESULT] ∧
      StoresSame s s') ∧
  (∀ (src : Source) (s s' : State), exec (.bootRetry src) s = .next s' → Changes s s' [.frame, .cfg, .spec, .jig, .safety, .fault,
      .digest, .eth, .tenon, .power, .sec, .access] [Reg.CONFIG_SWITCH_STATUS.PHASE, Reg.CONFIG_SWITCH_STATUS.RESULT,
      Reg.FRAME_SPEC_DISCARDS.DISCARDS, Reg.FRAME_SPEC_EPOCH.EPOCH, Reg.FRAME_STATUS.FRAME_ACTIVE, Reg.FRAME_STATUS.SHADOW,
      Reg.SEC_BOOT_ATTEMPTS.A_EXCLUDED, Reg.SEC_BOOT_ATTEMPTS.A_FAILS, Reg.SEC_BOOT_ATTEMPTS.B_EXCLUDED, Reg.SEC_BOOT_ATTEMPTS.B_FAILS,
      Reg.SEC_BOOT_CMD_STATUS.RESULT, Reg.SEC_BOOT_STATUS.FAIL, Reg.SEC_BOOT_STATUS.STATE, Reg.SEC_BOOT_STATUS.STEP, Reg.SEC_BOOT_STATUS.WARM,
      Reg.SEC_RESTART_COUNT.COUNT, Reg.TENON_SQUASH_SENT.COUNT] [Reg.TENON_LINK_CREDITS.SHARED, Reg.TENON_LINK_CREDITS.VC0,
      Reg.TENON_LINK_CREDITS.VC1, Reg.TENON_LINK_CREDITS.VC2, Reg.TENON_LINK_CREDITS.VC3] ∧ StoresSame s s') ∧
  (∀ (src : Source) (s s' : State), exec (.bootLoad src) s = .next s' → PartsSame s s' [.frame, .cfg, .world, .ledger, .order, .solver,
      .spec, .jig, .safety, .pins, .die, .fault, .digest, .eth, .tenon, .power, .sec, .access, .fresh] ∧ StoresSame s s') ∧
  (∀ (link : Nat) (source : Nat) (next : Nat) (side : Nat) (place : Option Placement) (s s' : State), exec (.enum link source next side
      place) s = .next s' → PartsSame s s' [.frame, .cfg, .world, .ledger, .order, .solver, .spec, .jig, .safety, .pins, .fault, .digest,
      .eth, .tenon, .power, .sec, .fresh] ∧ StoresSame s s') ∧
  (∀ (link : Nat) (status : Nat) (next : Nat) (peer : Nat) (devices : List ChainDev) (s s' : State), exec (.enumReply link status next
      peer devices) s = .next s' → PartsSame s s' [.frame, .cfg, .world, .ledger, .order, .solver, .spec, .jig, .safety, .pins, .fault,
      .digest, .eth, .tenon, .power, .sec, .fresh] ∧ StoresSame s s') ∧
  (∀ (link : Nat) (data : List Byte) (s s' : State), exec (.imageDistribution link data) s = .next s' → PartsSame s s' [.frame, .cfg,
      .world, .ledger, .order, .solver, .spec, .jig, .safety, .pins, .die, .fault, .digest, .eth, .tenon, .power, .sec, .fresh] ∧ StoresBut s
      s' [.staged]) ∧
  (∀ (src : Source) (s s' : State), exec (.keyEnrol src) s = .next s' → Changes s s' [.sec, .access, .fresh] [Reg.SEC_KEY_RESULT.RESULT] ∧
      StoresSame s s') ∧
  (∀ (src : Source) (s s' : State), exec (.keyRevoke src) s = .next s' → Changes s s' [.sec, .access, .fresh] [Reg.SEC_KEY_RESULT.RESULT]
      ∧ StoresSame s s') ∧
  (∀ (src : Source) (s s' : State), exec (.debugChallenge src) s = .next s' → Changes s s' [.sec, .access, .fresh]
      [Reg.SEC_DEBUG_STATUS.RESULT, Reg.SEC_DEBUG_STATUS.STATE] [Reg.SEC_DEBUG_CHALLENGE.DATA] ∧ StoresSame s s') ∧
  (∀ (src : Source) (s s' : State), exec (.debugRespond src) s = .next s' → Changes s s' [.eth, .sec, .access]
      [Reg.SEC_DEBUG_STATUS.RESULT, Reg.SEC_DEBUG_STATUS.STATE] [Reg.ETH_PART_STATUS.KEY_VALID] ∧ StoresSame s s')

/-- Whenever one of the 39 commands of this group answers a next state, the parts of the state it does not name are as before, the queue of waiting
commands among them, and so are the register fields it does not name and every byte of the addressed stores it does not store to. Of the registers
nothing is said here for aonUndervoltage, registerWrite, mgmtRead, mgmtWrite, remoteRequest, regaccRead, regaccWrite, coldStart, warmRestartDone,
which take an image, restart the device or run other commands' effects. The lists are the effects the rules of the cited files give each command,
through every operation its effect sets off (an error's handling, a restart, a message sent). -/
def Obligations.FramesOfPowerAndAccess : Prop :=
  (∀ (src : Source) (s s' : State), exec (.nap src) s = .next s' → Changes s s' [.cfg, .power, .access] [Reg.PWR_CMD_STATUS.RESULT,
      Reg.PWR_STATUS.ENTRY_PENDING] ∧ StoresSame s s') ∧
  (∀ (src : Source) (s s' : State), exec (.sleep src) s = .next s' → Changes s s' [.cfg, .power, .access] [Reg.PWR_CMD_STATUS.RESULT,
      Reg.PWR_STATUS.ENTRY_PENDING] ∧ StoresSame s s') ∧
  (∀ (src : Source) (s s' : State), exec (.sleepCancel src) s = .next s' → Changes s s' [.frame, .cfg, .power, .access]
      [Reg.PWR_CMD_STATUS.RESULT, Reg.PWR_STATUS.ENTRY_PENDING] ∧ StoresSame s s') ∧
  (∀ (s s' : State), exec .autoEntry s = .next s' → Changes s s' [.cfg, .power] [Reg.PWR_STATUS.ENTRY_PENDING] ∧ StoresSame s s') ∧
  (∀ (port : Nat) (s s' : State), exec (.energyDetect port) s = .next s' → Changes s s' [.power, .fresh] [Reg.PWR_WAKE_SOURCE.SOURCE,
      Reg.SAFE_SP_WAKE_STATUS.SOURCE] ∧ StoresSame s s') ∧
  (∀ (port : Nat) (s s' : State), exec (.anyFrameWake port) s = .next s' → Changes s s' [.power, .fresh] [Reg.PWR_WAKE_SOURCE.SOURCE,
      Reg.SAFE_SP_WAKE_STATUS.SOURCE] ∧ StoresSame s s') ∧
  (∀ (f : Frame) (s s' : State), exec (.wakeFrame f) s = .next s' → Changes s s' [.power, .fresh] [Reg.PWR_WAKE_SOURCE.SOURCE,
      Reg.SAFE_SP_WAKE_STATUS.SOURCE] ∧ StoresSame s s') ∧
  (∀ (link : Nat) (s s' : State), exec (.wakeKnock link) s = .next s' → Changes s s' [.power, .fresh] [Reg.PWR_WAKE_SOURCE.SOURCE,
      Reg.SAFE_SP_WAKE_STATUS.SOURCE] ∧ StoresSame s s') ∧
  (∀ (pin : Nat) (level : Bool) (s s' : State), exec (.wakePin pin level) s = .next s' → Changes s s' [.safety, .power, .fresh]
      [Reg.PWR_WAKE_SOURCE.SOURCE, Reg.SAFE_SP_WAKE_STATUS.SOURCE] ∧ StoresSame s s') ∧
  (∀ (s s' : State), exec .aonAlarm s = .next s' → Changes s s' [.power, .fresh] [Reg.PWR_WAKE_SOURCE.SOURCE,
      Reg.SAFE_SP_WAKE_STATUS.SOURCE] ∧ StoresSame s s') ∧
  (∀ (s s' : State), exec .thermalAlarm s = .next s' → Changes s s' [.power, .fresh] [Reg.PWR_WAKE_SOURCE.SOURCE,
      Reg.SAFE_SP_WAKE_STATUS.SOURCE] ∧ StoresSame s s') ∧
  (∀ (s s' : State), exec .entryWindowEnd s = .next s' → Changes s s' [.jig, .pins, .tenon, .power] (epochFields ++
      [Reg.PWR_STATUS.ENTRY_PENDING, Reg.PWR_STATUS.LAST_SLEEP, Reg.PWR_SLEEP_COUNT.COUNT, Reg.PWR_WAKE_SOURCE.SOURCE,
      Reg.SAFE_SP_WAKE_STATUS.SOURCE]) [Reg.HBM_SCRUB_HOURS.HOURS, Reg.HBM_STATUS.SELF_REFRESH, Reg.TENON_LINK_STATUS.STATE] ∧ StoresSame s
      s') ∧
  (∀ (s s' : State), exec .wake s = .next s' → Changes s s' [.pins, .power] [Reg.ETH_STATUS.PTP_SYNCED, Reg.FRAME_STATUS.HOLDOVER]
      [Reg.HBM_STATUS.SELF_REFRESH] ∧ StoresSame s s') ∧
  (∀ (link : Nat) (s s' : State), exec (.knockRepeat link) s = .next s' → Changes s s' [.power] [] ∧ StoresSame s s') ∧
  (∀ (s s' : State), exec .wakeDone s = .next s' → Changes s s' [.frame, .world, .ledger, .solver, .jig, .safety, .pins, .fault, .digest,
      .tenon, .power] [Reg.FAULT_MAINT_HELD.HELD, Reg.FAULT_MAINT_LAST.HOLDER, Reg.FAULT_MAINT_LAST.REQUESTED, Reg.FAULT_MAINT_REFUSED.COUNT,
      Reg.LEDGER_QUEUE_DEPTH.DEPTH, Reg.LEDGER_SHIFT_XY.SX, Reg.LEDGER_SHIFT_XY.SY, Reg.LEDGER_SHIFT_Z.SZ, Reg.LEDGER_STATUS.REBUILD_PENDING,
      Reg.PWR_STATUS.WAKING, Reg.SAFE_FB_REMAIN.MS, Reg.SAFE_MODE.ARMED, Reg.SAFE_SP_STATUS.PHASE, Reg.SAFE_VERDICT.DISAGREE,
      Reg.SAFE_WINDOW.MAP, Reg.TENON_CLAMP_SKEW_PS.SKEW, Reg.TENON_CMD_STATUS.RESULT, Reg.TENON_STATUS.STATE, Reg.WORLD_STATUS.REBASE]
      [Reg.TENON_LINK_CREDITS.SHARED, Reg.TENON_LINK_CREDITS.VC0, Reg.TENON_LINK_CREDITS.VC1, Reg.TENON_LINK_CREDITS.VC2,
      Reg.TENON_LINK_CREDITS.VC3] ∧ StoresSame s s') ∧
  (∀ (s s' : State), exec .leaseTick s = .next s' → Changes s s' [] [] [Reg.PWR_LEASE.MS] ∧ StoresSame s s') ∧
  (∀ (island : Nat) (s s' : State), exec (.idleEntry island) s = .next s' → Changes s s' [.power] [] [Reg.PWR_TILE_STATE.STATE] ∧
      StoresSame s s') ∧
  (∀ (island : Nat) (s s' : State), exec (.idleWake island) s = .next s' → Changes s s' [.power] [] [Reg.PWR_TILE_STATE.STATE] ∧
      StoresSame s s') ∧
  (∀ (tile : Nat) (s s' : State), exec (.dozeEntry tile) s = .next s' → Changes s s' [.jig] [] [Reg.PWR_TILE_STATE.STATE] ∧ StoresSame s
      s') ∧
  (∀ (tile : Nat) (s s' : State), exec (.dozeWake tile) s = .next s' → Changes s s' [] [] [Reg.PWR_TILE_STATE.STATE] ∧ StoresSame s s') ∧
  (∀ (cause : Nat) (s s' : State), exec (.throttleStepDown cause) s = .next s' → Changes s s' [.power] [Reg.PWR_STATUS.CAUSE,
      Reg.PWR_STATUS.STEP, Reg.PWR_THROTTLE_COUNT.COUNT] ∧ StoresSame s s') ∧
  (∀ (s s' : State), exec .throttleStepUp s = .next s' → Changes s s' [.power] [Reg.PWR_STATUS.CAUSE, Reg.PWR_STATUS.STEP] ∧ StoresSame s
      s') ∧
  (∀ (s s' : State), exec .voutSettleTimeout s = .next s' → Changes s s' [.power] [] ∧ StoresSame s s') ∧
  (∀ (status : Word) (s s' : State), exec (.pmbAlert status) s = .next s' → Changes s s' [.frame, .cfg, .spec, .jig, .safety, .pins,
      .fault, .digest, .eth, .tenon, .power, .sec, .fresh] detectFields detectFamilies ∧ StoresSame s s') ∧
  (∀ (iout : Nat) (s s' : State), exec (.currentCalibration iout) s = .next s' → Changes s s' [.power] [] ∧ StoresSame s s') ∧
  (∀ (stack : Nat) (temp : Nat) (s s' : State), exec (.hbmHot stack temp) s = .next s' → Changes s s' [.fault] [Reg.FAULT_MAINT_HELD.HELD,
      Reg.FAULT_MAINT_LAST.HOLDER, Reg.FAULT_MAINT_LAST.REQUESTED, Reg.FAULT_MAINT_REFUSED.COUNT] [Reg.HBM_STATUS.REFRESH_2X,
      Reg.HBM_STATUS.TEMP] ∧ StoresSame s s') ∧
  (∀ (rail : Nat) (s s' : State), exec (.railFault rail) s = .next s' → Changes s s' [.frame, .cfg, .spec, .jig, .safety, .pins, .fault,
      .digest, .eth, .tenon, .power, .sec, .fresh] detectFields detectFamilies ∧ StoresSame s s') ∧
  (∀ (s s' : State), exec .aonUndervoltage s = .next s' → PartsSame s s' [.frame, .cfg, .world, .ledger, .order, .solver, .spec, .jig,
      .safety, .pins, .die, .fault, .digest, .eth, .tenon, .power, .sec, .jtag, .waiting, .access, .fresh] ∧ StoresBut s s' [.slotA, .slotB,
      .xspiA, .xspiB, .staged, .window, .ring]) ∧
  (∀ (s s' : State), exec .i2cRead s = .next s' → Changes s s' [.power, .fresh] [Reg.PWR_CORE.AMPS, Reg.PWR_CORE.MV,
      Reg.PWR_POWER.BUCKET_MJ, Reg.PWR_POWER.WATTS, Reg.PWR_TJ.TJ] ∧ StoresSame s s') ∧
  (∀ (s s' : State), exec .i2cWrite s = .next s' → Changes s s' [] [] ∧ StoresSame s s') ∧
  (∀ (src : Source) (s s' : State), exec (.epochCommit src) s = .next s' → Changes s s' [.cfg, .access] [] ∧ StoresSame s s') ∧
  (∀ (src : Source) (addr : Nat) (value : Word) (s s' : State), exec (.registerWrite src addr value) s = .next s' → PartsSame s s'
      [.frame, .cfg, .world, .ledger, .order, .solver, .spec, .jig, .safety, .pins, .die, .fault, .digest, .eth, .tenon, .power, .sec,
      .access, .fresh] ∧ StoresBut s s' [.slotA, .slotB, .window, .ring]) ∧
  (∀ (f : Frame) (t : Nat) (s s' : State), exec (.mgmtRead f t) s = .next s' → PartsSame s s' [.frame, .cfg, .world, .ledger, .order,
      .solver, .spec, .jig, .safety, .pins, .die, .fault, .digest, .eth, .tenon, .power, .sec, .waiting, .access, .fresh] ∧ StoresBut s s'
      [.slotA, .slotB, .window, .ring]) ∧
  (∀ (f : Frame) (t : Nat) (s s' : State), exec (.mgmtWrite f t) s = .next s' → PartsSame s s' [.frame, .cfg, .world, .ledger, .order,
      .solver, .spec, .jig, .safety, .pins, .die, .fault, .digest, .eth, .tenon, .power, .sec, .waiting, .access, .fresh] ∧ StoresBut s s'
      [.slotA, .slotB, .window, .ring]) ∧
  (∀ (link : Nat) (source : Nat) (write : Bool) (addr : Nat) (count : Nat) (values : List Word) (s s' : State), exec (.remoteRequest link
      source write addr count values) s = .next s' → PartsSame s s' [.frame, .cfg, .world, .ledger, .order, .solver, .spec, .jig, .safety,
      .pins, .die, .fault, .digest, .eth, .tenon, .power, .sec, .waiting, .access, .fresh] ∧ StoresBut s s' [.slotA, .slotB, .window, .ring]) ∧
  (∀ (address : Nat) (s s' : State), exec (.regaccRead address) s = .next s' → PartsSame s s' [.frame, .cfg, .world, .ledger, .order,
      .solver, .spec, .jig, .safety, .pins, .die, .fault, .digest, .eth, .tenon, .power, .sec, .jtag, .waiting, .access, .fresh] ∧ StoresBut s
      s' [.slotA, .slotB, .window, .ring]) ∧
  (∀ (address : Nat) (value : Word) (s s' : State), exec (.regaccWrite address value) s = .next s' → PartsSame s s' [.frame, .cfg, .world,
      .ledger, .order, .solver, .spec, .jig, .safety, .pins, .die, .fault, .digest, .eth, .tenon, .power, .sec, .jtag, .waiting, .access,
      .fresh] ∧ StoresBut s s' [.slotA, .slotB, .window, .ring]) ∧
  (∀ (found : BootReport) (s s' : State), exec (.coldStart found) s = .next s' → PartsSame s s' [.frame, .cfg, .world, .ledger, .order,
      .solver, .spec, .jig, .safety, .pins, .die, .fault, .digest, .eth, .tenon, .power, .sec, .jtag, .waiting, .access, .fresh] ∧ StoresBut s
      s' [.slotA, .slotB, .staged, .window, .ring]) ∧
  (∀ (s s' : State), exec .warmRestartDone s = .next s' → PartsSame s s' [.frame, .cfg, .world, .ledger, .order, .solver, .spec, .jig,
      .safety, .pins, .die, .fault, .digest, .eth, .tenon, .power, .sec, .jtag, .waiting, .access, .fresh] ∧ StoresBut s s' [.slotA, .slotB,
      .window, .ring])

/-- With RESET_N low every register field reads the value its field map gives as its reset value (0 where the map names a source that has not set it yet,
R627), FAULT_N is low (Table 23-6), no image runs, no frame is in progress, no command waits; the addressed stores, the register file and the tables
are in their canonical forms, and every waiting command is well-formed. Fields whose map gives no value read 0, and the slots are erased: the model's
choices (log entries 3 and 4). -/
def Obligations.ResetHoldsTheResetValues : Prop :=
  (∀ f : Field, State.reset.get f = f.reset) ∧ State.reset.memoryWf = true ∧ State.reset.registersWf = true ∧ State.reset.tablesWf = true ∧
  ascends State.reset.cfg.shadowSet = true ∧ State.reset.queueWf = true ∧ State.reset.pending = [] ∧ State.reset.pins.faultN = false ∧
  State.reset.cfg.image = none ∧ State.reset.frame.inFrame = false ∧ State.reset.waiting = [] ∧ State.reset.floor = 0

/-- From every state whose slots, staged slot and capture ring are in canonical form (addresses strictly rising, no entry equal to what an unlisted
address reads as), a step that answers a next state keeps that form, whichever of the 190 commands it runs. -/
def Obligations.EveryStepKeepsTheStores : Prop :=
  ∀ s t : State, s.memoryWf = true → step s = .next t → t.memoryWf = true

/-- From every state whose register file lists each field once, in ascending order, a step that answers a next state keeps that form; so it does for the
set of written, uncommitted RWE fields, in which a later write of a field replaces the earlier one (R14). -/
def Obligations.EveryStepKeepsTheRegisterFile : Prop :=
  ∀ s t : State, step s = .next t → (s.registersWf = true → t.registersWf = true) ∧ (ascends s.cfg.shadowSet = true → ascends t.cfg.shadowSet = true)

/-- From every state whose tables of task descriptors, units, partitions, checker records and links list each key once, in ascending order, a step that
answers a next state keeps that form. -/
def Obligations.EveryStepKeepsTheTables : Prop :=
  ∀ s t : State, s.tablesWf = true → step s = .next t → t.tablesWf = true

/-- Whatever command a step runs, the rollback floor in force after it is at least the floor before it (R80, R82), the queue is the rest of the queue
(empty where it was empty, the model's idling, log entry 2), and a free value once drawn is never drawn again. -/
def Obligations.NoStepLowersTheFloor : Prop :=
  ∀ s t : State, step s = .next t → s.floor ≤ t.floor ∧ t.pending = s.pending.tail ∧ s.fresh ≤ t.fresh
end

