-- ==== Sys2Proof/Laws/Tables.lean ====
section
/-! SUPPORT. Sparse tables: a read after a write, and the canonical form that every operation keeps. -/

namespace Sys2Proof.Machine

variable {α : Type}

/-! ## Reads -/

theorem sGet_sErase_ne {d : α} {k j : Nat} (h : j ≠ k) (m : List (Nat × α)) : sGet d j (sErase k m) = sGet d j m := by
  induction m with
  | nil => rfl
  | cons p r ih => obtain ⟨i, v⟩ := p; grind [sErase, sGet]

theorem sGet_sInsert_ne {d : α} {k j : Nat} {x : α} (h : j ≠ k) (m : List (Nat × α)) :
    sGet d j (sInsert k x m) = sGet d j m := by
  induction m with
  | nil => grind [sInsert, sGet]
  | cons p r ih => obtain ⟨i, v⟩ := p; grind [sInsert, sGet]

@[simp] theorem sGet_sInsert_self {d : α} {k : Nat} {x : α} (m : List (Nat × α)) : sGet d k (sInsert k x m) = x := by
  induction m with
  | nil => grind [sInsert, sGet]
  | cons p r ih => obtain ⟨i, v⟩ := p; grind [sInsert, sGet]

/-- A write leaves every other key as it was. -/
theorem sGet_sSet_ne [DecidableEq α] {d e : α} {k j : Nat} {x : α} (h : j ≠ k) (m : List (Nat × α)) :
    sGet d j (sSet e k x m) = sGet d j m := by
  unfold sSet; split
  · exact sGet_sErase_ne h m
  · exact sGet_sInsert_ne h m

/-! ## Ascending keys -/

theorem ascends_tail {p : Nat × α} {r : List (Nat × α)} (h : ascends (p :: r) = true) : ascends r = true := by
  cases r with
  | nil => rfl
  | cons q r => simp [ascends] at h; exact h.2

/-- Ascending keys: the head's key is below every later one. -/
theorem ascends_cons {p : Nat × α} {r : List (Nat × α)} :
    ascends (p :: r) = true ↔ (∀ q ∈ r, p.1 < q.1) ∧ ascends r = true := by
  induction r generalizing p with
  | nil => simp [ascends]
  | cons q r ih =>
    simp only [ascends, Bool.and_eq_true, decide_eq_true_eq, List.mem_cons, forall_eq_or_imp]
    constructor
    · rintro ⟨h, hr⟩
      exact ⟨⟨h, fun x hx => Nat.lt_trans h ((ih.mp hr).1 x hx)⟩, hr⟩
    · rintro ⟨⟨h, -⟩, hr⟩
      exact ⟨h, hr⟩

theorem mem_sErase {k : Nat} {m : List (Nat × α)} {q : Nat × α} (h : q ∈ sErase k m) : q ∈ m := by
  induction m with
  | nil => exact h
  | cons p r ih => obtain ⟨i, v⟩ := p; grind [sErase]

theorem mem_sInsert {k : Nat} {x : α} {m : List (Nat × α)} {q : Nat × α} (h : q ∈ sInsert k x m) : q = (k, x) ∨ q ∈ m := by
  induction m with
  | nil => simpa [sInsert] using h
  | cons p r ih => obtain ⟨i, v⟩ := p; grind [sInsert]

theorem ascends_sErase {k : Nat} {m : List (Nat × α)} (h : ascends m = true) : ascends (sErase k m) = true := by
  induction m with
  | nil => rfl
  | cons p r ih =>
    obtain ⟨i, v⟩ := p
    have hr := ascends_cons.mp h
    unfold sErase; split
    · exact hr.2
    · split
      · exact h
      · exact ascends_cons.mpr ⟨fun q hq => hr.1 q (mem_sErase hq), ih hr.2⟩

theorem ascends_sInsert {k : Nat} {x : α} {m : List (Nat × α)} (h : ascends m = true) : ascends (sInsert k x m) = true := by
  induction m with
  | nil => rfl
  | cons p r ih =>
    obtain ⟨i, v⟩ := p
    have hr := ascends_cons.mp h
    unfold sInsert; split
    · exact ascends_cons.mpr ⟨fun q hq => by grind, h⟩
    · split
      · exact ascends_cons.mpr ⟨fun q hq => by grind, hr.2⟩
      · exact ascends_cons.mpr ⟨fun q hq => by have := mem_sInsert hq; grind, ih hr.2⟩

/-- A write keeps the keys ascending. -/
theorem ascends_sSet [DecidableEq α] {d : α} {k : Nat} {x : α} {m : List (Nat × α)} (h : ascends m = true) :
    ascends (sSet d k x m) = true := by
  unfold sSet; split
  · exact ascends_sErase h
  · exact ascends_sInsert h

theorem sGet_of_lt {d : α} {k : Nat} {m : List (Nat × α)} (h : ∀ q ∈ m, k < q.1) : sGet d k m = d := by
  induction m with
  | nil => rfl
  | cons p r ih =>
    obtain ⟨i, v⟩ := p
    have hi : k < i := h (i, v) (by simp)
    have := ih fun q hq => h q (by simp [hq])
    grind [sGet]

/-- A key that has been removed reads as the default. -/
theorem sGet_sErase_self {d : α} {k : Nat} {m : List (Nat × α)} (h : ascends m = true) : sGet d k (sErase k m) = d := by
  induction m with
  | nil => rfl
  | cons p r ih =>
    obtain ⟨i, v⟩ := p
    have hr := ascends_cons.mp h
    unfold sErase; split
    · exact sGet_of_lt (by grind)
    · split
      · exact sGet_of_lt (by grind)
      · grind [sGet]

/-- A key reads as what was last written to it. -/
theorem sGet_sSet_self [DecidableEq α] {d : α} {k : Nat} {x : α} {m : List (Nat × α)} (h : ascends m = true) :
    sGet d k (sSet d k x m) = x := by
  unfold sSet; split
  · next e => rw [sGet_sErase_self h, e]
  · exact sGet_sInsert_self m

/-! ## Canonical form -/

/-- The canonical form: ascending keys, and no entry that holds the default. -/
theorem sWf_iff [DecidableEq α] {d : α} {m : List (Nat × α)} : sWf d m = true ↔ ascends m = true ∧ ∀ q ∈ m, q.2 ≠ d := by
  induction m with
  | nil => simp [sWf, ascends]
  | cons p r ih =>
    obtain ⟨i, v⟩ := p
    cases r with
    | nil => simp [sWf, ascends]
    | cons q r =>
      obtain ⟨j, w⟩ := q
      simp only [sWf, ascends, Bool.and_eq_true, decide_eq_true_eq, ih, List.mem_cons, forall_eq_or_imp]
      tauto

/-- A write keeps the canonical form. -/
theorem sWf_sSet [DecidableEq α] {d : α} {k : Nat} {x : α} {m : List (Nat × α)} (h : sWf d m = true) : sWf d (sSet d k x m) = true := by
  obtain ⟨ha, hv⟩ := sWf_iff.mp h
  refine sWf_iff.mpr ⟨ascends_sSet ha, fun q hq => ?_⟩
  unfold sSet at hq; split at hq
  · exact hv q (mem_sErase hq)
  · rcases mem_sInsert hq with rfl | hq
    · assumption
    · exact hv q hq

/-- Two tables in canonical form that read alike are the same table. -/
theorem sWf_ext [DecidableEq α] {d : α} {m n : List (Nat × α)} (hm : sWf d m = true) (hn : sWf d n = true)
    (h : ∀ k, sGet d k m = sGet d k n) : m = n := by
  induction m generalizing n with
  | nil =>
    cases n with
    | nil => rfl
    | cons q r => exact absurd (h q.1) (by have := (sWf_iff.mp hn).2 q (by simp); simp [sGet]; exact fun e => this e.symm)
  | cons p r ih =>
    obtain ⟨i, v⟩ := p
    have hm' := sWf_iff.mp hm
    have hp := ascends_cons.mp hm'.1
    cases n with
    | nil => exact absurd (h i) (by simp [sGet]; exact hm'.2 (i, v) (by simp))
    | cons q u =>
      obtain ⟨j, w⟩ := q
      have hn' := sWf_iff.mp hn
      have hq := ascends_cons.mp hn'.1
      have hij : i = j := by
        rcases Nat.lt_trichotomy i j with e | e | e
        · have := h i
          rw [sGet_of_lt (m := (j, w) :: u) (k := i) (by grind)] at this
          exact absurd this (by simp [sGet]; exact hm'.2 (i, v) (by simp))
        · exact e
        · have := h j
          rw [sGet_of_lt (m := (i, v) :: r) (k := j) (by grind)] at this
          exact absurd this.symm (by simp [sGet]; exact hn'.2 (j, w) (by simp))
      subst hij
      have hvw : v = w := by simpa [sGet] using h i
      subst hvw
      refine congrArg _ (ih (sWf_iff.mpr ⟨hp.2, fun q hq => hm'.2 q (by simp [hq])⟩) (sWf_iff.mpr ⟨hq.2, fun q hq => hn'.2 q (by simp [hq])⟩) fun k => ?_)
      have := h k
      by_cases e : i = k
      · subst e; rw [sGet_of_lt hp.1, sGet_of_lt hq.1]
      · simpa [sGet, e] using this

/-! ## Byte strings -/

/-- Bytes programmed one after another keep the canonical form. -/
theorem sWf_foldl_sSet {d : Byte} (bs : List (Byte × Nat)) {m : List Host.Cell} (h : sWf d m = true) :
    sWf d (bs.foldl (fun m p => sSet d p.2 p.1 m) m) = true := by
  induction bs generalizing m with
  | nil => exact h
  | cons b bs ih => exact ih (sWf_sSet h)

/-- Programming a byte string keeps the canonical form of a flash store. -/
theorem flashWrite_wf {m : List Host.Cell} {a : Nat} {bs : List Byte} (h : Memory.wf erased m = true) :
    Memory.wf erased (flashWrite m a bs) = true := sWf_foldl_sSet _ h

end Sys2Proof.Machine
end

