-- ==== Sys2Proof/Laws/State.lean ====
section
/-! SUPPORT. The named updates of the state: what each field reads after each of them. -/

namespace Sys2Proof.Machine

/-! ## Parts of the state that a register update leaves alone -/

/-- Everything but the regs is as before. -/
@[simp] theorem State.set_same (s : State) (f : Field) (v : Nat) :
    (s.set f v).frame = s.frame ∧ (s.set f v).cfg = s.cfg ∧ (s.set f v).world = s.world ∧ (s.set f v).ledger = s.ledger ∧
    (s.set f v).order = s.order ∧ (s.set f v).solver = s.solver ∧ (s.set f v).spec = s.spec ∧ (s.set f v).jig = s.jig ∧
    (s.set f v).safety = s.safety ∧ (s.set f v).pins = s.pins ∧ (s.set f v).die = s.die ∧ (s.set f v).fault = s.fault ∧
    (s.set f v).digest = s.digest ∧ (s.set f v).eth = s.eth ∧ (s.set f v).tenon = s.tenon ∧ (s.set f v).power = s.power ∧
    (s.set f v).sec = s.sec ∧ (s.set f v).jtag = s.jtag ∧ (s.set f v).waiting = s.waiting ∧ (s.set f v).access = s.access ∧
    (s.set f v).fresh = s.fresh ∧ (s.set f v).pending = s.pending := by
  refine ⟨rfl, rfl, rfl, rfl, rfl, rfl, rfl, rfl, rfl, rfl, rfl, rfl, rfl, rfl, rfl, rfl, rfl, rfl, rfl, rfl, rfl, rfl⟩

/-- Everything but the regs is as before. -/
@[simp] theorem State.inc_same (s : State) (f : Field) :
    (s.inc f).frame = s.frame ∧ (s.inc f).cfg = s.cfg ∧ (s.inc f).world = s.world ∧ (s.inc f).ledger = s.ledger ∧
    (s.inc f).order = s.order ∧ (s.inc f).solver = s.solver ∧ (s.inc f).spec = s.spec ∧ (s.inc f).jig = s.jig ∧
    (s.inc f).safety = s.safety ∧ (s.inc f).pins = s.pins ∧ (s.inc f).die = s.die ∧ (s.inc f).fault = s.fault ∧
    (s.inc f).digest = s.digest ∧ (s.inc f).eth = s.eth ∧ (s.inc f).tenon = s.tenon ∧ (s.inc f).power = s.power ∧
    (s.inc f).sec = s.sec ∧ (s.inc f).jtag = s.jtag ∧ (s.inc f).waiting = s.waiting ∧ (s.inc f).access = s.access ∧
    (s.inc f).fresh = s.fresh ∧ (s.inc f).pending = s.pending := by
  refine ⟨rfl, rfl, rfl, rfl, rfl, rfl, rfl, rfl, rfl, rfl, rfl, rfl, rfl, rfl, rfl, rfl, rfl, rfl, rfl, rfl, rfl, rfl⟩

/-- Everything but the regs is as before. -/
@[simp] theorem State.add_same (s : State) (f : Field) (n : Nat) :
    (s.add f n).frame = s.frame ∧ (s.add f n).cfg = s.cfg ∧ (s.add f n).world = s.world ∧ (s.add f n).ledger = s.ledger ∧
    (s.add f n).order = s.order ∧ (s.add f n).solver = s.solver ∧ (s.add f n).spec = s.spec ∧ (s.add f n).jig = s.jig ∧
    (s.add f n).safety = s.safety ∧ (s.add f n).pins = s.pins ∧ (s.add f n).die = s.die ∧ (s.add f n).fault = s.fault ∧
    (s.add f n).digest = s.digest ∧ (s.add f n).eth = s.eth ∧ (s.add f n).tenon = s.tenon ∧ (s.add f n).power = s.power ∧
    (s.add f n).sec = s.sec ∧ (s.add f n).jtag = s.jtag ∧ (s.add f n).waiting = s.waiting ∧ (s.add f n).access = s.access ∧
    (s.add f n).fresh = s.fresh ∧ (s.add f n).pending = s.pending := by
  refine ⟨rfl, rfl, rfl, rfl, rfl, rfl, rfl, rfl, rfl, rfl, rfl, rfl, rfl, rfl, rfl, rfl, rfl, rfl, rfl, rfl, rfl, rfl⟩

/-- Everything but the regs is as before. -/
@[simp] theorem State.set64_same (s : State) (lo hi : Field) (v : Nat) :
    (s.set64 lo hi v).frame = s.frame ∧ (s.set64 lo hi v).cfg = s.cfg ∧ (s.set64 lo hi v).world = s.world ∧
    (s.set64 lo hi v).ledger = s.ledger ∧ (s.set64 lo hi v).order = s.order ∧ (s.set64 lo hi v).solver = s.solver ∧
    (s.set64 lo hi v).spec = s.spec ∧ (s.set64 lo hi v).jig = s.jig ∧ (s.set64 lo hi v).safety = s.safety ∧
    (s.set64 lo hi v).pins = s.pins ∧ (s.set64 lo hi v).die = s.die ∧ (s.set64 lo hi v).fault = s.fault ∧
    (s.set64 lo hi v).digest = s.digest ∧ (s.set64 lo hi v).eth = s.eth ∧ (s.set64 lo hi v).tenon = s.tenon ∧
    (s.set64 lo hi v).power = s.power ∧ (s.set64 lo hi v).sec = s.sec ∧ (s.set64 lo hi v).jtag = s.jtag ∧
    (s.set64 lo hi v).waiting = s.waiting ∧ (s.set64 lo hi v).access = s.access ∧ (s.set64 lo hi v).fresh = s.fresh ∧
    (s.set64 lo hi v).pending = s.pending := by
  refine ⟨rfl, rfl, rfl, rfl, rfl, rfl, rfl, rfl, rfl, rfl, rfl, rfl, rfl, rfl, rfl, rfl, rfl, rfl, rfl, rfl, rfl, rfl⟩

/-- Everything but the fresh is as before. -/
@[simp] theorem State.draw_same (s : State) (w : Nat) :
    ((s.draw w).2).regs = s.regs ∧ ((s.draw w).2).frame = s.frame ∧ ((s.draw w).2).cfg = s.cfg ∧
    ((s.draw w).2).world = s.world ∧ ((s.draw w).2).ledger = s.ledger ∧ ((s.draw w).2).order = s.order ∧
    ((s.draw w).2).solver = s.solver ∧ ((s.draw w).2).spec = s.spec ∧ ((s.draw w).2).jig = s.jig ∧
    ((s.draw w).2).safety = s.safety ∧ ((s.draw w).2).pins = s.pins ∧ ((s.draw w).2).die = s.die ∧
    ((s.draw w).2).fault = s.fault ∧ ((s.draw w).2).digest = s.digest ∧ ((s.draw w).2).eth = s.eth ∧
    ((s.draw w).2).tenon = s.tenon ∧ ((s.draw w).2).power = s.power ∧ ((s.draw w).2).sec = s.sec ∧
    ((s.draw w).2).jtag = s.jtag ∧ ((s.draw w).2).waiting = s.waiting ∧ ((s.draw w).2).access = s.access ∧
    ((s.draw w).2).pending = s.pending := by
  refine ⟨rfl, rfl, rfl, rfl, rfl, rfl, rfl, rfl, rfl, rfl, rfl, rfl, rfl, rfl, rfl, rfl, rfl, rfl, rfl, rfl, rfl, rfl⟩

/-- Everything but the pending is as before. -/
@[simp] theorem State.withPending_same (s : State) (q : List Instr) :
    (s.withPending q).regs = s.regs ∧ (s.withPending q).frame = s.frame ∧ (s.withPending q).cfg = s.cfg ∧
    (s.withPending q).world = s.world ∧ (s.withPending q).ledger = s.ledger ∧ (s.withPending q).order = s.order ∧
    (s.withPending q).solver = s.solver ∧ (s.withPending q).spec = s.spec ∧ (s.withPending q).jig = s.jig ∧
    (s.withPending q).safety = s.safety ∧ (s.withPending q).pins = s.pins ∧ (s.withPending q).die = s.die ∧
    (s.withPending q).fault = s.fault ∧ (s.withPending q).digest = s.digest ∧ (s.withPending q).eth = s.eth ∧
    (s.withPending q).tenon = s.tenon ∧ (s.withPending q).power = s.power ∧ (s.withPending q).sec = s.sec ∧
    (s.withPending q).jtag = s.jtag ∧ (s.withPending q).waiting = s.waiting ∧ (s.withPending q).access = s.access ∧
    (s.withPending q).fresh = s.fresh := by
  refine ⟨rfl, rfl, rfl, rfl, rfl, rfl, rfl, rfl, rfl, rfl, rfl, rfl, rfl, rfl, rfl, rfl, rfl, rfl, rfl, rfl, rfl, rfl⟩

@[simp] theorem State.withPending_pending (s : State) (q : List Instr) : (s.withPending q).pending = q := rfl
@[simp] theorem State.withPending_self (s : State) : s.withPending s.pending = s := rfl
@[simp] theorem State.draw_fresh (s : State) (w : Nat) : (s.draw w).2.fresh = s.fresh + 1 := rfl
@[simp] theorem State.withPending_get (s : State) (q : List Instr) (f : Field) : (s.withPending q).get f = s.get f := rfl
@[simp] theorem State.draw_get (s : State) (w : Nat) (f : Field) : (s.draw w).2.get f = s.get f := rfl

/-! ## Folds and conditionals -/

@[simp] theorem foldl_regs {β : Type} {g : State → β → State} (h : ∀ s x, (g s x).regs = s.regs) (l : List β) (s : State) : (l.foldl g s).regs = s.regs := by
  induction l generalizing s with
  | nil => rfl
  | cons x l ih => exact (ih _).trans (h s x)

@[simp] theorem foldl_frame {β : Type} {g : State → β → State} (h : ∀ s x, (g s x).frame = s.frame) (l : List β) (s : State) : (l.foldl g s).frame = s.frame := by
  induction l generalizing s with
  | nil => rfl
  | cons x l ih => exact (ih _).trans (h s x)

@[simp] theorem foldl_cfg {β : Type} {g : State → β → State} (h : ∀ s x, (g s x).cfg = s.cfg) (l : List β) (s : State) : (l.foldl g s).cfg = s.cfg := by
  induction l generalizing s with
  | nil => rfl
  | cons x l ih => exact (ih _).trans (h s x)

@[simp] theorem foldl_world {β : Type} {g : State → β → State} (h : ∀ s x, (g s x).world = s.world) (l : List β) (s : State) : (l.foldl g s).world = s.world := by
  induction l generalizing s with
  | nil => rfl
  | cons x l ih => exact (ih _).trans (h s x)

@[simp] theorem foldl_ledger {β : Type} {g : State → β → State} (h : ∀ s x, (g s x).ledger = s.ledger) (l : List β) (s : State) : (l.foldl g s).ledger = s.ledger := by
  induction l generalizing s with
  | nil => rfl
  | cons x l ih => exact (ih _).trans (h s x)

@[simp] theorem foldl_order {β : Type} {g : State → β → State} (h : ∀ s x, (g s x).order = s.order) (l : List β) (s : State) : (l.foldl g s).order = s.order := by
  induction l generalizing s with
  | nil => rfl
  | cons x l ih => exact (ih _).trans (h s x)

@[simp] theorem foldl_solver {β : Type} {g : State → β → State} (h : ∀ s x, (g s x).solver = s.solver) (l : List β) (s : State) : (l.foldl g s).solver = s.solver := by
  induction l generalizing s with
  | nil => rfl
  | cons x l ih => exact (ih _).trans (h s x)

@[simp] theorem foldl_spec {β : Type} {g : State → β → State} (h : ∀ s x, (g s x).spec = s.spec) (l : List β) (s : State) : (l.foldl g s).spec = s.spec := by
  induction l generalizing s with
  | nil => rfl
  | cons x l ih => exact (ih _).trans (h s x)

@[simp] theorem foldl_jig {β : Type} {g : State → β → State} (h : ∀ s x, (g s x).jig = s.jig) (l : List β) (s : State) : (l.foldl g s).jig = s.jig := by
  induction l generalizing s with
  | nil => rfl
  | cons x l ih => exact (ih _).trans (h s x)

@[simp] theorem foldl_safety {β : Type} {g : State → β → State} (h : ∀ s x, (g s x).safety = s.safety) (l : List β) (s : State) : (l.foldl g s).safety = s.safety := by
  induction l generalizing s with
  | nil => rfl
  | cons x l ih => exact (ih _).trans (h s x)

@[simp] theorem foldl_pins {β : Type} {g : State → β → State} (h : ∀ s x, (g s x).pins = s.pins) (l : List β) (s : State) : (l.foldl g s).pins = s.pins := by
  induction l generalizing s with
  | nil => rfl
  | cons x l ih => exact (ih _).trans (h s x)

@[simp] theorem foldl_die {β : Type} {g : State → β → State} (h : ∀ s x, (g s x).die = s.die) (l : List β) (s : State) : (l.foldl g s).die = s.die := by
  induction l generalizing s with
  | nil => rfl
  | cons x l ih => exact (ih _).trans (h s x)

@[simp] theorem foldl_fault {β : Type} {g : State → β → State} (h : ∀ s x, (g s x).fault = s.fault) (l : List β) (s : State) : (l.foldl g s).fault = s.fault := by
  induction l generalizing s with
  | nil => rfl
  | cons x l ih => exact (ih _).trans (h s x)

@[simp] theorem foldl_digest {β : Type} {g : State → β → State} (h : ∀ s x, (g s x).digest = s.digest) (l : List β) (s : State) : (l.foldl g s).digest = s.digest := by
  induction l generalizing s with
  | nil => rfl
  | cons x l ih => exact (ih _).trans (h s x)

@[simp] theorem foldl_eth {β : Type} {g : State → β → State} (h : ∀ s x, (g s x).eth = s.eth) (l : List β) (s : State) : (l.foldl g s).eth = s.eth := by
  induction l generalizing s with
  | nil => rfl
  | cons x l ih => exact (ih _).trans (h s x)

@[simp] theorem foldl_tenon {β : Type} {g : State → β → State} (h : ∀ s x, (g s x).tenon = s.tenon) (l : List β) (s : State) : (l.foldl g s).tenon = s.tenon := by
  induction l generalizing s with
  | nil => rfl
  | cons x l ih => exact (ih _).trans (h s x)

@[simp] theorem foldl_power {β : Type} {g : State → β → State} (h : ∀ s x, (g s x).power = s.power) (l : List β) (s : State) : (l.foldl g s).power = s.power := by
  induction l generalizing s with
  | nil => rfl
  | cons x l ih => exact (ih _).trans (h s x)

@[simp] theorem foldl_sec {β : Type} {g : State → β → State} (h : ∀ s x, (g s x).sec = s.sec) (l : List β) (s : State) : (l.foldl g s).sec = s.sec := by
  induction l generalizing s with
  | nil => rfl
  | cons x l ih => exact (ih _).trans (h s x)

@[simp] theorem foldl_jtag {β : Type} {g : State → β → State} (h : ∀ s x, (g s x).jtag = s.jtag) (l : List β) (s : State) : (l.foldl g s).jtag = s.jtag := by
  induction l generalizing s with
  | nil => rfl
  | cons x l ih => exact (ih _).trans (h s x)

@[simp] theorem foldl_waiting {β : Type} {g : State → β → State} (h : ∀ s x, (g s x).waiting = s.waiting) (l : List β) (s : State) : (l.foldl g s).waiting = s.waiting := by
  induction l generalizing s with
  | nil => rfl
  | cons x l ih => exact (ih _).trans (h s x)

@[simp] theorem foldl_access {β : Type} {g : State → β → State} (h : ∀ s x, (g s x).access = s.access) (l : List β) (s : State) : (l.foldl g s).access = s.access := by
  induction l generalizing s with
  | nil => rfl
  | cons x l ih => exact (ih _).trans (h s x)

@[simp] theorem foldl_fresh {β : Type} {g : State → β → State} (h : ∀ s x, (g s x).fresh = s.fresh) (l : List β) (s : State) : (l.foldl g s).fresh = s.fresh := by
  induction l generalizing s with
  | nil => rfl
  | cons x l ih => exact (ih _).trans (h s x)

@[simp] theorem foldl_pending {β : Type} {g : State → β → State} (h : ∀ s x, (g s x).pending = s.pending) (l : List β) (s : State) : (l.foldl g s).pending = s.pending := by
  induction l generalizing s with
  | nil => rfl
  | cons x l ih => exact (ih _).trans (h s x)

theorem foldl_proj {β γ : Type} (p : State → γ) (g : State → β → State) (h : ∀ s x, p (g s x) = p s) (l : List β) (s : State) : p (l.foldl g s) = p s := by
  induction l generalizing s with
  | nil => rfl
  | cons x l ih => exact (ih _).trans (h s x)

theorem foldl_snd {β γ δ : Type} (p : State → δ) (g : γ × State → β → γ × State) (h : ∀ a x, p (g a x).2 = p a.2) (l : List β) (a : γ × State) : p (l.foldl g a).2 = p a.2 := by
  induction l generalizing a with
  | nil => rfl
  | cons x l ih => exact (ih _).trans (h a x)

@[simp] theorem ite_regs {c : Prop} [Decidable c] (a b : State) : (if c then a else b).regs = if c then a.regs else b.regs := by split <;> rfl

@[simp] theorem ite_frame {c : Prop} [Decidable c] (a b : State) : (if c then a else b).frame = if c then a.frame else b.frame := by split <;> rfl

@[simp] theorem ite_cfg {c : Prop} [Decidable c] (a b : State) : (if c then a else b).cfg = if c then a.cfg else b.cfg := by split <;> rfl

@[simp] theorem ite_world {c : Prop} [Decidable c] (a b : State) : (if c then a else b).world = if c then a.world else b.world := by split <;> rfl

@[simp] theorem ite_ledger {c : Prop} [Decidable c] (a b : State) : (if c then a else b).ledger = if c then a.ledger else b.ledger := by split <;> rfl

@[simp] theorem ite_order {c : Prop} [Decidable c] (a b : State) : (if c then a else b).order = if c then a.order else b.order := by split <;> rfl

@[simp] theorem ite_solver {c : Prop} [Decidable c] (a b : State) : (if c then a else b).solver = if c then a.solver else b.solver := by split <;> rfl

@[simp] theorem ite_spec {c : Prop} [Decidable c] (a b : State) : (if c then a else b).spec = if c then a.spec else b.spec := by split <;> rfl

@[simp] theorem ite_jig {c : Prop} [Decidable c] (a b : State) : (if c then a else b).jig = if c then a.jig else b.jig := by split <;> rfl

@[simp] theorem ite_safety {c : Prop} [Decidable c] (a b : State) : (if c then a else b).safety = if c then a.safety else b.safety := by split <;> rfl

@[simp] theorem ite_pins {c : Prop} [Decidable c] (a b : State) : (if c then a else b).pins = if c then a.pins else b.pins := by split <;> rfl

@[simp] theorem ite_die {c : Prop} [Decidable c] (a b : State) : (if c then a else b).die = if c then a.die else b.die := by split <;> rfl

@[simp] theorem ite_fault {c : Prop} [Decidable c] (a b : State) : (if c then a else b).fault = if c then a.fault else b.fault := by split <;> rfl

@[simp] theorem ite_digest {c : Prop} [Decidable c] (a b : State) : (if c then a else b).digest = if c then a.digest else b.digest := by split <;> rfl

@[simp] theorem ite_eth {c : Prop} [Decidable c] (a b : State) : (if c then a else b).eth = if c then a.eth else b.eth := by split <;> rfl

@[simp] theorem ite_tenon {c : Prop} [Decidable c] (a b : State) : (if c then a else b).tenon = if c then a.tenon else b.tenon := by split <;> rfl

@[simp] theorem ite_power {c : Prop} [Decidable c] (a b : State) : (if c then a else b).power = if c then a.power else b.power := by split <;> rfl

@[simp] theorem ite_sec {c : Prop} [Decidable c] (a b : State) : (if c then a else b).sec = if c then a.sec else b.sec := by split <;> rfl

@[simp] theorem ite_jtag {c : Prop} [Decidable c] (a b : State) : (if c then a else b).jtag = if c then a.jtag else b.jtag := by split <;> rfl

@[simp] theorem ite_waiting {c : Prop} [Decidable c] (a b : State) : (if c then a else b).waiting = if c then a.waiting else b.waiting := by split <;> rfl

@[simp] theorem ite_access {c : Prop} [Decidable c] (a b : State) : (if c then a else b).access = if c then a.access else b.access := by split <;> rfl

@[simp] theorem ite_fresh {c : Prop} [Decidable c] (a b : State) : (if c then a else b).fresh = if c then a.fresh else b.fresh := by split <;> rfl

@[simp] theorem ite_pending {c : Prop} [Decidable c] (a b : State) : (if c then a else b).pending = if c then a.pending else b.pending := by split <;> rfl

@[simp] theorem foldl_fst_regs {β γ : Type} {g : State × γ → β → State × γ} (h : ∀ a x, (g a x).1.regs = a.1.regs) (l : List β) (a : State × γ) : (l.foldl g a).1.regs = a.1.regs := by
  induction l generalizing a with
  | nil => rfl
  | cons x l ih => exact (ih _).trans (h a x)

@[simp] theorem foldl_fst_frame {β γ : Type} {g : State × γ → β → State × γ} (h : ∀ a x, (g a x).1.frame = a.1.frame) (l : List β) (a : State × γ) : (l.foldl g a).1.frame = a.1.frame := by
  induction l generalizing a with
  | nil => rfl
  | cons x l ih => exact (ih _).trans (h a x)

@[simp] theorem foldl_fst_cfg {β γ : Type} {g : State × γ → β → State × γ} (h : ∀ a x, (g a x).1.cfg = a.1.cfg) (l : List β) (a : State × γ) : (l.foldl g a).1.cfg = a.1.cfg := by
  induction l generalizing a with
  | nil => rfl
  | cons x l ih => exact (ih _).trans (h a x)

@[simp] theorem foldl_fst_world {β γ : Type} {g : State × γ → β → State × γ} (h : ∀ a x, (g a x).1.world = a.1.world) (l : List β) (a : State × γ) : (l.foldl g a).1.world = a.1.world := by
  induction l generalizing a with
  | nil => rfl
  | cons x l ih => exact (ih _).trans (h a x)

@[simp] theorem foldl_fst_ledger {β γ : Type} {g : State × γ → β → State × γ} (h : ∀ a x, (g a x).1.ledger = a.1.ledger) (l : List β) (a : State × γ) : (l.foldl g a).1.ledger = a.1.ledger := by
  induction l generalizing a with
  | nil => rfl
  | cons x l ih => exact (ih _).trans (h a x)

@[simp] theorem foldl_fst_order {β γ : Type} {g : State × γ → β → State × γ} (h : ∀ a x, (g a x).1.order = a.1.order) (l : List β) (a : State × γ) : (l.foldl g a).1.order = a.1.order := by
  induction l generalizing a with
  | nil => rfl
  | cons x l ih => exact (ih _).trans (h a x)

@[simp] theorem foldl_fst_solver {β γ : Type} {g : State × γ → β → State × γ} (h : ∀ a x, (g a x).1.solver = a.1.solver) (l : List β) (a : State × γ) : (l.foldl g a).1.solver = a.1.solver := by
  induction l generalizing a with
  | nil => rfl
  | cons x l ih => exact (ih _).trans (h a x)

@[simp] theorem foldl_fst_spec {β γ : Type} {g : State × γ → β → State × γ} (h : ∀ a x, (g a x).1.spec = a.1.spec) (l : List β) (a : State × γ) : (l.foldl g a).1.spec = a.1.spec := by
  induction l generalizing a with
  | nil => rfl
  | cons x l ih => exact (ih _).trans (h a x)

@[simp] theorem foldl_fst_jig {β γ : Type} {g : State × γ → β → State × γ} (h : ∀ a x, (g a x).1.jig = a.1.jig) (l : List β) (a : State × γ) : (l.foldl g a).1.jig = a.1.jig := by
  induction l generalizing a with
  | nil => rfl
  | cons x l ih => exact (ih _).trans (h a x)

@[simp] theorem foldl_fst_safety {β γ : Type} {g : State × γ → β → State × γ} (h : ∀ a x, (g a x).1.safety = a.1.safety) (l : List β) (a : State × γ) : (l.foldl g a).1.safety = a.1.safety := by
  induction l generalizing a with
  | nil => rfl
  | cons x l ih => exact (ih _).trans (h a x)

@[simp] theorem foldl_fst_pins {β γ : Type} {g : State × γ → β → State × γ} (h : ∀ a x, (g a x).1.pins = a.1.pins) (l : List β) (a : State × γ) : (l.foldl g a).1.pins = a.1.pins := by
  induction l generalizing a with
  | nil => rfl
  | cons x l ih => exact (ih _).trans (h a x)

@[simp] theorem foldl_fst_die {β γ : Type} {g : State × γ → β → State × γ} (h : ∀ a x, (g a x).1.die = a.1.die) (l : List β) (a : State × γ) : (l.foldl g a).1.die = a.1.die := by
  induction l generalizing a with
  | nil => rfl
  | cons x l ih => exact (ih _).trans (h a x)

@[simp] theorem foldl_fst_fault {β γ : Type} {g : State × γ → β → State × γ} (h : ∀ a x, (g a x).1.fault = a.1.fault) (l : List β) (a : State × γ) : (l.foldl g a).1.fault = a.1.fault := by
  induction l generalizing a with
  | nil => rfl
  | cons x l ih => exact (ih _).trans (h a x)

@[simp] theorem foldl_fst_digest {β γ : Type} {g : State × γ → β → State × γ} (h : ∀ a x, (g a x).1.digest = a.1.digest) (l : List β) (a : State × γ) : (l.foldl g a).1.digest = a.1.digest := by
  induction l generalizing a with
  | nil => rfl
  | cons x l ih => exact (ih _).trans (h a x)

@[simp] theorem foldl_fst_eth {β γ : Type} {g : State × γ → β → State × γ} (h : ∀ a x, (g a x).1.eth = a.1.eth) (l : List β) (a : State × γ) : (l.foldl g a).1.eth = a.1.eth := by
  induction l generalizing a with
  | nil => rfl
  | cons x l ih => exact (ih _).trans (h a x)

@[simp] theorem foldl_fst_tenon {β γ : Type} {g : State × γ → β → State × γ} (h : ∀ a x, (g a x).1.tenon = a.1.tenon) (l : List β) (a : State × γ) : (l.foldl g a).1.tenon = a.1.tenon := by
  induction l generalizing a with
  | nil => rfl
  | cons x l ih => exact (ih _).trans (h a x)

@[simp] theorem foldl_fst_power {β γ : Type} {g : State × γ → β → State × γ} (h : ∀ a x, (g a x).1.power = a.1.power) (l : List β) (a : State × γ) : (l.foldl g a).1.power = a.1.power := by
  induction l generalizing a with
  | nil => rfl
  | cons x l ih => exact (ih _).trans (h a x)

@[simp] theorem foldl_fst_sec {β γ : Type} {g : State × γ → β → State × γ} (h : ∀ a x, (g a x).1.sec = a.1.sec) (l : List β) (a : State × γ) : (l.foldl g a).1.sec = a.1.sec := by
  induction l generalizing a with
  | nil => rfl
  | cons x l ih => exact (ih _).trans (h a x)

@[simp] theorem foldl_fst_jtag {β γ : Type} {g : State × γ → β → State × γ} (h : ∀ a x, (g a x).1.jtag = a.1.jtag) (l : List β) (a : State × γ) : (l.foldl g a).1.jtag = a.1.jtag := by
  induction l generalizing a with
  | nil => rfl
  | cons x l ih => exact (ih _).trans (h a x)

@[simp] theorem foldl_fst_waiting {β γ : Type} {g : State × γ → β → State × γ} (h : ∀ a x, (g a x).1.waiting = a.1.waiting) (l : List β) (a : State × γ) : (l.foldl g a).1.waiting = a.1.waiting := by
  induction l generalizing a with
  | nil => rfl
  | cons x l ih => exact (ih _).trans (h a x)

@[simp] theorem foldl_fst_access {β γ : Type} {g : State × γ → β → State × γ} (h : ∀ a x, (g a x).1.access = a.1.access) (l : List β) (a : State × γ) : (l.foldl g a).1.access = a.1.access := by
  induction l generalizing a with
  | nil => rfl
  | cons x l ih => exact (ih _).trans (h a x)

@[simp] theorem foldl_fst_fresh {β γ : Type} {g : State × γ → β → State × γ} (h : ∀ a x, (g a x).1.fresh = a.1.fresh) (l : List β) (a : State × γ) : (l.foldl g a).1.fresh = a.1.fresh := by
  induction l generalizing a with
  | nil => rfl
  | cons x l ih => exact (ih _).trans (h a x)

@[simp] theorem foldl_fst_pending {β γ : Type} {g : State × γ → β → State × γ} (h : ∀ a x, (g a x).1.pending = a.1.pending) (l : List β) (a : State × γ) : (l.foldl g a).1.pending = a.1.pending := by
  induction l generalizing a with
  | nil => rfl
  | cons x l ih => exact (ih _).trans (h a x)

/-! ## Registers -/

theorem rget_rset_ne {f g : Field} (h : f.key ≠ g.key) (v : Nat) (rf : List (Nat × Nat)) : rget (rset g v rf) f = rget rf f :=
  sGet_sSet_ne h rf

theorem rget_rset_self {f : Field} {v : Nat} {rf : List (Nat × Nat)} (h : ascends rf = true) :
    rget (rset f v rf) f = v % 2 ^ f.width := sGet_sSet_self h

theorem rget_rinc_ne {f g : Field} (h : f.key ≠ g.key) (rf : List (Nat × Nat)) : rget (rinc g rf) f = rget rf f := by
  simp only [rinc]; split
  · exact rget_rset_ne h _ rf
  · rfl

theorem rget_radd_ne {f g : Field} (h : f.key ≠ g.key) (n : Nat) (rf : List (Nat × Nat)) : rget (radd g n rf) f = rget rf f :=
  rget_rset_ne h _ rf

theorem ascends_rset {f : Field} {v : Nat} {rf : List (Nat × Nat)} (h : ascends rf = true) : ascends (rset f v rf) = true :=
  ascends_sSet h

theorem ascends_rinc {f : Field} {rf : List (Nat × Nat)} (h : ascends rf = true) : ascends (rinc f rf) = true := by
  simp only [rinc]; split
  · exact ascends_rset h
  · exact h

theorem ascends_radd {f : Field} {n : Nat} {rf : List (Nat × Nat)} (h : ascends rf = true) : ascends (radd f n rf) = true :=
  ascends_rset h

/-- A field reads as before a write of another one. -/
theorem State.get_set_ne {f g : Field} (h : f.key ≠ g.key) (s : State) (v : Nat) : (s.set g v).get f = s.get f :=
  rget_rset_ne h v s.regs

/-- A field that has been written reads as the low bits of what was written. -/
theorem State.get_set_self {s : State} (h : s.registersWf = true) (f : Field) (v : Nat) : (s.set f v).get f = v % 2 ^ f.width :=
  rget_rset_self h

theorem State.get_inc_ne {f g : Field} (h : f.key ≠ g.key) (s : State) : (s.inc g).get f = s.get f := rget_rinc_ne h s.regs

theorem State.get_add_ne {f g : Field} (h : f.key ≠ g.key) (s : State) (n : Nat) : (s.add g n).get f = s.get f :=
  rget_radd_ne h n s.regs

/-- A counter that saturates. -/
theorem State.get_inc_self {s : State} (h : s.registersWf = true) (f : Field) :
    (s.inc f).get f = if s.get f + 1 < 2 ^ f.width then s.get f + 1 else s.get f := by
  by_cases e : rget s.regs f + 1 < 2 ^ f.width
  · simp only [State.get, State.inc, rinc, e, if_true]; rw [rget_rset_self h, Nat.mod_eq_of_lt e]
  · simp only [State.get, State.inc, rinc, e, if_false]

theorem State.get_add_self {s : State} (h : s.registersWf = true) (f : Field) (n : Nat) :
    (s.add f n).get f = min (s.get f + n) (2 ^ f.width - 1) := by
  have hp : 0 < 2 ^ f.width := Nat.two_pow_pos _
  simp only [State.get, State.add, radd]
  rw [rget_rset_self h, Nat.mod_eq_of_lt (by omega)]

@[simp] theorem State.set_registersWf {s : State} (h : s.registersWf = true) (f : Field) (v : Nat) : (s.set f v).registersWf = true :=
  ascends_rset h
@[simp] theorem State.inc_registersWf {s : State} (h : s.registersWf = true) (f : Field) : (s.inc f).registersWf = true :=
  ascends_rinc h
@[simp] theorem State.add_registersWf {s : State} (h : s.registersWf = true) (f : Field) (n : Nat) : (s.add f n).registersWf = true :=
  ascends_radd h
@[simp] theorem State.set64_registersWf {s : State} (h : s.registersWf = true) (lo hi : Field) (v : Nat) :
    (s.set64 lo hi v).registersWf = true := State.set_registersWf (State.set_registersWf h lo v) hi _
@[simp] theorem State.draw_registersWf {s : State} (h : s.registersWf = true) (w : Nat) : (s.draw w).2.registersWf = true := h

theorem RegsSame.refl (s : State) (fs : List Field) : RegsSame s s fs := fun _ _ => rfl

theorem RegsSame.trans {s t u : State} {fs : List Field} (h : RegsSame s t fs) (k : RegsSame t u fs) : RegsSame s u fs :=
  fun f hf => (k f hf).trans (h f hf)

theorem RegsSame.set {s t : State} {fs : List Field} (h : RegsSame s t fs) {g : Field} (hg : g.key ∈ fs.map Field.key) (v : Nat) :
    RegsSame s (t.set g v) fs := fun f hf => (State.get_set_ne (f := f) (fun e => hf (e.symm ▸ hg)) t v).trans (h f hf)

theorem RegsSame.inc {s t : State} {fs : List Field} (h : RegsSame s t fs) {g : Field} (hg : g.key ∈ fs.map Field.key) :
    RegsSame s (t.inc g) fs := fun f hf => (State.get_inc_ne (f := f) (fun e => hf (e.symm ▸ hg)) t).trans (h f hf)

theorem RegsSame.add {s t : State} {fs : List Field} (h : RegsSame s t fs) {g : Field} (hg : g.key ∈ fs.map Field.key) (n : Nat) :
    RegsSame s (t.add g n) fs := fun f hf => (State.get_add_ne (f := f) (fun e => hf (e.symm ▸ hg)) t n).trans (h f hf)

end Sys2Proof.Machine
end

