-- ==== Sys2Proof/Laws/SharedSafety.lean ====
section
/-! SUPPORT. What the shared operations of the Setpoint Port, Tenon links, the safety island and the fault handler leave as it is: every part of the state that an operation does not
change, one lemma an operation. -/

namespace Sys2Proof.Machine

@[simp] theorem swapTable_same (s : State) (table : List (Nat × Nat)) (clipped gen : Nat) :
    (swapTable s table clipped gen).frame = s.frame ∧ (swapTable s table clipped gen).cfg = s.cfg ∧
    (swapTable s table clipped gen).world = s.world ∧ (swapTable s table clipped gen).ledger = s.ledger ∧
    (swapTable s table clipped gen).order = s.order ∧ (swapTable s table clipped gen).solver = s.solver ∧
    (swapTable s table clipped gen).spec = s.spec ∧ (swapTable s table clipped gen).jig = s.jig ∧
    (swapTable s table clipped gen).die = s.die ∧ (swapTable s table clipped gen).fault = s.fault ∧
    (swapTable s table clipped gen).digest = s.digest ∧ (swapTable s table clipped gen).eth = s.eth ∧
    (swapTable s table clipped gen).tenon = s.tenon ∧ (swapTable s table clipped gen).power = s.power ∧
    (swapTable s table clipped gen).sec = s.sec ∧ (swapTable s table clipped gen).jtag = s.jtag ∧
    (swapTable s table clipped gen).waiting = s.waiting ∧ (swapTable s table clipped gen).access = s.access ∧
    (swapTable s table clipped gen).fresh = s.fresh ∧ (swapTable s table clipped gen).pending = s.pending := by
  simp [swapTable]

@[simp] theorem putTable_same (s : State) (t : List (Nat × Nat) × Nat) (gen : Nat) :
    (putTable s t gen).frame = s.frame ∧ (putTable s t gen).cfg = s.cfg ∧ (putTable s t gen).world = s.world ∧
    (putTable s t gen).ledger = s.ledger ∧ (putTable s t gen).order = s.order ∧ (putTable s t gen).solver = s.solver ∧
    (putTable s t gen).spec = s.spec ∧ (putTable s t gen).jig = s.jig ∧ (putTable s t gen).die = s.die ∧
    (putTable s t gen).fault = s.fault ∧ (putTable s t gen).digest = s.digest ∧ (putTable s t gen).eth = s.eth ∧
    (putTable s t gen).tenon = s.tenon ∧ (putTable s t gen).power = s.power ∧ (putTable s t gen).sec = s.sec ∧
    (putTable s t gen).jtag = s.jtag ∧ (putTable s t gen).waiting = s.waiting ∧ (putTable s t gen).access = s.access ∧
    (putTable s t gen).fresh = s.fresh ∧ (putTable s t gen).pending = s.pending := by
  unfold putTable; (repeat' split) <;> simp

@[simp] theorem publishTraj_same (s : State) (img : Image) (tr : QTraj) (k verdict : Nat) (island : Bool) :
    (publishTraj s img tr k verdict island).frame = s.frame ∧ (publishTraj s img tr k verdict island).cfg = s.cfg ∧
    (publishTraj s img tr k verdict island).world = s.world ∧ (publishTraj s img tr k verdict island).ledger = s.ledger ∧
    (publishTraj s img tr k verdict island).order = s.order ∧ (publishTraj s img tr k verdict island).solver = s.solver ∧
    (publishTraj s img tr k verdict island).spec = s.spec ∧ (publishTraj s img tr k verdict island).jig = s.jig ∧
    (publishTraj s img tr k verdict island).die = s.die ∧ (publishTraj s img tr k verdict island).fault = s.fault ∧
    (publishTraj s img tr k verdict island).digest = s.digest ∧ (publishTraj s img tr k verdict island).eth = s.eth ∧
    (publishTraj s img tr k verdict island).tenon = s.tenon ∧ (publishTraj s img tr k verdict island).power = s.power ∧
    (publishTraj s img tr k verdict island).sec = s.sec ∧ (publishTraj s img tr k verdict island).jtag = s.jtag ∧
    (publishTraj s img tr k verdict island).waiting = s.waiting ∧ (publishTraj s img tr k verdict island).access = s.access ∧
    (publishTraj s img tr k verdict island).fresh = s.fresh ∧ (publishTraj s img tr k verdict island).pending = s.pending := by
  simp [publishTraj]

@[simp] theorem publishHold_same (s : State) (img : Image) (k : Nat) :
    (publishHold s img k).frame = s.frame ∧ (publishHold s img k).cfg = s.cfg ∧ (publishHold s img k).world = s.world ∧
    (publishHold s img k).ledger = s.ledger ∧ (publishHold s img k).order = s.order ∧ (publishHold s img k).solver = s.solver ∧
    (publishHold s img k).spec = s.spec ∧ (publishHold s img k).jig = s.jig ∧ (publishHold s img k).die = s.die ∧
    (publishHold s img k).fault = s.fault ∧ (publishHold s img k).digest = s.digest ∧ (publishHold s img k).eth = s.eth ∧
    (publishHold s img k).tenon = s.tenon ∧ (publishHold s img k).power = s.power ∧ (publishHold s img k).sec = s.sec ∧
    (publishHold s img k).jtag = s.jtag ∧ (publishHold s img k).waiting = s.waiting ∧ (publishHold s img k).access = s.access ∧
    (publishHold s img k).fresh = s.fresh ∧ (publishHold s img k).pending = s.pending := by
  simp [publishHold]

@[simp] theorem emptyTable_same (s : State) :
    (emptyTable s).frame = s.frame ∧ (emptyTable s).cfg = s.cfg ∧ (emptyTable s).world = s.world ∧
    (emptyTable s).ledger = s.ledger ∧ (emptyTable s).order = s.order ∧ (emptyTable s).solver = s.solver ∧
    (emptyTable s).spec = s.spec ∧ (emptyTable s).jig = s.jig ∧ (emptyTable s).pins = s.pins ∧ (emptyTable s).die = s.die ∧
    (emptyTable s).fault = s.fault ∧ (emptyTable s).digest = s.digest ∧ (emptyTable s).eth = s.eth ∧
    (emptyTable s).tenon = s.tenon ∧ (emptyTable s).power = s.power ∧ (emptyTable s).sec = s.sec ∧ (emptyTable s).jtag = s.jtag ∧
    (emptyTable s).waiting = s.waiting ∧ (emptyTable s).access = s.access ∧ (emptyTable s).fresh = s.fresh ∧
    (emptyTable s).pending = s.pending := by
  simp [emptyTable]

@[simp] theorem setPhase_same (s : State) (ph : Nat) :
    (setPhase s ph).frame = s.frame ∧ (setPhase s ph).cfg = s.cfg ∧ (setPhase s ph).world = s.world ∧
    (setPhase s ph).ledger = s.ledger ∧ (setPhase s ph).order = s.order ∧ (setPhase s ph).solver = s.solver ∧
    (setPhase s ph).spec = s.spec ∧ (setPhase s ph).jig = s.jig ∧ (setPhase s ph).safety = s.safety ∧
    (setPhase s ph).die = s.die ∧ (setPhase s ph).fault = s.fault ∧ (setPhase s ph).digest = s.digest ∧
    (setPhase s ph).eth = s.eth ∧ (setPhase s ph).tenon = s.tenon ∧ (setPhase s ph).power = s.power ∧
    (setPhase s ph).sec = s.sec ∧ (setPhase s ph).jtag = s.jtag ∧ (setPhase s ph).waiting = s.waiting ∧
    (setPhase s ph).access = s.access ∧ (setPhase s ph).fresh = s.fresh ∧ (setPhase s ph).pending = s.pending := by
  simp [setPhase]

@[simp] theorem State.setLink_same (s : State) (l : Nat) (x : LinkSt) :
    (State.setLink s l x).regs = s.regs ∧ (State.setLink s l x).frame = s.frame ∧ (State.setLink s l x).cfg = s.cfg ∧
    (State.setLink s l x).world = s.world ∧ (State.setLink s l x).ledger = s.ledger ∧ (State.setLink s l x).order = s.order ∧
    (State.setLink s l x).solver = s.solver ∧ (State.setLink s l x).spec = s.spec ∧ (State.setLink s l x).jig = s.jig ∧
    (State.setLink s l x).safety = s.safety ∧ (State.setLink s l x).pins = s.pins ∧ (State.setLink s l x).die = s.die ∧
    (State.setLink s l x).fault = s.fault ∧ (State.setLink s l x).digest = s.digest ∧ (State.setLink s l x).eth = s.eth ∧
    (State.setLink s l x).power = s.power ∧ (State.setLink s l x).sec = s.sec ∧ (State.setLink s l x).jtag = s.jtag ∧
    (State.setLink s l x).waiting = s.waiting ∧ (State.setLink s l x).access = s.access ∧ (State.setLink s l x).fresh = s.fresh ∧
    (State.setLink s l x).pending = s.pending := by
  simp [State.setLink]

@[simp] theorem pumpOne_same (l : Nat) (a : State × List OutFlit × List Nat) (f : OutFlit) :
    (pumpOne l a f).1.frame = a.1.frame ∧ (pumpOne l a f).1.cfg = a.1.cfg ∧ (pumpOne l a f).1.world = a.1.world ∧ (pumpOne l a f).1.ledger = a.1.ledger ∧ (pumpOne l a f).1.order = a.1.order ∧ (pumpOne l a f).1.solver = a.1.solver ∧ (pumpOne l a f).1.spec = a.1.spec ∧ (pumpOne l a f).1.jig = a.1.jig ∧ (pumpOne l a f).1.safety = a.1.safety ∧ (pumpOne l a f).1.pins = a.1.pins ∧ (pumpOne l a f).1.die = a.1.die ∧ (pumpOne l a f).1.fault = a.1.fault ∧ (pumpOne l a f).1.digest = a.1.digest ∧ (pumpOne l a f).1.eth = a.1.eth ∧ (pumpOne l a f).1.power = a.1.power ∧ (pumpOne l a f).1.sec = a.1.sec ∧ (pumpOne l a f).1.jtag = a.1.jtag ∧ (pumpOne l a f).1.waiting = a.1.waiting ∧ (pumpOne l a f).1.access = a.1.access ∧ (pumpOne l a f).1.fresh = a.1.fresh ∧ (pumpOne l a f).1.pending = a.1.pending := by
  simp only [pumpOne]; (repeat' split) <;> simp
@[simp] theorem pumpLink_same (s : State) (l : Nat) :
    (pumpLink s l).frame = s.frame ∧ (pumpLink s l).cfg = s.cfg ∧ (pumpLink s l).world = s.world ∧
    (pumpLink s l).ledger = s.ledger ∧ (pumpLink s l).order = s.order ∧ (pumpLink s l).solver = s.solver ∧
    (pumpLink s l).spec = s.spec ∧ (pumpLink s l).jig = s.jig ∧ (pumpLink s l).safety = s.safety ∧ (pumpLink s l).pins = s.pins ∧
    (pumpLink s l).die = s.die ∧ (pumpLink s l).fault = s.fault ∧ (pumpLink s l).digest = s.digest ∧ (pumpLink s l).eth = s.eth ∧
    (pumpLink s l).power = s.power ∧ (pumpLink s l).sec = s.sec ∧ (pumpLink s l).jtag = s.jtag ∧
    (pumpLink s l).waiting = s.waiting ∧ (pumpLink s l).access = s.access ∧ (pumpLink s l).fresh = s.fresh ∧
    (pumpLink s l).pending = s.pending := by
  simp only [pumpLink]; split <;> simp

@[simp] theorem sendFlit_same (s : State) (l : Nat) (f : OutFlit) :
    (sendFlit s l f).frame = s.frame ∧ (sendFlit s l f).cfg = s.cfg ∧ (sendFlit s l f).world = s.world ∧
    (sendFlit s l f).ledger = s.ledger ∧ (sendFlit s l f).order = s.order ∧ (sendFlit s l f).solver = s.solver ∧
    (sendFlit s l f).spec = s.spec ∧ (sendFlit s l f).jig = s.jig ∧ (sendFlit s l f).safety = s.safety ∧
    (sendFlit s l f).pins = s.pins ∧ (sendFlit s l f).die = s.die ∧ (sendFlit s l f).fault = s.fault ∧
    (sendFlit s l f).digest = s.digest ∧ (sendFlit s l f).eth = s.eth ∧ (sendFlit s l f).power = s.power ∧
    (sendFlit s l f).sec = s.sec ∧ (sendFlit s l f).jtag = s.jtag ∧ (sendFlit s l f).waiting = s.waiting ∧
    (sendFlit s l f).access = s.access ∧ (sendFlit s l f).fresh = s.fresh ∧ (sendFlit s l f).pending = s.pending := by
  simp only [sendFlit]; (repeat' split) <;> simp_all

@[simp] theorem sendToken_same (s : State) (l kind flags dest : Nat) (e : Epoch) (v0 v1 : Nat) :
    (sendToken s l kind flags dest e v0 v1).frame = s.frame ∧ (sendToken s l kind flags dest e v0 v1).cfg = s.cfg ∧
    (sendToken s l kind flags dest e v0 v1).world = s.world ∧ (sendToken s l kind flags dest e v0 v1).ledger = s.ledger ∧
    (sendToken s l kind flags dest e v0 v1).order = s.order ∧ (sendToken s l kind flags dest e v0 v1).solver = s.solver ∧
    (sendToken s l kind flags dest e v0 v1).spec = s.spec ∧ (sendToken s l kind flags dest e v0 v1).jig = s.jig ∧
    (sendToken s l kind flags dest e v0 v1).safety = s.safety ∧ (sendToken s l kind flags dest e v0 v1).pins = s.pins ∧
    (sendToken s l kind flags dest e v0 v1).die = s.die ∧ (sendToken s l kind flags dest e v0 v1).fault = s.fault ∧
    (sendToken s l kind flags dest e v0 v1).digest = s.digest ∧ (sendToken s l kind flags dest e v0 v1).eth = s.eth ∧
    (sendToken s l kind flags dest e v0 v1).power = s.power ∧ (sendToken s l kind flags dest e v0 v1).sec = s.sec ∧
    (sendToken s l kind flags dest e v0 v1).jtag = s.jtag ∧ (sendToken s l kind flags dest e v0 v1).waiting = s.waiting ∧
    (sendToken s l kind flags dest e v0 v1).access = s.access ∧ (sendToken s l kind flags dest e v0 v1).fresh = s.fresh ∧
    (sendToken s l kind flags dest e v0 v1).pending = s.pending := by
  simp [sendToken]

@[simp] theorem sendMessage_same (s : State) (l : Nat) (fs : List OutFlit) :
    (sendMessage s l fs).frame = s.frame ∧ (sendMessage s l fs).cfg = s.cfg ∧ (sendMessage s l fs).world = s.world ∧
    (sendMessage s l fs).ledger = s.ledger ∧ (sendMessage s l fs).order = s.order ∧ (sendMessage s l fs).solver = s.solver ∧
    (sendMessage s l fs).spec = s.spec ∧ (sendMessage s l fs).jig = s.jig ∧ (sendMessage s l fs).safety = s.safety ∧
    (sendMessage s l fs).pins = s.pins ∧ (sendMessage s l fs).die = s.die ∧ (sendMessage s l fs).fault = s.fault ∧
    (sendMessage s l fs).digest = s.digest ∧ (sendMessage s l fs).eth = s.eth ∧ (sendMessage s l fs).power = s.power ∧
    (sendMessage s l fs).sec = s.sec ∧ (sendMessage s l fs).jtag = s.jtag ∧ (sendMessage s l fs).waiting = s.waiting ∧
    (sendMessage s l fs).access = s.access ∧ (sendMessage s l fs).fresh = s.fresh ∧ (sendMessage s l fs).pending = s.pending := by
  simp [sendMessage]

@[simp] theorem maintMessage_same (s : State) (l dest kind : Nat) :
    (maintMessage s l dest kind).frame = s.frame ∧ (maintMessage s l dest kind).cfg = s.cfg ∧
    (maintMessage s l dest kind).world = s.world ∧ (maintMessage s l dest kind).ledger = s.ledger ∧
    (maintMessage s l dest kind).order = s.order ∧ (maintMessage s l dest kind).solver = s.solver ∧
    (maintMessage s l dest kind).spec = s.spec ∧ (maintMessage s l dest kind).jig = s.jig ∧
    (maintMessage s l dest kind).safety = s.safety ∧ (maintMessage s l dest kind).pins = s.pins ∧
    (maintMessage s l dest kind).die = s.die ∧ (maintMessage s l dest kind).fault = s.fault ∧
    (maintMessage s l dest kind).digest = s.digest ∧ (maintMessage s l dest kind).eth = s.eth ∧
    (maintMessage s l dest kind).power = s.power ∧ (maintMessage s l dest kind).sec = s.sec ∧
    (maintMessage s l dest kind).jtag = s.jtag ∧ (maintMessage s l dest kind).waiting = s.waiting ∧
    (maintMessage s l dest kind).access = s.access ∧ (maintMessage s l dest kind).pending = s.pending := by
  simp [maintMessage]

@[simp] theorem tryConfirm_same (s : State) (e : Epoch) :
    (tryConfirm s e).frame = s.frame ∧ (tryConfirm s e).cfg = s.cfg ∧ (tryConfirm s e).world = s.world ∧
    (tryConfirm s e).ledger = s.ledger ∧ (tryConfirm s e).order = s.order ∧ (tryConfirm s e).solver = s.solver ∧
    (tryConfirm s e).spec = s.spec ∧ (tryConfirm s e).jig = s.jig ∧ (tryConfirm s e).safety = s.safety ∧
    (tryConfirm s e).pins = s.pins ∧ (tryConfirm s e).die = s.die ∧ (tryConfirm s e).fault = s.fault ∧
    (tryConfirm s e).digest = s.digest ∧ (tryConfirm s e).eth = s.eth ∧ (tryConfirm s e).power = s.power ∧
    (tryConfirm s e).sec = s.sec ∧ (tryConfirm s e).jtag = s.jtag ∧ (tryConfirm s e).waiting = s.waiting ∧
    (tryConfirm s e).access = s.access ∧ (tryConfirm s e).fresh = s.fresh ∧ (tryConfirm s e).pending = s.pending := by
  unfold tryConfirm; (repeat' split) <;> simp

@[simp] theorem condemn_same (s : State) (e : Epoch) (cause : Nat) :
    (condemn s e cause).cfg = s.cfg ∧ (condemn s e cause).world = s.world ∧ (condemn s e cause).ledger = s.ledger ∧
    (condemn s e cause).order = s.order ∧ (condemn s e cause).solver = s.solver ∧ (condemn s e cause).jig = s.jig ∧
    (condemn s e cause).pins = s.pins ∧ (condemn s e cause).die = s.die ∧ (condemn s e cause).fault = s.fault ∧
    (condemn s e cause).digest = s.digest ∧ (condemn s e cause).eth = s.eth ∧ (condemn s e cause).power = s.power ∧
    (condemn s e cause).sec = s.sec ∧ (condemn s e cause).jtag = s.jtag ∧ (condemn s e cause).waiting = s.waiting ∧
    (condemn s e cause).access = s.access ∧ (condemn s e cause).fresh = s.fresh ∧ (condemn s e cause).pending = s.pending := by
  simp only [condemn]; (repeat' split) <;> simp_all

@[simp] theorem armedStatus_same (s : State) :
    (armedStatus s).frame = s.frame ∧ (armedStatus s).cfg = s.cfg ∧ (armedStatus s).world = s.world ∧
    (armedStatus s).ledger = s.ledger ∧ (armedStatus s).order = s.order ∧ (armedStatus s).solver = s.solver ∧
    (armedStatus s).spec = s.spec ∧ (armedStatus s).jig = s.jig ∧ (armedStatus s).safety = s.safety ∧
    (armedStatus s).pins = s.pins ∧ (armedStatus s).die = s.die ∧ (armedStatus s).fault = s.fault ∧
    (armedStatus s).digest = s.digest ∧ (armedStatus s).eth = s.eth ∧ (armedStatus s).tenon = s.tenon ∧
    (armedStatus s).power = s.power ∧ (armedStatus s).sec = s.sec ∧ (armedStatus s).jtag = s.jtag ∧
    (armedStatus s).waiting = s.waiting ∧ (armedStatus s).access = s.access ∧ (armedStatus s).fresh = s.fresh ∧
    (armedStatus s).pending = s.pending := by
  simp only [armedStatus]; (repeat' split) <;> simp_all

@[simp] theorem setMode_same (s : State) (m : Nat) :
    (setMode s m).frame = s.frame ∧ (setMode s m).cfg = s.cfg ∧ (setMode s m).world = s.world ∧ (setMode s m).ledger = s.ledger ∧
    (setMode s m).order = s.order ∧ (setMode s m).solver = s.solver ∧ (setMode s m).spec = s.spec ∧ (setMode s m).jig = s.jig ∧
    (setMode s m).safety = s.safety ∧ (setMode s m).pins = s.pins ∧ (setMode s m).die = s.die ∧ (setMode s m).fault = s.fault ∧
    (setMode s m).digest = s.digest ∧ (setMode s m).eth = s.eth ∧ (setMode s m).tenon = s.tenon ∧ (setMode s m).power = s.power ∧
    (setMode s m).sec = s.sec ∧ (setMode s m).jtag = s.jtag ∧ (setMode s m).waiting = s.waiting ∧
    (setMode s m).access = s.access ∧ (setMode s m).fresh = s.fresh ∧ (setMode s m).pending = s.pending := by
  unfold setMode; (repeat' split) <;> simp

@[simp] theorem showSpecEpoch_same (s : State) :
    (showSpecEpoch s).frame = s.frame ∧ (showSpecEpoch s).cfg = s.cfg ∧ (showSpecEpoch s).world = s.world ∧
    (showSpecEpoch s).ledger = s.ledger ∧ (showSpecEpoch s).order = s.order ∧ (showSpecEpoch s).solver = s.solver ∧
    (showSpecEpoch s).spec = s.spec ∧ (showSpecEpoch s).jig = s.jig ∧ (showSpecEpoch s).safety = s.safety ∧
    (showSpecEpoch s).pins = s.pins ∧ (showSpecEpoch s).die = s.die ∧ (showSpecEpoch s).fault = s.fault ∧
    (showSpecEpoch s).digest = s.digest ∧ (showSpecEpoch s).eth = s.eth ∧ (showSpecEpoch s).tenon = s.tenon ∧
    (showSpecEpoch s).power = s.power ∧ (showSpecEpoch s).sec = s.sec ∧ (showSpecEpoch s).jtag = s.jtag ∧
    (showSpecEpoch s).waiting = s.waiting ∧ (showSpecEpoch s).access = s.access ∧ (showSpecEpoch s).fresh = s.fresh ∧
    (showSpecEpoch s).pending = s.pending := by
  simp [showSpecEpoch]

@[simp] theorem dropSpecDescs_same (s : State) :
    (dropSpecDescs s).regs = s.regs ∧ (dropSpecDescs s).frame = s.frame ∧ (dropSpecDescs s).cfg = s.cfg ∧
    (dropSpecDescs s).world = s.world ∧ (dropSpecDescs s).ledger = s.ledger ∧ (dropSpecDescs s).order = s.order ∧
    (dropSpecDescs s).solver = s.solver ∧ (dropSpecDescs s).spec = s.spec ∧ (dropSpecDescs s).safety = s.safety ∧
    (dropSpecDescs s).pins = s.pins ∧ (dropSpecDescs s).die = s.die ∧ (dropSpecDescs s).fault = s.fault ∧
    (dropSpecDescs s).digest = s.digest ∧ (dropSpecDescs s).eth = s.eth ∧ (dropSpecDescs s).tenon = s.tenon ∧
    (dropSpecDescs s).power = s.power ∧ (dropSpecDescs s).sec = s.sec ∧ (dropSpecDescs s).jtag = s.jtag ∧
    (dropSpecDescs s).waiting = s.waiting ∧ (dropSpecDescs s).access = s.access ∧ (dropSpecDescs s).fresh = s.fresh ∧
    (dropSpecDescs s).pending = s.pending := by
  simp [dropSpecDescs]

@[simp] theorem discardAll_same (s : State) :
    (discardAll s).frame = s.frame ∧ (discardAll s).cfg = s.cfg ∧ (discardAll s).world = s.world ∧
    (discardAll s).ledger = s.ledger ∧ (discardAll s).order = s.order ∧ (discardAll s).solver = s.solver ∧
    (discardAll s).safety = s.safety ∧ (discardAll s).pins = s.pins ∧ (discardAll s).die = s.die ∧
    (discardAll s).fault = s.fault ∧ (discardAll s).digest = s.digest ∧ (discardAll s).eth = s.eth ∧
    (discardAll s).tenon = s.tenon ∧ (discardAll s).power = s.power ∧ (discardAll s).sec = s.sec ∧ (discardAll s).jtag = s.jtag ∧
    (discardAll s).waiting = s.waiting ∧ (discardAll s).access = s.access ∧ (discardAll s).fresh = s.fresh ∧
    (discardAll s).pending = s.pending := by
  simp [discardAll]

@[simp] theorem discardBefore_same (s : State) (e : Epoch) :
    (discardBefore s e).frame = s.frame ∧ (discardBefore s e).cfg = s.cfg ∧ (discardBefore s e).world = s.world ∧
    (discardBefore s e).ledger = s.ledger ∧ (discardBefore s e).order = s.order ∧ (discardBefore s e).solver = s.solver ∧
    (discardBefore s e).safety = s.safety ∧ (discardBefore s e).pins = s.pins ∧ (discardBefore s e).die = s.die ∧
    (discardBefore s e).fault = s.fault ∧ (discardBefore s e).digest = s.digest ∧ (discardBefore s e).eth = s.eth ∧
    (discardBefore s e).tenon = s.tenon ∧ (discardBefore s e).power = s.power ∧ (discardBefore s e).sec = s.sec ∧
    (discardBefore s e).jtag = s.jtag ∧ (discardBefore s e).waiting = s.waiting ∧ (discardBefore s e).access = s.access ∧
    (discardBefore s e).fresh = s.fresh ∧ (discardBefore s e).pending = s.pending := by
  simp [discardBefore]

@[simp] theorem endJobs_same (s : State) (frameBound : Nat) (refine : Option Nat) :
    (endJobs s frameBound refine).regs = s.regs ∧ (endJobs s frameBound refine).frame = s.frame ∧
    (endJobs s frameBound refine).cfg = s.cfg ∧ (endJobs s frameBound refine).world = s.world ∧
    (endJobs s frameBound refine).ledger = s.ledger ∧ (endJobs s frameBound refine).order = s.order ∧
    (endJobs s frameBound refine).solver = s.solver ∧ (endJobs s frameBound refine).spec = s.spec ∧
    (endJobs s frameBound refine).jig = s.jig ∧ (endJobs s frameBound refine).safety = s.safety ∧
    (endJobs s frameBound refine).pins = s.pins ∧ (endJobs s frameBound refine).die = s.die ∧
    (endJobs s frameBound refine).fault = s.fault ∧ (endJobs s frameBound refine).digest = s.digest ∧
    (endJobs s frameBound refine).tenon = s.tenon ∧ (endJobs s frameBound refine).power = s.power ∧
    (endJobs s frameBound refine).sec = s.sec ∧ (endJobs s frameBound refine).jtag = s.jtag ∧
    (endJobs s frameBound refine).waiting = s.waiting ∧ (endJobs s frameBound refine).access = s.access ∧
    (endJobs s frameBound refine).fresh = s.fresh ∧ (endJobs s frameBound refine).pending = s.pending := by
  simp [endJobs]

@[simp] theorem stopMain_same (s : State) :
    (stopMain s).world = s.world ∧ (stopMain s).ledger = s.ledger ∧ (stopMain s).order = s.order ∧
    (stopMain s).solver = s.solver ∧ (stopMain s).pins = s.pins ∧ (stopMain s).die = s.die ∧ (stopMain s).eth = s.eth ∧
    (stopMain s).sec = s.sec ∧ (stopMain s).jtag = s.jtag ∧ (stopMain s).waiting = s.waiting ∧ (stopMain s).access = s.access ∧
    (stopMain s).fresh = s.fresh ∧ (stopMain s).pending = s.pending := by
  simp only [stopMain]; (repeat' split) <;> simp_all

@[simp] theorem restartAs_same (s : State) (warm : Bool) :
    (restartAs s warm).world = s.world ∧ (restartAs s warm).ledger = s.ledger ∧ (restartAs s warm).order = s.order ∧
    (restartAs s warm).solver = s.solver ∧ (restartAs s warm).pins = s.pins ∧ (restartAs s warm).die = s.die ∧
    (restartAs s warm).jtag = s.jtag ∧ (restartAs s warm).waiting = s.waiting ∧ (restartAs s warm).access = s.access ∧
    (restartAs s warm).fresh = s.fresh ∧ (restartAs s warm).pending = s.pending := by
  unfold restartAs; (repeat' split) <;> simp

@[simp] theorem beginRestart_same (s : State) :
    (beginRestart s).world = s.world ∧ (beginRestart s).ledger = s.ledger ∧ (beginRestart s).order = s.order ∧
    (beginRestart s).solver = s.solver ∧ (beginRestart s).pins = s.pins ∧ (beginRestart s).die = s.die ∧
    (beginRestart s).jtag = s.jtag ∧ (beginRestart s).waiting = s.waiting ∧ (beginRestart s).access = s.access ∧
    (beginRestart s).fresh = s.fresh ∧ (beginRestart s).pending = s.pending := by
  simp [beginRestart]

@[simp] theorem chargeSlot_same (s : State) (i : Nat) :
    (chargeSlot s i).frame = s.frame ∧ (chargeSlot s i).cfg = s.cfg ∧ (chargeSlot s i).world = s.world ∧
    (chargeSlot s i).ledger = s.ledger ∧ (chargeSlot s i).order = s.order ∧ (chargeSlot s i).solver = s.solver ∧
    (chargeSlot s i).spec = s.spec ∧ (chargeSlot s i).jig = s.jig ∧ (chargeSlot s i).safety = s.safety ∧
    (chargeSlot s i).pins = s.pins ∧ (chargeSlot s i).die = s.die ∧ (chargeSlot s i).fault = s.fault ∧
    (chargeSlot s i).digest = s.digest ∧ (chargeSlot s i).eth = s.eth ∧ (chargeSlot s i).tenon = s.tenon ∧
    (chargeSlot s i).power = s.power ∧ (chargeSlot s i).sec = s.sec ∧ (chargeSlot s i).jtag = s.jtag ∧
    (chargeSlot s i).waiting = s.waiting ∧ (chargeSlot s i).access = s.access ∧ (chargeSlot s i).fresh = s.fresh ∧
    (chargeSlot s i).pending = s.pending := by
  simp only [chargeSlot]; (repeat' split) <;> simp_all

@[simp] theorem startFailed_same (s : State) :
    (startFailed s).world = s.world ∧ (startFailed s).ledger = s.ledger ∧ (startFailed s).order = s.order ∧
    (startFailed s).solver = s.solver ∧ (startFailed s).pins = s.pins ∧ (startFailed s).die = s.die ∧
    (startFailed s).jtag = s.jtag ∧ (startFailed s).waiting = s.waiting ∧ (startFailed s).access = s.access ∧
    (startFailed s).fresh = s.fresh ∧ (startFailed s).pending = s.pending := by
  unfold startFailed; (repeat' split) <;> simp

@[simp] theorem enterSafe_same (s : State) :
    (enterSafe s).world = s.world ∧ (enterSafe s).ledger = s.ledger ∧ (enterSafe s).order = s.order ∧
    (enterSafe s).solver = s.solver ∧ (enterSafe s).die = s.die ∧ (enterSafe s).jtag = s.jtag ∧
    (enterSafe s).waiting = s.waiting ∧ (enterSafe s).access = s.access ∧ (enterSafe s).fresh = s.fresh ∧
    (enterSafe s).pending = s.pending := by
  simp [enterSafe]

@[simp] theorem publishEntry_same (s : State) (k : Nat) :
    (publishEntry s k).frame = s.frame ∧ (publishEntry s k).cfg = s.cfg ∧ (publishEntry s k).world = s.world ∧
    (publishEntry s k).ledger = s.ledger ∧ (publishEntry s k).order = s.order ∧ (publishEntry s k).solver = s.solver ∧
    (publishEntry s k).spec = s.spec ∧ (publishEntry s k).jig = s.jig ∧ (publishEntry s k).die = s.die ∧
    (publishEntry s k).fault = s.fault ∧ (publishEntry s k).digest = s.digest ∧ (publishEntry s k).eth = s.eth ∧
    (publishEntry s k).tenon = s.tenon ∧ (publishEntry s k).power = s.power ∧ (publishEntry s k).sec = s.sec ∧
    (publishEntry s k).jtag = s.jtag ∧ (publishEntry s k).waiting = s.waiting ∧ (publishEntry s k).access = s.access ∧
    (publishEntry s k).fresh = s.fresh ∧ (publishEntry s k).pending = s.pending := by
  unfold publishEntry; (repeat' split) <;> simp

@[simp] theorem enterNow_same (s : State) :
    (enterNow s).world = s.world ∧ (enterNow s).ledger = s.ledger ∧ (enterNow s).order = s.order ∧
    (enterNow s).solver = s.solver ∧ (enterNow s).die = s.die ∧ (enterNow s).jtag = s.jtag ∧ (enterNow s).waiting = s.waiting ∧
    (enterNow s).access = s.access ∧ (enterNow s).fresh = s.fresh ∧ (enterNow s).pending = s.pending := by
  unfold enterNow; (repeat' split) <;> simp

@[simp] theorem permanentFault_same (s : State) :
    (permanentFault s).frame = s.frame ∧ (permanentFault s).cfg = s.cfg ∧ (permanentFault s).world = s.world ∧
    (permanentFault s).ledger = s.ledger ∧ (permanentFault s).order = s.order ∧ (permanentFault s).solver = s.solver ∧
    (permanentFault s).spec = s.spec ∧ (permanentFault s).jig = s.jig ∧ (permanentFault s).die = s.die ∧
    (permanentFault s).fault = s.fault ∧ (permanentFault s).digest = s.digest ∧ (permanentFault s).eth = s.eth ∧
    (permanentFault s).tenon = s.tenon ∧ (permanentFault s).power = s.power ∧ (permanentFault s).sec = s.sec ∧
    (permanentFault s).jtag = s.jtag ∧ (permanentFault s).waiting = s.waiting ∧ (permanentFault s).access = s.access ∧
    (permanentFault s).fresh = s.fresh ∧ (permanentFault s).pending = s.pending := by
  simp only [permanentFault]; (repeat' split) <;> simp_all

@[simp] theorem State.setUnit_same (s : State) (cls idx : Nat) (u : UnitSt) :
    (State.setUnit s cls idx u).regs = s.regs ∧ (State.setUnit s cls idx u).frame = s.frame ∧
    (State.setUnit s cls idx u).cfg = s.cfg ∧ (State.setUnit s cls idx u).world = s.world ∧
    (State.setUnit s cls idx u).ledger = s.ledger ∧ (State.setUnit s cls idx u).order = s.order ∧
    (State.setUnit s cls idx u).solver = s.solver ∧ (State.setUnit s cls idx u).spec = s.spec ∧
    (State.setUnit s cls idx u).jig = s.jig ∧ (State.setUnit s cls idx u).safety = s.safety ∧
    (State.setUnit s cls idx u).pins = s.pins ∧ (State.setUnit s cls idx u).die = s.die ∧
    (State.setUnit s cls idx u).digest = s.digest ∧ (State.setUnit s cls idx u).eth = s.eth ∧
    (State.setUnit s cls idx u).tenon = s.tenon ∧ (State.setUnit s cls idx u).power = s.power ∧
    (State.setUnit s cls idx u).sec = s.sec ∧ (State.setUnit s cls idx u).jtag = s.jtag ∧
    (State.setUnit s cls idx u).waiting = s.waiting ∧ (State.setUnit s cls idx u).access = s.access ∧
    (State.setUnit s cls idx u).fresh = s.fresh ∧ (State.setUnit s cls idx u).pending = s.pending := by
  simp [State.setUnit]

@[simp] theorem showUnit_same (s : State) (cls idx : Nat) :
    (showUnit s cls idx).frame = s.frame ∧ (showUnit s cls idx).cfg = s.cfg ∧ (showUnit s cls idx).world = s.world ∧
    (showUnit s cls idx).ledger = s.ledger ∧ (showUnit s cls idx).order = s.order ∧ (showUnit s cls idx).solver = s.solver ∧
    (showUnit s cls idx).spec = s.spec ∧ (showUnit s cls idx).jig = s.jig ∧ (showUnit s cls idx).safety = s.safety ∧
    (showUnit s cls idx).pins = s.pins ∧ (showUnit s cls idx).die = s.die ∧ (showUnit s cls idx).fault = s.fault ∧
    (showUnit s cls idx).digest = s.digest ∧ (showUnit s cls idx).eth = s.eth ∧ (showUnit s cls idx).tenon = s.tenon ∧
    (showUnit s cls idx).power = s.power ∧ (showUnit s cls idx).sec = s.sec ∧ (showUnit s cls idx).jtag = s.jtag ∧
    (showUnit s cls idx).waiting = s.waiting ∧ (showUnit s cls idx).access = s.access ∧ (showUnit s cls idx).fresh = s.fresh ∧
    (showUnit s cls idx).pending = s.pending := by
  unfold showUnit; (repeat' split) <;> simp

@[simp] theorem makeSuspect_same (s : State) (cls idx : Nat) :
    (makeSuspect s cls idx).frame = s.frame ∧ (makeSuspect s cls idx).cfg = s.cfg ∧ (makeSuspect s cls idx).world = s.world ∧
    (makeSuspect s cls idx).ledger = s.ledger ∧ (makeSuspect s cls idx).order = s.order ∧
    (makeSuspect s cls idx).solver = s.solver ∧ (makeSuspect s cls idx).spec = s.spec ∧ (makeSuspect s cls idx).jig = s.jig ∧
    (makeSuspect s cls idx).safety = s.safety ∧ (makeSuspect s cls idx).pins = s.pins ∧ (makeSuspect s cls idx).die = s.die ∧
    (makeSuspect s cls idx).digest = s.digest ∧ (makeSuspect s cls idx).eth = s.eth ∧ (makeSuspect s cls idx).tenon = s.tenon ∧
    (makeSuspect s cls idx).power = s.power ∧ (makeSuspect s cls idx).sec = s.sec ∧ (makeSuspect s cls idx).jtag = s.jtag ∧
    (makeSuspect s cls idx).waiting = s.waiting ∧ (makeSuspect s cls idx).access = s.access ∧
    (makeSuspect s cls idx).fresh = s.fresh ∧ (makeSuspect s cls idx).pending = s.pending := by
  simp only [makeSuspect]; (repeat' split) <;> simp_all

@[simp] theorem showTokens_same (s : State) :
    (showTokens s).frame = s.frame ∧ (showTokens s).cfg = s.cfg ∧ (showTokens s).world = s.world ∧
    (showTokens s).ledger = s.ledger ∧ (showTokens s).order = s.order ∧ (showTokens s).solver = s.solver ∧
    (showTokens s).spec = s.spec ∧ (showTokens s).jig = s.jig ∧ (showTokens s).safety = s.safety ∧ (showTokens s).pins = s.pins ∧
    (showTokens s).die = s.die ∧ (showTokens s).fault = s.fault ∧ (showTokens s).digest = s.digest ∧ (showTokens s).eth = s.eth ∧
    (showTokens s).tenon = s.tenon ∧ (showTokens s).power = s.power ∧ (showTokens s).sec = s.sec ∧ (showTokens s).jtag = s.jtag ∧
    (showTokens s).waiting = s.waiting ∧ (showTokens s).access = s.access ∧ (showTokens s).fresh = s.fresh ∧
    (showTokens s).pending = s.pending := by
  simp [showTokens]

@[simp] theorem takeToken_same (s : State) (t : Token) :
    (takeToken s t).2.frame = s.frame ∧ (takeToken s t).2.cfg = s.cfg ∧ (takeToken s t).2.world = s.world ∧
    (takeToken s t).2.ledger = s.ledger ∧ (takeToken s t).2.order = s.order ∧ (takeToken s t).2.solver = s.solver ∧
    (takeToken s t).2.spec = s.spec ∧ (takeToken s t).2.jig = s.jig ∧ (takeToken s t).2.safety = s.safety ∧
    (takeToken s t).2.pins = s.pins ∧ (takeToken s t).2.die = s.die ∧ (takeToken s t).2.digest = s.digest ∧
    (takeToken s t).2.eth = s.eth ∧ (takeToken s t).2.tenon = s.tenon ∧ (takeToken s t).2.power = s.power ∧
    (takeToken s t).2.sec = s.sec ∧ (takeToken s t).2.jtag = s.jtag ∧ (takeToken s t).2.waiting = s.waiting ∧
    (takeToken s t).2.access = s.access ∧ (takeToken s t).2.fresh = s.fresh ∧ (takeToken s t).2.pending = s.pending := by
  unfold takeToken; (repeat' split) <;> simp

@[simp] theorem dropToken_same (s : State) (t : Token) :
    (dropToken s t).frame = s.frame ∧ (dropToken s t).cfg = s.cfg ∧ (dropToken s t).world = s.world ∧
    (dropToken s t).ledger = s.ledger ∧ (dropToken s t).order = s.order ∧ (dropToken s t).solver = s.solver ∧
    (dropToken s t).spec = s.spec ∧ (dropToken s t).jig = s.jig ∧ (dropToken s t).safety = s.safety ∧
    (dropToken s t).pins = s.pins ∧ (dropToken s t).die = s.die ∧ (dropToken s t).digest = s.digest ∧
    (dropToken s t).eth = s.eth ∧ (dropToken s t).tenon = s.tenon ∧ (dropToken s t).power = s.power ∧
    (dropToken s t).sec = s.sec ∧ (dropToken s t).jtag = s.jtag ∧ (dropToken s t).waiting = s.waiting ∧
    (dropToken s t).access = s.access ∧ (dropToken s t).fresh = s.fresh ∧ (dropToken s t).pending = s.pending := by
  simp [dropToken]

@[simp] theorem State.sense_same (s : State) :
    (State.sense s).frame = s.frame ∧ (State.sense s).cfg = s.cfg ∧ (State.sense s).world = s.world ∧
    (State.sense s).ledger = s.ledger ∧ (State.sense s).order = s.order ∧ (State.sense s).solver = s.solver ∧
    (State.sense s).spec = s.spec ∧ (State.sense s).jig = s.jig ∧ (State.sense s).safety = s.safety ∧
    (State.sense s).pins = s.pins ∧ (State.sense s).die = s.die ∧ (State.sense s).fault = s.fault ∧
    (State.sense s).digest = s.digest ∧ (State.sense s).eth = s.eth ∧ (State.sense s).tenon = s.tenon ∧
    (State.sense s).power = s.power ∧ (State.sense s).sec = s.sec ∧ (State.sense s).jtag = s.jtag ∧
    (State.sense s).waiting = s.waiting ∧ (State.sense s).access = s.access ∧ (State.sense s).pending = s.pending := by
  simp [State.sense]

@[simp] theorem issueRecord_same (s : State) (h : Handling) (test : Nat) :
    (issueRecord s h test).frame = s.frame ∧ (issueRecord s h test).cfg = s.cfg ∧ (issueRecord s h test).world = s.world ∧
    (issueRecord s h test).ledger = s.ledger ∧ (issueRecord s h test).order = s.order ∧
    (issueRecord s h test).solver = s.solver ∧ (issueRecord s h test).spec = s.spec ∧ (issueRecord s h test).jig = s.jig ∧
    (issueRecord s h test).safety = s.safety ∧ (issueRecord s h test).pins = s.pins ∧ (issueRecord s h test).die = s.die ∧
    (issueRecord s h test).digest = s.digest ∧ (issueRecord s h test).eth = s.eth ∧ (issueRecord s h test).tenon = s.tenon ∧
    (issueRecord s h test).power = s.power ∧ (issueRecord s h test).sec = s.sec ∧ (issueRecord s h test).jtag = s.jtag ∧
    (issueRecord s h test).waiting = s.waiting ∧ (issueRecord s h test).access = s.access ∧
    (issueRecord s h test).pending = s.pending := by
  simp only [issueRecord]; (repeat' split) <;> simp_all

@[simp] theorem closeError_same (s : State) (h : Handling) (test : Nat) :
    (closeError s h test).frame = s.frame ∧ (closeError s h test).cfg = s.cfg ∧ (closeError s h test).world = s.world ∧
    (closeError s h test).ledger = s.ledger ∧ (closeError s h test).order = s.order ∧ (closeError s h test).solver = s.solver ∧
    (closeError s h test).spec = s.spec ∧ (closeError s h test).jig = s.jig ∧ (closeError s h test).safety = s.safety ∧
    (closeError s h test).pins = s.pins ∧ (closeError s h test).die = s.die ∧ (closeError s h test).digest = s.digest ∧
    (closeError s h test).eth = s.eth ∧ (closeError s h test).tenon = s.tenon ∧ (closeError s h test).power = s.power ∧
    (closeError s h test).sec = s.sec ∧ (closeError s h test).jtag = s.jtag ∧ (closeError s h test).waiting = s.waiting ∧
    (closeError s h test).access = s.access ∧ (closeError s h test).pending = s.pending := by
  simp only [closeError]; (repeat' split) <;> simp_all

@[simp] theorem chargeUnit_same (s : State) (e : ErrorInfo) :
    (chargeUnit s e).regs = s.regs ∧ (chargeUnit s e).frame = s.frame ∧ (chargeUnit s e).cfg = s.cfg ∧
    (chargeUnit s e).world = s.world ∧ (chargeUnit s e).ledger = s.ledger ∧ (chargeUnit s e).order = s.order ∧
    (chargeUnit s e).solver = s.solver ∧ (chargeUnit s e).spec = s.spec ∧ (chargeUnit s e).jig = s.jig ∧
    (chargeUnit s e).safety = s.safety ∧ (chargeUnit s e).pins = s.pins ∧ (chargeUnit s e).die = s.die ∧
    (chargeUnit s e).digest = s.digest ∧ (chargeUnit s e).eth = s.eth ∧ (chargeUnit s e).tenon = s.tenon ∧
    (chargeUnit s e).power = s.power ∧ (chargeUnit s e).sec = s.sec ∧ (chargeUnit s e).jtag = s.jtag ∧
    (chargeUnit s e).waiting = s.waiting ∧ (chargeUnit s e).access = s.access ∧ (chargeUnit s e).fresh = s.fresh ∧
    (chargeUnit s e).pending = s.pending := by
  unfold chargeUnit; (repeat' split) <;> simp

@[simp] theorem actFatal_same (s : State) (e : ErrorInfo) :
    (actFatal s e).world = s.world ∧ (actFatal s e).ledger = s.ledger ∧ (actFatal s e).order = s.order ∧
    (actFatal s e).solver = s.solver ∧ (actFatal s e).die = s.die ∧ (actFatal s e).jtag = s.jtag ∧
    (actFatal s e).waiting = s.waiting ∧ (actFatal s e).access = s.access ∧ (actFatal s e).fresh = s.fresh ∧
    (actFatal s e).pending = s.pending := by
  simp only [actFatal]; (repeat' split) <;> simp_all

@[simp] theorem showHandler_same (s : State) :
    (showHandler s).frame = s.frame ∧ (showHandler s).cfg = s.cfg ∧ (showHandler s).world = s.world ∧
    (showHandler s).ledger = s.ledger ∧ (showHandler s).order = s.order ∧ (showHandler s).solver = s.solver ∧
    (showHandler s).spec = s.spec ∧ (showHandler s).jig = s.jig ∧ (showHandler s).safety = s.safety ∧
    (showHandler s).pins = s.pins ∧ (showHandler s).die = s.die ∧ (showHandler s).fault = s.fault ∧
    (showHandler s).digest = s.digest ∧ (showHandler s).eth = s.eth ∧ (showHandler s).tenon = s.tenon ∧
    (showHandler s).power = s.power ∧ (showHandler s).sec = s.sec ∧ (showHandler s).jtag = s.jtag ∧
    (showHandler s).waiting = s.waiting ∧ (showHandler s).access = s.access ∧ (showHandler s).fresh = s.fresh ∧
    (showHandler s).pending = s.pending := by
  simp [showHandler]

@[simp] theorem detect_same (s : State) (e : ErrorInfo) :
    (detect s e).world = s.world ∧ (detect s e).ledger = s.ledger ∧ (detect s e).order = s.order ∧
    (detect s e).solver = s.solver ∧ (detect s e).die = s.die ∧ (detect s e).jtag = s.jtag ∧ (detect s e).waiting = s.waiting ∧
    (detect s e).access = s.access ∧ (detect s e).pending = s.pending := by
  simp only [detect]; (repeat' split) <;> simp_all

@[simp] theorem detectPermanent_same (s : State) (e : ErrorInfo) :
    (detectPermanent s e).world = s.world ∧ (detectPermanent s e).ledger = s.ledger ∧ (detectPermanent s e).order = s.order ∧
    (detectPermanent s e).solver = s.solver ∧ (detectPermanent s e).die = s.die ∧ (detectPermanent s e).jtag = s.jtag ∧
    (detectPermanent s e).waiting = s.waiting ∧ (detectPermanent s e).access = s.access ∧
    (detectPermanent s e).pending = s.pending := by
  simp [detectPermanent]

end Sys2Proof.Machine
end

