-- ==== Sys2Proof/Laws/SharedWork.lean ====
section
/-! SUPPORT. What the shared operations of the world, the ledger, tasks, speculation and selection leave as it is: every part of the state that an operation does not
change, one lemma an operation. -/

namespace Sys2Proof.Machine

@[simp] theorem queueTrans_same (s : State) (t : List Trans) :
    (queueTrans s t).frame = s.frame ∧ (queueTrans s t).cfg = s.cfg ∧ (queueTrans s t).world = s.world ∧
    (queueTrans s t).order = s.order ∧ (queueTrans s t).solver = s.solver ∧ (queueTrans s t).spec = s.spec ∧
    (queueTrans s t).jig = s.jig ∧ (queueTrans s t).safety = s.safety ∧ (queueTrans s t).pins = s.pins ∧
    (queueTrans s t).die = s.die ∧ (queueTrans s t).fault = s.fault ∧ (queueTrans s t).digest = s.digest ∧
    (queueTrans s t).eth = s.eth ∧ (queueTrans s t).tenon = s.tenon ∧ (queueTrans s t).power = s.power ∧
    (queueTrans s t).sec = s.sec ∧ (queueTrans s t).jtag = s.jtag ∧ (queueTrans s t).waiting = s.waiting ∧
    (queueTrans s t).access = s.access ∧ (queueTrans s t).fresh = s.fresh ∧ (queueTrans s t).pending = s.pending := by
  simp only [queueTrans]; (repeat' split) <;> simp_all

@[simp] theorem closeLedger_same (s : State) (img : Image) (b : List Byte) (e : Epoch) (all : Bool) :
    (closeLedger s img b e all).frame = s.frame ∧ (closeLedger s img b e all).cfg = s.cfg ∧
    (closeLedger s img b e all).world = s.world ∧ (closeLedger s img b e all).order = s.order ∧
    (closeLedger s img b e all).solver = s.solver ∧ (closeLedger s img b e all).spec = s.spec ∧
    (closeLedger s img b e all).jig = s.jig ∧ (closeLedger s img b e all).safety = s.safety ∧
    (closeLedger s img b e all).pins = s.pins ∧ (closeLedger s img b e all).die = s.die ∧
    (closeLedger s img b e all).fault = s.fault ∧ (closeLedger s img b e all).digest = s.digest ∧
    (closeLedger s img b e all).eth = s.eth ∧ (closeLedger s img b e all).tenon = s.tenon ∧
    (closeLedger s img b e all).power = s.power ∧ (closeLedger s img b e all).sec = s.sec ∧
    (closeLedger s img b e all).jtag = s.jtag ∧ (closeLedger s img b e all).waiting = s.waiting ∧
    (closeLedger s img b e all).access = s.access ∧ (closeLedger s img b e all).fresh = s.fresh ∧
    (closeLedger s img b e all).pending = s.pending := by
  simp [closeLedger]

@[simp] theorem showShift_same (s : State) :
    (showShift s).frame = s.frame ∧ (showShift s).cfg = s.cfg ∧ (showShift s).world = s.world ∧ (showShift s).ledger = s.ledger ∧
    (showShift s).order = s.order ∧ (showShift s).solver = s.solver ∧ (showShift s).spec = s.spec ∧ (showShift s).jig = s.jig ∧
    (showShift s).safety = s.safety ∧ (showShift s).pins = s.pins ∧ (showShift s).die = s.die ∧ (showShift s).fault = s.fault ∧
    (showShift s).digest = s.digest ∧ (showShift s).eth = s.eth ∧ (showShift s).tenon = s.tenon ∧ (showShift s).power = s.power ∧
    (showShift s).sec = s.sec ∧ (showShift s).jtag = s.jtag ∧ (showShift s).waiting = s.waiting ∧
    (showShift s).access = s.access ∧ (showShift s).fresh = s.fresh ∧ (showShift s).pending = s.pending := by
  simp [showShift]

@[simp] theorem showPending_same (s : State) :
    (showPending s).frame = s.frame ∧ (showPending s).cfg = s.cfg ∧ (showPending s).world = s.world ∧
    (showPending s).ledger = s.ledger ∧ (showPending s).order = s.order ∧ (showPending s).solver = s.solver ∧
    (showPending s).spec = s.spec ∧ (showPending s).jig = s.jig ∧ (showPending s).safety = s.safety ∧
    (showPending s).pins = s.pins ∧ (showPending s).die = s.die ∧ (showPending s).fault = s.fault ∧
    (showPending s).digest = s.digest ∧ (showPending s).eth = s.eth ∧ (showPending s).tenon = s.tenon ∧
    (showPending s).power = s.power ∧ (showPending s).sec = s.sec ∧ (showPending s).jtag = s.jtag ∧
    (showPending s).waiting = s.waiting ∧ (showPending s).access = s.access ∧ (showPending s).fresh = s.fresh ∧
    (showPending s).pending = s.pending := by
  simp [showPending]

@[simp] theorem rebuildLedger_same (s : State) (img : Image) (b : List Byte) (e : Epoch) (cause : Nat) :
    (rebuildLedger s img b e cause).frame = s.frame ∧ (rebuildLedger s img b e cause).cfg = s.cfg ∧
    (rebuildLedger s img b e cause).world = s.world ∧ (rebuildLedger s img b e cause).order = s.order ∧
    (rebuildLedger s img b e cause).solver = s.solver ∧ (rebuildLedger s img b e cause).spec = s.spec ∧
    (rebuildLedger s img b e cause).jig = s.jig ∧ (rebuildLedger s img b e cause).safety = s.safety ∧
    (rebuildLedger s img b e cause).pins = s.pins ∧ (rebuildLedger s img b e cause).die = s.die ∧
    (rebuildLedger s img b e cause).fault = s.fault ∧ (rebuildLedger s img b e cause).digest = s.digest ∧
    (rebuildLedger s img b e cause).eth = s.eth ∧ (rebuildLedger s img b e cause).tenon = s.tenon ∧
    (rebuildLedger s img b e cause).power = s.power ∧ (rebuildLedger s img b e cause).sec = s.sec ∧
    (rebuildLedger s img b e cause).jtag = s.jtag ∧ (rebuildLedger s img b e cause).waiting = s.waiting ∧
    (rebuildLedger s img b e cause).access = s.access ∧ (rebuildLedger s img b e cause).fresh = s.fresh ∧
    (rebuildLedger s img b e cause).pending = s.pending := by
  simp [rebuildLedger]

@[simp] theorem scheduleRebuild_same (s : State) (cause : Nat) :
    (scheduleRebuild s cause).frame = s.frame ∧ (scheduleRebuild s cause).cfg = s.cfg ∧
    (scheduleRebuild s cause).world = s.world ∧ (scheduleRebuild s cause).order = s.order ∧
    (scheduleRebuild s cause).solver = s.solver ∧ (scheduleRebuild s cause).spec = s.spec ∧
    (scheduleRebuild s cause).jig = s.jig ∧ (scheduleRebuild s cause).safety = s.safety ∧
    (scheduleRebuild s cause).pins = s.pins ∧ (scheduleRebuild s cause).die = s.die ∧ (scheduleRebuild s cause).fault = s.fault ∧
    (scheduleRebuild s cause).digest = s.digest ∧ (scheduleRebuild s cause).eth = s.eth ∧
    (scheduleRebuild s cause).tenon = s.tenon ∧ (scheduleRebuild s cause).power = s.power ∧
    (scheduleRebuild s cause).sec = s.sec ∧ (scheduleRebuild s cause).jtag = s.jtag ∧
    (scheduleRebuild s cause).waiting = s.waiting ∧ (scheduleRebuild s cause).access = s.access ∧
    (scheduleRebuild s cause).fresh = s.fresh ∧ (scheduleRebuild s cause).pending = s.pending := by
  unfold scheduleRebuild; (repeat' split) <;> simp

@[simp] theorem scheduleShift_same (s : State) (e : Epoch) :
    (scheduleShift s e).frame = s.frame ∧ (scheduleShift s e).cfg = s.cfg ∧ (scheduleShift s e).world = s.world ∧
    (scheduleShift s e).order = s.order ∧ (scheduleShift s e).solver = s.solver ∧ (scheduleShift s e).spec = s.spec ∧
    (scheduleShift s e).jig = s.jig ∧ (scheduleShift s e).safety = s.safety ∧ (scheduleShift s e).pins = s.pins ∧
    (scheduleShift s e).die = s.die ∧ (scheduleShift s e).fault = s.fault ∧ (scheduleShift s e).digest = s.digest ∧
    (scheduleShift s e).eth = s.eth ∧ (scheduleShift s e).tenon = s.tenon ∧ (scheduleShift s e).power = s.power ∧
    (scheduleShift s e).sec = s.sec ∧ (scheduleShift s e).jtag = s.jtag ∧ (scheduleShift s e).waiting = s.waiting ∧
    (scheduleShift s e).access = s.access ∧ (scheduleShift s e).fresh = s.fresh ∧ (scheduleShift s e).pending = s.pending := by
  simp [scheduleShift]

@[simp] theorem restartLedger_same (s : State) :
    (restartLedger s).frame = s.frame ∧ (restartLedger s).cfg = s.cfg ∧ (restartLedger s).world = s.world ∧
    (restartLedger s).order = s.order ∧ (restartLedger s).solver = s.solver ∧ (restartLedger s).spec = s.spec ∧
    (restartLedger s).jig = s.jig ∧ (restartLedger s).safety = s.safety ∧ (restartLedger s).pins = s.pins ∧
    (restartLedger s).die = s.die ∧ (restartLedger s).fault = s.fault ∧ (restartLedger s).digest = s.digest ∧
    (restartLedger s).eth = s.eth ∧ (restartLedger s).tenon = s.tenon ∧ (restartLedger s).power = s.power ∧
    (restartLedger s).sec = s.sec ∧ (restartLedger s).jtag = s.jtag ∧ (restartLedger s).waiting = s.waiting ∧
    (restartLedger s).access = s.access ∧ (restartLedger s).fresh = s.fresh ∧ (restartLedger s).pending = s.pending := by
  simp [restartLedger]

@[simp] theorem State.setDesc_same (s : State) (tile d : Nat) (x : Desc) :
    (State.setDesc s tile d x).regs = s.regs ∧ (State.setDesc s tile d x).frame = s.frame ∧
    (State.setDesc s tile d x).cfg = s.cfg ∧ (State.setDesc s tile d x).world = s.world ∧
    (State.setDesc s tile d x).ledger = s.ledger ∧ (State.setDesc s tile d x).order = s.order ∧
    (State.setDesc s tile d x).solver = s.solver ∧ (State.setDesc s tile d x).spec = s.spec ∧
    (State.setDesc s tile d x).safety = s.safety ∧ (State.setDesc s tile d x).pins = s.pins ∧
    (State.setDesc s tile d x).die = s.die ∧ (State.setDesc s tile d x).fault = s.fault ∧
    (State.setDesc s tile d x).digest = s.digest ∧ (State.setDesc s tile d x).eth = s.eth ∧
    (State.setDesc s tile d x).tenon = s.tenon ∧ (State.setDesc s tile d x).power = s.power ∧
    (State.setDesc s tile d x).sec = s.sec ∧ (State.setDesc s tile d x).jtag = s.jtag ∧
    (State.setDesc s tile d x).waiting = s.waiting ∧ (State.setDesc s tile d x).access = s.access ∧
    (State.setDesc s tile d x).fresh = s.fresh ∧ (State.setDesc s tile d x).pending = s.pending := by
  simp [State.setDesc]

@[simp] theorem State.tally_same (s : State) (f : Field) (n : Nat) :
    (State.tally s f n).regs = s.regs ∧ (State.tally s f n).frame = s.frame ∧ (State.tally s f n).cfg = s.cfg ∧
    (State.tally s f n).world = s.world ∧ (State.tally s f n).ledger = s.ledger ∧ (State.tally s f n).order = s.order ∧
    (State.tally s f n).solver = s.solver ∧ (State.tally s f n).spec = s.spec ∧ (State.tally s f n).safety = s.safety ∧
    (State.tally s f n).pins = s.pins ∧ (State.tally s f n).die = s.die ∧ (State.tally s f n).fault = s.fault ∧
    (State.tally s f n).digest = s.digest ∧ (State.tally s f n).eth = s.eth ∧ (State.tally s f n).tenon = s.tenon ∧
    (State.tally s f n).power = s.power ∧ (State.tally s f n).sec = s.sec ∧ (State.tally s f n).jtag = s.jtag ∧
    (State.tally s f n).waiting = s.waiting ∧ (State.tally s f n).access = s.access ∧ (State.tally s f n).fresh = s.fresh ∧
    (State.tally s f n).pending = s.pending := by
  simp [State.tally]

@[simp] theorem showAgent_same (s : State) (tile : Nat) :
    (showAgent s tile).frame = s.frame ∧ (showAgent s tile).cfg = s.cfg ∧ (showAgent s tile).world = s.world ∧
    (showAgent s tile).ledger = s.ledger ∧ (showAgent s tile).order = s.order ∧ (showAgent s tile).solver = s.solver ∧
    (showAgent s tile).spec = s.spec ∧ (showAgent s tile).safety = s.safety ∧ (showAgent s tile).pins = s.pins ∧
    (showAgent s tile).die = s.die ∧ (showAgent s tile).fault = s.fault ∧ (showAgent s tile).digest = s.digest ∧
    (showAgent s tile).eth = s.eth ∧ (showAgent s tile).tenon = s.tenon ∧ (showAgent s tile).power = s.power ∧
    (showAgent s tile).sec = s.sec ∧ (showAgent s tile).jtag = s.jtag ∧ (showAgent s tile).waiting = s.waiting ∧
    (showAgent s tile).access = s.access ∧ (showAgent s tile).fresh = s.fresh ∧ (showAgent s tile).pending = s.pending := by
  simp only [showAgent]; (repeat' split) <;> simp_all

@[simp] theorem trace_same (s : State) (cls event tile d : Nat) (x : Desc) (detail : Nat) :
    (trace s cls event tile d x detail).frame = s.frame ∧ (trace s cls event tile d x detail).cfg = s.cfg ∧
    (trace s cls event tile d x detail).world = s.world ∧ (trace s cls event tile d x detail).ledger = s.ledger ∧
    (trace s cls event tile d x detail).order = s.order ∧ (trace s cls event tile d x detail).solver = s.solver ∧
    (trace s cls event tile d x detail).spec = s.spec ∧ (trace s cls event tile d x detail).safety = s.safety ∧
    (trace s cls event tile d x detail).pins = s.pins ∧ (trace s cls event tile d x detail).die = s.die ∧
    (trace s cls event tile d x detail).fault = s.fault ∧ (trace s cls event tile d x detail).digest = s.digest ∧
    (trace s cls event tile d x detail).tenon = s.tenon ∧ (trace s cls event tile d x detail).power = s.power ∧
    (trace s cls event tile d x detail).sec = s.sec ∧ (trace s cls event tile d x detail).jtag = s.jtag ∧
    (trace s cls event tile d x detail).waiting = s.waiting ∧ (trace s cls event tile d x detail).access = s.access ∧
    (trace s cls event tile d x detail).pending = s.pending := by
  simp only [trace]; (repeat' split) <;> simp_all

@[simp] theorem hold_same (s : State) (row tile d : Nat) (x : Desc) :
    (hold s row tile d x).frame = s.frame ∧ (hold s row tile d x).cfg = s.cfg ∧ (hold s row tile d x).world = s.world ∧
    (hold s row tile d x).ledger = s.ledger ∧ (hold s row tile d x).order = s.order ∧ (hold s row tile d x).solver = s.solver ∧
    (hold s row tile d x).spec = s.spec ∧ (hold s row tile d x).safety = s.safety ∧ (hold s row tile d x).pins = s.pins ∧
    (hold s row tile d x).die = s.die ∧ (hold s row tile d x).fault = s.fault ∧ (hold s row tile d x).digest = s.digest ∧
    (hold s row tile d x).tenon = s.tenon ∧ (hold s row tile d x).power = s.power ∧ (hold s row tile d x).sec = s.sec ∧
    (hold s row tile d x).jtag = s.jtag ∧ (hold s row tile d x).waiting = s.waiting ∧ (hold s row tile d x).access = s.access ∧
    (hold s row tile d x).pending = s.pending := by
  simp [hold]

@[simp] theorem offerTask_same (s : State) (img : Image) (tile d : Nat) :
    (offerTask s img tile d).regs = s.regs ∧ (offerTask s img tile d).frame = s.frame ∧ (offerTask s img tile d).cfg = s.cfg ∧
    (offerTask s img tile d).world = s.world ∧ (offerTask s img tile d).ledger = s.ledger ∧
    (offerTask s img tile d).order = s.order ∧ (offerTask s img tile d).solver = s.solver ∧
    (offerTask s img tile d).spec = s.spec ∧ (offerTask s img tile d).safety = s.safety ∧
    (offerTask s img tile d).pins = s.pins ∧ (offerTask s img tile d).die = s.die ∧ (offerTask s img tile d).fault = s.fault ∧
    (offerTask s img tile d).digest = s.digest ∧ (offerTask s img tile d).eth = s.eth ∧
    (offerTask s img tile d).tenon = s.tenon ∧ (offerTask s img tile d).power = s.power ∧ (offerTask s img tile d).sec = s.sec ∧
    (offerTask s img tile d).jtag = s.jtag ∧ (offerTask s img tile d).waiting = s.waiting ∧
    (offerTask s img tile d).access = s.access ∧ (offerTask s img tile d).fresh = s.fresh ∧
    (offerTask s img tile d).pending = s.pending := by
  simp only [offerTask]; (repeat' split) <;> simp_all

@[simp] theorem makeReady_same (s : State) (img : Image) (tile d why : Nat) :
    (makeReady s img tile d why).frame = s.frame ∧ (makeReady s img tile d why).cfg = s.cfg ∧
    (makeReady s img tile d why).world = s.world ∧ (makeReady s img tile d why).ledger = s.ledger ∧
    (makeReady s img tile d why).order = s.order ∧ (makeReady s img tile d why).solver = s.solver ∧
    (makeReady s img tile d why).spec = s.spec ∧ (makeReady s img tile d why).safety = s.safety ∧
    (makeReady s img tile d why).pins = s.pins ∧ (makeReady s img tile d why).die = s.die ∧
    (makeReady s img tile d why).fault = s.fault ∧ (makeReady s img tile d why).digest = s.digest ∧
    (makeReady s img tile d why).tenon = s.tenon ∧ (makeReady s img tile d why).power = s.power ∧
    (makeReady s img tile d why).sec = s.sec ∧ (makeReady s img tile d why).jtag = s.jtag ∧
    (makeReady s img tile d why).waiting = s.waiting ∧ (makeReady s img tile d why).access = s.access ∧
    (makeReady s img tile d why).pending = s.pending := by
  simp only [makeReady]; (repeat' split) <;> simp_all

@[simp] theorem promote_same (s : State) (tile : Nat) :
    (promote s tile).regs = s.regs ∧ (promote s tile).frame = s.frame ∧ (promote s tile).cfg = s.cfg ∧
    (promote s tile).world = s.world ∧ (promote s tile).ledger = s.ledger ∧ (promote s tile).order = s.order ∧
    (promote s tile).solver = s.solver ∧ (promote s tile).spec = s.spec ∧ (promote s tile).safety = s.safety ∧
    (promote s tile).pins = s.pins ∧ (promote s tile).die = s.die ∧ (promote s tile).fault = s.fault ∧
    (promote s tile).digest = s.digest ∧ (promote s tile).eth = s.eth ∧ (promote s tile).tenon = s.tenon ∧
    (promote s tile).power = s.power ∧ (promote s tile).sec = s.sec ∧ (promote s tile).jtag = s.jtag ∧
    (promote s tile).waiting = s.waiting ∧ (promote s tile).access = s.access ∧ (promote s tile).fresh = s.fresh ∧
    (promote s tile).pending = s.pending := by
  unfold promote; (repeat' split) <;> simp

@[simp] theorem State.setSpec_same (s : State) (x : SpecEp) :
    (State.setSpec s x).regs = s.regs ∧ (State.setSpec s x).frame = s.frame ∧ (State.setSpec s x).cfg = s.cfg ∧
    (State.setSpec s x).world = s.world ∧ (State.setSpec s x).ledger = s.ledger ∧ (State.setSpec s x).order = s.order ∧
    (State.setSpec s x).solver = s.solver ∧ (State.setSpec s x).jig = s.jig ∧ (State.setSpec s x).safety = s.safety ∧
    (State.setSpec s x).pins = s.pins ∧ (State.setSpec s x).die = s.die ∧ (State.setSpec s x).fault = s.fault ∧
    (State.setSpec s x).digest = s.digest ∧ (State.setSpec s x).eth = s.eth ∧ (State.setSpec s x).tenon = s.tenon ∧
    (State.setSpec s x).power = s.power ∧ (State.setSpec s x).sec = s.sec ∧ (State.setSpec s x).jtag = s.jtag ∧
    (State.setSpec s x).waiting = s.waiting ∧ (State.setSpec s x).access = s.access ∧ (State.setSpec s x).fresh = s.fresh ∧
    (State.setSpec s x).pending = s.pending := by
  simp [State.setSpec]

@[simp] theorem offerRecord_same (s : State) (img : Image) (tile : Nat) (r : SweepRec) :
    (offerRecord s img tile r).world = s.world ∧ (offerRecord s img tile r).ledger = s.ledger ∧
    (offerRecord s img tile r).solver = s.solver ∧ (offerRecord s img tile r).die = s.die ∧
    (offerRecord s img tile r).jtag = s.jtag ∧ (offerRecord s img tile r).waiting = s.waiting ∧
    (offerRecord s img tile r).access = s.access ∧ (offerRecord s img tile r).pending = s.pending := by
  simp only [offerRecord]; (repeat' split) <;> simp_all

@[simp] theorem sendBlock_same (s : State) (img : Image) (e : Epoch) (spec : Bool) (b : Block) :
    (sendBlock s img e spec b).frame = s.frame ∧ (sendBlock s img e spec b).cfg = s.cfg ∧
    (sendBlock s img e spec b).world = s.world ∧ (sendBlock s img e spec b).ledger = s.ledger ∧
    (sendBlock s img e spec b).order = s.order ∧ (sendBlock s img e spec b).solver = s.solver ∧
    (sendBlock s img e spec b).spec = s.spec ∧ (sendBlock s img e spec b).jig = s.jig ∧
    (sendBlock s img e spec b).safety = s.safety ∧ (sendBlock s img e spec b).pins = s.pins ∧
    (sendBlock s img e spec b).die = s.die ∧ (sendBlock s img e spec b).fault = s.fault ∧
    (sendBlock s img e spec b).digest = s.digest ∧ (sendBlock s img e spec b).eth = s.eth ∧
    (sendBlock s img e spec b).power = s.power ∧ (sendBlock s img e spec b).sec = s.sec ∧
    (sendBlock s img e spec b).jtag = s.jtag ∧ (sendBlock s img e spec b).waiting = s.waiting ∧
    (sendBlock s img e spec b).access = s.access ∧ (sendBlock s img e spec b).fresh = s.fresh ∧
    (sendBlock s img e spec b).pending = s.pending := by
  simp only [sendBlock]; (repeat' split) <;> (repeat' apply And.intro) <;> (try simp) <;> (repeat refine (foldl_proj _ _ (fun _ _ => ?_) _ _).trans ?_) <;> (repeat' split) <;> (try simp) <;> (repeat' split) <;> simp

@[simp] theorem releaseOutput_same (img : Image) (tile stage : Nat) (s : State) (o : Output) :
    (releaseOutput img tile stage s o).world = s.world ∧ (releaseOutput img tile stage s o).ledger = s.ledger ∧
    (releaseOutput img tile stage s o).solver = s.solver ∧ (releaseOutput img tile stage s o).die = s.die ∧
    (releaseOutput img tile stage s o).jtag = s.jtag ∧ (releaseOutput img tile stage s o).waiting = s.waiting ∧
    (releaseOutput img tile stage s o).access = s.access ∧ (releaseOutput img tile stage s o).pending = s.pending := by
  unfold releaseOutput; (repeat' split) <;> simp

@[simp] theorem releaseTask_same (img : Image) (s : State) (d : DoneTask) :
    (releaseTask img s d).world = s.world ∧ (releaseTask img s d).ledger = s.ledger ∧ (releaseTask img s d).solver = s.solver ∧
    (releaseTask img s d).die = s.die ∧ (releaseTask img s d).jtag = s.jtag ∧ (releaseTask img s d).waiting = s.waiting ∧
    (releaseTask img s d).access = s.access ∧ (releaseTask img s d).pending = s.pending := by
  simp [releaseTask]

@[simp] theorem releaseFlow_same (img : Image) (f : Nat) (x0 : Nat) (s : State) :
    (releaseFlow img f x0 s).world = s.world ∧ (releaseFlow img f x0 s).ledger = s.ledger ∧
    (releaseFlow img f x0 s).solver = s.solver ∧ (releaseFlow img f x0 s).die = s.die ∧ (releaseFlow img f x0 s).jtag = s.jtag ∧
    (releaseFlow img f x0 s).waiting = s.waiting ∧ (releaseFlow img f x0 s).access = s.access ∧
    (releaseFlow img f x0 s).pending = s.pending := by
  induction x0 generalizing s with
  | zero => simp [releaseFlow]
  | succ n ih => simp only [releaseFlow]; split <;> simp [ih]

@[simp] theorem finishTask_same (s : State) (img : Image) (id t tile : Nat) (outs : List Output) :
    (finishTask s img id t tile outs).world = s.world ∧ (finishTask s img id t tile outs).ledger = s.ledger ∧
    (finishTask s img id t tile outs).solver = s.solver ∧ (finishTask s img id t tile outs).die = s.die ∧
    (finishTask s img id t tile outs).jtag = s.jtag ∧ (finishTask s img id t tile outs).waiting = s.waiting ∧
    (finishTask s img id t tile outs).access = s.access ∧ (finishTask s img id t tile outs).pending = s.pending := by
  simp [finishTask]

@[simp] theorem admitSlice_same (s : State) (cls idx : Nat) :
    (admitSlice s cls idx).frame = s.frame ∧ (admitSlice s cls idx).cfg = s.cfg ∧ (admitSlice s cls idx).world = s.world ∧
    (admitSlice s cls idx).ledger = s.ledger ∧ (admitSlice s cls idx).order = s.order ∧ (admitSlice s cls idx).spec = s.spec ∧
    (admitSlice s cls idx).jig = s.jig ∧ (admitSlice s cls idx).safety = s.safety ∧ (admitSlice s cls idx).pins = s.pins ∧
    (admitSlice s cls idx).die = s.die ∧ (admitSlice s cls idx).digest = s.digest ∧ (admitSlice s cls idx).eth = s.eth ∧
    (admitSlice s cls idx).tenon = s.tenon ∧ (admitSlice s cls idx).power = s.power ∧ (admitSlice s cls idx).sec = s.sec ∧
    (admitSlice s cls idx).jtag = s.jtag ∧ (admitSlice s cls idx).waiting = s.waiting ∧
    (admitSlice s cls idx).access = s.access ∧ (admitSlice s cls idx).fresh = s.fresh ∧ (admitSlice s cls idx).pending = s.pending := by
  simp only [admitSlice]; (repeat' split) <;> simp_all

@[simp] theorem admitWaiting_same (s : State) :
    (admitWaiting s).frame = s.frame ∧ (admitWaiting s).cfg = s.cfg ∧ (admitWaiting s).world = s.world ∧
    (admitWaiting s).ledger = s.ledger ∧ (admitWaiting s).order = s.order ∧ (admitWaiting s).spec = s.spec ∧
    (admitWaiting s).jig = s.jig ∧ (admitWaiting s).safety = s.safety ∧ (admitWaiting s).pins = s.pins ∧
    (admitWaiting s).die = s.die ∧ (admitWaiting s).digest = s.digest ∧ (admitWaiting s).eth = s.eth ∧
    (admitWaiting s).tenon = s.tenon ∧ (admitWaiting s).power = s.power ∧ (admitWaiting s).sec = s.sec ∧
    (admitWaiting s).jtag = s.jtag ∧ (admitWaiting s).waiting = s.waiting ∧ (admitWaiting s).access = s.access ∧
    (admitWaiting s).fresh = s.fresh ∧ (admitWaiting s).pending = s.pending := by
  simp [admitWaiting]

@[simp] theorem tileSuspect_same (s : State) (n : Nat) :
    (tileSuspect s n).regs = s.regs ∧ (tileSuspect s n).frame = s.frame ∧ (tileSuspect s n).cfg = s.cfg ∧
    (tileSuspect s n).world = s.world ∧ (tileSuspect s n).ledger = s.ledger ∧ (tileSuspect s n).order = s.order ∧
    (tileSuspect s n).solver = s.solver ∧ (tileSuspect s n).spec = s.spec ∧ (tileSuspect s n).safety = s.safety ∧
    (tileSuspect s n).pins = s.pins ∧ (tileSuspect s n).die = s.die ∧ (tileSuspect s n).fault = s.fault ∧
    (tileSuspect s n).digest = s.digest ∧ (tileSuspect s n).eth = s.eth ∧ (tileSuspect s n).tenon = s.tenon ∧
    (tileSuspect s n).power = s.power ∧ (tileSuspect s n).sec = s.sec ∧ (tileSuspect s n).jtag = s.jtag ∧
    (tileSuspect s n).waiting = s.waiting ∧ (tileSuspect s n).access = s.access ∧ (tileSuspect s n).fresh = s.fresh ∧
    (tileSuspect s n).pending = s.pending := by
  simp only [tileSuspect]; (repeat' split) <;> (repeat' apply And.intro) <;> (try simp) <;> (repeat refine (foldl_proj _ _ (fun _ _ => ?_) _ _).trans ?_) <;> (repeat' split) <;> (try simp) <;> (repeat' split) <;> simp

@[simp] theorem bindDesc_same (s : State) (img : Image) (tile d : Nat) (x : Desc) :
    (bindDesc s img tile d x).frame = s.frame ∧ (bindDesc s img tile d x).cfg = s.cfg ∧
    (bindDesc s img tile d x).world = s.world ∧ (bindDesc s img tile d x).ledger = s.ledger ∧
    (bindDesc s img tile d x).order = s.order ∧ (bindDesc s img tile d x).solver = s.solver ∧
    (bindDesc s img tile d x).spec = s.spec ∧ (bindDesc s img tile d x).safety = s.safety ∧
    (bindDesc s img tile d x).pins = s.pins ∧ (bindDesc s img tile d x).die = s.die ∧ (bindDesc s img tile d x).fault = s.fault ∧
    (bindDesc s img tile d x).digest = s.digest ∧ (bindDesc s img tile d x).tenon = s.tenon ∧
    (bindDesc s img tile d x).power = s.power ∧ (bindDesc s img tile d x).sec = s.sec ∧ (bindDesc s img tile d x).jtag = s.jtag ∧
    (bindDesc s img tile d x).waiting = s.waiting ∧ (bindDesc s img tile d x).access = s.access ∧
    (bindDesc s img tile d x).pending = s.pending := by
  unfold bindDesc; (repeat' split) <;> simp

@[simp] theorem createTask_same (s : State) (img : Image) (tile : Nat) (kind : TaskKind) (spec : Bool) (e : Epoch) (x : Desc) (d : Nat) :
    (createTask s img tile kind spec e x d).frame = s.frame ∧ (createTask s img tile kind spec e x d).cfg = s.cfg ∧
    (createTask s img tile kind spec e x d).world = s.world ∧ (createTask s img tile kind spec e x d).ledger = s.ledger ∧
    (createTask s img tile kind spec e x d).order = s.order ∧ (createTask s img tile kind spec e x d).solver = s.solver ∧
    (createTask s img tile kind spec e x d).spec = s.spec ∧ (createTask s img tile kind spec e x d).safety = s.safety ∧
    (createTask s img tile kind spec e x d).pins = s.pins ∧ (createTask s img tile kind spec e x d).die = s.die ∧
    (createTask s img tile kind spec e x d).fault = s.fault ∧ (createTask s img tile kind spec e x d).digest = s.digest ∧
    (createTask s img tile kind spec e x d).tenon = s.tenon ∧ (createTask s img tile kind spec e x d).power = s.power ∧
    (createTask s img tile kind spec e x d).sec = s.sec ∧ (createTask s img tile kind spec e x d).jtag = s.jtag ∧
    (createTask s img tile kind spec e x d).waiting = s.waiting ∧ (createTask s img tile kind spec e x d).access = s.access ∧
    (createTask s img tile kind spec e x d).pending = s.pending := by
  simp only [createTask]; (repeat' split) <;> (repeat' apply And.intro) <;> (try simp) <;> (repeat refine (foldl_proj _ _ (fun _ _ => ?_) _ _).trans ?_) <;> (repeat' split) <;> (try simp) <;> (repeat' split) <;> simp

@[simp] theorem runTask_same (s : State) (tile d reserve thread : Nat) :
    (runTask s tile d reserve thread).frame = s.frame ∧ (runTask s tile d reserve thread).cfg = s.cfg ∧
    (runTask s tile d reserve thread).world = s.world ∧ (runTask s tile d reserve thread).ledger = s.ledger ∧
    (runTask s tile d reserve thread).order = s.order ∧ (runTask s tile d reserve thread).solver = s.solver ∧
    (runTask s tile d reserve thread).spec = s.spec ∧ (runTask s tile d reserve thread).safety = s.safety ∧
    (runTask s tile d reserve thread).pins = s.pins ∧ (runTask s tile d reserve thread).die = s.die ∧
    (runTask s tile d reserve thread).fault = s.fault ∧ (runTask s tile d reserve thread).digest = s.digest ∧
    (runTask s tile d reserve thread).tenon = s.tenon ∧ (runTask s tile d reserve thread).power = s.power ∧
    (runTask s tile d reserve thread).sec = s.sec ∧ (runTask s tile d reserve thread).jtag = s.jtag ∧
    (runTask s tile d reserve thread).waiting = s.waiting ∧ (runTask s tile d reserve thread).access = s.access ∧
    (runTask s tile d reserve thread).pending = s.pending := by
  simp [runTask]

@[simp] theorem trySlice_same (s : State) (img : Image) (tile d thread : Nat) :
    (trySlice s img tile d thread).frame = s.frame ∧ (trySlice s img tile d thread).cfg = s.cfg ∧
    (trySlice s img tile d thread).world = s.world ∧ (trySlice s img tile d thread).ledger = s.ledger ∧
    (trySlice s img tile d thread).order = s.order ∧ (trySlice s img tile d thread).solver = s.solver ∧
    (trySlice s img tile d thread).spec = s.spec ∧ (trySlice s img tile d thread).safety = s.safety ∧
    (trySlice s img tile d thread).pins = s.pins ∧ (trySlice s img tile d thread).die = s.die ∧
    (trySlice s img tile d thread).digest = s.digest ∧ (trySlice s img tile d thread).tenon = s.tenon ∧
    (trySlice s img tile d thread).power = s.power ∧ (trySlice s img tile d thread).sec = s.sec ∧
    (trySlice s img tile d thread).jtag = s.jtag ∧ (trySlice s img tile d thread).waiting = s.waiting ∧
    (trySlice s img tile d thread).access = s.access ∧ (trySlice s img tile d thread).pending = s.pending := by
  simp only [trySlice]; (repeat' split) <;> simp_all

@[simp] theorem yieldTask_same (s : State) (img : Image) (tile d : Nat) (x : Desc) (why : Yield) :
    (yieldTask s img tile d x why).frame = s.frame ∧ (yieldTask s img tile d x why).cfg = s.cfg ∧
    (yieldTask s img tile d x why).world = s.world ∧ (yieldTask s img tile d x why).ledger = s.ledger ∧
    (yieldTask s img tile d x why).order = s.order ∧ (yieldTask s img tile d x why).solver = s.solver ∧
    (yieldTask s img tile d x why).spec = s.spec ∧ (yieldTask s img tile d x why).safety = s.safety ∧
    (yieldTask s img tile d x why).pins = s.pins ∧ (yieldTask s img tile d x why).die = s.die ∧
    (yieldTask s img tile d x why).fault = s.fault ∧ (yieldTask s img tile d x why).digest = s.digest ∧
    (yieldTask s img tile d x why).tenon = s.tenon ∧ (yieldTask s img tile d x why).power = s.power ∧
    (yieldTask s img tile d x why).sec = s.sec ∧ (yieldTask s img tile d x why).jtag = s.jtag ∧
    (yieldTask s img tile d x why).waiting = s.waiting ∧ (yieldTask s img tile d x why).access = s.access ∧
    (yieldTask s img tile d x why).pending = s.pending := by
  simp only [yieldTask]; (repeat' split) <;> (repeat' apply And.intro) <;> (try simp) <;> (repeat refine (foldl_proj _ _ (fun _ _ => ?_) _ _).trans ?_) <;> (repeat' split) <;> (try simp) <;> (repeat' split) <;> simp

@[simp] theorem specFinish_same (s : State) (y : SpecEp) (id t tile : Nat) (outs : List Output) :
    (specFinish s y id t tile outs).frame = s.frame ∧ (specFinish s y id t tile outs).cfg = s.cfg ∧
    (specFinish s y id t tile outs).world = s.world ∧ (specFinish s y id t tile outs).ledger = s.ledger ∧
    (specFinish s y id t tile outs).order = s.order ∧ (specFinish s y id t tile outs).solver = s.solver ∧
    (specFinish s y id t tile outs).safety = s.safety ∧ (specFinish s y id t tile outs).pins = s.pins ∧
    (specFinish s y id t tile outs).die = s.die ∧ (specFinish s y id t tile outs).fault = s.fault ∧
    (specFinish s y id t tile outs).digest = s.digest ∧ (specFinish s y id t tile outs).power = s.power ∧
    (specFinish s y id t tile outs).sec = s.sec ∧ (specFinish s y id t tile outs).jtag = s.jtag ∧
    (specFinish s y id t tile outs).waiting = s.waiting ∧ (specFinish s y id t tile outs).access = s.access ∧
    (specFinish s y id t tile outs).pending = s.pending := by
  simp only [specFinish]; (repeat' split) <;> (repeat' apply And.intro) <;> (try simp) <;> (repeat refine (foldl_proj _ _ (fun _ _ => ?_) _ _).trans ?_) <;> (repeat' split) <;> (try simp) <;> (repeat' split) <;> simp

@[simp] theorem countWork_same (s : State) (img : Image) (x : Desc) (tile : Nat) (outs : List Output) :
    (countWork s img x tile outs).frame = s.frame ∧ (countWork s img x tile outs).cfg = s.cfg ∧
    (countWork s img x tile outs).world = s.world ∧ (countWork s img x tile outs).ledger = s.ledger ∧
    (countWork s img x tile outs).order = s.order ∧ (countWork s img x tile outs).solver = s.solver ∧
    (countWork s img x tile outs).spec = s.spec ∧ (countWork s img x tile outs).safety = s.safety ∧
    (countWork s img x tile outs).pins = s.pins ∧ (countWork s img x tile outs).die = s.die ∧
    (countWork s img x tile outs).fault = s.fault ∧ (countWork s img x tile outs).digest = s.digest ∧
    (countWork s img x tile outs).eth = s.eth ∧ (countWork s img x tile outs).tenon = s.tenon ∧
    (countWork s img x tile outs).power = s.power ∧ (countWork s img x tile outs).sec = s.sec ∧
    (countWork s img x tile outs).jtag = s.jtag ∧ (countWork s img x tile outs).waiting = s.waiting ∧
    (countWork s img x tile outs).access = s.access ∧ (countWork s img x tile outs).fresh = s.fresh ∧
    (countWork s img x tile outs).pending = s.pending := by
  simp only [countWork]; (repeat' split) <;> simp_all

@[simp] theorem nearMissTest_same (s : State) (img : Image) (tile : Nat) (e : Epoch) :
    (nearMissTest s img tile e).frame = s.frame ∧ (nearMissTest s img tile e).cfg = s.cfg ∧
    (nearMissTest s img tile e).world = s.world ∧ (nearMissTest s img tile e).ledger = s.ledger ∧
    (nearMissTest s img tile e).order = s.order ∧ (nearMissTest s img tile e).solver = s.solver ∧
    (nearMissTest s img tile e).spec = s.spec ∧ (nearMissTest s img tile e).jig = s.jig ∧
    (nearMissTest s img tile e).safety = s.safety ∧ (nearMissTest s img tile e).pins = s.pins ∧
    (nearMissTest s img tile e).die = s.die ∧ (nearMissTest s img tile e).digest = s.digest ∧
    (nearMissTest s img tile e).eth = s.eth ∧ (nearMissTest s img tile e).tenon = s.tenon ∧
    (nearMissTest s img tile e).power = s.power ∧ (nearMissTest s img tile e).sec = s.sec ∧
    (nearMissTest s img tile e).jtag = s.jtag ∧ (nearMissTest s img tile e).waiting = s.waiting ∧
    (nearMissTest s img tile e).access = s.access ∧ (nearMissTest s img tile e).fresh = s.fresh ∧
    (nearMissTest s img tile e).pending = s.pending := by
  simp only [nearMissTest]; (repeat' split) <;> simp_all

@[simp] theorem jobRecord_same (s : State) (img : Image) (j : Job) (k : Nat) :
    (jobRecord s img j k).2.regs = s.regs ∧ (jobRecord s img j k).2.frame = s.frame ∧ (jobRecord s img j k).2.cfg = s.cfg ∧
    (jobRecord s img j k).2.world = s.world ∧ (jobRecord s img j k).2.ledger = s.ledger ∧
    (jobRecord s img j k).2.order = s.order ∧ (jobRecord s img j k).2.solver = s.solver ∧ (jobRecord s img j k).2.spec = s.spec ∧
    (jobRecord s img j k).2.jig = s.jig ∧ (jobRecord s img j k).2.safety = s.safety ∧ (jobRecord s img j k).2.pins = s.pins ∧
    (jobRecord s img j k).2.die = s.die ∧ (jobRecord s img j k).2.fault = s.fault ∧ (jobRecord s img j k).2.digest = s.digest ∧
    (jobRecord s img j k).2.eth = s.eth ∧ (jobRecord s img j k).2.tenon = s.tenon ∧ (jobRecord s img j k).2.power = s.power ∧
    (jobRecord s img j k).2.sec = s.sec ∧ (jobRecord s img j k).2.jtag = s.jtag ∧ (jobRecord s img j k).2.waiting = s.waiting ∧
    (jobRecord s img j k).2.access = s.access ∧ (jobRecord s img j k).2.pending = s.pending := by
  simp only [jobRecord]; (repeat' split) <;> simp_all

@[simp] theorem jobUnit_same (s : State) (img : Image) (p : Nat) :
    (jobUnit s img p).regs = s.regs ∧ (jobUnit s img p).frame = s.frame ∧ (jobUnit s img p).cfg = s.cfg ∧
    (jobUnit s img p).world = s.world ∧ (jobUnit s img p).ledger = s.ledger ∧ (jobUnit s img p).order = s.order ∧
    (jobUnit s img p).solver = s.solver ∧ (jobUnit s img p).spec = s.spec ∧ (jobUnit s img p).jig = s.jig ∧
    (jobUnit s img p).safety = s.safety ∧ (jobUnit s img p).pins = s.pins ∧ (jobUnit s img p).die = s.die ∧
    (jobUnit s img p).fault = s.fault ∧ (jobUnit s img p).digest = s.digest ∧ (jobUnit s img p).tenon = s.tenon ∧
    (jobUnit s img p).power = s.power ∧ (jobUnit s img p).sec = s.sec ∧ (jobUnit s img p).jtag = s.jtag ∧
    (jobUnit s img p).waiting = s.waiting ∧ (jobUnit s img p).access = s.access ∧ (jobUnit s img p).pending = s.pending := by
  unfold jobUnit; (repeat' split) <;> simp

@[simp] theorem flagSweep_same (s : State) (img : Image) (tile t : Nat) (x : Desc) :
    (flagSweep s img tile t x).frame = s.frame ∧ (flagSweep s img tile t x).cfg = s.cfg ∧
    (flagSweep s img tile t x).world = s.world ∧ (flagSweep s img tile t x).ledger = s.ledger ∧
    (flagSweep s img tile t x).order = s.order ∧ (flagSweep s img tile t x).solver = s.solver ∧
    (flagSweep s img tile t x).spec = s.spec ∧ (flagSweep s img tile t x).safety = s.safety ∧
    (flagSweep s img tile t x).pins = s.pins ∧ (flagSweep s img tile t x).die = s.die ∧
    (flagSweep s img tile t x).fault = s.fault ∧ (flagSweep s img tile t x).digest = s.digest ∧
    (flagSweep s img tile t x).tenon = s.tenon ∧ (flagSweep s img tile t x).power = s.power ∧
    (flagSweep s img tile t x).sec = s.sec ∧ (flagSweep s img tile t x).jtag = s.jtag ∧
    (flagSweep s img tile t x).waiting = s.waiting ∧ (flagSweep s img tile t x).access = s.access ∧
    (flagSweep s img tile t x).pending = s.pending := by
  simp only [flagSweep]; (repeat' split) <;> (repeat' apply And.intro) <;> (try simp) <;> (repeat refine (foldl_proj _ _ (fun _ _ => ?_) _ _).trans ?_) <;> (repeat' split) <;> (try simp) <;> (repeat' split) <;> simp

@[simp] theorem stageOutputsDone_same (s : State) (img : Image) (tile d id t : Nat) (x : Desc) (outs : List Output) :
    (stageOutputsDone s img tile d id t x outs).world = s.world ∧ (stageOutputsDone s img tile d id t x outs).ledger = s.ledger ∧
    (stageOutputsDone s img tile d id t x outs).solver = s.solver ∧ (stageOutputsDone s img tile d id t x outs).die = s.die ∧
    (stageOutputsDone s img tile d id t x outs).jtag = s.jtag ∧ (stageOutputsDone s img tile d id t x outs).waiting = s.waiting ∧
    (stageOutputsDone s img tile d id t x outs).access = s.access ∧
    (stageOutputsDone s img tile d id t x outs).pending = s.pending := by
  simp only [stageOutputsDone]; (repeat' split) <;> (repeat' apply And.intro) <;> (try simp) <;> (repeat refine (foldl_proj _ _ (fun _ _ => ?_) _ _).trans ?_) <;> (repeat' split) <;> (try simp) <;> (repeat' split) <;> simp

@[simp] theorem stageComplete_same (s : State) (img : Image) (tile d id t : Nat) (x : Desc) :
    (stageComplete s img tile d id t x).world = s.world ∧ (stageComplete s img tile d id t x).ledger = s.ledger ∧
    (stageComplete s img tile d id t x).solver = s.solver ∧ (stageComplete s img tile d id t x).die = s.die ∧
    (stageComplete s img tile d id t x).jtag = s.jtag ∧ (stageComplete s img tile d id t x).waiting = s.waiting ∧
    (stageComplete s img tile d id t x).access = s.access ∧ (stageComplete s img tile d id t x).pending = s.pending := by
  simp only [stageComplete]; (repeat' split) <;> (repeat' apply And.intro) <;> (try simp) <;> (repeat refine (foldl_proj _ _ (fun _ _ => ?_) _ _).trans ?_) <;> (repeat' split) <;> (try simp) <;> (repeat' split) <;> simp

@[simp] theorem completeTask_same (s : State) (img : Image) (tile d : Nat) (x : Desc) :
    (completeTask s img tile d x).world = s.world ∧ (completeTask s img tile d x).ledger = s.ledger ∧
    (completeTask s img tile d x).solver = s.solver ∧ (completeTask s img tile d x).die = s.die ∧
    (completeTask s img tile d x).jtag = s.jtag ∧ (completeTask s img tile d x).waiting = s.waiting ∧
    (completeTask s img tile d x).access = s.access ∧ (completeTask s img tile d x).pending = s.pending := by
  simp only [completeTask]; (repeat' split) <;> (repeat' apply And.intro) <;> (try simp) <;> (repeat refine (foldl_proj _ _ (fun _ _ => ?_) _ _).trans ?_) <;> (repeat' split) <;> (try simp) <;> (repeat' split) <;> simp

@[simp] theorem answerOffer_same (s : State) (tile d : Nat) (x : Desc) :
    (answerOffer s tile d x).frame = s.frame ∧ (answerOffer s tile d x).cfg = s.cfg ∧ (answerOffer s tile d x).world = s.world ∧
    (answerOffer s tile d x).ledger = s.ledger ∧ (answerOffer s tile d x).order = s.order ∧
    (answerOffer s tile d x).solver = s.solver ∧ (answerOffer s tile d x).spec = s.spec ∧
    (answerOffer s tile d x).safety = s.safety ∧ (answerOffer s tile d x).pins = s.pins ∧ (answerOffer s tile d x).die = s.die ∧
    (answerOffer s tile d x).fault = s.fault ∧ (answerOffer s tile d x).digest = s.digest ∧
    (answerOffer s tile d x).tenon = s.tenon ∧ (answerOffer s tile d x).power = s.power ∧ (answerOffer s tile d x).sec = s.sec ∧
    (answerOffer s tile d x).jtag = s.jtag ∧ (answerOffer s tile d x).waiting = s.waiting ∧
    (answerOffer s tile d x).access = s.access ∧ (answerOffer s tile d x).pending = s.pending := by
  unfold answerOffer; (repeat' split) <;> simp

@[simp] theorem showPrediction_same (s : State) (e : Epoch) :
    (showPrediction s e).frame = s.frame ∧ (showPrediction s e).cfg = s.cfg ∧ (showPrediction s e).world = s.world ∧
    (showPrediction s e).ledger = s.ledger ∧ (showPrediction s e).order = s.order ∧ (showPrediction s e).solver = s.solver ∧
    (showPrediction s e).spec = s.spec ∧ (showPrediction s e).jig = s.jig ∧ (showPrediction s e).safety = s.safety ∧
    (showPrediction s e).pins = s.pins ∧ (showPrediction s e).die = s.die ∧ (showPrediction s e).fault = s.fault ∧
    (showPrediction s e).digest = s.digest ∧ (showPrediction s e).eth = s.eth ∧ (showPrediction s e).tenon = s.tenon ∧
    (showPrediction s e).power = s.power ∧ (showPrediction s e).sec = s.sec ∧ (showPrediction s e).jtag = s.jtag ∧
    (showPrediction s e).waiting = s.waiting ∧ (showPrediction s e).access = s.access ∧ (showPrediction s e).fresh = s.fresh ∧
    (showPrediction s e).pending = s.pending := by
  unfold showPrediction; (repeat' split) <;> simp

@[simp] theorem beginSpeculation_same (s : State) (img : Image) :
    (beginSpeculation s img).frame = s.frame ∧ (beginSpeculation s img).cfg = s.cfg ∧ (beginSpeculation s img).world = s.world ∧
    (beginSpeculation s img).ledger = s.ledger ∧ (beginSpeculation s img).order = s.order ∧
    (beginSpeculation s img).solver = s.solver ∧ (beginSpeculation s img).jig = s.jig ∧
    (beginSpeculation s img).safety = s.safety ∧ (beginSpeculation s img).pins = s.pins ∧ (beginSpeculation s img).die = s.die ∧
    (beginSpeculation s img).fault = s.fault ∧ (beginSpeculation s img).digest = s.digest ∧
    (beginSpeculation s img).eth = s.eth ∧ (beginSpeculation s img).tenon = s.tenon ∧ (beginSpeculation s img).power = s.power ∧
    (beginSpeculation s img).sec = s.sec ∧ (beginSpeculation s img).jtag = s.jtag ∧
    (beginSpeculation s img).waiting = s.waiting ∧ (beginSpeculation s img).access = s.access ∧
    (beginSpeculation s img).fresh = s.fresh ∧ (beginSpeculation s img).pending = s.pending := by
  simp only [beginSpeculation]; (repeat' split) <;> simp_all

@[simp] theorem releaseKept_same (s : State) (img : Image) (kc : List (Nat × Nat × Nat)) (kr : List SpecRec) (kb : List Block) :
    (releaseKept s img kc kr kb).world = s.world ∧ (releaseKept s img kc kr kb).ledger = s.ledger ∧
    (releaseKept s img kc kr kb).solver = s.solver ∧ (releaseKept s img kc kr kb).die = s.die ∧
    (releaseKept s img kc kr kb).jtag = s.jtag ∧ (releaseKept s img kc kr kb).waiting = s.waiting ∧
    (releaseKept s img kc kr kb).access = s.access ∧ (releaseKept s img kc kr kb).pending = s.pending := by
  simp only [releaseKept]; (repeat' split) <;> (repeat' apply And.intro) <;> (try simp) <;> (repeat refine (foldl_proj _ _ (fun _ _ => ?_) _ _).trans ?_) <;> (repeat' split) <;> (try simp) <;> (repeat' split) <;> simp

@[simp] theorem squash_same (s : State) (img : Image) :
    (squash s img).world = s.world ∧ (squash s img).ledger = s.ledger ∧ (squash s img).solver = s.solver ∧
    (squash s img).die = s.die ∧ (squash s img).jtag = s.jtag ∧ (squash s img).waiting = s.waiting ∧
    (squash s img).access = s.access ∧ (squash s img).pending = s.pending := by
  simp only [squash]; (repeat' split) <;> simp_all

@[simp] theorem testSearches_same (f : Epoch) (touched : List Nat) (s : State) :
    (testSearches f touched s).regs = s.regs ∧ (testSearches f touched s).frame = s.frame ∧
    (testSearches f touched s).cfg = s.cfg ∧ (testSearches f touched s).world = s.world ∧
    (testSearches f touched s).ledger = s.ledger ∧ (testSearches f touched s).order = s.order ∧
    (testSearches f touched s).solver = s.solver ∧ (testSearches f touched s).jig = s.jig ∧
    (testSearches f touched s).safety = s.safety ∧ (testSearches f touched s).pins = s.pins ∧
    (testSearches f touched s).die = s.die ∧ (testSearches f touched s).fault = s.fault ∧
    (testSearches f touched s).digest = s.digest ∧ (testSearches f touched s).eth = s.eth ∧
    (testSearches f touched s).tenon = s.tenon ∧ (testSearches f touched s).power = s.power ∧
    (testSearches f touched s).sec = s.sec ∧ (testSearches f touched s).jtag = s.jtag ∧
    (testSearches f touched s).waiting = s.waiting ∧ (testSearches f touched s).access = s.access ∧
    (testSearches f touched s).fresh = s.fresh ∧ (testSearches f touched s).pending = s.pending := by
  simp [testSearches]

@[simp] theorem decideSearch_same (s : State) (img : Image) (b : List Byte) (e : Epoch) :
    (decideSearch s img b e).world = s.world ∧ (decideSearch s img b e).solver = s.solver ∧
    (decideSearch s img b e).die = s.die ∧ (decideSearch s img b e).jtag = s.jtag ∧
    (decideSearch s img b e).waiting = s.waiting ∧ (decideSearch s img b e).access = s.access ∧
    (decideSearch s img b e).pending = s.pending := by
  simp only [decideSearch]; (repeat' split) <;> (repeat' apply And.intro) <;> (try simp) <;> (repeat refine (foldl_proj _ _ (fun _ _ => ?_) _ _).trans ?_) <;> (repeat' split) <;> (try simp) <;> (repeat' split) <;> simp

@[simp] theorem rebuildCmd_same (src : Source) (s : State) :
    (rebuildCmd src s).frame = s.frame ∧ (rebuildCmd src s).cfg = s.cfg ∧ (rebuildCmd src s).world = s.world ∧
    (rebuildCmd src s).order = s.order ∧ (rebuildCmd src s).solver = s.solver ∧ (rebuildCmd src s).spec = s.spec ∧
    (rebuildCmd src s).jig = s.jig ∧ (rebuildCmd src s).safety = s.safety ∧ (rebuildCmd src s).pins = s.pins ∧
    (rebuildCmd src s).die = s.die ∧ (rebuildCmd src s).digest = s.digest ∧ (rebuildCmd src s).eth = s.eth ∧
    (rebuildCmd src s).tenon = s.tenon ∧ (rebuildCmd src s).power = s.power ∧ (rebuildCmd src s).sec = s.sec ∧
    (rebuildCmd src s).jtag = s.jtag ∧ (rebuildCmd src s).waiting = s.waiting ∧ (rebuildCmd src s).access = s.access ∧
    (rebuildCmd src s).fresh = s.fresh ∧ (rebuildCmd src s).pending = s.pending := by
  simp only [rebuildCmd]; (repeat' split) <;> simp_all

@[simp] theorem safetyCopy_same (s : State) (f : Admitted) :
    (safetyCopy s f).frame = s.frame ∧ (safetyCopy s f).cfg = s.cfg ∧ (safetyCopy s f).world = s.world ∧
    (safetyCopy s f).ledger = s.ledger ∧ (safetyCopy s f).order = s.order ∧ (safetyCopy s f).solver = s.solver ∧
    (safetyCopy s f).spec = s.spec ∧ (safetyCopy s f).jig = s.jig ∧ (safetyCopy s f).pins = s.pins ∧
    (safetyCopy s f).die = s.die ∧ (safetyCopy s f).fault = s.fault ∧ (safetyCopy s f).digest = s.digest ∧
    (safetyCopy s f).eth = s.eth ∧ (safetyCopy s f).tenon = s.tenon ∧ (safetyCopy s f).power = s.power ∧
    (safetyCopy s f).sec = s.sec ∧ (safetyCopy s f).jtag = s.jtag ∧ (safetyCopy s f).waiting = s.waiting ∧
    (safetyCopy s f).access = s.access ∧ (safetyCopy s f).fresh = s.fresh ∧ (safetyCopy s f).pending = s.pending := by
  simp only [safetyCopy]; (repeat' split) <;> simp_all

@[simp] theorem worldDiscard_same (s : State) (d : Nat) :
    (worldDiscard s d).frame = s.frame ∧ (worldDiscard s d).cfg = s.cfg ∧ (worldDiscard s d).world = s.world ∧
    (worldDiscard s d).ledger = s.ledger ∧ (worldDiscard s d).order = s.order ∧ (worldDiscard s d).solver = s.solver ∧
    (worldDiscard s d).spec = s.spec ∧ (worldDiscard s d).jig = s.jig ∧ (worldDiscard s d).safety = s.safety ∧
    (worldDiscard s d).pins = s.pins ∧ (worldDiscard s d).die = s.die ∧ (worldDiscard s d).fault = s.fault ∧
    (worldDiscard s d).digest = s.digest ∧ (worldDiscard s d).eth = s.eth ∧ (worldDiscard s d).tenon = s.tenon ∧
    (worldDiscard s d).power = s.power ∧ (worldDiscard s d).sec = s.sec ∧ (worldDiscard s d).jtag = s.jtag ∧
    (worldDiscard s d).waiting = s.waiting ∧ (worldDiscard s d).access = s.access ∧ (worldDiscard s d).fresh = s.fresh ∧
    (worldDiscard s d).pending = s.pending := by
  unfold worldDiscard; (repeat' split) <;> simp

@[simp] theorem putAdmitted_same (s : State) (a : Admitted) (recs good : List WRec) :
    (putAdmitted s a recs good).regs = s.regs ∧ (putAdmitted s a recs good).frame = s.frame ∧
    (putAdmitted s a recs good).cfg = s.cfg ∧ (putAdmitted s a recs good).ledger = s.ledger ∧
    (putAdmitted s a recs good).order = s.order ∧ (putAdmitted s a recs good).solver = s.solver ∧
    (putAdmitted s a recs good).spec = s.spec ∧ (putAdmitted s a recs good).jig = s.jig ∧
    (putAdmitted s a recs good).safety = s.safety ∧ (putAdmitted s a recs good).pins = s.pins ∧
    (putAdmitted s a recs good).die = s.die ∧ (putAdmitted s a recs good).fault = s.fault ∧
    (putAdmitted s a recs good).digest = s.digest ∧ (putAdmitted s a recs good).eth = s.eth ∧
    (putAdmitted s a recs good).tenon = s.tenon ∧ (putAdmitted s a recs good).power = s.power ∧
    (putAdmitted s a recs good).sec = s.sec ∧ (putAdmitted s a recs good).jtag = s.jtag ∧
    (putAdmitted s a recs good).waiting = s.waiting ∧ (putAdmitted s a recs good).access = s.access ∧
    (putAdmitted s a recs good).fresh = s.fresh ∧ (putAdmitted s a recs good).pending = s.pending := by
  simp only [putAdmitted]; (repeat' split) <;> (repeat' apply And.intro) <;> (try simp) <;> (repeat refine (foldl_proj _ _ (fun _ _ => ?_) _ _).trans ?_) <;> (repeat' split) <;> (try simp) <;> (repeat' split) <;> simp

@[simp] theorem admitFrame_same (s : State) (img : Image) (d : Nat) (e : Epoch) (seq : Word) (recs : List WRec) (eoe late : Bool)
    (len : Nat) (raw : List Byte) :
    (admitFrame s img d e seq recs eoe late len raw).frame = s.frame ∧
    (admitFrame s img d e seq recs eoe late len raw).cfg = s.cfg ∧
    (admitFrame s img d e seq recs eoe late len raw).ledger = s.ledger ∧
    (admitFrame s img d e seq recs eoe late len raw).order = s.order ∧
    (admitFrame s img d e seq recs eoe late len raw).solver = s.solver ∧
    (admitFrame s img d e seq recs eoe late len raw).spec = s.spec ∧
    (admitFrame s img d e seq recs eoe late len raw).jig = s.jig ∧
    (admitFrame s img d e seq recs eoe late len raw).pins = s.pins ∧
    (admitFrame s img d e seq recs eoe late len raw).die = s.die ∧
    (admitFrame s img d e seq recs eoe late len raw).fault = s.fault ∧
    (admitFrame s img d e seq recs eoe late len raw).digest = s.digest ∧
    (admitFrame s img d e seq recs eoe late len raw).eth = s.eth ∧
    (admitFrame s img d e seq recs eoe late len raw).tenon = s.tenon ∧
    (admitFrame s img d e seq recs eoe late len raw).power = s.power ∧
    (admitFrame s img d e seq recs eoe late len raw).sec = s.sec ∧
    (admitFrame s img d e seq recs eoe late len raw).jtag = s.jtag ∧
    (admitFrame s img d e seq recs eoe late len raw).waiting = s.waiting ∧
    (admitFrame s img d e seq recs eoe late len raw).access = s.access ∧
    (admitFrame s img d e seq recs eoe late len raw).fresh = s.fresh ∧
    (admitFrame s img d e seq recs eoe late len raw).pending = s.pending := by
  simp only [admitFrame]; (repeat' split) <;> (try simp) <;> grind

@[simp] theorem admitUpdate_same (s : State) (partition d : Nat) (named : Epoch) (seq : Word) (payload raw : List Byte) (t : Nat) :
    (admitUpdate s partition d named seq payload raw t).frame = s.frame ∧
    (admitUpdate s partition d named seq payload raw t).cfg = s.cfg ∧
    (admitUpdate s partition d named seq payload raw t).ledger = s.ledger ∧
    (admitUpdate s partition d named seq payload raw t).order = s.order ∧
    (admitUpdate s partition d named seq payload raw t).solver = s.solver ∧
    (admitUpdate s partition d named seq payload raw t).spec = s.spec ∧
    (admitUpdate s partition d named seq payload raw t).jig = s.jig ∧
    (admitUpdate s partition d named seq payload raw t).pins = s.pins ∧
    (admitUpdate s partition d named seq payload raw t).die = s.die ∧
    (admitUpdate s partition d named seq payload raw t).fault = s.fault ∧
    (admitUpdate s partition d named seq payload raw t).digest = s.digest ∧
    (admitUpdate s partition d named seq payload raw t).eth = s.eth ∧
    (admitUpdate s partition d named seq payload raw t).tenon = s.tenon ∧
    (admitUpdate s partition d named seq payload raw t).power = s.power ∧
    (admitUpdate s partition d named seq payload raw t).sec = s.sec ∧
    (admitUpdate s partition d named seq payload raw t).jtag = s.jtag ∧
    (admitUpdate s partition d named seq payload raw t).waiting = s.waiting ∧
    (admitUpdate s partition d named seq payload raw t).access = s.access ∧
    (admitUpdate s partition d named seq payload raw t).fresh = s.fresh ∧
    (admitUpdate s partition d named seq payload raw t).pending = s.pending := by
  simp only [admitUpdate]; (repeat' split) <;> simp_all

@[simp] theorem chooseStart_same (s : State) (img : Image) (e : Epoch) :
    (chooseStart s img e).frame = s.frame ∧ (chooseStart s img e).cfg = s.cfg ∧ (chooseStart s img e).ledger = s.ledger ∧
    (chooseStart s img e).order = s.order ∧ (chooseStart s img e).solver = s.solver ∧ (chooseStart s img e).spec = s.spec ∧
    (chooseStart s img e).jig = s.jig ∧ (chooseStart s img e).safety = s.safety ∧ (chooseStart s img e).pins = s.pins ∧
    (chooseStart s img e).die = s.die ∧ (chooseStart s img e).fault = s.fault ∧ (chooseStart s img e).digest = s.digest ∧
    (chooseStart s img e).eth = s.eth ∧ (chooseStart s img e).tenon = s.tenon ∧ (chooseStart s img e).power = s.power ∧
    (chooseStart s img e).sec = s.sec ∧ (chooseStart s img e).jtag = s.jtag ∧ (chooseStart s img e).waiting = s.waiting ∧
    (chooseStart s img e).access = s.access ∧ (chooseStart s img e).fresh = s.fresh ∧ (chooseStart s img e).pending = s.pending := by
  simp only [chooseStart]; (repeat' split) <;> simp_all

@[simp] theorem closeStream_same (img : Image) (e : Epoch) (s : State) (d : Nat) :
    (closeStream img e s d).frame = s.frame ∧ (closeStream img e s d).cfg = s.cfg ∧ (closeStream img e s d).ledger = s.ledger ∧
    (closeStream img e s d).order = s.order ∧ (closeStream img e s d).solver = s.solver ∧ (closeStream img e s d).spec = s.spec ∧
    (closeStream img e s d).jig = s.jig ∧ (closeStream img e s d).safety = s.safety ∧ (closeStream img e s d).pins = s.pins ∧
    (closeStream img e s d).die = s.die ∧ (closeStream img e s d).fault = s.fault ∧ (closeStream img e s d).digest = s.digest ∧
    (closeStream img e s d).eth = s.eth ∧ (closeStream img e s d).tenon = s.tenon ∧ (closeStream img e s d).power = s.power ∧
    (closeStream img e s d).sec = s.sec ∧ (closeStream img e s d).jtag = s.jtag ∧ (closeStream img e s d).waiting = s.waiting ∧
    (closeStream img e s d).access = s.access ∧ (closeStream img e s d).fresh = s.fresh ∧
    (closeStream img e s d).pending = s.pending := by
  simp [closeStream]

@[simp] theorem shiftLedger_same (s : State) (img : Image) :
    (shiftLedger s img).frame = s.frame ∧ (shiftLedger s img).cfg = s.cfg ∧ (shiftLedger s img).world = s.world ∧
    (shiftLedger s img).order = s.order ∧ (shiftLedger s img).solver = s.solver ∧ (shiftLedger s img).spec = s.spec ∧
    (shiftLedger s img).jig = s.jig ∧ (shiftLedger s img).safety = s.safety ∧ (shiftLedger s img).pins = s.pins ∧
    (shiftLedger s img).die = s.die ∧ (shiftLedger s img).fault = s.fault ∧ (shiftLedger s img).digest = s.digest ∧
    (shiftLedger s img).eth = s.eth ∧ (shiftLedger s img).tenon = s.tenon ∧ (shiftLedger s img).power = s.power ∧
    (shiftLedger s img).sec = s.sec ∧ (shiftLedger s img).jtag = s.jtag ∧ (shiftLedger s img).waiting = s.waiting ∧
    (shiftLedger s img).access = s.access ∧ (shiftLedger s img).fresh = s.fresh ∧ (shiftLedger s img).pending = s.pending := by
  simp only [shiftLedger]; (repeat' split) <;> simp_all

@[simp] theorem markSent_same (s : State) (img : Image) (b : List Byte) :
    (markSent s img b).regs = s.regs ∧ (markSent s img b).frame = s.frame ∧ (markSent s img b).cfg = s.cfg ∧
    (markSent s img b).world = s.world ∧ (markSent s img b).order = s.order ∧ (markSent s img b).solver = s.solver ∧
    (markSent s img b).spec = s.spec ∧ (markSent s img b).jig = s.jig ∧ (markSent s img b).safety = s.safety ∧
    (markSent s img b).pins = s.pins ∧ (markSent s img b).die = s.die ∧ (markSent s img b).fault = s.fault ∧
    (markSent s img b).digest = s.digest ∧ (markSent s img b).eth = s.eth ∧ (markSent s img b).tenon = s.tenon ∧
    (markSent s img b).power = s.power ∧ (markSent s img b).sec = s.sec ∧ (markSent s img b).jtag = s.jtag ∧
    (markSent s img b).waiting = s.waiting ∧ (markSent s img b).access = s.access ∧ (markSent s img b).fresh = s.fresh ∧
    (markSent s img b).pending = s.pending := by
  simp only [markSent]; (repeat' split) <;> simp_all

@[simp] theorem closeAdmission_same (s : State) (img : Image) :
    (closeAdmission s img).solver = s.solver ∧ (closeAdmission s img).die = s.die ∧ (closeAdmission s img).jtag = s.jtag ∧
    (closeAdmission s img).waiting = s.waiting ∧ (closeAdmission s img).access = s.access ∧
    (closeAdmission s img).pending = s.pending := by
  simp only [closeAdmission]; (repeat' split) <;> simp_all

@[simp] theorem finishSnapshot_same (s : State) (img : Image) :
    (finishSnapshot s img).frame = s.frame ∧ (finishSnapshot s img).cfg = s.cfg ∧ (finishSnapshot s img).ledger = s.ledger ∧
    (finishSnapshot s img).order = s.order ∧ (finishSnapshot s img).solver = s.solver ∧ (finishSnapshot s img).spec = s.spec ∧
    (finishSnapshot s img).jig = s.jig ∧ (finishSnapshot s img).safety = s.safety ∧ (finishSnapshot s img).pins = s.pins ∧
    (finishSnapshot s img).die = s.die ∧ (finishSnapshot s img).fault = s.fault ∧ (finishSnapshot s img).digest = s.digest ∧
    (finishSnapshot s img).eth = s.eth ∧ (finishSnapshot s img).tenon = s.tenon ∧ (finishSnapshot s img).power = s.power ∧
    (finishSnapshot s img).sec = s.sec ∧ (finishSnapshot s img).jtag = s.jtag ∧ (finishSnapshot s img).waiting = s.waiting ∧
    (finishSnapshot s img).access = s.access ∧ (finishSnapshot s img).fresh = s.fresh ∧ (finishSnapshot s img).pending = s.pending := by
  simp only [finishSnapshot]; (repeat' split) <;> simp_all

@[simp] theorem finalPanel_same (s : State) (img : Image) (l p : Nat) :
    (finalPanel s img l p).frame = s.frame ∧ (finalPanel s img l p).cfg = s.cfg ∧ (finalPanel s img l p).order = s.order ∧
    (finalPanel s img l p).solver = s.solver ∧ (finalPanel s img l p).spec = s.spec ∧ (finalPanel s img l p).jig = s.jig ∧
    (finalPanel s img l p).safety = s.safety ∧ (finalPanel s img l p).pins = s.pins ∧ (finalPanel s img l p).die = s.die ∧
    (finalPanel s img l p).fault = s.fault ∧ (finalPanel s img l p).digest = s.digest ∧ (finalPanel s img l p).eth = s.eth ∧
    (finalPanel s img l p).tenon = s.tenon ∧ (finalPanel s img l p).power = s.power ∧ (finalPanel s img l p).sec = s.sec ∧
    (finalPanel s img l p).jtag = s.jtag ∧ (finalPanel s img l p).waiting = s.waiting ∧
    (finalPanel s img l p).access = s.access ∧ (finalPanel s img l p).fresh = s.fresh ∧ (finalPanel s img l p).pending = s.pending := by
  unfold finalPanel; (repeat' split) <;> simp

@[simp] theorem keepPanel_same (s : State) (img : Image) (l p : Nat) :
    (keepPanel s img l p).frame = s.frame ∧ (keepPanel s img l p).cfg = s.cfg ∧ (keepPanel s img l p).ledger = s.ledger ∧
    (keepPanel s img l p).order = s.order ∧ (keepPanel s img l p).solver = s.solver ∧ (keepPanel s img l p).spec = s.spec ∧
    (keepPanel s img l p).jig = s.jig ∧ (keepPanel s img l p).safety = s.safety ∧ (keepPanel s img l p).pins = s.pins ∧
    (keepPanel s img l p).die = s.die ∧ (keepPanel s img l p).fault = s.fault ∧ (keepPanel s img l p).digest = s.digest ∧
    (keepPanel s img l p).eth = s.eth ∧ (keepPanel s img l p).tenon = s.tenon ∧ (keepPanel s img l p).power = s.power ∧
    (keepPanel s img l p).sec = s.sec ∧ (keepPanel s img l p).jtag = s.jtag ∧ (keepPanel s img l p).waiting = s.waiting ∧
    (keepPanel s img l p).access = s.access ∧ (keepPanel s img l p).fresh = s.fresh ∧ (keepPanel s img l p).pending = s.pending := by
  simp [keepPanel]

@[simp] theorem recomputePanel_same (s : State) (img : Image) (l p : Nat) :
    (recomputePanel s img l p).frame = s.frame ∧ (recomputePanel s img l p).cfg = s.cfg ∧
    (recomputePanel s img l p).ledger = s.ledger ∧ (recomputePanel s img l p).order = s.order ∧
    (recomputePanel s img l p).solver = s.solver ∧ (recomputePanel s img l p).spec = s.spec ∧
    (recomputePanel s img l p).jig = s.jig ∧ (recomputePanel s img l p).safety = s.safety ∧
    (recomputePanel s img l p).pins = s.pins ∧ (recomputePanel s img l p).die = s.die ∧
    (recomputePanel s img l p).fault = s.fault ∧ (recomputePanel s img l p).digest = s.digest ∧
    (recomputePanel s img l p).eth = s.eth ∧ (recomputePanel s img l p).tenon = s.tenon ∧
    (recomputePanel s img l p).power = s.power ∧ (recomputePanel s img l p).sec = s.sec ∧
    (recomputePanel s img l p).jtag = s.jtag ∧ (recomputePanel s img l p).waiting = s.waiting ∧
    (recomputePanel s img l p).access = s.access ∧ (recomputePanel s img l p).fresh = s.fresh ∧
    (recomputePanel s img l p).pending = s.pending := by
  simp [recomputePanel]

@[simp] theorem completePanel_same (img : Image) (l : Nat) (s : State) (p : Nat) :
    (completePanel img l s p).frame = s.frame ∧ (completePanel img l s p).cfg = s.cfg ∧
    (completePanel img l s p).order = s.order ∧ (completePanel img l s p).solver = s.solver ∧
    (completePanel img l s p).spec = s.spec ∧ (completePanel img l s p).jig = s.jig ∧
    (completePanel img l s p).safety = s.safety ∧ (completePanel img l s p).pins = s.pins ∧
    (completePanel img l s p).die = s.die ∧ (completePanel img l s p).fault = s.fault ∧
    (completePanel img l s p).digest = s.digest ∧ (completePanel img l s p).eth = s.eth ∧
    (completePanel img l s p).tenon = s.tenon ∧ (completePanel img l s p).power = s.power ∧
    (completePanel img l s p).sec = s.sec ∧ (completePanel img l s p).jtag = s.jtag ∧
    (completePanel img l s p).waiting = s.waiting ∧ (completePanel img l s p).access = s.access ∧
    (completePanel img l s p).fresh = s.fresh ∧ (completePanel img l s p).pending = s.pending := by
  unfold completePanel; (repeat' split) <;> simp

@[simp] theorem completeAssembly_same (s : State) (img : Image) :
    (completeAssembly s img).solver = s.solver ∧ (completeAssembly s img).die = s.die ∧ (completeAssembly s img).jtag = s.jtag ∧
    (completeAssembly s img).waiting = s.waiting ∧ (completeAssembly s img).access = s.access ∧
    (completeAssembly s img).pending = s.pending := by
  unfold completeAssembly; (repeat' split) <;> simp

@[simp] theorem beginEpoch_same (s : State) (e : Epoch) :
    (beginEpoch s e).frame = s.frame ∧ (beginEpoch s e).cfg = s.cfg ∧ (beginEpoch s e).order = s.order ∧
    (beginEpoch s e).solver = s.solver ∧ (beginEpoch s e).spec = s.spec ∧ (beginEpoch s e).jig = s.jig ∧
    (beginEpoch s e).safety = s.safety ∧ (beginEpoch s e).pins = s.pins ∧ (beginEpoch s e).die = s.die ∧
    (beginEpoch s e).fault = s.fault ∧ (beginEpoch s e).digest = s.digest ∧ (beginEpoch s e).eth = s.eth ∧
    (beginEpoch s e).tenon = s.tenon ∧ (beginEpoch s e).power = s.power ∧ (beginEpoch s e).sec = s.sec ∧
    (beginEpoch s e).jtag = s.jtag ∧ (beginEpoch s e).waiting = s.waiting ∧ (beginEpoch s e).access = s.access ∧
    (beginEpoch s e).fresh = s.fresh ∧ (beginEpoch s e).pending = s.pending := by
  simp [beginEpoch]

@[simp] theorem countCut_same (s : State) (tile n : Nat) :
    (countCut s tile n).regs = s.regs ∧ (countCut s tile n).frame = s.frame ∧ (countCut s tile n).cfg = s.cfg ∧
    (countCut s tile n).world = s.world ∧ (countCut s tile n).ledger = s.ledger ∧ (countCut s tile n).order = s.order ∧
    (countCut s tile n).solver = s.solver ∧ (countCut s tile n).spec = s.spec ∧ (countCut s tile n).safety = s.safety ∧
    (countCut s tile n).pins = s.pins ∧ (countCut s tile n).die = s.die ∧ (countCut s tile n).fault = s.fault ∧
    (countCut s tile n).digest = s.digest ∧ (countCut s tile n).eth = s.eth ∧ (countCut s tile n).tenon = s.tenon ∧
    (countCut s tile n).power = s.power ∧ (countCut s tile n).sec = s.sec ∧ (countCut s tile n).jtag = s.jtag ∧
    (countCut s tile n).waiting = s.waiting ∧ (countCut s tile n).access = s.access ∧ (countCut s tile n).fresh = s.fresh ∧
    (countCut s tile n).pending = s.pending := by
  unfold countCut; (repeat' split) <;> simp

@[simp] theorem cutTask_same (img : Image) (id : Nat) (s : State) (t : Nat) :
    (cutTask img id s t).world = s.world ∧ (cutTask img id s t).ledger = s.ledger ∧ (cutTask img id s t).solver = s.solver ∧
    (cutTask img id s t).die = s.die ∧ (cutTask img id s t).jtag = s.jtag ∧ (cutTask img id s t).waiting = s.waiting ∧
    (cutTask img id s t).access = s.access ∧ (cutTask img id s t).pending = s.pending := by
  simp only [cutTask]; (repeat' split) <;> simp_all

@[simp] theorem cutStageTasks_same (img : Image) (s : State) (id : Nat) :
    (cutStageTasks img s id).world = s.world ∧ (cutStageTasks img s id).ledger = s.ledger ∧
    (cutStageTasks img s id).solver = s.solver ∧ (cutStageTasks img s id).die = s.die ∧ (cutStageTasks img s id).jtag = s.jtag ∧
    (cutStageTasks img s id).waiting = s.waiting ∧ (cutStageTasks img s id).access = s.access ∧
    (cutStageTasks img s id).pending = s.pending := by
  unfold cutStageTasks; (repeat' split) <;> simp

@[simp] theorem abandonPropose_same (s : State) :
    (abandonPropose s).regs = s.regs ∧ (abandonPropose s).frame = s.frame ∧ (abandonPropose s).cfg = s.cfg ∧
    (abandonPropose s).world = s.world ∧ (abandonPropose s).ledger = s.ledger ∧ (abandonPropose s).order = s.order ∧
    (abandonPropose s).solver = s.solver ∧ (abandonPropose s).spec = s.spec ∧ (abandonPropose s).safety = s.safety ∧
    (abandonPropose s).pins = s.pins ∧ (abandonPropose s).die = s.die ∧ (abandonPropose s).fault = s.fault ∧
    (abandonPropose s).digest = s.digest ∧ (abandonPropose s).eth = s.eth ∧ (abandonPropose s).tenon = s.tenon ∧
    (abandonPropose s).power = s.power ∧ (abandonPropose s).sec = s.sec ∧ (abandonPropose s).jtag = s.jtag ∧
    (abandonPropose s).waiting = s.waiting ∧ (abandonPropose s).access = s.access ∧ (abandonPropose s).fresh = s.fresh ∧
    (abandonPropose s).pending = s.pending := by
  simp [abandonPropose]

@[simp] theorem sendLists_same (s : State) (img : Image) :
    (sendLists s img).frame = s.frame ∧ (sendLists s img).cfg = s.cfg ∧ (sendLists s img).world = s.world ∧
    (sendLists s img).ledger = s.ledger ∧ (sendLists s img).order = s.order ∧ (sendLists s img).solver = s.solver ∧
    (sendLists s img).spec = s.spec ∧ (sendLists s img).jig = s.jig ∧ (sendLists s img).safety = s.safety ∧
    (sendLists s img).pins = s.pins ∧ (sendLists s img).die = s.die ∧ (sendLists s img).fault = s.fault ∧
    (sendLists s img).digest = s.digest ∧ (sendLists s img).eth = s.eth ∧ (sendLists s img).power = s.power ∧
    (sendLists s img).sec = s.sec ∧ (sendLists s img).jtag = s.jtag ∧ (sendLists s img).waiting = s.waiting ∧
    (sendLists s img).access = s.access ∧ (sendLists s img).fresh = s.fresh ∧ (sendLists s img).pending = s.pending := by
  simp only [sendLists]; (repeat' split) <;> simp_all

@[simp] theorem startRefine_same (s : State) (img : Image) (e : PEntry) :
    (startRefine s img e).frame = s.frame ∧ (startRefine s img e).cfg = s.cfg ∧ (startRefine s img e).world = s.world ∧
    (startRefine s img e).ledger = s.ledger ∧ (startRefine s img e).order = s.order ∧ (startRefine s img e).spec = s.spec ∧
    (startRefine s img e).jig = s.jig ∧ (startRefine s img e).safety = s.safety ∧ (startRefine s img e).pins = s.pins ∧
    (startRefine s img e).die = s.die ∧ (startRefine s img e).fault = s.fault ∧ (startRefine s img e).digest = s.digest ∧
    (startRefine s img e).eth = s.eth ∧ (startRefine s img e).tenon = s.tenon ∧ (startRefine s img e).power = s.power ∧
    (startRefine s img e).sec = s.sec ∧ (startRefine s img e).jtag = s.jtag ∧ (startRefine s img e).waiting = s.waiting ∧
    (startRefine s img e).access = s.access ∧ (startRefine s img e).fresh = s.fresh ∧ (startRefine s img e).pending = s.pending := by
  simp only [startRefine]; (repeat' split) <;> simp_all

@[simp] theorem releaseSelection_same (s : State) (img : Image) (inputs : List PList) :
    (releaseSelection s img inputs).world = s.world ∧ (releaseSelection s img inputs).ledger = s.ledger ∧
    (releaseSelection s img inputs).die = s.die ∧ (releaseSelection s img inputs).jtag = s.jtag ∧
    (releaseSelection s img inputs).waiting = s.waiting ∧ (releaseSelection s img inputs).access = s.access ∧
    (releaseSelection s img inputs).pending = s.pending := by
  simp only [releaseSelection]; (repeat' split) <;> simp_all

@[simp] theorem State.setRun_same (s : State) (r : RefineRun) :
    (State.setRun s r).regs = s.regs ∧ (State.setRun s r).frame = s.frame ∧ (State.setRun s r).cfg = s.cfg ∧
    (State.setRun s r).world = s.world ∧ (State.setRun s r).ledger = s.ledger ∧ (State.setRun s r).order = s.order ∧
    (State.setRun s r).spec = s.spec ∧ (State.setRun s r).jig = s.jig ∧ (State.setRun s r).safety = s.safety ∧
    (State.setRun s r).pins = s.pins ∧ (State.setRun s r).die = s.die ∧ (State.setRun s r).fault = s.fault ∧
    (State.setRun s r).digest = s.digest ∧ (State.setRun s r).eth = s.eth ∧ (State.setRun s r).tenon = s.tenon ∧
    (State.setRun s r).power = s.power ∧ (State.setRun s r).sec = s.sec ∧ (State.setRun s r).jtag = s.jtag ∧
    (State.setRun s r).waiting = s.waiting ∧ (State.setRun s r).access = s.access ∧ (State.setRun s r).fresh = s.fresh ∧
    (State.setRun s r).pending = s.pending := by
  simp [State.setRun]

@[simp] theorem setUpRun_same (s : State) (img : Image) (r : RefineRun) (tr : Traj) :
    (setUpRun s img r tr).regs = s.regs ∧ (setUpRun s img r tr).frame = s.frame ∧ (setUpRun s img r tr).cfg = s.cfg ∧
    (setUpRun s img r tr).world = s.world ∧ (setUpRun s img r tr).ledger = s.ledger ∧ (setUpRun s img r tr).order = s.order ∧
    (setUpRun s img r tr).spec = s.spec ∧ (setUpRun s img r tr).jig = s.jig ∧ (setUpRun s img r tr).safety = s.safety ∧
    (setUpRun s img r tr).pins = s.pins ∧ (setUpRun s img r tr).die = s.die ∧ (setUpRun s img r tr).fault = s.fault ∧
    (setUpRun s img r tr).digest = s.digest ∧ (setUpRun s img r tr).eth = s.eth ∧ (setUpRun s img r tr).tenon = s.tenon ∧
    (setUpRun s img r tr).power = s.power ∧ (setUpRun s img r tr).sec = s.sec ∧ (setUpRun s img r tr).jtag = s.jtag ∧
    (setUpRun s img r tr).waiting = s.waiting ∧ (setUpRun s img r tr).access = s.access ∧ (setUpRun s img r tr).fresh = s.fresh ∧
    (setUpRun s img r tr).pending = s.pending := by
  simp [setUpRun]

@[simp] theorem returnRefine_same (s : State) (img : Image) (r : RefineRun) (tr : Traj) (t : Nat) :
    (returnRefine s img r tr t).cfg = s.cfg ∧ (returnRefine s img r tr t).world = s.world ∧
    (returnRefine s img r tr t).ledger = s.ledger ∧ (returnRefine s img r tr t).order = s.order ∧
    (returnRefine s img r tr t).spec = s.spec ∧ (returnRefine s img r tr t).pins = s.pins ∧
    (returnRefine s img r tr t).die = s.die ∧ (returnRefine s img r tr t).fault = s.fault ∧
    (returnRefine s img r tr t).digest = s.digest ∧ (returnRefine s img r tr t).eth = s.eth ∧
    (returnRefine s img r tr t).tenon = s.tenon ∧ (returnRefine s img r tr t).power = s.power ∧
    (returnRefine s img r tr t).sec = s.sec ∧ (returnRefine s img r tr t).jtag = s.jtag ∧
    (returnRefine s img r tr t).waiting = s.waiting ∧ (returnRefine s img r tr t).access = s.access ∧
    (returnRefine s img r tr t).fresh = s.fresh ∧ (returnRefine s img r tr t).pending = s.pending := by
  simp only [returnRefine]; (repeat' split) <;> simp_all

@[simp] theorem updateGrid_same (s : State) (img : Image) (e : Epoch) :
    (updateGrid s img e).regs = s.regs ∧ (updateGrid s img e).frame = s.frame ∧ (updateGrid s img e).cfg = s.cfg ∧
    (updateGrid s img e).world = s.world ∧ (updateGrid s img e).ledger = s.ledger ∧ (updateGrid s img e).order = s.order ∧
    (updateGrid s img e).solver = s.solver ∧ (updateGrid s img e).spec = s.spec ∧ (updateGrid s img e).jig = s.jig ∧
    (updateGrid s img e).pins = s.pins ∧ (updateGrid s img e).die = s.die ∧ (updateGrid s img e).fault = s.fault ∧
    (updateGrid s img e).digest = s.digest ∧ (updateGrid s img e).eth = s.eth ∧ (updateGrid s img e).tenon = s.tenon ∧
    (updateGrid s img e).power = s.power ∧ (updateGrid s img e).sec = s.sec ∧ (updateGrid s img e).jtag = s.jtag ∧
    (updateGrid s img e).waiting = s.waiting ∧ (updateGrid s img e).access = s.access ∧ (updateGrid s img e).fresh = s.fresh ∧
    (updateGrid s img e).pending = s.pending := by
  simp [updateGrid]

end Sys2Proof.Machine
end

