-- ==== Sys2Proof/Laws/SharedCommit.lean ====
section
/-! SUPPORT. What the shared operations of commits, digests, image loads, slots, maintenance, Sheaz and the frame leave as it is: every part of the state that an operation does not
change, one lemma an operation. -/

namespace Sys2Proof.Machine

@[simp] theorem closeStage_same (s : State) (img : Image) (id : Nat) (bytes : List Byte) :
    (closeStage s img id bytes).regs = s.regs ∧ (closeStage s img id bytes).frame = s.frame ∧
    (closeStage s img id bytes).cfg = s.cfg ∧ (closeStage s img id bytes).world = s.world ∧
    (closeStage s img id bytes).ledger = s.ledger ∧ (closeStage s img id bytes).order = s.order ∧
    (closeStage s img id bytes).solver = s.solver ∧ (closeStage s img id bytes).spec = s.spec ∧
    (closeStage s img id bytes).jig = s.jig ∧ (closeStage s img id bytes).safety = s.safety ∧
    (closeStage s img id bytes).pins = s.pins ∧ (closeStage s img id bytes).die = s.die ∧
    (closeStage s img id bytes).fault = s.fault ∧ (closeStage s img id bytes).eth = s.eth ∧
    (closeStage s img id bytes).tenon = s.tenon ∧ (closeStage s img id bytes).power = s.power ∧
    (closeStage s img id bytes).sec = s.sec ∧ (closeStage s img id bytes).jtag = s.jtag ∧
    (closeStage s img id bytes).waiting = s.waiting ∧ (closeStage s img id bytes).access = s.access ∧
    (closeStage s img id bytes).fresh = s.fresh ∧ (closeStage s img id bytes).pending = s.pending := by
  unfold closeStage; (repeat' split) <;> simp

@[simp] theorem closeMain_same (s : State) (img : Image) :
    (closeMain s img).regs = s.regs ∧ (closeMain s img).frame = s.frame ∧ (closeMain s img).cfg = s.cfg ∧
    (closeMain s img).world = s.world ∧ (closeMain s img).ledger = s.ledger ∧ (closeMain s img).order = s.order ∧
    (closeMain s img).solver = s.solver ∧ (closeMain s img).spec = s.spec ∧ (closeMain s img).jig = s.jig ∧
    (closeMain s img).safety = s.safety ∧ (closeMain s img).pins = s.pins ∧ (closeMain s img).die = s.die ∧
    (closeMain s img).fault = s.fault ∧ (closeMain s img).eth = s.eth ∧ (closeMain s img).tenon = s.tenon ∧
    (closeMain s img).power = s.power ∧ (closeMain s img).sec = s.sec ∧ (closeMain s img).jtag = s.jtag ∧
    (closeMain s img).waiting = s.waiting ∧ (closeMain s img).access = s.access ∧ (closeMain s img).fresh = s.fresh ∧
    (closeMain s img).pending = s.pending := by
  simp only [closeMain]; (repeat' split) <;> simp_all

@[simp] theorem putRecord_same (s : State) (rec_ : List Byte) :
    (putRecord s rec_).frame = s.frame ∧ (putRecord s rec_).cfg = s.cfg ∧ (putRecord s rec_).world = s.world ∧
    (putRecord s rec_).ledger = s.ledger ∧ (putRecord s rec_).order = s.order ∧ (putRecord s rec_).solver = s.solver ∧
    (putRecord s rec_).spec = s.spec ∧ (putRecord s rec_).jig = s.jig ∧ (putRecord s rec_).safety = s.safety ∧
    (putRecord s rec_).pins = s.pins ∧ (putRecord s rec_).die = s.die ∧ (putRecord s rec_).fault = s.fault ∧
    (putRecord s rec_).eth = s.eth ∧ (putRecord s rec_).tenon = s.tenon ∧ (putRecord s rec_).power = s.power ∧
    (putRecord s rec_).sec = s.sec ∧ (putRecord s rec_).jtag = s.jtag ∧ (putRecord s rec_).waiting = s.waiting ∧
    (putRecord s rec_).access = s.access ∧ (putRecord s rec_).fresh = s.fresh ∧ (putRecord s rec_).pending = s.pending := by
  unfold putRecord; (repeat' split) <;> simp

@[simp] theorem takeAnchor_same (s : State) (img : Image) :
    (takeAnchor s img).frame = s.frame ∧ (takeAnchor s img).cfg = s.cfg ∧ (takeAnchor s img).world = s.world ∧
    (takeAnchor s img).ledger = s.ledger ∧ (takeAnchor s img).order = s.order ∧ (takeAnchor s img).solver = s.solver ∧
    (takeAnchor s img).spec = s.spec ∧ (takeAnchor s img).jig = s.jig ∧ (takeAnchor s img).safety = s.safety ∧
    (takeAnchor s img).pins = s.pins ∧ (takeAnchor s img).die = s.die ∧ (takeAnchor s img).fault = s.fault ∧
    (takeAnchor s img).eth = s.eth ∧ (takeAnchor s img).tenon = s.tenon ∧ (takeAnchor s img).power = s.power ∧
    (takeAnchor s img).sec = s.sec ∧ (takeAnchor s img).jtag = s.jtag ∧ (takeAnchor s img).waiting = s.waiting ∧
    (takeAnchor s img).access = s.access ∧ (takeAnchor s img).fresh = s.fresh ∧ (takeAnchor s img).pending = s.pending := by
  simp only [takeAnchor]; (repeat' split) <;> simp_all

@[simp] theorem captureEpoch_same (s : State) (x : EpochRec) :
    (captureEpoch s x).frame = s.frame ∧ (captureEpoch s x).cfg = s.cfg ∧ (captureEpoch s x).world = s.world ∧
    (captureEpoch s x).ledger = s.ledger ∧ (captureEpoch s x).order = s.order ∧ (captureEpoch s x).solver = s.solver ∧
    (captureEpoch s x).spec = s.spec ∧ (captureEpoch s x).jig = s.jig ∧ (captureEpoch s x).safety = s.safety ∧
    (captureEpoch s x).pins = s.pins ∧ (captureEpoch s x).die = s.die ∧ (captureEpoch s x).fault = s.fault ∧
    (captureEpoch s x).eth = s.eth ∧ (captureEpoch s x).tenon = s.tenon ∧ (captureEpoch s x).power = s.power ∧
    (captureEpoch s x).sec = s.sec ∧ (captureEpoch s x).jtag = s.jtag ∧ (captureEpoch s x).waiting = s.waiting ∧
    (captureEpoch s x).access = s.access ∧ (captureEpoch s x).pending = s.pending := by
  simp only [captureEpoch]; (repeat' split) <;> simp_all

@[simp] theorem State.setPart_same (s : State) (p : Nat) (x : PartSt) :
    (State.setPart s p x).frame = s.frame ∧ (State.setPart s p x).cfg = s.cfg ∧ (State.setPart s p x).world = s.world ∧
    (State.setPart s p x).ledger = s.ledger ∧ (State.setPart s p x).order = s.order ∧ (State.setPart s p x).solver = s.solver ∧
    (State.setPart s p x).spec = s.spec ∧ (State.setPart s p x).jig = s.jig ∧ (State.setPart s p x).safety = s.safety ∧
    (State.setPart s p x).pins = s.pins ∧ (State.setPart s p x).die = s.die ∧ (State.setPart s p x).fault = s.fault ∧
    (State.setPart s p x).digest = s.digest ∧ (State.setPart s p x).tenon = s.tenon ∧ (State.setPart s p x).power = s.power ∧
    (State.setPart s p x).sec = s.sec ∧ (State.setPart s p x).jtag = s.jtag ∧ (State.setPart s p x).waiting = s.waiting ∧
    (State.setPart s p x).access = s.access ∧ (State.setPart s p x).fresh = s.fresh ∧ (State.setPart s p x).pending = s.pending := by
  simp [State.setPart]

@[simp] theorem countDrop_same (s : State) (r : Nat) (f : Frame) :
    (countDrop s r f).frame = s.frame ∧ (countDrop s r f).cfg = s.cfg ∧ (countDrop s r f).world = s.world ∧
    (countDrop s r f).ledger = s.ledger ∧ (countDrop s r f).order = s.order ∧ (countDrop s r f).solver = s.solver ∧
    (countDrop s r f).spec = s.spec ∧ (countDrop s r f).jig = s.jig ∧ (countDrop s r f).safety = s.safety ∧
    (countDrop s r f).pins = s.pins ∧ (countDrop s r f).die = s.die ∧ (countDrop s r f).fault = s.fault ∧
    (countDrop s r f).digest = s.digest ∧ (countDrop s r f).eth = s.eth ∧ (countDrop s r f).tenon = s.tenon ∧
    (countDrop s r f).power = s.power ∧ (countDrop s r f).sec = s.sec ∧ (countDrop s r f).jtag = s.jtag ∧
    (countDrop s r f).waiting = s.waiting ∧ (countDrop s r f).access = s.access ∧ (countDrop s r f).fresh = s.fresh ∧
    (countDrop s r f).pending = s.pending := by
  unfold countDrop; (repeat' split) <;> simp

@[simp] theorem acceptSeq_same (s : State) (f : Frame) :
    (acceptSeq s f).frame = s.frame ∧ (acceptSeq s f).cfg = s.cfg ∧ (acceptSeq s f).world = s.world ∧
    (acceptSeq s f).ledger = s.ledger ∧ (acceptSeq s f).order = s.order ∧ (acceptSeq s f).solver = s.solver ∧
    (acceptSeq s f).spec = s.spec ∧ (acceptSeq s f).jig = s.jig ∧ (acceptSeq s f).safety = s.safety ∧
    (acceptSeq s f).pins = s.pins ∧ (acceptSeq s f).die = s.die ∧ (acceptSeq s f).fault = s.fault ∧
    (acceptSeq s f).digest = s.digest ∧ (acceptSeq s f).tenon = s.tenon ∧ (acceptSeq s f).power = s.power ∧
    (acceptSeq s f).sec = s.sec ∧ (acceptSeq s f).jtag = s.jtag ∧ (acceptSeq s f).waiting = s.waiting ∧
    (acceptSeq s f).access = s.access ∧ (acceptSeq s f).fresh = s.fresh ∧ (acceptSeq s f).pending = s.pending := by
  simp [acceptSeq]

@[simp] theorem receiveBoot_same (s : State) (f : Frame) :
    (receiveBoot s f).2.frame = s.frame ∧ (receiveBoot s f).2.cfg = s.cfg ∧ (receiveBoot s f).2.world = s.world ∧
    (receiveBoot s f).2.ledger = s.ledger ∧ (receiveBoot s f).2.order = s.order ∧ (receiveBoot s f).2.solver = s.solver ∧
    (receiveBoot s f).2.spec = s.spec ∧ (receiveBoot s f).2.jig = s.jig ∧ (receiveBoot s f).2.safety = s.safety ∧
    (receiveBoot s f).2.pins = s.pins ∧ (receiveBoot s f).2.die = s.die ∧ (receiveBoot s f).2.fault = s.fault ∧
    (receiveBoot s f).2.digest = s.digest ∧ (receiveBoot s f).2.tenon = s.tenon ∧ (receiveBoot s f).2.power = s.power ∧
    (receiveBoot s f).2.sec = s.sec ∧ (receiveBoot s f).2.jtag = s.jtag ∧ (receiveBoot s f).2.waiting = s.waiting ∧
    (receiveBoot s f).2.access = s.access ∧ (receiveBoot s f).2.fresh = s.fresh ∧ (receiveBoot s f).2.pending = s.pending := by
  simp only [receiveBoot]; (repeat' split) <;> (repeat' apply And.intro) <;> (try simp) <;> (repeat refine (foldl_proj _ _ (fun _ _ => ?_) _ _).trans ?_) <;> (repeat' split) <;> (try simp) <;> (repeat' split) <;> simp

@[simp] theorem receiveRunning_same (s : State) (img : Image) (f : Frame) (t : Nat) :
    (receiveRunning s img f t).2.frame = s.frame ∧ (receiveRunning s img f t).2.cfg = s.cfg ∧
    (receiveRunning s img f t).2.world = s.world ∧ (receiveRunning s img f t).2.ledger = s.ledger ∧
    (receiveRunning s img f t).2.order = s.order ∧ (receiveRunning s img f t).2.solver = s.solver ∧
    (receiveRunning s img f t).2.spec = s.spec ∧ (receiveRunning s img f t).2.jig = s.jig ∧
    (receiveRunning s img f t).2.safety = s.safety ∧ (receiveRunning s img f t).2.pins = s.pins ∧
    (receiveRunning s img f t).2.die = s.die ∧ (receiveRunning s img f t).2.fault = s.fault ∧
    (receiveRunning s img f t).2.digest = s.digest ∧ (receiveRunning s img f t).2.tenon = s.tenon ∧
    (receiveRunning s img f t).2.power = s.power ∧ (receiveRunning s img f t).2.sec = s.sec ∧
    (receiveRunning s img f t).2.jtag = s.jtag ∧ (receiveRunning s img f t).2.waiting = s.waiting ∧
    (receiveRunning s img f t).2.access = s.access ∧ (receiveRunning s img f t).2.fresh = s.fresh ∧
    (receiveRunning s img f t).2.pending = s.pending := by
  simp only [receiveRunning]; (repeat' split) <;> (repeat' apply And.intro) <;> (try simp) <;> (repeat refine (foldl_proj _ _ (fun _ _ => ?_) _ _).trans ?_) <;> (repeat' split) <;> (try simp) <;> (repeat' split) <;> simp

@[simp] theorem receive_same (s : State) (f : Frame) (t : Nat) :
    (receive s f t).2.frame = s.frame ∧ (receive s f t).2.cfg = s.cfg ∧ (receive s f t).2.world = s.world ∧
    (receive s f t).2.ledger = s.ledger ∧ (receive s f t).2.order = s.order ∧ (receive s f t).2.solver = s.solver ∧
    (receive s f t).2.spec = s.spec ∧ (receive s f t).2.jig = s.jig ∧ (receive s f t).2.safety = s.safety ∧
    (receive s f t).2.pins = s.pins ∧ (receive s f t).2.die = s.die ∧ (receive s f t).2.fault = s.fault ∧
    (receive s f t).2.digest = s.digest ∧ (receive s f t).2.tenon = s.tenon ∧ (receive s f t).2.power = s.power ∧
    (receive s f t).2.sec = s.sec ∧ (receive s f t).2.jtag = s.jtag ∧ (receive s f t).2.waiting = s.waiting ∧
    (receive s f t).2.access = s.access ∧ (receive s f t).2.fresh = s.fresh ∧ (receive s f t).2.pending = s.pending := by
  simp only [receive]; (repeat' split) <;> (repeat' apply And.intro) <;> (try simp) <;> (repeat refine (foldl_proj _ _ (fun _ _ => ?_) _ _).trans ?_) <;> (repeat' split) <;> (try simp) <;> (repeat' split) <;> simp

@[simp] theorem sendFrame_same (s : State) (p ty : Nat) (e : Epoch) (rtag : Option Nat) (payload : List Byte) :
    (sendFrame s p ty e rtag payload).frame = s.frame ∧ (sendFrame s p ty e rtag payload).cfg = s.cfg ∧
    (sendFrame s p ty e rtag payload).world = s.world ∧ (sendFrame s p ty e rtag payload).ledger = s.ledger ∧
    (sendFrame s p ty e rtag payload).order = s.order ∧ (sendFrame s p ty e rtag payload).solver = s.solver ∧
    (sendFrame s p ty e rtag payload).spec = s.spec ∧ (sendFrame s p ty e rtag payload).jig = s.jig ∧
    (sendFrame s p ty e rtag payload).safety = s.safety ∧ (sendFrame s p ty e rtag payload).pins = s.pins ∧
    (sendFrame s p ty e rtag payload).die = s.die ∧ (sendFrame s p ty e rtag payload).fault = s.fault ∧
    (sendFrame s p ty e rtag payload).digest = s.digest ∧ (sendFrame s p ty e rtag payload).tenon = s.tenon ∧
    (sendFrame s p ty e rtag payload).power = s.power ∧ (sendFrame s p ty e rtag payload).sec = s.sec ∧
    (sendFrame s p ty e rtag payload).jtag = s.jtag ∧ (sendFrame s p ty e rtag payload).waiting = s.waiting ∧
    (sendFrame s p ty e rtag payload).access = s.access ∧ (sendFrame s p ty e rtag payload).fresh = s.fresh ∧
    (sendFrame s p ty e rtag payload).pending = s.pending := by
  simp only [sendFrame]; (repeat' split) <;> (repeat' apply And.intro) <;> (try simp) <;> (repeat refine (foldl_proj _ _ (fun _ _ => ?_) _ _).trans ?_) <;> (repeat' split) <;> (try simp) <;> (repeat' split) <;> simp

@[simp] theorem sendResult_same (s : State) (p kind jobId : Nat) (e : Epoch) (body : List Byte) :
    (sendResult s p kind jobId e body).frame = s.frame ∧ (sendResult s p kind jobId e body).cfg = s.cfg ∧
    (sendResult s p kind jobId e body).world = s.world ∧ (sendResult s p kind jobId e body).ledger = s.ledger ∧
    (sendResult s p kind jobId e body).order = s.order ∧ (sendResult s p kind jobId e body).solver = s.solver ∧
    (sendResult s p kind jobId e body).spec = s.spec ∧ (sendResult s p kind jobId e body).jig = s.jig ∧
    (sendResult s p kind jobId e body).safety = s.safety ∧ (sendResult s p kind jobId e body).pins = s.pins ∧
    (sendResult s p kind jobId e body).die = s.die ∧ (sendResult s p kind jobId e body).fault = s.fault ∧
    (sendResult s p kind jobId e body).digest = s.digest ∧ (sendResult s p kind jobId e body).tenon = s.tenon ∧
    (sendResult s p kind jobId e body).power = s.power ∧ (sendResult s p kind jobId e body).sec = s.sec ∧
    (sendResult s p kind jobId e body).jtag = s.jtag ∧ (sendResult s p kind jobId e body).waiting = s.waiting ∧
    (sendResult s p kind jobId e body).access = s.access ∧ (sendResult s p kind jobId e body).fresh = s.fresh ∧
    (sendResult s p kind jobId e body).pending = s.pending := by
  simp only [sendResult]; (repeat' split) <;> simp_all

@[simp] theorem queueResults_same (s : State) (img : Image) (sel : Option Selection) (h : ResultHead) :
    (queueResults s img sel h).frame = s.frame ∧ (queueResults s img sel h).cfg = s.cfg ∧
    (queueResults s img sel h).world = s.world ∧ (queueResults s img sel h).ledger = s.ledger ∧
    (queueResults s img sel h).order = s.order ∧ (queueResults s img sel h).solver = s.solver ∧
    (queueResults s img sel h).spec = s.spec ∧ (queueResults s img sel h).jig = s.jig ∧
    (queueResults s img sel h).safety = s.safety ∧ (queueResults s img sel h).pins = s.pins ∧
    (queueResults s img sel h).die = s.die ∧ (queueResults s img sel h).fault = s.fault ∧
    (queueResults s img sel h).digest = s.digest ∧ (queueResults s img sel h).tenon = s.tenon ∧
    (queueResults s img sel h).power = s.power ∧ (queueResults s img sel h).sec = s.sec ∧
    (queueResults s img sel h).jtag = s.jtag ∧ (queueResults s img sel h).waiting = s.waiting ∧
    (queueResults s img sel h).access = s.access ∧ (queueResults s img sel h).fresh = s.fresh ∧
    (queueResults s img sel h).pending = s.pending := by
  simp only [queueResults]; (repeat' split) <;> (repeat' apply And.intro) <;> (try simp) <;> (repeat refine (foldl_proj _ _ (fun _ _ => ?_) _ _).trans ?_) <;> (repeat' split) <;> (try simp) <;> (repeat' split) <;> simp

@[simp] theorem islandResult_same (s : State) (img : Image) (k verdict source : Nat) :
    (islandResult s img k verdict source).frame = s.frame ∧ (islandResult s img k verdict source).cfg = s.cfg ∧
    (islandResult s img k verdict source).world = s.world ∧ (islandResult s img k verdict source).ledger = s.ledger ∧
    (islandResult s img k verdict source).order = s.order ∧ (islandResult s img k verdict source).solver = s.solver ∧
    (islandResult s img k verdict source).spec = s.spec ∧ (islandResult s img k verdict source).jig = s.jig ∧
    (islandResult s img k verdict source).safety = s.safety ∧ (islandResult s img k verdict source).pins = s.pins ∧
    (islandResult s img k verdict source).die = s.die ∧ (islandResult s img k verdict source).fault = s.fault ∧
    (islandResult s img k verdict source).digest = s.digest ∧ (islandResult s img k verdict source).tenon = s.tenon ∧
    (islandResult s img k verdict source).power = s.power ∧ (islandResult s img k verdict source).sec = s.sec ∧
    (islandResult s img k verdict source).jtag = s.jtag ∧ (islandResult s img k verdict source).waiting = s.waiting ∧
    (islandResult s img k verdict source).access = s.access ∧ (islandResult s img k verdict source).fresh = s.fresh ∧
    (islandResult s img k verdict source).pending = s.pending := by
  simp [islandResult]

@[simp] theorem makeDue_same (s : State) (cls idx : Nat) :
    (makeDue s cls idx).frame = s.frame ∧ (makeDue s cls idx).cfg = s.cfg ∧ (makeDue s cls idx).world = s.world ∧
    (makeDue s cls idx).ledger = s.ledger ∧ (makeDue s cls idx).order = s.order ∧ (makeDue s cls idx).spec = s.spec ∧
    (makeDue s cls idx).jig = s.jig ∧ (makeDue s cls idx).safety = s.safety ∧ (makeDue s cls idx).pins = s.pins ∧
    (makeDue s cls idx).die = s.die ∧ (makeDue s cls idx).digest = s.digest ∧ (makeDue s cls idx).eth = s.eth ∧
    (makeDue s cls idx).tenon = s.tenon ∧ (makeDue s cls idx).power = s.power ∧ (makeDue s cls idx).sec = s.sec ∧
    (makeDue s cls idx).jtag = s.jtag ∧ (makeDue s cls idx).waiting = s.waiting ∧ (makeDue s cls idx).access = s.access ∧
    (makeDue s cls idx).fresh = s.fresh ∧ (makeDue s cls idx).pending = s.pending := by
  unfold makeDue; (repeat' split) <;> simp

@[simp] theorem pairTests_same (s : State) (e : Epoch) :
    (pairTests s e).frame = s.frame ∧ (pairTests s e).cfg = s.cfg ∧ (pairTests s e).world = s.world ∧
    (pairTests s e).ledger = s.ledger ∧ (pairTests s e).order = s.order ∧ (pairTests s e).spec = s.spec ∧
    (pairTests s e).jig = s.jig ∧ (pairTests s e).safety = s.safety ∧ (pairTests s e).pins = s.pins ∧
    (pairTests s e).die = s.die ∧ (pairTests s e).digest = s.digest ∧ (pairTests s e).eth = s.eth ∧
    (pairTests s e).tenon = s.tenon ∧ (pairTests s e).power = s.power ∧ (pairTests s e).sec = s.sec ∧
    (pairTests s e).jtag = s.jtag ∧ (pairTests s e).waiting = s.waiting ∧ (pairTests s e).access = s.access ∧
    (pairTests s e).fresh = s.fresh ∧ (pairTests s e).pending = s.pending := by
  simp only [pairTests]; (repeat' split) <;> (repeat' apply And.intro) <;> (try simp) <;> (repeat refine (foldl_proj _ _ (fun _ _ => ?_) _ _).trans ?_) <;> (repeat' split) <;> (try simp) <;> (repeat' split) <;> simp

@[simp] theorem comparePair_same (s : State) (a b : PairToken) :
    (comparePair s a b).world = s.world ∧ (comparePair s a b).ledger = s.ledger ∧ (comparePair s a b).order = s.order ∧
    (comparePair s a b).die = s.die ∧ (comparePair s a b).jtag = s.jtag ∧ (comparePair s a b).waiting = s.waiting ∧
    (comparePair s a b).access = s.access ∧ (comparePair s a b).pending = s.pending := by
  unfold comparePair; (repeat' split) <;> simp

@[simp] theorem takePairToken_same (s : State) (x : PairToken) :
    (takePairToken s x).world = s.world ∧ (takePairToken s x).ledger = s.ledger ∧ (takePairToken s x).order = s.order ∧
    (takePairToken s x).die = s.die ∧ (takePairToken s x).jtag = s.jtag ∧ (takePairToken s x).waiting = s.waiting ∧
    (takePairToken s x).access = s.access ∧ (takePairToken s x).pending = s.pending := by
  simp only [takePairToken]; (repeat' split) <;> simp_all

@[simp] theorem pushWindow_same (s : State) (failed : Bool) :
    (pushWindow s failed).frame = s.frame ∧ (pushWindow s failed).cfg = s.cfg ∧ (pushWindow s failed).world = s.world ∧
    (pushWindow s failed).ledger = s.ledger ∧ (pushWindow s failed).order = s.order ∧ (pushWindow s failed).solver = s.solver ∧
    (pushWindow s failed).spec = s.spec ∧ (pushWindow s failed).jig = s.jig ∧ (pushWindow s failed).pins = s.pins ∧
    (pushWindow s failed).die = s.die ∧ (pushWindow s failed).fault = s.fault ∧ (pushWindow s failed).digest = s.digest ∧
    (pushWindow s failed).eth = s.eth ∧ (pushWindow s failed).tenon = s.tenon ∧ (pushWindow s failed).power = s.power ∧
    (pushWindow s failed).sec = s.sec ∧ (pushWindow s failed).jtag = s.jtag ∧ (pushWindow s failed).waiting = s.waiting ∧
    (pushWindow s failed).access = s.access ∧ (pushWindow s failed).fresh = s.fresh ∧ (pushWindow s failed).pending = s.pending := by
  simp [pushWindow]

@[simp] theorem applyVerdict_same (s : State) (v : Nat) :
    (applyVerdict s v).world = s.world ∧ (applyVerdict s v).ledger = s.ledger ∧ (applyVerdict s v).order = s.order ∧
    (applyVerdict s v).solver = s.solver ∧ (applyVerdict s v).die = s.die ∧ (applyVerdict s v).jtag = s.jtag ∧
    (applyVerdict s v).waiting = s.waiting ∧ (applyVerdict s v).access = s.access ∧ (applyVerdict s v).fresh = s.fresh ∧
    (applyVerdict s v).pending = s.pending := by
  unfold applyVerdict; (repeat' split) <;> simp

@[simp] theorem latchBudget_same (s : State) (img : Image) :
    (latchBudget s img).frame = s.frame ∧ (latchBudget s img).cfg = s.cfg ∧ (latchBudget s img).world = s.world ∧
    (latchBudget s img).ledger = s.ledger ∧ (latchBudget s img).order = s.order ∧ (latchBudget s img).solver = s.solver ∧
    (latchBudget s img).spec = s.spec ∧ (latchBudget s img).jig = s.jig ∧ (latchBudget s img).safety = s.safety ∧
    (latchBudget s img).pins = s.pins ∧ (latchBudget s img).die = s.die ∧ (latchBudget s img).fault = s.fault ∧
    (latchBudget s img).digest = s.digest ∧ (latchBudget s img).eth = s.eth ∧ (latchBudget s img).tenon = s.tenon ∧
    (latchBudget s img).power = s.power ∧ (latchBudget s img).sec = s.sec ∧ (latchBudget s img).jtag = s.jtag ∧
    (latchBudget s img).waiting = s.waiting ∧ (latchBudget s img).access = s.access ∧ (latchBudget s img).fresh = s.fresh ∧
    (latchBudget s img).pending = s.pending := by
  simp only [latchBudget]; (repeat' split) <;> (repeat' apply And.intro) <;> (try simp) <;> (repeat refine (foldl_proj _ _ (fun _ _ => ?_) _ _).trans ?_) <;> (repeat' split) <;> (try simp) <;> (repeat' split) <;> simp

@[simp] theorem latchPropose_same (s : State) (img : Image) :
    (latchPropose s img).frame = s.frame ∧ (latchPropose s img).cfg = s.cfg ∧ (latchPropose s img).world = s.world ∧
    (latchPropose s img).ledger = s.ledger ∧ (latchPropose s img).order = s.order ∧ (latchPropose s img).solver = s.solver ∧
    (latchPropose s img).spec = s.spec ∧ (latchPropose s img).jig = s.jig ∧ (latchPropose s img).safety = s.safety ∧
    (latchPropose s img).pins = s.pins ∧ (latchPropose s img).die = s.die ∧ (latchPropose s img).fault = s.fault ∧
    (latchPropose s img).digest = s.digest ∧ (latchPropose s img).eth = s.eth ∧ (latchPropose s img).tenon = s.tenon ∧
    (latchPropose s img).power = s.power ∧ (latchPropose s img).sec = s.sec ∧ (latchPropose s img).jtag = s.jtag ∧
    (latchPropose s img).waiting = s.waiting ∧ (latchPropose s img).access = s.access ∧ (latchPropose s img).fresh = s.fresh ∧
    (latchPropose s img).pending = s.pending := by
  simp only [latchPropose]; (repeat' split) <;> (repeat' apply And.intro) <;> (try simp) <;> (repeat refine (foldl_proj _ _ (fun _ _ => ?_) _ _).trans ?_) <;> (repeat' split) <;> (try simp) <;> (repeat' split) <;> simp

@[simp] theorem latchSearch_same (s : State) :
    (latchSearch s).frame = s.frame ∧ (latchSearch s).cfg = s.cfg ∧ (latchSearch s).world = s.world ∧
    (latchSearch s).ledger = s.ledger ∧ (latchSearch s).order = s.order ∧ (latchSearch s).solver = s.solver ∧
    (latchSearch s).spec = s.spec ∧ (latchSearch s).jig = s.jig ∧ (latchSearch s).safety = s.safety ∧
    (latchSearch s).pins = s.pins ∧ (latchSearch s).die = s.die ∧ (latchSearch s).fault = s.fault ∧
    (latchSearch s).digest = s.digest ∧ (latchSearch s).eth = s.eth ∧ (latchSearch s).tenon = s.tenon ∧
    (latchSearch s).power = s.power ∧ (latchSearch s).sec = s.sec ∧ (latchSearch s).jtag = s.jtag ∧
    (latchSearch s).waiting = s.waiting ∧ (latchSearch s).access = s.access ∧ (latchSearch s).fresh = s.fresh ∧
    (latchSearch s).pending = s.pending := by
  simp only [latchSearch]; (repeat' split) <;> (repeat' apply And.intro) <;> (try simp) <;> (repeat refine (foldl_proj _ _ (fun _ _ => ?_) _ _).trans ?_) <;> (repeat' split) <;> (try simp) <;> (repeat' split) <;> simp

@[simp] theorem latchOrder_same (s : State) :
    (latchOrder s).frame = s.frame ∧ (latchOrder s).cfg = s.cfg ∧ (latchOrder s).world = s.world ∧
    (latchOrder s).ledger = s.ledger ∧ (latchOrder s).order = s.order ∧ (latchOrder s).solver = s.solver ∧
    (latchOrder s).spec = s.spec ∧ (latchOrder s).jig = s.jig ∧ (latchOrder s).safety = s.safety ∧ (latchOrder s).pins = s.pins ∧
    (latchOrder s).die = s.die ∧ (latchOrder s).fault = s.fault ∧ (latchOrder s).digest = s.digest ∧ (latchOrder s).eth = s.eth ∧
    (latchOrder s).tenon = s.tenon ∧ (latchOrder s).power = s.power ∧ (latchOrder s).sec = s.sec ∧ (latchOrder s).jtag = s.jtag ∧
    (latchOrder s).waiting = s.waiting ∧ (latchOrder s).access = s.access ∧ (latchOrder s).fresh = s.fresh ∧
    (latchOrder s).pending = s.pending := by
  simp only [latchOrder]; (repeat' split) <;> (repeat' apply And.intro) <;> (try simp) <;> (repeat refine (foldl_proj _ _ (fun _ _ => ?_) _ _).trans ?_) <;> (repeat' split) <;> (try simp) <;> (repeat' split) <;> simp

@[simp] theorem latchRefine_same (s : State) :
    (latchRefine s).frame = s.frame ∧ (latchRefine s).cfg = s.cfg ∧ (latchRefine s).world = s.world ∧
    (latchRefine s).ledger = s.ledger ∧ (latchRefine s).order = s.order ∧ (latchRefine s).solver = s.solver ∧
    (latchRefine s).spec = s.spec ∧ (latchRefine s).jig = s.jig ∧ (latchRefine s).safety = s.safety ∧
    (latchRefine s).pins = s.pins ∧ (latchRefine s).die = s.die ∧ (latchRefine s).fault = s.fault ∧
    (latchRefine s).digest = s.digest ∧ (latchRefine s).eth = s.eth ∧ (latchRefine s).tenon = s.tenon ∧
    (latchRefine s).power = s.power ∧ (latchRefine s).sec = s.sec ∧ (latchRefine s).jtag = s.jtag ∧
    (latchRefine s).waiting = s.waiting ∧ (latchRefine s).access = s.access ∧ (latchRefine s).pending = s.pending := by
  simp only [latchRefine]; (repeat' split) <;> (repeat' apply And.intro) <;> (try simp) <;> (repeat refine (foldl_proj _ _ (fun _ _ => ?_) _ _).trans ?_) <;> (repeat' split) <;> (try simp) <;> (repeat' split) <;> simp

@[simp] theorem latchEpoch_same (s : State) (img : Image) :
    (latchEpoch s img).frame = s.frame ∧ (latchEpoch s img).cfg = s.cfg ∧ (latchEpoch s img).world = s.world ∧
    (latchEpoch s img).ledger = s.ledger ∧ (latchEpoch s img).order = s.order ∧ (latchEpoch s img).solver = s.solver ∧
    (latchEpoch s img).spec = s.spec ∧ (latchEpoch s img).safety = s.safety ∧ (latchEpoch s img).pins = s.pins ∧
    (latchEpoch s img).die = s.die ∧ (latchEpoch s img).fault = s.fault ∧ (latchEpoch s img).digest = s.digest ∧
    (latchEpoch s img).eth = s.eth ∧ (latchEpoch s img).tenon = s.tenon ∧ (latchEpoch s img).power = s.power ∧
    (latchEpoch s img).sec = s.sec ∧ (latchEpoch s img).jtag = s.jtag ∧ (latchEpoch s img).waiting = s.waiting ∧
    (latchEpoch s img).access = s.access ∧ (latchEpoch s img).pending = s.pending := by
  simp only [latchEpoch]; (repeat' split) <;> (repeat' apply And.intro) <;> (try simp) <;> (repeat refine (foldl_proj _ _ (fun _ _ => ?_) _ _).trans ?_) <;> (repeat' split) <;> (try simp) <;> (repeat' split) <;> simp

@[simp] theorem advanceFloor_same (s : State) (seq : Nat) :
    (advanceFloor s seq).frame = s.frame ∧ (advanceFloor s seq).world = s.world ∧ (advanceFloor s seq).ledger = s.ledger ∧
    (advanceFloor s seq).order = s.order ∧ (advanceFloor s seq).solver = s.solver ∧ (advanceFloor s seq).spec = s.spec ∧
    (advanceFloor s seq).jig = s.jig ∧ (advanceFloor s seq).safety = s.safety ∧ (advanceFloor s seq).pins = s.pins ∧
    (advanceFloor s seq).die = s.die ∧ (advanceFloor s seq).fault = s.fault ∧ (advanceFloor s seq).digest = s.digest ∧
    (advanceFloor s seq).eth = s.eth ∧ (advanceFloor s seq).tenon = s.tenon ∧ (advanceFloor s seq).power = s.power ∧
    (advanceFloor s seq).sec = s.sec ∧ (advanceFloor s seq).jtag = s.jtag ∧ (advanceFloor s seq).waiting = s.waiting ∧
    (advanceFloor s seq).access = s.access ∧ (advanceFloor s seq).fresh = s.fresh ∧ (advanceFloor s seq).pending = s.pending := by
  simp [advanceFloor]

@[simp] theorem countAccept_same (s : State) (v : Nat) :
    (countAccept s v).frame = s.frame ∧ (countAccept s v).world = s.world ∧ (countAccept s v).ledger = s.ledger ∧
    (countAccept s v).order = s.order ∧ (countAccept s v).solver = s.solver ∧ (countAccept s v).spec = s.spec ∧
    (countAccept s v).jig = s.jig ∧ (countAccept s v).safety = s.safety ∧ (countAccept s v).pins = s.pins ∧
    (countAccept s v).die = s.die ∧ (countAccept s v).fault = s.fault ∧ (countAccept s v).digest = s.digest ∧
    (countAccept s v).eth = s.eth ∧ (countAccept s v).tenon = s.tenon ∧ (countAccept s v).power = s.power ∧
    (countAccept s v).sec = s.sec ∧ (countAccept s v).jtag = s.jtag ∧ (countAccept s v).waiting = s.waiting ∧
    (countAccept s v).access = s.access ∧ (countAccept s v).fresh = s.fresh ∧ (countAccept s v).pending = s.pending := by
  simp only [countAccept]; (repeat' split) <;> simp_all

@[simp] theorem closeDigests_same (s : State) (img : Image) :
    (closeDigests s img).1.frame = s.frame ∧ (closeDigests s img).1.cfg = s.cfg ∧ (closeDigests s img).1.world = s.world ∧
    (closeDigests s img).1.ledger = s.ledger ∧ (closeDigests s img).1.order = s.order ∧
    (closeDigests s img).1.solver = s.solver ∧ (closeDigests s img).1.spec = s.spec ∧ (closeDigests s img).1.jig = s.jig ∧
    (closeDigests s img).1.safety = s.safety ∧ (closeDigests s img).1.pins = s.pins ∧ (closeDigests s img).1.die = s.die ∧
    (closeDigests s img).1.fault = s.fault ∧ (closeDigests s img).1.eth = s.eth ∧ (closeDigests s img).1.tenon = s.tenon ∧
    (closeDigests s img).1.power = s.power ∧ (closeDigests s img).1.sec = s.sec ∧ (closeDigests s img).1.jtag = s.jtag ∧
    (closeDigests s img).1.waiting = s.waiting ∧ (closeDigests s img).1.access = s.access ∧
    (closeDigests s img).1.pending = s.pending := by
  simp only [closeDigests]; (repeat' split) <;> simp_all

@[simp] theorem publishVerdict_same (s : State) (img : Image) (k v : Nat) :
    (publishVerdict s img k v).frame = s.frame ∧ (publishVerdict s img k v).cfg = s.cfg ∧
    (publishVerdict s img k v).world = s.world ∧ (publishVerdict s img k v).ledger = s.ledger ∧
    (publishVerdict s img k v).order = s.order ∧ (publishVerdict s img k v).solver = s.solver ∧
    (publishVerdict s img k v).spec = s.spec ∧ (publishVerdict s img k v).jig = s.jig ∧ (publishVerdict s img k v).die = s.die ∧
    (publishVerdict s img k v).fault = s.fault ∧ (publishVerdict s img k v).digest = s.digest ∧
    (publishVerdict s img k v).eth = s.eth ∧ (publishVerdict s img k v).tenon = s.tenon ∧
    (publishVerdict s img k v).power = s.power ∧ (publishVerdict s img k v).sec = s.sec ∧
    (publishVerdict s img k v).jtag = s.jtag ∧ (publishVerdict s img k v).waiting = s.waiting ∧
    (publishVerdict s img k v).access = s.access ∧ (publishVerdict s img k v).fresh = s.fresh ∧
    (publishVerdict s img k v).pending = s.pending := by
  simp only [publishVerdict]; (repeat' split) <;> simp_all

@[simp] theorem releasePort_same (s : State) :
    (releasePort s).frame = s.frame ∧ (releasePort s).cfg = s.cfg ∧ (releasePort s).world = s.world ∧
    (releasePort s).ledger = s.ledger ∧ (releasePort s).order = s.order ∧ (releasePort s).solver = s.solver ∧
    (releasePort s).spec = s.spec ∧ (releasePort s).jig = s.jig ∧ (releasePort s).die = s.die ∧ (releasePort s).fault = s.fault ∧
    (releasePort s).digest = s.digest ∧ (releasePort s).eth = s.eth ∧ (releasePort s).tenon = s.tenon ∧
    (releasePort s).power = s.power ∧ (releasePort s).jtag = s.jtag ∧ (releasePort s).waiting = s.waiting ∧
    (releasePort s).access = s.access ∧ (releasePort s).fresh = s.fresh ∧ (releasePort s).pending = s.pending := by
  simp only [releasePort]; (repeat' split) <;> simp_all

@[simp] theorem sendFrameResult_same (s : State) (img : Image) (d : Nat × Nat × List Byte) :
    (sendFrameResult s img d).frame = s.frame ∧ (sendFrameResult s img d).cfg = s.cfg ∧
    (sendFrameResult s img d).world = s.world ∧ (sendFrameResult s img d).ledger = s.ledger ∧
    (sendFrameResult s img d).order = s.order ∧ (sendFrameResult s img d).solver = s.solver ∧
    (sendFrameResult s img d).spec = s.spec ∧ (sendFrameResult s img d).jig = s.jig ∧
    (sendFrameResult s img d).safety = s.safety ∧ (sendFrameResult s img d).pins = s.pins ∧
    (sendFrameResult s img d).die = s.die ∧ (sendFrameResult s img d).fault = s.fault ∧
    (sendFrameResult s img d).digest = s.digest ∧ (sendFrameResult s img d).tenon = s.tenon ∧
    (sendFrameResult s img d).power = s.power ∧ (sendFrameResult s img d).sec = s.sec ∧ (sendFrameResult s img d).jtag = s.jtag ∧
    (sendFrameResult s img d).waiting = s.waiting ∧ (sendFrameResult s img d).access = s.access ∧
    (sendFrameResult s img d).fresh = s.fresh ∧ (sendFrameResult s img d).pending = s.pending := by
  simp only [sendFrameResult]; (repeat' split) <;> (repeat' apply And.intro) <;> (try simp) <;> (repeat refine (foldl_proj _ _ (fun _ _ => ?_) _ _).trans ?_) <;> (repeat' split) <;> (try simp) <;> (repeat' split) <;> simp

@[simp] theorem chainCommit_same (s : State) (frame world : Nat) :
    (chainCommit s frame world).world = s.world ∧ (chainCommit s frame world).ledger = s.ledger ∧
    (chainCommit s frame world).order = s.order ∧ (chainCommit s frame world).die = s.die ∧
    (chainCommit s frame world).jtag = s.jtag ∧ (chainCommit s frame world).waiting = s.waiting ∧
    (chainCommit s frame world).access = s.access ∧ (chainCommit s frame world).pending = s.pending := by
  unfold chainCommit; (repeat' split) <;> simp

@[simp] theorem endCommit_same (s : State) (k now frameDigest : Nat) (rest : Option Int) :
    (endCommit s k now frameDigest rest).regs = s.regs ∧ (endCommit s k now frameDigest rest).cfg = s.cfg ∧
    (endCommit s k now frameDigest rest).ledger = s.ledger ∧ (endCommit s k now frameDigest rest).order = s.order ∧
    (endCommit s k now frameDigest rest).solver = s.solver ∧ (endCommit s k now frameDigest rest).spec = s.spec ∧
    (endCommit s k now frameDigest rest).jig = s.jig ∧ (endCommit s k now frameDigest rest).safety = s.safety ∧
    (endCommit s k now frameDigest rest).pins = s.pins ∧ (endCommit s k now frameDigest rest).die = s.die ∧
    (endCommit s k now frameDigest rest).fault = s.fault ∧ (endCommit s k now frameDigest rest).eth = s.eth ∧
    (endCommit s k now frameDigest rest).tenon = s.tenon ∧ (endCommit s k now frameDigest rest).sec = s.sec ∧
    (endCommit s k now frameDigest rest).jtag = s.jtag ∧ (endCommit s k now frameDigest rest).waiting = s.waiting ∧
    (endCommit s k now frameDigest rest).access = s.access ∧ (endCommit s k now frameDigest rest).fresh = s.fresh ∧
    (endCommit s k now frameDigest rest).pending = s.pending := by
  simp only [endCommit]; (repeat' split) <;> (repeat' apply And.intro) <;> (try simp) <;> (repeat refine (foldl_proj _ _ (fun _ _ => ?_) _ _).trans ?_) <;> (repeat' split) <;> (try simp) <;> (repeat' split) <;> simp

@[simp] theorem commitFrame_same (s : State) (img : Image) :
    (commitFrame s img).ledger = s.ledger ∧ (commitFrame s img).order = s.order ∧ (commitFrame s img).die = s.die ∧
    (commitFrame s img).jtag = s.jtag ∧ (commitFrame s img).waiting = s.waiting ∧ (commitFrame s img).access = s.access ∧
    (commitFrame s img).pending = s.pending := by
  simp only [commitFrame]; (repeat' split) <;> (repeat' apply And.intro) <;> (try simp) <;> (repeat refine (foldl_proj _ _ (fun _ _ => ?_) _ _).trans ?_) <;> (repeat' split) <;> (try simp) <;> (repeat' split) <;> simp

@[simp] theorem showSlots_same (s : State) :
    (showSlots s).frame = s.frame ∧ (showSlots s).cfg = s.cfg ∧ (showSlots s).world = s.world ∧ (showSlots s).ledger = s.ledger ∧
    (showSlots s).order = s.order ∧ (showSlots s).solver = s.solver ∧ (showSlots s).spec = s.spec ∧ (showSlots s).jig = s.jig ∧
    (showSlots s).safety = s.safety ∧ (showSlots s).pins = s.pins ∧ (showSlots s).die = s.die ∧ (showSlots s).fault = s.fault ∧
    (showSlots s).digest = s.digest ∧ (showSlots s).eth = s.eth ∧ (showSlots s).tenon = s.tenon ∧ (showSlots s).power = s.power ∧
    (showSlots s).sec = s.sec ∧ (showSlots s).jtag = s.jtag ∧ (showSlots s).waiting = s.waiting ∧
    (showSlots s).access = s.access ∧ (showSlots s).fresh = s.fresh ∧ (showSlots s).pending = s.pending := by
  simp [showSlots]

@[simp] theorem showValid_same (s : State) :
    (showValid s).frame = s.frame ∧ (showValid s).cfg = s.cfg ∧ (showValid s).world = s.world ∧ (showValid s).ledger = s.ledger ∧
    (showValid s).order = s.order ∧ (showValid s).solver = s.solver ∧ (showValid s).spec = s.spec ∧ (showValid s).jig = s.jig ∧
    (showValid s).safety = s.safety ∧ (showValid s).pins = s.pins ∧ (showValid s).die = s.die ∧ (showValid s).fault = s.fault ∧
    (showValid s).digest = s.digest ∧ (showValid s).eth = s.eth ∧ (showValid s).tenon = s.tenon ∧ (showValid s).power = s.power ∧
    (showValid s).sec = s.sec ∧ (showValid s).jtag = s.jtag ∧ (showValid s).waiting = s.waiting ∧
    (showValid s).access = s.access ∧ (showValid s).fresh = s.fresh ∧ (showValid s).pending = s.pending := by
  simp [showValid]

@[simp] theorem showFail_same (s : State) (f : LoadFail) :
    (showFail s f).frame = s.frame ∧ (showFail s f).cfg = s.cfg ∧ (showFail s f).world = s.world ∧
    (showFail s f).ledger = s.ledger ∧ (showFail s f).order = s.order ∧ (showFail s f).solver = s.solver ∧
    (showFail s f).spec = s.spec ∧ (showFail s f).jig = s.jig ∧ (showFail s f).safety = s.safety ∧ (showFail s f).pins = s.pins ∧
    (showFail s f).die = s.die ∧ (showFail s f).fault = s.fault ∧ (showFail s f).digest = s.digest ∧ (showFail s f).eth = s.eth ∧
    (showFail s f).tenon = s.tenon ∧ (showFail s f).power = s.power ∧ (showFail s f).sec = s.sec ∧ (showFail s f).jtag = s.jtag ∧
    (showFail s f).waiting = s.waiting ∧ (showFail s f).access = s.access ∧ (showFail s f).fresh = s.fresh ∧
    (showFail s f).pending = s.pending := by
  simp [showFail]

@[simp] theorem failLoad_same (s : State) (f : LoadFail) :
    (failLoad s f).frame = s.frame ∧ (failLoad s f).world = s.world ∧ (failLoad s f).ledger = s.ledger ∧
    (failLoad s f).order = s.order ∧ (failLoad s f).solver = s.solver ∧ (failLoad s f).spec = s.spec ∧
    (failLoad s f).jig = s.jig ∧ (failLoad s f).safety = s.safety ∧ (failLoad s f).pins = s.pins ∧ (failLoad s f).die = s.die ∧
    (failLoad s f).fault = s.fault ∧ (failLoad s f).digest = s.digest ∧ (failLoad s f).eth = s.eth ∧
    (failLoad s f).tenon = s.tenon ∧ (failLoad s f).power = s.power ∧ (failLoad s f).sec = s.sec ∧ (failLoad s f).jtag = s.jtag ∧
    (failLoad s f).waiting = s.waiting ∧ (failLoad s f).access = s.access ∧ (failLoad s f).fresh = s.fresh ∧
    (failLoad s f).pending = s.pending := by
  simp [failLoad]

@[simp] theorem setPushNext_same (s : State) (v : Nat) :
    (setPushNext s v).frame = s.frame ∧ (setPushNext s v).cfg = s.cfg ∧ (setPushNext s v).world = s.world ∧
    (setPushNext s v).ledger = s.ledger ∧ (setPushNext s v).order = s.order ∧ (setPushNext s v).solver = s.solver ∧
    (setPushNext s v).spec = s.spec ∧ (setPushNext s v).jig = s.jig ∧ (setPushNext s v).safety = s.safety ∧
    (setPushNext s v).pins = s.pins ∧ (setPushNext s v).die = s.die ∧ (setPushNext s v).fault = s.fault ∧
    (setPushNext s v).digest = s.digest ∧ (setPushNext s v).eth = s.eth ∧ (setPushNext s v).tenon = s.tenon ∧
    (setPushNext s v).power = s.power ∧ (setPushNext s v).sec = s.sec ∧ (setPushNext s v).jtag = s.jtag ∧
    (setPushNext s v).waiting = s.waiting ∧ (setPushNext s v).access = s.access ∧ (setPushNext s v).fresh = s.fresh ∧
    (setPushNext s v).pending = s.pending := by
  simp [setPushNext]

@[simp] theorem goOn_same (s : State) (l : Loading) (from_ : Nat) :
    (goOn s l from_).frame = s.frame ∧ (goOn s l from_).world = s.world ∧ (goOn s l from_).ledger = s.ledger ∧
    (goOn s l from_).order = s.order ∧ (goOn s l from_).solver = s.solver ∧ (goOn s l from_).spec = s.spec ∧
    (goOn s l from_).jig = s.jig ∧ (goOn s l from_).safety = s.safety ∧ (goOn s l from_).pins = s.pins ∧
    (goOn s l from_).die = s.die ∧ (goOn s l from_).fault = s.fault ∧ (goOn s l from_).digest = s.digest ∧
    (goOn s l from_).eth = s.eth ∧ (goOn s l from_).tenon = s.tenon ∧ (goOn s l from_).power = s.power ∧
    (goOn s l from_).sec = s.sec ∧ (goOn s l from_).jtag = s.jtag ∧ (goOn s l from_).waiting = s.waiting ∧
    (goOn s l from_).access = s.access ∧ (goOn s l from_).fresh = s.fresh ∧ (goOn s l from_).pending = s.pending := by
  simp only [goOn]; (repeat' split) <;> simp_all

@[simp] theorem beginLoad_same (s : State) (i : Nat) :
    (beginLoad s i).frame = s.frame ∧ (beginLoad s i).world = s.world ∧ (beginLoad s i).ledger = s.ledger ∧
    (beginLoad s i).order = s.order ∧ (beginLoad s i).solver = s.solver ∧ (beginLoad s i).spec = s.spec ∧
    (beginLoad s i).jig = s.jig ∧ (beginLoad s i).safety = s.safety ∧ (beginLoad s i).pins = s.pins ∧
    (beginLoad s i).die = s.die ∧ (beginLoad s i).fault = s.fault ∧ (beginLoad s i).digest = s.digest ∧
    (beginLoad s i).eth = s.eth ∧ (beginLoad s i).tenon = s.tenon ∧ (beginLoad s i).power = s.power ∧
    (beginLoad s i).sec = s.sec ∧ (beginLoad s i).jtag = s.jtag ∧ (beginLoad s i).waiting = s.waiting ∧
    (beginLoad s i).access = s.access ∧ (beginLoad s i).fresh = s.fresh ∧ (beginLoad s i).pending = s.pending := by
  simp only [beginLoad]; (repeat' split) <;> simp_all

@[simp] theorem bulkData_same (s : State) (l : Loading) (data : Option (List Byte)) :
    (bulkData s l data).frame = s.frame ∧ (bulkData s l data).world = s.world ∧ (bulkData s l data).ledger = s.ledger ∧
    (bulkData s l data).order = s.order ∧ (bulkData s l data).solver = s.solver ∧ (bulkData s l data).spec = s.spec ∧
    (bulkData s l data).jig = s.jig ∧ (bulkData s l data).safety = s.safety ∧ (bulkData s l data).pins = s.pins ∧
    (bulkData s l data).die = s.die ∧ (bulkData s l data).fault = s.fault ∧ (bulkData s l data).digest = s.digest ∧
    (bulkData s l data).eth = s.eth ∧ (bulkData s l data).tenon = s.tenon ∧ (bulkData s l data).power = s.power ∧
    (bulkData s l data).sec = s.sec ∧ (bulkData s l data).jtag = s.jtag ∧ (bulkData s l data).waiting = s.waiting ∧
    (bulkData s l data).access = s.access ∧ (bulkData s l data).fresh = s.fresh ∧ (bulkData s l data).pending = s.pending := by
  simp only [bulkData]; (repeat' split) <;> simp_all

@[simp] theorem setStreams_same (f : Nat → Field) (v : Nat → Nat) (s : State) :
    (setStreams f v s).frame = s.frame ∧ (setStreams f v s).cfg = s.cfg ∧ (setStreams f v s).world = s.world ∧
    (setStreams f v s).ledger = s.ledger ∧ (setStreams f v s).order = s.order ∧ (setStreams f v s).solver = s.solver ∧
    (setStreams f v s).spec = s.spec ∧ (setStreams f v s).jig = s.jig ∧ (setStreams f v s).safety = s.safety ∧
    (setStreams f v s).pins = s.pins ∧ (setStreams f v s).die = s.die ∧ (setStreams f v s).fault = s.fault ∧
    (setStreams f v s).digest = s.digest ∧ (setStreams f v s).eth = s.eth ∧ (setStreams f v s).tenon = s.tenon ∧
    (setStreams f v s).power = s.power ∧ (setStreams f v s).sec = s.sec ∧ (setStreams f v s).jtag = s.jtag ∧
    (setStreams f v s).waiting = s.waiting ∧ (setStreams f v s).access = s.access ∧ (setStreams f v s).fresh = s.fresh ∧
    (setStreams f v s).pending = s.pending := by
  simp [setStreams]

@[simp] theorem installPower_same (s : State) (i : Image) :
    (installPower s i).frame = s.frame ∧ (installPower s i).cfg = s.cfg ∧ (installPower s i).world = s.world ∧
    (installPower s i).ledger = s.ledger ∧ (installPower s i).order = s.order ∧ (installPower s i).solver = s.solver ∧
    (installPower s i).spec = s.spec ∧ (installPower s i).jig = s.jig ∧ (installPower s i).safety = s.safety ∧
    (installPower s i).pins = s.pins ∧ (installPower s i).die = s.die ∧ (installPower s i).fault = s.fault ∧
    (installPower s i).digest = s.digest ∧ (installPower s i).eth = s.eth ∧ (installPower s i).tenon = s.tenon ∧
    (installPower s i).power = s.power ∧ (installPower s i).sec = s.sec ∧ (installPower s i).jtag = s.jtag ∧
    (installPower s i).waiting = s.waiting ∧ (installPower s i).access = s.access ∧ (installPower s i).fresh = s.fresh ∧
    (installPower s i).pending = s.pending := by
  simp [installPower]

@[simp] theorem installFields_same (s : State) (i : Image) (bulk : List BulkData) :
    (installFields s i bulk).frame = s.frame ∧ (installFields s i bulk).cfg = s.cfg ∧ (installFields s i bulk).world = s.world ∧
    (installFields s i bulk).ledger = s.ledger ∧ (installFields s i bulk).order = s.order ∧
    (installFields s i bulk).solver = s.solver ∧ (installFields s i bulk).spec = s.spec ∧ (installFields s i bulk).jig = s.jig ∧
    (installFields s i bulk).safety = s.safety ∧ (installFields s i bulk).pins = s.pins ∧ (installFields s i bulk).die = s.die ∧
    (installFields s i bulk).fault = s.fault ∧ (installFields s i bulk).digest = s.digest ∧
    (installFields s i bulk).eth = s.eth ∧ (installFields s i bulk).tenon = s.tenon ∧ (installFields s i bulk).power = s.power ∧
    (installFields s i bulk).sec = s.sec ∧ (installFields s i bulk).jtag = s.jtag ∧
    (installFields s i bulk).waiting = s.waiting ∧ (installFields s i bulk).access = s.access ∧
    (installFields s i bulk).fresh = s.fresh ∧ (installFields s i bulk).pending = s.pending := by
  unfold installFields; (repeat' split) <;> simp

@[simp] theorem eraseKeys_same (s : State) :
    (eraseKeys s).frame = s.frame ∧ (eraseKeys s).cfg = s.cfg ∧ (eraseKeys s).world = s.world ∧ (eraseKeys s).ledger = s.ledger ∧
    (eraseKeys s).order = s.order ∧ (eraseKeys s).solver = s.solver ∧ (eraseKeys s).spec = s.spec ∧ (eraseKeys s).jig = s.jig ∧
    (eraseKeys s).safety = s.safety ∧ (eraseKeys s).pins = s.pins ∧ (eraseKeys s).die = s.die ∧ (eraseKeys s).fault = s.fault ∧
    (eraseKeys s).digest = s.digest ∧ (eraseKeys s).tenon = s.tenon ∧ (eraseKeys s).power = s.power ∧ (eraseKeys s).sec = s.sec ∧
    (eraseKeys s).jtag = s.jtag ∧ (eraseKeys s).waiting = s.waiting ∧ (eraseKeys s).access = s.access ∧
    (eraseKeys s).fresh = s.fresh ∧ (eraseKeys s).pending = s.pending := by
  simp only [eraseKeys]; (repeat' split) <;> (repeat' apply And.intro) <;> (try simp) <;> (repeat refine (foldl_proj _ _ (fun _ _ => ?_) _ _).trans ?_) <;> (repeat' split) <;> (try simp) <;> (repeat' split) <;> simp

@[simp] theorem restartSequences_same (s : State) :
    (restartSequences s).frame = s.frame ∧ (restartSequences s).cfg = s.cfg ∧ (restartSequences s).ledger = s.ledger ∧
    (restartSequences s).order = s.order ∧ (restartSequences s).solver = s.solver ∧ (restartSequences s).spec = s.spec ∧
    (restartSequences s).jig = s.jig ∧ (restartSequences s).safety = s.safety ∧ (restartSequences s).pins = s.pins ∧
    (restartSequences s).die = s.die ∧ (restartSequences s).fault = s.fault ∧ (restartSequences s).digest = s.digest ∧
    (restartSequences s).tenon = s.tenon ∧ (restartSequences s).power = s.power ∧ (restartSequences s).sec = s.sec ∧
    (restartSequences s).jtag = s.jtag ∧ (restartSequences s).waiting = s.waiting ∧ (restartSequences s).access = s.access ∧
    (restartSequences s).fresh = s.fresh ∧ (restartSequences s).pending = s.pending := by
  simp [restartSequences]

@[simp] theorem rebase_same (s : State) :
    (rebase s).frame = s.frame ∧ (rebase s).cfg = s.cfg ∧ (rebase s).safety = s.safety ∧ (rebase s).pins = s.pins ∧
    (rebase s).die = s.die ∧ (rebase s).eth = s.eth ∧ (rebase s).tenon = s.tenon ∧ (rebase s).power = s.power ∧
    (rebase s).sec = s.sec ∧ (rebase s).jtag = s.jtag ∧ (rebase s).waiting = s.waiting ∧ (rebase s).access = s.access ∧
    (rebase s).fresh = s.fresh ∧ (rebase s).pending = s.pending := by
  simp [rebase]

@[simp] theorem install_same (s : State) (img : Image) (bulk : List BulkData) (i q : Nat) :
    (install s img bulk i q).frame = s.frame ∧ (install s img bulk i q).pins = s.pins ∧ (install s img bulk i q).die = s.die ∧
    (install s img bulk i q).tenon = s.tenon ∧ (install s img bulk i q).power = s.power ∧
    (install s img bulk i q).jtag = s.jtag ∧ (install s img bulk i q).waiting = s.waiting ∧
    (install s img bulk i q).access = s.access ∧ (install s img bulk i q).fresh = s.fresh ∧
    (install s img bulk i q).pending = s.pending := by
  simp [install]

@[simp] theorem slotResult_same (s : State) (r : Nat) :
    (slotResult s r).frame = s.frame ∧ (slotResult s r).cfg = s.cfg ∧ (slotResult s r).world = s.world ∧
    (slotResult s r).ledger = s.ledger ∧ (slotResult s r).order = s.order ∧ (slotResult s r).solver = s.solver ∧
    (slotResult s r).spec = s.spec ∧ (slotResult s r).jig = s.jig ∧ (slotResult s r).safety = s.safety ∧
    (slotResult s r).pins = s.pins ∧ (slotResult s r).die = s.die ∧ (slotResult s r).fault = s.fault ∧
    (slotResult s r).digest = s.digest ∧ (slotResult s r).eth = s.eth ∧ (slotResult s r).tenon = s.tenon ∧
    (slotResult s r).power = s.power ∧ (slotResult s r).sec = s.sec ∧ (slotResult s r).jtag = s.jtag ∧
    (slotResult s r).waiting = s.waiting ∧ (slotResult s r).access = s.access ∧ (slotResult s r).fresh = s.fresh ∧
    (slotResult s r).pending = s.pending := by
  simp [slotResult]

@[simp] theorem chestStart_same (s : State) (k : Nat) :
    (chestStart s k).frame = s.frame ∧ (chestStart s k).world = s.world ∧ (chestStart s k).ledger = s.ledger ∧
    (chestStart s k).order = s.order ∧ (chestStart s k).solver = s.solver ∧ (chestStart s k).spec = s.spec ∧
    (chestStart s k).jig = s.jig ∧ (chestStart s k).safety = s.safety ∧ (chestStart s k).pins = s.pins ∧
    (chestStart s k).die = s.die ∧ (chestStart s k).fault = s.fault ∧ (chestStart s k).digest = s.digest ∧
    (chestStart s k).eth = s.eth ∧ (chestStart s k).tenon = s.tenon ∧ (chestStart s k).power = s.power ∧
    (chestStart s k).sec = s.sec ∧ (chestStart s k).jtag = s.jtag ∧ (chestStart s k).waiting = s.waiting ∧
    (chestStart s k).access = s.access ∧ (chestStart s k).fresh = s.fresh ∧ (chestStart s k).pending = s.pending := by
  simp [chestStart]

@[simp] theorem chestEnd_same (s : State) (r : Nat) :
    (chestEnd s r).frame = s.frame ∧ (chestEnd s r).world = s.world ∧ (chestEnd s r).ledger = s.ledger ∧
    (chestEnd s r).order = s.order ∧ (chestEnd s r).solver = s.solver ∧ (chestEnd s r).spec = s.spec ∧
    (chestEnd s r).jig = s.jig ∧ (chestEnd s r).safety = s.safety ∧ (chestEnd s r).pins = s.pins ∧ (chestEnd s r).die = s.die ∧
    (chestEnd s r).fault = s.fault ∧ (chestEnd s r).digest = s.digest ∧ (chestEnd s r).eth = s.eth ∧
    (chestEnd s r).tenon = s.tenon ∧ (chestEnd s r).power = s.power ∧ (chestEnd s r).sec = s.sec ∧ (chestEnd s r).jtag = s.jtag ∧
    (chestEnd s r).waiting = s.waiting ∧ (chestEnd s r).access = s.access ∧ (chestEnd s r).fresh = s.fresh ∧
    (chestEnd s r).pending = s.pending := by
  simp [chestEnd]

@[simp] theorem State.setChest_same (s : State) (i : Nat) (sl : Slot) :
    (State.setChest s i sl).frame = s.frame ∧ (State.setChest s i sl).world = s.world ∧
    (State.setChest s i sl).ledger = s.ledger ∧ (State.setChest s i sl).order = s.order ∧
    (State.setChest s i sl).solver = s.solver ∧ (State.setChest s i sl).spec = s.spec ∧ (State.setChest s i sl).jig = s.jig ∧
    (State.setChest s i sl).safety = s.safety ∧ (State.setChest s i sl).pins = s.pins ∧ (State.setChest s i sl).die = s.die ∧
    (State.setChest s i sl).fault = s.fault ∧ (State.setChest s i sl).digest = s.digest ∧ (State.setChest s i sl).eth = s.eth ∧
    (State.setChest s i sl).tenon = s.tenon ∧ (State.setChest s i sl).power = s.power ∧ (State.setChest s i sl).sec = s.sec ∧
    (State.setChest s i sl).jtag = s.jtag ∧ (State.setChest s i sl).waiting = s.waiting ∧
    (State.setChest s i sl).access = s.access ∧ (State.setChest s i sl).fresh = s.fresh ∧
    (State.setChest s i sl).pending = s.pending := by
  unfold State.setChest; (repeat' split) <;> simp

@[simp] theorem finishSlotWrite_same (s : State) (r : Nat) :
    (finishSlotWrite s r).frame = s.frame ∧ (finishSlotWrite s r).world = s.world ∧ (finishSlotWrite s r).ledger = s.ledger ∧
    (finishSlotWrite s r).order = s.order ∧ (finishSlotWrite s r).solver = s.solver ∧ (finishSlotWrite s r).spec = s.spec ∧
    (finishSlotWrite s r).jig = s.jig ∧ (finishSlotWrite s r).safety = s.safety ∧ (finishSlotWrite s r).pins = s.pins ∧
    (finishSlotWrite s r).die = s.die ∧ (finishSlotWrite s r).digest = s.digest ∧ (finishSlotWrite s r).eth = s.eth ∧
    (finishSlotWrite s r).tenon = s.tenon ∧ (finishSlotWrite s r).power = s.power ∧ (finishSlotWrite s r).sec = s.sec ∧
    (finishSlotWrite s r).jtag = s.jtag ∧ (finishSlotWrite s r).waiting = s.waiting ∧ (finishSlotWrite s r).access = s.access ∧
    (finishSlotWrite s r).fresh = s.fresh ∧ (finishSlotWrite s r).pending = s.pending := by
  simp [finishSlotWrite]

@[simp] theorem slotOpen_same (src : Source) (s : State) :
    (slotOpen src s).frame = s.frame ∧ (slotOpen src s).world = s.world ∧ (slotOpen src s).ledger = s.ledger ∧
    (slotOpen src s).order = s.order ∧ (slotOpen src s).solver = s.solver ∧ (slotOpen src s).spec = s.spec ∧
    (slotOpen src s).jig = s.jig ∧ (slotOpen src s).safety = s.safety ∧ (slotOpen src s).pins = s.pins ∧
    (slotOpen src s).die = s.die ∧ (slotOpen src s).digest = s.digest ∧ (slotOpen src s).eth = s.eth ∧
    (slotOpen src s).tenon = s.tenon ∧ (slotOpen src s).power = s.power ∧ (slotOpen src s).sec = s.sec ∧
    (slotOpen src s).jtag = s.jtag ∧ (slotOpen src s).waiting = s.waiting ∧ (slotOpen src s).access = s.access ∧
    (slotOpen src s).fresh = s.fresh ∧ (slotOpen src s).pending = s.pending := by
  simp only [slotOpen]; (repeat' split) <;> simp_all

@[simp] theorem slotDataBlock_same (src : Source) (value : Word) (s : State) :
    (slotDataBlock src value s).frame = s.frame ∧ (slotDataBlock src value s).world = s.world ∧
    (slotDataBlock src value s).ledger = s.ledger ∧ (slotDataBlock src value s).order = s.order ∧
    (slotDataBlock src value s).solver = s.solver ∧ (slotDataBlock src value s).spec = s.spec ∧
    (slotDataBlock src value s).jig = s.jig ∧ (slotDataBlock src value s).safety = s.safety ∧
    (slotDataBlock src value s).pins = s.pins ∧ (slotDataBlock src value s).die = s.die ∧
    (slotDataBlock src value s).fault = s.fault ∧ (slotDataBlock src value s).digest = s.digest ∧
    (slotDataBlock src value s).eth = s.eth ∧ (slotDataBlock src value s).tenon = s.tenon ∧
    (slotDataBlock src value s).power = s.power ∧ (slotDataBlock src value s).sec = s.sec ∧
    (slotDataBlock src value s).jtag = s.jtag ∧ (slotDataBlock src value s).waiting = s.waiting ∧
    (slotDataBlock src value s).access = s.access ∧ (slotDataBlock src value s).fresh = s.fresh ∧
    (slotDataBlock src value s).pending = s.pending := by
  simp only [slotDataBlock]; (repeat' split) <;> simp_all

@[simp] theorem slotClose_same (src : Source) (s : State) :
    (slotClose src s).frame = s.frame ∧ (slotClose src s).world = s.world ∧ (slotClose src s).ledger = s.ledger ∧
    (slotClose src s).order = s.order ∧ (slotClose src s).solver = s.solver ∧ (slotClose src s).spec = s.spec ∧
    (slotClose src s).jig = s.jig ∧ (slotClose src s).safety = s.safety ∧ (slotClose src s).pins = s.pins ∧
    (slotClose src s).die = s.die ∧ (slotClose src s).fault = s.fault ∧ (slotClose src s).digest = s.digest ∧
    (slotClose src s).eth = s.eth ∧ (slotClose src s).tenon = s.tenon ∧ (slotClose src s).power = s.power ∧
    (slotClose src s).sec = s.sec ∧ (slotClose src s).jtag = s.jtag ∧ (slotClose src s).waiting = s.waiting ∧
    (slotClose src s).access = s.access ∧ (slotClose src s).fresh = s.fresh ∧ (slotClose src s).pending = s.pending := by
  unfold slotClose; (repeat' split) <;> simp

@[simp] theorem slotAbort_same (src : Source) (s : State) :
    (slotAbort src s).frame = s.frame ∧ (slotAbort src s).world = s.world ∧ (slotAbort src s).ledger = s.ledger ∧
    (slotAbort src s).order = s.order ∧ (slotAbort src s).solver = s.solver ∧ (slotAbort src s).spec = s.spec ∧
    (slotAbort src s).jig = s.jig ∧ (slotAbort src s).safety = s.safety ∧ (slotAbort src s).pins = s.pins ∧
    (slotAbort src s).die = s.die ∧ (slotAbort src s).digest = s.digest ∧ (slotAbort src s).eth = s.eth ∧
    (slotAbort src s).tenon = s.tenon ∧ (slotAbort src s).power = s.power ∧ (slotAbort src s).sec = s.sec ∧
    (slotAbort src s).jtag = s.jtag ∧ (slotAbort src s).waiting = s.waiting ∧ (slotAbort src s).access = s.access ∧
    (slotAbort src s).fresh = s.fresh ∧ (slotAbort src s).pending = s.pending := by
  unfold slotAbort; (repeat' split) <;> simp

@[simp] theorem setQuiesced_same (s : State) (b : Nat) :
    (setQuiesced s b).frame = s.frame ∧ (setQuiesced s b).cfg = s.cfg ∧ (setQuiesced s b).world = s.world ∧
    (setQuiesced s b).ledger = s.ledger ∧ (setQuiesced s b).order = s.order ∧ (setQuiesced s b).solver = s.solver ∧
    (setQuiesced s b).spec = s.spec ∧ (setQuiesced s b).jig = s.jig ∧ (setQuiesced s b).safety = s.safety ∧
    (setQuiesced s b).pins = s.pins ∧ (setQuiesced s b).die = s.die ∧ (setQuiesced s b).fault = s.fault ∧
    (setQuiesced s b).digest = s.digest ∧ (setQuiesced s b).eth = s.eth ∧ (setQuiesced s b).tenon = s.tenon ∧
    (setQuiesced s b).power = s.power ∧ (setQuiesced s b).sec = s.sec ∧ (setQuiesced s b).jtag = s.jtag ∧
    (setQuiesced s b).waiting = s.waiting ∧ (setQuiesced s b).access = s.access ∧ (setQuiesced s b).fresh = s.fresh ∧
    (setQuiesced s b).pending = s.pending := by
  simp [setQuiesced]

@[simp] theorem quiesceRequest_same (src : Source) (mask : Nat) (s : State) :
    (quiesceRequest src mask s).frame = s.frame ∧ (quiesceRequest src mask s).cfg = s.cfg ∧
    (quiesceRequest src mask s).world = s.world ∧ (quiesceRequest src mask s).ledger = s.ledger ∧
    (quiesceRequest src mask s).order = s.order ∧ (quiesceRequest src mask s).solver = s.solver ∧
    (quiesceRequest src mask s).spec = s.spec ∧ (quiesceRequest src mask s).jig = s.jig ∧
    (quiesceRequest src mask s).safety = s.safety ∧ (quiesceRequest src mask s).pins = s.pins ∧
    (quiesceRequest src mask s).die = s.die ∧ (quiesceRequest src mask s).fault = s.fault ∧
    (quiesceRequest src mask s).digest = s.digest ∧ (quiesceRequest src mask s).eth = s.eth ∧
    (quiesceRequest src mask s).tenon = s.tenon ∧ (quiesceRequest src mask s).power = s.power ∧
    (quiesceRequest src mask s).sec = s.sec ∧ (quiesceRequest src mask s).jtag = s.jtag ∧
    (quiesceRequest src mask s).waiting = s.waiting ∧ (quiesceRequest src mask s).access = s.access ∧
    (quiesceRequest src mask s).fresh = s.fresh ∧ (quiesceRequest src mask s).pending = s.pending := by
  simp only [quiesceRequest]; (repeat' split) <;> (repeat' apply And.intro) <;> (try simp) <;> (repeat refine (foldl_proj _ _ (fun _ _ => ?_) _ _).trans ?_) <;> (repeat' split) <;> (try simp) <;> (repeat' split) <;> simp

@[simp] theorem showBinding_same (s : State) :
    (showBinding s).frame = s.frame ∧ (showBinding s).cfg = s.cfg ∧ (showBinding s).world = s.world ∧
    (showBinding s).ledger = s.ledger ∧ (showBinding s).order = s.order ∧ (showBinding s).solver = s.solver ∧
    (showBinding s).spec = s.spec ∧ (showBinding s).jig = s.jig ∧ (showBinding s).safety = s.safety ∧
    (showBinding s).pins = s.pins ∧ (showBinding s).die = s.die ∧ (showBinding s).fault = s.fault ∧
    (showBinding s).digest = s.digest ∧ (showBinding s).eth = s.eth ∧ (showBinding s).tenon = s.tenon ∧
    (showBinding s).power = s.power ∧ (showBinding s).sec = s.sec ∧ (showBinding s).jtag = s.jtag ∧
    (showBinding s).waiting = s.waiting ∧ (showBinding s).access = s.access ∧ (showBinding s).fresh = s.fresh ∧
    (showBinding s).pending = s.pending := by
  simp [showBinding]

@[simp] theorem rebindTiles_same (s : State) :
    (rebindTiles s).frame = s.frame ∧ (rebindTiles s).cfg = s.cfg ∧ (rebindTiles s).world = s.world ∧
    (rebindTiles s).ledger = s.ledger ∧ (rebindTiles s).order = s.order ∧ (rebindTiles s).solver = s.solver ∧
    (rebindTiles s).spec = s.spec ∧ (rebindTiles s).jig = s.jig ∧ (rebindTiles s).safety = s.safety ∧
    (rebindTiles s).pins = s.pins ∧ (rebindTiles s).fault = s.fault ∧ (rebindTiles s).digest = s.digest ∧
    (rebindTiles s).eth = s.eth ∧ (rebindTiles s).tenon = s.tenon ∧ (rebindTiles s).power = s.power ∧
    (rebindTiles s).sec = s.sec ∧ (rebindTiles s).jtag = s.jtag ∧ (rebindTiles s).waiting = s.waiting ∧
    (rebindTiles s).access = s.access ∧ (rebindTiles s).fresh = s.fresh ∧ (rebindTiles s).pending = s.pending := by
  simp only [rebindTiles]; (repeat' split) <;> (repeat' apply And.intro) <;> (try simp) <;> (repeat refine (foldl_proj _ _ (fun _ _ => ?_) _ _).trans ?_) <;> (repeat' split) <;> (try simp) <;> (repeat' split) <;> simp

@[simp] theorem retireUnit_same (s : State) (cls idx mech : Nat) :
    (retireUnit s cls idx mech).world = s.world ∧ (retireUnit s cls idx mech).ledger = s.ledger ∧
    (retireUnit s cls idx mech).order = s.order ∧ (retireUnit s cls idx mech).solver = s.solver ∧
    (retireUnit s cls idx mech).die = s.die ∧ (retireUnit s cls idx mech).jtag = s.jtag ∧
    (retireUnit s cls idx mech).waiting = s.waiting ∧ (retireUnit s cls idx mech).access = s.access ∧
    (retireUnit s cls idx mech).pending = s.pending := by
  simp only [retireUnit]; (repeat' split) <;> simp_all

@[simp] theorem countEcc_same (s : State) (e : ErrorInfo) :
    (countEcc s e).frame = s.frame ∧ (countEcc s e).cfg = s.cfg ∧ (countEcc s e).world = s.world ∧
    (countEcc s e).ledger = s.ledger ∧ (countEcc s e).order = s.order ∧ (countEcc s e).solver = s.solver ∧
    (countEcc s e).spec = s.spec ∧ (countEcc s e).jig = s.jig ∧ (countEcc s e).safety = s.safety ∧ (countEcc s e).pins = s.pins ∧
    (countEcc s e).die = s.die ∧ (countEcc s e).fault = s.fault ∧ (countEcc s e).digest = s.digest ∧ (countEcc s e).eth = s.eth ∧
    (countEcc s e).tenon = s.tenon ∧ (countEcc s e).power = s.power ∧ (countEcc s e).sec = s.sec ∧ (countEcc s e).jtag = s.jtag ∧
    (countEcc s e).waiting = s.waiting ∧ (countEcc s e).access = s.access ∧ (countEcc s e).fresh = s.fresh ∧
    (countEcc s e).pending = s.pending := by
  unfold countEcc; (repeat' split) <;> simp

@[simp] theorem staleBank_same (s : State) (c : Nat) :
    (staleBank s c).frame = s.frame ∧ (staleBank s c).cfg = s.cfg ∧ (staleBank s c).world = s.world ∧
    (staleBank s c).order = s.order ∧ (staleBank s c).solver = s.solver ∧ (staleBank s c).spec = s.spec ∧
    (staleBank s c).jig = s.jig ∧ (staleBank s c).safety = s.safety ∧ (staleBank s c).pins = s.pins ∧
    (staleBank s c).die = s.die ∧ (staleBank s c).fault = s.fault ∧ (staleBank s c).digest = s.digest ∧
    (staleBank s c).eth = s.eth ∧ (staleBank s c).tenon = s.tenon ∧ (staleBank s c).power = s.power ∧
    (staleBank s c).sec = s.sec ∧ (staleBank s c).jtag = s.jtag ∧ (staleBank s c).waiting = s.waiting ∧
    (staleBank s c).access = s.access ∧ (staleBank s c).fresh = s.fresh ∧ (staleBank s c).pending = s.pending := by
  unfold staleBank; (repeat' split) <;> simp

@[simp] theorem replaceBank_same (s : State) (g : Nat) :
    (replaceBank s g).world = s.world ∧ (replaceBank s g).order = s.order ∧ (replaceBank s g).solver = s.solver ∧
    (replaceBank s g).jtag = s.jtag ∧ (replaceBank s g).waiting = s.waiting ∧ (replaceBank s g).access = s.access ∧
    (replaceBank s g).pending = s.pending := by
  unfold replaceBank; (repeat' split) <;> simp

@[simp] theorem offerCopy_same (s : State) (img : Image) (d : DoneTask) (equal : Bool) :
    (offerCopy s img d equal).world = s.world ∧ (offerCopy s img d equal).ledger = s.ledger ∧
    (offerCopy s img d equal).solver = s.solver ∧ (offerCopy s img d equal).die = s.die ∧
    (offerCopy s img d equal).jtag = s.jtag ∧ (offerCopy s img d equal).waiting = s.waiting ∧
    (offerCopy s img d equal).access = s.access ∧ (offerCopy s img d equal).pending = s.pending := by
  simp only [offerCopy]; (repeat' split) <;> (repeat' apply And.intro) <;> (try simp) <;> (repeat refine (foldl_proj _ _ (fun _ _ => ?_) _ _).trans ?_) <;> (repeat' split) <;> (try simp) <;> (repeat' split) <;> simp

@[simp] theorem endTest_same (s : State) (cls idx : Nat) (pass : Bool) :
    (endTest s cls idx pass).world = s.world ∧ (endTest s cls idx pass).ledger = s.ledger ∧
    (endTest s cls idx pass).order = s.order ∧ (endTest s cls idx pass).solver = s.solver ∧
    (endTest s cls idx pass).die = s.die ∧ (endTest s cls idx pass).jtag = s.jtag ∧
    (endTest s cls idx pass).waiting = s.waiting ∧ (endTest s cls idx pass).access = s.access ∧
    (endTest s cls idx pass).pending = s.pending := by
  simp only [endTest]; (repeat' split) <;> (repeat' apply And.intro) <;> (try simp) <;> (repeat refine (foldl_proj _ _ (fun _ _ => ?_) _ _).trans ?_) <;> (repeat' split) <;> (try simp) <;> (repeat' split) <;> simp

@[simp] theorem faultTestCmd_same (src : Source) (value : Word) (s : State) :
    (faultTestCmd src value s).frame = s.frame ∧ (faultTestCmd src value s).cfg = s.cfg ∧
    (faultTestCmd src value s).world = s.world ∧ (faultTestCmd src value s).ledger = s.ledger ∧
    (faultTestCmd src value s).order = s.order ∧ (faultTestCmd src value s).spec = s.spec ∧
    (faultTestCmd src value s).jig = s.jig ∧ (faultTestCmd src value s).safety = s.safety ∧
    (faultTestCmd src value s).pins = s.pins ∧ (faultTestCmd src value s).die = s.die ∧
    (faultTestCmd src value s).digest = s.digest ∧ (faultTestCmd src value s).eth = s.eth ∧
    (faultTestCmd src value s).tenon = s.tenon ∧ (faultTestCmd src value s).power = s.power ∧
    (faultTestCmd src value s).sec = s.sec ∧ (faultTestCmd src value s).jtag = s.jtag ∧
    (faultTestCmd src value s).waiting = s.waiting ∧ (faultTestCmd src value s).access = s.access ∧
    (faultTestCmd src value s).fresh = s.fresh ∧ (faultTestCmd src value s).pending = s.pending := by
  simp only [faultTestCmd]; (repeat' split) <;> simp_all

@[simp] theorem endSlice_same (s : State) (cls idx : Nat) :
    (endSlice s cls idx).frame = s.frame ∧ (endSlice s cls idx).cfg = s.cfg ∧ (endSlice s cls idx).world = s.world ∧
    (endSlice s cls idx).ledger = s.ledger ∧ (endSlice s cls idx).order = s.order ∧ (endSlice s cls idx).spec = s.spec ∧
    (endSlice s cls idx).safety = s.safety ∧ (endSlice s cls idx).pins = s.pins ∧ (endSlice s cls idx).die = s.die ∧
    (endSlice s cls idx).digest = s.digest ∧ (endSlice s cls idx).tenon = s.tenon ∧ (endSlice s cls idx).power = s.power ∧
    (endSlice s cls idx).sec = s.sec ∧ (endSlice s cls idx).jtag = s.jtag ∧ (endSlice s cls idx).waiting = s.waiting ∧
    (endSlice s cls idx).access = s.access ∧ (endSlice s cls idx).pending = s.pending := by
  simp only [endSlice]; (repeat' split) <;> simp_all

@[simp] theorem moveJob_same (s : State) (cls idx : Nat) :
    (moveJob s cls idx).frame = s.frame ∧ (moveJob s cls idx).cfg = s.cfg ∧ (moveJob s cls idx).world = s.world ∧
    (moveJob s cls idx).ledger = s.ledger ∧ (moveJob s cls idx).order = s.order ∧ (moveJob s cls idx).solver = s.solver ∧
    (moveJob s cls idx).spec = s.spec ∧ (moveJob s cls idx).safety = s.safety ∧ (moveJob s cls idx).pins = s.pins ∧
    (moveJob s cls idx).die = s.die ∧ (moveJob s cls idx).fault = s.fault ∧ (moveJob s cls idx).digest = s.digest ∧
    (moveJob s cls idx).tenon = s.tenon ∧ (moveJob s cls idx).power = s.power ∧ (moveJob s cls idx).sec = s.sec ∧
    (moveJob s cls idx).jtag = s.jtag ∧ (moveJob s cls idx).waiting = s.waiting ∧ (moveJob s cls idx).access = s.access ∧
    (moveJob s cls idx).fresh = s.fresh ∧ (moveJob s cls idx).pending = s.pending := by
  simp only [moveJob]; (repeat' split) <;> simp_all

@[simp] theorem arrive_same (s : State) (f : Frame) (t : Nat) :
    (arrive s f t).2.cfg = s.cfg ∧ (arrive s f t).2.world = s.world ∧ (arrive s f t).2.ledger = s.ledger ∧
    (arrive s f t).2.order = s.order ∧ (arrive s f t).2.solver = s.solver ∧ (arrive s f t).2.spec = s.spec ∧
    (arrive s f t).2.jig = s.jig ∧ (arrive s f t).2.safety = s.safety ∧ (arrive s f t).2.pins = s.pins ∧
    (arrive s f t).2.die = s.die ∧ (arrive s f t).2.fault = s.fault ∧ (arrive s f t).2.digest = s.digest ∧
    (arrive s f t).2.tenon = s.tenon ∧ (arrive s f t).2.power = s.power ∧ (arrive s f t).2.sec = s.sec ∧
    (arrive s f t).2.jtag = s.jtag ∧ (arrive s f t).2.waiting = s.waiting ∧ (arrive s f t).2.access = s.access ∧
    (arrive s f t).2.fresh = s.fresh ∧ (arrive s f t).2.pending = s.pending := by
  simp only [arrive]; (repeat' split) <;> (repeat' apply And.intro) <;> (try simp) <;> (repeat refine (foldl_proj _ _ (fun _ _ => ?_) _ _).trans ?_) <;> (repeat' split) <;> (try simp) <;> (repeat' split) <;> simp

@[simp] theorem rollKey_same (s : State) (img : Image) (f : Frame) :
    (rollKey s img f).frame = s.frame ∧ (rollKey s img f).cfg = s.cfg ∧ (rollKey s img f).world = s.world ∧
    (rollKey s img f).ledger = s.ledger ∧ (rollKey s img f).order = s.order ∧ (rollKey s img f).solver = s.solver ∧
    (rollKey s img f).spec = s.spec ∧ (rollKey s img f).jig = s.jig ∧ (rollKey s img f).safety = s.safety ∧
    (rollKey s img f).pins = s.pins ∧ (rollKey s img f).die = s.die ∧ (rollKey s img f).fault = s.fault ∧
    (rollKey s img f).digest = s.digest ∧ (rollKey s img f).tenon = s.tenon ∧ (rollKey s img f).power = s.power ∧
    (rollKey s img f).sec = s.sec ∧ (rollKey s img f).jtag = s.jtag ∧ (rollKey s img f).waiting = s.waiting ∧
    (rollKey s img f).access = s.access ∧ (rollKey s img f).fresh = s.fresh ∧ (rollKey s img f).pending = s.pending := by
  simp [rollKey]

@[simp] theorem showJobs_same (s : State) :
    (showJobs s).frame = s.frame ∧ (showJobs s).cfg = s.cfg ∧ (showJobs s).world = s.world ∧ (showJobs s).ledger = s.ledger ∧
    (showJobs s).order = s.order ∧ (showJobs s).solver = s.solver ∧ (showJobs s).spec = s.spec ∧ (showJobs s).jig = s.jig ∧
    (showJobs s).safety = s.safety ∧ (showJobs s).pins = s.pins ∧ (showJobs s).die = s.die ∧ (showJobs s).fault = s.fault ∧
    (showJobs s).digest = s.digest ∧ (showJobs s).eth = s.eth ∧ (showJobs s).tenon = s.tenon ∧ (showJobs s).power = s.power ∧
    (showJobs s).sec = s.sec ∧ (showJobs s).jtag = s.jtag ∧ (showJobs s).waiting = s.waiting ∧ (showJobs s).access = s.access ∧
    (showJobs s).fresh = s.fresh ∧ (showJobs s).pending = s.pending := by
  simp [showJobs]

@[simp] theorem stageFragment_same (s : State) (f : Frame) :
    (stageFragment s f).2.regs = s.regs ∧ (stageFragment s f).2.frame = s.frame ∧ (stageFragment s f).2.cfg = s.cfg ∧
    (stageFragment s f).2.world = s.world ∧ (stageFragment s f).2.ledger = s.ledger ∧ (stageFragment s f).2.order = s.order ∧
    (stageFragment s f).2.solver = s.solver ∧ (stageFragment s f).2.spec = s.spec ∧ (stageFragment s f).2.jig = s.jig ∧
    (stageFragment s f).2.safety = s.safety ∧ (stageFragment s f).2.pins = s.pins ∧ (stageFragment s f).2.die = s.die ∧
    (stageFragment s f).2.fault = s.fault ∧ (stageFragment s f).2.digest = s.digest ∧ (stageFragment s f).2.tenon = s.tenon ∧
    (stageFragment s f).2.power = s.power ∧ (stageFragment s f).2.sec = s.sec ∧ (stageFragment s f).2.jtag = s.jtag ∧
    (stageFragment s f).2.waiting = s.waiting ∧ (stageFragment s f).2.access = s.access ∧ (stageFragment s f).2.fresh = s.fresh ∧
    (stageFragment s f).2.pending = s.pending := by
  simp only [stageFragment]; split <;> (try split) <;> simp <;> grind

@[simp] theorem jobAck_same (s : State) (p id status reason : Nat) (start : Option Epoch) :
    (jobAck s p id status reason start).frame = s.frame ∧ (jobAck s p id status reason start).cfg = s.cfg ∧
    (jobAck s p id status reason start).world = s.world ∧ (jobAck s p id status reason start).ledger = s.ledger ∧
    (jobAck s p id status reason start).order = s.order ∧ (jobAck s p id status reason start).solver = s.solver ∧
    (jobAck s p id status reason start).spec = s.spec ∧ (jobAck s p id status reason start).jig = s.jig ∧
    (jobAck s p id status reason start).safety = s.safety ∧ (jobAck s p id status reason start).pins = s.pins ∧
    (jobAck s p id status reason start).die = s.die ∧ (jobAck s p id status reason start).fault = s.fault ∧
    (jobAck s p id status reason start).digest = s.digest ∧ (jobAck s p id status reason start).tenon = s.tenon ∧
    (jobAck s p id status reason start).power = s.power ∧ (jobAck s p id status reason start).sec = s.sec ∧
    (jobAck s p id status reason start).jtag = s.jtag ∧ (jobAck s p id status reason start).waiting = s.waiting ∧
    (jobAck s p id status reason start).access = s.access ∧ (jobAck s p id status reason start).pending = s.pending := by
  simp only [jobAck]; (repeat' split) <;> (repeat' apply And.intro) <;> (try simp) <;> (repeat refine (foldl_proj _ _ (fun _ _ => ?_) _ _).trans ?_) <;> (repeat' split) <;> (try simp) <;> (repeat' split) <;> simp

@[simp] theorem decideJob_same (s : State) (img : Image) (p : Nat) (x : Staging) (t : Nat) :
    (decideJob s img p x t).frame = s.frame ∧ (decideJob s img p x t).cfg = s.cfg ∧ (decideJob s img p x t).world = s.world ∧
    (decideJob s img p x t).ledger = s.ledger ∧ (decideJob s img p x t).order = s.order ∧
    (decideJob s img p x t).solver = s.solver ∧ (decideJob s img p x t).spec = s.spec ∧
    (decideJob s img p x t).safety = s.safety ∧ (decideJob s img p x t).pins = s.pins ∧ (decideJob s img p x t).die = s.die ∧
    (decideJob s img p x t).fault = s.fault ∧ (decideJob s img p x t).digest = s.digest ∧
    (decideJob s img p x t).tenon = s.tenon ∧ (decideJob s img p x t).power = s.power ∧ (decideJob s img p x t).sec = s.sec ∧
    (decideJob s img p x t).jtag = s.jtag ∧ (decideJob s img p x t).waiting = s.waiting ∧
    (decideJob s img p x t).access = s.access ∧ (decideJob s img p x t).pending = s.pending := by
  simp only [decideJob]; (repeat' split) <;> simp_all

@[simp] theorem submit_same (s : State) (f : Frame) (t : Nat) :
    (submit s f t).cfg = s.cfg ∧ (submit s f t).world = s.world ∧ (submit s f t).ledger = s.ledger ∧
    (submit s f t).order = s.order ∧ (submit s f t).solver = s.solver ∧ (submit s f t).spec = s.spec ∧
    (submit s f t).safety = s.safety ∧ (submit s f t).pins = s.pins ∧ (submit s f t).die = s.die ∧
    (submit s f t).fault = s.fault ∧ (submit s f t).digest = s.digest ∧ (submit s f t).tenon = s.tenon ∧
    (submit s f t).power = s.power ∧ (submit s f t).sec = s.sec ∧ (submit s f t).jtag = s.jtag ∧
    (submit s f t).waiting = s.waiting ∧ (submit s f t).access = s.access ∧ (submit s f t).pending = s.pending := by
  simp only [submit]; (repeat' split) <;> (repeat' apply And.intro) <;> (try simp) <;> (repeat refine (foldl_proj _ _ (fun _ _ => ?_) _ _).trans ?_) <;> (repeat' split) <;> (try simp) <;> (repeat' split) <;> simp

@[simp] theorem State.setJob_same (s : State) (j : Job) :
    (State.setJob s j).frame = s.frame ∧ (State.setJob s j).cfg = s.cfg ∧ (State.setJob s j).world = s.world ∧
    (State.setJob s j).ledger = s.ledger ∧ (State.setJob s j).order = s.order ∧ (State.setJob s j).solver = s.solver ∧
    (State.setJob s j).spec = s.spec ∧ (State.setJob s j).jig = s.jig ∧ (State.setJob s j).safety = s.safety ∧
    (State.setJob s j).pins = s.pins ∧ (State.setJob s j).die = s.die ∧ (State.setJob s j).fault = s.fault ∧
    (State.setJob s j).digest = s.digest ∧ (State.setJob s j).tenon = s.tenon ∧ (State.setJob s j).power = s.power ∧
    (State.setJob s j).sec = s.sec ∧ (State.setJob s j).jtag = s.jtag ∧ (State.setJob s j).waiting = s.waiting ∧
    (State.setJob s j).access = s.access ∧ (State.setJob s j).fresh = s.fresh ∧ (State.setJob s j).pending = s.pending := by
  simp [State.setJob]

@[simp] theorem jobRefined_same (s : State) (img : Image) (j : Job) (c : Iterate) (n : Nat) (conv cut : Bool) :
    (jobRefined s img j c n conv cut).2.regs = s.regs ∧ (jobRefined s img j c n conv cut).2.frame = s.frame ∧
    (jobRefined s img j c n conv cut).2.cfg = s.cfg ∧ (jobRefined s img j c n conv cut).2.world = s.world ∧
    (jobRefined s img j c n conv cut).2.ledger = s.ledger ∧ (jobRefined s img j c n conv cut).2.order = s.order ∧
    (jobRefined s img j c n conv cut).2.solver = s.solver ∧ (jobRefined s img j c n conv cut).2.spec = s.spec ∧
    (jobRefined s img j c n conv cut).2.jig = s.jig ∧ (jobRefined s img j c n conv cut).2.safety = s.safety ∧
    (jobRefined s img j c n conv cut).2.pins = s.pins ∧ (jobRefined s img j c n conv cut).2.die = s.die ∧
    (jobRefined s img j c n conv cut).2.fault = s.fault ∧ (jobRefined s img j c n conv cut).2.digest = s.digest ∧
    (jobRefined s img j c n conv cut).2.eth = s.eth ∧ (jobRefined s img j c n conv cut).2.tenon = s.tenon ∧
    (jobRefined s img j c n conv cut).2.power = s.power ∧ (jobRefined s img j c n conv cut).2.sec = s.sec ∧
    (jobRefined s img j c n conv cut).2.jtag = s.jtag ∧ (jobRefined s img j c n conv cut).2.waiting = s.waiting ∧
    (jobRefined s img j c n conv cut).2.access = s.access ∧ (jobRefined s img j c n conv cut).2.pending = s.pending := by
  simp [jobRefined]

@[simp] theorem sendJob_same (s : State) (j : Job) :
    (sendJob s j).frame = s.frame ∧ (sendJob s j).cfg = s.cfg ∧ (sendJob s j).world = s.world ∧ (sendJob s j).ledger = s.ledger ∧
    (sendJob s j).order = s.order ∧ (sendJob s j).solver = s.solver ∧ (sendJob s j).spec = s.spec ∧ (sendJob s j).jig = s.jig ∧
    (sendJob s j).safety = s.safety ∧ (sendJob s j).pins = s.pins ∧ (sendJob s j).die = s.die ∧ (sendJob s j).fault = s.fault ∧
    (sendJob s j).digest = s.digest ∧ (sendJob s j).tenon = s.tenon ∧ (sendJob s j).power = s.power ∧ (sendJob s j).sec = s.sec ∧
    (sendJob s j).jtag = s.jtag ∧ (sendJob s j).waiting = s.waiting ∧ (sendJob s j).access = s.access ∧
    (sendJob s j).fresh = s.fresh ∧ (sendJob s j).pending = s.pending := by
  unfold sendJob; (repeat' split) <;> simp

@[simp] theorem finishJob_same (s : State) (j : Job) (status : Nat) :
    (finishJob s j status).frame = s.frame ∧ (finishJob s j status).cfg = s.cfg ∧ (finishJob s j status).world = s.world ∧
    (finishJob s j status).ledger = s.ledger ∧ (finishJob s j status).order = s.order ∧
    (finishJob s j status).solver = s.solver ∧ (finishJob s j status).spec = s.spec ∧ (finishJob s j status).jig = s.jig ∧
    (finishJob s j status).safety = s.safety ∧ (finishJob s j status).pins = s.pins ∧ (finishJob s j status).die = s.die ∧
    (finishJob s j status).fault = s.fault ∧ (finishJob s j status).digest = s.digest ∧ (finishJob s j status).tenon = s.tenon ∧
    (finishJob s j status).power = s.power ∧ (finishJob s j status).sec = s.sec ∧ (finishJob s j status).jtag = s.jtag ∧
    (finishJob s j status).waiting = s.waiting ∧ (finishJob s j status).access = s.access ∧
    (finishJob s j status).fresh = s.fresh ∧ (finishJob s j status).pending = s.pending := by
  simp [finishJob]

@[simp] theorem macsecInstall_same (src : Source) (port : Nat) (value : Word) (s : State) :
    (macsecInstall src port value s).frame = s.frame ∧ (macsecInstall src port value s).cfg = s.cfg ∧
    (macsecInstall src port value s).world = s.world ∧ (macsecInstall src port value s).ledger = s.ledger ∧
    (macsecInstall src port value s).order = s.order ∧ (macsecInstall src port value s).solver = s.solver ∧
    (macsecInstall src port value s).spec = s.spec ∧ (macsecInstall src port value s).jig = s.jig ∧
    (macsecInstall src port value s).safety = s.safety ∧ (macsecInstall src port value s).pins = s.pins ∧
    (macsecInstall src port value s).die = s.die ∧ (macsecInstall src port value s).fault = s.fault ∧
    (macsecInstall src port value s).digest = s.digest ∧ (macsecInstall src port value s).tenon = s.tenon ∧
    (macsecInstall src port value s).power = s.power ∧ (macsecInstall src port value s).sec = s.sec ∧
    (macsecInstall src port value s).jtag = s.jtag ∧ (macsecInstall src port value s).waiting = s.waiting ∧
    (macsecInstall src port value s).fresh = s.fresh ∧ (macsecInstall src port value s).pending = s.pending := by
  simp only [macsecInstall]; (repeat' split) <;> simp_all

@[simp] theorem ownerOnly_same (src : Source) (s : State) (f : State → State) :
    (ownerOnly src s f).regs = (if s.isOwner src then (f s).regs else s.regs) ∧ (ownerOnly src s f).frame = (if s.isOwner src then (f s).frame else s.frame) ∧ (ownerOnly src s f).cfg = (if s.isOwner src then (f s).cfg else s.cfg) ∧ (ownerOnly src s f).world = (if s.isOwner src then (f s).world else s.world) ∧ (ownerOnly src s f).ledger = (if s.isOwner src then (f s).ledger else s.ledger) ∧ (ownerOnly src s f).order = (if s.isOwner src then (f s).order else s.order) ∧ (ownerOnly src s f).solver = (if s.isOwner src then (f s).solver else s.solver) ∧ (ownerOnly src s f).spec = (if s.isOwner src then (f s).spec else s.spec) ∧ (ownerOnly src s f).jig = (if s.isOwner src then (f s).jig else s.jig) ∧ (ownerOnly src s f).safety = (if s.isOwner src then (f s).safety else s.safety) ∧ (ownerOnly src s f).pins = (if s.isOwner src then (f s).pins else s.pins) ∧ (ownerOnly src s f).die = (if s.isOwner src then (f s).die else s.die) ∧ (ownerOnly src s f).fault = (if s.isOwner src then (f s).fault else s.fault) ∧ (ownerOnly src s f).digest = (if s.isOwner src then (f s).digest else s.digest) ∧ (ownerOnly src s f).eth = (if s.isOwner src then (f s).eth else s.eth) ∧ (ownerOnly src s f).tenon = (if s.isOwner src then (f s).tenon else s.tenon) ∧ (ownerOnly src s f).power = (if s.isOwner src then (f s).power else s.power) ∧ (ownerOnly src s f).sec = (if s.isOwner src then (f s).sec else s.sec) ∧ (ownerOnly src s f).jtag = (if s.isOwner src then (f s).jtag else s.jtag) ∧ (ownerOnly src s f).waiting = (if s.isOwner src then (f s).waiting else s.waiting) ∧ (ownerOnly src s f).fresh = (if s.isOwner src then (f s).fresh else s.fresh) ∧ (ownerOnly src s f).pending = (if s.isOwner src then (f s).pending else s.pending) := by
  unfold ownerOnly; split <;> simp
@[simp] theorem checkpointCmd_same (src : Source) (s : State) :
    (checkpointCmd src s).regs = s.regs ∧ (checkpointCmd src s).frame = s.frame ∧ (checkpointCmd src s).cfg = s.cfg ∧
    (checkpointCmd src s).world = s.world ∧ (checkpointCmd src s).ledger = s.ledger ∧ (checkpointCmd src s).order = s.order ∧
    (checkpointCmd src s).solver = s.solver ∧ (checkpointCmd src s).spec = s.spec ∧ (checkpointCmd src s).jig = s.jig ∧
    (checkpointCmd src s).safety = s.safety ∧ (checkpointCmd src s).pins = s.pins ∧ (checkpointCmd src s).die = s.die ∧
    (checkpointCmd src s).fault = s.fault ∧ (checkpointCmd src s).eth = s.eth ∧ (checkpointCmd src s).tenon = s.tenon ∧
    (checkpointCmd src s).power = s.power ∧ (checkpointCmd src s).sec = s.sec ∧ (checkpointCmd src s).jtag = s.jtag ∧
    (checkpointCmd src s).waiting = s.waiting ∧ (checkpointCmd src s).fresh = s.fresh ∧ (checkpointCmd src s).pending = s.pending := by
  simp [checkpointCmd]

@[simp] theorem capClearCmd_same (src : Source) (s : State) :
    (capClearCmd src s).frame = s.frame ∧ (capClearCmd src s).cfg = s.cfg ∧ (capClearCmd src s).world = s.world ∧
    (capClearCmd src s).ledger = s.ledger ∧ (capClearCmd src s).order = s.order ∧ (capClearCmd src s).solver = s.solver ∧
    (capClearCmd src s).spec = s.spec ∧ (capClearCmd src s).jig = s.jig ∧ (capClearCmd src s).safety = s.safety ∧
    (capClearCmd src s).pins = s.pins ∧ (capClearCmd src s).die = s.die ∧ (capClearCmd src s).fault = s.fault ∧
    (capClearCmd src s).eth = s.eth ∧ (capClearCmd src s).tenon = s.tenon ∧ (capClearCmd src s).power = s.power ∧
    (capClearCmd src s).sec = s.sec ∧ (capClearCmd src s).jtag = s.jtag ∧ (capClearCmd src s).waiting = s.waiting ∧
    (capClearCmd src s).fresh = s.fresh ∧ (capClearCmd src s).pending = s.pending := by
  simp [capClearCmd]

@[simp] theorem endReplay_same (s : State) (result stage : Nat) (e : Epoch) :
    (endReplay s result stage e).frame = s.frame ∧ (endReplay s result stage e).cfg = s.cfg ∧
    (endReplay s result stage e).safety = s.safety ∧ (endReplay s result stage e).pins = s.pins ∧
    (endReplay s result stage e).die = s.die ∧ (endReplay s result stage e).eth = s.eth ∧
    (endReplay s result stage e).tenon = s.tenon ∧ (endReplay s result stage e).power = s.power ∧
    (endReplay s result stage e).sec = s.sec ∧ (endReplay s result stage e).jtag = s.jtag ∧
    (endReplay s result stage e).waiting = s.waiting ∧ (endReplay s result stage e).access = s.access ∧
    (endReplay s result stage e).fresh = s.fresh ∧ (endReplay s result stage e).pending = s.pending := by
  simp [endReplay]

@[simp] theorem replayOn_same (s : State) (r : ReplaySt) (x0 : Nat) :
    (replayOn s r x0).frame = s.frame ∧ (replayOn s r x0).cfg = s.cfg ∧ (replayOn s r x0).safety = s.safety ∧
    (replayOn s r x0).pins = s.pins ∧ (replayOn s r x0).die = s.die ∧ (replayOn s r x0).eth = s.eth ∧
    (replayOn s r x0).tenon = s.tenon ∧ (replayOn s r x0).power = s.power ∧ (replayOn s r x0).sec = s.sec ∧
    (replayOn s r x0).jtag = s.jtag ∧ (replayOn s r x0).waiting = s.waiting ∧ (replayOn s r x0).access = s.access ∧
    (replayOn s r x0).fresh = s.fresh ∧ (replayOn s r x0).pending = s.pending := by
  induction x0 generalizing s r with
  | zero => simp [replayOn]
  | succ n ih => simp only [replayOn]; (repeat' split) <;> simp [ih]

@[simp] theorem replayCmd_same (scope : Nat) (src : Source) (s : State) :
    (replayCmd scope src s).frame = s.frame ∧ (replayCmd scope src s).cfg = s.cfg ∧ (replayCmd scope src s).safety = s.safety ∧
    (replayCmd scope src s).pins = s.pins ∧ (replayCmd scope src s).die = s.die ∧ (replayCmd scope src s).eth = s.eth ∧
    (replayCmd scope src s).tenon = s.tenon ∧ (replayCmd scope src s).power = s.power ∧ (replayCmd scope src s).sec = s.sec ∧
    (replayCmd scope src s).jtag = s.jtag ∧ (replayCmd scope src s).waiting = s.waiting ∧
    (replayCmd scope src s).fresh = s.fresh ∧ (replayCmd scope src s).pending = s.pending := by
  simp only [replayCmd, ownerOnly_same]; (repeat' split) <;> simp

@[simp] theorem replayAbortCmd_same (src : Source) (s : State) :
    (replayAbortCmd src s).frame = s.frame ∧ (replayAbortCmd src s).cfg = s.cfg ∧ (replayAbortCmd src s).safety = s.safety ∧
    (replayAbortCmd src s).pins = s.pins ∧ (replayAbortCmd src s).die = s.die ∧ (replayAbortCmd src s).eth = s.eth ∧
    (replayAbortCmd src s).tenon = s.tenon ∧ (replayAbortCmd src s).power = s.power ∧ (replayAbortCmd src s).sec = s.sec ∧
    (replayAbortCmd src s).jtag = s.jtag ∧ (replayAbortCmd src s).waiting = s.waiting ∧ (replayAbortCmd src s).fresh = s.fresh ∧
    (replayAbortCmd src s).pending = s.pending := by
  simp only [replayAbortCmd, ownerOnly_same]; (repeat' split) <;> simp

@[simp] theorem advanceTo_same (s : State) (t : Int) :
    (advanceTo s t).regs = s.regs ∧ (advanceTo s t).cfg = s.cfg ∧ (advanceTo s t).world = s.world ∧
    (advanceTo s t).ledger = s.ledger ∧ (advanceTo s t).order = s.order ∧ (advanceTo s t).solver = s.solver ∧
    (advanceTo s t).spec = s.spec ∧ (advanceTo s t).jig = s.jig ∧ (advanceTo s t).safety = s.safety ∧
    (advanceTo s t).pins = s.pins ∧ (advanceTo s t).die = s.die ∧ (advanceTo s t).fault = s.fault ∧
    (advanceTo s t).digest = s.digest ∧ (advanceTo s t).eth = s.eth ∧ (advanceTo s t).tenon = s.tenon ∧
    (advanceTo s t).power = s.power ∧ (advanceTo s t).sec = s.sec ∧ (advanceTo s t).jtag = s.jtag ∧
    (advanceTo s t).waiting = s.waiting ∧ (advanceTo s t).access = s.access ∧ (advanceTo s t).fresh = s.fresh ∧
    (advanceTo s t).pending = s.pending := by
  simp [advanceTo]

@[simp] theorem correctTime_same (s : State) (delta : Int) :
    (correctTime s delta).regs = s.regs ∧ (correctTime s delta).cfg = s.cfg ∧ (correctTime s delta).world = s.world ∧
    (correctTime s delta).ledger = s.ledger ∧ (correctTime s delta).order = s.order ∧ (correctTime s delta).solver = s.solver ∧
    (correctTime s delta).spec = s.spec ∧ (correctTime s delta).jig = s.jig ∧ (correctTime s delta).safety = s.safety ∧
    (correctTime s delta).pins = s.pins ∧ (correctTime s delta).die = s.die ∧ (correctTime s delta).fault = s.fault ∧
    (correctTime s delta).digest = s.digest ∧ (correctTime s delta).eth = s.eth ∧ (correctTime s delta).tenon = s.tenon ∧
    (correctTime s delta).power = s.power ∧ (correctTime s delta).sec = s.sec ∧ (correctTime s delta).jtag = s.jtag ∧
    (correctTime s delta).waiting = s.waiting ∧ (correctTime s delta).access = s.access ∧ (correctTime s delta).fresh = s.fresh ∧
    (correctTime s delta).pending = s.pending := by
  unfold correctTime; (repeat' split) <;> simp

@[simp] theorem showOffset_same (s : State) (delta : Int) :
    (showOffset s delta).frame = s.frame ∧ (showOffset s delta).cfg = s.cfg ∧ (showOffset s delta).world = s.world ∧
    (showOffset s delta).ledger = s.ledger ∧ (showOffset s delta).order = s.order ∧ (showOffset s delta).solver = s.solver ∧
    (showOffset s delta).spec = s.spec ∧ (showOffset s delta).jig = s.jig ∧ (showOffset s delta).safety = s.safety ∧
    (showOffset s delta).pins = s.pins ∧ (showOffset s delta).die = s.die ∧ (showOffset s delta).fault = s.fault ∧
    (showOffset s delta).digest = s.digest ∧ (showOffset s delta).eth = s.eth ∧ (showOffset s delta).tenon = s.tenon ∧
    (showOffset s delta).power = s.power ∧ (showOffset s delta).sec = s.sec ∧ (showOffset s delta).jtag = s.jtag ∧
    (showOffset s delta).waiting = s.waiting ∧ (showOffset s delta).access = s.access ∧ (showOffset s delta).pending = s.pending := by
  simp [showOffset]

@[simp] theorem applyShadow_same (s : State) :
    (applyShadow s).frame = s.frame ∧ (applyShadow s).world = s.world ∧ (applyShadow s).ledger = s.ledger ∧
    (applyShadow s).order = s.order ∧ (applyShadow s).solver = s.solver ∧ (applyShadow s).safety = s.safety ∧
    (applyShadow s).pins = s.pins ∧ (applyShadow s).die = s.die ∧ (applyShadow s).fault = s.fault ∧
    (applyShadow s).digest = s.digest ∧ (applyShadow s).eth = s.eth ∧ (applyShadow s).tenon = s.tenon ∧
    (applyShadow s).power = s.power ∧ (applyShadow s).sec = s.sec ∧ (applyShadow s).jtag = s.jtag ∧
    (applyShadow s).waiting = s.waiting ∧ (applyShadow s).access = s.access ∧ (applyShadow s).fresh = s.fresh ∧
    (applyShadow s).pending = s.pending := by
  simp only [applyShadow]; (repeat' split) <;> (repeat' apply And.intro) <;> (try simp) <;> (repeat refine (foldl_proj _ _ (fun _ _ => ?_) _ _).trans ?_) <;> (repeat' split) <;> (try simp) <;> (repeat' split) <;> simp

@[simp] theorem clearFrame_same (s : State) :
    (clearFrame s).regs = s.regs ∧ (clearFrame s).frame = s.frame ∧ (clearFrame s).cfg = s.cfg ∧ (clearFrame s).world = s.world ∧
    (clearFrame s).pins = s.pins ∧ (clearFrame s).die = s.die ∧ (clearFrame s).fault = s.fault ∧ (clearFrame s).eth = s.eth ∧
    (clearFrame s).power = s.power ∧ (clearFrame s).sec = s.sec ∧ (clearFrame s).jtag = s.jtag ∧
    (clearFrame s).waiting = s.waiting ∧ (clearFrame s).access = s.access ∧ (clearFrame s).fresh = s.fresh ∧
    (clearFrame s).pending = s.pending := by
  simp [clearFrame]

@[simp] theorem countSkips_same (s : State) (k : Nat) :
    (countSkips s k).frame = s.frame ∧ (countSkips s k).cfg = s.cfg ∧ (countSkips s k).world = s.world ∧
    (countSkips s k).ledger = s.ledger ∧ (countSkips s k).order = s.order ∧ (countSkips s k).solver = s.solver ∧
    (countSkips s k).spec = s.spec ∧ (countSkips s k).jig = s.jig ∧ (countSkips s k).safety = s.safety ∧
    (countSkips s k).pins = s.pins ∧ (countSkips s k).die = s.die ∧ (countSkips s k).fault = s.fault ∧
    (countSkips s k).digest = s.digest ∧ (countSkips s k).eth = s.eth ∧ (countSkips s k).tenon = s.tenon ∧
    (countSkips s k).power = s.power ∧ (countSkips s k).sec = s.sec ∧ (countSkips s k).jtag = s.jtag ∧
    (countSkips s k).waiting = s.waiting ∧ (countSkips s k).access = s.access ∧ (countSkips s k).fresh = s.fresh ∧
    (countSkips s k).pending = s.pending := by
  unfold countSkips; (repeat' split) <;> simp

@[simp] theorem startFrame_same (s : State) (img : Image) (k : Nat) :
    (startFrame s img k).jtag = s.jtag ∧ (startFrame s img k).waiting = s.waiting ∧ (startFrame s img k).access = s.access ∧
    (startFrame s img k).pending = s.pending := by
  simp only [startFrame]; (repeat' split) <;> (repeat' apply And.intro) <;> (try simp) <;> (repeat refine (foldl_proj _ _ (fun _ _ => ?_) _ _).trans ?_) <;> (repeat' split) <;> (try simp) <;> (repeat' split) <;> simp

@[simp] theorem switchResult_same (s : State) (r : Nat) :
    (switchResult s r).frame = s.frame ∧ (switchResult s r).cfg = s.cfg ∧ (switchResult s r).world = s.world ∧
    (switchResult s r).ledger = s.ledger ∧ (switchResult s r).order = s.order ∧ (switchResult s r).solver = s.solver ∧
    (switchResult s r).spec = s.spec ∧ (switchResult s r).jig = s.jig ∧ (switchResult s r).safety = s.safety ∧
    (switchResult s r).pins = s.pins ∧ (switchResult s r).die = s.die ∧ (switchResult s r).fault = s.fault ∧
    (switchResult s r).digest = s.digest ∧ (switchResult s r).eth = s.eth ∧ (switchResult s r).tenon = s.tenon ∧
    (switchResult s r).power = s.power ∧ (switchResult s r).sec = s.sec ∧ (switchResult s r).jtag = s.jtag ∧
    (switchResult s r).waiting = s.waiting ∧ (switchResult s r).access = s.access ∧ (switchResult s r).fresh = s.fresh ∧
    (switchResult s r).pending = s.pending := by
  simp [switchResult]

@[simp] theorem switchPhase_same (s : State) (p : Nat) :
    (switchPhase s p).frame = s.frame ∧ (switchPhase s p).cfg = s.cfg ∧ (switchPhase s p).world = s.world ∧
    (switchPhase s p).ledger = s.ledger ∧ (switchPhase s p).order = s.order ∧ (switchPhase s p).solver = s.solver ∧
    (switchPhase s p).spec = s.spec ∧ (switchPhase s p).jig = s.jig ∧ (switchPhase s p).safety = s.safety ∧
    (switchPhase s p).pins = s.pins ∧ (switchPhase s p).die = s.die ∧ (switchPhase s p).fault = s.fault ∧
    (switchPhase s p).digest = s.digest ∧ (switchPhase s p).eth = s.eth ∧ (switchPhase s p).tenon = s.tenon ∧
    (switchPhase s p).power = s.power ∧ (switchPhase s p).sec = s.sec ∧ (switchPhase s p).jtag = s.jtag ∧
    (switchPhase s p).waiting = s.waiting ∧ (switchPhase s p).access = s.access ∧ (switchPhase s p).fresh = s.fresh ∧
    (switchPhase s p).pending = s.pending := by
  simp [switchPhase]

@[simp] theorem switchCmd_same (src : Source) (s : State) :
    (switchCmd src s).frame = s.frame ∧ (switchCmd src s).world = s.world ∧ (switchCmd src s).ledger = s.ledger ∧
    (switchCmd src s).order = s.order ∧ (switchCmd src s).solver = s.solver ∧ (switchCmd src s).spec = s.spec ∧
    (switchCmd src s).jig = s.jig ∧ (switchCmd src s).safety = s.safety ∧ (switchCmd src s).pins = s.pins ∧
    (switchCmd src s).die = s.die ∧ (switchCmd src s).digest = s.digest ∧ (switchCmd src s).eth = s.eth ∧
    (switchCmd src s).tenon = s.tenon ∧ (switchCmd src s).power = s.power ∧ (switchCmd src s).sec = s.sec ∧
    (switchCmd src s).jtag = s.jtag ∧ (switchCmd src s).waiting = s.waiting ∧ (switchCmd src s).access = s.access ∧
    (switchCmd src s).fresh = s.fresh ∧ (switchCmd src s).pending = s.pending := by
  simp only [switchCmd]; (repeat' split) <;> simp_all

@[simp] theorem endSwitch_same (s : State) (r : Nat) :
    (endSwitch s r).frame = s.frame ∧ (endSwitch s r).world = s.world ∧ (endSwitch s r).ledger = s.ledger ∧
    (endSwitch s r).order = s.order ∧ (endSwitch s r).solver = s.solver ∧ (endSwitch s r).spec = s.spec ∧
    (endSwitch s r).jig = s.jig ∧ (endSwitch s r).safety = s.safety ∧ (endSwitch s r).pins = s.pins ∧
    (endSwitch s r).die = s.die ∧ (endSwitch s r).digest = s.digest ∧ (endSwitch s r).eth = s.eth ∧
    (endSwitch s r).tenon = s.tenon ∧ (endSwitch s r).power = s.power ∧ (endSwitch s r).sec = s.sec ∧
    (endSwitch s r).jtag = s.jtag ∧ (endSwitch s r).waiting = s.waiting ∧ (endSwitch s r).access = s.access ∧
    (endSwitch s r).fresh = s.fresh ∧ (endSwitch s r).pending = s.pending := by
  simp [endSwitch]

@[simp] theorem holdCmd_same (src : Source) (s : State) :
    (holdCmd src s).world = s.world ∧ (holdCmd src s).ledger = s.ledger ∧ (holdCmd src s).order = s.order ∧
    (holdCmd src s).solver = s.solver ∧ (holdCmd src s).spec = s.spec ∧ (holdCmd src s).jig = s.jig ∧
    (holdCmd src s).safety = s.safety ∧ (holdCmd src s).pins = s.pins ∧ (holdCmd src s).die = s.die ∧
    (holdCmd src s).digest = s.digest ∧ (holdCmd src s).eth = s.eth ∧ (holdCmd src s).tenon = s.tenon ∧
    (holdCmd src s).power = s.power ∧ (holdCmd src s).sec = s.sec ∧ (holdCmd src s).jtag = s.jtag ∧
    (holdCmd src s).waiting = s.waiting ∧ (holdCmd src s).access = s.access ∧ (holdCmd src s).fresh = s.fresh ∧
    (holdCmd src s).pending = s.pending := by
  simp only [holdCmd]; (repeat' split) <;> simp_all

@[simp] theorem shadowFrom_same (s : State) (k : Nat) :
    (shadowFrom s k).regs = s.regs ∧ (shadowFrom s k).cfg = s.cfg ∧ (shadowFrom s k).world = s.world ∧
    (shadowFrom s k).ledger = s.ledger ∧ (shadowFrom s k).order = s.order ∧ (shadowFrom s k).solver = s.solver ∧
    (shadowFrom s k).spec = s.spec ∧ (shadowFrom s k).jig = s.jig ∧ (shadowFrom s k).safety = s.safety ∧
    (shadowFrom s k).pins = s.pins ∧ (shadowFrom s k).die = s.die ∧ (shadowFrom s k).fault = s.fault ∧
    (shadowFrom s k).digest = s.digest ∧ (shadowFrom s k).eth = s.eth ∧ (shadowFrom s k).tenon = s.tenon ∧
    (shadowFrom s k).power = s.power ∧ (shadowFrom s k).sec = s.sec ∧ (shadowFrom s k).jtag = s.jtag ∧
    (shadowFrom s k).waiting = s.waiting ∧ (shadowFrom s k).access = s.access ∧ (shadowFrom s k).fresh = s.fresh ∧
    (shadowFrom s k).pending = s.pending := by
  simp [shadowFrom]

@[simp] theorem resumeCmd_same (src : Source) (s : State) :
    (resumeCmd src s).world = s.world ∧ (resumeCmd src s).ledger = s.ledger ∧ (resumeCmd src s).order = s.order ∧
    (resumeCmd src s).solver = s.solver ∧ (resumeCmd src s).spec = s.spec ∧ (resumeCmd src s).jig = s.jig ∧
    (resumeCmd src s).safety = s.safety ∧ (resumeCmd src s).pins = s.pins ∧ (resumeCmd src s).die = s.die ∧
    (resumeCmd src s).digest = s.digest ∧ (resumeCmd src s).eth = s.eth ∧ (resumeCmd src s).tenon = s.tenon ∧
    (resumeCmd src s).power = s.power ∧ (resumeCmd src s).sec = s.sec ∧ (resumeCmd src s).jtag = s.jtag ∧
    (resumeCmd src s).waiting = s.waiting ∧ (resumeCmd src s).access = s.access ∧ (resumeCmd src s).fresh = s.fresh ∧
    (resumeCmd src s).pending = s.pending := by
  unfold resumeCmd; (repeat' split) <;> simp

@[simp] theorem cancelCmd_same (src : Source) (s : State) :
    (cancelCmd src s).frame = s.frame ∧ (cancelCmd src s).world = s.world ∧ (cancelCmd src s).ledger = s.ledger ∧
    (cancelCmd src s).order = s.order ∧ (cancelCmd src s).solver = s.solver ∧ (cancelCmd src s).spec = s.spec ∧
    (cancelCmd src s).jig = s.jig ∧ (cancelCmd src s).safety = s.safety ∧ (cancelCmd src s).pins = s.pins ∧
    (cancelCmd src s).die = s.die ∧ (cancelCmd src s).digest = s.digest ∧ (cancelCmd src s).eth = s.eth ∧
    (cancelCmd src s).tenon = s.tenon ∧ (cancelCmd src s).power = s.power ∧ (cancelCmd src s).sec = s.sec ∧
    (cancelCmd src s).jtag = s.jtag ∧ (cancelCmd src s).waiting = s.waiting ∧ (cancelCmd src s).access = s.access ∧
    (cancelCmd src s).fresh = s.fresh ∧ (cancelCmd src s).pending = s.pending := by
  simp only [cancelCmd]; (repeat' split) <;> simp_all

@[simp] theorem pinsToWake_same (s : State) :
    (pinsToWake s).frame = s.frame ∧ (pinsToWake s).cfg = s.cfg ∧ (pinsToWake s).world = s.world ∧
    (pinsToWake s).ledger = s.ledger ∧ (pinsToWake s).order = s.order ∧ (pinsToWake s).solver = s.solver ∧
    (pinsToWake s).spec = s.spec ∧ (pinsToWake s).jig = s.jig ∧ (pinsToWake s).die = s.die ∧ (pinsToWake s).fault = s.fault ∧
    (pinsToWake s).digest = s.digest ∧ (pinsToWake s).eth = s.eth ∧ (pinsToWake s).tenon = s.tenon ∧
    (pinsToWake s).power = s.power ∧ (pinsToWake s).sec = s.sec ∧ (pinsToWake s).jtag = s.jtag ∧
    (pinsToWake s).waiting = s.waiting ∧ (pinsToWake s).access = s.access ∧ (pinsToWake s).fresh = s.fresh ∧
    (pinsToWake s).pending = s.pending := by
  simp [pinsToWake]

@[simp] theorem stopFrames_same (s : State) :
    (stopFrames s).world = s.world ∧ (stopFrames s).ledger = s.ledger ∧ (stopFrames s).order = s.order ∧
    (stopFrames s).solver = s.solver ∧ (stopFrames s).spec = s.spec ∧ (stopFrames s).jig = s.jig ∧
    (stopFrames s).safety = s.safety ∧ (stopFrames s).pins = s.pins ∧ (stopFrames s).die = s.die ∧
    (stopFrames s).fault = s.fault ∧ (stopFrames s).digest = s.digest ∧ (stopFrames s).eth = s.eth ∧
    (stopFrames s).tenon = s.tenon ∧ (stopFrames s).power = s.power ∧ (stopFrames s).sec = s.sec ∧ (stopFrames s).jtag = s.jtag ∧
    (stopFrames s).waiting = s.waiting ∧ (stopFrames s).access = s.access ∧ (stopFrames s).fresh = s.fresh ∧
    (stopFrames s).pending = s.pending := by
  simp [stopFrames]

end Sys2Proof.Machine
end

