-- ==== Sys2Proof/Laws/SharedStart.lean ====
section
/-! SUPPORT. What the shared operations of chains, starts, power and register access leave as it is: every part of the state that an operation does not
change, one lemma an operation. -/

namespace Sys2Proof.Machine

@[simp] theorem applyPlacement_same (s : State) (p : Placement) :
    (applyPlacement s p).frame = s.frame ∧ (applyPlacement s p).cfg = s.cfg ∧ (applyPlacement s p).world = s.world ∧
    (applyPlacement s p).ledger = s.ledger ∧ (applyPlacement s p).order = s.order ∧ (applyPlacement s p).solver = s.solver ∧
    (applyPlacement s p).spec = s.spec ∧ (applyPlacement s p).jig = s.jig ∧ (applyPlacement s p).safety = s.safety ∧
    (applyPlacement s p).pins = s.pins ∧ (applyPlacement s p).die = s.die ∧ (applyPlacement s p).fault = s.fault ∧
    (applyPlacement s p).digest = s.digest ∧ (applyPlacement s p).eth = s.eth ∧ (applyPlacement s p).power = s.power ∧
    (applyPlacement s p).sec = s.sec ∧ (applyPlacement s p).jtag = s.jtag ∧ (applyPlacement s p).waiting = s.waiting ∧
    (applyPlacement s p).access = s.access ∧ (applyPlacement s p).fresh = s.fresh ∧ (applyPlacement s p).pending = s.pending := by
  simp [applyPlacement]

@[simp] theorem endClamp_same (s : State) (c : ClampSt) :
    (endClamp s c).frame = s.frame ∧ (endClamp s c).cfg = s.cfg ∧ (endClamp s c).world = s.world ∧
    (endClamp s c).ledger = s.ledger ∧ (endClamp s c).order = s.order ∧ (endClamp s c).solver = s.solver ∧
    (endClamp s c).spec = s.spec ∧ (endClamp s c).jig = s.jig ∧ (endClamp s c).safety = s.safety ∧ (endClamp s c).pins = s.pins ∧
    (endClamp s c).die = s.die ∧ (endClamp s c).digest = s.digest ∧ (endClamp s c).eth = s.eth ∧ (endClamp s c).power = s.power ∧
    (endClamp s c).sec = s.sec ∧ (endClamp s c).jtag = s.jtag ∧ (endClamp s c).waiting = s.waiting ∧
    (endClamp s c).access = s.access ∧ (endClamp s c).fresh = s.fresh ∧ (endClamp s c).pending = s.pending := by
  unfold endClamp; (repeat' split) <;> simp

@[simp] theorem startClamp_same (s : State) :
    (startClamp s).frame = s.frame ∧ (startClamp s).cfg = s.cfg ∧ (startClamp s).world = s.world ∧
    (startClamp s).ledger = s.ledger ∧ (startClamp s).order = s.order ∧ (startClamp s).solver = s.solver ∧
    (startClamp s).spec = s.spec ∧ (startClamp s).jig = s.jig ∧ (startClamp s).safety = s.safety ∧ (startClamp s).pins = s.pins ∧
    (startClamp s).die = s.die ∧ (startClamp s).digest = s.digest ∧ (startClamp s).eth = s.eth ∧ (startClamp s).power = s.power ∧
    (startClamp s).sec = s.sec ∧ (startClamp s).jtag = s.jtag ∧ (startClamp s).waiting = s.waiting ∧
    (startClamp s).access = s.access ∧ (startClamp s).fresh = s.fresh ∧ (startClamp s).pending = s.pending := by
  simp only [startClamp]; (repeat' split) <;> simp_all

@[simp] theorem clampIfDue_same (s : State) :
    (clampIfDue s).frame = s.frame ∧ (clampIfDue s).cfg = s.cfg ∧ (clampIfDue s).world = s.world ∧
    (clampIfDue s).ledger = s.ledger ∧ (clampIfDue s).order = s.order ∧ (clampIfDue s).solver = s.solver ∧
    (clampIfDue s).spec = s.spec ∧ (clampIfDue s).jig = s.jig ∧ (clampIfDue s).safety = s.safety ∧ (clampIfDue s).pins = s.pins ∧
    (clampIfDue s).die = s.die ∧ (clampIfDue s).digest = s.digest ∧ (clampIfDue s).eth = s.eth ∧ (clampIfDue s).power = s.power ∧
    (clampIfDue s).sec = s.sec ∧ (clampIfDue s).jtag = s.jtag ∧ (clampIfDue s).waiting = s.waiting ∧
    (clampIfDue s).access = s.access ∧ (clampIfDue s).fresh = s.fresh ∧ (clampIfDue s).pending = s.pending := by
  unfold clampIfDue; (repeat' split) <;> simp

@[simp] theorem tenonWrite_same (src : Source) (s : State) (f : State → State) :
    (tenonWrite src s f).regs = (if s.hasTenon && s.isOwner src then (f s).regs else s.regs) ∧ (tenonWrite src s f).frame = (if s.hasTenon && s.isOwner src then (f s).frame else s.frame) ∧ (tenonWrite src s f).cfg = (if s.hasTenon && s.isOwner src then (f s).cfg else s.cfg) ∧ (tenonWrite src s f).world = (if s.hasTenon && s.isOwner src then (f s).world else s.world) ∧ (tenonWrite src s f).ledger = (if s.hasTenon && s.isOwner src then (f s).ledger else s.ledger) ∧ (tenonWrite src s f).order = (if s.hasTenon && s.isOwner src then (f s).order else s.order) ∧ (tenonWrite src s f).solver = (if s.hasTenon && s.isOwner src then (f s).solver else s.solver) ∧ (tenonWrite src s f).spec = (if s.hasTenon && s.isOwner src then (f s).spec else s.spec) ∧ (tenonWrite src s f).jig = (if s.hasTenon && s.isOwner src then (f s).jig else s.jig) ∧ (tenonWrite src s f).safety = (if s.hasTenon && s.isOwner src then (f s).safety else s.safety) ∧ (tenonWrite src s f).pins = (if s.hasTenon && s.isOwner src then (f s).pins else s.pins) ∧ (tenonWrite src s f).die = (if s.hasTenon && s.isOwner src then (f s).die else s.die) ∧ (tenonWrite src s f).fault = (if s.hasTenon && s.isOwner src then (f s).fault else s.fault) ∧ (tenonWrite src s f).digest = (if s.hasTenon && s.isOwner src then (f s).digest else s.digest) ∧ (tenonWrite src s f).eth = (if s.hasTenon && s.isOwner src then (f s).eth else s.eth) ∧ (tenonWrite src s f).tenon = (if s.hasTenon && s.isOwner src then (f s).tenon else s.tenon) ∧ (tenonWrite src s f).power = (if s.hasTenon && s.isOwner src then (f s).power else s.power) ∧ (tenonWrite src s f).sec = (if s.hasTenon && s.isOwner src then (f s).sec else s.sec) ∧ (tenonWrite src s f).jtag = (if s.hasTenon && s.isOwner src then (f s).jtag else s.jtag) ∧ (tenonWrite src s f).waiting = (if s.hasTenon && s.isOwner src then (f s).waiting else s.waiting) ∧ (tenonWrite src s f).fresh = (if s.hasTenon && s.isOwner src then (f s).fresh else s.fresh) ∧ (tenonWrite src s f).pending = (if s.hasTenon && s.isOwner src then (f s).pending else s.pending) := by
  unfold tenonWrite; cases s.hasTenon <;> simp
@[simp] theorem requestRetrain_same (s : State) (l : Nat) :
    (requestRetrain s l).frame = s.frame ∧ (requestRetrain s l).cfg = s.cfg ∧ (requestRetrain s l).world = s.world ∧
    (requestRetrain s l).ledger = s.ledger ∧ (requestRetrain s l).order = s.order ∧ (requestRetrain s l).solver = s.solver ∧
    (requestRetrain s l).spec = s.spec ∧ (requestRetrain s l).jig = s.jig ∧ (requestRetrain s l).safety = s.safety ∧
    (requestRetrain s l).pins = s.pins ∧ (requestRetrain s l).die = s.die ∧ (requestRetrain s l).digest = s.digest ∧
    (requestRetrain s l).eth = s.eth ∧ (requestRetrain s l).power = s.power ∧ (requestRetrain s l).sec = s.sec ∧
    (requestRetrain s l).jtag = s.jtag ∧ (requestRetrain s l).waiting = s.waiting ∧ (requestRetrain s l).access = s.access ∧
    (requestRetrain s l).fresh = s.fresh ∧ (requestRetrain s l).pending = s.pending := by
  simp only [requestRetrain]; (repeat' split) <;> simp_all

@[simp] theorem ackFlits_same (s : State) (l ack : Nat) :
    (ackFlits s l ack).frame = s.frame ∧ (ackFlits s l ack).cfg = s.cfg ∧ (ackFlits s l ack).world = s.world ∧
    (ackFlits s l ack).ledger = s.ledger ∧ (ackFlits s l ack).order = s.order ∧ (ackFlits s l ack).solver = s.solver ∧
    (ackFlits s l ack).spec = s.spec ∧ (ackFlits s l ack).jig = s.jig ∧ (ackFlits s l ack).safety = s.safety ∧
    (ackFlits s l ack).pins = s.pins ∧ (ackFlits s l ack).die = s.die ∧ (ackFlits s l ack).fault = s.fault ∧
    (ackFlits s l ack).digest = s.digest ∧ (ackFlits s l ack).eth = s.eth ∧ (ackFlits s l ack).power = s.power ∧
    (ackFlits s l ack).sec = s.sec ∧ (ackFlits s l ack).jtag = s.jtag ∧ (ackFlits s l ack).waiting = s.waiting ∧
    (ackFlits s l ack).access = s.access ∧ (ackFlits s l ack).fresh = s.fresh ∧ (ackFlits s l ack).pending = s.pending := by
  simp only [ackFlits]; (repeat' split) <;> (repeat' apply And.intro) <;> (try simp) <;> (repeat refine (foldl_proj _ _ (fun _ _ => ?_) _ _).trans ?_) <;> (repeat' split) <;> (try simp) <;> (repeat' split) <;> simp

@[simp] theorem addCredits_same (s : State) (l pool n : Nat) :
    (addCredits s l pool n).frame = s.frame ∧ (addCredits s l pool n).cfg = s.cfg ∧ (addCredits s l pool n).world = s.world ∧
    (addCredits s l pool n).ledger = s.ledger ∧ (addCredits s l pool n).order = s.order ∧
    (addCredits s l pool n).solver = s.solver ∧ (addCredits s l pool n).spec = s.spec ∧ (addCredits s l pool n).jig = s.jig ∧
    (addCredits s l pool n).safety = s.safety ∧ (addCredits s l pool n).pins = s.pins ∧ (addCredits s l pool n).die = s.die ∧
    (addCredits s l pool n).fault = s.fault ∧ (addCredits s l pool n).digest = s.digest ∧ (addCredits s l pool n).eth = s.eth ∧
    (addCredits s l pool n).power = s.power ∧ (addCredits s l pool n).sec = s.sec ∧ (addCredits s l pool n).jtag = s.jtag ∧
    (addCredits s l pool n).waiting = s.waiting ∧ (addCredits s l pool n).access = s.access ∧
    (addCredits s l pool n).fresh = s.fresh ∧ (addCredits s l pool n).pending = s.pending := by
  simp only [addCredits]; (repeat' split) <;> (repeat' apply And.intro) <;> (try simp) <;> (repeat refine (foldl_proj _ _ (fun _ _ => ?_) _ _).trans ?_) <;> (repeat' split) <;> (try simp) <;> (repeat' split) <;> simp

@[simp] theorem replayEpisode_same (s : State) (l : Nat) :
    (replayEpisode s l).frame = s.frame ∧ (replayEpisode s l).cfg = s.cfg ∧ (replayEpisode s l).world = s.world ∧
    (replayEpisode s l).ledger = s.ledger ∧ (replayEpisode s l).order = s.order ∧ (replayEpisode s l).solver = s.solver ∧
    (replayEpisode s l).spec = s.spec ∧ (replayEpisode s l).jig = s.jig ∧ (replayEpisode s l).safety = s.safety ∧
    (replayEpisode s l).pins = s.pins ∧ (replayEpisode s l).die = s.die ∧ (replayEpisode s l).digest = s.digest ∧
    (replayEpisode s l).eth = s.eth ∧ (replayEpisode s l).power = s.power ∧ (replayEpisode s l).sec = s.sec ∧
    (replayEpisode s l).jtag = s.jtag ∧ (replayEpisode s l).waiting = s.waiting ∧ (replayEpisode s l).access = s.access ∧
    (replayEpisode s l).fresh = s.fresh ∧ (replayEpisode s l).pending = s.pending := by
  simp only [replayEpisode]; (repeat' split) <;> simp_all

@[simp] theorem sendNak_same (s : State) (l : Nat) :
    (sendNak s l).regs = s.regs ∧ (sendNak s l).frame = s.frame ∧ (sendNak s l).cfg = s.cfg ∧ (sendNak s l).world = s.world ∧
    (sendNak s l).ledger = s.ledger ∧ (sendNak s l).order = s.order ∧ (sendNak s l).solver = s.solver ∧
    (sendNak s l).spec = s.spec ∧ (sendNak s l).jig = s.jig ∧ (sendNak s l).safety = s.safety ∧ (sendNak s l).pins = s.pins ∧
    (sendNak s l).die = s.die ∧ (sendNak s l).fault = s.fault ∧ (sendNak s l).digest = s.digest ∧ (sendNak s l).eth = s.eth ∧
    (sendNak s l).power = s.power ∧ (sendNak s l).sec = s.sec ∧ (sendNak s l).jtag = s.jtag ∧ (sendNak s l).waiting = s.waiting ∧
    (sendNak s l).access = s.access ∧ (sendNak s l).fresh = s.fresh ∧ (sendNak s l).pending = s.pending := by
  simp only [sendNak]; (repeat' split) <;> simp_all

@[simp] theorem countCodeword_same (s : State) (l : Nat) (f : Flit) :
    (countCodeword s l f).frame = s.frame ∧ (countCodeword s l f).cfg = s.cfg ∧ (countCodeword s l f).world = s.world ∧
    (countCodeword s l f).ledger = s.ledger ∧ (countCodeword s l f).order = s.order ∧ (countCodeword s l f).solver = s.solver ∧
    (countCodeword s l f).spec = s.spec ∧ (countCodeword s l f).jig = s.jig ∧ (countCodeword s l f).safety = s.safety ∧
    (countCodeword s l f).pins = s.pins ∧ (countCodeword s l f).die = s.die ∧ (countCodeword s l f).digest = s.digest ∧
    (countCodeword s l f).eth = s.eth ∧ (countCodeword s l f).power = s.power ∧ (countCodeword s l f).sec = s.sec ∧
    (countCodeword s l f).jtag = s.jtag ∧ (countCodeword s l f).waiting = s.waiting ∧ (countCodeword s l f).access = s.access ∧
    (countCodeword s l f).fresh = s.fresh ∧ (countCodeword s l f).pending = s.pending := by
  simp only [countCodeword]; (repeat' split) <;> simp_all

@[simp] theorem linkAgain_same (s : State) (link : Nat) :
    (linkAgain s link).world = s.world ∧ (linkAgain s link).ledger = s.ledger ∧ (linkAgain s link).order = s.order ∧
    (linkAgain s link).solver = s.solver ∧ (linkAgain s link).die = s.die ∧ (linkAgain s link).jtag = s.jtag ∧
    (linkAgain s link).waiting = s.waiting ∧ (linkAgain s link).access = s.access ∧ (linkAgain s link).pending = s.pending := by
  simp only [linkAgain]; (repeat' split) <;> (repeat' apply And.intro) <;> (try simp) <;> (repeat refine (foldl_proj _ _ (fun _ _ => ?_) _ _).trans ?_) <;> (repeat' split) <;> (try simp) <;> (repeat' split) <;> simp

@[simp] theorem linkFirst_same (s : State) (link : Nat) :
    (linkFirst s link).frame = s.frame ∧ (linkFirst s link).cfg = s.cfg ∧ (linkFirst s link).world = s.world ∧
    (linkFirst s link).ledger = s.ledger ∧ (linkFirst s link).order = s.order ∧ (linkFirst s link).solver = s.solver ∧
    (linkFirst s link).spec = s.spec ∧ (linkFirst s link).jig = s.jig ∧ (linkFirst s link).safety = s.safety ∧
    (linkFirst s link).pins = s.pins ∧ (linkFirst s link).die = s.die ∧ (linkFirst s link).fault = s.fault ∧
    (linkFirst s link).digest = s.digest ∧ (linkFirst s link).eth = s.eth ∧ (linkFirst s link).power = s.power ∧
    (linkFirst s link).sec = s.sec ∧ (linkFirst s link).jtag = s.jtag ∧ (linkFirst s link).waiting = s.waiting ∧
    (linkFirst s link).access = s.access ∧ (linkFirst s link).fresh = s.fresh ∧ (linkFirst s link).pending = s.pending := by
  simp only [linkFirst]; (repeat' split) <;> (repeat' apply And.intro) <;> (try simp) <;> (repeat refine (foldl_proj _ _ (fun _ _ => ?_) _ _).trans ?_) <;> (repeat' split) <;> (try simp) <;> (repeat' split) <;> simp

@[simp] theorem linkTrained_same (s : State) (link latencyPs : Nat) :
    (linkTrained s link latencyPs).world = s.world ∧ (linkTrained s link latencyPs).ledger = s.ledger ∧
    (linkTrained s link latencyPs).order = s.order ∧ (linkTrained s link latencyPs).solver = s.solver ∧
    (linkTrained s link latencyPs).die = s.die ∧ (linkTrained s link latencyPs).jtag = s.jtag ∧
    (linkTrained s link latencyPs).waiting = s.waiting ∧ (linkTrained s link latencyPs).access = s.access ∧
    (linkTrained s link latencyPs).pending = s.pending := by
  simp only [linkTrained]; (repeat' split) <;> (repeat' apply And.intro) <;> (try simp) <;> (repeat refine (foldl_proj _ _ (fun _ _ => ?_) _ _).trans ?_) <;> (repeat' split) <;> (try simp) <;> (repeat' split) <;> simp

@[simp] theorem forwardTo_same (s : State) (dest : Nat) (fs : List OutFlit) :
    (forwardTo s dest fs).frame = s.frame ∧ (forwardTo s dest fs).cfg = s.cfg ∧ (forwardTo s dest fs).world = s.world ∧
    (forwardTo s dest fs).ledger = s.ledger ∧ (forwardTo s dest fs).order = s.order ∧ (forwardTo s dest fs).solver = s.solver ∧
    (forwardTo s dest fs).spec = s.spec ∧ (forwardTo s dest fs).jig = s.jig ∧ (forwardTo s dest fs).safety = s.safety ∧
    (forwardTo s dest fs).pins = s.pins ∧ (forwardTo s dest fs).die = s.die ∧ (forwardTo s dest fs).fault = s.fault ∧
    (forwardTo s dest fs).digest = s.digest ∧ (forwardTo s dest fs).eth = s.eth ∧ (forwardTo s dest fs).power = s.power ∧
    (forwardTo s dest fs).sec = s.sec ∧ (forwardTo s dest fs).jtag = s.jtag ∧ (forwardTo s dest fs).waiting = s.waiting ∧
    (forwardTo s dest fs).access = s.access ∧ (forwardTo s dest fs).fresh = s.fresh ∧ (forwardTo s dest fs).pending = s.pending := by
  unfold forwardTo; (repeat' split) <;> simp

@[simp] theorem receivedBlock_same (s : State) (img : Image) (spec : Option SpecEp) (tensor index : Nat) (data : List Byte) :
    (receivedBlock s img spec tensor index data).2.regs = s.regs ∧
    (receivedBlock s img spec tensor index data).2.frame = s.frame ∧ (receivedBlock s img spec tensor index data).2.cfg = s.cfg ∧
    (receivedBlock s img spec tensor index data).2.world = s.world ∧
    (receivedBlock s img spec tensor index data).2.ledger = s.ledger ∧
    (receivedBlock s img spec tensor index data).2.order = s.order ∧
    (receivedBlock s img spec tensor index data).2.solver = s.solver ∧
    (receivedBlock s img spec tensor index data).2.spec = s.spec ∧ (receivedBlock s img spec tensor index data).2.jig = s.jig ∧
    (receivedBlock s img spec tensor index data).2.safety = s.safety ∧
    (receivedBlock s img spec tensor index data).2.pins = s.pins ∧ (receivedBlock s img spec tensor index data).2.die = s.die ∧
    (receivedBlock s img spec tensor index data).2.fault = s.fault ∧
    (receivedBlock s img spec tensor index data).2.digest = s.digest ∧
    (receivedBlock s img spec tensor index data).2.eth = s.eth ∧ (receivedBlock s img spec tensor index data).2.tenon = s.tenon ∧
    (receivedBlock s img spec tensor index data).2.power = s.power ∧ (receivedBlock s img spec tensor index data).2.sec = s.sec ∧
    (receivedBlock s img spec tensor index data).2.jtag = s.jtag ∧
    (receivedBlock s img spec tensor index data).2.waiting = s.waiting ∧
    (receivedBlock s img spec tensor index data).2.access = s.access ∧
    (receivedBlock s img spec tensor index data).2.pending = s.pending := by
  simp only [receivedBlock]; (repeat' split) <;> simp_all

@[simp] theorem forwardRecord_same (s : State) (m : Message) :
    (forwardRecord s m).frame = s.frame ∧ (forwardRecord s m).cfg = s.cfg ∧ (forwardRecord s m).world = s.world ∧
    (forwardRecord s m).ledger = s.ledger ∧ (forwardRecord s m).order = s.order ∧ (forwardRecord s m).solver = s.solver ∧
    (forwardRecord s m).spec = s.spec ∧ (forwardRecord s m).jig = s.jig ∧ (forwardRecord s m).safety = s.safety ∧
    (forwardRecord s m).pins = s.pins ∧ (forwardRecord s m).die = s.die ∧ (forwardRecord s m).fault = s.fault ∧
    (forwardRecord s m).digest = s.digest ∧ (forwardRecord s m).eth = s.eth ∧ (forwardRecord s m).power = s.power ∧
    (forwardRecord s m).sec = s.sec ∧ (forwardRecord s m).jtag = s.jtag ∧ (forwardRecord s m).waiting = s.waiting ∧
    (forwardRecord s m).access = s.access ∧ (forwardRecord s m).pending = s.pending := by
  unfold forwardRecord; (repeat' split) <;> simp

@[simp] theorem relayToHead_same (s : State) (kind flags src : Nat) (e : Epoch) (v0 v1 : Nat) :
    (relayToHead s kind flags src e v0 v1).frame = s.frame ∧ (relayToHead s kind flags src e v0 v1).cfg = s.cfg ∧
    (relayToHead s kind flags src e v0 v1).world = s.world ∧ (relayToHead s kind flags src e v0 v1).ledger = s.ledger ∧
    (relayToHead s kind flags src e v0 v1).order = s.order ∧ (relayToHead s kind flags src e v0 v1).solver = s.solver ∧
    (relayToHead s kind flags src e v0 v1).spec = s.spec ∧ (relayToHead s kind flags src e v0 v1).jig = s.jig ∧
    (relayToHead s kind flags src e v0 v1).safety = s.safety ∧ (relayToHead s kind flags src e v0 v1).pins = s.pins ∧
    (relayToHead s kind flags src e v0 v1).die = s.die ∧ (relayToHead s kind flags src e v0 v1).fault = s.fault ∧
    (relayToHead s kind flags src e v0 v1).digest = s.digest ∧ (relayToHead s kind flags src e v0 v1).eth = s.eth ∧
    (relayToHead s kind flags src e v0 v1).power = s.power ∧ (relayToHead s kind flags src e v0 v1).sec = s.sec ∧
    (relayToHead s kind flags src e v0 v1).jtag = s.jtag ∧ (relayToHead s kind flags src e v0 v1).waiting = s.waiting ∧
    (relayToHead s kind flags src e v0 v1).access = s.access ∧ (relayToHead s kind flags src e v0 v1).fresh = s.fresh ∧
    (relayToHead s kind flags src e v0 v1).pending = s.pending := by
  unfold relayToHead; (repeat' split) <;> simp

@[simp] theorem clampCmd_same (src : Source) (s : State) :
    (clampCmd src s).frame = s.frame ∧ (clampCmd src s).cfg = s.cfg ∧ (clampCmd src s).world = s.world ∧
    (clampCmd src s).ledger = s.ledger ∧ (clampCmd src s).order = s.order ∧ (clampCmd src s).solver = s.solver ∧
    (clampCmd src s).spec = s.spec ∧ (clampCmd src s).jig = s.jig ∧ (clampCmd src s).safety = s.safety ∧
    (clampCmd src s).pins = s.pins ∧ (clampCmd src s).die = s.die ∧ (clampCmd src s).digest = s.digest ∧
    (clampCmd src s).eth = s.eth ∧ (clampCmd src s).power = s.power ∧ (clampCmd src s).sec = s.sec ∧
    (clampCmd src s).jtag = s.jtag ∧ (clampCmd src s).waiting = s.waiting ∧ (clampCmd src s).fresh = s.fresh ∧
    (clampCmd src s).pending = s.pending := by
  simp [clampCmd]

@[simp] theorem enumerateCmd_same (src : Source) (s : State) :
    (enumerateCmd src s).frame = s.frame ∧ (enumerateCmd src s).cfg = s.cfg ∧ (enumerateCmd src s).world = s.world ∧
    (enumerateCmd src s).ledger = s.ledger ∧ (enumerateCmd src s).order = s.order ∧ (enumerateCmd src s).solver = s.solver ∧
    (enumerateCmd src s).spec = s.spec ∧ (enumerateCmd src s).jig = s.jig ∧ (enumerateCmd src s).safety = s.safety ∧
    (enumerateCmd src s).pins = s.pins ∧ (enumerateCmd src s).die = s.die ∧ (enumerateCmd src s).fault = s.fault ∧
    (enumerateCmd src s).digest = s.digest ∧ (enumerateCmd src s).eth = s.eth ∧ (enumerateCmd src s).power = s.power ∧
    (enumerateCmd src s).sec = s.sec ∧ (enumerateCmd src s).jtag = s.jtag ∧ (enumerateCmd src s).waiting = s.waiting ∧
    (enumerateCmd src s).fresh = s.fresh ∧ (enumerateCmd src s).pending = s.pending := by
  simp [enumerateCmd]

@[simp] theorem remoteCmd_same (src : Source) (s : State) :
    (remoteCmd src s).frame = s.frame ∧ (remoteCmd src s).cfg = s.cfg ∧ (remoteCmd src s).world = s.world ∧
    (remoteCmd src s).ledger = s.ledger ∧ (remoteCmd src s).order = s.order ∧ (remoteCmd src s).solver = s.solver ∧
    (remoteCmd src s).spec = s.spec ∧ (remoteCmd src s).jig = s.jig ∧ (remoteCmd src s).safety = s.safety ∧
    (remoteCmd src s).pins = s.pins ∧ (remoteCmd src s).die = s.die ∧ (remoteCmd src s).fault = s.fault ∧
    (remoteCmd src s).digest = s.digest ∧ (remoteCmd src s).eth = s.eth ∧ (remoteCmd src s).power = s.power ∧
    (remoteCmd src s).sec = s.sec ∧ (remoteCmd src s).jtag = s.jtag ∧ (remoteCmd src s).waiting = s.waiting ∧
    (remoteCmd src s).pending = s.pending := by
  simp only [remoteCmd, tenonWrite_same]; (repeat' split) <;> simp

@[simp] theorem bootStep_same (s : State) (n : Nat) :
    (bootStep s n).frame = s.frame ∧ (bootStep s n).cfg = s.cfg ∧ (bootStep s n).world = s.world ∧
    (bootStep s n).ledger = s.ledger ∧ (bootStep s n).order = s.order ∧ (bootStep s n).solver = s.solver ∧
    (bootStep s n).spec = s.spec ∧ (bootStep s n).jig = s.jig ∧ (bootStep s n).safety = s.safety ∧ (bootStep s n).pins = s.pins ∧
    (bootStep s n).die = s.die ∧ (bootStep s n).fault = s.fault ∧ (bootStep s n).digest = s.digest ∧ (bootStep s n).eth = s.eth ∧
    (bootStep s n).tenon = s.tenon ∧ (bootStep s n).power = s.power ∧ (bootStep s n).sec = s.sec ∧ (bootStep s n).jtag = s.jtag ∧
    (bootStep s n).waiting = s.waiting ∧ (bootStep s n).access = s.access ∧ (bootStep s n).fresh = s.fresh ∧
    (bootStep s n).pending = s.pending := by
  simp [bootStep]

@[simp] theorem bootFail_same (s : State) (code : Nat) :
    (bootFail s code).world = s.world ∧ (bootFail s code).ledger = s.ledger ∧ (bootFail s code).order = s.order ∧
    (bootFail s code).solver = s.solver ∧ (bootFail s code).die = s.die ∧ (bootFail s code).eth = s.eth ∧
    (bootFail s code).jtag = s.jtag ∧ (bootFail s code).waiting = s.waiting ∧ (bootFail s code).access = s.access ∧
    (bootFail s code).fresh = s.fresh ∧ (bootFail s code).pending = s.pending := by
  simp only [bootFail]; (repeat' split) <;> simp_all

@[simp] theorem markUnits_same (cls mask n : Nat) (s : State) :
    (markUnits cls mask n s).frame = s.frame ∧ (markUnits cls mask n s).cfg = s.cfg ∧ (markUnits cls mask n s).world = s.world ∧
    (markUnits cls mask n s).ledger = s.ledger ∧ (markUnits cls mask n s).order = s.order ∧
    (markUnits cls mask n s).solver = s.solver ∧ (markUnits cls mask n s).spec = s.spec ∧ (markUnits cls mask n s).jig = s.jig ∧
    (markUnits cls mask n s).safety = s.safety ∧ (markUnits cls mask n s).pins = s.pins ∧ (markUnits cls mask n s).die = s.die ∧
    (markUnits cls mask n s).digest = s.digest ∧ (markUnits cls mask n s).eth = s.eth ∧
    (markUnits cls mask n s).tenon = s.tenon ∧ (markUnits cls mask n s).power = s.power ∧ (markUnits cls mask n s).sec = s.sec ∧
    (markUnits cls mask n s).jtag = s.jtag ∧ (markUnits cls mask n s).waiting = s.waiting ∧
    (markUnits cls mask n s).access = s.access ∧ (markUnits cls mask n s).fresh = s.fresh ∧
    (markUnits cls mask n s).pending = s.pending := by
  simp [markUnits]

@[simp] theorem applyDie_same (s : State) :
    (applyDie s).frame = s.frame ∧ (applyDie s).cfg = s.cfg ∧ (applyDie s).world = s.world ∧ (applyDie s).ledger = s.ledger ∧
    (applyDie s).order = s.order ∧ (applyDie s).solver = s.solver ∧ (applyDie s).spec = s.spec ∧ (applyDie s).jig = s.jig ∧
    (applyDie s).safety = s.safety ∧ (applyDie s).pins = s.pins ∧ (applyDie s).die = s.die ∧ (applyDie s).digest = s.digest ∧
    (applyDie s).eth = s.eth ∧ (applyDie s).tenon = s.tenon ∧ (applyDie s).power = s.power ∧ (applyDie s).sec = s.sec ∧
    (applyDie s).jtag = s.jtag ∧ (applyDie s).waiting = s.waiting ∧ (applyDie s).access = s.access ∧
    (applyDie s).fresh = s.fresh ∧ (applyDie s).pending = s.pending := by
  simp only [applyDie]; (repeat' split) <;> (repeat' apply And.intro) <;> (try simp) <;> (repeat refine (foldl_proj _ _ (fun _ _ => ?_) _ _).trans ?_) <;> (repeat' split) <;> (try simp) <;> (repeat' split) <;> simp

@[simp] theorem fixIdent_same (s : State) :
    (fixIdent s).frame = s.frame ∧ (fixIdent s).cfg = s.cfg ∧ (fixIdent s).world = s.world ∧ (fixIdent s).ledger = s.ledger ∧
    (fixIdent s).order = s.order ∧ (fixIdent s).solver = s.solver ∧ (fixIdent s).spec = s.spec ∧ (fixIdent s).jig = s.jig ∧
    (fixIdent s).safety = s.safety ∧ (fixIdent s).pins = s.pins ∧ (fixIdent s).fault = s.fault ∧ (fixIdent s).digest = s.digest ∧
    (fixIdent s).eth = s.eth ∧ (fixIdent s).tenon = s.tenon ∧ (fixIdent s).power = s.power ∧ (fixIdent s).sec = s.sec ∧
    (fixIdent s).jtag = s.jtag ∧ (fixIdent s).waiting = s.waiting ∧ (fixIdent s).access = s.access ∧
    (fixIdent s).fresh = s.fresh ∧ (fixIdent s).pending = s.pending := by
  simp [fixIdent]

@[simp] theorem forgetChain_same (s : State) :
    (forgetChain s).frame = s.frame ∧ (forgetChain s).cfg = s.cfg ∧ (forgetChain s).world = s.world ∧
    (forgetChain s).ledger = s.ledger ∧ (forgetChain s).order = s.order ∧ (forgetChain s).solver = s.solver ∧
    (forgetChain s).spec = s.spec ∧ (forgetChain s).jig = s.jig ∧ (forgetChain s).safety = s.safety ∧
    (forgetChain s).pins = s.pins ∧ (forgetChain s).die = s.die ∧ (forgetChain s).fault = s.fault ∧
    (forgetChain s).digest = s.digest ∧ (forgetChain s).eth = s.eth ∧ (forgetChain s).power = s.power ∧
    (forgetChain s).sec = s.sec ∧ (forgetChain s).jtag = s.jtag ∧ (forgetChain s).waiting = s.waiting ∧
    (forgetChain s).access = s.access ∧ (forgetChain s).fresh = s.fresh ∧ (forgetChain s).pending = s.pending := by
  unfold forgetChain; (repeat' split) <;> simp

@[simp] theorem finishBoot_same (s : State) :
    (finishBoot s).pins = s.pins ∧ (finishBoot s).die = s.die ∧ (finishBoot s).power = s.power ∧ (finishBoot s).jtag = s.jtag ∧
    (finishBoot s).waiting = s.waiting ∧ (finishBoot s).access = s.access ∧ (finishBoot s).fresh = s.fresh ∧
    (finishBoot s).pending = s.pending := by
  unfold finishBoot; (repeat' split) <;> simp

@[simp] theorem settlePlacement_same (s : State) (p : Placement) :
    (settlePlacement s p).die = s.die ∧ (settlePlacement s p).jtag = s.jtag ∧ (settlePlacement s p).waiting = s.waiting ∧
    (settlePlacement s p).access = s.access ∧ (settlePlacement s p).fresh = s.fresh ∧ (settlePlacement s p).pending = s.pending := by
  simp only [settlePlacement]; (repeat' split) <;> simp_all

@[simp] theorem placeAll_same (s : State) :
    (placeAll s).die = s.die ∧ (placeAll s).jtag = s.jtag ∧ (placeAll s).waiting = s.waiting ∧ (placeAll s).access = s.access ∧
    (placeAll s).pending = s.pending := by
  simp only [placeAll]; (repeat' split) <;> (repeat' apply And.intro) <;> (try simp) <;> (repeat refine (foldl_proj _ _ (fun _ _ => ?_) _ _).trans ?_) <;> (repeat' split) <;> (try simp) <;> (repeat' split) <;> simp

@[simp] theorem askFrom_same (s : State) (from_ : Nat) :
    (askFrom s from_).die = s.die ∧ (askFrom s from_).jtag = s.jtag ∧ (askFrom s from_).waiting = s.waiting ∧
    (askFrom s from_).access = s.access ∧ (askFrom s from_).pending = s.pending := by
  simp only [askFrom]; (repeat' split) <;> simp_all

@[simp] theorem startEnum_same (s : State) :
    (startEnum s).die = s.die ∧ (startEnum s).jtag = s.jtag ∧ (startEnum s).waiting = s.waiting ∧
    (startEnum s).access = s.access ∧ (startEnum s).pending = s.pending := by
  simp [startEnum]

@[simp] theorem bistFail_same (a : Bool × State) (u : Nat × Nat) :
    (bistFail a u).2.world = a.2.world ∧ (bistFail a u).2.order = a.2.order ∧ (bistFail a u).2.solver = a.2.solver ∧ (bistFail a u).2.jtag = a.2.jtag ∧ (bistFail a u).2.waiting = a.2.waiting ∧ (bistFail a u).2.access = a.2.access ∧ (bistFail a u).2.pending = a.2.pending := by
  simp only [bistFail]; (repeat' split) <;> simp
@[simp] theorem bistUnits_same (s : State) (us : List (Nat × Nat)) (classes : List Nat) :
    (bistUnits s us classes).2.world = s.world ∧ (bistUnits s us classes).2.order = s.order ∧
    (bistUnits s us classes).2.solver = s.solver ∧ (bistUnits s us classes).2.jtag = s.jtag ∧
    (bistUnits s us classes).2.waiting = s.waiting ∧ (bistUnits s us classes).2.access = s.access ∧
    (bistUnits s us classes).2.pending = s.pending := by
  simp only [bistUnits]; (repeat' apply And.intro) <;> (refine (foldl_snd _ _ (fun _ _ => ?_) _ _).trans ?_) <;> simp

@[simp] theorem afterLoad_same (s : State) :
    (afterLoad s).jtag = s.jtag ∧ (afterLoad s).waiting = s.waiting ∧ (afterLoad s).access = s.access ∧
    (afterLoad s).pending = s.pending := by
  simp only [afterLoad]; (repeat' split) <;> simp_all

@[simp] theorem rejectSlot_same (s : State) (i : Nat) :
    (rejectSlot s i).frame = s.frame ∧ (rejectSlot s i).cfg = s.cfg ∧ (rejectSlot s i).world = s.world ∧
    (rejectSlot s i).ledger = s.ledger ∧ (rejectSlot s i).order = s.order ∧ (rejectSlot s i).solver = s.solver ∧
    (rejectSlot s i).spec = s.spec ∧ (rejectSlot s i).jig = s.jig ∧ (rejectSlot s i).safety = s.safety ∧
    (rejectSlot s i).pins = s.pins ∧ (rejectSlot s i).die = s.die ∧ (rejectSlot s i).fault = s.fault ∧
    (rejectSlot s i).digest = s.digest ∧ (rejectSlot s i).eth = s.eth ∧ (rejectSlot s i).tenon = s.tenon ∧
    (rejectSlot s i).power = s.power ∧ (rejectSlot s i).sec = s.sec ∧ (rejectSlot s i).jtag = s.jtag ∧
    (rejectSlot s i).waiting = s.waiting ∧ (rejectSlot s i).access = s.access ∧ (rejectSlot s i).fresh = s.fresh ∧
    (rejectSlot s i).pending = s.pending := by
  simp [rejectSlot]

@[simp] theorem tryOne_same (a : Bool × State) (i : Nat) :
    (tryOne a i).2.jtag = a.2.jtag ∧ (tryOne a i).2.waiting = a.2.waiting ∧ (tryOne a i).2.access = a.2.access ∧ (tryOne a i).2.pending = a.2.pending := by
  simp only [tryOne]; (repeat' split) <;> simp
@[simp] theorem trySlots_same (l : List Nat) (s : State) :
    (trySlots l s).jtag = s.jtag ∧ (trySlots l s).waiting = s.waiting ∧ (trySlots l s).access = s.access ∧
    (trySlots l s).pending = s.pending := by
  simp only [trySlots]; (repeat' apply And.intro) <;> split <;> (try simp) <;> (refine (foldl_snd _ _ (fun _ _ => ?_) _ _).trans ?_) <;> simp

@[simp] theorem waitHost_same (s : State) :
    (waitHost s).frame = s.frame ∧ (waitHost s).world = s.world ∧ (waitHost s).ledger = s.ledger ∧ (waitHost s).order = s.order ∧
    (waitHost s).solver = s.solver ∧ (waitHost s).spec = s.spec ∧ (waitHost s).jig = s.jig ∧ (waitHost s).safety = s.safety ∧
    (waitHost s).pins = s.pins ∧ (waitHost s).die = s.die ∧ (waitHost s).fault = s.fault ∧ (waitHost s).digest = s.digest ∧
    (waitHost s).eth = s.eth ∧ (waitHost s).tenon = s.tenon ∧ (waitHost s).power = s.power ∧ (waitHost s).sec = s.sec ∧
    (waitHost s).jtag = s.jtag ∧ (waitHost s).waiting = s.waiting ∧ (waitHost s).access = s.access ∧
    (waitHost s).fresh = s.fresh ∧ (waitHost s).pending = s.pending := by
  simp [waitHost]

@[simp] theorem selectSlot_same (s : State) :
    (selectSlot s).jtag = s.jtag ∧ (selectSlot s).waiting = s.waiting ∧ (selectSlot s).access = s.access ∧
    (selectSlot s).pending = s.pending := by
  simp only [selectSlot]; (repeat' split) <;> simp_all

@[simp] theorem coldBegin_same (s : State) :
    (coldBegin s).frame = s.frame ∧ (coldBegin s).cfg = s.cfg ∧ (coldBegin s).world = s.world ∧ (coldBegin s).ledger = s.ledger ∧
    (coldBegin s).order = s.order ∧ (coldBegin s).solver = s.solver ∧ (coldBegin s).spec = s.spec ∧ (coldBegin s).jig = s.jig ∧
    (coldBegin s).safety = s.safety ∧ (coldBegin s).die = s.die ∧ (coldBegin s).fault = s.fault ∧
    (coldBegin s).digest = s.digest ∧ (coldBegin s).eth = s.eth ∧ (coldBegin s).tenon = s.tenon ∧ (coldBegin s).power = s.power ∧
    (coldBegin s).jtag = s.jtag ∧ (coldBegin s).waiting = s.waiting ∧ (coldBegin s).access = s.access ∧
    (coldBegin s).fresh = s.fresh ∧ (coldBegin s).pending = s.pending := by
  unfold coldBegin; (repeat' split) <;> simp

@[simp] theorem coldRest_same (s : State) (r : BootReport) :
    (coldRest s r).jtag = s.jtag ∧ (coldRest s r).waiting = s.waiting ∧ (coldRest s r).access = s.access ∧
    (coldRest s r).pending = s.pending := by
  simp only [coldRest]; (repeat' split) <;> simp_all

@[simp] theorem warmDone_same (s : State) :
    (warmDone s).die = s.die ∧ (warmDone s).jtag = s.jtag ∧ (warmDone s).waiting = s.waiting ∧ (warmDone s).access = s.access ∧
    (warmDone s).pending = s.pending := by
  simp only [warmDone]; (repeat' split) <;> simp_all

@[simp] theorem loadWent_same (s : State) (slot : Nat) :
    (loadWent s slot).jtag = s.jtag ∧ (loadWent s slot).waiting = s.waiting ∧ (loadWent s slot).access = s.access ∧
    (loadWent s slot).pending = s.pending := by
  unfold loadWent; (repeat' split) <;> simp

@[simp] theorem stageBytes_same (s : State) (off : Nat) (data : List Byte) :
    (stageBytes s off data).regs = s.regs ∧ (stageBytes s off data).frame = s.frame ∧ (stageBytes s off data).world = s.world ∧
    (stageBytes s off data).ledger = s.ledger ∧ (stageBytes s off data).order = s.order ∧
    (stageBytes s off data).solver = s.solver ∧ (stageBytes s off data).spec = s.spec ∧ (stageBytes s off data).jig = s.jig ∧
    (stageBytes s off data).safety = s.safety ∧ (stageBytes s off data).pins = s.pins ∧ (stageBytes s off data).die = s.die ∧
    (stageBytes s off data).fault = s.fault ∧ (stageBytes s off data).digest = s.digest ∧ (stageBytes s off data).eth = s.eth ∧
    (stageBytes s off data).tenon = s.tenon ∧ (stageBytes s off data).power = s.power ∧ (stageBytes s off data).sec = s.sec ∧
    (stageBytes s off data).jtag = s.jtag ∧ (stageBytes s off data).waiting = s.waiting ∧
    (stageBytes s off data).access = s.access ∧ (stageBytes s off data).fresh = s.fresh ∧
    (stageBytes s off data).pending = s.pending := by
  simp only [stageBytes]; (repeat' split) <;> (repeat' apply And.intro) <;> (try simp) <;> (repeat refine (foldl_proj _ _ (fun _ _ => ?_) _ _).trans ?_) <;> (repeat' split) <;> (try simp) <;> (repeat' split) <;> simp

@[simp] theorem takeChunk_same (s : State) (host : Bool) (off : Nat) (data : List Byte) :
    (takeChunk s host off data).jtag = s.jtag ∧ (takeChunk s host off data).waiting = s.waiting ∧
    (takeChunk s host off data).access = s.access ∧ (takeChunk s host off data).pending = s.pending := by
  simp only [takeChunk]; (repeat' split) <;> (repeat' apply And.intro) <;> (try simp) <;> (repeat refine (foldl_proj _ _ (fun _ _ => ?_) _ _).trans ?_) <;> (repeat' split) <;> (try simp) <;> (repeat' split) <;> simp

@[simp] theorem chunk_same (s : State) (f : Frame) :
    (chunk s f).jtag = s.jtag ∧ (chunk s f).waiting = s.waiting ∧ (chunk s f).access = s.access ∧ (chunk s f).pending = s.pending := by
  simp only [chunk]; (repeat' split) <;> (repeat' apply And.intro) <;> (try simp) <;> (repeat refine (foldl_proj _ _ (fun _ _ => ?_) _ _).trans ?_) <;> (repeat' split) <;> (try simp) <;> (repeat' split) <;> simp

@[simp] theorem bootResult_same (s : State) (r : Nat) :
    (bootResult s r).frame = s.frame ∧ (bootResult s r).cfg = s.cfg ∧ (bootResult s r).world = s.world ∧
    (bootResult s r).ledger = s.ledger ∧ (bootResult s r).order = s.order ∧ (bootResult s r).solver = s.solver ∧
    (bootResult s r).spec = s.spec ∧ (bootResult s r).jig = s.jig ∧ (bootResult s r).safety = s.safety ∧
    (bootResult s r).pins = s.pins ∧ (bootResult s r).die = s.die ∧ (bootResult s r).fault = s.fault ∧
    (bootResult s r).digest = s.digest ∧ (bootResult s r).eth = s.eth ∧ (bootResult s r).tenon = s.tenon ∧
    (bootResult s r).power = s.power ∧ (bootResult s r).sec = s.sec ∧ (bootResult s r).jtag = s.jtag ∧
    (bootResult s r).waiting = s.waiting ∧ (bootResult s r).access = s.access ∧ (bootResult s r).fresh = s.fresh ∧
    (bootResult s r).pending = s.pending := by
  simp [bootResult]

@[simp] theorem restartCmd_same (why : Nat) (src : Source) (s : State) :
    (restartCmd why src s).frame = s.frame ∧ (restartCmd why src s).world = s.world ∧ (restartCmd why src s).ledger = s.ledger ∧
    (restartCmd why src s).order = s.order ∧ (restartCmd why src s).solver = s.solver ∧ (restartCmd why src s).spec = s.spec ∧
    (restartCmd why src s).jig = s.jig ∧ (restartCmd why src s).safety = s.safety ∧ (restartCmd why src s).pins = s.pins ∧
    (restartCmd why src s).die = s.die ∧ (restartCmd why src s).fault = s.fault ∧ (restartCmd why src s).digest = s.digest ∧
    (restartCmd why src s).eth = s.eth ∧ (restartCmd why src s).tenon = s.tenon ∧ (restartCmd why src s).power = s.power ∧
    (restartCmd why src s).sec = s.sec ∧ (restartCmd why src s).jtag = s.jtag ∧ (restartCmd why src s).waiting = s.waiting ∧
    (restartCmd why src s).access = s.access ∧ (restartCmd why src s).fresh = s.fresh ∧ (restartCmd why src s).pending = s.pending := by
  unfold restartCmd; (repeat' split) <;> simp

@[simp] theorem retryCmd_same (src : Source) (s : State) :
    (retryCmd src s).world = s.world ∧ (retryCmd src s).ledger = s.ledger ∧ (retryCmd src s).order = s.order ∧
    (retryCmd src s).solver = s.solver ∧ (retryCmd src s).pins = s.pins ∧ (retryCmd src s).die = s.die ∧
    (retryCmd src s).jtag = s.jtag ∧ (retryCmd src s).waiting = s.waiting ∧ (retryCmd src s).access = s.access ∧
    (retryCmd src s).fresh = s.fresh ∧ (retryCmd src s).pending = s.pending := by
  unfold retryCmd; (repeat' split) <;> simp

@[simp] theorem loadCmd_same (src : Source) (s : State) :
    (loadCmd src s).jtag = s.jtag ∧ (loadCmd src s).waiting = s.waiting ∧ (loadCmd src s).access = s.access ∧
    (loadCmd src s).pending = s.pending := by
  unfold loadCmd; (repeat' split) <;> simp

@[simp] theorem imageMessage_same (s : State) (l : Nat) (b : List Byte) :
    (imageMessage s l b).frame = s.frame ∧ (imageMessage s l b).cfg = s.cfg ∧ (imageMessage s l b).world = s.world ∧
    (imageMessage s l b).ledger = s.ledger ∧ (imageMessage s l b).order = s.order ∧ (imageMessage s l b).solver = s.solver ∧
    (imageMessage s l b).spec = s.spec ∧ (imageMessage s l b).jig = s.jig ∧ (imageMessage s l b).safety = s.safety ∧
    (imageMessage s l b).pins = s.pins ∧ (imageMessage s l b).die = s.die ∧ (imageMessage s l b).fault = s.fault ∧
    (imageMessage s l b).digest = s.digest ∧ (imageMessage s l b).eth = s.eth ∧ (imageMessage s l b).power = s.power ∧
    (imageMessage s l b).sec = s.sec ∧ (imageMessage s l b).jtag = s.jtag ∧ (imageMessage s l b).waiting = s.waiting ∧
    (imageMessage s l b).access = s.access ∧ (imageMessage s l b).fresh = s.fresh ∧ (imageMessage s l b).pending = s.pending := by
  simp [imageMessage]

@[simp] theorem sendImage_same (s : State) (link : Nat) :
    (sendImage s link).frame = s.frame ∧ (sendImage s link).cfg = s.cfg ∧ (sendImage s link).world = s.world ∧
    (sendImage s link).ledger = s.ledger ∧ (sendImage s link).order = s.order ∧ (sendImage s link).solver = s.solver ∧
    (sendImage s link).spec = s.spec ∧ (sendImage s link).jig = s.jig ∧ (sendImage s link).safety = s.safety ∧
    (sendImage s link).pins = s.pins ∧ (sendImage s link).die = s.die ∧ (sendImage s link).fault = s.fault ∧
    (sendImage s link).digest = s.digest ∧ (sendImage s link).eth = s.eth ∧ (sendImage s link).power = s.power ∧
    (sendImage s link).sec = s.sec ∧ (sendImage s link).jtag = s.jtag ∧ (sendImage s link).waiting = s.waiting ∧
    (sendImage s link).access = s.access ∧ (sendImage s link).fresh = s.fresh ∧ (sendImage s link).pending = s.pending := by
  simp [sendImage]

@[simp] theorem receiveImage_same (s : State) (data : List Byte) :
    (receiveImage s data).jtag = s.jtag ∧ (receiveImage s data).waiting = s.waiting ∧ (receiveImage s data).access = s.access ∧
    (receiveImage s data).pending = s.pending := by
  simp only [receiveImage]; (repeat' split) <;> (repeat' apply And.intro) <;> (try simp) <;> (repeat refine (foldl_proj _ _ (fun _ _ => ?_) _ _).trans ?_) <;> (repeat' split) <;> (try simp) <;> (repeat' split) <;> simp

@[simp] theorem keyResult_same (s : State) (r : Nat) :
    (keyResult s r).frame = s.frame ∧ (keyResult s r).cfg = s.cfg ∧ (keyResult s r).world = s.world ∧
    (keyResult s r).ledger = s.ledger ∧ (keyResult s r).order = s.order ∧ (keyResult s r).solver = s.solver ∧
    (keyResult s r).spec = s.spec ∧ (keyResult s r).jig = s.jig ∧ (keyResult s r).safety = s.safety ∧
    (keyResult s r).pins = s.pins ∧ (keyResult s r).die = s.die ∧ (keyResult s r).fault = s.fault ∧
    (keyResult s r).digest = s.digest ∧ (keyResult s r).eth = s.eth ∧ (keyResult s r).tenon = s.tenon ∧
    (keyResult s r).power = s.power ∧ (keyResult s r).sec = s.sec ∧ (keyResult s r).jtag = s.jtag ∧
    (keyResult s r).waiting = s.waiting ∧ (keyResult s r).access = s.access ∧ (keyResult s r).fresh = s.fresh ∧
    (keyResult s r).pending = s.pending := by
  simp [keyResult]

@[simp] theorem putKeys_same (s : State) (ks : List (Nat × List Byte)) :
    (putKeys s ks).frame = s.frame ∧ (putKeys s ks).cfg = s.cfg ∧ (putKeys s ks).world = s.world ∧
    (putKeys s ks).ledger = s.ledger ∧ (putKeys s ks).order = s.order ∧ (putKeys s ks).solver = s.solver ∧
    (putKeys s ks).spec = s.spec ∧ (putKeys s ks).jig = s.jig ∧ (putKeys s ks).safety = s.safety ∧ (putKeys s ks).pins = s.pins ∧
    (putKeys s ks).die = s.die ∧ (putKeys s ks).fault = s.fault ∧ (putKeys s ks).digest = s.digest ∧ (putKeys s ks).eth = s.eth ∧
    (putKeys s ks).tenon = s.tenon ∧ (putKeys s ks).power = s.power ∧ (putKeys s ks).jtag = s.jtag ∧
    (putKeys s ks).waiting = s.waiting ∧ (putKeys s ks).access = s.access ∧ (putKeys s ks).fresh = s.fresh ∧
    (putKeys s ks).pending = s.pending := by
  simp [putKeys]

@[simp] theorem enrolKey_same (s : State) (b : List Byte) :
    (enrolKey s b).frame = s.frame ∧ (enrolKey s b).cfg = s.cfg ∧ (enrolKey s b).world = s.world ∧
    (enrolKey s b).ledger = s.ledger ∧ (enrolKey s b).order = s.order ∧ (enrolKey s b).solver = s.solver ∧
    (enrolKey s b).spec = s.spec ∧ (enrolKey s b).jig = s.jig ∧ (enrolKey s b).safety = s.safety ∧ (enrolKey s b).pins = s.pins ∧
    (enrolKey s b).die = s.die ∧ (enrolKey s b).fault = s.fault ∧ (enrolKey s b).digest = s.digest ∧ (enrolKey s b).eth = s.eth ∧
    (enrolKey s b).tenon = s.tenon ∧ (enrolKey s b).power = s.power ∧ (enrolKey s b).jtag = s.jtag ∧
    (enrolKey s b).waiting = s.waiting ∧ (enrolKey s b).access = s.access ∧ (enrolKey s b).fresh = s.fresh ∧
    (enrolKey s b).pending = s.pending := by
  simp only [enrolKey]; (repeat' split) <;> simp_all

@[simp] theorem revokeKey_same (s : State) (b : List Byte) :
    (revokeKey s b).frame = s.frame ∧ (revokeKey s b).cfg = s.cfg ∧ (revokeKey s b).world = s.world ∧
    (revokeKey s b).ledger = s.ledger ∧ (revokeKey s b).order = s.order ∧ (revokeKey s b).solver = s.solver ∧
    (revokeKey s b).spec = s.spec ∧ (revokeKey s b).jig = s.jig ∧ (revokeKey s b).safety = s.safety ∧
    (revokeKey s b).pins = s.pins ∧ (revokeKey s b).die = s.die ∧ (revokeKey s b).fault = s.fault ∧
    (revokeKey s b).digest = s.digest ∧ (revokeKey s b).eth = s.eth ∧ (revokeKey s b).tenon = s.tenon ∧
    (revokeKey s b).power = s.power ∧ (revokeKey s b).jtag = s.jtag ∧ (revokeKey s b).waiting = s.waiting ∧
    (revokeKey s b).access = s.access ∧ (revokeKey s b).fresh = s.fresh ∧ (revokeKey s b).pending = s.pending := by
  simp only [revokeKey]; (repeat' split) <;> simp_all

@[simp] theorem applyKey_same (src : Source) (s : State) :
    (applyKey src s).frame = s.frame ∧ (applyKey src s).cfg = s.cfg ∧ (applyKey src s).world = s.world ∧
    (applyKey src s).ledger = s.ledger ∧ (applyKey src s).order = s.order ∧ (applyKey src s).solver = s.solver ∧
    (applyKey src s).spec = s.spec ∧ (applyKey src s).jig = s.jig ∧ (applyKey src s).safety = s.safety ∧
    (applyKey src s).pins = s.pins ∧ (applyKey src s).die = s.die ∧ (applyKey src s).fault = s.fault ∧
    (applyKey src s).digest = s.digest ∧ (applyKey src s).eth = s.eth ∧ (applyKey src s).tenon = s.tenon ∧
    (applyKey src s).power = s.power ∧ (applyKey src s).jtag = s.jtag ∧ (applyKey src s).waiting = s.waiting ∧
    (applyKey src s).access = s.access ∧ (applyKey src s).pending = s.pending := by
  simp only [applyKey]; (repeat' split) <;> simp_all

@[simp] theorem debugResult_same (s : State) (r : Nat) :
    (debugResult s r).frame = s.frame ∧ (debugResult s r).cfg = s.cfg ∧ (debugResult s r).world = s.world ∧
    (debugResult s r).ledger = s.ledger ∧ (debugResult s r).order = s.order ∧ (debugResult s r).solver = s.solver ∧
    (debugResult s r).spec = s.spec ∧ (debugResult s r).jig = s.jig ∧ (debugResult s r).safety = s.safety ∧
    (debugResult s r).pins = s.pins ∧ (debugResult s r).die = s.die ∧ (debugResult s r).fault = s.fault ∧
    (debugResult s r).digest = s.digest ∧ (debugResult s r).eth = s.eth ∧ (debugResult s r).tenon = s.tenon ∧
    (debugResult s r).power = s.power ∧ (debugResult s r).sec = s.sec ∧ (debugResult s r).jtag = s.jtag ∧
    (debugResult s r).waiting = s.waiting ∧ (debugResult s r).access = s.access ∧ (debugResult s r).fresh = s.fresh ∧
    (debugResult s r).pending = s.pending := by
  simp [debugResult]

@[simp] theorem challengeCmd_same (src : Source) (s : State) :
    (challengeCmd src s).frame = s.frame ∧ (challengeCmd src s).cfg = s.cfg ∧ (challengeCmd src s).world = s.world ∧
    (challengeCmd src s).ledger = s.ledger ∧ (challengeCmd src s).order = s.order ∧ (challengeCmd src s).solver = s.solver ∧
    (challengeCmd src s).spec = s.spec ∧ (challengeCmd src s).jig = s.jig ∧ (challengeCmd src s).safety = s.safety ∧
    (challengeCmd src s).pins = s.pins ∧ (challengeCmd src s).die = s.die ∧ (challengeCmd src s).fault = s.fault ∧
    (challengeCmd src s).digest = s.digest ∧ (challengeCmd src s).eth = s.eth ∧ (challengeCmd src s).tenon = s.tenon ∧
    (challengeCmd src s).power = s.power ∧ (challengeCmd src s).jtag = s.jtag ∧ (challengeCmd src s).waiting = s.waiting ∧
    (challengeCmd src s).pending = s.pending := by
  simp only [challengeCmd, ownerOnly_same]; (repeat' split) <;> simp

@[simp] theorem respondCmd_same (src : Source) (s : State) :
    (respondCmd src s).frame = s.frame ∧ (respondCmd src s).cfg = s.cfg ∧ (respondCmd src s).world = s.world ∧
    (respondCmd src s).ledger = s.ledger ∧ (respondCmd src s).order = s.order ∧ (respondCmd src s).solver = s.solver ∧
    (respondCmd src s).spec = s.spec ∧ (respondCmd src s).jig = s.jig ∧ (respondCmd src s).safety = s.safety ∧
    (respondCmd src s).pins = s.pins ∧ (respondCmd src s).die = s.die ∧ (respondCmd src s).fault = s.fault ∧
    (respondCmd src s).digest = s.digest ∧ (respondCmd src s).tenon = s.tenon ∧ (respondCmd src s).power = s.power ∧
    (respondCmd src s).jtag = s.jtag ∧ (respondCmd src s).waiting = s.waiting ∧ (respondCmd src s).fresh = s.fresh ∧
    (respondCmd src s).pending = s.pending := by
  simp only [respondCmd, ownerOnly_same]; (repeat' split) <;> simp

@[simp] theorem powerResult_same (s : State) (r : Nat) :
    (powerResult s r).frame = s.frame ∧ (powerResult s r).cfg = s.cfg ∧ (powerResult s r).world = s.world ∧
    (powerResult s r).ledger = s.ledger ∧ (powerResult s r).order = s.order ∧ (powerResult s r).solver = s.solver ∧
    (powerResult s r).spec = s.spec ∧ (powerResult s r).jig = s.jig ∧ (powerResult s r).safety = s.safety ∧
    (powerResult s r).pins = s.pins ∧ (powerResult s r).die = s.die ∧ (powerResult s r).fault = s.fault ∧
    (powerResult s r).digest = s.digest ∧ (powerResult s r).eth = s.eth ∧ (powerResult s r).tenon = s.tenon ∧
    (powerResult s r).power = s.power ∧ (powerResult s r).sec = s.sec ∧ (powerResult s r).jtag = s.jtag ∧
    (powerResult s r).waiting = s.waiting ∧ (powerResult s r).access = s.access ∧ (powerResult s r).fresh = s.fresh ∧
    (powerResult s r).pending = s.pending := by
  simp [powerResult]

@[simp] theorem acceptEntry_same (s : State) (kind : Nat) :
    (acceptEntry s kind).frame = s.frame ∧ (acceptEntry s kind).world = s.world ∧ (acceptEntry s kind).ledger = s.ledger ∧
    (acceptEntry s kind).order = s.order ∧ (acceptEntry s kind).solver = s.solver ∧ (acceptEntry s kind).spec = s.spec ∧
    (acceptEntry s kind).jig = s.jig ∧ (acceptEntry s kind).safety = s.safety ∧ (acceptEntry s kind).pins = s.pins ∧
    (acceptEntry s kind).die = s.die ∧ (acceptEntry s kind).fault = s.fault ∧ (acceptEntry s kind).digest = s.digest ∧
    (acceptEntry s kind).eth = s.eth ∧ (acceptEntry s kind).tenon = s.tenon ∧ (acceptEntry s kind).sec = s.sec ∧
    (acceptEntry s kind).jtag = s.jtag ∧ (acceptEntry s kind).waiting = s.waiting ∧ (acceptEntry s kind).access = s.access ∧
    (acceptEntry s kind).fresh = s.fresh ∧ (acceptEntry s kind).pending = s.pending := by
  simp [acceptEntry]

@[simp] theorem entryCmd_same (kind : Nat) (src : Source) (s : State) :
    (entryCmd kind src s).frame = s.frame ∧ (entryCmd kind src s).world = s.world ∧ (entryCmd kind src s).ledger = s.ledger ∧
    (entryCmd kind src s).order = s.order ∧ (entryCmd kind src s).solver = s.solver ∧ (entryCmd kind src s).spec = s.spec ∧
    (entryCmd kind src s).jig = s.jig ∧ (entryCmd kind src s).safety = s.safety ∧ (entryCmd kind src s).pins = s.pins ∧
    (entryCmd kind src s).die = s.die ∧ (entryCmd kind src s).fault = s.fault ∧ (entryCmd kind src s).digest = s.digest ∧
    (entryCmd kind src s).eth = s.eth ∧ (entryCmd kind src s).tenon = s.tenon ∧ (entryCmd kind src s).sec = s.sec ∧
    (entryCmd kind src s).jtag = s.jtag ∧ (entryCmd kind src s).waiting = s.waiting ∧ (entryCmd kind src s).access = s.access ∧
    (entryCmd kind src s).fresh = s.fresh ∧ (entryCmd kind src s).pending = s.pending := by
  simp only [entryCmd]; (repeat' split) <;> simp_all

@[simp] theorem cancelEntry_same (src : Source) (s : State) :
    (cancelEntry src s).world = s.world ∧ (cancelEntry src s).ledger = s.ledger ∧ (cancelEntry src s).order = s.order ∧
    (cancelEntry src s).solver = s.solver ∧ (cancelEntry src s).spec = s.spec ∧ (cancelEntry src s).jig = s.jig ∧
    (cancelEntry src s).safety = s.safety ∧ (cancelEntry src s).pins = s.pins ∧ (cancelEntry src s).die = s.die ∧
    (cancelEntry src s).fault = s.fault ∧ (cancelEntry src s).digest = s.digest ∧ (cancelEntry src s).eth = s.eth ∧
    (cancelEntry src s).tenon = s.tenon ∧ (cancelEntry src s).sec = s.sec ∧ (cancelEntry src s).jtag = s.jtag ∧
    (cancelEntry src s).waiting = s.waiting ∧ (cancelEntry src s).access = s.access ∧ (cancelEntry src s).fresh = s.fresh ∧
    (cancelEntry src s).pending = s.pending := by
  unfold cancelEntry; (repeat' split) <;> simp

@[simp] theorem beginWake_same (s : State) (m : Nat) :
    (beginWake s m).frame = s.frame ∧ (beginWake s m).cfg = s.cfg ∧ (beginWake s m).world = s.world ∧
    (beginWake s m).ledger = s.ledger ∧ (beginWake s m).order = s.order ∧ (beginWake s m).solver = s.solver ∧
    (beginWake s m).spec = s.spec ∧ (beginWake s m).jig = s.jig ∧ (beginWake s m).safety = s.safety ∧
    (beginWake s m).pins = s.pins ∧ (beginWake s m).die = s.die ∧ (beginWake s m).fault = s.fault ∧
    (beginWake s m).digest = s.digest ∧ (beginWake s m).eth = s.eth ∧ (beginWake s m).tenon = s.tenon ∧
    (beginWake s m).sec = s.sec ∧ (beginWake s m).jtag = s.jtag ∧ (beginWake s m).waiting = s.waiting ∧
    (beginWake s m).access = s.access ∧ (beginWake s m).fresh = s.fresh ∧ (beginWake s m).pending = s.pending := by
  simp [beginWake]

@[simp] theorem wakeEvent_same (s : State) (m : Nat) (level : Bool) :
    (wakeEvent s m level).frame = s.frame ∧ (wakeEvent s m level).cfg = s.cfg ∧ (wakeEvent s m level).world = s.world ∧
    (wakeEvent s m level).ledger = s.ledger ∧ (wakeEvent s m level).order = s.order ∧ (wakeEvent s m level).solver = s.solver ∧
    (wakeEvent s m level).spec = s.spec ∧ (wakeEvent s m level).jig = s.jig ∧ (wakeEvent s m level).safety = s.safety ∧
    (wakeEvent s m level).pins = s.pins ∧ (wakeEvent s m level).die = s.die ∧ (wakeEvent s m level).fault = s.fault ∧
    (wakeEvent s m level).digest = s.digest ∧ (wakeEvent s m level).eth = s.eth ∧ (wakeEvent s m level).tenon = s.tenon ∧
    (wakeEvent s m level).sec = s.sec ∧ (wakeEvent s m level).jtag = s.jtag ∧ (wakeEvent s m level).waiting = s.waiting ∧
    (wakeEvent s m level).access = s.access ∧ (wakeEvent s m level).pending = s.pending := by
  simp only [wakeEvent]; (repeat' split) <;> simp_all

@[simp] theorem linksDown_same (s : State) :
    (linksDown s).frame = s.frame ∧ (linksDown s).cfg = s.cfg ∧ (linksDown s).world = s.world ∧ (linksDown s).ledger = s.ledger ∧
    (linksDown s).order = s.order ∧ (linksDown s).solver = s.solver ∧ (linksDown s).spec = s.spec ∧ (linksDown s).jig = s.jig ∧
    (linksDown s).safety = s.safety ∧ (linksDown s).pins = s.pins ∧ (linksDown s).die = s.die ∧ (linksDown s).fault = s.fault ∧
    (linksDown s).digest = s.digest ∧ (linksDown s).eth = s.eth ∧ (linksDown s).power = s.power ∧ (linksDown s).sec = s.sec ∧
    (linksDown s).jtag = s.jtag ∧ (linksDown s).waiting = s.waiting ∧ (linksDown s).access = s.access ∧
    (linksDown s).fresh = s.fresh ∧ (linksDown s).pending = s.pending := by
  simp only [linksDown]; (repeat' split) <;> (repeat' apply And.intro) <;> (try simp) <;> (repeat refine (foldl_proj _ _ (fun _ _ => ?_) _ _).trans ?_) <;> (repeat' split) <;> (try simp) <;> (repeat' split) <;> simp

@[simp] theorem selfRefresh_same (s : State) (on : Bool) :
    (selfRefresh s on).frame = s.frame ∧ (selfRefresh s on).cfg = s.cfg ∧ (selfRefresh s on).world = s.world ∧
    (selfRefresh s on).ledger = s.ledger ∧ (selfRefresh s on).order = s.order ∧ (selfRefresh s on).solver = s.solver ∧
    (selfRefresh s on).spec = s.spec ∧ (selfRefresh s on).jig = s.jig ∧ (selfRefresh s on).safety = s.safety ∧
    (selfRefresh s on).pins = s.pins ∧ (selfRefresh s on).die = s.die ∧ (selfRefresh s on).fault = s.fault ∧
    (selfRefresh s on).digest = s.digest ∧ (selfRefresh s on).eth = s.eth ∧ (selfRefresh s on).tenon = s.tenon ∧
    (selfRefresh s on).power = s.power ∧ (selfRefresh s on).sec = s.sec ∧ (selfRefresh s on).jtag = s.jtag ∧
    (selfRefresh s on).waiting = s.waiting ∧ (selfRefresh s on).access = s.access ∧ (selfRefresh s on).fresh = s.fresh ∧
    (selfRefresh s on).pending = s.pending := by
  simp [selfRefresh]

@[simp] theorem enterPower_same (s : State) :
    (enterPower s).frame = s.frame ∧ (enterPower s).cfg = s.cfg ∧ (enterPower s).world = s.world ∧
    (enterPower s).ledger = s.ledger ∧ (enterPower s).order = s.order ∧ (enterPower s).solver = s.solver ∧
    (enterPower s).spec = s.spec ∧ (enterPower s).safety = s.safety ∧ (enterPower s).die = s.die ∧
    (enterPower s).fault = s.fault ∧ (enterPower s).digest = s.digest ∧ (enterPower s).eth = s.eth ∧ (enterPower s).sec = s.sec ∧
    (enterPower s).jtag = s.jtag ∧ (enterPower s).waiting = s.waiting ∧ (enterPower s).access = s.access ∧
    (enterPower s).fresh = s.fresh ∧ (enterPower s).pending = s.pending := by
  simp only [enterPower]; (repeat' split) <;> (repeat' apply And.intro) <;> (try simp) <;> (repeat refine (foldl_proj _ _ (fun _ _ => ?_) _ _).trans ?_) <;> (repeat' split) <;> (try simp) <;> (repeat' split) <;> simp

@[simp] theorem supplyError_same (s : State) :
    (supplyError s).world = s.world ∧ (supplyError s).ledger = s.ledger ∧ (supplyError s).order = s.order ∧
    (supplyError s).solver = s.solver ∧ (supplyError s).die = s.die ∧ (supplyError s).jtag = s.jtag ∧
    (supplyError s).waiting = s.waiting ∧ (supplyError s).access = s.access ∧ (supplyError s).pending = s.pending := by
  simp [supplyError]

@[simp] theorem commitWrite_same (src : Source) (s : State) :
    (commitWrite src s).2.regs = s.regs ∧ (commitWrite src s).2.frame = s.frame ∧ (commitWrite src s).2.world = s.world ∧
    (commitWrite src s).2.ledger = s.ledger ∧ (commitWrite src s).2.order = s.order ∧ (commitWrite src s).2.solver = s.solver ∧
    (commitWrite src s).2.spec = s.spec ∧ (commitWrite src s).2.jig = s.jig ∧ (commitWrite src s).2.safety = s.safety ∧
    (commitWrite src s).2.pins = s.pins ∧ (commitWrite src s).2.die = s.die ∧ (commitWrite src s).2.fault = s.fault ∧
    (commitWrite src s).2.digest = s.digest ∧ (commitWrite src s).2.eth = s.eth ∧ (commitWrite src s).2.tenon = s.tenon ∧
    (commitWrite src s).2.power = s.power ∧ (commitWrite src s).2.sec = s.sec ∧ (commitWrite src s).2.jtag = s.jtag ∧
    (commitWrite src s).2.waiting = s.waiting ∧ (commitWrite src s).2.access = s.access ∧ (commitWrite src s).2.fresh = s.fresh ∧
    (commitWrite src s).2.pending = s.pending := by
  simp only [commitWrite]; (repeat' split) <;> simp_all

@[simp] theorem notOwner_same (a : Nat) (s : State) :
    (notOwner a s).frame = s.frame ∧ (notOwner a s).cfg = s.cfg ∧ (notOwner a s).world = s.world ∧
    (notOwner a s).ledger = s.ledger ∧ (notOwner a s).order = s.order ∧ (notOwner a s).solver = s.solver ∧
    (notOwner a s).spec = s.spec ∧ (notOwner a s).jig = s.jig ∧ (notOwner a s).safety = s.safety ∧ (notOwner a s).pins = s.pins ∧
    (notOwner a s).die = s.die ∧ (notOwner a s).fault = s.fault ∧ (notOwner a s).digest = s.digest ∧ (notOwner a s).eth = s.eth ∧
    (notOwner a s).tenon = s.tenon ∧ (notOwner a s).power = s.power ∧ (notOwner a s).sec = s.sec ∧ (notOwner a s).jtag = s.jtag ∧
    (notOwner a s).waiting = s.waiting ∧ (notOwner a s).access = s.access ∧ (notOwner a s).fresh = s.fresh ∧
    (notOwner a s).pending = s.pending := by
  unfold notOwner; (repeat' split) <;> simp

@[simp] theorem disableLink_same (s : State) (l : Nat) :
    (disableLink s l).frame = s.frame ∧ (disableLink s l).cfg = s.cfg ∧ (disableLink s l).world = s.world ∧
    (disableLink s l).ledger = s.ledger ∧ (disableLink s l).order = s.order ∧ (disableLink s l).solver = s.solver ∧
    (disableLink s l).spec = s.spec ∧ (disableLink s l).jig = s.jig ∧ (disableLink s l).safety = s.safety ∧
    (disableLink s l).pins = s.pins ∧ (disableLink s l).die = s.die ∧ (disableLink s l).digest = s.digest ∧
    (disableLink s l).eth = s.eth ∧ (disableLink s l).power = s.power ∧ (disableLink s l).sec = s.sec ∧
    (disableLink s l).jtag = s.jtag ∧ (disableLink s l).waiting = s.waiting ∧ (disableLink s l).access = s.access ∧
    (disableLink s l).fresh = s.fresh ∧ (disableLink s l).pending = s.pending := by
  simp only [disableLink]; (repeat' split) <;> simp_all

@[simp] theorem afterWrite_same (a v : Nat) (s : State) :
    (afterWrite a v s).frame = s.frame ∧ (afterWrite a v s).cfg = s.cfg ∧ (afterWrite a v s).world = s.world ∧
    (afterWrite a v s).ledger = s.ledger ∧ (afterWrite a v s).order = s.order ∧ (afterWrite a v s).solver = s.solver ∧
    (afterWrite a v s).spec = s.spec ∧ (afterWrite a v s).jig = s.jig ∧ (afterWrite a v s).safety = s.safety ∧
    (afterWrite a v s).pins = s.pins ∧ (afterWrite a v s).die = s.die ∧ (afterWrite a v s).eth = s.eth ∧
    (afterWrite a v s).sec = s.sec ∧ (afterWrite a v s).jtag = s.jtag ∧ (afterWrite a v s).waiting = s.waiting ∧
    (afterWrite a v s).access = s.access ∧ (afterWrite a v s).fresh = s.fresh ∧ (afterWrite a v s).pending = s.pending := by
  unfold afterWrite; (repeat' split) <;> simp

@[simp] theorem writeField_same (a v : Nat) (s : State) (f : Field) :
    (writeField a v s f).frame = s.frame ∧ (writeField a v s f).world = s.world ∧ (writeField a v s f).ledger = s.ledger ∧
    (writeField a v s f).order = s.order ∧ (writeField a v s f).solver = s.solver ∧ (writeField a v s f).spec = s.spec ∧
    (writeField a v s f).jig = s.jig ∧ (writeField a v s f).safety = s.safety ∧ (writeField a v s f).pins = s.pins ∧
    (writeField a v s f).die = s.die ∧ (writeField a v s f).fault = s.fault ∧ (writeField a v s f).digest = s.digest ∧
    (writeField a v s f).eth = s.eth ∧ (writeField a v s f).tenon = s.tenon ∧ (writeField a v s f).power = s.power ∧
    (writeField a v s f).sec = s.sec ∧ (writeField a v s f).jtag = s.jtag ∧ (writeField a v s f).waiting = s.waiting ∧
    (writeField a v s f).access = s.access ∧ (writeField a v s f).fresh = s.fresh ∧ (writeField a v s f).pending = s.pending := by
  unfold writeField; (repeat' split) <;> simp

@[simp] theorem plainWrite_same (a v : Nat) (fs : List Field) (s : State) :
    (plainWrite a v fs s).2.frame = s.frame ∧ (plainWrite a v fs s).2.world = s.world ∧
    (plainWrite a v fs s).2.ledger = s.ledger ∧ (plainWrite a v fs s).2.order = s.order ∧
    (plainWrite a v fs s).2.solver = s.solver ∧ (plainWrite a v fs s).2.spec = s.spec ∧ (plainWrite a v fs s).2.jig = s.jig ∧
    (plainWrite a v fs s).2.safety = s.safety ∧ (plainWrite a v fs s).2.pins = s.pins ∧ (plainWrite a v fs s).2.die = s.die ∧
    (plainWrite a v fs s).2.eth = s.eth ∧ (plainWrite a v fs s).2.sec = s.sec ∧ (plainWrite a v fs s).2.jtag = s.jtag ∧
    (plainWrite a v fs s).2.waiting = s.waiting ∧ (plainWrite a v fs s).2.access = s.access ∧
    (plainWrite a v fs s).2.fresh = s.fresh ∧ (plainWrite a v fs s).2.pending = s.pending := by
  unfold plainWrite; (repeat' split) <;> simp

@[simp] theorem windowWrite_same (src : Source) (a : Nat) (w : Word) (s : State) :
    (windowWrite src a w s).frame = s.frame ∧ (windowWrite src a w s).world = s.world ∧
    (windowWrite src a w s).ledger = s.ledger ∧ (windowWrite src a w s).order = s.order ∧
    (windowWrite src a w s).solver = s.solver ∧ (windowWrite src a w s).spec = s.spec ∧ (windowWrite src a w s).jig = s.jig ∧
    (windowWrite src a w s).safety = s.safety ∧ (windowWrite src a w s).pins = s.pins ∧ (windowWrite src a w s).die = s.die ∧
    (windowWrite src a w s).fault = s.fault ∧ (windowWrite src a w s).digest = s.digest ∧ (windowWrite src a w s).eth = s.eth ∧
    (windowWrite src a w s).tenon = s.tenon ∧ (windowWrite src a w s).power = s.power ∧ (windowWrite src a w s).sec = s.sec ∧
    (windowWrite src a w s).jtag = s.jtag ∧ (windowWrite src a w s).waiting = s.waiting ∧
    (windowWrite src a w s).access = s.access ∧ (windowWrite src a w s).fresh = s.fresh ∧
    (windowWrite src a w s).pending = s.pending := by
  unfold windowWrite; (repeat' split) <;> simp

@[simp] theorem macsecWrite_same (src : Source) (a : Nat) (w : Word) (s : State) :
    (macsecWrite src a w s).2.frame = s.frame ∧ (macsecWrite src a w s).2.cfg = s.cfg ∧
    (macsecWrite src a w s).2.world = s.world ∧ (macsecWrite src a w s).2.ledger = s.ledger ∧
    (macsecWrite src a w s).2.order = s.order ∧ (macsecWrite src a w s).2.solver = s.solver ∧
    (macsecWrite src a w s).2.spec = s.spec ∧ (macsecWrite src a w s).2.jig = s.jig ∧
    (macsecWrite src a w s).2.safety = s.safety ∧ (macsecWrite src a w s).2.pins = s.pins ∧
    (macsecWrite src a w s).2.die = s.die ∧ (macsecWrite src a w s).2.fault = s.fault ∧
    (macsecWrite src a w s).2.digest = s.digest ∧ (macsecWrite src a w s).2.tenon = s.tenon ∧
    (macsecWrite src a w s).2.power = s.power ∧ (macsecWrite src a w s).2.sec = s.sec ∧ (macsecWrite src a w s).2.jtag = s.jtag ∧
    (macsecWrite src a w s).2.waiting = s.waiting ∧ (macsecWrite src a w s).2.fresh = s.fresh ∧
    (macsecWrite src a w s).2.pending = s.pending := by
  unfold macsecWrite
  generalize macsecReg a = m
  by_cases e : m.2 = 0x20
  · simp [e]
  · simp only [if_neg e]
    split <;> split <;> simp

theorem configCommand_same {src : Source} {a : Nat} {w : Word} {s t : State} (h : configCommand src a w s = some t) :
    t.jtag = s.jtag ∧ t.waiting = s.waiting ∧ t.pending = s.pending := by
  unfold configCommand at h
  split at h
  · simp only [Option.some.injEq] at h; subst h; (repeat' split) <;> simp
  split at h
  · simp only [Option.some.injEq] at h; subst h; (repeat' split) <;> simp
  split at h
  · simp only [Option.some.injEq] at h; subst h; (repeat' split) <;> simp
  split at h
  · simp only [Option.some.injEq] at h; subst h; (repeat' split) <;> simp
  cases h

theorem deviceCommand_same {src : Source} {a : Nat} {w : Word} {s t : State} (h : deviceCommand src a w s = some t) :
    t.jtag = s.jtag ∧ t.waiting = s.waiting ∧ t.pending = s.pending := by
  unfold deviceCommand at h
  split at h
  · simp only [Option.some.injEq] at h; subst h; (repeat' split) <;> simp
  split at h
  · simp only [Option.some.injEq] at h; subst h; (repeat' split) <;> simp
  split at h
  · simp only [Option.some.injEq] at h; subst h; (repeat' split) <;> simp
  split at h
  · simp only [Option.some.injEq] at h; subst h; (repeat' split) <;> simp
  split at h
  · simp only [Option.some.injEq] at h; subst h; (repeat' split) <;> simp
  split at h
  · simp only [Option.some.injEq] at h; subst h; (repeat' split) <;> simp
  cases h

theorem blockCommand_same {src : Source} {a : Nat} {w : Word} {s t : State} (h : blockCommand src a w s = some t) :
    t.jtag = s.jtag ∧ t.waiting = s.waiting ∧ t.pending = s.pending := by
  unfold blockCommand at h
  split at h
  · simp only [Option.some.injEq] at h; subst h; (repeat' split) <;> simp
  split at h
  · simp only [Option.some.injEq] at h; subst h; (repeat' split) <;> simp
  split at h
  · simp only [Option.some.injEq] at h; subst h; (repeat' split) <;> simp
  split at h
  · simp only [Option.some.injEq] at h; subst h; (repeat' split) <;> simp
  cases h

theorem commandWrite_same {src : Source} {a : Nat} {w : Word} {s : State} {r : Nat × State} (h : commandWrite src a w s = some r) :
    r.2.jtag = s.jtag ∧ r.2.waiting = s.waiting ∧ r.2.pending = s.pending := by
  unfold commandWrite at h
  split at h
  · simp only [Option.some.injEq] at h; subst h; simp
  split at h
  · simp only [Option.some.injEq] at h; subst h; simp
  obtain ⟨t, ht, rfl⟩ := Option.map_eq_some_iff.mp h
  rcases Option.or_eq_some_iff.mp ht with e | ⟨-, ht⟩
  · exact configCommand_same e
  rcases Option.or_eq_some_iff.mp ht with e | ⟨-, e⟩
  · exact deviceCommand_same e
  · exact blockCommand_same e
@[simp] theorem applyWrite_same (src : Source) (a : Nat) (w : Word) (s : State) :
    (applyWrite src a w s).2.jtag = s.jtag ∧ (applyWrite src a w s).2.waiting = s.waiting ∧
    (applyWrite src a w s).2.pending = s.pending := by
  simp only [applyWrite]; (repeat' split) <;> (try simp) <;> exact commandWrite_same ‹_›

@[simp] theorem writeRegs_same (src : Source) (x0 : Nat) (x1 : List Word) (s : State) :
    (writeRegs src x0 x1 s).2.2.jtag = s.jtag ∧ (writeRegs src x0 x1 s).2.2.waiting = s.waiting ∧
    (writeRegs src x0 x1 s).2.2.pending = s.pending := by
  induction x1 generalizing x0 s with
  | nil => simp [writeRegs]
  | cons w l ih => simp only [writeRegs]; (repeat' split) <;> simp [ih]

@[simp] theorem answer_same (s : State) (f : Frame) (addr count status fail : Nat) (words : List Nat) :
    (answer s f addr count status fail words).frame = s.frame ∧ (answer s f addr count status fail words).cfg = s.cfg ∧
    (answer s f addr count status fail words).world = s.world ∧ (answer s f addr count status fail words).ledger = s.ledger ∧
    (answer s f addr count status fail words).order = s.order ∧ (answer s f addr count status fail words).solver = s.solver ∧
    (answer s f addr count status fail words).spec = s.spec ∧ (answer s f addr count status fail words).jig = s.jig ∧
    (answer s f addr count status fail words).safety = s.safety ∧ (answer s f addr count status fail words).pins = s.pins ∧
    (answer s f addr count status fail words).die = s.die ∧ (answer s f addr count status fail words).fault = s.fault ∧
    (answer s f addr count status fail words).digest = s.digest ∧ (answer s f addr count status fail words).tenon = s.tenon ∧
    (answer s f addr count status fail words).power = s.power ∧ (answer s f addr count status fail words).sec = s.sec ∧
    (answer s f addr count status fail words).jtag = s.jtag ∧ (answer s f addr count status fail words).waiting = s.waiting ∧
    (answer s f addr count status fail words).fresh = s.fresh ∧ (answer s f addr count status fail words).pending = s.pending := by
  simp only [answer]; (repeat' split) <;> (repeat' apply And.intro) <;> (try simp) <;> (repeat refine (foldl_proj _ _ (fun _ _ => ?_) _ _).trans ?_) <;> (repeat' split) <;> (try simp) <;> (repeat' split) <;> simp

@[simp] theorem senseFor_same (s : State) (a n : Nat) :
    (senseFor s a n).frame = s.frame ∧ (senseFor s a n).cfg = s.cfg ∧ (senseFor s a n).world = s.world ∧
    (senseFor s a n).ledger = s.ledger ∧ (senseFor s a n).order = s.order ∧ (senseFor s a n).solver = s.solver ∧
    (senseFor s a n).spec = s.spec ∧ (senseFor s a n).jig = s.jig ∧ (senseFor s a n).safety = s.safety ∧
    (senseFor s a n).pins = s.pins ∧ (senseFor s a n).die = s.die ∧ (senseFor s a n).fault = s.fault ∧
    (senseFor s a n).digest = s.digest ∧ (senseFor s a n).eth = s.eth ∧ (senseFor s a n).tenon = s.tenon ∧
    (senseFor s a n).power = s.power ∧ (senseFor s a n).sec = s.sec ∧ (senseFor s a n).jtag = s.jtag ∧
    (senseFor s a n).waiting = s.waiting ∧ (senseFor s a n).access = s.access ∧ (senseFor s a n).pending = s.pending := by
  unfold senseFor; (repeat' split) <;> simp

@[simp] theorem serveFrame_same (f : Frame) (s : State) :
    (serveFrame f s).jtag = s.jtag ∧ (serveFrame f s).waiting = s.waiting ∧ (serveFrame f s).pending = s.pending := by
  simp only [serveFrame]; (repeat' split) <;> simp_all

@[simp] theorem serveRemote_same (link source : Nat) (write : Bool) (addr count : Nat) (values : List Word) (s : State) :
    (serveRemote link source write addr count values s).jtag = s.jtag ∧
    (serveRemote link source write addr count values s).waiting = s.waiting ∧
    (serveRemote link source write addr count values s).pending = s.pending := by
  unfold serveRemote; (repeat' split) <;> simp

@[simp] theorem serveJtag_same (write : Bool) (addr : Nat) (value : Word) (s : State) :
    (serveJtag write addr value s).waiting = s.waiting ∧ (serveJtag write addr value s).pending = s.pending := by
  unfold serveJtag; (repeat' split) <;> simp

@[simp] theorem serve_same (r : Request) (s : State) :
    (serve r s).waiting = s.waiting ∧ (serve r s).pending = s.pending := by
  unfold serve; (repeat' split) <;> simp

@[simp] theorem applyWaiting_same (s : State) :
    (applyWaiting s).pending = s.pending := by
  simp [applyWaiting]

@[simp] theorem takeRequest_same (f : Frame) (t : Nat) (s : State) :
    (takeRequest f t s).jtag = s.jtag ∧ (takeRequest f t s).pending = s.pending := by
  simp only [takeRequest]; (repeat' split) <;> (repeat' apply And.intro) <;> (try simp) <;> (repeat refine (foldl_proj _ _ (fun _ _ => ?_) _ _).trans ?_) <;> (repeat' split) <;> (try simp) <;> (repeat' split) <;> simp

@[simp] theorem jtagAccess_same (write : Bool) (addr : Nat) (value : Word) (s : State) :
    (jtagAccess write addr value s).pending = s.pending := by
  unfold jtagAccess; (repeat' split) <;> simp

end Sys2Proof.Machine
end

