-- ==== Sys2Proof/Laws/Fields.lean ====
section
/-! SUPPORT. The register fields that each shared operation may write: every other field reads as before. -/

namespace Sys2Proof.Machine

theorem RegsFrame.refl (s : State) (fs : List Field) (gs : List (Nat → Field)) : RegsFrame s s fs gs := fun _ _ _ => rfl

theorem RegsFrame.trans {s t u : State} {fs : List Field} {gs : List (Nat → Field)} (h : RegsFrame s t fs gs) (k : RegsFrame t u fs gs) :
    RegsFrame s u fs gs := fun f a b => (k f a b).trans (h f a b)

theorem RegsFrame.of_regs {s t : State} (h : t.regs = s.regs) {fs : List Field} {gs : List (Nat → Field)} : RegsFrame s t fs gs :=
  fun f _ _ => by simp only [State.get, h]

theorem RegsFrame.regsSame {s t : State} {fs : List Field} (h : RegsFrame s t fs []) : RegsSame s t fs :=
  fun f hf => h f hf (fun _ hg => absurd hg (by simp))

theorem RegsFrame.via {s t u : State} {fs fs' : List Field} {gs gs' : List (Nat → Field)} (h : RegsFrame s t fs gs)
    (k : RegsFrame t u fs' gs') (sub : ∀ f ∈ fs', f.key ∈ fs.map Field.key) (subg : ∀ g ∈ gs', g ∈ gs) : RegsFrame s u fs gs :=
  fun f hf hg => (k f (fun hm => by
    obtain ⟨g, hg, e⟩ := List.mem_map.mp hm
    exact hf (e ▸ sub g hg)) (fun g hm i => hg g (subg g hm) i)).trans (h f hf hg)

theorem RegsFrame.set {s t : State} {fs : List Field} {gs : List (Nat → Field)} (h : RegsFrame s t fs gs) {g : Field}
    (hg : g.key ∈ fs.map Field.key) (v : Nat) : RegsFrame s (t.set g v) fs gs := fun f a b =>
  (State.get_set_ne (fun e => a (by rw [e]; exact hg)) t v).trans (h f a b)

theorem RegsFrame.inc {s t : State} {fs : List Field} {gs : List (Nat → Field)} (h : RegsFrame s t fs gs) {g : Field}
    (hg : g.key ∈ fs.map Field.key) : RegsFrame s (t.inc g) fs gs := fun f a b =>
  (State.get_inc_ne (fun e => a (by rw [e]; exact hg)) t).trans (h f a b)

theorem RegsFrame.add {s t : State} {fs : List Field} {gs : List (Nat → Field)} (h : RegsFrame s t fs gs) {g : Field}
    (hg : g.key ∈ fs.map Field.key) (n : Nat) : RegsFrame s (t.add g n) fs gs := fun f a b =>
  (State.get_add_ne (fun e => a (by rw [e]; exact hg)) t n).trans (h f a b)

theorem RegsFrame.setF {s t : State} {fs : List Field} {gs : List (Nat → Field)} {g : Nat → Field} (h : RegsFrame s t fs gs)
    (hg : g ∈ gs) (i : Nat) (v : Nat) : RegsFrame s (t.set (g i) v) fs gs := fun f a b =>
  (State.get_set_ne (b g hg i) t v).trans (h f a b)

theorem RegsFrame.incF {s t : State} {fs : List Field} {gs : List (Nat → Field)} {g : Nat → Field} (h : RegsFrame s t fs gs)
    (hg : g ∈ gs) (i : Nat) : RegsFrame s (t.inc (g i)) fs gs := fun f a b =>
  (State.get_inc_ne (b g hg i) t).trans (h f a b)

theorem RegsFrame.addF {s t : State} {fs : List Field} {gs : List (Nat → Field)} {g : Nat → Field} (h : RegsFrame s t fs gs)
    (hg : g ∈ gs) (i : Nat) (n : Nat) : RegsFrame s (t.add (g i) n) fs gs := fun f a b =>
  (State.get_add_ne (b g hg i) t n).trans (h f a b)

theorem RegsFrame.set64 {s t : State} {fs : List Field} {gs : List (Nat → Field)} (h : RegsFrame s t fs gs) {lo hi : Field}
    (hl : lo.key ∈ fs.map Field.key) (hh : hi.key ∈ fs.map Field.key) (v : Nat) : RegsFrame s (t.set64 lo hi v) fs gs :=
  (h.set hl v).set hh _

theorem RegsFrame.mk_iff {s t : State} {fs : List Field} {gs : List (Nat → Field)} {f c w l o so sp j sa pi di fa dg et te po se jt wa ac fr pe} :
    RegsFrame s (State.mk t.regs f c w l o so sp j sa pi di fa dg et te po se jt wa ac fr pe) fs gs ↔ RegsFrame s t fs gs := Iff.rfl

theorem RegsFrame.draw {s t : State} {fs : List Field} {gs : List (Nat → Field)} (h : RegsFrame s t fs gs) (w : Nat) :
    RegsFrame s (t.draw w).2 fs gs := h

theorem RegsFrame.foldl {β : Type} {g : State → β → State} {l : List β} {s t : State} {fs : List Field} {gs : List (Nat → Field)}
    (hg : ∀ t x, RegsFrame t (g t x) fs gs) (h : RegsFrame s t fs gs) : RegsFrame s (l.foldl g t) fs gs := by
  induction l generalizing t with
  | nil => exact h
  | cons x l ih => exact ih (h.trans (hg t x))

theorem RegsFrame.foldl_fst {β γ : Type} {g : State × γ → β → State × γ} {l : List β} {s : State} {a : State × γ} {fs : List Field}
    {gs : List (Nat → Field)} (hg : ∀ a x, RegsFrame a.1 (g a x).1 fs gs) (h : RegsFrame s a.1 fs gs) :
    RegsFrame s (l.foldl g a).1 fs gs := by
  induction l generalizing a with
  | nil => exact h
  | cons x l ih => exact ih (h.trans (hg a x))

theorem RegsFrame.foldl_snd {β γ : Type} {g : γ × State → β → γ × State} {l : List β} {s : State} {a : γ × State} {fs : List Field}
    {gs : List (Nat → Field)} (hg : ∀ a x, RegsFrame a.2 (g a x).2 fs gs) (h : RegsFrame s a.2 fs gs) :
    RegsFrame s (l.foldl g a).2 fs gs := by
  induction l generalizing a with
  | nil => exact h
  | cons x l ih => exact ih (h.trans (hg a x))

theorem swapTable_only {o : State} {ff : List Field} {gf : List (Nat → Field)} (s : State) (table : List (Nat × Nat)) (clipped gen : Nat) (h0 : RegsFrame o s ff gf)
    (sub : ∀ f ∈ ([Reg.SAFE_SP_CLIPPED.COUNT, Reg.SAFE_SP_STATUS.GENERATION, Reg.SAFE_SP_SWAPS.COUNT] : List Field), f.key ∈ ff.map Field.key)
    (subg : ∀ g ∈ ([] : List (Nat → Field)), g ∈ gf) : RegsFrame o (swapTable s table clipped gen) ff gf := by
  refine RegsFrame.via h0 ?_ sub subg; clear h0 sub subg; unfold swapTable; (try dsimp only)
  repeat' first | with_reducible exact RegsFrame.refl _ _ _ | with_reducible refine RegsFrame.set ?_ (by decide) _ | with_reducible refine RegsFrame.inc ?_ (by decide) | with_reducible refine RegsFrame.add ?_ (by decide) _ | exact (by decide) | exact List.forall_mem_nil _ | (with_reducible intro g hg; simp only [List.mem_cons, List.not_mem_nil, or_false] at hg ⊢; tauto) | split | simp only [RegsFrame.mk_iff] | with_reducible exact RegsFrame.of_regs rfl | dsimp only

theorem putTable_only {o : State} {ff : List Field} {gf : List (Nat → Field)} (s : State) (t : List (Nat × Nat) × Nat) (gen : Nat) (h0 : RegsFrame o s ff gf)
    (sub : ∀ f ∈ ([Reg.SAFE_SP_CLIPPED.COUNT, Reg.SAFE_SP_STATUS.GENERATION, Reg.SAFE_SP_SWAPS.COUNT] : List Field), f.key ∈ ff.map Field.key)
    (subg : ∀ g ∈ ([] : List (Nat → Field)), g ∈ gf) : RegsFrame o (putTable s t gen) ff gf := by
  refine RegsFrame.via h0 ?_ sub subg; clear h0 sub subg; unfold putTable; (try dsimp only)
  repeat' first | with_reducible exact RegsFrame.refl _ _ _ | with_reducible apply swapTable_only | exact (by decide) | exact List.forall_mem_nil _ | (with_reducible intro g hg; simp only [List.mem_cons, List.not_mem_nil, or_false] at hg ⊢; tauto) | split | simp only [RegsFrame.mk_iff] | with_reducible exact RegsFrame.of_regs rfl | dsimp only

theorem publishTraj_only {o : State} {ff : List Field} {gf : List (Nat → Field)} (s : State) (img : Image) (tr : QTraj) (k verdict : Nat) (island : Bool) (h0 : RegsFrame o s ff gf)
    (sub : ∀ f ∈ ([Reg.SAFE_SP_CLIPPED.COUNT, Reg.SAFE_SP_STATUS.GENERATION, Reg.SAFE_SP_SWAPS.COUNT] : List Field), f.key ∈ ff.map Field.key)
    (subg : ∀ g ∈ ([] : List (Nat → Field)), g ∈ gf) : RegsFrame o (publishTraj s img tr k verdict island) ff gf := by
  refine RegsFrame.via h0 ?_ sub subg; clear h0 sub subg; unfold publishTraj; (try dsimp only)
  repeat' first | with_reducible exact RegsFrame.refl _ _ _ | with_reducible apply putTable_only | exact (by decide) | exact List.forall_mem_nil _ | (with_reducible intro g hg; simp only [List.mem_cons, List.not_mem_nil, or_false] at hg ⊢; tauto) | split | simp only [RegsFrame.mk_iff] | with_reducible exact RegsFrame.of_regs rfl | dsimp only

theorem publishHold_only {o : State} {ff : List Field} {gf : List (Nat → Field)} (s : State) (img : Image) (k : Nat) (h0 : RegsFrame o s ff gf)
    (sub : ∀ f ∈ ([Reg.SAFE_SP_CLIPPED.COUNT, Reg.SAFE_SP_STATUS.GENERATION, Reg.SAFE_SP_SWAPS.COUNT] : List Field), f.key ∈ ff.map Field.key)
    (subg : ∀ g ∈ ([] : List (Nat → Field)), g ∈ gf) : RegsFrame o (publishHold s img k) ff gf := by
  refine RegsFrame.via h0 ?_ sub subg; clear h0 sub subg; unfold publishHold; (try dsimp only)
  repeat' first | with_reducible exact RegsFrame.refl _ _ _ | with_reducible apply putTable_only | exact (by decide) | exact List.forall_mem_nil _ | (with_reducible intro g hg; simp only [List.mem_cons, List.not_mem_nil, or_false] at hg ⊢; tauto) | split | simp only [RegsFrame.mk_iff] | with_reducible exact RegsFrame.of_regs rfl | dsimp only

theorem emptyTable_only {o : State} {ff : List Field} {gf : List (Nat → Field)} (s : State) (h0 : RegsFrame o s ff gf)
    (sub : ∀ f ∈ ([Reg.SAFE_SP_STATUS.GENERATION] : List Field), f.key ∈ ff.map Field.key)
    (subg : ∀ g ∈ ([] : List (Nat → Field)), g ∈ gf) : RegsFrame o (emptyTable s) ff gf := by
  refine RegsFrame.via h0 ?_ sub subg; clear h0 sub subg; unfold emptyTable; (try dsimp only)
  repeat' first | with_reducible exact RegsFrame.refl _ _ _ | with_reducible refine RegsFrame.set ?_ (by decide) _ | exact (by decide) | exact List.forall_mem_nil _ | (with_reducible intro g hg; simp only [List.mem_cons, List.not_mem_nil, or_false] at hg ⊢; tauto) | split | simp only [RegsFrame.mk_iff] | with_reducible exact RegsFrame.of_regs rfl | dsimp only

theorem setPhase_only {o : State} {ff : List Field} {gf : List (Nat → Field)} (s : State) (ph : Nat) (h0 : RegsFrame o s ff gf)
    (sub : ∀ f ∈ ([Reg.SAFE_SP_STATUS.PHASE] : List Field), f.key ∈ ff.map Field.key)
    (subg : ∀ g ∈ ([] : List (Nat → Field)), g ∈ gf) : RegsFrame o (setPhase s ph) ff gf := by
  refine RegsFrame.via h0 ?_ sub subg; clear h0 sub subg; unfold setPhase; (try dsimp only)
  repeat' first | with_reducible exact RegsFrame.refl _ _ _ | with_reducible refine RegsFrame.set ?_ (by decide) _ | exact (by decide) | exact List.forall_mem_nil _ | (with_reducible intro g hg; simp only [List.mem_cons, List.not_mem_nil, or_false] at hg ⊢; tauto) | split | simp only [RegsFrame.mk_iff] | with_reducible exact RegsFrame.of_regs rfl | dsimp only

theorem setLink_only {o : State} {ff : List Field} {gf : List (Nat → Field)} (s : State) (l : Nat) (x : LinkSt) (h0 : RegsFrame o s ff gf) : RegsFrame o (State.setLink s l x) ff gf :=
  h0.trans (RegsFrame.of_regs (by simp))

theorem creditField_set {o s : State} {ff : List Field} {gf : List (Nat → Field)} (l p v : Nat) (h0 : RegsFrame o s ff gf)
    (subg : ∀ g ∈ ([Reg.TENON_LINK_CREDITS.SHARED, Reg.TENON_LINK_CREDITS.VC0, Reg.TENON_LINK_CREDITS.VC1, Reg.TENON_LINK_CREDITS.VC2, Reg.TENON_LINK_CREDITS.VC3] : List (Nat → Field)), g ∈ gf) : RegsFrame o (s.set (creditField l p) v) ff gf := by
  unfold creditField
  split
  · exact h0.setF (subg Reg.TENON_LINK_CREDITS.VC0 (by simp)) l v
  · exact h0.setF (subg Reg.TENON_LINK_CREDITS.VC1 (by simp)) l v
  · exact h0.setF (subg Reg.TENON_LINK_CREDITS.VC2 (by simp)) l v
  · exact h0.setF (subg Reg.TENON_LINK_CREDITS.VC3 (by simp)) l v
  · exact h0.setF (subg Reg.TENON_LINK_CREDITS.SHARED (by simp)) l v

theorem pumpOne_only {o : State} {ff : List Field} {gf : List (Nat → Field)} (l : Nat) (a : State × List OutFlit × List Nat) (f : OutFlit)
    (h0 : RegsFrame o a.1 ff gf) (subg : ∀ g ∈ ([Reg.TENON_LINK_CREDITS.SHARED, Reg.TENON_LINK_CREDITS.VC0, Reg.TENON_LINK_CREDITS.VC1, Reg.TENON_LINK_CREDITS.VC2, Reg.TENON_LINK_CREDITS.VC3] : List (Nat → Field)), g ∈ gf) : RegsFrame o (pumpOne l a f).1 ff gf := by
  unfold pumpOne; dsimp only
  split
  · split
    · exact creditField_set _ _ _ h0 subg
    · exact h0
  · exact h0
theorem pumpLink_only {o : State} {ff : List Field} {gf : List (Nat → Field)} (s : State) (l : Nat) (h0 : RegsFrame o s ff gf)
    (sub : ∀ f ∈ ([] : List Field), f.key ∈ ff.map Field.key)
    (subg : ∀ g ∈ ([Reg.TENON_LINK_CREDITS.SHARED, Reg.TENON_LINK_CREDITS.VC0, Reg.TENON_LINK_CREDITS.VC1, Reg.TENON_LINK_CREDITS.VC2, Reg.TENON_LINK_CREDITS.VC3] : List (Nat → Field)), g ∈ gf) : RegsFrame o (pumpLink s l) ff gf := by
  refine RegsFrame.via h0 ?_ sub subg; clear h0 sub subg; unfold pumpLink; dsimp only
  split
  · exact RegsFrame.refl _ _ _
  · exact setLink_only _ _ _ (RegsFrame.foldl_fst (fun a x => pumpOne_only l a x (RegsFrame.refl _ _ _) (fun _ h => h)) (RegsFrame.refl _ _ _))

theorem sendFlit_only {o : State} {ff : List Field} {gf : List (Nat → Field)} (s : State) (l : Nat) (f : OutFlit) (h0 : RegsFrame o s ff gf)
    (sub : ∀ f ∈ ([] : List Field), f.key ∈ ff.map Field.key)
    (subg : ∀ g ∈ ([Reg.TENON_LINK_CREDITS.SHARED, Reg.TENON_LINK_CREDITS.VC0, Reg.TENON_LINK_CREDITS.VC1, Reg.TENON_LINK_CREDITS.VC2, Reg.TENON_LINK_CREDITS.VC3] : List (Nat → Field)), g ∈ gf) : RegsFrame o (sendFlit s l f) ff gf := by
  refine RegsFrame.via h0 ?_ sub subg; clear h0 sub subg; unfold sendFlit; (try dsimp only)
  repeat' first | with_reducible exact RegsFrame.refl _ _ _ | with_reducible apply setLink_only | with_reducible apply pumpLink_only | exact (by decide) | exact List.forall_mem_nil _ | (with_reducible intro g hg; simp only [List.mem_cons, List.not_mem_nil, or_false] at hg ⊢; tauto) | split | simp only [RegsFrame.mk_iff] | with_reducible exact RegsFrame.of_regs rfl | dsimp only

theorem sendToken_only {o : State} {ff : List Field} {gf : List (Nat → Field)} (s : State) (l kind flags dest : Nat) (e : Epoch) (v0 v1 : Nat) (h0 : RegsFrame o s ff gf)
    (sub : ∀ f ∈ ([] : List Field), f.key ∈ ff.map Field.key)
    (subg : ∀ g ∈ ([Reg.TENON_LINK_CREDITS.SHARED, Reg.TENON_LINK_CREDITS.VC0, Reg.TENON_LINK_CREDITS.VC1, Reg.TENON_LINK_CREDITS.VC2, Reg.TENON_LINK_CREDITS.VC3] : List (Nat → Field)), g ∈ gf) : RegsFrame o (sendToken s l kind flags dest e v0 v1) ff gf := by
  refine RegsFrame.via h0 ?_ sub subg; clear h0 sub subg; unfold sendToken; (try dsimp only)
  repeat' first | with_reducible exact RegsFrame.refl _ _ _ | with_reducible apply sendFlit_only | exact (by decide) | exact List.forall_mem_nil _ | (with_reducible intro g hg; simp only [List.mem_cons, List.not_mem_nil, or_false] at hg ⊢; tauto) | split | simp only [RegsFrame.mk_iff] | with_reducible exact RegsFrame.of_regs rfl | dsimp only

theorem sendMessage_only {o : State} {ff : List Field} {gf : List (Nat → Field)} (s : State) (l : Nat) (fs : List OutFlit) (h0 : RegsFrame o s ff gf)
    (sub : ∀ f ∈ ([] : List Field), f.key ∈ ff.map Field.key)
    (subg : ∀ g ∈ ([Reg.TENON_LINK_CREDITS.SHARED, Reg.TENON_LINK_CREDITS.VC0, Reg.TENON_LINK_CREDITS.VC1, Reg.TENON_LINK_CREDITS.VC2, Reg.TENON_LINK_CREDITS.VC3] : List (Nat → Field)), g ∈ gf) : RegsFrame o (sendMessage s l fs) ff gf := by
  refine RegsFrame.via h0 ?_ sub subg; clear h0 sub subg; unfold sendMessage; (try dsimp only)
  repeat' first | with_reducible exact RegsFrame.refl _ _ _ | with_reducible refine RegsFrame.foldl (fun _ _ => ?_) ?_ | with_reducible refine RegsFrame.foldl_fst (fun _ _ => ?_) ?_ | with_reducible refine RegsFrame.foldl_snd (fun _ _ => ?_) ?_ | with_reducible apply sendFlit_only | exact (by decide) | exact List.forall_mem_nil _ | (with_reducible intro g hg; simp only [List.mem_cons, List.not_mem_nil, or_false] at hg ⊢; tauto) | split | simp only [RegsFrame.mk_iff] | with_reducible exact RegsFrame.of_regs rfl | dsimp only

theorem maintMessage_only {o : State} {ff : List Field} {gf : List (Nat → Field)} (s : State) (l dest kind : Nat) (h0 : RegsFrame o s ff gf)
    (sub : ∀ f ∈ ([] : List Field), f.key ∈ ff.map Field.key)
    (subg : ∀ g ∈ ([Reg.TENON_LINK_CREDITS.SHARED, Reg.TENON_LINK_CREDITS.VC0, Reg.TENON_LINK_CREDITS.VC1, Reg.TENON_LINK_CREDITS.VC2, Reg.TENON_LINK_CREDITS.VC3] : List (Nat → Field)), g ∈ gf) : RegsFrame o (maintMessage s l dest kind) ff gf := by
  refine RegsFrame.via h0 ?_ sub subg; clear h0 sub subg; unfold maintMessage; (try dsimp only)
  repeat' first | with_reducible exact RegsFrame.refl _ _ _ | with_reducible refine RegsFrame.draw ?_ _ | with_reducible apply sendMessage_only | exact (by decide) | exact List.forall_mem_nil _ | (with_reducible intro g hg; simp only [List.mem_cons, List.not_mem_nil, or_false] at hg ⊢; tauto) | split | simp only [RegsFrame.mk_iff] | with_reducible exact RegsFrame.of_regs rfl | dsimp only

theorem tryConfirm_only {o : State} {ff : List Field} {gf : List (Nat → Field)} (s : State) (e : Epoch) (h0 : RegsFrame o s ff gf)
    (sub : ∀ f ∈ ([] : List Field), f.key ∈ ff.map Field.key)
    (subg : ∀ g ∈ ([Reg.TENON_LINK_CREDITS.SHARED, Reg.TENON_LINK_CREDITS.VC0, Reg.TENON_LINK_CREDITS.VC1, Reg.TENON_LINK_CREDITS.VC2, Reg.TENON_LINK_CREDITS.VC3] : List (Nat → Field)), g ∈ gf) : RegsFrame o (tryConfirm s e) ff gf := by
  refine RegsFrame.via h0 ?_ sub subg; clear h0 sub subg; unfold tryConfirm; (try dsimp only)
  repeat' first | with_reducible exact RegsFrame.refl _ _ _ | with_reducible apply sendToken_only | exact (by decide) | exact List.forall_mem_nil _ | (with_reducible intro g hg; simp only [List.mem_cons, List.not_mem_nil, or_false] at hg ⊢; tauto) | split | simp only [RegsFrame.mk_iff] | with_reducible exact RegsFrame.of_regs rfl | dsimp only

theorem condemn_only {o : State} {ff : List Field} {gf : List (Nat → Field)} (s : State) (e : Epoch) (cause : Nat) (h0 : RegsFrame o s ff gf)
    (sub : ∀ f ∈ ([Reg.TENON_SQUASH_SENT.COUNT] : List Field), f.key ∈ ff.map Field.key)
    (subg : ∀ g ∈ ([Reg.TENON_LINK_CREDITS.SHARED, Reg.TENON_LINK_CREDITS.VC0, Reg.TENON_LINK_CREDITS.VC1, Reg.TENON_LINK_CREDITS.VC2, Reg.TENON_LINK_CREDITS.VC3] : List (Nat → Field)), g ∈ gf) : RegsFrame o (condemn s e cause) ff gf := by
  refine RegsFrame.via h0 ?_ sub subg; clear h0 sub subg; unfold condemn; (try dsimp only)
  repeat' first | with_reducible exact RegsFrame.refl _ _ _ | with_reducible refine RegsFrame.inc ?_ (by decide) | with_reducible apply sendToken_only | exact (by decide) | exact List.forall_mem_nil _ | (with_reducible intro g hg; simp only [List.mem_cons, List.not_mem_nil, or_false] at hg ⊢; tauto) | split | simp only [RegsFrame.mk_iff] | with_reducible exact RegsFrame.of_regs rfl | dsimp only

theorem armedStatus_only {o : State} {ff : List Field} {gf : List (Nat → Field)} (s : State) (h0 : RegsFrame o s ff gf)
    (sub : ∀ f ∈ ([Reg.SAFE_FB_REMAIN.MS, Reg.SAFE_MODE.ARMED] : List Field), f.key ∈ ff.map Field.key)
    (subg : ∀ g ∈ ([] : List (Nat → Field)), g ∈ gf) : RegsFrame o (armedStatus s) ff gf := by
  refine RegsFrame.via h0 ?_ sub subg; clear h0 sub subg; unfold armedStatus; (try dsimp only)
  repeat' first | with_reducible exact RegsFrame.refl _ _ _ | with_reducible refine RegsFrame.set ?_ (by decide) _ | exact (by decide) | exact List.forall_mem_nil _ | (with_reducible intro g hg; simp only [List.mem_cons, List.not_mem_nil, or_false] at hg ⊢; tauto) | split | simp only [RegsFrame.mk_iff] | with_reducible exact RegsFrame.of_regs rfl | dsimp only

theorem setMode_only {o : State} {ff : List Field} {gf : List (Nat → Field)} (s : State) (m : Nat) (h0 : RegsFrame o s ff gf)
    (sub : ∀ f ∈ ([Reg.SAFE_MODE.MODE, Reg.SAFE_STOP_COUNT.COUNT] : List Field), f.key ∈ ff.map Field.key)
    (subg : ∀ g ∈ ([] : List (Nat → Field)), g ∈ gf) : RegsFrame o (setMode s m) ff gf := by
  refine RegsFrame.via h0 ?_ sub subg; clear h0 sub subg; unfold setMode; (try dsimp only)
  repeat' first | with_reducible exact RegsFrame.refl _ _ _ | with_reducible refine RegsFrame.set ?_ (by decide) _ | with_reducible refine RegsFrame.inc ?_ (by decide) | exact (by decide) | exact List.forall_mem_nil _ | (with_reducible intro g hg; simp only [List.mem_cons, List.not_mem_nil, or_false] at hg ⊢; tauto) | split | simp only [RegsFrame.mk_iff] | with_reducible exact RegsFrame.of_regs rfl | dsimp only

theorem showSpecEpoch_only {o : State} {ff : List Field} {gf : List (Nat → Field)} (s : State) (h0 : RegsFrame o s ff gf)
    (sub : ∀ f ∈ ([Reg.FRAME_SPEC_EPOCH.EPOCH] : List Field), f.key ∈ ff.map Field.key)
    (subg : ∀ g ∈ ([] : List (Nat → Field)), g ∈ gf) : RegsFrame o (showSpecEpoch s) ff gf := by
  refine RegsFrame.via h0 ?_ sub subg; clear h0 sub subg; unfold showSpecEpoch; (try dsimp only)
  repeat' first | with_reducible exact RegsFrame.refl _ _ _ | with_reducible refine RegsFrame.set ?_ (by decide) _ | exact (by decide) | exact List.forall_mem_nil _ | (with_reducible intro g hg; simp only [List.mem_cons, List.not_mem_nil, or_false] at hg ⊢; tauto) | split | simp only [RegsFrame.mk_iff] | with_reducible exact RegsFrame.of_regs rfl | dsimp only

theorem dropSpecDescs_only {o : State} {ff : List Field} {gf : List (Nat → Field)} (s : State) (h0 : RegsFrame o s ff gf) : RegsFrame o (dropSpecDescs s) ff gf :=
  h0.trans (RegsFrame.of_regs (by simp))

theorem discardAll_only {o : State} {ff : List Field} {gf : List (Nat → Field)} (s : State) (h0 : RegsFrame o s ff gf)
    (sub : ∀ f ∈ ([Reg.FRAME_SPEC_DISCARDS.DISCARDS, Reg.FRAME_SPEC_EPOCH.EPOCH] : List Field), f.key ∈ ff.map Field.key)
    (subg : ∀ g ∈ ([] : List (Nat → Field)), g ∈ gf) : RegsFrame o (discardAll s) ff gf := by
  refine RegsFrame.via h0 ?_ sub subg; clear h0 sub subg; unfold discardAll; (try dsimp only)
  repeat' first | with_reducible exact RegsFrame.refl _ _ _ | with_reducible refine RegsFrame.add ?_ (by decide) _ | with_reducible apply dropSpecDescs_only | with_reducible apply showSpecEpoch_only | exact (by decide) | exact List.forall_mem_nil _ | (with_reducible intro g hg; simp only [List.mem_cons, List.not_mem_nil, or_false] at hg ⊢; tauto) | split | simp only [RegsFrame.mk_iff] | with_reducible exact RegsFrame.of_regs rfl | dsimp only

theorem endJobs_only {o : State} {ff : List Field} {gf : List (Nat → Field)} (s : State) (frameBound : Nat) (refine : Option Nat) (h0 : RegsFrame o s ff gf) : RegsFrame o (endJobs s frameBound refine) ff gf :=
  h0.trans (RegsFrame.of_regs (by simp))

theorem stopMain_only {o : State} {ff : List Field} {gf : List (Nat → Field)} (s : State) (h0 : RegsFrame o s ff gf)
    (sub : ∀ f ∈ ([Reg.CONFIG_SWITCH_STATUS.PHASE, Reg.CONFIG_SWITCH_STATUS.RESULT, Reg.FRAME_SPEC_DISCARDS.DISCARDS, Reg.FRAME_SPEC_EPOCH.EPOCH, Reg.FRAME_STATUS.FRAME_ACTIVE, Reg.FRAME_STATUS.SHADOW, Reg.TENON_SQUASH_SENT.COUNT] : List Field), f.key ∈ ff.map Field.key)
    (subg : ∀ g ∈ ([Reg.TENON_LINK_CREDITS.SHARED, Reg.TENON_LINK_CREDITS.VC0, Reg.TENON_LINK_CREDITS.VC1, Reg.TENON_LINK_CREDITS.VC2, Reg.TENON_LINK_CREDITS.VC3] : List (Nat → Field)), g ∈ gf) : RegsFrame o (stopMain s) ff gf := by
  refine RegsFrame.via h0 ?_ sub subg; clear h0 sub subg; unfold stopMain; (try dsimp only)
  repeat' first | with_reducible exact RegsFrame.refl _ _ _ | with_reducible refine RegsFrame.set ?_ (by decide) _ | with_reducible apply condemn_only | with_reducible apply discardAll_only | exact (by decide) | exact List.forall_mem_nil _ | (with_reducible intro g hg; simp only [List.mem_cons, List.not_mem_nil, or_false] at hg ⊢; tauto) | split | simp only [RegsFrame.mk_iff] | with_reducible exact RegsFrame.of_regs rfl | dsimp only

theorem restartAs_only {o : State} {ff : List Field} {gf : List (Nat → Field)} (s : State) (warm : Bool) (h0 : RegsFrame o s ff gf)
    (sub : ∀ f ∈ ([Reg.CONFIG_SWITCH_STATUS.PHASE, Reg.CONFIG_SWITCH_STATUS.RESULT, Reg.FRAME_SPEC_DISCARDS.DISCARDS, Reg.FRAME_SPEC_EPOCH.EPOCH, Reg.FRAME_STATUS.FRAME_ACTIVE, Reg.FRAME_STATUS.SHADOW, Reg.SEC_BOOT_STATUS.STATE, Reg.SEC_BOOT_STATUS.STEP, Reg.SEC_BOOT_STATUS.WARM, Reg.SEC_RESTART_COUNT.COUNT, Reg.TENON_SQUASH_SENT.COUNT] : List Field), f.key ∈ ff.map Field.key)
    (subg : ∀ g ∈ ([Reg.TENON_LINK_CREDITS.SHARED, Reg.TENON_LINK_CREDITS.VC0, Reg.TENON_LINK_CREDITS.VC1, Reg.TENON_LINK_CREDITS.VC2, Reg.TENON_LINK_CREDITS.VC3] : List (Nat → Field)), g ∈ gf) : RegsFrame o (restartAs s warm) ff gf := by
  refine RegsFrame.via h0 ?_ sub subg; clear h0 sub subg; unfold restartAs; (try dsimp only)
  repeat' first | with_reducible exact RegsFrame.refl _ _ _ | with_reducible refine RegsFrame.set ?_ (by decide) _ | with_reducible refine RegsFrame.inc ?_ (by decide) | with_reducible apply endJobs_only | with_reducible apply stopMain_only | exact (by decide) | exact List.forall_mem_nil _ | (with_reducible intro g hg; simp only [List.mem_cons, List.not_mem_nil, or_false] at hg ⊢; tauto) | split | simp only [RegsFrame.mk_iff] | with_reducible exact RegsFrame.of_regs rfl | dsimp only

theorem beginRestart_only {o : State} {ff : List Field} {gf : List (Nat → Field)} (s : State) (h0 : RegsFrame o s ff gf)
    (sub : ∀ f ∈ ([Reg.CONFIG_SWITCH_STATUS.PHASE, Reg.CONFIG_SWITCH_STATUS.RESULT, Reg.FRAME_SPEC_DISCARDS.DISCARDS, Reg.FRAME_SPEC_EPOCH.EPOCH, Reg.FRAME_STATUS.FRAME_ACTIVE, Reg.FRAME_STATUS.SHADOW, Reg.SEC_BOOT_STATUS.STATE, Reg.SEC_BOOT_STATUS.STEP, Reg.SEC_BOOT_STATUS.WARM, Reg.SEC_RESTART_COUNT.COUNT, Reg.TENON_SQUASH_SENT.COUNT] : List Field), f.key ∈ ff.map Field.key)
    (subg : ∀ g ∈ ([Reg.TENON_LINK_CREDITS.SHARED, Reg.TENON_LINK_CREDITS.VC0, Reg.TENON_LINK_CREDITS.VC1, Reg.TENON_LINK_CREDITS.VC2, Reg.TENON_LINK_CREDITS.VC3] : List (Nat → Field)), g ∈ gf) : RegsFrame o (beginRestart s) ff gf := by
  refine RegsFrame.via h0 ?_ sub subg; clear h0 sub subg; unfold beginRestart; (try dsimp only)
  repeat' first | with_reducible exact RegsFrame.refl _ _ _ | with_reducible apply restartAs_only | exact (by decide) | exact List.forall_mem_nil _ | (with_reducible intro g hg; simp only [List.mem_cons, List.not_mem_nil, or_false] at hg ⊢; tauto) | split | simp only [RegsFrame.mk_iff] | with_reducible exact RegsFrame.of_regs rfl | dsimp only

theorem setUnit_only {o : State} {ff : List Field} {gf : List (Nat → Field)} (s : State) (cls idx : Nat) (u : UnitSt) (h0 : RegsFrame o s ff gf) : RegsFrame o (State.setUnit s cls idx u) ff gf :=
  h0.trans (RegsFrame.of_regs (by simp))

theorem showUnit_only {o : State} {ff : List Field} {gf : List (Nat → Field)} (s : State) (cls idx : Nat) (h0 : RegsFrame o s ff gf)
    (sub : ∀ f ∈ ([Reg.ORDER_STATUS.SUSPECT, Reg.SOLVER_STATUS.GOOD, Reg.SOLVER_STATUS.SUSPECT] : List Field), f.key ∈ ff.map Field.key)
    (subg : ∀ g ∈ ([Reg.TILE_BIND.STATE] : List (Nat → Field)), g ∈ gf) : RegsFrame o (showUnit s cls idx) ff gf := by
  refine RegsFrame.via h0 ?_ sub subg; clear h0 sub subg; unfold showUnit; (try dsimp only)
  repeat' first | with_reducible exact RegsFrame.refl _ _ _ | with_reducible refine RegsFrame.set ?_ (by decide) _ | with_reducible refine RegsFrame.setF (g := Reg.TILE_BIND.STATE) ?_ (by simp) _ _ | exact (by decide) | exact List.forall_mem_nil _ | (with_reducible intro g hg; simp only [List.mem_cons, List.not_mem_nil, or_false] at hg ⊢; tauto) | split | simp only [RegsFrame.mk_iff] | with_reducible exact RegsFrame.of_regs rfl | dsimp only

theorem showTokens_only {o : State} {ff : List Field} {gf : List (Nat → Field)} (s : State) (h0 : RegsFrame o s ff gf)
    (sub : ∀ f ∈ ([Reg.FAULT_MAINT_HELD.HELD] : List Field), f.key ∈ ff.map Field.key)
    (subg : ∀ g ∈ ([] : List (Nat → Field)), g ∈ gf) : RegsFrame o (showTokens s) ff gf := by
  refine RegsFrame.via h0 ?_ sub subg; clear h0 sub subg; unfold showTokens; (try dsimp only)
  repeat' first | with_reducible exact RegsFrame.refl _ _ _ | with_reducible refine RegsFrame.set ?_ (by decide) _ | with_reducible refine RegsFrame.foldl (fun _ _ => ?_) ?_ | with_reducible refine RegsFrame.foldl_fst (fun _ _ => ?_) ?_ | with_reducible refine RegsFrame.foldl_snd (fun _ _ => ?_) ?_ | exact (by decide) | exact List.forall_mem_nil _ | (with_reducible intro g hg; simp only [List.mem_cons, List.not_mem_nil, or_false] at hg ⊢; tauto) | split | simp only [RegsFrame.mk_iff] | with_reducible exact RegsFrame.of_regs rfl | dsimp only

theorem takeToken_only {o : State} {ff : List Field} {gf : List (Nat → Field)} (s : State) (t : Token) (h0 : RegsFrame o s ff gf)
    (sub : ∀ f ∈ ([Reg.FAULT_MAINT_HELD.HELD, Reg.FAULT_MAINT_LAST.HOLDER, Reg.FAULT_MAINT_LAST.REQUESTED, Reg.FAULT_MAINT_REFUSED.COUNT] : List Field), f.key ∈ ff.map Field.key)
    (subg : ∀ g ∈ ([] : List (Nat → Field)), g ∈ gf) : RegsFrame o (takeToken s t).2 ff gf := by
  refine RegsFrame.via h0 ?_ sub subg; clear h0 sub subg; unfold takeToken; (try dsimp only)
  repeat' first | with_reducible exact RegsFrame.refl _ _ _ | with_reducible refine RegsFrame.set ?_ (by decide) _ | with_reducible refine RegsFrame.inc ?_ (by decide) | with_reducible apply showTokens_only | exact (by decide) | exact List.forall_mem_nil _ | (with_reducible intro g hg; simp only [List.mem_cons, List.not_mem_nil, or_false] at hg ⊢; tauto) | split | simp only [RegsFrame.mk_iff] | with_reducible exact RegsFrame.of_regs rfl | dsimp only

theorem dropToken_only {o : State} {ff : List Field} {gf : List (Nat → Field)} (s : State) (t : Token) (h0 : RegsFrame o s ff gf)
    (sub : ∀ f ∈ ([Reg.FAULT_MAINT_HELD.HELD] : List Field), f.key ∈ ff.map Field.key)
    (subg : ∀ g ∈ ([] : List (Nat → Field)), g ∈ gf) : RegsFrame o (dropToken s t) ff gf := by
  refine RegsFrame.via h0 ?_ sub subg; clear h0 sub subg; unfold dropToken; (try dsimp only)
  repeat' first | with_reducible exact RegsFrame.refl _ _ _ | with_reducible apply showTokens_only | exact (by decide) | exact List.forall_mem_nil _ | (with_reducible intro g hg; simp only [List.mem_cons, List.not_mem_nil, or_false] at hg ⊢; tauto) | split | simp only [RegsFrame.mk_iff] | with_reducible exact RegsFrame.of_regs rfl | dsimp only

theorem sense_only {o : State} {ff : List Field} {gf : List (Nat → Field)} (s : State) (h0 : RegsFrame o s ff gf)
    (sub : ∀ f ∈ ([Reg.PWR_CORE.AMPS, Reg.PWR_CORE.MV, Reg.PWR_POWER.BUCKET_MJ, Reg.PWR_POWER.WATTS, Reg.PWR_TJ.TJ] : List Field), f.key ∈ ff.map Field.key)
    (subg : ∀ g ∈ ([] : List (Nat → Field)), g ∈ gf) : RegsFrame o (State.sense s) ff gf := by
  refine RegsFrame.via h0 ?_ sub subg; clear h0 sub subg; unfold State.sense; (try dsimp only)
  repeat' first | with_reducible exact RegsFrame.refl _ _ _ | with_reducible refine RegsFrame.set ?_ (by decide) _ | with_reducible refine RegsFrame.draw ?_ _ | exact (by decide) | exact List.forall_mem_nil _ | (with_reducible intro g hg; simp only [List.mem_cons, List.not_mem_nil, or_false] at hg ⊢; tauto) | split | simp only [RegsFrame.mk_iff] | with_reducible exact RegsFrame.of_regs rfl | dsimp only

theorem queueTrans_only {o : State} {ff : List Field} {gf : List (Nat → Field)} (s : State) (t : List Trans) (h0 : RegsFrame o s ff gf)
    (sub : ∀ f ∈ ([Reg.LEDGER_QUEUE_DEPTH.DEPTH, Reg.LEDGER_STATUS.REBUILD_PENDING] : List Field), f.key ∈ ff.map Field.key)
    (subg : ∀ g ∈ ([] : List (Nat → Field)), g ∈ gf) : RegsFrame o (queueTrans s t) ff gf := by
  refine RegsFrame.via h0 ?_ sub subg; clear h0 sub subg; unfold queueTrans; (try dsimp only)
  repeat' first | with_reducible exact RegsFrame.refl _ _ _ | with_reducible refine RegsFrame.set ?_ (by decide) _ | exact (by decide) | exact List.forall_mem_nil _ | (with_reducible intro g hg; simp only [List.mem_cons, List.not_mem_nil, or_false] at hg ⊢; tauto) | split | simp only [RegsFrame.mk_iff] | with_reducible exact RegsFrame.of_regs rfl | dsimp only

theorem showShift_only {o : State} {ff : List Field} {gf : List (Nat → Field)} (s : State) (h0 : RegsFrame o s ff gf)
    (sub : ∀ f ∈ ([Reg.LEDGER_SHIFT_XY.SX, Reg.LEDGER_SHIFT_XY.SY, Reg.LEDGER_SHIFT_Z.SZ] : List Field), f.key ∈ ff.map Field.key)
    (subg : ∀ g ∈ ([] : List (Nat → Field)), g ∈ gf) : RegsFrame o (showShift s) ff gf := by
  refine RegsFrame.via h0 ?_ sub subg; clear h0 sub subg; unfold showShift; (try dsimp only)
  repeat' first | with_reducible exact RegsFrame.refl _ _ _ | with_reducible refine RegsFrame.set ?_ (by decide) _ | exact (by decide) | exact List.forall_mem_nil _ | (with_reducible intro g hg; simp only [List.mem_cons, List.not_mem_nil, or_false] at hg ⊢; tauto) | split | simp only [RegsFrame.mk_iff] | with_reducible exact RegsFrame.of_regs rfl | dsimp only

theorem showPending_only {o : State} {ff : List Field} {gf : List (Nat → Field)} (s : State) (h0 : RegsFrame o s ff gf)
    (sub : ∀ f ∈ ([Reg.LEDGER_STATUS.REBUILD_PENDING] : List Field), f.key ∈ ff.map Field.key)
    (subg : ∀ g ∈ ([] : List (Nat → Field)), g ∈ gf) : RegsFrame o (showPending s) ff gf := by
  refine RegsFrame.via h0 ?_ sub subg; clear h0 sub subg; unfold showPending; (try dsimp only)
  repeat' first | with_reducible exact RegsFrame.refl _ _ _ | with_reducible refine RegsFrame.set ?_ (by decide) _ | exact (by decide) | exact List.forall_mem_nil _ | (with_reducible intro g hg; simp only [List.mem_cons, List.not_mem_nil, or_false] at hg ⊢; tauto) | split | simp only [RegsFrame.mk_iff] | with_reducible exact RegsFrame.of_regs rfl | dsimp only

theorem scheduleRebuild_only {o : State} {ff : List Field} {gf : List (Nat → Field)} (s : State) (cause : Nat) (h0 : RegsFrame o s ff gf)
    (sub : ∀ f ∈ ([Reg.LEDGER_STATUS.REBUILD_PENDING] : List Field), f.key ∈ ff.map Field.key)
    (subg : ∀ g ∈ ([] : List (Nat → Field)), g ∈ gf) : RegsFrame o (scheduleRebuild s cause) ff gf := by
  refine RegsFrame.via h0 ?_ sub subg; clear h0 sub subg; unfold scheduleRebuild; (try dsimp only)
  repeat' first | with_reducible exact RegsFrame.refl _ _ _ | with_reducible apply showPending_only | exact (by decide) | exact List.forall_mem_nil _ | (with_reducible intro g hg; simp only [List.mem_cons, List.not_mem_nil, or_false] at hg ⊢; tauto) | split | simp only [RegsFrame.mk_iff] | with_reducible exact RegsFrame.of_regs rfl | dsimp only

theorem restartLedger_only {o : State} {ff : List Field} {gf : List (Nat → Field)} (s : State) (h0 : RegsFrame o s ff gf)
    (sub : ∀ f ∈ ([Reg.LEDGER_QUEUE_DEPTH.DEPTH, Reg.LEDGER_SHIFT_XY.SX, Reg.LEDGER_SHIFT_XY.SY, Reg.LEDGER_SHIFT_Z.SZ, Reg.LEDGER_STATUS.REBUILD_PENDING] : List Field), f.key ∈ ff.map Field.key)
    (subg : ∀ g ∈ ([] : List (Nat → Field)), g ∈ gf) : RegsFrame o (restartLedger s) ff gf := by
  refine RegsFrame.via h0 ?_ sub subg; clear h0 sub subg; unfold restartLedger; (try dsimp only)
  repeat' first | with_reducible exact RegsFrame.refl _ _ _ | with_reducible refine RegsFrame.set ?_ (by decide) _ | with_reducible apply scheduleRebuild_only | with_reducible apply showShift_only | exact (by decide) | exact List.forall_mem_nil _ | (with_reducible intro g hg; simp only [List.mem_cons, List.not_mem_nil, or_false] at hg ⊢; tauto) | split | simp only [RegsFrame.mk_iff] | with_reducible exact RegsFrame.of_regs rfl | dsimp only

theorem setDesc_only {o : State} {ff : List Field} {gf : List (Nat → Field)} (s : State) (tile d : Nat) (x : Desc) (h0 : RegsFrame o s ff gf) : RegsFrame o (State.setDesc s tile d x) ff gf :=
  h0.trans (RegsFrame.of_regs (by simp))

theorem tally_only {o : State} {ff : List Field} {gf : List (Nat → Field)} (s : State) (f : Field) (n : Nat) (h0 : RegsFrame o s ff gf) : RegsFrame o (State.tally s f n) ff gf :=
  h0.trans (RegsFrame.of_regs (by simp))

theorem showAgent_only {o : State} {ff : List Field} {gf : List (Nat → Field)} (s : State) (tile : Nat) (h0 : RegsFrame o s ff gf)
    (sub : ∀ f ∈ ([Reg.JIG_STATUS.PEND_READY] : List Field), f.key ∈ ff.map Field.key)
    (subg : ∀ g ∈ ([Reg.TILE_JIG_STATE.READY, Reg.TILE_JIG_STATE.RUNNING] : List (Nat → Field)), g ∈ gf) : RegsFrame o (showAgent s tile) ff gf := by
  refine RegsFrame.via h0 ?_ sub subg; clear h0 sub subg; unfold showAgent; (try dsimp only)
  repeat' first | with_reducible exact RegsFrame.refl _ _ _ | with_reducible refine RegsFrame.set ?_ (by decide) _ | with_reducible refine RegsFrame.setF (g := Reg.TILE_JIG_STATE.READY) ?_ (by simp) _ _ | with_reducible refine RegsFrame.setF (g := Reg.TILE_JIG_STATE.RUNNING) ?_ (by simp) _ _ | with_reducible apply tally_only | exact (by decide) | exact List.forall_mem_nil _ | (with_reducible intro g hg; simp only [List.mem_cons, List.not_mem_nil, or_false] at hg ⊢; tauto) | split | simp only [RegsFrame.mk_iff] | with_reducible exact RegsFrame.of_regs rfl | dsimp only

theorem trace_only {o : State} {ff : List Field} {gf : List (Nat → Field)} (s : State) (cls event tile d : Nat) (x : Desc) (detail : Nat) (h0 : RegsFrame o s ff gf)
    (sub : ∀ f ∈ ([Reg.JIG_STATUS.TRACE_FULL, Reg.JIG_TRACE_LOST.COUNT, Reg.JIG_TRACE_WR.INDEX, Reg.JIG_TRACE_WR.WRAPS] : List Field), f.key ∈ ff.map Field.key)
    (subg : ∀ g ∈ ([] : List (Nat → Field)), g ∈ gf) : RegsFrame o (trace s cls event tile d x detail) ff gf := by
  refine RegsFrame.via h0 ?_ sub subg; clear h0 sub subg; unfold trace; (try dsimp only)
  repeat' first | with_reducible exact RegsFrame.refl _ _ _ | with_reducible refine RegsFrame.set ?_ (by decide) _ | with_reducible refine RegsFrame.inc ?_ (by decide) | with_reducible refine RegsFrame.draw ?_ _ | exact (by decide) | exact List.forall_mem_nil _ | (with_reducible intro g hg; simp only [List.mem_cons, List.not_mem_nil, or_false] at hg ⊢; tauto) | split | simp only [RegsFrame.mk_iff] | with_reducible exact RegsFrame.of_regs rfl | dsimp only

theorem hold_only {o : State} {ff : List Field} {gf : List (Nat → Field)} (s : State) (row tile d : Nat) (x : Desc) (h0 : RegsFrame o s ff gf)
    (sub : ∀ f ∈ ([Reg.JIG_BACKPRESSURE.COUNT, Reg.JIG_STATUS.TRACE_FULL, Reg.JIG_TRACE_LOST.COUNT, Reg.JIG_TRACE_WR.INDEX, Reg.JIG_TRACE_WR.WRAPS] : List Field), f.key ∈ ff.map Field.key)
    (subg : ∀ g ∈ ([] : List (Nat → Field)), g ∈ gf) : RegsFrame o (hold s row tile d x) ff gf := by
  refine RegsFrame.via h0 ?_ sub subg; clear h0 sub subg; unfold hold; (try dsimp only)
  repeat' first | with_reducible exact RegsFrame.refl _ _ _ | with_reducible refine RegsFrame.inc ?_ (by decide) | with_reducible apply trace_only | exact (by decide) | exact List.forall_mem_nil _ | (with_reducible intro g hg; simp only [List.mem_cons, List.not_mem_nil, or_false] at hg ⊢; tauto) | split | simp only [RegsFrame.mk_iff] | with_reducible exact RegsFrame.of_regs rfl | dsimp only

theorem offerTask_only {o : State} {ff : List Field} {gf : List (Nat → Field)} (s : State) (img : Image) (tile d : Nat) (h0 : RegsFrame o s ff gf) : RegsFrame o (offerTask s img tile d) ff gf :=
  h0.trans (RegsFrame.of_regs (by simp))

theorem makeReady_only {o : State} {ff : List Field} {gf : List (Nat → Field)} (s : State) (img : Image) (tile d why : Nat) (h0 : RegsFrame o s ff gf)
    (sub : ∀ f ∈ ([Reg.JIG_BACKPRESSURE.COUNT, Reg.JIG_STATUS.PEND_READY, Reg.JIG_STATUS.TRACE_FULL, Reg.JIG_TRACE_LOST.COUNT, Reg.JIG_TRACE_WR.INDEX, Reg.JIG_TRACE_WR.WRAPS] : List Field), f.key ∈ ff.map Field.key)
    (subg : ∀ g ∈ ([Reg.TILE_JIG_STATE.READY, Reg.TILE_JIG_STATE.RUNNING] : List (Nat → Field)), g ∈ gf) : RegsFrame o (makeReady s img tile d why) ff gf := by
  refine RegsFrame.via h0 ?_ sub subg; clear h0 sub subg; unfold makeReady; (try dsimp only)
  repeat' first | with_reducible exact RegsFrame.refl _ _ _ | with_reducible apply setDesc_only | with_reducible apply hold_only | with_reducible apply offerTask_only | with_reducible apply showAgent_only | with_reducible apply trace_only | exact (by decide) | exact List.forall_mem_nil _ | (with_reducible intro g hg; simp only [List.mem_cons, List.not_mem_nil, or_false] at hg ⊢; tauto) | split | simp only [RegsFrame.mk_iff] | with_reducible exact RegsFrame.of_regs rfl | dsimp only

theorem promote_only {o : State} {ff : List Field} {gf : List (Nat → Field)} (s : State) (tile : Nat) (h0 : RegsFrame o s ff gf) : RegsFrame o (promote s tile) ff gf :=
  h0.trans (RegsFrame.of_regs (by simp))

theorem admitSlice_only {o : State} {ff : List Field} {gf : List (Nat → Field)} (s : State) (cls idx : Nat) (h0 : RegsFrame o s ff gf)
    (sub : ∀ f ∈ ([Reg.FAULT_MAINT_HELD.HELD, Reg.FAULT_MAINT_LAST.HOLDER, Reg.FAULT_MAINT_LAST.REQUESTED, Reg.FAULT_MAINT_REFUSED.COUNT] : List Field), f.key ∈ ff.map Field.key)
    (subg : ∀ g ∈ ([] : List (Nat → Field)), g ∈ gf) : RegsFrame o (admitSlice s cls idx) ff gf := by
  refine RegsFrame.via h0 ?_ sub subg; clear h0 sub subg; unfold admitSlice; (try dsimp only)
  repeat' first | with_reducible exact RegsFrame.refl _ _ _ | with_reducible apply setUnit_only | with_reducible apply takeToken_only | exact (by decide) | exact List.forall_mem_nil _ | (with_reducible intro g hg; simp only [List.mem_cons, List.not_mem_nil, or_false] at hg ⊢; tauto) | split | simp only [RegsFrame.mk_iff] | with_reducible exact RegsFrame.of_regs rfl | dsimp only

theorem admitWaiting_only {o : State} {ff : List Field} {gf : List (Nat → Field)} (s : State) (h0 : RegsFrame o s ff gf)
    (sub : ∀ f ∈ ([Reg.FAULT_MAINT_HELD.HELD, Reg.FAULT_MAINT_LAST.HOLDER, Reg.FAULT_MAINT_LAST.REQUESTED, Reg.FAULT_MAINT_REFUSED.COUNT] : List Field), f.key ∈ ff.map Field.key)
    (subg : ∀ g ∈ ([] : List (Nat → Field)), g ∈ gf) : RegsFrame o (admitWaiting s) ff gf := by
  refine RegsFrame.via h0 ?_ sub subg; clear h0 sub subg; unfold admitWaiting; (try dsimp only)
  repeat' first | with_reducible exact RegsFrame.refl _ _ _ | with_reducible refine RegsFrame.foldl (fun _ _ => ?_) ?_ | with_reducible refine RegsFrame.foldl_fst (fun _ _ => ?_) ?_ | with_reducible refine RegsFrame.foldl_snd (fun _ _ => ?_) ?_ | with_reducible apply admitSlice_only | exact (by decide) | exact List.forall_mem_nil _ | (with_reducible intro g hg; simp only [List.mem_cons, List.not_mem_nil, or_false] at hg ⊢; tauto) | split | simp only [RegsFrame.mk_iff] | with_reducible exact RegsFrame.of_regs rfl | dsimp only

theorem bindDesc_only {o : State} {ff : List Field} {gf : List (Nat → Field)} (s : State) (img : Image) (tile d : Nat) (x : Desc) (h0 : RegsFrame o s ff gf)
    (sub : ∀ f ∈ ([Reg.JIG_BACKPRESSURE.COUNT, Reg.JIG_STATUS.PEND_READY, Reg.JIG_STATUS.TRACE_FULL, Reg.JIG_TRACE_LOST.COUNT, Reg.JIG_TRACE_WR.INDEX, Reg.JIG_TRACE_WR.WRAPS] : List Field), f.key ∈ ff.map Field.key)
    (subg : ∀ g ∈ ([Reg.TILE_JIG_STATE.READY, Reg.TILE_JIG_STATE.RUNNING] : List (Nat → Field)), g ∈ gf) : RegsFrame o (bindDesc s img tile d x) ff gf := by
  refine RegsFrame.via h0 ?_ sub subg; clear h0 sub subg; unfold bindDesc; (try dsimp only)
  repeat' first | with_reducible exact RegsFrame.refl _ _ _ | with_reducible apply setDesc_only | with_reducible apply makeReady_only | with_reducible apply showAgent_only | exact (by decide) | exact List.forall_mem_nil _ | (with_reducible intro g hg; simp only [List.mem_cons, List.not_mem_nil, or_false] at hg ⊢; tauto) | split | simp only [RegsFrame.mk_iff] | with_reducible exact RegsFrame.of_regs rfl | dsimp only

theorem createTask_only {o : State} {ff : List Field} {gf : List (Nat → Field)} (s : State) (img : Image) (tile : Nat) (kind : TaskKind) (spec : Bool) (e : Epoch) (x : Desc) (d : Nat) (h0 : RegsFrame o s ff gf)
    (sub : ∀ f ∈ ([Reg.JIG_BACKPRESSURE.COUNT, Reg.JIG_STATUS.PEND_READY, Reg.JIG_STATUS.TRACE_FULL, Reg.JIG_TRACE_LOST.COUNT, Reg.JIG_TRACE_WR.INDEX, Reg.JIG_TRACE_WR.WRAPS] : List Field), f.key ∈ ff.map Field.key)
    (subg : ∀ g ∈ ([Reg.TILE_JIG_STATE.READY, Reg.TILE_JIG_STATE.RUNNING] : List (Nat → Field)), g ∈ gf) : RegsFrame o (createTask s img tile kind spec e x d) ff gf := by
  refine RegsFrame.via h0 ?_ sub subg; clear h0 sub subg; unfold createTask; (try dsimp only)
  repeat' first | with_reducible exact RegsFrame.refl _ _ _ | with_reducible apply setDesc_only | with_reducible apply bindDesc_only | with_reducible apply hold_only | exact (by decide) | exact List.forall_mem_nil _ | (with_reducible intro g hg; simp only [List.mem_cons, List.not_mem_nil, or_false] at hg ⊢; tauto) | split | simp only [RegsFrame.mk_iff] | with_reducible exact RegsFrame.of_regs rfl | dsimp only

theorem runTask_only {o : State} {ff : List Field} {gf : List (Nat → Field)} (s : State) (tile d reserve thread : Nat) (h0 : RegsFrame o s ff gf)
    (sub : ∀ f ∈ ([Reg.JIG_STATUS.PEND_READY, Reg.JIG_STATUS.TRACE_FULL, Reg.JIG_TRACE_LOST.COUNT, Reg.JIG_TRACE_WR.INDEX, Reg.JIG_TRACE_WR.WRAPS] : List Field), f.key ∈ ff.map Field.key)
    (subg : ∀ g ∈ ([Reg.TILE_JIG_STATE.READY, Reg.TILE_JIG_STATE.RUNNING] : List (Nat → Field)), g ∈ gf) : RegsFrame o (runTask s tile d reserve thread) ff gf := by
  refine RegsFrame.via h0 ?_ sub subg; clear h0 sub subg; unfold runTask; (try dsimp only)
  repeat' first | with_reducible exact RegsFrame.refl _ _ _ | with_reducible apply setDesc_only | with_reducible apply tally_only | with_reducible apply promote_only | with_reducible apply showAgent_only | with_reducible apply trace_only | exact (by decide) | exact List.forall_mem_nil _ | (with_reducible intro g hg; simp only [List.mem_cons, List.not_mem_nil, or_false] at hg ⊢; tauto) | split | simp only [RegsFrame.mk_iff] | with_reducible exact RegsFrame.of_regs rfl | dsimp only

theorem trySlice_only {o : State} {ff : List Field} {gf : List (Nat → Field)} (s : State) (img : Image) (tile d thread : Nat) (h0 : RegsFrame o s ff gf)
    (sub : ∀ f ∈ ([Reg.FAULT_MAINT_HELD.HELD, Reg.FAULT_MAINT_LAST.HOLDER, Reg.FAULT_MAINT_LAST.REQUESTED, Reg.FAULT_MAINT_REFUSED.COUNT, Reg.JIG_STATUS.PEND_READY, Reg.JIG_STATUS.TRACE_FULL, Reg.JIG_TEST_ADMITS.COUNT, Reg.JIG_TEST_DEFERS.COUNT, Reg.JIG_TRACE_LOST.COUNT, Reg.JIG_TRACE_WR.INDEX, Reg.JIG_TRACE_WR.WRAPS] : List Field), f.key ∈ ff.map Field.key)
    (subg : ∀ g ∈ ([Reg.TILE_JIG_STATE.READY, Reg.TILE_JIG_STATE.RUNNING] : List (Nat → Field)), g ∈ gf) : RegsFrame o (trySlice s img tile d thread) ff gf := by
  refine RegsFrame.via h0 ?_ sub subg; clear h0 sub subg; unfold trySlice; (try dsimp only)
  repeat' first | with_reducible exact RegsFrame.refl _ _ _ | with_reducible refine RegsFrame.inc ?_ (by decide) | with_reducible refine RegsFrame.foldl (fun _ _ => ?_) ?_ | with_reducible refine RegsFrame.foldl_fst (fun _ _ => ?_) ?_ | with_reducible refine RegsFrame.foldl_snd (fun _ _ => ?_) ?_ | with_reducible apply setUnit_only | with_reducible apply offerTask_only | with_reducible apply runTask_only | with_reducible apply takeToken_only | with_reducible apply trace_only | exact (by decide) | exact List.forall_mem_nil _ | (with_reducible intro g hg; simp only [List.mem_cons, List.not_mem_nil, or_false] at hg ⊢; tauto) | split | simp only [RegsFrame.mk_iff] | with_reducible exact RegsFrame.of_regs rfl | dsimp only

theorem yieldTask_only {o : State} {ff : List Field} {gf : List (Nat → Field)} (s : State) (img : Image) (tile d : Nat) (x : Desc) (why : Yield) (h0 : RegsFrame o s ff gf)
    (sub : ∀ f ∈ ([Reg.JIG_STATUS.PEND_READY, Reg.JIG_STATUS.TRACE_FULL, Reg.JIG_TRACE_LOST.COUNT, Reg.JIG_TRACE_WR.INDEX, Reg.JIG_TRACE_WR.WRAPS] : List Field), f.key ∈ ff.map Field.key)
    (subg : ∀ g ∈ ([Reg.TILE_JIG_STATE.READY, Reg.TILE_JIG_STATE.RUNNING] : List (Nat → Field)), g ∈ gf) : RegsFrame o (yieldTask s img tile d x why) ff gf := by
  refine RegsFrame.via h0 ?_ sub subg; clear h0 sub subg; unfold yieldTask; (try dsimp only)
  repeat' first | with_reducible exact RegsFrame.refl _ _ _ | with_reducible apply setDesc_only | with_reducible apply showAgent_only | with_reducible apply trace_only | exact (by decide) | exact List.forall_mem_nil _ | (with_reducible intro g hg; simp only [List.mem_cons, List.not_mem_nil, or_false] at hg ⊢; tauto) | split | simp only [RegsFrame.mk_iff] | with_reducible exact RegsFrame.of_regs rfl | dsimp only

theorem answerOffer_only {o : State} {ff : List Field} {gf : List (Nat → Field)} (s : State) (tile d : Nat) (x : Desc) (h0 : RegsFrame o s ff gf)
    (sub : ∀ f ∈ ([Reg.JIG_STATUS.PEND_READY, Reg.JIG_STATUS.TRACE_FULL, Reg.JIG_TRACE_LOST.COUNT, Reg.JIG_TRACE_WR.INDEX, Reg.JIG_TRACE_WR.WRAPS] : List Field), f.key ∈ ff.map Field.key)
    (subg : ∀ g ∈ ([Reg.TILE_JIG_STATE.READY, Reg.TILE_JIG_STATE.RUNNING] : List (Nat → Field)), g ∈ gf) : RegsFrame o (answerOffer s tile d x) ff gf := by
  refine RegsFrame.via h0 ?_ sub subg; clear h0 sub subg; unfold answerOffer; (try dsimp only)
  repeat' first | with_reducible exact RegsFrame.refl _ _ _ | with_reducible apply setDesc_only | with_reducible apply tally_only | with_reducible apply showAgent_only | with_reducible apply trace_only | exact (by decide) | exact List.forall_mem_nil _ | (with_reducible intro g hg; simp only [List.mem_cons, List.not_mem_nil, or_false] at hg ⊢; tauto) | split | simp only [RegsFrame.mk_iff] | with_reducible exact RegsFrame.of_regs rfl | dsimp only

theorem rebuildCmd_only {o : State} {ff : List Field} {gf : List (Nat → Field)} (src : Source) (s : State) (h0 : RegsFrame o s ff gf)
    (sub : ∀ f ∈ ([Reg.FAULT_MAINT_HELD.HELD, Reg.FAULT_MAINT_LAST.HOLDER, Reg.FAULT_MAINT_LAST.REQUESTED, Reg.FAULT_MAINT_REFUSED.COUNT, Reg.LEDGER_STATUS.CMD_RESULT, Reg.LEDGER_STATUS.REBUILD_PENDING] : List Field), f.key ∈ ff.map Field.key)
    (subg : ∀ g ∈ ([] : List (Nat → Field)), g ∈ gf) : RegsFrame o (rebuildCmd src s) ff gf := by
  refine RegsFrame.via h0 ?_ sub subg; clear h0 sub subg; unfold rebuildCmd; (try dsimp only)
  repeat' first | with_reducible exact RegsFrame.refl _ _ _ | with_reducible refine RegsFrame.set ?_ (by decide) _ | with_reducible apply scheduleRebuild_only | with_reducible apply takeToken_only | exact (by decide) | exact List.forall_mem_nil _ | (with_reducible intro g hg; simp only [List.mem_cons, List.not_mem_nil, or_false] at hg ⊢; tauto) | split | simp only [RegsFrame.mk_iff] | with_reducible exact RegsFrame.of_regs rfl | dsimp only

theorem markSent_only {o : State} {ff : List Field} {gf : List (Nat → Field)} (s : State) (img : Image) (b : List Byte) (h0 : RegsFrame o s ff gf) : RegsFrame o (markSent s img b) ff gf :=
  h0.trans (RegsFrame.of_regs (by simp))

theorem finishSnapshot_only {o : State} {ff : List Field} {gf : List (Nat → Field)} (s : State) (img : Image) (h0 : RegsFrame o s ff gf)
    (sub : ∀ f ∈ ([Reg.WORLD_DT_CYCLES.CYCLES, Reg.WORLD_DT_PANELS.PANELS, Reg.WORLD_SNAP_EPOCH.EPOCH, Reg.WORLD_STATUS.PHASE] : List Field), f.key ∈ ff.map Field.key)
    (subg : ∀ g ∈ ([Reg.WORLD_CHANGE_COUNT.CHANGED] : List (Nat → Field)), g ∈ gf) : RegsFrame o (finishSnapshot s img) ff gf := by
  refine RegsFrame.via h0 ?_ sub subg; clear h0 sub subg; unfold finishSnapshot; (try dsimp only)
  repeat' first | with_reducible exact RegsFrame.refl _ _ _ | with_reducible refine RegsFrame.set ?_ (by decide) _ | with_reducible refine RegsFrame.setF (g := Reg.WORLD_CHANGE_COUNT.CHANGED) ?_ (by simp) _ _ | with_reducible refine RegsFrame.foldl (fun _ _ => ?_) ?_ | with_reducible refine RegsFrame.foldl_fst (fun _ _ => ?_) ?_ | with_reducible refine RegsFrame.foldl_snd (fun _ _ => ?_) ?_ | exact (by decide) | exact List.forall_mem_nil _ | (with_reducible intro g hg; simp only [List.mem_cons, List.not_mem_nil, or_false] at hg ⊢; tauto) | split | simp only [RegsFrame.mk_iff] | with_reducible exact RegsFrame.of_regs rfl | dsimp only

theorem finalPanel_only {o : State} {ff : List Field} {gf : List (Nat → Field)} (s : State) (img : Image) (l p : Nat) (h0 : RegsFrame o s ff gf)
    (sub : ∀ f ∈ ([Reg.LEDGER_QUEUE_DEPTH.DEPTH, Reg.LEDGER_STATUS.REBUILD_PENDING, Reg.WORLD_DT_CYCLES.CYCLES, Reg.WORLD_DT_PANELS.PANELS, Reg.WORLD_SNAP_EPOCH.EPOCH, Reg.WORLD_STATUS.PHASE] : List Field), f.key ∈ ff.map Field.key)
    (subg : ∀ g ∈ ([Reg.WORLD_CHANGE_COUNT.CHANGED] : List (Nat → Field)), g ∈ gf) : RegsFrame o (finalPanel s img l p) ff gf := by
  refine RegsFrame.via h0 ?_ sub subg; clear h0 sub subg; unfold finalPanel; (try dsimp only)
  repeat' first | with_reducible exact RegsFrame.refl _ _ _ | with_reducible apply finishSnapshot_only | with_reducible apply markSent_only | with_reducible apply queueTrans_only | exact (by decide) | exact List.forall_mem_nil _ | (with_reducible intro g hg; simp only [List.mem_cons, List.not_mem_nil, or_false] at hg ⊢; tauto) | split | simp only [RegsFrame.mk_iff] | with_reducible exact RegsFrame.of_regs rfl | dsimp only

theorem keepPanel_only {o : State} {ff : List Field} {gf : List (Nat → Field)} (s : State) (img : Image) (l p : Nat) (h0 : RegsFrame o s ff gf)
    (sub : ∀ f ∈ ([Reg.WORLD_DT_CYCLES.CYCLES, Reg.WORLD_DT_PANELS.PANELS, Reg.WORLD_SNAP_EPOCH.EPOCH, Reg.WORLD_STATUS.PHASE] : List Field), f.key ∈ ff.map Field.key)
    (subg : ∀ g ∈ ([Reg.WORLD_CHANGE_COUNT.CHANGED] : List (Nat → Field)), g ∈ gf) : RegsFrame o (keepPanel s img l p) ff gf := by
  refine RegsFrame.via h0 ?_ sub subg; clear h0 sub subg; unfold keepPanel; (try dsimp only)
  repeat' first | with_reducible exact RegsFrame.refl _ _ _ | with_reducible apply finishSnapshot_only | exact (by decide) | exact List.forall_mem_nil _ | (with_reducible intro g hg; simp only [List.mem_cons, List.not_mem_nil, or_false] at hg ⊢; tauto) | split | simp only [RegsFrame.mk_iff] | with_reducible exact RegsFrame.of_regs rfl | dsimp only

theorem recomputePanel_only {o : State} {ff : List Field} {gf : List (Nat → Field)} (s : State) (img : Image) (l p : Nat) (h0 : RegsFrame o s ff gf)
    (sub : ∀ f ∈ ([Reg.WORLD_DT_CYCLES.CYCLES, Reg.WORLD_DT_PANELS.PANELS, Reg.WORLD_SNAP_EPOCH.EPOCH, Reg.WORLD_STATUS.PHASE] : List Field), f.key ∈ ff.map Field.key)
    (subg : ∀ g ∈ ([Reg.WORLD_CHANGE_COUNT.CHANGED] : List (Nat → Field)), g ∈ gf) : RegsFrame o (recomputePanel s img l p) ff gf := by
  refine RegsFrame.via h0 ?_ sub subg; clear h0 sub subg; unfold recomputePanel; (try dsimp only)
  repeat' first | with_reducible exact RegsFrame.refl _ _ _ | with_reducible apply finishSnapshot_only | exact (by decide) | exact List.forall_mem_nil _ | (with_reducible intro g hg; simp only [List.mem_cons, List.not_mem_nil, or_false] at hg ⊢; tauto) | split | simp only [RegsFrame.mk_iff] | with_reducible exact RegsFrame.of_regs rfl | dsimp only

theorem sendLists_only {o : State} {ff : List Field} {gf : List (Nat → Field)} (s : State) (img : Image) (h0 : RegsFrame o s ff gf)
    (sub : ∀ f ∈ ([] : List Field), f.key ∈ ff.map Field.key)
    (subg : ∀ g ∈ ([Reg.TENON_LINK_CREDITS.SHARED, Reg.TENON_LINK_CREDITS.VC0, Reg.TENON_LINK_CREDITS.VC1, Reg.TENON_LINK_CREDITS.VC2, Reg.TENON_LINK_CREDITS.VC3] : List (Nat → Field)), g ∈ gf) : RegsFrame o (sendLists s img) ff gf := by
  refine RegsFrame.via h0 ?_ sub subg; clear h0 sub subg; unfold sendLists; (try dsimp only)
  repeat' first | with_reducible exact RegsFrame.refl _ _ _ | with_reducible refine RegsFrame.foldl (fun _ _ => ?_) ?_ | with_reducible refine RegsFrame.foldl_fst (fun _ _ => ?_) ?_ | with_reducible refine RegsFrame.foldl_snd (fun _ _ => ?_) ?_ | with_reducible apply sendMessage_only | with_reducible apply tryConfirm_only | exact (by decide) | exact List.forall_mem_nil _ | (with_reducible intro g hg; simp only [List.mem_cons, List.not_mem_nil, or_false] at hg ⊢; tauto) | split | simp only [RegsFrame.mk_iff] | with_reducible exact RegsFrame.of_regs rfl | dsimp only

theorem returnRefine_only {o : State} {ff : List Field} {gf : List (Nat → Field)} (s : State) (img : Image) (r : RefineRun) (tr : Traj) (t : Nat) (h0 : RegsFrame o s ff gf)
    (sub : ∀ f ∈ ([Reg.SOLVER_COLD_COUNT.COUNT, Reg.SOLVER_DEADLINE_COUNT.COUNT, Reg.SOLVER_NUMERIC_COUNT.COUNT, Reg.SOLVER_RETURN_NS.RETURN, Reg.SOLVER_STATUS.DIAG_BUSY] : List Field), f.key ∈ ff.map Field.key)
    (subg : ∀ g ∈ ([] : List (Nat → Field)), g ∈ gf) : RegsFrame o (returnRefine s img r tr t) ff gf := by
  refine RegsFrame.via h0 ?_ sub subg; clear h0 sub subg; unfold returnRefine; (try dsimp only)
  repeat' first | with_reducible exact RegsFrame.refl _ _ _ | with_reducible refine RegsFrame.set ?_ (by decide) _ | with_reducible refine RegsFrame.inc ?_ (by decide) | exact (by decide) | exact List.forall_mem_nil _ | (with_reducible intro g hg; simp only [List.mem_cons, List.not_mem_nil, or_false] at hg ⊢; tauto) | split | simp only [RegsFrame.mk_iff] | with_reducible exact RegsFrame.of_regs rfl | dsimp only

theorem setPart_only {o : State} {ff : List Field} {gf : List (Nat → Field)} (s : State) (p : Nat) (x : PartSt) (h0 : RegsFrame o s ff gf)
    (sub : ∀ f ∈ ([] : List Field), f.key ∈ ff.map Field.key)
    (subg : ∀ g ∈ ([Reg.ETH_PART_STATUS.KEY_VALID] : List (Nat → Field)), g ∈ gf) : RegsFrame o (State.setPart s p x) ff gf := by
  refine RegsFrame.via h0 ?_ sub subg; clear h0 sub subg; unfold State.setPart; (try dsimp only)
  repeat' first | with_reducible exact RegsFrame.refl _ _ _ | with_reducible refine RegsFrame.set ?_ (by decide) _ | with_reducible refine RegsFrame.setF (g := Reg.ETH_PART_STATUS.KEY_VALID) ?_ (by simp) _ _ | exact (by decide) | exact List.forall_mem_nil _ | (with_reducible intro g hg; simp only [List.mem_cons, List.not_mem_nil, or_false] at hg ⊢; tauto) | split | simp only [RegsFrame.mk_iff] | with_reducible exact RegsFrame.of_regs rfl | dsimp only

theorem countDrop_only {o : State} {ff : List Field} {gf : List (Nat → Field)} (s : State) (r : Nat) (f : Frame) (h0 : RegsFrame o s ff gf)
    (sub : ∀ f ∈ ([] : List Field), f.key ∈ ff.map Field.key)
    (subg : ∀ g ∈ ([Reg.ETH_PART_AUTH_FAIL.COUNT, Reg.ETH_PART_METER_DROP.COUNT, Reg.ETH_RX_DROP.COUNT] : List (Nat → Field)), g ∈ gf) : RegsFrame o (countDrop s r f) ff gf := by
  refine RegsFrame.via h0 ?_ sub subg; clear h0 sub subg; unfold countDrop; (try dsimp only)
  repeat' first | with_reducible exact RegsFrame.refl _ _ _ | with_reducible refine RegsFrame.inc ?_ (by decide) | with_reducible refine RegsFrame.incF (g := Reg.ETH_PART_AUTH_FAIL.COUNT) ?_ (by simp) _ | with_reducible refine RegsFrame.incF (g := Reg.ETH_PART_METER_DROP.COUNT) ?_ (by simp) _ | with_reducible refine RegsFrame.incF (g := Reg.ETH_RX_DROP.COUNT) ?_ (by simp) _ | exact (by decide) | exact List.forall_mem_nil _ | (with_reducible intro g hg; simp only [List.mem_cons, List.not_mem_nil, or_false] at hg ⊢; tauto) | split | simp only [RegsFrame.mk_iff] | with_reducible exact RegsFrame.of_regs rfl | dsimp only

theorem acceptSeq_only {o : State} {ff : List Field} {gf : List (Nat → Field)} (s : State) (f : Frame) (h0 : RegsFrame o s ff gf)
    (sub : ∀ f ∈ ([] : List Field), f.key ∈ ff.map Field.key)
    (subg : ∀ g ∈ ([Reg.ETH_PART_RX_SEQ.SEQ, Reg.ETH_PART_STATUS.KEY_VALID] : List (Nat → Field)), g ∈ gf) : RegsFrame o (acceptSeq s f) ff gf := by
  refine RegsFrame.via h0 ?_ sub subg; clear h0 sub subg; unfold acceptSeq; (try dsimp only)
  repeat' first | with_reducible exact RegsFrame.refl _ _ _ | with_reducible refine RegsFrame.set ?_ (by decide) _ | with_reducible refine RegsFrame.setF (g := Reg.ETH_PART_RX_SEQ.SEQ) ?_ (by simp) _ _ | with_reducible apply setPart_only | exact (by decide) | exact List.forall_mem_nil _ | (with_reducible intro g hg; simp only [List.mem_cons, List.not_mem_nil, or_false] at hg ⊢; tauto) | split | simp only [RegsFrame.mk_iff] | with_reducible exact RegsFrame.of_regs rfl | dsimp only

theorem receiveBoot_only {o : State} {ff : List Field} {gf : List (Nat → Field)} (s : State) (f : Frame) (h0 : RegsFrame o s ff gf)
    (sub : ∀ f ∈ ([] : List Field), f.key ∈ ff.map Field.key)
    (subg : ∀ g ∈ ([Reg.ETH_PART_AUTH_FAIL.COUNT, Reg.ETH_PART_METER_DROP.COUNT, Reg.ETH_PART_RX_SEQ.SEQ, Reg.ETH_PART_STATUS.KEY_VALID, Reg.ETH_RX_DROP.COUNT] : List (Nat → Field)), g ∈ gf) : RegsFrame o (receiveBoot s f).2 ff gf := by
  refine RegsFrame.via h0 ?_ sub subg; clear h0 sub subg; unfold receiveBoot; (try dsimp only)
  repeat' first | with_reducible exact RegsFrame.refl _ _ _ | with_reducible apply acceptSeq_only | with_reducible apply countDrop_only | exact (by decide) | exact List.forall_mem_nil _ | (with_reducible intro g hg; simp only [List.mem_cons, List.not_mem_nil, or_false] at hg ⊢; tauto) | split | simp only [RegsFrame.mk_iff] | with_reducible exact RegsFrame.of_regs rfl | dsimp only

set_option maxHeartbeats 1000000 in
theorem receiveRunning_only {o : State} {ff : List Field} {gf : List (Nat → Field)} (s : State) (img : Image) (f : Frame) (t : Nat) (h0 : RegsFrame o s ff gf)
    (sub : ∀ f ∈ ([] : List Field), f.key ∈ ff.map Field.key)
    (subg : ∀ g ∈ ([Reg.ETH_PART_AUTH_FAIL.COUNT, Reg.ETH_PART_METER_DROP.COUNT, Reg.ETH_PART_RX_SEQ.SEQ, Reg.ETH_PART_STATUS.KEY_VALID, Reg.ETH_RX_DROP.COUNT] : List (Nat → Field)), g ∈ gf) : RegsFrame o (receiveRunning s img f t).2 ff gf := by
  refine RegsFrame.via h0 ?_ sub subg; clear h0 sub subg; unfold receiveRunning; (try dsimp only)
  repeat' first | with_reducible exact RegsFrame.refl _ _ _ | with_reducible apply setPart_only | with_reducible apply acceptSeq_only | with_reducible apply countDrop_only | exact (by decide) | exact List.forall_mem_nil _ | (with_reducible intro g hg; simp only [List.mem_cons, List.not_mem_nil, or_false] at hg ⊢; tauto) | split | simp only [RegsFrame.mk_iff] | with_reducible exact RegsFrame.of_regs rfl | dsimp only

theorem receive_only {o : State} {ff : List Field} {gf : List (Nat → Field)} (s : State) (f : Frame) (t : Nat) (h0 : RegsFrame o s ff gf)
    (sub : ∀ f ∈ ([] : List Field), f.key ∈ ff.map Field.key)
    (subg : ∀ g ∈ ([Reg.ETH_PART_AUTH_FAIL.COUNT, Reg.ETH_PART_METER_DROP.COUNT, Reg.ETH_PART_RX_SEQ.SEQ, Reg.ETH_PART_STATUS.KEY_VALID, Reg.ETH_PORT_RX_ERR.COUNT, Reg.ETH_RX_DROP.COUNT] : List (Nat → Field)), g ∈ gf) : RegsFrame o (receive s f t).2 ff gf := by
  refine RegsFrame.via h0 ?_ sub subg; clear h0 sub subg; unfold receive; (try dsimp only)
  repeat' first | with_reducible exact RegsFrame.refl _ _ _ | with_reducible refine RegsFrame.inc ?_ (by decide) | with_reducible refine RegsFrame.incF (g := Reg.ETH_PORT_RX_ERR.COUNT) ?_ (by simp) _ | with_reducible apply countDrop_only | with_reducible apply receiveBoot_only | with_reducible apply receiveRunning_only | exact (by decide) | exact List.forall_mem_nil _ | (with_reducible intro g hg; simp only [List.mem_cons, List.not_mem_nil, or_false] at hg ⊢; tauto) | split | simp only [RegsFrame.mk_iff] | with_reducible exact RegsFrame.of_regs rfl | dsimp only

theorem sendFrame_only {o : State} {ff : List Field} {gf : List (Nat → Field)} (s : State) (p ty : Nat) (e : Epoch) (rtag : Option Nat) (payload : List Byte) (h0 : RegsFrame o s ff gf)
    (sub : ∀ f ∈ ([] : List Field), f.key ∈ ff.map Field.key)
    (subg : ∀ g ∈ ([Reg.ETH_PART_STATUS.KEY_VALID, Reg.ETH_PART_STATUS.ROLL_DUE, Reg.ETH_PART_TX_SEQ.SEQ, Reg.ETH_PORT_TX_DROP.COUNT] : List (Nat → Field)), g ∈ gf) : RegsFrame o (sendFrame s p ty e rtag payload) ff gf := by
  refine RegsFrame.via h0 ?_ sub subg; clear h0 sub subg; unfold sendFrame; (try dsimp only)
  repeat' first | with_reducible exact RegsFrame.refl _ _ _ | with_reducible refine RegsFrame.set ?_ (by decide) _ | with_reducible refine RegsFrame.inc ?_ (by decide) | with_reducible refine RegsFrame.setF (g := Reg.ETH_PART_STATUS.ROLL_DUE) ?_ (by simp) _ _ | with_reducible refine RegsFrame.incF (g := Reg.ETH_PART_STATUS.ROLL_DUE) ?_ (by simp) _ | with_reducible refine RegsFrame.setF (g := Reg.ETH_PART_TX_SEQ.SEQ) ?_ (by simp) _ _ | with_reducible refine RegsFrame.incF (g := Reg.ETH_PART_TX_SEQ.SEQ) ?_ (by simp) _ | with_reducible refine RegsFrame.setF (g := Reg.ETH_PORT_TX_DROP.COUNT) ?_ (by simp) _ _ | with_reducible refine RegsFrame.incF (g := Reg.ETH_PORT_TX_DROP.COUNT) ?_ (by simp) _ | with_reducible refine RegsFrame.foldl (fun _ _ => ?_) ?_ | with_reducible refine RegsFrame.foldl_fst (fun _ _ => ?_) ?_ | with_reducible refine RegsFrame.foldl_snd (fun _ _ => ?_) ?_ | with_reducible apply setPart_only | exact (by decide) | exact List.forall_mem_nil _ | (with_reducible intro g hg; simp only [List.mem_cons, List.not_mem_nil, or_false] at hg ⊢; tauto) | split | simp only [RegsFrame.mk_iff] | with_reducible exact RegsFrame.of_regs rfl | dsimp only

theorem sendResult_only {o : State} {ff : List Field} {gf : List (Nat → Field)} (s : State) (p kind jobId : Nat) (e : Epoch) (body : List Byte) (h0 : RegsFrame o s ff gf)
    (sub : ∀ f ∈ ([] : List Field), f.key ∈ ff.map Field.key)
    (subg : ∀ g ∈ ([Reg.ETH_PART_RESULTS.COUNT, Reg.ETH_PART_STATUS.KEY_VALID, Reg.ETH_PART_STATUS.ROLL_DUE, Reg.ETH_PART_TX_SEQ.SEQ, Reg.ETH_PORT_TX_DROP.COUNT] : List (Nat → Field)), g ∈ gf) : RegsFrame o (sendResult s p kind jobId e body) ff gf := by
  refine RegsFrame.via h0 ?_ sub subg; clear h0 sub subg; unfold sendResult; (try dsimp only)
  repeat' first | with_reducible exact RegsFrame.refl _ _ _ | with_reducible refine RegsFrame.inc ?_ (by decide) | with_reducible refine RegsFrame.incF (g := Reg.ETH_PART_RESULTS.COUNT) ?_ (by simp) _ | with_reducible refine RegsFrame.foldl (fun _ _ => ?_) ?_ | with_reducible refine RegsFrame.foldl_fst (fun _ _ => ?_) ?_ | with_reducible refine RegsFrame.foldl_snd (fun _ _ => ?_) ?_ | with_reducible apply sendFrame_only | exact (by decide) | exact List.forall_mem_nil _ | (with_reducible intro g hg; simp only [List.mem_cons, List.not_mem_nil, or_false] at hg ⊢; tauto) | split | simp only [RegsFrame.mk_iff] | with_reducible exact RegsFrame.of_regs rfl | dsimp only

theorem queueResults_only {o : State} {ff : List Field} {gf : List (Nat → Field)} (s : State) (img : Image) (sel : Option Selection) (h : ResultHead) (h0 : RegsFrame o s ff gf)
    (sub : ∀ f ∈ ([] : List Field), f.key ∈ ff.map Field.key)
    (subg : ∀ g ∈ ([Reg.ETH_PART_RESULTS.COUNT, Reg.ETH_PART_STATUS.KEY_VALID, Reg.ETH_PART_STATUS.ROLL_DUE, Reg.ETH_PART_TX_SEQ.SEQ, Reg.ETH_PORT_TX_DROP.COUNT] : List (Nat → Field)), g ∈ gf) : RegsFrame o (queueResults s img sel h) ff gf := by
  refine RegsFrame.via h0 ?_ sub subg; clear h0 sub subg; unfold queueResults; (try dsimp only)
  repeat' first | with_reducible exact RegsFrame.refl _ _ _ | with_reducible refine RegsFrame.foldl (fun _ _ => ?_) ?_ | with_reducible refine RegsFrame.foldl_fst (fun _ _ => ?_) ?_ | with_reducible refine RegsFrame.foldl_snd (fun _ _ => ?_) ?_ | with_reducible apply sendResult_only | exact (by decide) | exact List.forall_mem_nil _ | (with_reducible intro g hg; simp only [List.mem_cons, List.not_mem_nil, or_false] at hg ⊢; tauto) | split | simp only [RegsFrame.mk_iff] | with_reducible exact RegsFrame.of_regs rfl | dsimp only

theorem islandResult_only {o : State} {ff : List Field} {gf : List (Nat → Field)} (s : State) (img : Image) (k verdict source : Nat) (h0 : RegsFrame o s ff gf)
    (sub : ∀ f ∈ ([] : List Field), f.key ∈ ff.map Field.key)
    (subg : ∀ g ∈ ([Reg.ETH_PART_RESULTS.COUNT, Reg.ETH_PART_STATUS.KEY_VALID, Reg.ETH_PART_STATUS.ROLL_DUE, Reg.ETH_PART_TX_SEQ.SEQ, Reg.ETH_PORT_TX_DROP.COUNT] : List (Nat → Field)), g ∈ gf) : RegsFrame o (islandResult s img k verdict source) ff gf := by
  refine RegsFrame.via h0 ?_ sub subg; clear h0 sub subg; unfold islandResult; (try dsimp only)
  repeat' first | with_reducible exact RegsFrame.refl _ _ _ | with_reducible apply queueResults_only | exact (by decide) | exact List.forall_mem_nil _ | (with_reducible intro g hg; simp only [List.mem_cons, List.not_mem_nil, or_false] at hg ⊢; tauto) | split | simp only [RegsFrame.mk_iff] | with_reducible exact RegsFrame.of_regs rfl | dsimp only

theorem makeDue_only {o : State} {ff : List Field} {gf : List (Nat → Field)} (s : State) (cls idx : Nat) (h0 : RegsFrame o s ff gf)
    (sub : ∀ f ∈ ([Reg.FAULT_MAINT_HELD.HELD, Reg.FAULT_MAINT_LAST.HOLDER, Reg.FAULT_MAINT_LAST.REQUESTED, Reg.FAULT_MAINT_REFUSED.COUNT] : List Field), f.key ∈ ff.map Field.key)
    (subg : ∀ g ∈ ([] : List (Nat → Field)), g ∈ gf) : RegsFrame o (makeDue s cls idx) ff gf := by
  refine RegsFrame.via h0 ?_ sub subg; clear h0 sub subg; unfold makeDue; (try dsimp only)
  repeat' first | with_reducible exact RegsFrame.refl _ _ _ | with_reducible apply setUnit_only | with_reducible apply admitSlice_only | exact (by decide) | exact List.forall_mem_nil _ | (with_reducible intro g hg; simp only [List.mem_cons, List.not_mem_nil, or_false] at hg ⊢; tauto) | split | simp only [RegsFrame.mk_iff] | with_reducible exact RegsFrame.of_regs rfl | dsimp only

theorem showSlots_only {o : State} {ff : List Field} {gf : List (Nat → Field)} (s : State) (h0 : RegsFrame o s ff gf)
    (sub : ∀ f ∈ ([Reg.CONFIG_SLOT_STATE.A_STATE, Reg.CONFIG_SLOT_STATE.B_STATE] : List Field), f.key ∈ ff.map Field.key)
    (subg : ∀ g ∈ ([] : List (Nat → Field)), g ∈ gf) : RegsFrame o (showSlots s) ff gf := by
  refine RegsFrame.via h0 ?_ sub subg; clear h0 sub subg; unfold showSlots; (try dsimp only)
  repeat' first | with_reducible exact RegsFrame.refl _ _ _ | with_reducible refine RegsFrame.set ?_ (by decide) _ | exact (by decide) | exact List.forall_mem_nil _ | (with_reducible intro g hg; simp only [List.mem_cons, List.not_mem_nil, or_false] at hg ⊢; tauto) | split | simp only [RegsFrame.mk_iff] | with_reducible exact RegsFrame.of_regs rfl | dsimp only

theorem showValid_only {o : State} {ff : List Field} {gf : List (Nat → Field)} (s : State) (h0 : RegsFrame o s ff gf)
    (sub : ∀ f ∈ ([Reg.CONFIG_SLOT_STATE.A_VALID, Reg.CONFIG_SLOT_STATE.B_VALID] : List Field), f.key ∈ ff.map Field.key)
    (subg : ∀ g ∈ ([] : List (Nat → Field)), g ∈ gf) : RegsFrame o (showValid s) ff gf := by
  refine RegsFrame.via h0 ?_ sub subg; clear h0 sub subg; unfold showValid; (try dsimp only)
  repeat' first | with_reducible exact RegsFrame.refl _ _ _ | with_reducible refine RegsFrame.set ?_ (by decide) _ | exact (by decide) | exact List.forall_mem_nil _ | (with_reducible intro g hg; simp only [List.mem_cons, List.not_mem_nil, or_false] at hg ⊢; tauto) | split | simp only [RegsFrame.mk_iff] | with_reducible exact RegsFrame.of_regs rfl | dsimp only

theorem showFail_only {o : State} {ff : List Field} {gf : List (Nat → Field)} (s : State) (f : LoadFail) (h0 : RegsFrame o s ff gf)
    (sub : ∀ f ∈ ([Reg.CONFIG_LOAD_DETAIL.ITEM, Reg.CONFIG_LOAD_DETAIL.SECTION_TYPE, Reg.CONFIG_LOAD_STATUS.REASON] : List Field), f.key ∈ ff.map Field.key)
    (subg : ∀ g ∈ ([] : List (Nat → Field)), g ∈ gf) : RegsFrame o (showFail s f) ff gf := by
  refine RegsFrame.via h0 ?_ sub subg; clear h0 sub subg; unfold showFail; (try dsimp only)
  repeat' first | with_reducible exact RegsFrame.refl _ _ _ | with_reducible refine RegsFrame.set ?_ (by decide) _ | exact (by decide) | exact List.forall_mem_nil _ | (with_reducible intro g hg; simp only [List.mem_cons, List.not_mem_nil, or_false] at hg ⊢; tauto) | split | simp only [RegsFrame.mk_iff] | with_reducible exact RegsFrame.of_regs rfl | dsimp only

theorem failLoad_only {o : State} {ff : List Field} {gf : List (Nat → Field)} (s : State) (f : LoadFail) (h0 : RegsFrame o s ff gf)
    (sub : ∀ f ∈ ([Reg.CONFIG_BULK_WAIT.BULK_ID, Reg.CONFIG_LOAD_DETAIL.ITEM, Reg.CONFIG_LOAD_DETAIL.SECTION_TYPE, Reg.CONFIG_LOAD_STATUS.PHASE, Reg.CONFIG_LOAD_STATUS.REASON] : List Field), f.key ∈ ff.map Field.key)
    (subg : ∀ g ∈ ([] : List (Nat → Field)), g ∈ gf) : RegsFrame o (failLoad s f) ff gf := by
  refine RegsFrame.via h0 ?_ sub subg; clear h0 sub subg; unfold failLoad; (try dsimp only)
  repeat' first | with_reducible exact RegsFrame.refl _ _ _ | with_reducible refine RegsFrame.set ?_ (by decide) _ | with_reducible apply showFail_only | exact (by decide) | exact List.forall_mem_nil _ | (with_reducible intro g hg; simp only [List.mem_cons, List.not_mem_nil, or_false] at hg ⊢; tauto) | split | simp only [RegsFrame.mk_iff] | with_reducible exact RegsFrame.of_regs rfl | dsimp only

theorem setPushNext_only {o : State} {ff : List Field} {gf : List (Nat → Field)} (s : State) (v : Nat) (h0 : RegsFrame o s ff gf)
    (sub : ∀ f ∈ ([Reg.ETH_PUSH_NEXT_HI.NEXT_HI, Reg.ETH_PUSH_NEXT_LO.NEXT_LO] : List Field), f.key ∈ ff.map Field.key)
    (subg : ∀ g ∈ ([] : List (Nat → Field)), g ∈ gf) : RegsFrame o (setPushNext s v) ff gf := by
  refine RegsFrame.via h0 ?_ sub subg; clear h0 sub subg; unfold setPushNext; (try dsimp only)
  repeat' first | with_reducible exact RegsFrame.refl _ _ _ | with_reducible refine RegsFrame.set64 ?_ (by decide) (by decide) _ | exact (by decide) | exact List.forall_mem_nil _ | (with_reducible intro g hg; simp only [List.mem_cons, List.not_mem_nil, or_false] at hg ⊢; tauto) | split | simp only [RegsFrame.mk_iff] | with_reducible exact RegsFrame.of_regs rfl | dsimp only

theorem goOn_only {o : State} {ff : List Field} {gf : List (Nat → Field)} (s : State) (l : Loading) (from_ : Nat) (h0 : RegsFrame o s ff gf)
    (sub : ∀ f ∈ ([Reg.CONFIG_BULK_WAIT.BULK_ID, Reg.CONFIG_LOAD_DETAIL.ITEM, Reg.CONFIG_LOAD_DETAIL.SECTION_TYPE, Reg.CONFIG_LOAD_STATUS.PHASE, Reg.CONFIG_LOAD_STATUS.REASON, Reg.ETH_PUSH_NEXT_HI.NEXT_HI, Reg.ETH_PUSH_NEXT_LO.NEXT_LO] : List Field), f.key ∈ ff.map Field.key)
    (subg : ∀ g ∈ ([] : List (Nat → Field)), g ∈ gf) : RegsFrame o (goOn s l from_) ff gf := by
  refine RegsFrame.via h0 ?_ sub subg; clear h0 sub subg; unfold goOn; (try dsimp only)
  repeat' first | with_reducible exact RegsFrame.refl _ _ _ | with_reducible refine RegsFrame.set ?_ (by decide) _ | with_reducible apply failLoad_only | with_reducible apply setPushNext_only | exact (by decide) | exact List.forall_mem_nil _ | (with_reducible intro g hg; simp only [List.mem_cons, List.not_mem_nil, or_false] at hg ⊢; tauto) | split | simp only [RegsFrame.mk_iff] | with_reducible exact RegsFrame.of_regs rfl | dsimp only

theorem beginLoad_only {o : State} {ff : List Field} {gf : List (Nat → Field)} (s : State) (i : Nat) (h0 : RegsFrame o s ff gf)
    (sub : ∀ f ∈ ([Reg.CONFIG_BULK_WAIT.BULK_ID, Reg.CONFIG_LOAD_DETAIL.ITEM, Reg.CONFIG_LOAD_DETAIL.SECTION_TYPE, Reg.CONFIG_LOAD_STATUS.PHASE, Reg.CONFIG_LOAD_STATUS.REASON, Reg.CONFIG_LOAD_STATUS.SLOT, Reg.ETH_PUSH_NEXT_HI.NEXT_HI, Reg.ETH_PUSH_NEXT_LO.NEXT_LO] : List Field), f.key ∈ ff.map Field.key)
    (subg : ∀ g ∈ ([] : List (Nat → Field)), g ∈ gf) : RegsFrame o (beginLoad s i) ff gf := by
  refine RegsFrame.via h0 ?_ sub subg; clear h0 sub subg; unfold beginLoad; (try dsimp only)
  repeat' first | with_reducible exact RegsFrame.refl _ _ _ | with_reducible refine RegsFrame.set ?_ (by decide) _ | with_reducible apply failLoad_only | with_reducible apply goOn_only | with_reducible apply showFail_only | exact (by decide) | exact List.forall_mem_nil _ | (with_reducible intro g hg; simp only [List.mem_cons, List.not_mem_nil, or_false] at hg ⊢; tauto) | split | simp only [RegsFrame.mk_iff] | with_reducible exact RegsFrame.of_regs rfl | dsimp only

theorem eraseKeys_only {o : State} {ff : List Field} {gf : List (Nat → Field)} (s : State) (h0 : RegsFrame o s ff gf)
    (sub : ∀ f ∈ ([] : List Field), f.key ∈ ff.map Field.key)
    (subg : ∀ g ∈ ([Reg.ETH_PART_STATUS.KEY_VALID] : List (Nat → Field)), g ∈ gf) : RegsFrame o (eraseKeys s) ff gf := by
  refine RegsFrame.via h0 ?_ sub subg; clear h0 sub subg; unfold eraseKeys; (try dsimp only)
  repeat' first | with_reducible exact RegsFrame.refl _ _ _ | with_reducible refine RegsFrame.foldl (fun _ _ => ?_) ?_ | with_reducible refine RegsFrame.foldl_fst (fun _ _ => ?_) ?_ | with_reducible refine RegsFrame.foldl_snd (fun _ _ => ?_) ?_ | with_reducible apply setPart_only | exact (by decide) | exact List.forall_mem_nil _ | (with_reducible intro g hg; simp only [List.mem_cons, List.not_mem_nil, or_false] at hg ⊢; tauto) | split | simp only [RegsFrame.mk_iff] | with_reducible exact RegsFrame.of_regs rfl | dsimp only

theorem rebase_only {o : State} {ff : List Field} {gf : List (Nat → Field)} (s : State) (h0 : RegsFrame o s ff gf)
    (sub : ∀ f ∈ ([Reg.FAULT_MAINT_HELD.HELD, Reg.LEDGER_QUEUE_DEPTH.DEPTH, Reg.LEDGER_SHIFT_XY.SX, Reg.LEDGER_SHIFT_XY.SY, Reg.LEDGER_SHIFT_Z.SZ, Reg.LEDGER_STATUS.REBUILD_PENDING, Reg.WORLD_START_STATUS.REUSE_COUNT, Reg.WORLD_STATUS.PHASE, Reg.WORLD_STATUS.REBASE] : List Field), f.key ∈ ff.map Field.key)
    (subg : ∀ g ∈ ([] : List (Nat → Field)), g ∈ gf) : RegsFrame o (rebase s) ff gf := by
  refine RegsFrame.via h0 ?_ sub subg; clear h0 sub subg; unfold rebase; (try dsimp only)
  repeat' first | with_reducible exact RegsFrame.refl _ _ _ | with_reducible refine RegsFrame.set ?_ (by decide) _ | with_reducible apply dropToken_only | with_reducible apply scheduleRebuild_only | with_reducible apply showShift_only | exact (by decide) | exact List.forall_mem_nil _ | (with_reducible intro g hg; simp only [List.mem_cons, List.not_mem_nil, or_false] at hg ⊢; tauto) | split | simp only [RegsFrame.mk_iff] | with_reducible exact RegsFrame.of_regs rfl | dsimp only

theorem slotResult_only {o : State} {ff : List Field} {gf : List (Nat → Field)} (s : State) (r : Nat) (h0 : RegsFrame o s ff gf)
    (sub : ∀ f ∈ ([Reg.CONFIG_SLOT_STATUS.RESULT] : List Field), f.key ∈ ff.map Field.key)
    (subg : ∀ g ∈ ([] : List (Nat → Field)), g ∈ gf) : RegsFrame o (slotResult s r) ff gf := by
  refine RegsFrame.via h0 ?_ sub subg; clear h0 sub subg; unfold slotResult; (try dsimp only)
  repeat' first | with_reducible exact RegsFrame.refl _ _ _ | with_reducible refine RegsFrame.set ?_ (by decide) _ | exact (by decide) | exact List.forall_mem_nil _ | (with_reducible intro g hg; simp only [List.mem_cons, List.not_mem_nil, or_false] at hg ⊢; tauto) | split | simp only [RegsFrame.mk_iff] | with_reducible exact RegsFrame.of_regs rfl | dsimp only

theorem chestStart_only {o : State} {ff : List Field} {gf : List (Nat → Field)} (s : State) (k : Nat) (h0 : RegsFrame o s ff gf)
    (sub : ∀ f ∈ ([Reg.CONFIG_SLOT_STATUS.BUSY] : List Field), f.key ∈ ff.map Field.key)
    (subg : ∀ g ∈ ([] : List (Nat → Field)), g ∈ gf) : RegsFrame o (chestStart s k) ff gf := by
  refine RegsFrame.via h0 ?_ sub subg; clear h0 sub subg; unfold chestStart; (try dsimp only)
  repeat' first | with_reducible exact RegsFrame.refl _ _ _ | with_reducible refine RegsFrame.set ?_ (by decide) _ | exact (by decide) | exact List.forall_mem_nil _ | (with_reducible intro g hg; simp only [List.mem_cons, List.not_mem_nil, or_false] at hg ⊢; tauto) | split | simp only [RegsFrame.mk_iff] | with_reducible exact RegsFrame.of_regs rfl | dsimp only

theorem chestEnd_only {o : State} {ff : List Field} {gf : List (Nat → Field)} (s : State) (r : Nat) (h0 : RegsFrame o s ff gf)
    (sub : ∀ f ∈ ([Reg.CONFIG_SLOT_STATUS.BUSY, Reg.CONFIG_SLOT_STATUS.RESULT] : List Field), f.key ∈ ff.map Field.key)
    (subg : ∀ g ∈ ([] : List (Nat → Field)), g ∈ gf) : RegsFrame o (chestEnd s r) ff gf := by
  refine RegsFrame.via h0 ?_ sub subg; clear h0 sub subg; unfold chestEnd; (try dsimp only)
  repeat' first | with_reducible exact RegsFrame.refl _ _ _ | with_reducible refine RegsFrame.set ?_ (by decide) _ | with_reducible apply slotResult_only | exact (by decide) | exact List.forall_mem_nil _ | (with_reducible intro g hg; simp only [List.mem_cons, List.not_mem_nil, or_false] at hg ⊢; tauto) | split | simp only [RegsFrame.mk_iff] | with_reducible exact RegsFrame.of_regs rfl | dsimp only

theorem setChest_only {o : State} {ff : List Field} {gf : List (Nat → Field)} (s : State) (i : Nat) (sl : Slot) (h0 : RegsFrame o s ff gf)
    (sub : ∀ f ∈ ([Reg.CONFIG_SLOT_STATE.A_STATE, Reg.CONFIG_SLOT_STATE.B_STATE] : List Field), f.key ∈ ff.map Field.key)
    (subg : ∀ g ∈ ([] : List (Nat → Field)), g ∈ gf) : RegsFrame o (State.setChest s i sl) ff gf := by
  refine RegsFrame.via h0 ?_ sub subg; clear h0 sub subg; unfold State.setChest; (try dsimp only)
  repeat' first | with_reducible exact RegsFrame.refl _ _ _ | with_reducible apply showSlots_only | exact (by decide) | exact List.forall_mem_nil _ | (with_reducible intro g hg; simp only [List.mem_cons, List.not_mem_nil, or_false] at hg ⊢; tauto) | split | simp only [RegsFrame.mk_iff] | with_reducible exact RegsFrame.of_regs rfl | dsimp only

theorem finishSlotWrite_only {o : State} {ff : List Field} {gf : List (Nat → Field)} (s : State) (r : Nat) (h0 : RegsFrame o s ff gf)
    (sub : ∀ f ∈ ([Reg.CONFIG_SLOT_STATUS.BUSY, Reg.CONFIG_SLOT_STATUS.RESULT, Reg.FAULT_MAINT_HELD.HELD] : List Field), f.key ∈ ff.map Field.key)
    (subg : ∀ g ∈ ([] : List (Nat → Field)), g ∈ gf) : RegsFrame o (finishSlotWrite s r) ff gf := by
  refine RegsFrame.via h0 ?_ sub subg; clear h0 sub subg; unfold finishSlotWrite; (try dsimp only)
  repeat' first | with_reducible exact RegsFrame.refl _ _ _ | with_reducible apply chestEnd_only | with_reducible apply dropToken_only | exact (by decide) | exact List.forall_mem_nil _ | (with_reducible intro g hg; simp only [List.mem_cons, List.not_mem_nil, or_false] at hg ⊢; tauto) | split | simp only [RegsFrame.mk_iff] | with_reducible exact RegsFrame.of_regs rfl | dsimp only

theorem slotOpen_only {o : State} {ff : List Field} {gf : List (Nat → Field)} (src : Source) (s : State) (h0 : RegsFrame o s ff gf)
    (sub : ∀ f ∈ ([Reg.CONFIG_SLOT_STATE.A_STATE, Reg.CONFIG_SLOT_STATE.B_STATE, Reg.CONFIG_SLOT_STATUS.BUSY, Reg.CONFIG_SLOT_STATUS.RESULT, Reg.FAULT_MAINT_HELD.HELD, Reg.FAULT_MAINT_LAST.HOLDER, Reg.FAULT_MAINT_LAST.REQUESTED, Reg.FAULT_MAINT_REFUSED.COUNT, Reg.SEC_BOOT_ATTEMPTS.A_EXCLUDED, Reg.SEC_BOOT_ATTEMPTS.A_FAILS, Reg.SEC_BOOT_ATTEMPTS.B_EXCLUDED, Reg.SEC_BOOT_ATTEMPTS.B_FAILS] : List Field), f.key ∈ ff.map Field.key)
    (subg : ∀ g ∈ ([] : List (Nat → Field)), g ∈ gf) : RegsFrame o (slotOpen src s) ff gf := by
  refine RegsFrame.via h0 ?_ sub subg; clear h0 sub subg; unfold slotOpen; (try dsimp only)
  repeat' first | with_reducible exact RegsFrame.refl _ _ _ | with_reducible refine RegsFrame.set ?_ (by decide) _ | with_reducible apply setChest_only | with_reducible apply chestStart_only | with_reducible apply slotResult_only | with_reducible apply takeToken_only | exact (by decide) | exact List.forall_mem_nil _ | (with_reducible intro g hg; simp only [List.mem_cons, List.not_mem_nil, or_false] at hg ⊢; tauto) | split | simp only [RegsFrame.mk_iff] | with_reducible exact RegsFrame.of_regs rfl | dsimp only

theorem slotDataBlock_only {o : State} {ff : List Field} {gf : List (Nat → Field)} (src : Source) (value : Word) (s : State) (h0 : RegsFrame o s ff gf)
    (sub : ∀ f ∈ ([Reg.CONFIG_SLOT_STATUS.BUSY, Reg.CONFIG_SLOT_STATUS.RESULT] : List Field), f.key ∈ ff.map Field.key)
    (subg : ∀ g ∈ ([] : List (Nat → Field)), g ∈ gf) : RegsFrame o (slotDataBlock src value s) ff gf := by
  refine RegsFrame.via h0 ?_ sub subg; clear h0 sub subg; unfold slotDataBlock; (try dsimp only)
  repeat' first | with_reducible exact RegsFrame.refl _ _ _ | with_reducible apply chestStart_only | with_reducible apply slotResult_only | exact (by decide) | exact List.forall_mem_nil _ | (with_reducible intro g hg; simp only [List.mem_cons, List.not_mem_nil, or_false] at hg ⊢; tauto) | split | simp only [RegsFrame.mk_iff] | with_reducible exact RegsFrame.of_regs rfl | dsimp only

theorem slotClose_only {o : State} {ff : List Field} {gf : List (Nat → Field)} (src : Source) (s : State) (h0 : RegsFrame o s ff gf)
    (sub : ∀ f ∈ ([Reg.CONFIG_SLOT_STATE.A_STATE, Reg.CONFIG_SLOT_STATE.B_STATE, Reg.CONFIG_SLOT_STATUS.BUSY, Reg.CONFIG_SLOT_STATUS.RESULT] : List Field), f.key ∈ ff.map Field.key)
    (subg : ∀ g ∈ ([] : List (Nat → Field)), g ∈ gf) : RegsFrame o (slotClose src s) ff gf := by
  refine RegsFrame.via h0 ?_ sub subg; clear h0 sub subg; unfold slotClose; (try dsimp only)
  repeat' first | with_reducible exact RegsFrame.refl _ _ _ | with_reducible apply setChest_only | with_reducible apply chestStart_only | with_reducible apply slotResult_only | exact (by decide) | exact List.forall_mem_nil _ | (with_reducible intro g hg; simp only [List.mem_cons, List.not_mem_nil, or_false] at hg ⊢; tauto) | split | simp only [RegsFrame.mk_iff] | with_reducible exact RegsFrame.of_regs rfl | dsimp only

theorem slotAbort_only {o : State} {ff : List Field} {gf : List (Nat → Field)} (src : Source) (s : State) (h0 : RegsFrame o s ff gf)
    (sub : ∀ f ∈ ([Reg.CONFIG_SLOT_STATUS.BUSY, Reg.CONFIG_SLOT_STATUS.RESULT, Reg.FAULT_MAINT_HELD.HELD] : List Field), f.key ∈ ff.map Field.key)
    (subg : ∀ g ∈ ([] : List (Nat → Field)), g ∈ gf) : RegsFrame o (slotAbort src s) ff gf := by
  refine RegsFrame.via h0 ?_ sub subg; clear h0 sub subg; unfold slotAbort; (try dsimp only)
  repeat' first | with_reducible exact RegsFrame.refl _ _ _ | with_reducible apply finishSlotWrite_only | with_reducible apply slotResult_only | exact (by decide) | exact List.forall_mem_nil _ | (with_reducible intro g hg; simp only [List.mem_cons, List.not_mem_nil, or_false] at hg ⊢; tauto) | split | simp only [RegsFrame.mk_iff] | with_reducible exact RegsFrame.of_regs rfl | dsimp only

theorem setQuiesced_only {o : State} {ff : List Field} {gf : List (Nat → Field)} (s : State) (b : Nat) (h0 : RegsFrame o s ff gf)
    (sub : ∀ f ∈ ([Reg.CONFIG_QUIESCE_STATUS.QUIESCED] : List Field), f.key ∈ ff.map Field.key)
    (subg : ∀ g ∈ ([] : List (Nat → Field)), g ∈ gf) : RegsFrame o (setQuiesced s b) ff gf := by
  refine RegsFrame.via h0 ?_ sub subg; clear h0 sub subg; unfold setQuiesced; (try dsimp only)
  repeat' first | with_reducible exact RegsFrame.refl _ _ _ | with_reducible refine RegsFrame.set ?_ (by decide) _ | exact (by decide) | exact List.forall_mem_nil _ | (with_reducible intro g hg; simp only [List.mem_cons, List.not_mem_nil, or_false] at hg ⊢; tauto) | split | simp only [RegsFrame.mk_iff] | with_reducible exact RegsFrame.of_regs rfl | dsimp only

theorem quiesceRequest_only {o : State} {ff : List Field} {gf : List (Nat → Field)} (src : Source) (mask : Nat) (s : State) (h0 : RegsFrame o s ff gf)
    (sub : ∀ f ∈ ([Reg.CONFIG_QUIESCE_REQ.REQ, Reg.CONFIG_QUIESCE_STATUS.QUIESCED] : List Field), f.key ∈ ff.map Field.key)
    (subg : ∀ g ∈ ([] : List (Nat → Field)), g ∈ gf) : RegsFrame o (quiesceRequest src mask s) ff gf := by
  refine RegsFrame.via h0 ?_ sub subg; clear h0 sub subg; unfold quiesceRequest; (try dsimp only)
  repeat' first | with_reducible exact RegsFrame.refl _ _ _ | with_reducible refine RegsFrame.set ?_ (by decide) _ | with_reducible refine RegsFrame.foldl (fun _ _ => ?_) ?_ | with_reducible refine RegsFrame.foldl_fst (fun _ _ => ?_) ?_ | with_reducible refine RegsFrame.foldl_snd (fun _ _ => ?_) ?_ | with_reducible apply setQuiesced_only | exact (by decide) | exact List.forall_mem_nil _ | (with_reducible intro g hg; simp only [List.mem_cons, List.not_mem_nil, or_false] at hg ⊢; tauto) | split | simp only [RegsFrame.mk_iff] | with_reducible exact RegsFrame.of_regs rfl | dsimp only

theorem faultTestCmd_only {o : State} {ff : List Field} {gf : List (Nat → Field)} (src : Source) (value : Word) (s : State) (h0 : RegsFrame o s ff gf)
    (sub : ∀ f ∈ ([Reg.FAULT_MAINT_HELD.HELD, Reg.FAULT_MAINT_LAST.HOLDER, Reg.FAULT_MAINT_LAST.REQUESTED, Reg.FAULT_MAINT_REFUSED.COUNT, Reg.FAULT_TEST_STATUS.RESULT] : List Field), f.key ∈ ff.map Field.key)
    (subg : ∀ g ∈ ([] : List (Nat → Field)), g ∈ gf) : RegsFrame o (faultTestCmd src value s) ff gf := by
  refine RegsFrame.via h0 ?_ sub subg; clear h0 sub subg; unfold faultTestCmd; (try dsimp only)
  repeat' first | with_reducible exact RegsFrame.refl _ _ _ | with_reducible refine RegsFrame.set ?_ (by decide) _ | with_reducible apply makeDue_only | exact (by decide) | exact List.forall_mem_nil _ | (with_reducible intro g hg; simp only [List.mem_cons, List.not_mem_nil, or_false] at hg ⊢; tauto) | split | simp only [RegsFrame.mk_iff] | with_reducible exact RegsFrame.of_regs rfl | dsimp only

theorem moveJob_only {o : State} {ff : List Field} {gf : List (Nat → Field)} (s : State) (cls idx : Nat) (h0 : RegsFrame o s ff gf)
    (sub : ∀ f ∈ ([Reg.JIG_STATUS.PEND_READY] : List Field), f.key ∈ ff.map Field.key)
    (subg : ∀ g ∈ ([Reg.TILE_JIG_STATE.READY, Reg.TILE_JIG_STATE.RUNNING] : List (Nat → Field)), g ∈ gf) : RegsFrame o (moveJob s cls idx) ff gf := by
  refine RegsFrame.via h0 ?_ sub subg; clear h0 sub subg; unfold moveJob; (try dsimp only)
  repeat' first | with_reducible exact RegsFrame.refl _ _ _ | with_reducible refine RegsFrame.foldl (fun _ _ => ?_) ?_ | with_reducible refine RegsFrame.foldl_fst (fun _ _ => ?_) ?_ | with_reducible refine RegsFrame.foldl_snd (fun _ _ => ?_) ?_ | with_reducible apply setDesc_only | with_reducible apply showAgent_only | exact (by decide) | exact List.forall_mem_nil _ | (with_reducible intro g hg; simp only [List.mem_cons, List.not_mem_nil, or_false] at hg ⊢; tauto) | split | simp only [RegsFrame.mk_iff] | with_reducible exact RegsFrame.of_regs rfl | dsimp only

theorem arrive_only {o : State} {ff : List Field} {gf : List (Nat → Field)} (s : State) (f : Frame) (t : Nat) (h0 : RegsFrame o s ff gf)
    (sub : ∀ f ∈ ([] : List Field), f.key ∈ ff.map Field.key)
    (subg : ∀ g ∈ ([Reg.ETH_PART_AUTH_FAIL.COUNT, Reg.ETH_PART_METER_DROP.COUNT, Reg.ETH_PART_RX_SEQ.SEQ, Reg.ETH_PART_STATUS.KEY_VALID, Reg.ETH_PORT_RX_ERR.COUNT, Reg.ETH_RX_DROP.COUNT] : List (Nat → Field)), g ∈ gf) : RegsFrame o (arrive s f t).2 ff gf := by
  refine RegsFrame.via h0 ?_ sub subg; clear h0 sub subg; unfold arrive; (try dsimp only)
  repeat' first | with_reducible exact RegsFrame.refl _ _ _ | with_reducible apply receive_only | exact (by decide) | exact List.forall_mem_nil _ | (with_reducible intro g hg; simp only [List.mem_cons, List.not_mem_nil, or_false] at hg ⊢; tauto) | split | simp only [RegsFrame.mk_iff] | with_reducible exact RegsFrame.of_regs rfl | dsimp only

theorem rollKey_only {o : State} {ff : List Field} {gf : List (Nat → Field)} (s : State) (img : Image) (f : Frame) (h0 : RegsFrame o s ff gf)
    (sub : ∀ f ∈ ([] : List Field), f.key ∈ ff.map Field.key)
    (subg : ∀ g ∈ ([Reg.ETH_PART_RX_SEQ.SEQ, Reg.ETH_PART_STATUS.KEY_VALID, Reg.ETH_PART_STATUS.ROLL_DUE] : List (Nat → Field)), g ∈ gf) : RegsFrame o (rollKey s img f) ff gf := by
  refine RegsFrame.via h0 ?_ sub subg; clear h0 sub subg; unfold rollKey; (try dsimp only)
  repeat' first | with_reducible exact RegsFrame.refl _ _ _ | with_reducible refine RegsFrame.set ?_ (by decide) _ | with_reducible refine RegsFrame.setF (g := Reg.ETH_PART_RX_SEQ.SEQ) ?_ (by simp) _ _ | with_reducible refine RegsFrame.setF (g := Reg.ETH_PART_STATUS.ROLL_DUE) ?_ (by simp) _ _ | with_reducible apply setPart_only | exact (by decide) | exact List.forall_mem_nil _ | (with_reducible intro g hg; simp only [List.mem_cons, List.not_mem_nil, or_false] at hg ⊢; tauto) | split | simp only [RegsFrame.mk_iff] | with_reducible exact RegsFrame.of_regs rfl | dsimp only

theorem showJobs_only {o : State} {ff : List Field} {gf : List (Nat → Field)} (s : State) (h0 : RegsFrame o s ff gf)
    (sub : ∀ f ∈ ([] : List Field), f.key ∈ ff.map Field.key)
    (subg : ∀ g ∈ ([Reg.ETH_PART_STATUS.JOBS] : List (Nat → Field)), g ∈ gf) : RegsFrame o (showJobs s) ff gf := by
  refine RegsFrame.via h0 ?_ sub subg; clear h0 sub subg; unfold showJobs; (try dsimp only)
  repeat' first | with_reducible exact RegsFrame.refl _ _ _ | with_reducible refine RegsFrame.set ?_ (by decide) _ | with_reducible refine RegsFrame.setF (g := Reg.ETH_PART_STATUS.JOBS) ?_ (by simp) _ _ | with_reducible refine RegsFrame.foldl (fun _ _ => ?_) ?_ | with_reducible refine RegsFrame.foldl_fst (fun _ _ => ?_) ?_ | with_reducible refine RegsFrame.foldl_snd (fun _ _ => ?_) ?_ | exact (by decide) | exact List.forall_mem_nil _ | (with_reducible intro g hg; simp only [List.mem_cons, List.not_mem_nil, or_false] at hg ⊢; tauto) | split | simp only [RegsFrame.mk_iff] | with_reducible exact RegsFrame.of_regs rfl | dsimp only

theorem stageFragment_only {o : State} {ff : List Field} {gf : List (Nat → Field)} (s : State) (f : Frame) (h0 : RegsFrame o s ff gf) : RegsFrame o (stageFragment s f).2 ff gf :=
  h0.trans (RegsFrame.of_regs (by simp))

theorem jobAck_only {o : State} {ff : List Field} {gf : List (Nat → Field)} (s : State) (p id status reason : Nat) (start : Option Epoch) (h0 : RegsFrame o s ff gf)
    (sub : ∀ f ∈ ([] : List Field), f.key ∈ ff.map Field.key)
    (subg : ∀ g ∈ ([Reg.ETH_PART_STATUS.JOBS, Reg.ETH_PART_STATUS.KEY_VALID, Reg.ETH_PART_STATUS.ROLL_DUE, Reg.ETH_PART_TX_SEQ.SEQ, Reg.ETH_PORT_TX_DROP.COUNT] : List (Nat → Field)), g ∈ gf) : RegsFrame o (jobAck s p id status reason start) ff gf := by
  refine RegsFrame.via h0 ?_ sub subg; clear h0 sub subg; unfold jobAck; (try dsimp only)
  repeat' first | with_reducible exact RegsFrame.refl _ _ _ | with_reducible refine RegsFrame.draw ?_ _ | with_reducible apply sendFrame_only | with_reducible apply showJobs_only | exact (by decide) | exact List.forall_mem_nil _ | (with_reducible intro g hg; simp only [List.mem_cons, List.not_mem_nil, or_false] at hg ⊢; tauto) | split | simp only [RegsFrame.mk_iff] | with_reducible exact RegsFrame.of_regs rfl | dsimp only

set_option maxHeartbeats 1000000 in
theorem decideJob_only {o : State} {ff : List Field} {gf : List (Nat → Field)} (s : State) (img : Image) (p : Nat) (x : Staging) (t : Nat) (h0 : RegsFrame o s ff gf)
    (sub : ∀ f ∈ ([Reg.JIG_BACKPRESSURE.COUNT, Reg.JIG_BUSY_ACKS.COUNT, Reg.JIG_STATUS.TRACE_FULL, Reg.JIG_TRACE_LOST.COUNT, Reg.JIG_TRACE_WR.INDEX, Reg.JIG_TRACE_WR.WRAPS] : List Field), f.key ∈ ff.map Field.key)
    (subg : ∀ g ∈ ([Reg.ETH_PART_RESULTS.COUNT, Reg.ETH_PART_STATUS.JOBS, Reg.ETH_PART_STATUS.KEY_VALID, Reg.ETH_PART_STATUS.ROLL_DUE, Reg.ETH_PART_TX_SEQ.SEQ, Reg.ETH_PORT_TX_DROP.COUNT] : List (Nat → Field)), g ∈ gf) : RegsFrame o (decideJob s img p x t) ff gf := by
  refine RegsFrame.via h0 ?_ sub subg; clear h0 sub subg; unfold decideJob; (try dsimp only)
  repeat' first | with_reducible exact RegsFrame.refl _ _ _ | with_reducible refine RegsFrame.inc ?_ (by decide) | with_reducible refine RegsFrame.draw ?_ _ | with_reducible apply hold_only | with_reducible apply jobAck_only | with_reducible apply sendResult_only | exact (by decide) | exact List.forall_mem_nil _ | (with_reducible intro g hg; simp only [List.mem_cons, List.not_mem_nil, or_false] at hg ⊢; tauto) | split | simp only [RegsFrame.mk_iff] | with_reducible exact RegsFrame.of_regs rfl | dsimp only

theorem submit_only {o : State} {ff : List Field} {gf : List (Nat → Field)} (s : State) (f : Frame) (t : Nat) (h0 : RegsFrame o s ff gf)
    (sub : ∀ f ∈ ([Reg.JIG_BACKPRESSURE.COUNT, Reg.JIG_BUSY_ACKS.COUNT, Reg.JIG_STATUS.TRACE_FULL, Reg.JIG_TRACE_LOST.COUNT, Reg.JIG_TRACE_WR.INDEX, Reg.JIG_TRACE_WR.WRAPS] : List Field), f.key ∈ ff.map Field.key)
    (subg : ∀ g ∈ ([Reg.ETH_PART_AUTH_FAIL.COUNT, Reg.ETH_PART_METER_DROP.COUNT, Reg.ETH_PART_RESULTS.COUNT, Reg.ETH_PART_RX_SEQ.SEQ, Reg.ETH_PART_STATUS.JOBS, Reg.ETH_PART_STATUS.KEY_VALID, Reg.ETH_PART_STATUS.ROLL_DUE, Reg.ETH_PART_TX_SEQ.SEQ, Reg.ETH_PORT_RX_ERR.COUNT, Reg.ETH_PORT_TX_DROP.COUNT, Reg.ETH_RX_DROP.COUNT] : List (Nat → Field)), g ∈ gf) : RegsFrame o (submit s f t) ff gf := by
  refine RegsFrame.via h0 ?_ sub subg; clear h0 sub subg; unfold submit; (try dsimp only)
  repeat' first | with_reducible exact RegsFrame.refl _ _ _ | with_reducible apply arrive_only | with_reducible apply decideJob_only | with_reducible apply stageFragment_only | exact (by decide) | exact List.forall_mem_nil _ | (with_reducible intro g hg; simp only [List.mem_cons, List.not_mem_nil, or_false] at hg ⊢; tauto) | split | simp only [RegsFrame.mk_iff] | with_reducible exact RegsFrame.of_regs rfl | dsimp only

theorem setJob_only {o : State} {ff : List Field} {gf : List (Nat → Field)} (s : State) (j : Job) (h0 : RegsFrame o s ff gf)
    (sub : ∀ f ∈ ([] : List Field), f.key ∈ ff.map Field.key)
    (subg : ∀ g ∈ ([Reg.ETH_PART_STATUS.JOBS] : List (Nat → Field)), g ∈ gf) : RegsFrame o (State.setJob s j) ff gf := by
  refine RegsFrame.via h0 ?_ sub subg; clear h0 sub subg; unfold State.setJob; (try dsimp only)
  repeat' first | with_reducible exact RegsFrame.refl _ _ _ | with_reducible apply showJobs_only | exact (by decide) | exact List.forall_mem_nil _ | (with_reducible intro g hg; simp only [List.mem_cons, List.not_mem_nil, or_false] at hg ⊢; tauto) | split | simp only [RegsFrame.mk_iff] | with_reducible exact RegsFrame.of_regs rfl | dsimp only

theorem sendJob_only {o : State} {ff : List Field} {gf : List (Nat → Field)} (s : State) (j : Job) (h0 : RegsFrame o s ff gf)
    (sub : ∀ f ∈ ([] : List Field), f.key ∈ ff.map Field.key)
    (subg : ∀ g ∈ ([Reg.ETH_PART_RESULTS.COUNT, Reg.ETH_PART_STATUS.KEY_VALID, Reg.ETH_PART_STATUS.ROLL_DUE, Reg.ETH_PART_TX_SEQ.SEQ, Reg.ETH_PORT_TX_DROP.COUNT] : List (Nat → Field)), g ∈ gf) : RegsFrame o (sendJob s j) ff gf := by
  refine RegsFrame.via h0 ?_ sub subg; clear h0 sub subg; unfold sendJob; (try dsimp only)
  repeat' first | with_reducible exact RegsFrame.refl _ _ _ | with_reducible apply sendResult_only | exact (by decide) | exact List.forall_mem_nil _ | (with_reducible intro g hg; simp only [List.mem_cons, List.not_mem_nil, or_false] at hg ⊢; tauto) | split | simp only [RegsFrame.mk_iff] | with_reducible exact RegsFrame.of_regs rfl | dsimp only

theorem finishJob_only {o : State} {ff : List Field} {gf : List (Nat → Field)} (s : State) (j : Job) (status : Nat) (h0 : RegsFrame o s ff gf)
    (sub : ∀ f ∈ ([] : List Field), f.key ∈ ff.map Field.key)
    (subg : ∀ g ∈ ([Reg.ETH_PART_RESULTS.COUNT, Reg.ETH_PART_STATUS.JOBS, Reg.ETH_PART_STATUS.KEY_VALID, Reg.ETH_PART_STATUS.ROLL_DUE, Reg.ETH_PART_TX_SEQ.SEQ, Reg.ETH_PORT_TX_DROP.COUNT] : List (Nat → Field)), g ∈ gf) : RegsFrame o (finishJob s j status) ff gf := by
  refine RegsFrame.via h0 ?_ sub subg; clear h0 sub subg; unfold finishJob; (try dsimp only)
  repeat' first | with_reducible exact RegsFrame.refl _ _ _ | with_reducible apply setJob_only | with_reducible apply sendJob_only | exact (by decide) | exact List.forall_mem_nil _ | (with_reducible intro g hg; simp only [List.mem_cons, List.not_mem_nil, or_false] at hg ⊢; tauto) | split | simp only [RegsFrame.mk_iff] | with_reducible exact RegsFrame.of_regs rfl | dsimp only

theorem macsecInstall_only {o : State} {ff : List Field} {gf : List (Nat → Field)} (src : Source) (port : Nat) (value : Word) (s : State) (h0 : RegsFrame o s ff gf)
    (sub : ∀ f ∈ ([] : List Field), f.key ∈ ff.map Field.key)
    (subg : ∀ g ∈ ([Reg.ETH_PORT_STATUS.MACSEC_UP] : List (Nat → Field)), g ∈ gf) : RegsFrame o (macsecInstall src port value s) ff gf := by
  refine RegsFrame.via h0 ?_ sub subg; clear h0 sub subg; unfold macsecInstall; (try dsimp only)
  repeat' first | with_reducible exact RegsFrame.refl _ _ _ | with_reducible refine RegsFrame.set ?_ (by decide) _ | with_reducible refine RegsFrame.setF (g := Reg.ETH_PORT_STATUS.MACSEC_UP) ?_ (by simp) _ _ | exact (by decide) | exact List.forall_mem_nil _ | (with_reducible intro g hg; simp only [List.mem_cons, List.not_mem_nil, or_false] at hg ⊢; tauto) | split | simp only [RegsFrame.mk_iff] | with_reducible exact RegsFrame.of_regs rfl | dsimp only

theorem ownerOnly_only {o : State} {fs : List Field} {gs : List (Nat → Field)} (src : Source) {s : State} {f : State → State} (hf : RegsFrame o (f s) fs gs)
    (h0 : RegsFrame o s fs gs) : RegsFrame o (ownerOnly src s f) fs gs := by
  unfold ownerOnly; split
  · exact hf
  · exact h0
theorem capClearCmd_only {o : State} {ff : List Field} {gf : List (Nat → Field)} (src : Source) (s : State) (h0 : RegsFrame o s ff gf)
    (sub : ∀ f ∈ ([Reg.DIGEST_CAP_STATUS.FULL, Reg.DIGEST_CAP_WR.OFFSET] : List Field), f.key ∈ ff.map Field.key)
    (subg : ∀ g ∈ ([] : List (Nat → Field)), g ∈ gf) : RegsFrame o (capClearCmd src s) ff gf := by
  refine RegsFrame.via h0 ?_ sub subg; clear h0 sub subg; unfold capClearCmd; (try dsimp only)
  repeat' first | with_reducible exact RegsFrame.refl _ _ _ | with_reducible refine RegsFrame.set ?_ (by decide) _ | with_reducible apply ownerOnly_only | exact (by decide) | exact List.forall_mem_nil _ | (with_reducible intro g hg; simp only [List.mem_cons, List.not_mem_nil, or_false] at hg ⊢; tauto) | split | simp only [RegsFrame.mk_iff] | with_reducible exact RegsFrame.of_regs rfl | dsimp only

theorem endReplay_only {o : State} {ff : List Field} {gf : List (Nat → Field)} (s : State) (result stage : Nat) (e : Epoch) (h0 : RegsFrame o s ff gf)
    (sub : ∀ f ∈ ([Reg.DIGEST_REPLAY_EPOCH.EPOCH, Reg.DIGEST_REPLAY_STATUS.PHASE, Reg.DIGEST_REPLAY_STATUS.RESULT, Reg.DIGEST_REPLAY_STATUS.STAGE, Reg.FAULT_MAINT_HELD.HELD, Reg.LEDGER_QUEUE_DEPTH.DEPTH, Reg.LEDGER_SHIFT_XY.SX, Reg.LEDGER_SHIFT_XY.SY, Reg.LEDGER_SHIFT_Z.SZ, Reg.LEDGER_STATUS.REBUILD_PENDING, Reg.WORLD_START_STATUS.REUSE_COUNT, Reg.WORLD_STATUS.PHASE, Reg.WORLD_STATUS.REBASE] : List Field), f.key ∈ ff.map Field.key)
    (subg : ∀ g ∈ ([] : List (Nat → Field)), g ∈ gf) : RegsFrame o (endReplay s result stage e) ff gf := by
  refine RegsFrame.via h0 ?_ sub subg; clear h0 sub subg; unfold endReplay; (try dsimp only)
  repeat' first | with_reducible exact RegsFrame.refl _ _ _ | with_reducible refine RegsFrame.set ?_ (by decide) _ | with_reducible apply rebase_only | exact (by decide) | exact List.forall_mem_nil _ | (with_reducible intro g hg; simp only [List.mem_cons, List.not_mem_nil, or_false] at hg ⊢; tauto) | split | simp only [RegsFrame.mk_iff] | with_reducible exact RegsFrame.of_regs rfl | dsimp only

theorem replayOn_only {o : State} {ff : List Field} {gf : List (Nat → Field)} (s : State) (r : ReplaySt) (x0 : Nat) (h0 : RegsFrame o s ff gf)
    (sub : ∀ f ∈ ([Reg.DIGEST_REPLAY_EPOCH.EPOCH, Reg.DIGEST_REPLAY_STATUS.PHASE, Reg.DIGEST_REPLAY_STATUS.RESULT, Reg.DIGEST_REPLAY_STATUS.STAGE, Reg.FAULT_MAINT_HELD.HELD, Reg.LEDGER_QUEUE_DEPTH.DEPTH, Reg.LEDGER_SHIFT_XY.SX, Reg.LEDGER_SHIFT_XY.SY, Reg.LEDGER_SHIFT_Z.SZ, Reg.LEDGER_STATUS.REBUILD_PENDING, Reg.WORLD_START_STATUS.REUSE_COUNT, Reg.WORLD_STATUS.PHASE, Reg.WORLD_STATUS.REBASE] : List Field), f.key ∈ ff.map Field.key)
    (subg : ∀ g ∈ ([] : List (Nat → Field)), g ∈ gf) : RegsFrame o (replayOn s r x0) ff gf := by
  refine RegsFrame.via h0 ?_ sub subg; clear h0 sub subg
  induction x0 generalizing s r with
  | zero => exact endReplay_only _ _ _ _ (RegsFrame.refl _ _ _) (by decide) (by simp)
  | succ n ih =>
    unfold replayOn; dsimp only
    repeat' first | with_reducible exact RegsFrame.refl _ _ _ | with_reducible exact ih _ _ | with_reducible apply endReplay_only | split | exact (by decide) | exact List.forall_mem_nil _ | exact (RegsFrame.mk_iff.mpr (RegsFrame.refl _ _ _)).trans (ih _ _) | exact fun _ _ _ => rfl

theorem replayCmd_only {o : State} {ff : List Field} {gf : List (Nat → Field)} (scope : Nat) (src : Source) (s : State) (h0 : RegsFrame o s ff gf)
    (sub : ∀ f ∈ ([Reg.DIGEST_REPLAY_COUNT.COUNT, Reg.DIGEST_REPLAY_EPOCH.EPOCH, Reg.DIGEST_REPLAY_STATUS.PHASE, Reg.DIGEST_REPLAY_STATUS.RESULT, Reg.DIGEST_REPLAY_STATUS.STAGE, Reg.FAULT_MAINT_HELD.HELD, Reg.LEDGER_QUEUE_DEPTH.DEPTH, Reg.LEDGER_SHIFT_XY.SX, Reg.LEDGER_SHIFT_XY.SY, Reg.LEDGER_SHIFT_Z.SZ, Reg.LEDGER_STATUS.REBUILD_PENDING, Reg.WORLD_START_STATUS.REUSE_COUNT, Reg.WORLD_STATUS.PHASE, Reg.WORLD_STATUS.REBASE] : List Field), f.key ∈ ff.map Field.key)
    (subg : ∀ g ∈ ([] : List (Nat → Field)), g ∈ gf) : RegsFrame o (replayCmd scope src s) ff gf := by
  refine RegsFrame.via h0 ?_ sub subg; clear h0 sub subg; unfold replayCmd; (try dsimp only)
  repeat' first | with_reducible exact RegsFrame.refl _ _ _ | with_reducible refine RegsFrame.set ?_ (by decide) _ | with_reducible apply endReplay_only | with_reducible apply ownerOnly_only | with_reducible apply replayOn_only | exact (by decide) | exact List.forall_mem_nil _ | (with_reducible intro g hg; simp only [List.mem_cons, List.not_mem_nil, or_false] at hg ⊢; tauto) | split | simp only [RegsFrame.mk_iff] | with_reducible exact RegsFrame.of_regs rfl | dsimp only

theorem replayAbortCmd_only {o : State} {ff : List Field} {gf : List (Nat → Field)} (src : Source) (s : State) (h0 : RegsFrame o s ff gf)
    (sub : ∀ f ∈ ([Reg.DIGEST_REPLAY_EPOCH.EPOCH, Reg.DIGEST_REPLAY_STATUS.PHASE, Reg.DIGEST_REPLAY_STATUS.RESULT, Reg.DIGEST_REPLAY_STATUS.STAGE, Reg.FAULT_MAINT_HELD.HELD, Reg.LEDGER_QUEUE_DEPTH.DEPTH, Reg.LEDGER_SHIFT_XY.SX, Reg.LEDGER_SHIFT_XY.SY, Reg.LEDGER_SHIFT_Z.SZ, Reg.LEDGER_STATUS.REBUILD_PENDING, Reg.WORLD_START_STATUS.REUSE_COUNT, Reg.WORLD_STATUS.PHASE, Reg.WORLD_STATUS.REBASE] : List Field), f.key ∈ ff.map Field.key)
    (subg : ∀ g ∈ ([] : List (Nat → Field)), g ∈ gf) : RegsFrame o (replayAbortCmd src s) ff gf := by
  refine RegsFrame.via h0 ?_ sub subg; clear h0 sub subg; unfold replayAbortCmd; (try dsimp only)
  repeat' first | with_reducible exact RegsFrame.refl _ _ _ | with_reducible apply endReplay_only | with_reducible apply ownerOnly_only | exact (by decide) | exact List.forall_mem_nil _ | (with_reducible intro g hg; simp only [List.mem_cons, List.not_mem_nil, or_false] at hg ⊢; tauto) | split | simp only [RegsFrame.mk_iff] | with_reducible exact RegsFrame.of_regs rfl | dsimp only

theorem showOffset_only {o : State} {ff : List Field} {gf : List (Nat → Field)} (s : State) (delta : Int) (h0 : RegsFrame o s ff gf)
    (sub : ∀ f ∈ ([Reg.ETH_PTP_OFFSET.OFFSET, Reg.ETH_STATUS.PTP_PORT] : List Field), f.key ∈ ff.map Field.key)
    (subg : ∀ g ∈ ([] : List (Nat → Field)), g ∈ gf) : RegsFrame o (showOffset s delta) ff gf := by
  refine RegsFrame.via h0 ?_ sub subg; clear h0 sub subg; unfold showOffset; (try dsimp only)
  repeat' first | with_reducible exact RegsFrame.refl _ _ _ | with_reducible refine RegsFrame.set ?_ (by decide) _ | with_reducible refine RegsFrame.draw ?_ _ | exact (by decide) | exact List.forall_mem_nil _ | (with_reducible intro g hg; simp only [List.mem_cons, List.not_mem_nil, or_false] at hg ⊢; tauto) | split | simp only [RegsFrame.mk_iff] | with_reducible exact RegsFrame.of_regs rfl | dsimp only

theorem switchResult_only {o : State} {ff : List Field} {gf : List (Nat → Field)} (s : State) (r : Nat) (h0 : RegsFrame o s ff gf)
    (sub : ∀ f ∈ ([Reg.CONFIG_SWITCH_STATUS.RESULT] : List Field), f.key ∈ ff.map Field.key)
    (subg : ∀ g ∈ ([] : List (Nat → Field)), g ∈ gf) : RegsFrame o (switchResult s r) ff gf := by
  refine RegsFrame.via h0 ?_ sub subg; clear h0 sub subg; unfold switchResult; (try dsimp only)
  repeat' first | with_reducible exact RegsFrame.refl _ _ _ | with_reducible refine RegsFrame.set ?_ (by decide) _ | exact (by decide) | exact List.forall_mem_nil _ | (with_reducible intro g hg; simp only [List.mem_cons, List.not_mem_nil, or_false] at hg ⊢; tauto) | split | simp only [RegsFrame.mk_iff] | with_reducible exact RegsFrame.of_regs rfl | dsimp only

theorem switchPhase_only {o : State} {ff : List Field} {gf : List (Nat → Field)} (s : State) (p : Nat) (h0 : RegsFrame o s ff gf)
    (sub : ∀ f ∈ ([Reg.CONFIG_SWITCH_STATUS.PHASE] : List Field), f.key ∈ ff.map Field.key)
    (subg : ∀ g ∈ ([] : List (Nat → Field)), g ∈ gf) : RegsFrame o (switchPhase s p) ff gf := by
  refine RegsFrame.via h0 ?_ sub subg; clear h0 sub subg; unfold switchPhase; (try dsimp only)
  repeat' first | with_reducible exact RegsFrame.refl _ _ _ | with_reducible refine RegsFrame.set ?_ (by decide) _ | exact (by decide) | exact List.forall_mem_nil _ | (with_reducible intro g hg; simp only [List.mem_cons, List.not_mem_nil, or_false] at hg ⊢; tauto) | split | simp only [RegsFrame.mk_iff] | with_reducible exact RegsFrame.of_regs rfl | dsimp only

theorem switchCmd_only {o : State} {ff : List Field} {gf : List (Nat → Field)} (src : Source) (s : State) (h0 : RegsFrame o s ff gf)
    (sub : ∀ f ∈ ([Reg.CONFIG_BULK_WAIT.BULK_ID, Reg.CONFIG_LOAD_DETAIL.ITEM, Reg.CONFIG_LOAD_DETAIL.SECTION_TYPE, Reg.CONFIG_LOAD_STATUS.PHASE, Reg.CONFIG_LOAD_STATUS.REASON, Reg.CONFIG_LOAD_STATUS.SLOT, Reg.CONFIG_SLOT_STATE.A_VALID, Reg.CONFIG_SLOT_STATE.B_VALID, Reg.CONFIG_SWITCH_STATUS.PHASE, Reg.CONFIG_SWITCH_STATUS.RESULT, Reg.ETH_PUSH_NEXT_HI.NEXT_HI, Reg.ETH_PUSH_NEXT_LO.NEXT_LO, Reg.FAULT_MAINT_HELD.HELD, Reg.FAULT_MAINT_LAST.HOLDER, Reg.FAULT_MAINT_LAST.REQUESTED, Reg.FAULT_MAINT_REFUSED.COUNT] : List Field), f.key ∈ ff.map Field.key)
    (subg : ∀ g ∈ ([] : List (Nat → Field)), g ∈ gf) : RegsFrame o (switchCmd src s) ff gf := by
  refine RegsFrame.via h0 ?_ sub subg; clear h0 sub subg; unfold switchCmd; (try dsimp only)
  repeat' first | with_reducible exact RegsFrame.refl _ _ _ | with_reducible apply beginLoad_only | with_reducible apply showValid_only | with_reducible apply switchPhase_only | with_reducible apply switchResult_only | with_reducible apply takeToken_only | exact (by decide) | exact List.forall_mem_nil _ | (with_reducible intro g hg; simp only [List.mem_cons, List.not_mem_nil, or_false] at hg ⊢; tauto) | split | simp only [RegsFrame.mk_iff] | with_reducible exact RegsFrame.of_regs rfl | dsimp only

theorem endSwitch_only {o : State} {ff : List Field} {gf : List (Nat → Field)} (s : State) (r : Nat) (h0 : RegsFrame o s ff gf)
    (sub : ∀ f ∈ ([Reg.CONFIG_SWITCH_STATUS.PHASE, Reg.CONFIG_SWITCH_STATUS.RESULT, Reg.FAULT_MAINT_HELD.HELD] : List Field), f.key ∈ ff.map Field.key)
    (subg : ∀ g ∈ ([] : List (Nat → Field)), g ∈ gf) : RegsFrame o (endSwitch s r) ff gf := by
  refine RegsFrame.via h0 ?_ sub subg; clear h0 sub subg; unfold endSwitch; (try dsimp only)
  repeat' first | with_reducible exact RegsFrame.refl _ _ _ | with_reducible apply dropToken_only | with_reducible apply switchPhase_only | with_reducible apply switchResult_only | exact (by decide) | exact List.forall_mem_nil _ | (with_reducible intro g hg; simp only [List.mem_cons, List.not_mem_nil, or_false] at hg ⊢; tauto) | split | simp only [RegsFrame.mk_iff] | with_reducible exact RegsFrame.of_regs rfl | dsimp only

theorem holdCmd_only {o : State} {ff : List Field} {gf : List (Nat → Field)} (src : Source) (s : State) (h0 : RegsFrame o s ff gf)
    (sub : ∀ f ∈ ([Reg.CONFIG_SWITCH_STATUS.PHASE, Reg.CONFIG_SWITCH_STATUS.RESULT, Reg.FAULT_MAINT_HELD.HELD, Reg.FAULT_MAINT_LAST.HOLDER, Reg.FAULT_MAINT_LAST.REQUESTED, Reg.FAULT_MAINT_REFUSED.COUNT, Reg.FRAME_STATUS.FRAME_ACTIVE] : List Field), f.key ∈ ff.map Field.key)
    (subg : ∀ g ∈ ([] : List (Nat → Field)), g ∈ gf) : RegsFrame o (holdCmd src s) ff gf := by
  refine RegsFrame.via h0 ?_ sub subg; clear h0 sub subg; unfold holdCmd; (try dsimp only)
  repeat' first | with_reducible exact RegsFrame.refl _ _ _ | with_reducible refine RegsFrame.set ?_ (by decide) _ | with_reducible apply switchPhase_only | with_reducible apply switchResult_only | with_reducible apply takeToken_only | exact (by decide) | exact List.forall_mem_nil _ | (with_reducible intro g hg; simp only [List.mem_cons, List.not_mem_nil, or_false] at hg ⊢; tauto) | split | simp only [RegsFrame.mk_iff] | with_reducible exact RegsFrame.of_regs rfl | dsimp only

theorem shadowFrom_only {o : State} {ff : List Field} {gf : List (Nat → Field)} (s : State) (k : Nat) (h0 : RegsFrame o s ff gf) : RegsFrame o (shadowFrom s k) ff gf :=
  h0.trans (RegsFrame.of_regs (by simp))

theorem resumeCmd_only {o : State} {ff : List Field} {gf : List (Nat → Field)} (src : Source) (s : State) (h0 : RegsFrame o s ff gf)
    (sub : ∀ f ∈ ([Reg.CONFIG_SWITCH_STATUS.PHASE, Reg.CONFIG_SWITCH_STATUS.RESULT, Reg.FAULT_MAINT_HELD.HELD] : List Field), f.key ∈ ff.map Field.key)
    (subg : ∀ g ∈ ([] : List (Nat → Field)), g ∈ gf) : RegsFrame o (resumeCmd src s) ff gf := by
  refine RegsFrame.via h0 ?_ sub subg; clear h0 sub subg; unfold resumeCmd; (try dsimp only)
  repeat' first | with_reducible exact RegsFrame.refl _ _ _ | with_reducible apply dropToken_only | with_reducible apply shadowFrom_only | with_reducible apply switchPhase_only | with_reducible apply switchResult_only | exact (by decide) | exact List.forall_mem_nil _ | (with_reducible intro g hg; simp only [List.mem_cons, List.not_mem_nil, or_false] at hg ⊢; tauto) | split | simp only [RegsFrame.mk_iff] | with_reducible exact RegsFrame.of_regs rfl | dsimp only

theorem cancelCmd_only {o : State} {ff : List Field} {gf : List (Nat → Field)} (src : Source) (s : State) (h0 : RegsFrame o s ff gf)
    (sub : ∀ f ∈ ([Reg.CONFIG_SWITCH_STATUS.PHASE, Reg.CONFIG_SWITCH_STATUS.RESULT, Reg.FAULT_MAINT_HELD.HELD] : List Field), f.key ∈ ff.map Field.key)
    (subg : ∀ g ∈ ([] : List (Nat → Field)), g ∈ gf) : RegsFrame o (cancelCmd src s) ff gf := by
  refine RegsFrame.via h0 ?_ sub subg; clear h0 sub subg; unfold cancelCmd; (try dsimp only)
  repeat' first | with_reducible exact RegsFrame.refl _ _ _ | with_reducible apply endSwitch_only | with_reducible apply switchResult_only | exact (by decide) | exact List.forall_mem_nil _ | (with_reducible intro g hg; simp only [List.mem_cons, List.not_mem_nil, or_false] at hg ⊢; tauto) | split | simp only [RegsFrame.mk_iff] | with_reducible exact RegsFrame.of_regs rfl | dsimp only

theorem pinsToWake_only {o : State} {ff : List Field} {gf : List (Nat → Field)} (s : State) (h0 : RegsFrame o s ff gf)
    (sub : ∀ f ∈ ([Reg.SAFE_SP_CLIPPED.COUNT, Reg.SAFE_SP_STATUS.GENERATION, Reg.SAFE_SP_STATUS.PHASE, Reg.SAFE_SP_SWAPS.COUNT] : List Field), f.key ∈ ff.map Field.key)
    (subg : ∀ g ∈ ([] : List (Nat → Field)), g ∈ gf) : RegsFrame o (pinsToWake s) ff gf := by
  refine RegsFrame.via h0 ?_ sub subg; clear h0 sub subg; unfold pinsToWake; (try dsimp only)
  repeat' first | with_reducible exact RegsFrame.refl _ _ _ | with_reducible apply emptyTable_only | with_reducible apply setPhase_only | with_reducible apply swapTable_only | exact (by decide) | exact List.forall_mem_nil _ | (with_reducible intro g hg; simp only [List.mem_cons, List.not_mem_nil, or_false] at hg ⊢; tauto) | split | simp only [RegsFrame.mk_iff] | with_reducible exact RegsFrame.of_regs rfl | dsimp only

theorem stopFrames_only {o : State} {ff : List Field} {gf : List (Nat → Field)} (s : State) (h0 : RegsFrame o s ff gf)
    (sub : ∀ f ∈ ([Reg.FRAME_STATUS.FRAME_ACTIVE, Reg.FRAME_STATUS.SHADOW] : List Field), f.key ∈ ff.map Field.key)
    (subg : ∀ g ∈ ([] : List (Nat → Field)), g ∈ gf) : RegsFrame o (stopFrames s) ff gf := by
  refine RegsFrame.via h0 ?_ sub subg; clear h0 sub subg; unfold stopFrames; (try dsimp only)
  repeat' first | with_reducible exact RegsFrame.refl _ _ _ | with_reducible refine RegsFrame.set ?_ (by decide) _ | exact (by decide) | exact List.forall_mem_nil _ | (with_reducible intro g hg; simp only [List.mem_cons, List.not_mem_nil, or_false] at hg ⊢; tauto) | split | simp only [RegsFrame.mk_iff] | with_reducible exact RegsFrame.of_regs rfl | dsimp only

theorem endClamp_only {o : State} {ff : List Field} {gf : List (Nat → Field)} (s : State) (c : ClampSt) (h0 : RegsFrame o s ff gf)
    (sub : ∀ f ∈ ([Reg.FAULT_MAINT_HELD.HELD, Reg.TENON_CLAMP_SKEW_PS.SKEW, Reg.TENON_CMD_STATUS.RESULT, Reg.TENON_STATUS.STATE] : List Field), f.key ∈ ff.map Field.key)
    (subg : ∀ g ∈ ([] : List (Nat → Field)), g ∈ gf) : RegsFrame o (endClamp s c) ff gf := by
  refine RegsFrame.via h0 ?_ sub subg; clear h0 sub subg; unfold endClamp; (try dsimp only)
  repeat' first | with_reducible exact RegsFrame.refl _ _ _ | with_reducible refine RegsFrame.set ?_ (by decide) _ | with_reducible apply dropToken_only | exact (by decide) | exact List.forall_mem_nil _ | (with_reducible intro g hg; simp only [List.mem_cons, List.not_mem_nil, or_false] at hg ⊢; tauto) | split | simp only [RegsFrame.mk_iff] | with_reducible exact RegsFrame.of_regs rfl | dsimp only

theorem startClamp_only {o : State} {ff : List Field} {gf : List (Nat → Field)} (s : State) (h0 : RegsFrame o s ff gf)
    (sub : ∀ f ∈ ([Reg.FAULT_MAINT_HELD.HELD, Reg.FAULT_MAINT_LAST.HOLDER, Reg.FAULT_MAINT_LAST.REQUESTED, Reg.FAULT_MAINT_REFUSED.COUNT, Reg.TENON_CLAMP_SKEW_PS.SKEW, Reg.TENON_CMD_STATUS.RESULT, Reg.TENON_STATUS.STATE] : List Field), f.key ∈ ff.map Field.key)
    (subg : ∀ g ∈ ([Reg.TENON_LINK_CREDITS.SHARED, Reg.TENON_LINK_CREDITS.VC0, Reg.TENON_LINK_CREDITS.VC1, Reg.TENON_LINK_CREDITS.VC2, Reg.TENON_LINK_CREDITS.VC3] : List (Nat → Field)), g ∈ gf) : RegsFrame o (startClamp s) ff gf := by
  refine RegsFrame.via h0 ?_ sub subg; clear h0 sub subg; unfold startClamp; (try dsimp only)
  repeat' first | with_reducible exact RegsFrame.refl _ _ _ | with_reducible refine RegsFrame.set ?_ (by decide) _ | with_reducible refine RegsFrame.foldl (fun _ _ => ?_) ?_ | with_reducible refine RegsFrame.foldl_fst (fun _ _ => ?_) ?_ | with_reducible refine RegsFrame.foldl_snd (fun _ _ => ?_) ?_ | with_reducible apply endClamp_only | with_reducible apply sendToken_only | with_reducible apply takeToken_only | exact (by decide) | exact List.forall_mem_nil _ | (with_reducible intro g hg; simp only [List.mem_cons, List.not_mem_nil, or_false] at hg ⊢; tauto) | split | simp only [RegsFrame.mk_iff] | with_reducible exact RegsFrame.of_regs rfl | dsimp only

theorem clampIfDue_only {o : State} {ff : List Field} {gf : List (Nat → Field)} (s : State) (h0 : RegsFrame o s ff gf)
    (sub : ∀ f ∈ ([Reg.FAULT_MAINT_HELD.HELD, Reg.FAULT_MAINT_LAST.HOLDER, Reg.FAULT_MAINT_LAST.REQUESTED, Reg.FAULT_MAINT_REFUSED.COUNT, Reg.TENON_CLAMP_SKEW_PS.SKEW, Reg.TENON_CMD_STATUS.RESULT, Reg.TENON_STATUS.STATE] : List Field), f.key ∈ ff.map Field.key)
    (subg : ∀ g ∈ ([Reg.TENON_LINK_CREDITS.SHARED, Reg.TENON_LINK_CREDITS.VC0, Reg.TENON_LINK_CREDITS.VC1, Reg.TENON_LINK_CREDITS.VC2, Reg.TENON_LINK_CREDITS.VC3] : List (Nat → Field)), g ∈ gf) : RegsFrame o (clampIfDue s) ff gf := by
  refine RegsFrame.via h0 ?_ sub subg; clear h0 sub subg; unfold clampIfDue; (try dsimp only)
  repeat' first | with_reducible exact RegsFrame.refl _ _ _ | with_reducible apply startClamp_only | exact (by decide) | exact List.forall_mem_nil _ | (with_reducible intro g hg; simp only [List.mem_cons, List.not_mem_nil, or_false] at hg ⊢; tauto) | split | simp only [RegsFrame.mk_iff] | with_reducible exact RegsFrame.of_regs rfl | dsimp only

theorem requestRetrain_only {o : State} {ff : List Field} {gf : List (Nat → Field)} (s : State) (l : Nat) (h0 : RegsFrame o s ff gf)
    (sub : ∀ f ∈ ([Reg.FAULT_MAINT_HELD.HELD, Reg.FAULT_MAINT_LAST.HOLDER, Reg.FAULT_MAINT_LAST.REQUESTED, Reg.FAULT_MAINT_REFUSED.COUNT] : List Field), f.key ∈ ff.map Field.key)
    (subg : ∀ g ∈ ([Reg.TENON_LINK_RETRAINS.COUNT, Reg.TENON_LINK_STATUS.STATE] : List (Nat → Field)), g ∈ gf) : RegsFrame o (requestRetrain s l) ff gf := by
  refine RegsFrame.via h0 ?_ sub subg; clear h0 sub subg; unfold requestRetrain; (try dsimp only)
  repeat' first | with_reducible exact RegsFrame.refl _ _ _ | with_reducible refine RegsFrame.set ?_ (by decide) _ | with_reducible refine RegsFrame.inc ?_ (by decide) | with_reducible refine RegsFrame.setF (g := Reg.TENON_LINK_RETRAINS.COUNT) ?_ (by simp) _ _ | with_reducible refine RegsFrame.incF (g := Reg.TENON_LINK_RETRAINS.COUNT) ?_ (by simp) _ | with_reducible refine RegsFrame.setF (g := Reg.TENON_LINK_STATUS.STATE) ?_ (by simp) _ _ | with_reducible refine RegsFrame.incF (g := Reg.TENON_LINK_STATUS.STATE) ?_ (by simp) _ | with_reducible apply setLink_only | with_reducible apply takeToken_only | exact (by decide) | exact List.forall_mem_nil _ | (with_reducible intro g hg; simp only [List.mem_cons, List.not_mem_nil, or_false] at hg ⊢; tauto) | split | simp only [RegsFrame.mk_iff] | with_reducible exact RegsFrame.of_regs rfl | dsimp only

theorem ackFlits_only {o : State} {ff : List Field} {gf : List (Nat → Field)} (s : State) (l ack : Nat) (h0 : RegsFrame o s ff gf)
    (sub : ∀ f ∈ ([] : List Field), f.key ∈ ff.map Field.key)
    (subg : ∀ g ∈ ([Reg.TENON_LINK_CREDITS.SHARED, Reg.TENON_LINK_CREDITS.VC0, Reg.TENON_LINK_CREDITS.VC1, Reg.TENON_LINK_CREDITS.VC2, Reg.TENON_LINK_CREDITS.VC3] : List (Nat → Field)), g ∈ gf) : RegsFrame o (ackFlits s l ack) ff gf := by
  refine RegsFrame.via h0 ?_ sub subg; clear h0 sub subg; unfold ackFlits; (try dsimp only)
  repeat' first | with_reducible exact RegsFrame.refl _ _ _ | with_reducible apply setLink_only | with_reducible apply pumpLink_only | with_reducible apply tryConfirm_only | exact (by decide) | exact List.forall_mem_nil _ | (with_reducible intro g hg; simp only [List.mem_cons, List.not_mem_nil, or_false] at hg ⊢; tauto) | split | simp only [RegsFrame.mk_iff] | with_reducible exact RegsFrame.of_regs rfl | dsimp only

theorem replayEpisode_only {o : State} {ff : List Field} {gf : List (Nat → Field)} (s : State) (l : Nat) (h0 : RegsFrame o s ff gf)
    (sub : ∀ f ∈ ([Reg.FAULT_MAINT_HELD.HELD, Reg.FAULT_MAINT_LAST.HOLDER, Reg.FAULT_MAINT_LAST.REQUESTED, Reg.FAULT_MAINT_REFUSED.COUNT] : List Field), f.key ∈ ff.map Field.key)
    (subg : ∀ g ∈ ([Reg.TENON_LINK_REPLAYS.COUNT, Reg.TENON_LINK_RETRAINS.COUNT, Reg.TENON_LINK_STATUS.STATE] : List (Nat → Field)), g ∈ gf) : RegsFrame o (replayEpisode s l) ff gf := by
  refine RegsFrame.via h0 ?_ sub subg; clear h0 sub subg; unfold replayEpisode; (try dsimp only)
  repeat' first | with_reducible exact RegsFrame.refl _ _ _ | with_reducible refine RegsFrame.inc ?_ (by decide) | with_reducible refine RegsFrame.incF (g := Reg.TENON_LINK_REPLAYS.COUNT) ?_ (by simp) _ | with_reducible apply setLink_only | with_reducible apply requestRetrain_only | exact (by decide) | exact List.forall_mem_nil _ | (with_reducible intro g hg; simp only [List.mem_cons, List.not_mem_nil, or_false] at hg ⊢; tauto) | split | simp only [RegsFrame.mk_iff] | with_reducible exact RegsFrame.of_regs rfl | dsimp only

theorem forwardTo_only {o : State} {ff : List Field} {gf : List (Nat → Field)} (s : State) (dest : Nat) (fs : List OutFlit) (h0 : RegsFrame o s ff gf)
    (sub : ∀ f ∈ ([] : List Field), f.key ∈ ff.map Field.key)
    (subg : ∀ g ∈ ([Reg.TENON_LINK_CREDITS.SHARED, Reg.TENON_LINK_CREDITS.VC0, Reg.TENON_LINK_CREDITS.VC1, Reg.TENON_LINK_CREDITS.VC2, Reg.TENON_LINK_CREDITS.VC3] : List (Nat → Field)), g ∈ gf) : RegsFrame o (forwardTo s dest fs) ff gf := by
  refine RegsFrame.via h0 ?_ sub subg; clear h0 sub subg; unfold forwardTo; (try dsimp only)
  repeat' first | with_reducible exact RegsFrame.refl _ _ _ | with_reducible apply sendMessage_only | exact (by decide) | exact List.forall_mem_nil _ | (with_reducible intro g hg; simp only [List.mem_cons, List.not_mem_nil, or_false] at hg ⊢; tauto) | split | simp only [RegsFrame.mk_iff] | with_reducible exact RegsFrame.of_regs rfl | dsimp only

theorem forwardRecord_only {o : State} {ff : List Field} {gf : List (Nat → Field)} (s : State) (m : Message) (h0 : RegsFrame o s ff gf)
    (sub : ∀ f ∈ ([] : List Field), f.key ∈ ff.map Field.key)
    (subg : ∀ g ∈ ([Reg.TENON_LINK_CREDITS.SHARED, Reg.TENON_LINK_CREDITS.VC0, Reg.TENON_LINK_CREDITS.VC1, Reg.TENON_LINK_CREDITS.VC2, Reg.TENON_LINK_CREDITS.VC3] : List (Nat → Field)), g ∈ gf) : RegsFrame o (forwardRecord s m) ff gf := by
  refine RegsFrame.via h0 ?_ sub subg; clear h0 sub subg; unfold forwardRecord; (try dsimp only)
  repeat' first | with_reducible exact RegsFrame.refl _ _ _ | with_reducible refine RegsFrame.draw ?_ _ | with_reducible apply forwardTo_only | exact (by decide) | exact List.forall_mem_nil _ | (with_reducible intro g hg; simp only [List.mem_cons, List.not_mem_nil, or_false] at hg ⊢; tauto) | split | simp only [RegsFrame.mk_iff] | with_reducible exact RegsFrame.of_regs rfl | dsimp only

theorem relayToHead_only {o : State} {ff : List Field} {gf : List (Nat → Field)} (s : State) (kind flags src : Nat) (e : Epoch) (v0 v1 : Nat) (h0 : RegsFrame o s ff gf)
    (sub : ∀ f ∈ ([] : List Field), f.key ∈ ff.map Field.key)
    (subg : ∀ g ∈ ([Reg.TENON_LINK_CREDITS.SHARED, Reg.TENON_LINK_CREDITS.VC0, Reg.TENON_LINK_CREDITS.VC1, Reg.TENON_LINK_CREDITS.VC2, Reg.TENON_LINK_CREDITS.VC3] : List (Nat → Field)), g ∈ gf) : RegsFrame o (relayToHead s kind flags src e v0 v1) ff gf := by
  refine RegsFrame.via h0 ?_ sub subg; clear h0 sub subg; unfold relayToHead; (try dsimp only)
  repeat' first | with_reducible exact RegsFrame.refl _ _ _ | with_reducible apply sendFlit_only | exact (by decide) | exact List.forall_mem_nil _ | (with_reducible intro g hg; simp only [List.mem_cons, List.not_mem_nil, or_false] at hg ⊢; tauto) | split | simp only [RegsFrame.mk_iff] | with_reducible exact RegsFrame.of_regs rfl | dsimp only

theorem tenonWrite_only {o : State} {fs : List Field} {gs : List (Nat → Field)} (src : Source) {s : State} {f : State → State} (hf : RegsFrame o (f s) fs gs)
    (h0 : RegsFrame o s fs gs) : RegsFrame o (tenonWrite src s f) fs gs := by
  unfold tenonWrite; split
  · exact h0
  · exact ownerOnly_only src hf h0
theorem clampCmd_only {o : State} {ff : List Field} {gf : List (Nat → Field)} (src : Source) (s : State) (h0 : RegsFrame o s ff gf)
    (sub : ∀ f ∈ ([Reg.FAULT_MAINT_HELD.HELD, Reg.FAULT_MAINT_LAST.HOLDER, Reg.FAULT_MAINT_LAST.REQUESTED, Reg.FAULT_MAINT_REFUSED.COUNT, Reg.TENON_CLAMP_SKEW_PS.SKEW, Reg.TENON_CMD_STATUS.RESULT, Reg.TENON_STATUS.STATE] : List Field), f.key ∈ ff.map Field.key)
    (subg : ∀ g ∈ ([Reg.TENON_LINK_CREDITS.SHARED, Reg.TENON_LINK_CREDITS.VC0, Reg.TENON_LINK_CREDITS.VC1, Reg.TENON_LINK_CREDITS.VC2, Reg.TENON_LINK_CREDITS.VC3] : List (Nat → Field)), g ∈ gf) : RegsFrame o (clampCmd src s) ff gf := by
  refine RegsFrame.via h0 ?_ sub subg; clear h0 sub subg; unfold clampCmd; (try dsimp only)
  repeat' first | with_reducible exact RegsFrame.refl _ _ _ | with_reducible refine RegsFrame.set ?_ (by decide) _ | with_reducible apply startClamp_only | with_reducible apply tenonWrite_only | exact (by decide) | exact List.forall_mem_nil _ | (with_reducible intro g hg; simp only [List.mem_cons, List.not_mem_nil, or_false] at hg ⊢; tauto) | split | simp only [RegsFrame.mk_iff] | with_reducible exact RegsFrame.of_regs rfl | dsimp only

theorem enumerateCmd_only {o : State} {ff : List Field} {gf : List (Nat → Field)} (src : Source) (s : State) (h0 : RegsFrame o s ff gf)
    (sub : ∀ f ∈ ([Reg.TENON_CMD_STATUS.RESULT] : List Field), f.key ∈ ff.map Field.key)
    (subg : ∀ g ∈ ([] : List (Nat → Field)), g ∈ gf) : RegsFrame o (enumerateCmd src s) ff gf := by
  refine RegsFrame.via h0 ?_ sub subg; clear h0 sub subg; unfold enumerateCmd; (try dsimp only)
  repeat' first | with_reducible exact RegsFrame.refl _ _ _ | with_reducible refine RegsFrame.set ?_ (by decide) _ | with_reducible apply tenonWrite_only | exact (by decide) | exact List.forall_mem_nil _ | (with_reducible intro g hg; simp only [List.mem_cons, List.not_mem_nil, or_false] at hg ⊢; tauto) | split | simp only [RegsFrame.mk_iff] | with_reducible exact RegsFrame.of_regs rfl | dsimp only

theorem remoteCmd_only {o : State} {ff : List Field} {gf : List (Nat → Field)} (src : Source) (s : State) (h0 : RegsFrame o s ff gf)
    (sub : ∀ f ∈ ([Reg.TENON_RMT_STATUS.BUSY, Reg.TENON_RMT_STATUS.FAIL_INDEX, Reg.TENON_RMT_STATUS.STATUS] : List Field), f.key ∈ ff.map Field.key)
    (subg : ∀ g ∈ ([Reg.TENON_LINK_CREDITS.SHARED, Reg.TENON_LINK_CREDITS.VC0, Reg.TENON_LINK_CREDITS.VC1, Reg.TENON_LINK_CREDITS.VC2, Reg.TENON_LINK_CREDITS.VC3] : List (Nat → Field)), g ∈ gf) : RegsFrame o (remoteCmd src s) ff gf := by
  refine RegsFrame.via h0 ?_ sub subg; clear h0 sub subg; unfold remoteCmd; (try dsimp only)
  repeat' first | with_reducible exact RegsFrame.refl _ _ _ | with_reducible refine RegsFrame.set ?_ (by decide) _ | with_reducible apply maintMessage_only | with_reducible apply tenonWrite_only | exact (by decide) | exact List.forall_mem_nil _ | (with_reducible intro g hg; simp only [List.mem_cons, List.not_mem_nil, or_false] at hg ⊢; tauto) | split | simp only [RegsFrame.mk_iff] | with_reducible exact RegsFrame.of_regs rfl | dsimp only

theorem bootStep_only {o : State} {ff : List Field} {gf : List (Nat → Field)} (s : State) (n : Nat) (h0 : RegsFrame o s ff gf)
    (sub : ∀ f ∈ ([Reg.SEC_BOOT_STATUS.STEP] : List Field), f.key ∈ ff.map Field.key)
    (subg : ∀ g ∈ ([] : List (Nat → Field)), g ∈ gf) : RegsFrame o (bootStep s n) ff gf := by
  refine RegsFrame.via h0 ?_ sub subg; clear h0 sub subg; unfold bootStep; (try dsimp only)
  repeat' first | with_reducible exact RegsFrame.refl _ _ _ | with_reducible refine RegsFrame.set ?_ (by decide) _ | exact (by decide) | exact List.forall_mem_nil _ | (with_reducible intro g hg; simp only [List.mem_cons, List.not_mem_nil, or_false] at hg ⊢; tauto) | split | simp only [RegsFrame.mk_iff] | with_reducible exact RegsFrame.of_regs rfl | dsimp only

theorem bootResult_only {o : State} {ff : List Field} {gf : List (Nat → Field)} (s : State) (r : Nat) (h0 : RegsFrame o s ff gf)
    (sub : ∀ f ∈ ([Reg.SEC_BOOT_CMD_STATUS.RESULT] : List Field), f.key ∈ ff.map Field.key)
    (subg : ∀ g ∈ ([] : List (Nat → Field)), g ∈ gf) : RegsFrame o (bootResult s r) ff gf := by
  refine RegsFrame.via h0 ?_ sub subg; clear h0 sub subg; unfold bootResult; (try dsimp only)
  repeat' first | with_reducible exact RegsFrame.refl _ _ _ | with_reducible refine RegsFrame.set ?_ (by decide) _ | exact (by decide) | exact List.forall_mem_nil _ | (with_reducible intro g hg; simp only [List.mem_cons, List.not_mem_nil, or_false] at hg ⊢; tauto) | split | simp only [RegsFrame.mk_iff] | with_reducible exact RegsFrame.of_regs rfl | dsimp only

theorem restartCmd_only {o : State} {ff : List Field} {gf : List (Nat → Field)} (why : Nat) (src : Source) (s : State) (h0 : RegsFrame o s ff gf)
    (sub : ∀ f ∈ ([Reg.SEC_BOOT_CMD_STATUS.RESULT] : List Field), f.key ∈ ff.map Field.key)
    (subg : ∀ g ∈ ([] : List (Nat → Field)), g ∈ gf) : RegsFrame o (restartCmd why src s) ff gf := by
  refine RegsFrame.via h0 ?_ sub subg; clear h0 sub subg; unfold restartCmd; (try dsimp only)
  repeat' first | with_reducible exact RegsFrame.refl _ _ _ | with_reducible apply bootResult_only | exact (by decide) | exact List.forall_mem_nil _ | (with_reducible intro g hg; simp only [List.mem_cons, List.not_mem_nil, or_false] at hg ⊢; tauto) | split | simp only [RegsFrame.mk_iff] | with_reducible exact RegsFrame.of_regs rfl | dsimp only

theorem retryCmd_only {o : State} {ff : List Field} {gf : List (Nat → Field)} (src : Source) (s : State) (h0 : RegsFrame o s ff gf)
    (sub : ∀ f ∈ ([Reg.CONFIG_SWITCH_STATUS.PHASE, Reg.CONFIG_SWITCH_STATUS.RESULT, Reg.FRAME_SPEC_DISCARDS.DISCARDS, Reg.FRAME_SPEC_EPOCH.EPOCH, Reg.FRAME_STATUS.FRAME_ACTIVE, Reg.FRAME_STATUS.SHADOW, Reg.SEC_BOOT_ATTEMPTS.A_EXCLUDED, Reg.SEC_BOOT_ATTEMPTS.A_FAILS, Reg.SEC_BOOT_ATTEMPTS.B_EXCLUDED, Reg.SEC_BOOT_ATTEMPTS.B_FAILS, Reg.SEC_BOOT_CMD_STATUS.RESULT, Reg.SEC_BOOT_STATUS.FAIL, Reg.SEC_BOOT_STATUS.STATE, Reg.SEC_BOOT_STATUS.STEP, Reg.SEC_BOOT_STATUS.WARM, Reg.SEC_RESTART_COUNT.COUNT, Reg.TENON_SQUASH_SENT.COUNT] : List Field), f.key ∈ ff.map Field.key)
    (subg : ∀ g ∈ ([Reg.TENON_LINK_CREDITS.SHARED, Reg.TENON_LINK_CREDITS.VC0, Reg.TENON_LINK_CREDITS.VC1, Reg.TENON_LINK_CREDITS.VC2, Reg.TENON_LINK_CREDITS.VC3] : List (Nat → Field)), g ∈ gf) : RegsFrame o (retryCmd src s) ff gf := by
  refine RegsFrame.via h0 ?_ sub subg; clear h0 sub subg; unfold retryCmd; (try dsimp only)
  repeat' first | with_reducible exact RegsFrame.refl _ _ _ | with_reducible refine RegsFrame.set ?_ (by decide) _ | with_reducible apply bootResult_only | with_reducible apply restartAs_only | exact (by decide) | exact List.forall_mem_nil _ | (with_reducible intro g hg; simp only [List.mem_cons, List.not_mem_nil, or_false] at hg ⊢; tauto) | split | simp only [RegsFrame.mk_iff] | with_reducible exact RegsFrame.of_regs rfl | dsimp only

theorem keyResult_only {o : State} {ff : List Field} {gf : List (Nat → Field)} (s : State) (r : Nat) (h0 : RegsFrame o s ff gf)
    (sub : ∀ f ∈ ([Reg.SEC_KEY_RESULT.RESULT] : List Field), f.key ∈ ff.map Field.key)
    (subg : ∀ g ∈ ([] : List (Nat → Field)), g ∈ gf) : RegsFrame o (keyResult s r) ff gf := by
  refine RegsFrame.via h0 ?_ sub subg; clear h0 sub subg; unfold keyResult; (try dsimp only)
  repeat' first | with_reducible exact RegsFrame.refl _ _ _ | with_reducible refine RegsFrame.set ?_ (by decide) _ | exact (by decide) | exact List.forall_mem_nil _ | (with_reducible intro g hg; simp only [List.mem_cons, List.not_mem_nil, or_false] at hg ⊢; tauto) | split | simp only [RegsFrame.mk_iff] | with_reducible exact RegsFrame.of_regs rfl | dsimp only

theorem putKeys_only {o : State} {ff : List Field} {gf : List (Nat → Field)} (s : State) (ks : List (Nat × List Byte)) (h0 : RegsFrame o s ff gf)
    (sub : ∀ f ∈ ([Reg.SEC_KEY_RESULT.RESULT] : List Field), f.key ∈ ff.map Field.key)
    (subg : ∀ g ∈ ([] : List (Nat → Field)), g ∈ gf) : RegsFrame o (putKeys s ks) ff gf := by
  refine RegsFrame.via h0 ?_ sub subg; clear h0 sub subg; unfold putKeys; (try dsimp only)
  repeat' first | with_reducible exact RegsFrame.refl _ _ _ | with_reducible apply keyResult_only | exact (by decide) | exact List.forall_mem_nil _ | (with_reducible intro g hg; simp only [List.mem_cons, List.not_mem_nil, or_false] at hg ⊢; tauto) | split | simp only [RegsFrame.mk_iff] | with_reducible exact RegsFrame.of_regs rfl | dsimp only

theorem enrolKey_only {o : State} {ff : List Field} {gf : List (Nat → Field)} (s : State) (b : List Byte) (h0 : RegsFrame o s ff gf)
    (sub : ∀ f ∈ ([Reg.SEC_KEY_RESULT.RESULT] : List Field), f.key ∈ ff.map Field.key)
    (subg : ∀ g ∈ ([] : List (Nat → Field)), g ∈ gf) : RegsFrame o (enrolKey s b) ff gf := by
  refine RegsFrame.via h0 ?_ sub subg; clear h0 sub subg; unfold enrolKey; (try dsimp only)
  repeat' first | with_reducible exact RegsFrame.refl _ _ _ | with_reducible apply keyResult_only | with_reducible apply putKeys_only | exact (by decide) | exact List.forall_mem_nil _ | (with_reducible intro g hg; simp only [List.mem_cons, List.not_mem_nil, or_false] at hg ⊢; tauto) | split | simp only [RegsFrame.mk_iff] | with_reducible exact RegsFrame.of_regs rfl | dsimp only

theorem revokeKey_only {o : State} {ff : List Field} {gf : List (Nat → Field)} (s : State) (b : List Byte) (h0 : RegsFrame o s ff gf)
    (sub : ∀ f ∈ ([Reg.SEC_KEY_RESULT.RESULT] : List Field), f.key ∈ ff.map Field.key)
    (subg : ∀ g ∈ ([] : List (Nat → Field)), g ∈ gf) : RegsFrame o (revokeKey s b) ff gf := by
  refine RegsFrame.via h0 ?_ sub subg; clear h0 sub subg; unfold revokeKey; (try dsimp only)
  repeat' first | with_reducible exact RegsFrame.refl _ _ _ | with_reducible apply keyResult_only | with_reducible apply putKeys_only | exact (by decide) | exact List.forall_mem_nil _ | (with_reducible intro g hg; simp only [List.mem_cons, List.not_mem_nil, or_false] at hg ⊢; tauto) | split | simp only [RegsFrame.mk_iff] | with_reducible exact RegsFrame.of_regs rfl | dsimp only

theorem applyKey_only {o : State} {ff : List Field} {gf : List (Nat → Field)} (src : Source) (s : State) (h0 : RegsFrame o s ff gf)
    (sub : ∀ f ∈ ([Reg.SEC_KEY_RESULT.RESULT] : List Field), f.key ∈ ff.map Field.key)
    (subg : ∀ g ∈ ([] : List (Nat → Field)), g ∈ gf) : RegsFrame o (applyKey src s) ff gf := by
  refine RegsFrame.via h0 ?_ sub subg; clear h0 sub subg; unfold applyKey; (try dsimp only)
  repeat' first | with_reducible exact RegsFrame.refl _ _ _ | with_reducible refine RegsFrame.draw ?_ _ | with_reducible apply enrolKey_only | with_reducible apply keyResult_only | with_reducible apply revokeKey_only | exact (by decide) | exact List.forall_mem_nil _ | (with_reducible intro g hg; simp only [List.mem_cons, List.not_mem_nil, or_false] at hg ⊢; tauto) | split | simp only [RegsFrame.mk_iff] | with_reducible exact RegsFrame.of_regs rfl | dsimp only

theorem debugResult_only {o : State} {ff : List Field} {gf : List (Nat → Field)} (s : State) (r : Nat) (h0 : RegsFrame o s ff gf)
    (sub : ∀ f ∈ ([Reg.SEC_DEBUG_STATUS.RESULT] : List Field), f.key ∈ ff.map Field.key)
    (subg : ∀ g ∈ ([] : List (Nat → Field)), g ∈ gf) : RegsFrame o (debugResult s r) ff gf := by
  refine RegsFrame.via h0 ?_ sub subg; clear h0 sub subg; unfold debugResult; (try dsimp only)
  repeat' first | with_reducible exact RegsFrame.refl _ _ _ | with_reducible refine RegsFrame.set ?_ (by decide) _ | exact (by decide) | exact List.forall_mem_nil _ | (with_reducible intro g hg; simp only [List.mem_cons, List.not_mem_nil, or_false] at hg ⊢; tauto) | split | simp only [RegsFrame.mk_iff] | with_reducible exact RegsFrame.of_regs rfl | dsimp only

theorem challengeCmd_only {o : State} {ff : List Field} {gf : List (Nat → Field)} (src : Source) (s : State) (h0 : RegsFrame o s ff gf)
    (sub : ∀ f ∈ ([Reg.SEC_DEBUG_STATUS.RESULT, Reg.SEC_DEBUG_STATUS.STATE] : List Field), f.key ∈ ff.map Field.key)
    (subg : ∀ g ∈ ([Reg.SEC_DEBUG_CHALLENGE.DATA] : List (Nat → Field)), g ∈ gf) : RegsFrame o (challengeCmd src s) ff gf := by
  refine RegsFrame.via h0 ?_ sub subg; clear h0 sub subg; unfold challengeCmd; (try dsimp only)
  repeat' first | with_reducible exact RegsFrame.refl _ _ _ | with_reducible refine RegsFrame.set ?_ (by decide) _ | with_reducible refine RegsFrame.draw ?_ _ | with_reducible refine RegsFrame.setF (g := Reg.SEC_DEBUG_CHALLENGE.DATA) ?_ (by simp) _ _ | with_reducible refine RegsFrame.foldl (fun _ _ => ?_) ?_ | with_reducible refine RegsFrame.foldl_fst (fun _ _ => ?_) ?_ | with_reducible refine RegsFrame.foldl_snd (fun _ _ => ?_) ?_ | with_reducible apply debugResult_only | with_reducible apply ownerOnly_only | exact (by decide) | exact List.forall_mem_nil _ | (with_reducible intro g hg; simp only [List.mem_cons, List.not_mem_nil, or_false] at hg ⊢; tauto) | split | simp only [RegsFrame.mk_iff] | with_reducible exact RegsFrame.of_regs rfl | dsimp only

theorem respondCmd_only {o : State} {ff : List Field} {gf : List (Nat → Field)} (src : Source) (s : State) (h0 : RegsFrame o s ff gf)
    (sub : ∀ f ∈ ([Reg.SEC_DEBUG_STATUS.RESULT, Reg.SEC_DEBUG_STATUS.STATE] : List Field), f.key ∈ ff.map Field.key)
    (subg : ∀ g ∈ ([Reg.ETH_PART_STATUS.KEY_VALID] : List (Nat → Field)), g ∈ gf) : RegsFrame o (respondCmd src s) ff gf := by
  refine RegsFrame.via h0 ?_ sub subg; clear h0 sub subg; unfold respondCmd; (try dsimp only)
  repeat' first | with_reducible exact RegsFrame.refl _ _ _ | with_reducible refine RegsFrame.set ?_ (by decide) _ | with_reducible apply debugResult_only | with_reducible apply eraseKeys_only | with_reducible apply ownerOnly_only | exact (by decide) | exact List.forall_mem_nil _ | (with_reducible intro g hg; simp only [List.mem_cons, List.not_mem_nil, or_false] at hg ⊢; tauto) | split | simp only [RegsFrame.mk_iff] | with_reducible exact RegsFrame.of_regs rfl | dsimp only

theorem powerResult_only {o : State} {ff : List Field} {gf : List (Nat → Field)} (s : State) (r : Nat) (h0 : RegsFrame o s ff gf)
    (sub : ∀ f ∈ ([Reg.PWR_CMD_STATUS.RESULT] : List Field), f.key ∈ ff.map Field.key)
    (subg : ∀ g ∈ ([] : List (Nat → Field)), g ∈ gf) : RegsFrame o (powerResult s r) ff gf := by
  refine RegsFrame.via h0 ?_ sub subg; clear h0 sub subg; unfold powerResult; (try dsimp only)
  repeat' first | with_reducible exact RegsFrame.refl _ _ _ | with_reducible refine RegsFrame.set ?_ (by decide) _ | exact (by decide) | exact List.forall_mem_nil _ | (with_reducible intro g hg; simp only [List.mem_cons, List.not_mem_nil, or_false] at hg ⊢; tauto) | split | simp only [RegsFrame.mk_iff] | with_reducible exact RegsFrame.of_regs rfl | dsimp only

theorem acceptEntry_only {o : State} {ff : List Field} {gf : List (Nat → Field)} (s : State) (kind : Nat) (h0 : RegsFrame o s ff gf)
    (sub : ∀ f ∈ ([Reg.PWR_STATUS.ENTRY_PENDING] : List Field), f.key ∈ ff.map Field.key)
    (subg : ∀ g ∈ ([] : List (Nat → Field)), g ∈ gf) : RegsFrame o (acceptEntry s kind) ff gf := by
  refine RegsFrame.via h0 ?_ sub subg; clear h0 sub subg; unfold acceptEntry; (try dsimp only)
  repeat' first | with_reducible exact RegsFrame.refl _ _ _ | with_reducible refine RegsFrame.set ?_ (by decide) _ | exact (by decide) | exact List.forall_mem_nil _ | (with_reducible intro g hg; simp only [List.mem_cons, List.not_mem_nil, or_false] at hg ⊢; tauto) | split | simp only [RegsFrame.mk_iff] | with_reducible exact RegsFrame.of_regs rfl | dsimp only

theorem entryCmd_only {o : State} {ff : List Field} {gf : List (Nat → Field)} (kind : Nat) (src : Source) (s : State) (h0 : RegsFrame o s ff gf)
    (sub : ∀ f ∈ ([Reg.PWR_CMD_STATUS.RESULT, Reg.PWR_STATUS.ENTRY_PENDING] : List Field), f.key ∈ ff.map Field.key)
    (subg : ∀ g ∈ ([] : List (Nat → Field)), g ∈ gf) : RegsFrame o (entryCmd kind src s) ff gf := by
  refine RegsFrame.via h0 ?_ sub subg; clear h0 sub subg; unfold entryCmd; (try dsimp only)
  repeat' first | with_reducible exact RegsFrame.refl _ _ _ | with_reducible apply acceptEntry_only | with_reducible apply powerResult_only | exact (by decide) | exact List.forall_mem_nil _ | (with_reducible intro g hg; simp only [List.mem_cons, List.not_mem_nil, or_false] at hg ⊢; tauto) | split | simp only [RegsFrame.mk_iff] | with_reducible exact RegsFrame.of_regs rfl | dsimp only

theorem cancelEntry_only {o : State} {ff : List Field} {gf : List (Nat → Field)} (src : Source) (s : State) (h0 : RegsFrame o s ff gf)
    (sub : ∀ f ∈ ([Reg.PWR_CMD_STATUS.RESULT, Reg.PWR_STATUS.ENTRY_PENDING] : List Field), f.key ∈ ff.map Field.key)
    (subg : ∀ g ∈ ([] : List (Nat → Field)), g ∈ gf) : RegsFrame o (cancelEntry src s) ff gf := by
  refine RegsFrame.via h0 ?_ sub subg; clear h0 sub subg; unfold cancelEntry; (try dsimp only)
  repeat' first | with_reducible exact RegsFrame.refl _ _ _ | with_reducible refine RegsFrame.set ?_ (by decide) _ | with_reducible apply powerResult_only | exact (by decide) | exact List.forall_mem_nil _ | (with_reducible intro g hg; simp only [List.mem_cons, List.not_mem_nil, or_false] at hg ⊢; tauto) | split | simp only [RegsFrame.mk_iff] | with_reducible exact RegsFrame.of_regs rfl | dsimp only

theorem beginWake_only {o : State} {ff : List Field} {gf : List (Nat → Field)} (s : State) (m : Nat) (h0 : RegsFrame o s ff gf)
    (sub : ∀ f ∈ ([Reg.PWR_WAKE_SOURCE.SOURCE, Reg.SAFE_SP_WAKE_STATUS.SOURCE] : List Field), f.key ∈ ff.map Field.key)
    (subg : ∀ g ∈ ([] : List (Nat → Field)), g ∈ gf) : RegsFrame o (beginWake s m) ff gf := by
  refine RegsFrame.via h0 ?_ sub subg; clear h0 sub subg; unfold beginWake; (try dsimp only)
  repeat' first | with_reducible exact RegsFrame.refl _ _ _ | with_reducible refine RegsFrame.set ?_ (by decide) _ | exact (by decide) | exact List.forall_mem_nil _ | (with_reducible intro g hg; simp only [List.mem_cons, List.not_mem_nil, or_false] at hg ⊢; tauto) | split | simp only [RegsFrame.mk_iff] | with_reducible exact RegsFrame.of_regs rfl | dsimp only

theorem wakeEvent_only {o : State} {ff : List Field} {gf : List (Nat → Field)} (s : State) (m : Nat) (level : Bool) (h0 : RegsFrame o s ff gf)
    (sub : ∀ f ∈ ([Reg.PWR_WAKE_SOURCE.SOURCE, Reg.SAFE_SP_WAKE_STATUS.SOURCE] : List Field), f.key ∈ ff.map Field.key)
    (subg : ∀ g ∈ ([] : List (Nat → Field)), g ∈ gf) : RegsFrame o (wakeEvent s m level) ff gf := by
  refine RegsFrame.via h0 ?_ sub subg; clear h0 sub subg; unfold wakeEvent; (try dsimp only)
  repeat' first | with_reducible exact RegsFrame.refl _ _ _ | with_reducible refine RegsFrame.draw ?_ _ | with_reducible apply beginWake_only | exact (by decide) | exact List.forall_mem_nil _ | (with_reducible intro g hg; simp only [List.mem_cons, List.not_mem_nil, or_false] at hg ⊢; tauto) | split | simp only [RegsFrame.mk_iff] | with_reducible exact RegsFrame.of_regs rfl | dsimp only

theorem selfRefresh_only {o : State} {ff : List Field} {gf : List (Nat → Field)} (s : State) (on : Bool) (h0 : RegsFrame o s ff gf)
    (sub : ∀ f ∈ ([] : List Field), f.key ∈ ff.map Field.key)
    (subg : ∀ g ∈ ([Reg.HBM_STATUS.SELF_REFRESH] : List (Nat → Field)), g ∈ gf) : RegsFrame o (selfRefresh s on) ff gf := by
  refine RegsFrame.via h0 ?_ sub subg; clear h0 sub subg; unfold selfRefresh; (try dsimp only)
  repeat' first | with_reducible exact RegsFrame.refl _ _ _ | with_reducible refine RegsFrame.set ?_ (by decide) _ | with_reducible refine RegsFrame.setF (g := Reg.HBM_STATUS.SELF_REFRESH) ?_ (by simp) _ _ | with_reducible refine RegsFrame.foldl (fun _ _ => ?_) ?_ | with_reducible refine RegsFrame.foldl_fst (fun _ _ => ?_) ?_ | with_reducible refine RegsFrame.foldl_snd (fun _ _ => ?_) ?_ | exact (by decide) | exact List.forall_mem_nil _ | (with_reducible intro g hg; simp only [List.mem_cons, List.not_mem_nil, or_false] at hg ⊢; tauto) | split | simp only [RegsFrame.mk_iff] | with_reducible exact RegsFrame.of_regs rfl | dsimp only

theorem written_only {o : State} {fs : List Field} {gs : List (Nat → Field)} (src : Source) (s : State) {t : State}
    (h : RegsFrame o t fs gs) : RegsFrame o (written src s t) fs gs := h

end Sys2Proof.Machine
end

