-- ==== Sys2Proof/Laws/Handling.lean ====
section
/-! SUPPORT. The registers that each shared operation of the handling of an error may write, and those of the operations that
detect errors. -/

namespace Sys2Proof.Machine

theorem RegsFrame.sub_append {ff : List Field} {a b : List Field} (ha : ∀ f ∈ a, f.key ∈ ff.map Field.key)
    (hb : ∀ f ∈ b, f.key ∈ ff.map Field.key) : ∀ f ∈ a ++ b, f.key ∈ ff.map Field.key := fun f h =>
  (List.mem_append.mp h).elim (ha f) (hb f)

theorem classCounter_inc {o s : State} {ff : List Field} {gf : List (Nat → Field)} (c : Nat) (h0 : RegsFrame o s ff gf)
    (sub : ∀ f ∈ ([Reg.FAULT_CONTAINED_COUNT.COUNT, Reg.FAULT_CORRECTED_COUNT.COUNT, Reg.FAULT_FATAL_COUNT.COUNT, Reg.FAULT_SUSPECT_COUNT.COUNT] : List Field), f.key ∈ ff.map Field.key) :
    RegsFrame o (s.inc (classCounter c)) ff gf := by
  unfold classCounter
  split
  · exact h0.inc (sub _ (by simp))
  · exact h0.inc (sub _ (by simp))
  · exact h0.inc (sub _ (by simp))
  · exact h0.inc (sub _ (by simp))

theorem tileSuspect_sameRegs (s : State) (n : Nat) : (tileSuspect s n).regs = s.regs := by
  unfold tileSuspect; dsimp only
  split
  · rfl
  · generalize List.filter _ _ = l
    rw [show s.regs = ({ s with jig := { s.jig with held := s.jig.held.map fun (d : DoneTask) =>
      if d.tile = n ∧ !d.outs.isEmpty then { d with replay := true } else d } } : State).regs from rfl]
    generalize ({ s with jig := _ } : State) = u
    induction l generalizing u with
    | nil => rfl
    | cons p l ih =>
      rw [List.foldl_cons, ih]
      split <;> rfl

theorem settleSuspects_only {o : State} {ff : List Field} {gf : List (Nat → Field)} (old new : State) (h0 : RegsFrame o new ff gf) :
    RegsFrame o (settleSuspects old new) ff gf := by
  refine h0.trans (RegsFrame.of_regs ?_)
  unfold settleSuspects
  generalize List.range new.tiles = l
  induction l generalizing new with
  | nil => rfl
  | cons p l ih =>
    rw [List.foldl_cons, ih]
    · split
      · exact tileSuspect_sameRegs _ _
      · rfl
    · split
      · exact h0.trans (RegsFrame.of_regs (tileSuspect_sameRegs _ _))
      · exact h0

theorem chargeSlot_only {o : State} {ff : List Field} {gf : List (Nat → Field)} (s : State) (i : Nat) (h0 : RegsFrame o s ff gf)
    (sub : ∀ f ∈ ([Reg.SEC_BOOT_ATTEMPTS.A_EXCLUDED, Reg.SEC_BOOT_ATTEMPTS.A_FAILS, Reg.SEC_BOOT_ATTEMPTS.B_EXCLUDED, Reg.SEC_BOOT_ATTEMPTS.B_FAILS] : List Field), f.key ∈ ff.map Field.key)
    (subg : ∀ g ∈ ([] : List (Nat → Field)), g ∈ gf) : RegsFrame o (chargeSlot s i) ff gf := by
  refine RegsFrame.via h0 ?_ sub subg; clear h0 sub subg; unfold chargeSlot; (try dsimp only)
  repeat' first | with_reducible exact RegsFrame.refl _ _ _ | with_reducible refine RegsFrame.set ?_ (by decide) _ | with_reducible refine RegsFrame.inc ?_ (by decide) | exact fun _ h => List.mem_map_of_mem h | exact fun _ h => List.mem_map_of_mem (List.mem_append_left _ h) | with_reducible refine RegsFrame.sub_append ?_ ?_ | exact (by decide) | exact List.forall_mem_nil _ | exact List.forall_mem_nil _ | exact fun _ h => h | exact fun _ h => List.mem_append_left _ h | (with_reducible intro g hg; simp only [detectFamilies, List.mem_append, List.mem_cons, List.not_mem_nil, or_false] at hg ⊢; tauto) | split | simp only [RegsFrame.mk_iff] | with_reducible exact RegsFrame.of_regs rfl | dsimp only

theorem startFailed_only {o : State} {ff : List Field} {gf : List (Nat → Field)} (s : State) (h0 : RegsFrame o s ff gf)
    (sub : ∀ f ∈ ([Reg.CONFIG_SWITCH_STATUS.PHASE, Reg.CONFIG_SWITCH_STATUS.RESULT, Reg.FRAME_SPEC_DISCARDS.DISCARDS, Reg.FRAME_SPEC_EPOCH.EPOCH, Reg.FRAME_STATUS.FRAME_ACTIVE, Reg.FRAME_STATUS.SHADOW, Reg.SAFE_MODE.RESTARTS, Reg.SEC_BOOT_ATTEMPTS.A_EXCLUDED, Reg.SEC_BOOT_ATTEMPTS.A_FAILS, Reg.SEC_BOOT_ATTEMPTS.B_EXCLUDED, Reg.SEC_BOOT_ATTEMPTS.B_FAILS, Reg.SEC_BOOT_ATTEMPTS.WARM_FAILS, Reg.SEC_BOOT_STATUS.STATE, Reg.SEC_BOOT_STATUS.STEP, Reg.SEC_BOOT_STATUS.WARM, Reg.SEC_RESTART_COUNT.COUNT, Reg.TENON_SQUASH_SENT.COUNT] : List Field), f.key ∈ ff.map Field.key)
    (subg : ∀ g ∈ ([Reg.TENON_LINK_CREDITS.SHARED, Reg.TENON_LINK_CREDITS.VC0, Reg.TENON_LINK_CREDITS.VC1, Reg.TENON_LINK_CREDITS.VC2, Reg.TENON_LINK_CREDITS.VC3] : List (Nat → Field)), g ∈ gf) : RegsFrame o (startFailed s) ff gf := by
  refine RegsFrame.via h0 ?_ sub subg; clear h0 sub subg; unfold startFailed; (try dsimp only)
  repeat' first | with_reducible exact RegsFrame.refl _ _ _ | with_reducible refine RegsFrame.set ?_ (by decide) _ | with_reducible apply chargeSlot_only | with_reducible apply restartAs_only | exact fun _ h => List.mem_map_of_mem h | exact fun _ h => List.mem_map_of_mem (List.mem_append_left _ h) | with_reducible refine RegsFrame.sub_append ?_ ?_ | exact (by decide) | exact List.forall_mem_nil _ | exact List.forall_mem_nil _ | exact fun _ h => h | exact fun _ h => List.mem_append_left _ h | (with_reducible intro g hg; simp only [detectFamilies, List.mem_append, List.mem_cons, List.not_mem_nil, or_false] at hg ⊢; tauto) | split | simp only [RegsFrame.mk_iff] | with_reducible exact RegsFrame.of_regs rfl | dsimp only

theorem enterSafe_only {o : State} {ff : List Field} {gf : List (Nat → Field)} (s : State) (h0 : RegsFrame o s ff gf)
    (sub : ∀ f ∈ ([Reg.CONFIG_SLOT_ACTIVE.ACCEPTS, Reg.CONFIG_SWITCH_STATUS.PHASE, Reg.CONFIG_SWITCH_STATUS.RESULT, Reg.FRAME_SPEC_DISCARDS.DISCARDS, Reg.FRAME_SPEC_EPOCH.EPOCH, Reg.FRAME_STATUS.FRAME_ACTIVE, Reg.FRAME_STATUS.SHADOW, Reg.SAFE_ENTRY_COUNT.COUNT, Reg.SAFE_MODE.MODE, Reg.SAFE_MODE.RESTARTS, Reg.SAFE_STOP_COUNT.COUNT, Reg.SAFE_WINDOW.MAP, Reg.SEC_BOOT_STATUS.STATE, Reg.SEC_BOOT_STATUS.STEP, Reg.SEC_BOOT_STATUS.WARM, Reg.SEC_RESTART_COUNT.COUNT, Reg.TENON_SQUASH_SENT.COUNT] : List Field), f.key ∈ ff.map Field.key)
    (subg : ∀ g ∈ ([Reg.TENON_LINK_CREDITS.SHARED, Reg.TENON_LINK_CREDITS.VC0, Reg.TENON_LINK_CREDITS.VC1, Reg.TENON_LINK_CREDITS.VC2, Reg.TENON_LINK_CREDITS.VC3] : List (Nat → Field)), g ∈ gf) : RegsFrame o (enterSafe s) ff gf := by
  refine RegsFrame.via h0 ?_ sub subg; clear h0 sub subg; unfold enterSafe; (try dsimp only)
  repeat' first | with_reducible exact RegsFrame.refl _ _ _ | with_reducible refine RegsFrame.set ?_ (by decide) _ | with_reducible refine RegsFrame.inc ?_ (by decide) | with_reducible apply beginRestart_only | with_reducible apply setMode_only | exact fun _ h => List.mem_map_of_mem h | exact fun _ h => List.mem_map_of_mem (List.mem_append_left _ h) | with_reducible refine RegsFrame.sub_append ?_ ?_ | exact (by decide) | exact List.forall_mem_nil _ | exact List.forall_mem_nil _ | exact fun _ h => h | exact fun _ h => List.mem_append_left _ h | (with_reducible intro g hg; simp only [detectFamilies, List.mem_append, List.mem_cons, List.not_mem_nil, or_false] at hg ⊢; tauto) | split | simp only [RegsFrame.mk_iff] | with_reducible exact RegsFrame.of_regs rfl | dsimp only

theorem publishEntry_only {o : State} {ff : List Field} {gf : List (Nat → Field)} (s : State) (k : Nat) (h0 : RegsFrame o s ff gf)
    (sub : ∀ f ∈ ([Reg.SAFE_SP_CLIPPED.COUNT, Reg.SAFE_SP_STATUS.GENERATION, Reg.SAFE_SP_SWAPS.COUNT] : List Field), f.key ∈ ff.map Field.key)
    (subg : ∀ g ∈ ([] : List (Nat → Field)), g ∈ gf) : RegsFrame o (publishEntry s k) ff gf := by
  refine RegsFrame.via h0 ?_ sub subg; clear h0 sub subg; unfold publishEntry; (try dsimp only)
  repeat' first | with_reducible exact RegsFrame.refl _ _ _ | with_reducible apply publishHold_only | with_reducible apply publishTraj_only | exact fun _ h => List.mem_map_of_mem h | exact fun _ h => List.mem_map_of_mem (List.mem_append_left _ h) | with_reducible refine RegsFrame.sub_append ?_ ?_ | exact (by decide) | exact List.forall_mem_nil _ | exact List.forall_mem_nil _ | exact fun _ h => h | exact fun _ h => List.mem_append_left _ h | (with_reducible intro g hg; simp only [detectFamilies, List.mem_append, List.mem_cons, List.not_mem_nil, or_false] at hg ⊢; tauto) | split | simp only [RegsFrame.mk_iff] | with_reducible exact RegsFrame.of_regs rfl | dsimp only

theorem enterNow_only {o : State} {ff : List Field} {gf : List (Nat → Field)} (s : State) (h0 : RegsFrame o s ff gf)
    (sub : ∀ f ∈ ([Reg.CONFIG_SLOT_ACTIVE.ACCEPTS, Reg.CONFIG_SWITCH_STATUS.PHASE, Reg.CONFIG_SWITCH_STATUS.RESULT, Reg.FRAME_SPEC_DISCARDS.DISCARDS, Reg.FRAME_SPEC_EPOCH.EPOCH, Reg.FRAME_STATUS.FRAME_ACTIVE, Reg.FRAME_STATUS.SHADOW, Reg.SAFE_ENTRY_COUNT.COUNT, Reg.SAFE_FB_REMAIN.MS, Reg.SAFE_MODE.ARMED, Reg.SAFE_MODE.MODE, Reg.SAFE_MODE.RESTARTS, Reg.SAFE_SP_CLIPPED.COUNT, Reg.SAFE_SP_STATUS.GENERATION, Reg.SAFE_SP_SWAPS.COUNT, Reg.SAFE_STOP_COUNT.COUNT, Reg.SAFE_VERDICT.SHADOW, Reg.SAFE_VERDICT.VERDICT, Reg.SAFE_VERDICT_EPOCH.EPOCH, Reg.SAFE_WINDOW.MAP, Reg.SEC_BOOT_STATUS.STATE, Reg.SEC_BOOT_STATUS.STEP, Reg.SEC_BOOT_STATUS.WARM, Reg.SEC_RESTART_COUNT.COUNT, Reg.TENON_SQUASH_SENT.COUNT] : List Field), f.key ∈ ff.map Field.key)
    (subg : ∀ g ∈ ([Reg.TENON_LINK_CREDITS.SHARED, Reg.TENON_LINK_CREDITS.VC0, Reg.TENON_LINK_CREDITS.VC1, Reg.TENON_LINK_CREDITS.VC2, Reg.TENON_LINK_CREDITS.VC3] : List (Nat → Field)), g ∈ gf) : RegsFrame o (enterNow s) ff gf := by
  refine RegsFrame.via h0 ?_ sub subg; clear h0 sub subg; unfold enterNow; (try dsimp only)
  repeat' first | with_reducible exact RegsFrame.refl _ _ _ | with_reducible refine RegsFrame.set ?_ (by decide) _ | with_reducible apply armedStatus_only | with_reducible apply enterSafe_only | with_reducible apply publishEntry_only | exact fun _ h => List.mem_map_of_mem h | exact fun _ h => List.mem_map_of_mem (List.mem_append_left _ h) | with_reducible refine RegsFrame.sub_append ?_ ?_ | exact (by decide) | exact List.forall_mem_nil _ | exact List.forall_mem_nil _ | exact fun _ h => h | exact fun _ h => List.mem_append_left _ h | (with_reducible intro g hg; simp only [detectFamilies, List.mem_append, List.mem_cons, List.not_mem_nil, or_false] at hg ⊢; tauto) | split | simp only [RegsFrame.mk_iff] | with_reducible exact RegsFrame.of_regs rfl | dsimp only

theorem permanentFault_only {o : State} {ff : List Field} {gf : List (Nat → Field)} (s : State) (h0 : RegsFrame o s ff gf)
    (sub : ∀ f ∈ ([Reg.SAFE_MODE.ISLAND_FAULT, Reg.SAFE_MODE.MODE, Reg.SAFE_SP_CLIPPED.COUNT, Reg.SAFE_SP_STATUS.GENERATION, Reg.SAFE_SP_SWAPS.COUNT, Reg.SAFE_STOP_COUNT.COUNT] : List Field), f.key ∈ ff.map Field.key)
    (subg : ∀ g ∈ ([] : List (Nat → Field)), g ∈ gf) : RegsFrame o (permanentFault s) ff gf := by
  refine RegsFrame.via h0 ?_ sub subg; clear h0 sub subg; unfold permanentFault; (try dsimp only)
  repeat' first | with_reducible exact RegsFrame.refl _ _ _ | with_reducible refine RegsFrame.set ?_ (by decide) _ | with_reducible apply publishHold_only | with_reducible apply setMode_only | exact fun _ h => List.mem_map_of_mem h | exact fun _ h => List.mem_map_of_mem (List.mem_append_left _ h) | with_reducible refine RegsFrame.sub_append ?_ ?_ | exact (by decide) | exact List.forall_mem_nil _ | exact List.forall_mem_nil _ | exact fun _ h => h | exact fun _ h => List.mem_append_left _ h | (with_reducible intro g hg; simp only [detectFamilies, List.mem_append, List.mem_cons, List.not_mem_nil, or_false] at hg ⊢; tauto) | split | simp only [RegsFrame.mk_iff] | with_reducible exact RegsFrame.of_regs rfl | dsimp only

theorem makeSuspect_only {o : State} {ff : List Field} {gf : List (Nat → Field)} (s : State) (cls idx : Nat) (h0 : RegsFrame o s ff gf)
    (sub : ∀ f ∈ ([Reg.ORDER_STATUS.SUSPECT, Reg.SOLVER_STATUS.GOOD, Reg.SOLVER_STATUS.SUSPECT] : List Field), f.key ∈ ff.map Field.key)
    (subg : ∀ g ∈ ([Reg.TILE_BIND.STATE] : List (Nat → Field)), g ∈ gf) : RegsFrame o (makeSuspect s cls idx) ff gf := by
  refine RegsFrame.via h0 ?_ sub subg; clear h0 sub subg; unfold makeSuspect; (try dsimp only)
  repeat' first | with_reducible exact RegsFrame.refl _ _ _ | with_reducible apply setUnit_only | with_reducible apply showUnit_only | exact fun _ h => List.mem_map_of_mem h | exact fun _ h => List.mem_map_of_mem (List.mem_append_left _ h) | with_reducible refine RegsFrame.sub_append ?_ ?_ | exact (by decide) | exact List.forall_mem_nil _ | exact List.forall_mem_nil _ | exact fun _ h => h | exact fun _ h => List.mem_append_left _ h | (with_reducible intro g hg; simp only [detectFamilies, List.mem_append, List.mem_cons, List.not_mem_nil, or_false] at hg ⊢; tauto) | split | simp only [RegsFrame.mk_iff] | with_reducible exact RegsFrame.of_regs rfl | dsimp only

theorem issueRecord_only {o : State} {ff : List Field} {gf : List (Nat → Field)} (s : State) (h : Handling) (test : Nat) (h0 : RegsFrame o s ff gf)
    (sub : ∀ f ∈ ([Reg.FAULT_LOG_NEXT.OFFSET, Reg.FAULT_RECORD_LOST.COUNT, Reg.FAULT_RECORD_SEQ.SEQ, Reg.FAULT_STATUS.LOG_ERROR, Reg.FAULT_STATUS.RECORD_LOST, Reg.PWR_CORE.AMPS, Reg.PWR_CORE.MV, Reg.PWR_POWER.BUCKET_MJ, Reg.PWR_POWER.WATTS, Reg.PWR_TJ.TJ] : List Field), f.key ∈ ff.map Field.key)
    (subg : ∀ g ∈ ([] : List (Nat → Field)), g ∈ gf) : RegsFrame o (issueRecord s h test) ff gf := by
  refine RegsFrame.via h0 ?_ sub subg; clear h0 sub subg; unfold issueRecord; (try dsimp only)
  repeat' first | with_reducible exact RegsFrame.refl _ _ _ | with_reducible refine RegsFrame.set ?_ (by decide) _ | with_reducible refine RegsFrame.inc ?_ (by decide) | with_reducible refine RegsFrame.draw ?_ _ | with_reducible apply sense_only | exact fun _ h => List.mem_map_of_mem h | exact fun _ h => List.mem_map_of_mem (List.mem_append_left _ h) | with_reducible refine RegsFrame.sub_append ?_ ?_ | exact (by decide) | exact List.forall_mem_nil _ | exact List.forall_mem_nil _ | exact fun _ h => h | exact fun _ h => List.mem_append_left _ h | (with_reducible intro g hg; simp only [detectFamilies, List.mem_append, List.mem_cons, List.not_mem_nil, or_false] at hg ⊢; tauto) | split | simp only [RegsFrame.mk_iff] | with_reducible exact RegsFrame.of_regs rfl | dsimp only

theorem closeError_only {o : State} {ff : List Field} {gf : List (Nat → Field)} (s : State) (h : Handling) (test : Nat) (h0 : RegsFrame o s ff gf)
    (sub : ∀ f ∈ ([Reg.FAULT_CONTAINED_COUNT.COUNT, Reg.FAULT_CORRECTED_COUNT.COUNT, Reg.FAULT_FATAL_COUNT.COUNT, Reg.FAULT_LOG_NEXT.OFFSET, Reg.FAULT_RECORD_LOST.COUNT, Reg.FAULT_RECORD_SEQ.SEQ, Reg.FAULT_STATUS.LOG_ERROR, Reg.FAULT_STATUS.RECORD_LOST, Reg.FAULT_SUSPECT_COUNT.COUNT, Reg.PWR_CORE.AMPS, Reg.PWR_CORE.MV, Reg.PWR_POWER.BUCKET_MJ, Reg.PWR_POWER.WATTS, Reg.PWR_TJ.TJ] : List Field), f.key ∈ ff.map Field.key)
    (subg : ∀ g ∈ ([] : List (Nat → Field)), g ∈ gf) : RegsFrame o (closeError s h test) ff gf := by
  refine RegsFrame.via h0 ?_ sub subg; clear h0 sub subg; unfold closeError; (try dsimp only)
  repeat' first | with_reducible exact RegsFrame.refl _ _ _ | with_reducible refine RegsFrame.inc ?_ (by decide) | with_reducible apply classCounter_inc | with_reducible apply issueRecord_only | exact fun _ h => List.mem_map_of_mem h | exact fun _ h => List.mem_map_of_mem (List.mem_append_left _ h) | with_reducible refine RegsFrame.sub_append ?_ ?_ | exact (by decide) | exact List.forall_mem_nil _ | exact List.forall_mem_nil _ | exact fun _ h => h | exact fun _ h => List.mem_append_left _ h | (with_reducible intro g hg; simp only [detectFamilies, List.mem_append, List.mem_cons, List.not_mem_nil, or_false] at hg ⊢; tauto) | split | simp only [RegsFrame.mk_iff] | with_reducible exact RegsFrame.of_regs rfl | dsimp only

theorem chargeUnit_only {o : State} {ff : List Field} {gf : List (Nat → Field)} (s : State) (e : ErrorInfo) (h0 : RegsFrame o s ff gf) : RegsFrame o (chargeUnit s e) ff gf :=
  h0.trans (RegsFrame.of_regs (by simp))

theorem actFatal_only {o : State} {ff : List Field} {gf : List (Nat → Field)} (s : State) (e : ErrorInfo) (h0 : RegsFrame o s ff gf)
    (sub : ∀ f ∈ ([Reg.CONFIG_SLOT_ACTIVE.ACCEPTS, Reg.CONFIG_SWITCH_STATUS.PHASE, Reg.CONFIG_SWITCH_STATUS.RESULT, Reg.FAULT_LAST_FATAL.CLASS, Reg.FAULT_LAST_FATAL.INDEX, Reg.FAULT_LAST_FATAL.MECHANISM, Reg.FRAME_SPEC_DISCARDS.DISCARDS, Reg.FRAME_SPEC_EPOCH.EPOCH, Reg.FRAME_STATUS.FRAME_ACTIVE, Reg.FRAME_STATUS.SHADOW, Reg.SAFE_ENTRY_COUNT.COUNT, Reg.SAFE_FB_REMAIN.MS, Reg.SAFE_MODE.ARMED, Reg.SAFE_MODE.MODE, Reg.SAFE_MODE.RESTARTS, Reg.SAFE_SP_CLIPPED.COUNT, Reg.SAFE_SP_STATUS.GENERATION, Reg.SAFE_SP_SWAPS.COUNT, Reg.SAFE_STOP_COUNT.COUNT, Reg.SAFE_VERDICT.SHADOW, Reg.SAFE_VERDICT.VERDICT, Reg.SAFE_VERDICT_EPOCH.EPOCH, Reg.SAFE_WINDOW.MAP, Reg.SEC_BOOT_ATTEMPTS.A_EXCLUDED, Reg.SEC_BOOT_ATTEMPTS.A_FAILS, Reg.SEC_BOOT_ATTEMPTS.B_EXCLUDED, Reg.SEC_BOOT_ATTEMPTS.B_FAILS, Reg.SEC_BOOT_ATTEMPTS.WARM_FAILS, Reg.SEC_BOOT_STATUS.STATE, Reg.SEC_BOOT_STATUS.STEP, Reg.SEC_BOOT_STATUS.WARM, Reg.SEC_RESTART_COUNT.COUNT, Reg.TENON_SQUASH_SENT.COUNT] : List Field), f.key ∈ ff.map Field.key)
    (subg : ∀ g ∈ ([Reg.TENON_LINK_CREDITS.SHARED, Reg.TENON_LINK_CREDITS.VC0, Reg.TENON_LINK_CREDITS.VC1, Reg.TENON_LINK_CREDITS.VC2, Reg.TENON_LINK_CREDITS.VC3] : List (Nat → Field)), g ∈ gf) : RegsFrame o (actFatal s e) ff gf := by
  refine RegsFrame.via h0 ?_ sub subg; clear h0 sub subg; unfold actFatal; (try dsimp only)
  repeat' first | with_reducible exact RegsFrame.refl _ _ _ | with_reducible refine RegsFrame.set ?_ (by decide) _ | with_reducible apply enterNow_only | with_reducible apply startFailed_only | exact fun _ h => List.mem_map_of_mem h | exact fun _ h => List.mem_map_of_mem (List.mem_append_left _ h) | with_reducible refine RegsFrame.sub_append ?_ ?_ | exact (by decide) | exact List.forall_mem_nil _ | exact List.forall_mem_nil _ | exact fun _ h => h | exact fun _ h => List.mem_append_left _ h | (with_reducible intro g hg; simp only [detectFamilies, List.mem_append, List.mem_cons, List.not_mem_nil, or_false] at hg ⊢; tauto) | split | simp only [RegsFrame.mk_iff] | with_reducible exact RegsFrame.of_regs rfl | dsimp only

theorem showHandler_only {o : State} {ff : List Field} {gf : List (Nat → Field)} (s : State) (h0 : RegsFrame o s ff gf)
    (sub : ∀ f ∈ ([Reg.FAULT_STATUS.HANDLING, Reg.FAULT_STATUS.QUEUE] : List Field), f.key ∈ ff.map Field.key)
    (subg : ∀ g ∈ ([] : List (Nat → Field)), g ∈ gf) : RegsFrame o (showHandler s) ff gf := by
  refine RegsFrame.via h0 ?_ sub subg; clear h0 sub subg; unfold showHandler; (try dsimp only)
  repeat' first | with_reducible exact RegsFrame.refl _ _ _ | with_reducible refine RegsFrame.set ?_ (by decide) _ | exact fun _ h => List.mem_map_of_mem h | exact fun _ h => List.mem_map_of_mem (List.mem_append_left _ h) | with_reducible refine RegsFrame.sub_append ?_ ?_ | exact (by decide) | exact List.forall_mem_nil _ | exact List.forall_mem_nil _ | exact fun _ h => h | exact fun _ h => List.mem_append_left _ h | (with_reducible intro g hg; simp only [detectFamilies, List.mem_append, List.mem_cons, List.not_mem_nil, or_false] at hg ⊢; tauto) | split | simp only [RegsFrame.mk_iff] | with_reducible exact RegsFrame.of_regs rfl | dsimp only

theorem detect_only {o : State} {ff : List Field} {gf : List (Nat → Field)} (s : State) (e : ErrorInfo) (h0 : RegsFrame o s ff gf)
    (sub : ∀ f ∈ (detectFields : List Field), f.key ∈ ff.map Field.key)
    (subg : ∀ g ∈ (detectFamilies : List (Nat → Field)), g ∈ gf) : RegsFrame o (detect s e) ff gf := by
  refine RegsFrame.via h0 ?_ sub subg; clear h0 sub subg; unfold detect; (try dsimp only)
  repeat' first | with_reducible exact RegsFrame.refl _ _ _ | with_reducible refine RegsFrame.inc ?_ (by decide) | with_reducible apply actFatal_only | with_reducible apply chargeUnit_only | with_reducible apply closeError_only | with_reducible apply makeSuspect_only | with_reducible apply showHandler_only | exact fun _ h => List.mem_map_of_mem h | exact fun _ h => List.mem_map_of_mem (List.mem_append_left _ h) | with_reducible refine RegsFrame.sub_append ?_ ?_ | exact (by decide) | exact List.forall_mem_nil _ | exact List.forall_mem_nil _ | exact fun _ h => h | exact fun _ h => List.mem_append_left _ h | (with_reducible intro g hg; simp only [detectFamilies, List.mem_append, List.mem_cons, List.not_mem_nil, or_false] at hg ⊢; tauto) | split | simp only [RegsFrame.mk_iff] | with_reducible exact RegsFrame.of_regs rfl | dsimp only

theorem detectPermanent_only {o : State} {ff : List Field} {gf : List (Nat → Field)} (s : State) (e : ErrorInfo) (h0 : RegsFrame o s ff gf)
    (sub : ∀ f ∈ (detectFields : List Field), f.key ∈ ff.map Field.key)
    (subg : ∀ g ∈ (detectFamilies : List (Nat → Field)), g ∈ gf) : RegsFrame o (detectPermanent s e) ff gf := by
  refine RegsFrame.via h0 ?_ sub subg; clear h0 sub subg; unfold detectPermanent; (try dsimp only)
  repeat' first | with_reducible exact RegsFrame.refl _ _ _ | with_reducible apply detect_only | with_reducible apply makeSuspect_only | exact fun _ h => List.mem_map_of_mem h | exact fun _ h => List.mem_map_of_mem (List.mem_append_left _ h) | with_reducible refine RegsFrame.sub_append ?_ ?_ | exact (by decide) | exact List.forall_mem_nil _ | exact List.forall_mem_nil _ | exact fun _ h => h | exact fun _ h => List.mem_append_left _ h | (with_reducible intro g hg; simp only [detectFamilies, List.mem_append, List.mem_cons, List.not_mem_nil, or_false] at hg ⊢; tauto) | split | simp only [RegsFrame.mk_iff] | with_reducible exact RegsFrame.of_regs rfl | dsimp only

theorem closeLedger_only {o : State} {ff : List Field} {gf : List (Nat → Field)} (s : State) (img : Image) (b : List Byte) (e : Epoch) (all : Bool) (h0 : RegsFrame o s ff gf)
    (sub : ∀ f ∈ ([Reg.LEDGER_APPLY_CYCLES.CYCLES, Reg.LEDGER_CLOSED_EPOCH.EPOCH, Reg.LEDGER_STALE_RECORDS.STALE, Reg.LEDGER_STATUS.PHASE, Reg.LEDGER_STATUS.STALE_PRESENT, Reg.LEDGER_TOUCHED.TOUCHED, Reg.LEDGER_TRANSITIONS.TRANSITIONS, Reg.LEDGER_UPDATES.UPDATES] : List Field), f.key ∈ ff.map Field.key)
    (subg : ∀ g ∈ ([] : List (Nat → Field)), g ∈ gf) : RegsFrame o (closeLedger s img b e all) ff gf := by
  refine RegsFrame.via h0 ?_ sub subg; clear h0 sub subg; unfold closeLedger; (try dsimp only)
  repeat' first | with_reducible exact RegsFrame.refl _ _ _ | with_reducible refine RegsFrame.set ?_ (by decide) _ | with_reducible refine RegsFrame.foldl (fun _ _ => ?_) ?_ | with_reducible refine RegsFrame.foldl_fst (fun _ _ => ?_) ?_ | with_reducible refine RegsFrame.foldl_snd (fun _ _ => ?_) ?_ | exact fun _ h => List.mem_map_of_mem h | exact fun _ h => List.mem_map_of_mem (List.mem_append_left _ h) | with_reducible refine RegsFrame.sub_append ?_ ?_ | exact (by decide) | exact List.forall_mem_nil _ | exact List.forall_mem_nil _ | exact fun _ h => h | exact fun _ h => List.mem_append_left _ h | (with_reducible intro g hg; simp only [detectFamilies, List.mem_append, List.mem_cons, List.not_mem_nil, or_false] at hg ⊢; tauto) | split | simp only [RegsFrame.mk_iff] | with_reducible exact RegsFrame.of_regs rfl | dsimp only

theorem rebuildLedger_only {o : State} {ff : List Field} {gf : List (Nat → Field)} (s : State) (img : Image) (b : List Byte) (e : Epoch) (cause : Nat) (h0 : RegsFrame o s ff gf)
    (sub : ∀ f ∈ ([Reg.LEDGER_APPLY_CYCLES.CYCLES, Reg.LEDGER_CLOSED_EPOCH.EPOCH, Reg.LEDGER_QUEUE_DEPTH.DEPTH, Reg.LEDGER_REBUILD_CAUSE.CAUSE, Reg.LEDGER_REBUILD_COUNT.REBUILDS, Reg.LEDGER_STALE_RECORDS.STALE, Reg.LEDGER_STATUS.PHASE, Reg.LEDGER_STATUS.REBUILD_PENDING, Reg.LEDGER_STATUS.STALE_PRESENT, Reg.LEDGER_TOUCHED.TOUCHED, Reg.LEDGER_TRANSITIONS.TRANSITIONS, Reg.LEDGER_UPDATES.UPDATES] : List Field), f.key ∈ ff.map Field.key)
    (subg : ∀ g ∈ ([] : List (Nat → Field)), g ∈ gf) : RegsFrame o (rebuildLedger s img b e cause) ff gf := by
  refine RegsFrame.via h0 ?_ sub subg; clear h0 sub subg; unfold rebuildLedger; (try dsimp only)
  repeat' first | with_reducible exact RegsFrame.refl _ _ _ | with_reducible refine RegsFrame.set ?_ (by decide) _ | with_reducible refine RegsFrame.inc ?_ (by decide) | with_reducible apply closeLedger_only | with_reducible apply showPending_only | exact fun _ h => List.mem_map_of_mem h | exact fun _ h => List.mem_map_of_mem (List.mem_append_left _ h) | with_reducible refine RegsFrame.sub_append ?_ ?_ | exact (by decide) | exact List.forall_mem_nil _ | exact List.forall_mem_nil _ | exact fun _ h => h | exact fun _ h => List.mem_append_left _ h | (with_reducible intro g hg; simp only [detectFamilies, List.mem_append, List.mem_cons, List.not_mem_nil, or_false] at hg ⊢; tauto) | split | simp only [RegsFrame.mk_iff] | with_reducible exact RegsFrame.of_regs rfl | dsimp only

theorem scheduleShift_only {o : State} {ff : List Field} {gf : List (Nat → Field)} (s : State) (e : Epoch) (h0 : RegsFrame o s ff gf)
    (sub : ∀ f ∈ ([Reg.LEDGER_SHIFT_XY.SX, Reg.LEDGER_SHIFT_XY.SY, Reg.LEDGER_SHIFT_Z.SZ, Reg.LEDGER_STATUS.REBUILD_PENDING] : List Field), f.key ∈ ff.map Field.key)
    (subg : ∀ g ∈ ([] : List (Nat → Field)), g ∈ gf) : RegsFrame o (scheduleShift s e) ff gf := by
  refine RegsFrame.via h0 ?_ sub subg; clear h0 sub subg; unfold scheduleShift; (try dsimp only)
  repeat' first | with_reducible exact RegsFrame.refl _ _ _ | with_reducible apply showPending_only | with_reducible apply showShift_only | exact fun _ h => List.mem_map_of_mem h | exact fun _ h => List.mem_map_of_mem (List.mem_append_left _ h) | with_reducible refine RegsFrame.sub_append ?_ ?_ | exact (by decide) | exact List.forall_mem_nil _ | exact List.forall_mem_nil _ | exact fun _ h => h | exact fun _ h => List.mem_append_left _ h | (with_reducible intro g hg; simp only [detectFamilies, List.mem_append, List.mem_cons, List.not_mem_nil, or_false] at hg ⊢; tauto) | split | simp only [RegsFrame.mk_iff] | with_reducible exact RegsFrame.of_regs rfl | dsimp only

theorem setSpec_only {o : State} {ff : List Field} {gf : List (Nat → Field)} (s : State) (x : SpecEp) (h0 : RegsFrame o s ff gf) : RegsFrame o (State.setSpec s x) ff gf :=
  h0.trans (RegsFrame.of_regs (by simp))

theorem offerRecord_only {o : State} {ff : List Field} {gf : List (Nat → Field)} (s : State) (img : Image) (tile : Nat) (r : SweepRec) (h0 : RegsFrame o s ff gf)
    (sub : ∀ f ∈ (detectFields ++ [Reg.ORDER_CONFLICT_COUNT.CONFLICTS, Reg.ORDER_STATUS.SCORE_CONFLICT] : List Field), f.key ∈ ff.map Field.key)
    (subg : ∀ g ∈ (detectFamilies : List (Nat → Field)), g ∈ gf) : RegsFrame o (offerRecord s img tile r) ff gf := by
  refine RegsFrame.via h0 ?_ sub subg; clear h0 sub subg; unfold offerRecord; (try dsimp only)
  repeat' first | with_reducible exact RegsFrame.refl _ _ _ | with_reducible refine RegsFrame.set ?_ (by decide) _ | with_reducible refine RegsFrame.inc ?_ (by decide) | with_reducible apply detect_only | exact fun _ h => List.mem_map_of_mem h | exact fun _ h => List.mem_map_of_mem (List.mem_append_left _ h) | with_reducible refine RegsFrame.sub_append ?_ ?_ | exact (by decide) | exact List.forall_mem_nil _ | exact List.forall_mem_nil _ | exact fun _ h => h | exact fun _ h => List.mem_append_left _ h | (with_reducible intro g hg; simp only [detectFamilies, List.mem_append, List.mem_cons, List.not_mem_nil, or_false] at hg ⊢; tauto) | split | simp only [RegsFrame.mk_iff] | with_reducible exact RegsFrame.of_regs rfl | dsimp only

theorem sendBlock_only {o : State} {ff : List Field} {gf : List (Nat → Field)} (s : State) (img : Image) (e : Epoch) (spec : Bool) (b : Block) (h0 : RegsFrame o s ff gf)
    (sub : ∀ f ∈ ([] : List Field), f.key ∈ ff.map Field.key)
    (subg : ∀ g ∈ ([Reg.TENON_LINK_CREDITS.SHARED, Reg.TENON_LINK_CREDITS.VC0, Reg.TENON_LINK_CREDITS.VC1, Reg.TENON_LINK_CREDITS.VC2, Reg.TENON_LINK_CREDITS.VC3] : List (Nat → Field)), g ∈ gf) : RegsFrame o (sendBlock s img e spec b) ff gf := by
  refine RegsFrame.via h0 ?_ sub subg; clear h0 sub subg; unfold sendBlock; (try dsimp only)
  repeat' first | with_reducible exact RegsFrame.refl _ _ _ | with_reducible refine RegsFrame.foldl (fun _ _ => ?_) ?_ | with_reducible refine RegsFrame.foldl_fst (fun _ _ => ?_) ?_ | with_reducible refine RegsFrame.foldl_snd (fun _ _ => ?_) ?_ | with_reducible apply sendMessage_only | exact fun _ h => List.mem_map_of_mem h | exact fun _ h => List.mem_map_of_mem (List.mem_append_left _ h) | with_reducible refine RegsFrame.sub_append ?_ ?_ | exact (by decide) | exact List.forall_mem_nil _ | exact List.forall_mem_nil _ | exact fun _ h => h | exact fun _ h => List.mem_append_left _ h | (with_reducible intro g hg; simp only [detectFamilies, List.mem_append, List.mem_cons, List.not_mem_nil, or_false] at hg ⊢; tauto) | split | simp only [RegsFrame.mk_iff] | with_reducible exact RegsFrame.of_regs rfl | dsimp only

theorem releaseOutput_only {o : State} {ff : List Field} {gf : List (Nat → Field)} (img : Image) (tile stage : Nat) (s : State) (w : Output) (h0 : RegsFrame o s ff gf)
    (sub : ∀ f ∈ (detectFields ++ [Reg.ORDER_CONFLICT_COUNT.CONFLICTS, Reg.ORDER_STATUS.SCORE_CONFLICT] : List Field), f.key ∈ ff.map Field.key)
    (subg : ∀ g ∈ (detectFamilies ++ [Reg.TILE_SWEEP_STATUS.OFF_GRID, Reg.TILE_SWEEP_STATUS.POISONED_READ, Reg.TILE_SWEEP_STATUS.PRED_BEYOND, Reg.TILE_SWEEP_STATUS.SATURATED] : List (Nat → Field)), g ∈ gf) : RegsFrame o (releaseOutput img tile stage s w) ff gf := by
  refine RegsFrame.via h0 ?_ sub subg; clear h0 sub subg; unfold releaseOutput; (try dsimp only)
  repeat' first | with_reducible exact RegsFrame.refl _ _ _ | with_reducible refine RegsFrame.set ?_ (by decide) _ | with_reducible refine RegsFrame.setF (g := Reg.TILE_SWEEP_STATUS.OFF_GRID) ?_ (by simp [detectFamilies]) _ _ | with_reducible refine RegsFrame.setF (g := Reg.TILE_SWEEP_STATUS.POISONED_READ) ?_ (by simp [detectFamilies]) _ _ | with_reducible refine RegsFrame.setF (g := Reg.TILE_SWEEP_STATUS.PRED_BEYOND) ?_ (by simp [detectFamilies]) _ _ | with_reducible refine RegsFrame.setF (g := Reg.TILE_SWEEP_STATUS.SATURATED) ?_ (by simp [detectFamilies]) _ _ | with_reducible apply tally_only | with_reducible apply offerRecord_only | with_reducible apply sendBlock_only | exact fun _ h => List.mem_map_of_mem h | exact fun _ h => List.mem_map_of_mem (List.mem_append_left _ h) | with_reducible refine RegsFrame.sub_append ?_ ?_ | exact (by decide) | exact List.forall_mem_nil _ | exact List.forall_mem_nil _ | exact fun _ h => h | exact fun _ h => List.mem_append_left _ h | (with_reducible intro g hg; simp only [detectFamilies, List.mem_append, List.mem_cons, List.not_mem_nil, or_false] at hg ⊢; tauto) | split | simp only [RegsFrame.mk_iff] | with_reducible exact RegsFrame.of_regs rfl | dsimp only

theorem releaseTask_only {o : State} {ff : List Field} {gf : List (Nat → Field)} (img : Image) (s : State) (d : DoneTask) (h0 : RegsFrame o s ff gf)
    (sub : ∀ f ∈ (detectFields ++ [Reg.JIG_STATUS.TRACE_FULL, Reg.JIG_TRACE_LOST.COUNT, Reg.JIG_TRACE_WR.INDEX, Reg.JIG_TRACE_WR.WRAPS, Reg.ORDER_CONFLICT_COUNT.CONFLICTS, Reg.ORDER_STATUS.SCORE_CONFLICT] : List Field), f.key ∈ ff.map Field.key)
    (subg : ∀ g ∈ (detectFamilies ++ [Reg.TILE_SWEEP_STATUS.OFF_GRID, Reg.TILE_SWEEP_STATUS.POISONED_READ, Reg.TILE_SWEEP_STATUS.PRED_BEYOND, Reg.TILE_SWEEP_STATUS.SATURATED] : List (Nat → Field)), g ∈ gf) : RegsFrame o (releaseTask img s d) ff gf := by
  refine RegsFrame.via h0 ?_ sub subg; clear h0 sub subg; unfold releaseTask; (try dsimp only)
  repeat' first | (with_reducible refine releaseOutput_only _ _ _ _ _ ?_ ?_ ?_) | with_reducible exact RegsFrame.refl _ _ _ | with_reducible refine RegsFrame.foldl (fun _ _ => ?_) ?_ | with_reducible refine RegsFrame.foldl_fst (fun _ _ => ?_) ?_ | with_reducible refine RegsFrame.foldl_snd (fun _ _ => ?_) ?_ | with_reducible apply releaseOutput_only | with_reducible apply trace_only | exact fun _ h => List.mem_map_of_mem h | exact fun _ h => List.mem_map_of_mem (List.mem_append_left _ h) | with_reducible refine RegsFrame.sub_append ?_ ?_ | exact (by decide) | exact List.forall_mem_nil _ | exact List.forall_mem_nil _ | exact fun _ h => h | exact fun _ h => List.mem_append_left _ h | (with_reducible intro g hg; simp only [detectFamilies, List.mem_append, List.mem_cons, List.not_mem_nil, or_false] at hg ⊢; tauto) | split | simp only [RegsFrame.mk_iff] | with_reducible exact RegsFrame.of_regs rfl | dsimp only

theorem releaseFlow_only {o : State} {ff : List Field} {gf : List (Nat → Field)} (img : Image) (f : Nat) (x0 : Nat) (s : State) (h0 : RegsFrame o s ff gf)
    (sub : ∀ f ∈ (detectFields ++ [Reg.JIG_STATUS.TRACE_FULL, Reg.JIG_TRACE_LOST.COUNT, Reg.JIG_TRACE_WR.INDEX, Reg.JIG_TRACE_WR.WRAPS, Reg.ORDER_CONFLICT_COUNT.CONFLICTS, Reg.ORDER_STATUS.SCORE_CONFLICT] : List Field), f.key ∈ ff.map Field.key)
    (subg : ∀ g ∈ (detectFamilies ++ [Reg.TILE_SWEEP_STATUS.OFF_GRID, Reg.TILE_SWEEP_STATUS.POISONED_READ, Reg.TILE_SWEEP_STATUS.PRED_BEYOND, Reg.TILE_SWEEP_STATUS.SATURATED] : List (Nat → Field)), g ∈ gf) : RegsFrame o (releaseFlow img f x0 s) ff gf := by
  refine RegsFrame.via h0 ?_ sub subg; clear h0 sub subg
  induction x0 generalizing s with
  | zero => exact RegsFrame.refl _ _ _
  | succ n ih =>
    unfold releaseFlow; split
    · exact (releaseTask_only _ _ _ (RegsFrame.refl _ _ _) (fun _ h => List.mem_map_of_mem h) (fun _ h => h)).trans (ih _)
    · exact RegsFrame.refl _ _ _

theorem finishTask_only {o : State} {ff : List Field} {gf : List (Nat → Field)} (s : State) (img : Image) (id t tile : Nat) (outs : List Output) (h0 : RegsFrame o s ff gf)
    (sub : ∀ f ∈ (detectFields ++ [Reg.JIG_STATUS.TRACE_FULL, Reg.JIG_TRACE_LOST.COUNT, Reg.JIG_TRACE_WR.INDEX, Reg.JIG_TRACE_WR.WRAPS, Reg.ORDER_CONFLICT_COUNT.CONFLICTS, Reg.ORDER_STATUS.SCORE_CONFLICT] : List Field), f.key ∈ ff.map Field.key)
    (subg : ∀ g ∈ (detectFamilies ++ [Reg.TILE_SWEEP_STATUS.OFF_GRID, Reg.TILE_SWEEP_STATUS.POISONED_READ, Reg.TILE_SWEEP_STATUS.PRED_BEYOND, Reg.TILE_SWEEP_STATUS.SATURATED] : List (Nat → Field)), g ∈ gf) : RegsFrame o (finishTask s img id t tile outs) ff gf := by
  refine RegsFrame.via h0 ?_ sub subg; clear h0 sub subg; unfold finishTask; (try dsimp only)
  repeat' first | with_reducible exact RegsFrame.refl _ _ _ | with_reducible apply releaseFlow_only | exact fun _ h => List.mem_map_of_mem h | exact fun _ h => List.mem_map_of_mem (List.mem_append_left _ h) | with_reducible refine RegsFrame.sub_append ?_ ?_ | exact (by decide) | exact List.forall_mem_nil _ | exact List.forall_mem_nil _ | exact fun _ h => h | exact fun _ h => List.mem_append_left _ h | (with_reducible intro g hg; simp only [detectFamilies, List.mem_append, List.mem_cons, List.not_mem_nil, or_false] at hg ⊢; tauto) | split | simp only [RegsFrame.mk_iff] | with_reducible exact RegsFrame.of_regs rfl | dsimp only

theorem specFinish_only {o : State} {ff : List Field} {gf : List (Nat → Field)} (s : State) (y : SpecEp) (id t tile : Nat) (outs : List Output) (h0 : RegsFrame o s ff gf)
    (sub : ∀ f ∈ ([Reg.FRAME_SPEC_FULL.FULL, Reg.JIG_BACKPRESSURE.COUNT, Reg.JIG_STATUS.TRACE_FULL, Reg.JIG_TRACE_LOST.COUNT, Reg.JIG_TRACE_WR.INDEX, Reg.JIG_TRACE_WR.WRAPS] : List Field), f.key ∈ ff.map Field.key)
    (subg : ∀ g ∈ ([Reg.TENON_LINK_CREDITS.SHARED, Reg.TENON_LINK_CREDITS.VC0, Reg.TENON_LINK_CREDITS.VC1, Reg.TENON_LINK_CREDITS.VC2, Reg.TENON_LINK_CREDITS.VC3] : List (Nat → Field)), g ∈ gf) : RegsFrame o (specFinish s y id t tile outs) ff gf := by
  refine RegsFrame.via h0 ?_ sub subg; clear h0 sub subg; unfold specFinish; (try dsimp only)
  repeat' first | with_reducible exact RegsFrame.refl _ _ _ | with_reducible refine RegsFrame.inc ?_ (by decide) | with_reducible refine RegsFrame.foldl (fun _ _ => ?_) ?_ | with_reducible refine RegsFrame.foldl_fst (fun _ _ => ?_) ?_ | with_reducible refine RegsFrame.foldl_snd (fun _ _ => ?_) ?_ | with_reducible apply setSpec_only | with_reducible apply hold_only | with_reducible apply sendBlock_only | exact fun _ h => List.mem_map_of_mem h | exact fun _ h => List.mem_map_of_mem (List.mem_append_left _ h) | with_reducible refine RegsFrame.sub_append ?_ ?_ | exact (by decide) | exact List.forall_mem_nil _ | exact List.forall_mem_nil _ | exact fun _ h => h | exact fun _ h => List.mem_append_left _ h | (with_reducible intro g hg; simp only [detectFamilies, List.mem_append, List.mem_cons, List.not_mem_nil, or_false] at hg ⊢; tauto) | split | simp only [RegsFrame.mk_iff] | with_reducible exact RegsFrame.of_regs rfl | dsimp only

theorem countWork_only {o : State} {ff : List Field} {gf : List (Nat → Field)} (s : State) (img : Image) (x : Desc) (tile : Nat) (outs : List Output) (h0 : RegsFrame o s ff gf)
    (sub : ∀ f ∈ ([Reg.WORLD_SEED_INVALID.INVALID] : List Field), f.key ∈ ff.map Field.key)
    (subg : ∀ g ∈ ([Reg.TILE_CHK_SKIPPED.SKIPPED] : List (Nat → Field)), g ∈ gf) : RegsFrame o (countWork s img x tile outs) ff gf := by
  refine RegsFrame.via h0 ?_ sub subg; clear h0 sub subg; unfold countWork; (try dsimp only)
  repeat' first | with_reducible exact RegsFrame.refl _ _ _ | with_reducible refine RegsFrame.add ?_ (by decide) _ | with_reducible refine RegsFrame.addF (g := Reg.TILE_CHK_SKIPPED.SKIPPED) ?_ (by simp [detectFamilies]) _ _ | with_reducible refine RegsFrame.foldl (fun _ _ => ?_) ?_ | with_reducible refine RegsFrame.foldl_fst (fun _ _ => ?_) ?_ | with_reducible refine RegsFrame.foldl_snd (fun _ _ => ?_) ?_ | with_reducible apply tally_only | exact fun _ h => List.mem_map_of_mem h | exact fun _ h => List.mem_map_of_mem (List.mem_append_left _ h) | with_reducible refine RegsFrame.sub_append ?_ ?_ | exact (by decide) | exact List.forall_mem_nil _ | exact List.forall_mem_nil _ | exact fun _ h => h | exact fun _ h => List.mem_append_left _ h | (with_reducible intro g hg; simp only [detectFamilies, List.mem_append, List.mem_cons, List.not_mem_nil, or_false] at hg ⊢; tauto) | split | simp only [RegsFrame.mk_iff] | with_reducible exact RegsFrame.of_regs rfl | dsimp only

theorem nearMissTest_only {o : State} {ff : List Field} {gf : List (Nat → Field)} (s : State) (img : Image) (tile : Nat) (e : Epoch) (h0 : RegsFrame o s ff gf)
    (sub : ∀ f ∈ ([] : List Field), f.key ∈ ff.map Field.key)
    (subg : ∀ g ∈ ([Reg.TILE_CHK_NEAR.NEAR] : List (Nat → Field)), g ∈ gf) : RegsFrame o (nearMissTest s img tile e) ff gf := by
  refine RegsFrame.via h0 ?_ sub subg; clear h0 sub subg; unfold nearMissTest; (try dsimp only)
  repeat' first | with_reducible exact RegsFrame.refl _ _ _ | with_reducible refine RegsFrame.set ?_ (by decide) _ | with_reducible refine RegsFrame.setF (g := Reg.TILE_CHK_NEAR.NEAR) ?_ (by simp [detectFamilies]) _ _ | with_reducible apply setUnit_only | exact fun _ h => List.mem_map_of_mem h | exact fun _ h => List.mem_map_of_mem (List.mem_append_left _ h) | with_reducible refine RegsFrame.sub_append ?_ ?_ | exact (by decide) | exact List.forall_mem_nil _ | exact List.forall_mem_nil _ | exact fun _ h => h | exact fun _ h => List.mem_append_left _ h | (with_reducible intro g hg; simp only [detectFamilies, List.mem_append, List.mem_cons, List.not_mem_nil, or_false] at hg ⊢; tauto) | split | simp only [RegsFrame.mk_iff] | with_reducible exact RegsFrame.of_regs rfl | dsimp only

theorem jobUnit_only {o : State} {ff : List Field} {gf : List (Nat → Field)} (s : State) (img : Image) (p : Nat) (h0 : RegsFrame o s ff gf) : RegsFrame o (jobUnit s img p) ff gf :=
  h0.trans (RegsFrame.of_regs (by simp))

theorem flagSweep_only {o : State} {ff : List Field} {gf : List (Nat → Field)} (s : State) (img : Image) (tile t : Nat) (x : Desc) (h0 : RegsFrame o s ff gf)
    (sub : ∀ f ∈ ([Reg.JIG_BACKPRESSURE.COUNT, Reg.JIG_STATUS.PEND_READY, Reg.JIG_STATUS.TRACE_FULL, Reg.JIG_TRACE_LOST.COUNT, Reg.JIG_TRACE_WR.INDEX, Reg.JIG_TRACE_WR.WRAPS] : List Field), f.key ∈ ff.map Field.key)
    (subg : ∀ g ∈ ([Reg.TILE_JIG_STATE.READY, Reg.TILE_JIG_STATE.RUNNING] : List (Nat → Field)), g ∈ gf) : RegsFrame o (flagSweep s img tile t x) ff gf := by
  refine RegsFrame.via h0 ?_ sub subg; clear h0 sub subg; unfold flagSweep; (try dsimp only)
  repeat' first | with_reducible exact RegsFrame.refl _ _ _ | with_reducible apply setDesc_only | with_reducible apply makeReady_only | exact fun _ h => List.mem_map_of_mem h | exact fun _ h => List.mem_map_of_mem (List.mem_append_left _ h) | with_reducible refine RegsFrame.sub_append ?_ ?_ | exact (by decide) | exact List.forall_mem_nil _ | exact List.forall_mem_nil _ | exact fun _ h => h | exact fun _ h => List.mem_append_left _ h | (with_reducible intro g hg; simp only [detectFamilies, List.mem_append, List.mem_cons, List.not_mem_nil, or_false] at hg ⊢; tauto) | split | simp only [RegsFrame.mk_iff] | with_reducible exact RegsFrame.of_regs rfl | dsimp only

theorem stageOutputsDone_only {o : State} {ff : List Field} {gf : List (Nat → Field)} (s : State) (img : Image) (tile d id t : Nat) (x : Desc) (outs : List Output) (h0 : RegsFrame o s ff gf)
    (sub : ∀ f ∈ (detectFields ++ [Reg.FRAME_SPEC_FULL.FULL, Reg.JIG_BACKPRESSURE.COUNT, Reg.JIG_STATUS.PEND_READY, Reg.JIG_STATUS.TRACE_FULL, Reg.JIG_TRACE_LOST.COUNT, Reg.JIG_TRACE_WR.INDEX, Reg.JIG_TRACE_WR.WRAPS, Reg.ORDER_CONFLICT_COUNT.CONFLICTS, Reg.ORDER_STATUS.SCORE_CONFLICT, Reg.WORLD_SEED_INVALID.INVALID] : List Field), f.key ∈ ff.map Field.key)
    (subg : ∀ g ∈ (detectFamilies ++ [Reg.TILE_CHK_NEAR.NEAR, Reg.TILE_CHK_SKIPPED.SKIPPED, Reg.TILE_JIG_STATE.READY, Reg.TILE_JIG_STATE.RUNNING, Reg.TILE_SWEEP_STATUS.OFF_GRID, Reg.TILE_SWEEP_STATUS.POISONED_READ, Reg.TILE_SWEEP_STATUS.PRED_BEYOND, Reg.TILE_SWEEP_STATUS.SATURATED] : List (Nat → Field)), g ∈ gf) : RegsFrame o (stageOutputsDone s img tile d id t x outs) ff gf := by
  refine RegsFrame.via h0 ?_ sub subg; clear h0 sub subg; unfold stageOutputsDone; (try dsimp only)
  repeat' first | with_reducible exact RegsFrame.refl _ _ _ | with_reducible apply setDesc_only | with_reducible apply countWork_only | with_reducible apply finishTask_only | with_reducible apply flagSweep_only | with_reducible apply nearMissTest_only | with_reducible apply showAgent_only | with_reducible apply specFinish_only | exact fun _ h => List.mem_map_of_mem h | exact fun _ h => List.mem_map_of_mem (List.mem_append_left _ h) | with_reducible refine RegsFrame.sub_append ?_ ?_ | exact (by decide) | exact List.forall_mem_nil _ | exact List.forall_mem_nil _ | exact fun _ h => h | exact fun _ h => List.mem_append_left _ h | (with_reducible intro g hg; simp only [detectFamilies, List.mem_append, List.mem_cons, List.not_mem_nil, or_false] at hg ⊢; tauto) | split | simp only [RegsFrame.mk_iff] | with_reducible exact RegsFrame.of_regs rfl | dsimp only

theorem stageComplete_only {o : State} {ff : List Field} {gf : List (Nat → Field)} (s : State) (img : Image) (tile d id t : Nat) (x : Desc) (h0 : RegsFrame o s ff gf)
    (sub : ∀ f ∈ (detectFields ++ [Reg.FRAME_SPEC_FULL.FULL, Reg.JIG_BACKPRESSURE.COUNT, Reg.JIG_STATUS.PEND_READY, Reg.JIG_STATUS.TRACE_FULL, Reg.JIG_TRACE_LOST.COUNT, Reg.JIG_TRACE_WR.INDEX, Reg.JIG_TRACE_WR.WRAPS, Reg.ORDER_CONFLICT_COUNT.CONFLICTS, Reg.ORDER_STATUS.SCORE_CONFLICT, Reg.WORLD_SEED_INVALID.INVALID] : List Field), f.key ∈ ff.map Field.key)
    (subg : ∀ g ∈ (detectFamilies ++ [Reg.TILE_CHK_NEAR.NEAR, Reg.TILE_CHK_SKIPPED.SKIPPED, Reg.TILE_JIG_STATE.READY, Reg.TILE_JIG_STATE.RUNNING, Reg.TILE_SWEEP_STATUS.OFF_GRID, Reg.TILE_SWEEP_STATUS.POISONED_READ, Reg.TILE_SWEEP_STATUS.PRED_BEYOND, Reg.TILE_SWEEP_STATUS.SATURATED] : List (Nat → Field)), g ∈ gf) : RegsFrame o (stageComplete s img tile d id t x) ff gf := by
  refine RegsFrame.via h0 ?_ sub subg; clear h0 sub subg; unfold stageComplete; (try dsimp only)
  repeat' first | with_reducible exact RegsFrame.refl _ _ _ | with_reducible apply setDesc_only | with_reducible apply showAgent_only | with_reducible apply stageOutputsDone_only | exact fun _ h => List.mem_map_of_mem h | exact fun _ h => List.mem_map_of_mem (List.mem_append_left _ h) | with_reducible refine RegsFrame.sub_append ?_ ?_ | exact (by decide) | exact List.forall_mem_nil _ | exact List.forall_mem_nil _ | exact fun _ h => h | exact fun _ h => List.mem_append_left _ h | (with_reducible intro g hg; simp only [detectFamilies, List.mem_append, List.mem_cons, List.not_mem_nil, or_false] at hg ⊢; tauto) | split | simp only [RegsFrame.mk_iff] | with_reducible exact RegsFrame.of_regs rfl | dsimp only

theorem completeTask_only {o : State} {ff : List Field} {gf : List (Nat → Field)} (s : State) (img : Image) (tile d : Nat) (x : Desc) (h0 : RegsFrame o s ff gf)
    (sub : ∀ f ∈ (detectFields ++ [Reg.FRAME_SPEC_FULL.FULL, Reg.JIG_BACKPRESSURE.COUNT, Reg.JIG_STATUS.PEND_READY, Reg.JIG_STATUS.TRACE_FULL, Reg.JIG_TRACE_LOST.COUNT, Reg.JIG_TRACE_WR.INDEX, Reg.JIG_TRACE_WR.WRAPS, Reg.ORDER_CONFLICT_COUNT.CONFLICTS, Reg.ORDER_STATUS.SCORE_CONFLICT, Reg.WORLD_SEED_INVALID.INVALID] : List Field), f.key ∈ ff.map Field.key)
    (subg : ∀ g ∈ (detectFamilies ++ [Reg.TILE_CHK_NEAR.NEAR, Reg.TILE_CHK_SKIPPED.SKIPPED, Reg.TILE_JIG_STATE.READY, Reg.TILE_JIG_STATE.RUNNING, Reg.TILE_SWEEP_STATUS.OFF_GRID, Reg.TILE_SWEEP_STATUS.POISONED_READ, Reg.TILE_SWEEP_STATUS.PRED_BEYOND, Reg.TILE_SWEEP_STATUS.SATURATED] : List (Nat → Field)), g ∈ gf) : RegsFrame o (completeTask s img tile d x) ff gf := by
  refine RegsFrame.via h0 ?_ sub subg; clear h0 sub subg; unfold completeTask; (try dsimp only)
  repeat' first | with_reducible exact RegsFrame.refl _ _ _ | with_reducible apply setDesc_only | with_reducible apply jobUnit_only | with_reducible apply showAgent_only | with_reducible apply stageComplete_only | exact fun _ h => List.mem_map_of_mem h | exact fun _ h => List.mem_map_of_mem (List.mem_append_left _ h) | with_reducible refine RegsFrame.sub_append ?_ ?_ | exact (by decide) | exact List.forall_mem_nil _ | exact List.forall_mem_nil _ | exact fun _ h => h | exact fun _ h => List.mem_append_left _ h | (with_reducible intro g hg; simp only [detectFamilies, List.mem_append, List.mem_cons, List.not_mem_nil, or_false] at hg ⊢; tauto) | split | simp only [RegsFrame.mk_iff] | with_reducible exact RegsFrame.of_regs rfl | dsimp only

theorem showPrediction_only {o : State} {ff : List Field} {gf : List (Nat → Field)} (s : State) (e : Epoch) (h0 : RegsFrame o s ff gf)
    (sub : ∀ f ∈ ([Reg.FRAME_PRED_EPOCH.EPOCH] : List Field), f.key ∈ ff.map Field.key)
    (subg : ∀ g ∈ ([Reg.FRAME_PRED_STATE.STATE] : List (Nat → Field)), g ∈ gf) : RegsFrame o (showPrediction s e) ff gf := by
  refine RegsFrame.via h0 ?_ sub subg; clear h0 sub subg; unfold showPrediction; (try dsimp only)
  repeat' first | with_reducible exact RegsFrame.refl _ _ _ | with_reducible refine RegsFrame.set ?_ (by decide) _ | with_reducible refine RegsFrame.setF (g := Reg.FRAME_PRED_STATE.STATE) ?_ (by simp [detectFamilies]) _ _ | with_reducible refine RegsFrame.foldl (fun _ _ => ?_) ?_ | with_reducible refine RegsFrame.foldl_fst (fun _ _ => ?_) ?_ | with_reducible refine RegsFrame.foldl_snd (fun _ _ => ?_) ?_ | exact fun _ h => List.mem_map_of_mem h | exact fun _ h => List.mem_map_of_mem (List.mem_append_left _ h) | with_reducible refine RegsFrame.sub_append ?_ ?_ | exact (by decide) | exact List.forall_mem_nil _ | exact List.forall_mem_nil _ | exact fun _ h => h | exact fun _ h => List.mem_append_left _ h | (with_reducible intro g hg; simp only [detectFamilies, List.mem_append, List.mem_cons, List.not_mem_nil, or_false] at hg ⊢; tauto) | split | simp only [RegsFrame.mk_iff] | with_reducible exact RegsFrame.of_regs rfl | dsimp only

theorem beginSpeculation_only {o : State} {ff : List Field} {gf : List (Nat → Field)} (s : State) (img : Image) (h0 : RegsFrame o s ff gf)
    (sub : ∀ f ∈ ([Reg.FRAME_PRED_EPOCH.EPOCH, Reg.FRAME_SPEC_EPOCH.EPOCH] : List Field), f.key ∈ ff.map Field.key)
    (subg : ∀ g ∈ ([Reg.FRAME_PRED_STATE.STATE] : List (Nat → Field)), g ∈ gf) : RegsFrame o (beginSpeculation s img) ff gf := by
  refine RegsFrame.via h0 ?_ sub subg; clear h0 sub subg; unfold beginSpeculation; (try dsimp only)
  repeat' first | with_reducible exact RegsFrame.refl _ _ _ | with_reducible apply showPrediction_only | with_reducible apply showSpecEpoch_only | exact fun _ h => List.mem_map_of_mem h | exact fun _ h => List.mem_map_of_mem (List.mem_append_left _ h) | with_reducible refine RegsFrame.sub_append ?_ ?_ | exact (by decide) | exact List.forall_mem_nil _ | exact List.forall_mem_nil _ | exact fun _ h => h | exact fun _ h => List.mem_append_left _ h | (with_reducible intro g hg; simp only [detectFamilies, List.mem_append, List.mem_cons, List.not_mem_nil, or_false] at hg ⊢; tauto) | split | simp only [RegsFrame.mk_iff] | with_reducible exact RegsFrame.of_regs rfl | dsimp only

theorem releaseKept_only {o : State} {ff : List Field} {gf : List (Nat → Field)} (s : State) (img : Image) (kc : List (Nat × Nat × Nat)) (kr : List SpecRec) (kb : List Block) (h0 : RegsFrame o s ff gf)
    (sub : ∀ f ∈ (detectFields ++ [Reg.JIG_STATUS.TRACE_FULL, Reg.JIG_TRACE_LOST.COUNT, Reg.JIG_TRACE_WR.INDEX, Reg.JIG_TRACE_WR.WRAPS, Reg.ORDER_CONFLICT_COUNT.CONFLICTS, Reg.ORDER_STATUS.SCORE_CONFLICT] : List Field), f.key ∈ ff.map Field.key)
    (subg : ∀ g ∈ (detectFamilies ++ [Reg.TILE_SWEEP_STATUS.OFF_GRID, Reg.TILE_SWEEP_STATUS.POISONED_READ, Reg.TILE_SWEEP_STATUS.PRED_BEYOND, Reg.TILE_SWEEP_STATUS.SATURATED] : List (Nat → Field)), g ∈ gf) : RegsFrame o (releaseKept s img kc kr kb) ff gf := by
  refine RegsFrame.via h0 ?_ sub subg; clear h0 sub subg; unfold releaseKept; (try dsimp only)
  repeat' first | with_reducible exact RegsFrame.refl _ _ _ | with_reducible refine RegsFrame.foldl (fun _ _ => ?_) ?_ | with_reducible refine RegsFrame.foldl_fst (fun _ _ => ?_) ?_ | with_reducible refine RegsFrame.foldl_snd (fun _ _ => ?_) ?_ | with_reducible apply finishTask_only | exact fun _ h => List.mem_map_of_mem h | exact fun _ h => List.mem_map_of_mem (List.mem_append_left _ h) | with_reducible refine RegsFrame.sub_append ?_ ?_ | exact (by decide) | exact List.forall_mem_nil _ | exact List.forall_mem_nil _ | exact fun _ h => h | exact fun _ h => List.mem_append_left _ h | (with_reducible intro g hg; simp only [detectFamilies, List.mem_append, List.mem_cons, List.not_mem_nil, or_false] at hg ⊢; tauto) | split | simp only [RegsFrame.mk_iff] | with_reducible exact RegsFrame.of_regs rfl | dsimp only

theorem squash_only {o : State} {ff : List Field} {gf : List (Nat → Field)} (s : State) (img : Image) (h0 : RegsFrame o s ff gf)
    (sub : ∀ f ∈ (detectFields ++ [Reg.JIG_STATUS.TRACE_FULL, Reg.JIG_TRACE_LOST.COUNT, Reg.JIG_TRACE_WR.INDEX, Reg.JIG_TRACE_WR.WRAPS, Reg.ORDER_CONFLICT_COUNT.CONFLICTS, Reg.ORDER_STATUS.SCORE_CONFLICT] : List Field), f.key ∈ ff.map Field.key)
    (subg : ∀ g ∈ (detectFamilies ++ [Reg.TILE_SWEEP_STATUS.OFF_GRID, Reg.TILE_SWEEP_STATUS.POISONED_READ, Reg.TILE_SWEEP_STATUS.PRED_BEYOND, Reg.TILE_SWEEP_STATUS.SATURATED] : List (Nat → Field)), g ∈ gf) : RegsFrame o (squash s img) ff gf := by
  refine RegsFrame.via h0 ?_ sub subg; clear h0 sub subg; unfold squash; (try dsimp only)
  repeat' first | with_reducible exact RegsFrame.refl _ _ _ | with_reducible apply dropSpecDescs_only | with_reducible apply releaseKept_only | with_reducible apply showSpecEpoch_only | exact fun _ h => List.mem_map_of_mem h | exact fun _ h => List.mem_map_of_mem (List.mem_append_left _ h) | with_reducible refine RegsFrame.sub_append ?_ ?_ | exact (by decide) | exact List.forall_mem_nil _ | exact List.forall_mem_nil _ | exact fun _ h => h | exact fun _ h => List.mem_append_left _ h | (with_reducible intro g hg; simp only [detectFamilies, List.mem_append, List.mem_cons, List.not_mem_nil, or_false] at hg ⊢; tauto) | split | simp only [RegsFrame.mk_iff] | with_reducible exact RegsFrame.of_regs rfl | dsimp only

theorem testSearches_only {o : State} {ff : List Field} {gf : List (Nat → Field)} (f : Epoch) (touched : List Nat) (s : State) (h0 : RegsFrame o s ff gf) : RegsFrame o (testSearches f touched s) ff gf :=
  h0.trans (RegsFrame.of_regs (by simp))

theorem decideSearch_only {o : State} {ff : List Field} {gf : List (Nat → Field)} (s : State) (img : Image) (b : List Byte) (e : Epoch) (h0 : RegsFrame o s ff gf)
    (sub : ∀ f ∈ (detectFields ++ [Reg.JIG_STATUS.TRACE_FULL, Reg.JIG_TRACE_LOST.COUNT, Reg.JIG_TRACE_WR.INDEX, Reg.JIG_TRACE_WR.WRAPS, Reg.ORDER_CONFLICT_COUNT.CONFLICTS, Reg.ORDER_STATUS.SCORE_CONFLICT] : List Field), f.key ∈ ff.map Field.key)
    (subg : ∀ g ∈ (detectFamilies ++ [Reg.TILE_SWEEP_STATUS.OFF_GRID, Reg.TILE_SWEEP_STATUS.POISONED_READ, Reg.TILE_SWEEP_STATUS.PRED_BEYOND, Reg.TILE_SWEEP_STATUS.SATURATED] : List (Nat → Field)), g ∈ gf) : RegsFrame o (decideSearch s img b e) ff gf := by
  refine RegsFrame.via h0 ?_ sub subg; clear h0 sub subg; unfold decideSearch; (try dsimp only)
  repeat' first | with_reducible exact RegsFrame.refl _ _ _ | with_reducible refine RegsFrame.foldl (fun _ _ => ?_) ?_ | with_reducible refine RegsFrame.foldl_fst (fun _ _ => ?_) ?_ | with_reducible refine RegsFrame.foldl_snd (fun _ _ => ?_) ?_ | with_reducible apply finishTask_only | exact fun _ h => List.mem_map_of_mem h | exact fun _ h => List.mem_map_of_mem (List.mem_append_left _ h) | with_reducible refine RegsFrame.sub_append ?_ ?_ | exact (by decide) | exact List.forall_mem_nil _ | exact List.forall_mem_nil _ | exact fun _ h => h | exact fun _ h => List.mem_append_left _ h | (with_reducible intro g hg; simp only [detectFamilies, List.mem_append, List.mem_cons, List.not_mem_nil, or_false] at hg ⊢; tauto) | split | simp only [RegsFrame.mk_iff] | with_reducible exact RegsFrame.of_regs rfl | dsimp only

theorem chooseStart_only {o : State} {ff : List Field} {gf : List (Nat → Field)} (s : State) (img : Image) (e : Epoch) (h0 : RegsFrame o s ff gf)
    (sub : ∀ f ∈ ([Reg.WORLD_START_PROJECTED.PROJECTED, Reg.WORLD_START_STATUS.NO_STATE, Reg.WORLD_START_STATUS.OUTSIDE_ENVELOPE, Reg.WORLD_START_STATUS.REUSED, Reg.WORLD_START_STATUS.REUSE_COUNT] : List Field), f.key ∈ ff.map Field.key)
    (subg : ∀ g ∈ ([] : List (Nat → Field)), g ∈ gf) : RegsFrame o (chooseStart s img e) ff gf := by
  refine RegsFrame.via h0 ?_ sub subg; clear h0 sub subg; unfold chooseStart; (try dsimp only)
  repeat' first | with_reducible exact RegsFrame.refl _ _ _ | with_reducible refine RegsFrame.set ?_ (by decide) _ | with_reducible refine RegsFrame.inc ?_ (by decide) | exact fun _ h => List.mem_map_of_mem h | exact fun _ h => List.mem_map_of_mem (List.mem_append_left _ h) | with_reducible refine RegsFrame.sub_append ?_ ?_ | exact (by decide) | exact List.forall_mem_nil _ | exact List.forall_mem_nil _ | exact fun _ h => h | exact fun _ h => List.mem_append_left _ h | (with_reducible intro g hg; simp only [detectFamilies, List.mem_append, List.mem_cons, List.not_mem_nil, or_false] at hg ⊢; tauto) | split | simp only [RegsFrame.mk_iff] | with_reducible exact RegsFrame.of_regs rfl | dsimp only

theorem closeStream_only {o : State} {ff : List Field} {gf : List (Nat → Field)} (img : Image) (e : Epoch) (s : State) (d : Nat) (h0 : RegsFrame o s ff gf)
    (sub : ∀ f ∈ ([] : List Field), f.key ∈ ff.map Field.key)
    (subg : ∀ g ∈ ([Reg.WORLD_STREAM_BYTES.BYTES, Reg.WORLD_STREAM_STATUS.ACTIVE, Reg.WORLD_STREAM_STATUS.SILENT, Reg.WORLD_STREAM_STATUS.STALE] : List (Nat → Field)), g ∈ gf) : RegsFrame o (closeStream img e s d) ff gf := by
  refine RegsFrame.via h0 ?_ sub subg; clear h0 sub subg; unfold closeStream; (try dsimp only)
  repeat' first | with_reducible exact RegsFrame.refl _ _ _ | with_reducible refine RegsFrame.set ?_ (by decide) _ | with_reducible refine RegsFrame.setF (g := Reg.WORLD_STREAM_BYTES.BYTES) ?_ (by simp [detectFamilies]) _ _ | with_reducible refine RegsFrame.setF (g := Reg.WORLD_STREAM_STATUS.ACTIVE) ?_ (by simp [detectFamilies]) _ _ | with_reducible refine RegsFrame.setF (g := Reg.WORLD_STREAM_STATUS.SILENT) ?_ (by simp [detectFamilies]) _ _ | with_reducible refine RegsFrame.setF (g := Reg.WORLD_STREAM_STATUS.STALE) ?_ (by simp [detectFamilies]) _ _ | exact fun _ h => List.mem_map_of_mem h | exact fun _ h => List.mem_map_of_mem (List.mem_append_left _ h) | with_reducible refine RegsFrame.sub_append ?_ ?_ | exact (by decide) | exact List.forall_mem_nil _ | exact List.forall_mem_nil _ | exact fun _ h => h | exact fun _ h => List.mem_append_left _ h | (with_reducible intro g hg; simp only [detectFamilies, List.mem_append, List.mem_cons, List.not_mem_nil, or_false] at hg ⊢; tauto) | split | simp only [RegsFrame.mk_iff] | with_reducible exact RegsFrame.of_regs rfl | dsimp only

theorem shiftLedger_only {o : State} {ff : List Field} {gf : List (Nat → Field)} (s : State) (img : Image) (h0 : RegsFrame o s ff gf)
    (sub : ∀ f ∈ ([Reg.LEDGER_QUEUE_DEPTH.DEPTH, Reg.LEDGER_SHIFT_XY.SX, Reg.LEDGER_SHIFT_XY.SY, Reg.LEDGER_SHIFT_Z.SZ, Reg.LEDGER_STATUS.REBUILD_PENDING] : List Field), f.key ∈ ff.map Field.key)
    (subg : ∀ g ∈ ([] : List (Nat → Field)), g ∈ gf) : RegsFrame o (shiftLedger s img) ff gf := by
  refine RegsFrame.via h0 ?_ sub subg; clear h0 sub subg; unfold shiftLedger; (try dsimp only)
  repeat' first | with_reducible exact RegsFrame.refl _ _ _ | with_reducible apply queueTrans_only | with_reducible apply scheduleShift_only | with_reducible apply showShift_only | exact fun _ h => List.mem_map_of_mem h | exact fun _ h => List.mem_map_of_mem (List.mem_append_left _ h) | with_reducible refine RegsFrame.sub_append ?_ ?_ | exact (by decide) | exact List.forall_mem_nil _ | exact List.forall_mem_nil _ | exact fun _ h => h | exact fun _ h => List.mem_append_left _ h | (with_reducible intro g hg; simp only [detectFamilies, List.mem_append, List.mem_cons, List.not_mem_nil, or_false] at hg ⊢; tauto) | split | simp only [RegsFrame.mk_iff] | with_reducible exact RegsFrame.of_regs rfl | dsimp only

theorem closeAdmission_only {o : State} {ff : List Field} {gf : List (Nat → Field)} (s : State) (img : Image) (h0 : RegsFrame o s ff gf)
    (sub : ∀ f ∈ (detectFields ++ [Reg.JIG_STATUS.TRACE_FULL, Reg.JIG_TRACE_LOST.COUNT, Reg.JIG_TRACE_WR.INDEX, Reg.JIG_TRACE_WR.WRAPS, Reg.LEDGER_QUEUE_DEPTH.DEPTH, Reg.LEDGER_SHIFT_XY.SX, Reg.LEDGER_SHIFT_XY.SY, Reg.LEDGER_SHIFT_Z.SZ, Reg.LEDGER_STATUS.REBUILD_PENDING, Reg.ORDER_CONFLICT_COUNT.CONFLICTS, Reg.ORDER_STATUS.SCORE_CONFLICT, Reg.WORLD_EGO_MISSING.MISSING, Reg.WORLD_START_PROJECTED.PROJECTED, Reg.WORLD_START_STATUS.NO_STATE, Reg.WORLD_START_STATUS.OUTSIDE_ENVELOPE, Reg.WORLD_START_STATUS.REUSED, Reg.WORLD_START_STATUS.REUSE_COUNT, Reg.WORLD_STATUS.PHASE] : List Field), f.key ∈ ff.map Field.key)
    (subg : ∀ g ∈ (detectFamilies ++ [Reg.TILE_SWEEP_STATUS.OFF_GRID, Reg.TILE_SWEEP_STATUS.POISONED_READ, Reg.TILE_SWEEP_STATUS.PRED_BEYOND, Reg.TILE_SWEEP_STATUS.SATURATED, Reg.WORLD_DIRTY_COUNT.DIRTY, Reg.WORLD_STREAM_BYTES.BYTES, Reg.WORLD_STREAM_STATUS.ACTIVE, Reg.WORLD_STREAM_STATUS.SILENT, Reg.WORLD_STREAM_STATUS.STALE] : List (Nat → Field)), g ∈ gf) : RegsFrame o (closeAdmission s img) ff gf := by
  refine RegsFrame.via h0 ?_ sub subg; clear h0 sub subg; unfold closeAdmission; (try dsimp only)
  repeat' first | with_reducible exact RegsFrame.refl _ _ _ | with_reducible refine RegsFrame.set ?_ (by decide) _ | with_reducible refine RegsFrame.inc ?_ (by decide) | with_reducible refine RegsFrame.setF (g := Reg.WORLD_DIRTY_COUNT.DIRTY) ?_ (by simp [detectFamilies]) _ _ | with_reducible refine RegsFrame.incF (g := Reg.WORLD_DIRTY_COUNT.DIRTY) ?_ (by simp [detectFamilies]) _ | with_reducible refine RegsFrame.foldl (fun _ _ => ?_) ?_ | with_reducible refine RegsFrame.foldl_fst (fun _ _ => ?_) ?_ | with_reducible refine RegsFrame.foldl_snd (fun _ _ => ?_) ?_ | with_reducible apply chooseStart_only | with_reducible apply closeStream_only | with_reducible apply markSent_only | with_reducible apply shiftLedger_only | with_reducible apply squash_only | exact fun _ h => List.mem_map_of_mem h | exact fun _ h => List.mem_map_of_mem (List.mem_append_left _ h) | with_reducible refine RegsFrame.sub_append ?_ ?_ | exact (by decide) | exact List.forall_mem_nil _ | exact List.forall_mem_nil _ | exact fun _ h => h | exact fun _ h => List.mem_append_left _ h | (with_reducible intro g hg; simp only [detectFamilies, List.mem_append, List.mem_cons, List.not_mem_nil, or_false] at hg ⊢; tauto) | split | simp only [RegsFrame.mk_iff] | with_reducible exact RegsFrame.of_regs rfl | dsimp only

theorem countCut_only {o : State} {ff : List Field} {gf : List (Nat → Field)} (s : State) (tile n : Nat) (h0 : RegsFrame o s ff gf) : RegsFrame o (countCut s tile n) ff gf :=
  h0.trans (RegsFrame.of_regs (by simp))

theorem cutTask_only {o : State} {ff : List Field} {gf : List (Nat → Field)} (img : Image) (id : Nat) (s : State) (t : Nat) (h0 : RegsFrame o s ff gf)
    (sub : ∀ f ∈ (detectFields ++ [Reg.JIG_STATUS.PEND_READY, Reg.JIG_STATUS.TRACE_FULL, Reg.JIG_TRACE_LOST.COUNT, Reg.JIG_TRACE_WR.INDEX, Reg.JIG_TRACE_WR.WRAPS, Reg.ORDER_CONFLICT_COUNT.CONFLICTS, Reg.ORDER_STATUS.SCORE_CONFLICT] : List Field), f.key ∈ ff.map Field.key)
    (subg : ∀ g ∈ (detectFamilies ++ [Reg.TILE_JIG_STATE.READY, Reg.TILE_JIG_STATE.RUNNING, Reg.TILE_SWEEP_STATUS.OFF_GRID, Reg.TILE_SWEEP_STATUS.POISONED_READ, Reg.TILE_SWEEP_STATUS.PRED_BEYOND, Reg.TILE_SWEEP_STATUS.SATURATED] : List (Nat → Field)), g ∈ gf) : RegsFrame o (cutTask img id s t) ff gf := by
  refine RegsFrame.via h0 ?_ sub subg; clear h0 sub subg; unfold cutTask; (try dsimp only)
  repeat' first | with_reducible exact RegsFrame.refl _ _ _ | with_reducible apply setDesc_only | with_reducible apply countCut_only | with_reducible apply finishTask_only | with_reducible apply showAgent_only | exact fun _ h => List.mem_map_of_mem h | exact fun _ h => List.mem_map_of_mem (List.mem_append_left _ h) | with_reducible refine RegsFrame.sub_append ?_ ?_ | exact (by decide) | exact List.forall_mem_nil _ | exact List.forall_mem_nil _ | exact fun _ h => h | exact fun _ h => List.mem_append_left _ h | (with_reducible intro g hg; simp only [detectFamilies, List.mem_append, List.mem_cons, List.not_mem_nil, or_false] at hg ⊢; tauto) | split | simp only [RegsFrame.mk_iff] | with_reducible exact RegsFrame.of_regs rfl | dsimp only

theorem cutStageTasks_only {o : State} {ff : List Field} {gf : List (Nat → Field)} (img : Image) (s : State) (id : Nat) (h0 : RegsFrame o s ff gf)
    (sub : ∀ f ∈ (detectFields ++ [Reg.JIG_STATUS.PEND_READY, Reg.JIG_STATUS.TRACE_FULL, Reg.JIG_TRACE_LOST.COUNT, Reg.JIG_TRACE_WR.INDEX, Reg.JIG_TRACE_WR.WRAPS, Reg.ORDER_CONFLICT_COUNT.CONFLICTS, Reg.ORDER_STATUS.SCORE_CONFLICT] : List Field), f.key ∈ ff.map Field.key)
    (subg : ∀ g ∈ (detectFamilies ++ [Reg.TILE_JIG_STATE.READY, Reg.TILE_JIG_STATE.RUNNING, Reg.TILE_SWEEP_STATUS.OFF_GRID, Reg.TILE_SWEEP_STATUS.POISONED_READ, Reg.TILE_SWEEP_STATUS.PRED_BEYOND, Reg.TILE_SWEEP_STATUS.SATURATED] : List (Nat → Field)), g ∈ gf) : RegsFrame o (cutStageTasks img s id) ff gf := by
  refine RegsFrame.via h0 ?_ sub subg; clear h0 sub subg; unfold cutStageTasks; (try dsimp only)
  repeat' first | with_reducible exact RegsFrame.refl _ _ _ | with_reducible refine RegsFrame.foldl (fun _ _ => ?_) ?_ | with_reducible refine RegsFrame.foldl_fst (fun _ _ => ?_) ?_ | with_reducible refine RegsFrame.foldl_snd (fun _ _ => ?_) ?_ | with_reducible apply cutTask_only | exact fun _ h => List.mem_map_of_mem h | exact fun _ h => List.mem_map_of_mem (List.mem_append_left _ h) | with_reducible refine RegsFrame.sub_append ?_ ?_ | exact (by decide) | exact List.forall_mem_nil _ | exact List.forall_mem_nil _ | exact fun _ h => h | exact fun _ h => List.mem_append_left _ h | (with_reducible intro g hg; simp only [detectFamilies, List.mem_append, List.mem_cons, List.not_mem_nil, or_false] at hg ⊢; tauto) | split | simp only [RegsFrame.mk_iff] | with_reducible exact RegsFrame.of_regs rfl | dsimp only

theorem abandonPropose_only {o : State} {ff : List Field} {gf : List (Nat → Field)} (s : State) (h0 : RegsFrame o s ff gf) : RegsFrame o (abandonPropose s) ff gf :=
  h0.trans (RegsFrame.of_regs (by simp))

theorem startRefine_only {o : State} {ff : List Field} {gf : List (Nat → Field)} (s : State) (img : Image) (e : PEntry) (h0 : RegsFrame o s ff gf)
    (sub : ∀ f ∈ ([Reg.SOLVER_DIAG_STATUS.ENGINE, Reg.SOLVER_DIAG_STATUS.RESULT, Reg.SOLVER_STATUS.DIAG_BUSY, Reg.SOLVER_STATUS.NO_ENGINE] : List Field), f.key ∈ ff.map Field.key)
    (subg : ∀ g ∈ ([] : List (Nat → Field)), g ∈ gf) : RegsFrame o (startRefine s img e) ff gf := by
  refine RegsFrame.via h0 ?_ sub subg; clear h0 sub subg; unfold startRefine; (try dsimp only)
  repeat' first | with_reducible exact RegsFrame.refl _ _ _ | with_reducible refine RegsFrame.set ?_ (by decide) _ | exact fun _ h => List.mem_map_of_mem h | exact fun _ h => List.mem_map_of_mem (List.mem_append_left _ h) | with_reducible refine RegsFrame.sub_append ?_ ?_ | exact (by decide) | exact List.forall_mem_nil _ | exact List.forall_mem_nil _ | exact fun _ h => h | exact fun _ h => List.mem_append_left _ h | (with_reducible intro g hg; simp only [detectFamilies, List.mem_append, List.mem_cons, List.not_mem_nil, or_false] at hg ⊢; tauto) | split | simp only [RegsFrame.mk_iff] | with_reducible exact RegsFrame.of_regs rfl | dsimp only

theorem releaseSelection_only {o : State} {ff : List Field} {gf : List (Nat → Field)} (s : State) (img : Image) (inputs : List PList) (h0 : RegsFrame o s ff gf)
    (sub : ∀ f ∈ (detectFields ++ [Reg.ORDER_CONFLICT_COUNT.CONFLICTS, Reg.ORDER_NAN_TOTAL.NAN, Reg.ORDER_STATUS.SCORE_CONFLICT, Reg.SOLVER_DIAG_STATUS.ENGINE, Reg.SOLVER_DIAG_STATUS.RESULT, Reg.SOLVER_STATUS.DIAG_BUSY, Reg.SOLVER_STATUS.NO_ENGINE] : List Field), f.key ∈ ff.map Field.key)
    (subg : ∀ g ∈ (detectFamilies : List (Nat → Field)), g ∈ gf) : RegsFrame o (releaseSelection s img inputs) ff gf := by
  refine RegsFrame.via h0 ?_ sub subg; clear h0 sub subg; unfold releaseSelection; (try dsimp only)
  repeat' first | with_reducible exact RegsFrame.refl _ _ _ | with_reducible refine RegsFrame.set ?_ (by decide) _ | with_reducible refine RegsFrame.add ?_ (by decide) _ | with_reducible apply detect_only | with_reducible apply startRefine_only | exact fun _ h => List.mem_map_of_mem h | exact fun _ h => List.mem_map_of_mem (List.mem_append_left _ h) | with_reducible refine RegsFrame.sub_append ?_ ?_ | exact (by decide) | exact List.forall_mem_nil _ | exact List.forall_mem_nil _ | exact fun _ h => h | exact fun _ h => List.mem_append_left _ h | (with_reducible intro g hg; simp only [detectFamilies, List.mem_append, List.mem_cons, List.not_mem_nil, or_false] at hg ⊢; tauto) | split | simp only [RegsFrame.mk_iff] | with_reducible exact RegsFrame.of_regs rfl | dsimp only

theorem setRun_only {o : State} {ff : List Field} {gf : List (Nat → Field)} (s : State) (r : RefineRun) (h0 : RegsFrame o s ff gf) : RegsFrame o (State.setRun s r) ff gf :=
  h0.trans (RegsFrame.of_regs (by simp))

theorem setUpRun_only {o : State} {ff : List Field} {gf : List (Nat → Field)} (s : State) (img : Image) (r : RefineRun) (tr : Traj) (h0 : RegsFrame o s ff gf) : RegsFrame o (setUpRun s img r tr) ff gf :=
  h0.trans (RegsFrame.of_regs (by simp))

theorem closeStage_only {o : State} {ff : List Field} {gf : List (Nat → Field)} (s : State) (img : Image) (id : Nat) (bytes : List Byte) (h0 : RegsFrame o s ff gf) : RegsFrame o (closeStage s img id bytes) ff gf :=
  h0.trans (RegsFrame.of_regs (by simp))

theorem closeMain_only {o : State} {ff : List Field} {gf : List (Nat → Field)} (s : State) (img : Image) (h0 : RegsFrame o s ff gf) : RegsFrame o (closeMain s img) ff gf :=
  h0.trans (RegsFrame.of_regs (by simp))

theorem pairTests_only {o : State} {ff : List Field} {gf : List (Nat → Field)} (s : State) (e : Epoch) (h0 : RegsFrame o s ff gf)
    (sub : ∀ f ∈ ([Reg.FAULT_MAINT_HELD.HELD, Reg.FAULT_MAINT_LAST.HOLDER, Reg.FAULT_MAINT_LAST.REQUESTED, Reg.FAULT_MAINT_REFUSED.COUNT] : List Field), f.key ∈ ff.map Field.key)
    (subg : ∀ g ∈ ([] : List (Nat → Field)), g ∈ gf) : RegsFrame o (pairTests s e) ff gf := by
  refine RegsFrame.via h0 ?_ sub subg; clear h0 sub subg; unfold pairTests; (try dsimp only)
  repeat' first | with_reducible exact RegsFrame.refl _ _ _ | with_reducible refine RegsFrame.foldl (fun _ _ => ?_) ?_ | with_reducible refine RegsFrame.foldl_fst (fun _ _ => ?_) ?_ | with_reducible refine RegsFrame.foldl_snd (fun _ _ => ?_) ?_ | with_reducible apply makeDue_only | exact fun _ h => List.mem_map_of_mem h | exact fun _ h => List.mem_map_of_mem (List.mem_append_left _ h) | with_reducible refine RegsFrame.sub_append ?_ ?_ | exact (by decide) | exact List.forall_mem_nil _ | exact List.forall_mem_nil _ | exact fun _ h => h | exact fun _ h => List.mem_append_left _ h | (with_reducible intro g hg; simp only [detectFamilies, List.mem_append, List.mem_cons, List.not_mem_nil, or_false] at hg ⊢; tauto) | split | simp only [RegsFrame.mk_iff] | with_reducible exact RegsFrame.of_regs rfl | dsimp only

theorem comparePair_only {o : State} {ff : List Field} {gf : List (Nat → Field)} (s : State) (a b : PairToken) (h0 : RegsFrame o s ff gf)
    (sub : ∀ f ∈ (detectFields ++ [Reg.FAULT_MAINT_HELD.HELD, Reg.FAULT_MAINT_LAST.HOLDER, Reg.FAULT_MAINT_LAST.REQUESTED, Reg.FAULT_MAINT_REFUSED.COUNT, Reg.TENON_PAIR_EPOCH.EPOCH, Reg.TENON_PAIR_MATCH.COUNT, Reg.TENON_PAIR_MISMATCH.COUNT, Reg.TENON_PAIR_SKIPPED.COUNT] : List Field), f.key ∈ ff.map Field.key)
    (subg : ∀ g ∈ (detectFamilies : List (Nat → Field)), g ∈ gf) : RegsFrame o (comparePair s a b) ff gf := by
  refine RegsFrame.via h0 ?_ sub subg; clear h0 sub subg; unfold comparePair; (try dsimp only)
  repeat' first | with_reducible exact RegsFrame.refl _ _ _ | with_reducible refine RegsFrame.set ?_ (by decide) _ | with_reducible refine RegsFrame.inc ?_ (by decide) | with_reducible refine RegsFrame.draw ?_ _ | with_reducible apply detect_only | with_reducible apply pairTests_only | exact fun _ h => List.mem_map_of_mem h | exact fun _ h => List.mem_map_of_mem (List.mem_append_left _ h) | with_reducible refine RegsFrame.sub_append ?_ ?_ | exact (by decide) | exact List.forall_mem_nil _ | exact List.forall_mem_nil _ | exact fun _ h => h | exact fun _ h => List.mem_append_left _ h | (with_reducible intro g hg; simp only [detectFamilies, List.mem_append, List.mem_cons, List.not_mem_nil, or_false] at hg ⊢; tauto) | split | simp only [RegsFrame.mk_iff] | with_reducible exact RegsFrame.of_regs rfl | dsimp only

theorem takePairToken_only {o : State} {ff : List Field} {gf : List (Nat → Field)} (s : State) (x : PairToken) (h0 : RegsFrame o s ff gf)
    (sub : ∀ f ∈ (detectFields ++ [Reg.FAULT_MAINT_HELD.HELD, Reg.FAULT_MAINT_LAST.HOLDER, Reg.FAULT_MAINT_LAST.REQUESTED, Reg.FAULT_MAINT_REFUSED.COUNT, Reg.TENON_PAIR_EPOCH.EPOCH, Reg.TENON_PAIR_MATCH.COUNT, Reg.TENON_PAIR_MISMATCH.COUNT, Reg.TENON_PAIR_SKIPPED.COUNT] : List Field), f.key ∈ ff.map Field.key)
    (subg : ∀ g ∈ (detectFamilies : List (Nat → Field)), g ∈ gf) : RegsFrame o (takePairToken s x) ff gf := by
  refine RegsFrame.via h0 ?_ sub subg; clear h0 sub subg; unfold takePairToken; (try dsimp only)
  repeat' first | with_reducible exact RegsFrame.refl _ _ _ | with_reducible apply comparePair_only | with_reducible apply sendFlit_only | exact fun _ h => List.mem_map_of_mem h | exact fun _ h => List.mem_map_of_mem (List.mem_append_left _ h) | with_reducible refine RegsFrame.sub_append ?_ ?_ | exact (by decide) | exact List.forall_mem_nil _ | exact List.forall_mem_nil _ | exact fun _ h => h | exact fun _ h => List.mem_append_left _ h | (with_reducible intro g hg; simp only [detectFamilies, List.mem_append, List.mem_cons, List.not_mem_nil, or_false] at hg ⊢; tauto) | split | simp only [RegsFrame.mk_iff] | with_reducible exact RegsFrame.of_regs rfl | dsimp only

theorem pushWindow_only {o : State} {ff : List Field} {gf : List (Nat → Field)} (s : State) (failed : Bool) (h0 : RegsFrame o s ff gf)
    (sub : ∀ f ∈ ([Reg.SAFE_VERDICT.DISAGREE, Reg.SAFE_WINDOW.MAP] : List Field), f.key ∈ ff.map Field.key)
    (subg : ∀ g ∈ ([] : List (Nat → Field)), g ∈ gf) : RegsFrame o (pushWindow s failed) ff gf := by
  refine RegsFrame.via h0 ?_ sub subg; clear h0 sub subg; unfold pushWindow; (try dsimp only)
  repeat' first | with_reducible exact RegsFrame.refl _ _ _ | with_reducible refine RegsFrame.set ?_ (by decide) _ | with_reducible refine RegsFrame.foldl (fun _ _ => ?_) ?_ | with_reducible refine RegsFrame.foldl_fst (fun _ _ => ?_) ?_ | with_reducible refine RegsFrame.foldl_snd (fun _ _ => ?_) ?_ | exact fun _ h => List.mem_map_of_mem h | exact fun _ h => List.mem_map_of_mem (List.mem_append_left _ h) | with_reducible refine RegsFrame.sub_append ?_ ?_ | exact (by decide) | exact List.forall_mem_nil _ | exact List.forall_mem_nil _ | exact fun _ h => h | exact fun _ h => List.mem_append_left _ h | (with_reducible intro g hg; simp only [detectFamilies, List.mem_append, List.mem_cons, List.not_mem_nil, or_false] at hg ⊢; tauto) | split | simp only [RegsFrame.mk_iff] | with_reducible exact RegsFrame.of_regs rfl | dsimp only

theorem applyVerdict_only {o : State} {ff : List Field} {gf : List (Nat → Field)} (s : State) (v : Nat) (h0 : RegsFrame o s ff gf)
    (sub : ∀ f ∈ ([Reg.CONFIG_SLOT_ACTIVE.ACCEPTS, Reg.CONFIG_SWITCH_STATUS.PHASE, Reg.CONFIG_SWITCH_STATUS.RESULT, Reg.FRAME_SPEC_DISCARDS.DISCARDS, Reg.FRAME_SPEC_EPOCH.EPOCH, Reg.FRAME_STATUS.FRAME_ACTIVE, Reg.FRAME_STATUS.SHADOW, Reg.SAFE_ENTRY_COUNT.COUNT, Reg.SAFE_FB_COUNT.COUNT, Reg.SAFE_MODE.MODE, Reg.SAFE_MODE.RESTARTS, Reg.SAFE_PREV_COUNT.COUNT, Reg.SAFE_STOP_COUNT.COUNT, Reg.SAFE_WINDOW.MAP, Reg.SEC_BOOT_STATUS.STATE, Reg.SEC_BOOT_STATUS.STEP, Reg.SEC_BOOT_STATUS.WARM, Reg.SEC_RESTART_COUNT.COUNT, Reg.TENON_SQUASH_SENT.COUNT] : List Field), f.key ∈ ff.map Field.key)
    (subg : ∀ g ∈ ([Reg.TENON_LINK_CREDITS.SHARED, Reg.TENON_LINK_CREDITS.VC0, Reg.TENON_LINK_CREDITS.VC1, Reg.TENON_LINK_CREDITS.VC2, Reg.TENON_LINK_CREDITS.VC3] : List (Nat → Field)), g ∈ gf) : RegsFrame o (applyVerdict s v) ff gf := by
  refine RegsFrame.via h0 ?_ sub subg; clear h0 sub subg; unfold applyVerdict; (try dsimp only)
  repeat' first | with_reducible exact RegsFrame.refl _ _ _ | with_reducible refine RegsFrame.inc ?_ (by decide) | with_reducible apply enterSafe_only | with_reducible apply setMode_only | exact fun _ h => List.mem_map_of_mem h | exact fun _ h => List.mem_map_of_mem (List.mem_append_left _ h) | with_reducible refine RegsFrame.sub_append ?_ ?_ | exact (by decide) | exact List.forall_mem_nil _ | exact List.forall_mem_nil _ | exact fun _ h => h | exact fun _ h => List.mem_append_left _ h | (with_reducible intro g hg; simp only [detectFamilies, List.mem_append, List.mem_cons, List.not_mem_nil, or_false] at hg ⊢; tauto) | split | simp only [RegsFrame.mk_iff] | with_reducible exact RegsFrame.of_regs rfl | dsimp only

theorem retireUnit_only {o : State} {ff : List Field} {gf : List (Nat → Field)} (s : State) (cls idx mech : Nat) (h0 : RegsFrame o s ff gf)
    (sub : ∀ f ∈ (detectFields ++ [Reg.ETH_STATUS.LINK] : List Field), f.key ∈ ff.map Field.key)
    (subg : ∀ g ∈ (detectFamilies ++ [Reg.TENON_LINK_STATUS.STATE] : List (Nat → Field)), g ∈ gf) : RegsFrame o (retireUnit s cls idx mech) ff gf := by
  refine RegsFrame.via h0 ?_ sub subg; clear h0 sub subg; unfold retireUnit; (try dsimp only)
  repeat' first | with_reducible exact RegsFrame.refl _ _ _ | with_reducible refine RegsFrame.set ?_ (by decide) _ | with_reducible refine RegsFrame.setF (g := Reg.TENON_LINK_STATUS.STATE) ?_ (by simp [detectFamilies]) _ _ | with_reducible apply setUnit_only | with_reducible apply detect_only | with_reducible apply showUnit_only | exact fun _ h => List.mem_map_of_mem h | exact fun _ h => List.mem_map_of_mem (List.mem_append_left _ h) | with_reducible refine RegsFrame.sub_append ?_ ?_ | exact (by decide) | exact List.forall_mem_nil _ | exact List.forall_mem_nil _ | exact fun _ h => h | exact fun _ h => List.mem_append_left _ h | (with_reducible intro g hg; simp only [detectFamilies, List.mem_append, List.mem_cons, List.not_mem_nil, or_false] at hg ⊢; tauto) | split | simp only [RegsFrame.mk_iff] | with_reducible exact RegsFrame.of_regs rfl | dsimp only

theorem countEcc_only {o : State} {ff : List Field} {gf : List (Nat → Field)} (s : State) (e : ErrorInfo) (h0 : RegsFrame o s ff gf)
    (sub : ∀ f ∈ ([] : List Field), f.key ∈ ff.map Field.key)
    (subg : ∀ g ∈ ([fun i => Reg.HBM_CH_ECC_CORR.COUNT (i / 32) (i % 32), fun i => Reg.HBM_CH_ECC_UNCORR.COUNT (i / 32) (i % 32), Reg.HBM_ECC_CORR.COUNT, Reg.HBM_ECC_UNCORR.COUNT] : List (Nat → Field)), g ∈ gf) : RegsFrame o (countEcc s e) ff gf := by
  refine RegsFrame.via h0 ?_ sub subg; clear h0 sub subg; unfold countEcc; dsimp only
  split
  · exact ((RegsFrame.refl s _ _).incF (g := Reg.HBM_ECC_CORR.COUNT) (by simp) _).incF (g := fun i => Reg.HBM_CH_ECC_CORR.COUNT (i / 32) (i % 32)) (by simp) _
  · exact ((RegsFrame.refl s _ _).incF (g := Reg.HBM_ECC_UNCORR.COUNT) (by simp) _).incF (g := fun i => Reg.HBM_CH_ECC_UNCORR.COUNT (i / 32) (i % 32)) (by simp) _

theorem staleBank_only {o : State} {ff : List Field} {gf : List (Nat → Field)} (s : State) (c : Nat) (h0 : RegsFrame o s ff gf)
    (sub : ∀ f ∈ ([Reg.LEDGER_STALE_RECORDS.STALE, Reg.LEDGER_STATUS.REBUILD_PENDING, Reg.LEDGER_STATUS.STALE_PRESENT] : List Field), f.key ∈ ff.map Field.key)
    (subg : ∀ g ∈ ([] : List (Nat → Field)), g ∈ gf) : RegsFrame o (staleBank s c) ff gf := by
  refine RegsFrame.via h0 ?_ sub subg; clear h0 sub subg; unfold staleBank; (try dsimp only)
  repeat' first | with_reducible exact RegsFrame.refl _ _ _ | with_reducible refine RegsFrame.set ?_ (by decide) _ | with_reducible refine RegsFrame.foldl (fun _ _ => ?_) ?_ | with_reducible refine RegsFrame.foldl_fst (fun _ _ => ?_) ?_ | with_reducible refine RegsFrame.foldl_snd (fun _ _ => ?_) ?_ | with_reducible apply scheduleRebuild_only | exact fun _ h => List.mem_map_of_mem h | exact fun _ h => List.mem_map_of_mem (List.mem_append_left _ h) | with_reducible refine RegsFrame.sub_append ?_ ?_ | exact (by decide) | exact List.forall_mem_nil _ | exact List.forall_mem_nil _ | exact fun _ h => h | exact fun _ h => List.mem_append_left _ h | (with_reducible intro g hg; simp only [detectFamilies, List.mem_append, List.mem_cons, List.not_mem_nil, or_false] at hg ⊢; tauto) | split | simp only [RegsFrame.mk_iff] | with_reducible exact RegsFrame.of_regs rfl | dsimp only

theorem replaceBank_only {o : State} {ff : List Field} {gf : List (Nat → Field)} (s : State) (g : Nat) (h0 : RegsFrame o s ff gf)
    (sub : ∀ f ∈ (detectFields ++ [Reg.ETH_STATUS.LINK, Reg.LEDGER_SPARES.USED, Reg.LEDGER_STATUS.REBUILD_PENDING] : List Field), f.key ∈ ff.map Field.key)
    (subg : ∀ g ∈ (detectFamilies ++ [Reg.TENON_LINK_STATUS.STATE] : List (Nat → Field)), g ∈ gf) : RegsFrame o (replaceBank s g) ff gf := by
  refine RegsFrame.via h0 ?_ sub subg; clear h0 sub subg; unfold replaceBank; (try dsimp only)
  repeat' first | with_reducible exact RegsFrame.refl _ _ _ | with_reducible refine RegsFrame.set ?_ (by decide) _ | with_reducible apply retireUnit_only | with_reducible apply scheduleRebuild_only | exact fun _ h => List.mem_map_of_mem h | exact fun _ h => List.mem_map_of_mem (List.mem_append_left _ h) | with_reducible refine RegsFrame.sub_append ?_ ?_ | exact (by decide) | exact List.forall_mem_nil _ | exact List.forall_mem_nil _ | exact fun _ h => h | exact fun _ h => List.mem_append_left _ h | (with_reducible intro g hg; simp only [detectFamilies, List.mem_append, List.mem_cons, List.not_mem_nil, or_false] at hg ⊢; tauto) | split | simp only [RegsFrame.mk_iff] | with_reducible exact RegsFrame.of_regs rfl | dsimp only

theorem offerCopy_only {o : State} {ff : List Field} {gf : List (Nat → Field)} (s : State) (img : Image) (d : DoneTask) (equal : Bool) (h0 : RegsFrame o s ff gf)
    (sub : ∀ f ∈ (detectFields ++ [Reg.ORDER_CONFLICT_COUNT.CONFLICTS, Reg.ORDER_STATUS.SCORE_CONFLICT] : List Field), f.key ∈ ff.map Field.key)
    (subg : ∀ g ∈ (detectFamilies : List (Nat → Field)), g ∈ gf) : RegsFrame o (offerCopy s img d equal) ff gf := by
  refine RegsFrame.via h0 ?_ sub subg; clear h0 sub subg; unfold offerCopy; (try dsimp only)
  repeat' first | with_reducible exact RegsFrame.refl _ _ _ | with_reducible refine RegsFrame.draw ?_ _ | with_reducible refine RegsFrame.foldl (fun _ _ => ?_) ?_ | with_reducible refine RegsFrame.foldl_fst (fun _ _ => ?_) ?_ | with_reducible refine RegsFrame.foldl_snd (fun _ _ => ?_) ?_ | with_reducible apply offerRecord_only | exact fun _ h => List.mem_map_of_mem h | exact fun _ h => List.mem_map_of_mem (List.mem_append_left _ h) | with_reducible refine RegsFrame.sub_append ?_ ?_ | exact (by decide) | exact List.forall_mem_nil _ | exact List.forall_mem_nil _ | exact fun _ h => h | exact fun _ h => List.mem_append_left _ h | (with_reducible intro g hg; simp only [detectFamilies, List.mem_append, List.mem_cons, List.not_mem_nil, or_false] at hg ⊢; tauto) | split | simp only [RegsFrame.mk_iff] | with_reducible exact RegsFrame.of_regs rfl | dsimp only

theorem endTest_only {o : State} {ff : List Field} {gf : List (Nat → Field)} (s : State) (cls idx : Nat) (pass : Bool) (h0 : RegsFrame o s ff gf)
    (sub : ∀ f ∈ (detectFields ++ [Reg.ETH_STATUS.LINK] : List Field), f.key ∈ ff.map Field.key)
    (subg : ∀ g ∈ (detectFamilies ++ [Reg.TENON_LINK_STATUS.STATE] : List (Nat → Field)), g ∈ gf) : RegsFrame o (endTest s cls idx pass) ff gf := by
  refine RegsFrame.via h0 ?_ sub subg; clear h0 sub subg; unfold endTest; (try dsimp only)
  repeat' first | with_reducible apply settleSuspects_only | with_reducible exact RegsFrame.refl _ _ _ | with_reducible apply setUnit_only | with_reducible apply detect_only | with_reducible apply retireUnit_only | with_reducible apply showUnit_only | exact fun _ h => List.mem_map_of_mem h | exact fun _ h => List.mem_map_of_mem (List.mem_append_left _ h) | with_reducible refine RegsFrame.sub_append ?_ ?_ | exact (by decide) | exact List.forall_mem_nil _ | exact List.forall_mem_nil _ | exact fun _ h => h | exact fun _ h => List.mem_append_left _ h | (with_reducible intro g hg; simp only [detectFamilies, List.mem_append, List.mem_cons, List.not_mem_nil, or_false] at hg ⊢; tauto) | split | simp only [RegsFrame.mk_iff] | with_reducible exact RegsFrame.of_regs rfl | dsimp only

theorem endSlice_only {o : State} {ff : List Field} {gf : List (Nat → Field)} (s : State) (cls idx : Nat) (h0 : RegsFrame o s ff gf)
    (sub : ∀ f ∈ ([Reg.FAULT_MAINT_HELD.HELD, Reg.JIG_STATUS.PEND_READY, Reg.JIG_STATUS.TRACE_FULL, Reg.JIG_TRACE_LOST.COUNT, Reg.JIG_TRACE_WR.INDEX, Reg.JIG_TRACE_WR.WRAPS] : List Field), f.key ∈ ff.map Field.key)
    (subg : ∀ g ∈ ([Reg.TILE_JIG_STATE.READY, Reg.TILE_JIG_STATE.RUNNING] : List (Nat → Field)), g ∈ gf) : RegsFrame o (endSlice s cls idx) ff gf := by
  refine RegsFrame.via h0 ?_ sub subg; clear h0 sub subg; unfold endSlice; (try dsimp only)
  repeat' first | with_reducible exact RegsFrame.refl _ _ _ | with_reducible apply setDesc_only | with_reducible apply dropToken_only | with_reducible apply showAgent_only | with_reducible apply trace_only | exact fun _ h => List.mem_map_of_mem h | exact fun _ h => List.mem_map_of_mem (List.mem_append_left _ h) | with_reducible refine RegsFrame.sub_append ?_ ?_ | exact (by decide) | exact List.forall_mem_nil _ | exact List.forall_mem_nil _ | exact fun _ h => h | exact fun _ h => List.mem_append_left _ h | (with_reducible intro g hg; simp only [detectFamilies, List.mem_append, List.mem_cons, List.not_mem_nil, or_false] at hg ⊢; tauto) | split | simp only [RegsFrame.mk_iff] | with_reducible exact RegsFrame.of_regs rfl | dsimp only

theorem advanceTo_only {o : State} {ff : List Field} {gf : List (Nat → Field)} (s : State) (t : Int) (h0 : RegsFrame o s ff gf) : RegsFrame o (advanceTo s t) ff gf :=
  h0.trans (RegsFrame.of_regs (by simp))

theorem addCredits_only {o : State} {ff : List Field} {gf : List (Nat → Field)} (s : State) (l pool n : Nat) (h0 : RegsFrame o s ff gf)
    (sub : ∀ f ∈ ([] : List Field), f.key ∈ ff.map Field.key)
    (subg : ∀ g ∈ ([Reg.TENON_LINK_CREDITS.SHARED, Reg.TENON_LINK_CREDITS.VC0, Reg.TENON_LINK_CREDITS.VC1, Reg.TENON_LINK_CREDITS.VC2, Reg.TENON_LINK_CREDITS.VC3] : List (Nat → Field)), g ∈ gf) : RegsFrame o (addCredits s l pool n) ff gf := by
  refine RegsFrame.via h0 ?_ sub subg; clear h0 sub subg; unfold addCredits; (try dsimp only)
  repeat' first | with_reducible exact RegsFrame.refl _ _ _ | with_reducible refine RegsFrame.set ?_ (by decide) _ | with_reducible apply creditField_set | with_reducible apply pumpLink_only | exact fun _ h => List.mem_map_of_mem h | exact fun _ h => List.mem_map_of_mem (List.mem_append_left _ h) | with_reducible refine RegsFrame.sub_append ?_ ?_ | exact (by decide) | exact List.forall_mem_nil _ | exact List.forall_mem_nil _ | exact fun _ h => h | exact fun _ h => List.mem_append_left _ h | (with_reducible intro g hg; simp only [detectFamilies, List.mem_append, List.mem_cons, List.not_mem_nil, or_false] at hg ⊢; tauto) | split | simp only [RegsFrame.mk_iff] | with_reducible exact RegsFrame.of_regs rfl | dsimp only

theorem sendNak_only {o : State} {ff : List Field} {gf : List (Nat → Field)} (s : State) (l : Nat) (h0 : RegsFrame o s ff gf) : RegsFrame o (sendNak s l) ff gf :=
  h0.trans (RegsFrame.of_regs (by simp))

theorem countCodeword_only {o : State} {ff : List Field} {gf : List (Nat → Field)} (s : State) (l : Nat) (f : Flit) (h0 : RegsFrame o s ff gf)
    (sub : ∀ f ∈ ([Reg.FAULT_MAINT_HELD.HELD, Reg.FAULT_MAINT_LAST.HOLDER, Reg.FAULT_MAINT_LAST.REQUESTED, Reg.FAULT_MAINT_REFUSED.COUNT] : List Field), f.key ∈ ff.map Field.key)
    (subg : ∀ g ∈ ([Reg.TENON_LINK_FEC_CORR.COUNT, Reg.TENON_LINK_FEC_UNCORR.COUNT, Reg.TENON_LINK_RETRAINS.COUNT, Reg.TENON_LINK_STATUS.STATE] : List (Nat → Field)), g ∈ gf) : RegsFrame o (countCodeword s l f) ff gf := by
  refine RegsFrame.via h0 ?_ sub subg; clear h0 sub subg; unfold countCodeword; (try dsimp only)
  repeat' first | with_reducible exact RegsFrame.refl _ _ _ | with_reducible refine RegsFrame.inc ?_ (by decide) | with_reducible refine RegsFrame.incF (g := Reg.TENON_LINK_FEC_CORR.COUNT) ?_ (by simp [detectFamilies]) _ | with_reducible refine RegsFrame.incF (g := Reg.TENON_LINK_FEC_UNCORR.COUNT) ?_ (by simp [detectFamilies]) _ | with_reducible apply setLink_only | with_reducible apply requestRetrain_only | exact fun _ h => List.mem_map_of_mem h | exact fun _ h => List.mem_map_of_mem (List.mem_append_left _ h) | with_reducible refine RegsFrame.sub_append ?_ ?_ | exact (by decide) | exact List.forall_mem_nil _ | exact List.forall_mem_nil _ | exact fun _ h => h | exact fun _ h => List.mem_append_left _ h | (with_reducible intro g hg; simp only [detectFamilies, List.mem_append, List.mem_cons, List.not_mem_nil, or_false] at hg ⊢; tauto) | split | simp only [RegsFrame.mk_iff] | with_reducible exact RegsFrame.of_regs rfl | dsimp only

theorem linkAgain_only {o : State} {ff : List Field} {gf : List (Nat → Field)} (s : State) (link : Nat) (h0 : RegsFrame o s ff gf)
    (sub : ∀ f ∈ (detectFields ++ [Reg.ETH_STATUS.LINK, Reg.FAULT_MAINT_HELD.HELD] : List Field), f.key ∈ ff.map Field.key)
    (subg : ∀ g ∈ (detectFamilies ++ [Reg.TENON_LINK_STATUS.STATE] : List (Nat → Field)), g ∈ gf) : RegsFrame o (linkAgain s link) ff gf := by
  refine RegsFrame.via h0 ?_ sub subg; clear h0 sub subg; unfold linkAgain; (try dsimp only)
  repeat' first | with_reducible exact RegsFrame.refl _ _ _ | with_reducible apply setLink_only | with_reducible apply detect_only | with_reducible apply dropToken_only | with_reducible apply endTest_only | exact fun _ h => List.mem_map_of_mem h | exact fun _ h => List.mem_map_of_mem (List.mem_append_left _ h) | with_reducible refine RegsFrame.sub_append ?_ ?_ | exact (by decide) | exact List.forall_mem_nil _ | exact List.forall_mem_nil _ | exact fun _ h => h | exact fun _ h => List.mem_append_left _ h | (with_reducible intro g hg; simp only [detectFamilies, List.mem_append, List.mem_cons, List.not_mem_nil, or_false] at hg ⊢; tauto) | split | simp only [RegsFrame.mk_iff] | with_reducible exact RegsFrame.of_regs rfl | dsimp only

theorem linkFirst_only {o : State} {ff : List Field} {gf : List (Nat → Field)} (s : State) (link : Nat) (h0 : RegsFrame o s ff gf)
    (sub : ∀ f ∈ ([] : List Field), f.key ∈ ff.map Field.key)
    (subg : ∀ g ∈ ([Reg.TENON_LINK_CREDITS.SHARED, Reg.TENON_LINK_CREDITS.VC0, Reg.TENON_LINK_CREDITS.VC1, Reg.TENON_LINK_CREDITS.VC2, Reg.TENON_LINK_CREDITS.VC3] : List (Nat → Field)), g ∈ gf) : RegsFrame o (linkFirst s link) ff gf := by
  refine RegsFrame.via h0 ?_ sub subg; clear h0 sub subg; unfold linkFirst; (try dsimp only)
  repeat' first | with_reducible exact RegsFrame.refl _ _ _ | with_reducible refine RegsFrame.set ?_ (by decide) _ | with_reducible refine RegsFrame.foldl (fun _ _ => ?_) ?_ | with_reducible refine RegsFrame.foldl_fst (fun _ _ => ?_) ?_ | with_reducible refine RegsFrame.foldl_snd (fun _ _ => ?_) ?_ | with_reducible apply creditField_set | with_reducible apply setLink_only | exact fun _ h => List.mem_map_of_mem h | exact fun _ h => List.mem_map_of_mem (List.mem_append_left _ h) | with_reducible refine RegsFrame.sub_append ?_ ?_ | exact (by decide) | exact List.forall_mem_nil _ | exact List.forall_mem_nil _ | exact fun _ h => h | exact fun _ h => List.mem_append_left _ h | (with_reducible intro g hg; simp only [detectFamilies, List.mem_append, List.mem_cons, List.not_mem_nil, or_false] at hg ⊢; tauto) | split | simp only [RegsFrame.mk_iff] | with_reducible exact RegsFrame.of_regs rfl | dsimp only

theorem linkTrained_only {o : State} {ff : List Field} {gf : List (Nat → Field)} (s : State) (link latencyPs : Nat) (h0 : RegsFrame o s ff gf)
    (sub : ∀ f ∈ (detectFields ++ [Reg.ETH_STATUS.LINK, Reg.FAULT_MAINT_HELD.HELD, Reg.FAULT_MAINT_LAST.HOLDER, Reg.FAULT_MAINT_LAST.REQUESTED, Reg.FAULT_MAINT_REFUSED.COUNT, Reg.TENON_CLAMP_SKEW_PS.SKEW, Reg.TENON_CMD_STATUS.RESULT, Reg.TENON_STATUS.STATE] : List Field), f.key ∈ ff.map Field.key)
    (subg : ∀ g ∈ (detectFamilies ++ [Reg.TENON_LINK_LAT_PS.LATENCY, Reg.TENON_LINK_REPLAYS.COUNT, Reg.TENON_LINK_RETRAINS.COUNT, Reg.TENON_LINK_STATUS.STATE] : List (Nat → Field)), g ∈ gf) : RegsFrame o (linkTrained s link latencyPs) ff gf := by
  refine RegsFrame.via h0 ?_ sub subg; clear h0 sub subg; unfold linkTrained; (try dsimp only)
  repeat' first | with_reducible exact RegsFrame.refl _ _ _ | with_reducible refine RegsFrame.set ?_ (by decide) _ | with_reducible refine RegsFrame.setF (g := Reg.TENON_LINK_LAT_PS.LATENCY) ?_ (by simp [detectFamilies]) _ _ | with_reducible refine RegsFrame.setF (g := Reg.TENON_LINK_STATUS.STATE) ?_ (by simp [detectFamilies]) _ _ | with_reducible apply clampIfDue_only | with_reducible apply linkAgain_only | with_reducible apply linkFirst_only | with_reducible apply pumpLink_only | with_reducible apply replayEpisode_only | exact fun _ h => List.mem_map_of_mem h | exact fun _ h => List.mem_map_of_mem (List.mem_append_left _ h) | with_reducible refine RegsFrame.sub_append ?_ ?_ | exact (by decide) | exact List.forall_mem_nil _ | exact List.forall_mem_nil _ | exact fun _ h => h | exact fun _ h => List.mem_append_left _ h | (with_reducible intro g hg; simp only [detectFamilies, List.mem_append, List.mem_cons, List.not_mem_nil, or_false] at hg ⊢; tauto) | split | simp only [RegsFrame.mk_iff] | with_reducible exact RegsFrame.of_regs rfl | dsimp only

theorem supplyError_only {o : State} {ff : List Field} {gf : List (Nat → Field)} (s : State) (h0 : RegsFrame o s ff gf)
    (sub : ∀ f ∈ (detectFields : List Field), f.key ∈ ff.map Field.key)
    (subg : ∀ g ∈ (detectFamilies : List (Nat → Field)), g ∈ gf) : RegsFrame o (supplyError s) ff gf := by
  refine RegsFrame.via h0 ?_ sub subg; clear h0 sub subg; unfold supplyError; (try dsimp only)
  repeat' first | with_reducible exact RegsFrame.refl _ _ _ | with_reducible apply detect_only | exact fun _ h => List.mem_map_of_mem h | exact fun _ h => List.mem_map_of_mem (List.mem_append_left _ h) | with_reducible refine RegsFrame.sub_append ?_ ?_ | exact (by decide) | exact List.forall_mem_nil _ | exact List.forall_mem_nil _ | exact fun _ h => h | exact fun _ h => List.mem_append_left _ h | (with_reducible intro g hg; simp only [detectFamilies, List.mem_append, List.mem_cons, List.not_mem_nil, or_false] at hg ⊢; tauto) | split | simp only [RegsFrame.mk_iff] | with_reducible exact RegsFrame.of_regs rfl | dsimp only
end Sys2Proof.Machine
end

