-- ==== Sys2Proof/Laws/Kept.lean ====
section
/-! SUPPORT. What every shared operation keeps: the canonical form of the byte stores, the rollback floor (it never falls), and the
count of free values drawn (it never falls). -/

namespace Sys2Proof.Machine

/-- What every operation keeps: the canonical form of the byte stores, a bound the rollback floor has reached, and a count of free
values drawn. -/
def KeptParts (nf nv : Nat) (slotA slotB xspiA xspiB : Slot) (staged ring : List Host.Cell) (floorA floorCountA floorB floorCountB floorAuth fresh : Nat) : Prop :=
  (slotA.wf && slotB.wf && xspiA.wf && xspiB.wf && Memory.wf erased staged && Memory.wf 0 ring) = true ∧
  nf ≤ (if bitOf floorAuth 0 && (!bitOf floorAuth 1 || decide (floorCountB ≤ floorCountA)) then some floorA
    else if bitOf floorAuth 1 then some floorB else none).getD 0 ∧ nv ≤ fresh

def Kept (nf nv : Nat) (s : State) : Prop :=
  KeptParts nf nv s.cfg.slotA s.cfg.slotB s.cfg.xspiA s.cfg.xspiB s.cfg.staged s.digest.ring s.cfg.floorA s.cfg.floorCountA s.cfg.floorB
    s.cfg.floorCountB s.cfg.floorAuth s.fresh

theorem kept_iff {nf nv : Nat} {s : State} : Kept nf nv s ↔ s.memoryWf = true ∧ nf ≤ s.floor ∧ nv ≤ s.fresh := Iff.rfl

variable {nf nv : Nat}

theorem kept_mk {r f c w l o so sp j sa pi di fa dg et te po se jt wa ac fr pe} :
    Kept nf nv (State.mk r f c w l o so sp j sa pi di fa dg et te po se jt wa ac fr pe) ↔
      KeptParts nf nv c.slotA c.slotB c.xspiA c.xspiB c.staged dg.ring c.floorA c.floorCountA c.floorB c.floorCountB c.floorAuth fr := Iff.rfl

theorem kept_fold {s : State} (h : Kept nf nv s) :
    KeptParts nf nv s.cfg.slotA s.cfg.slotB s.cfg.xspiA s.cfg.xspiB s.cfg.staged s.digest.ring s.cfg.floorA s.cfg.floorCountA s.cfg.floorB
      s.cfg.floorCountB s.cfg.floorAuth s.fresh := h

theorem kept_set {s : State} (h : Kept nf nv s) (f : Field) (v : Nat) : Kept nf nv (s.set f v) := h
theorem kept_inc {s : State} (h : Kept nf nv s) (f : Field) : Kept nf nv (s.inc f) := h
theorem kept_add {s : State} (h : Kept nf nv s) (f : Field) (k : Nat) : Kept nf nv (s.add f k) := h
theorem kept_set64 {s : State} (h : Kept nf nv s) (lo hi : Field) (v : Nat) : Kept nf nv (s.set64 lo hi v) := h
theorem kept_draw {s : State} (h : Kept nf nv s) (w : Nat) : Kept nf nv (s.draw w).2 := ⟨h.1, h.2.1, Nat.le_succ_of_le h.2.2⟩

theorem kept_foldl {β : Type} {g : State → β → State} {l : List β} {s : State} (hg : ∀ s x, Kept nf nv s → Kept nf nv (g s x))
    (h : Kept nf nv s) : Kept nf nv (l.foldl g s) := by
  induction l generalizing s with
  | nil => exact h
  | cons x l ih => exact ih (hg s x h)
theorem kept_foldl_fst {β γ : Type} {g : State × γ → β → State × γ} {l : List β} {a : State × γ}
    (hg : ∀ a x, Kept nf nv a.1 → Kept nf nv (g a x).1) (h : Kept nf nv a.1) : Kept nf nv (l.foldl g a).1 := by
  induction l generalizing a with
  | nil => exact h
  | cons x l ih => exact ih (hg a x h)
theorem kept_foldl_snd {β γ : Type} {g : γ × State → β → γ × State} {l : List β} {a : γ × State}
    (hg : ∀ a x, Kept nf nv a.2 → Kept nf nv (g a x).2) (h : Kept nf nv a.2) : Kept nf nv (l.foldl g a).2 := by
  induction l generalizing a with
  | nil => exact h
  | cons x l ih => exact ih (hg a x h)

/-- A state whose stores, floor record and count are the same keeps the same. -/
theorem kept_congr {s t : State} (h : Kept nf nv s) (hc : t.cfg = s.cfg) (hd : t.digest = s.digest) (hf : t.fresh = s.fresh) : Kept nf nv t := by
  unfold Kept; rw [hc, hd, hf]; exact h

theorem swapTable_kept (s : State) (table : List (Nat × Nat)) (clipped gen : Nat)  (hk : Kept nf nv s) : Kept nf nv (swapTable s table clipped gen) := by
  exact kept_congr hk (by simp) (by simp) (by simp)

theorem putTable_kept (s : State) (t : List (Nat × Nat) × Nat) (gen : Nat)  (hk : Kept nf nv s) : Kept nf nv (putTable s t gen) := by
  exact kept_congr hk (by simp) (by simp) (by simp)

theorem publishTraj_kept (s : State) (img : Image) (tr : QTraj) (k verdict : Nat) (island : Bool)  (hk : Kept nf nv s) : Kept nf nv (publishTraj s img tr k verdict island) := by
  exact kept_congr hk (by simp) (by simp) (by simp)

theorem publishHold_kept (s : State) (img : Image) (k : Nat)  (hk : Kept nf nv s) : Kept nf nv (publishHold s img k) := by
  exact kept_congr hk (by simp) (by simp) (by simp)

theorem emptyTable_kept (s : State)  (hk : Kept nf nv s) : Kept nf nv (emptyTable s) := by
  exact kept_congr hk (by simp) (by simp) (by simp)

theorem setPhase_kept (s : State) (ph : Nat)  (hk : Kept nf nv s) : Kept nf nv (setPhase s ph) := by
  exact kept_congr hk (by simp) (by simp) (by simp)

theorem setLink_kept (s : State) (l : Nat) (x : LinkSt)  (hk : Kept nf nv s) : Kept nf nv (State.setLink s l x) := by
  exact kept_congr hk (by simp) (by simp) (by simp)

theorem pumpLink_kept (s : State) (l : Nat)  (hk : Kept nf nv s) : Kept nf nv (pumpLink s l) := by
  exact kept_congr hk (by simp) (by simp) (by simp)

theorem sendFlit_kept (s : State) (l : Nat) (f : OutFlit)  (hk : Kept nf nv s) : Kept nf nv (sendFlit s l f) := by
  exact kept_congr hk (by simp) (by simp) (by simp)

theorem sendToken_kept (s : State) (l kind flags dest : Nat) (e : Epoch) (v0 v1 : Nat)  (hk : Kept nf nv s) : Kept nf nv (sendToken s l kind flags dest e v0 v1) := by
  exact kept_congr hk (by simp) (by simp) (by simp)

theorem sendMessage_kept (s : State) (l : Nat) (fs : List OutFlit)  (hk : Kept nf nv s) : Kept nf nv (sendMessage s l fs) := by
  exact kept_congr hk (by simp) (by simp) (by simp)

theorem maintMessage_kept (s : State) (l dest kind : Nat)  (hk : Kept nf nv s) : Kept nf nv (maintMessage s l dest kind) := by
  unfold maintMessage; (try dsimp only)
  repeat' first | with_reducible assumption | with_reducible apply kept_draw | with_reducible apply sendMessage_kept | with_reducible apply kept_fold | split | simp only [kept_mk] | dsimp only | simp only [State.set_same, State.inc_same, State.add_same]

theorem tryConfirm_kept (s : State) (e : Epoch)  (hk : Kept nf nv s) : Kept nf nv (tryConfirm s e) := by
  exact kept_congr hk (by simp) (by simp) (by simp)

theorem condemn_kept (s : State) (e : Epoch) (cause : Nat)  (hk : Kept nf nv s) : Kept nf nv (condemn s e cause) := by
  exact kept_congr hk (by simp) (by simp) (by simp)

theorem armedStatus_kept (s : State)  (hk : Kept nf nv s) : Kept nf nv (armedStatus s) := by
  exact kept_congr hk (by simp) (by simp) (by simp)

theorem setMode_kept (s : State) (m : Nat)  (hk : Kept nf nv s) : Kept nf nv (setMode s m) := by
  exact kept_congr hk (by simp) (by simp) (by simp)

theorem showSpecEpoch_kept (s : State)  (hk : Kept nf nv s) : Kept nf nv (showSpecEpoch s) := by
  exact kept_congr hk (by simp) (by simp) (by simp)

theorem dropSpecDescs_kept (s : State)  (hk : Kept nf nv s) : Kept nf nv (dropSpecDescs s) := by
  exact kept_congr hk (by simp) (by simp) (by simp)

theorem discardAll_kept (s : State)  (hk : Kept nf nv s) : Kept nf nv (discardAll s) := by
  exact kept_congr hk (by simp) (by simp) (by simp)

theorem discardBefore_kept (s : State) (e : Epoch)  (hk : Kept nf nv s) : Kept nf nv (discardBefore s e) := by
  exact kept_congr hk (by simp) (by simp) (by simp)

theorem endJobs_kept (s : State) (frameBound : Nat) (refine : Option Nat)  (hk : Kept nf nv s) : Kept nf nv (endJobs s frameBound refine) := by
  exact kept_congr hk (by simp) (by simp) (by simp)

theorem stopMain_kept (s : State)  (hk : Kept nf nv s) : Kept nf nv (stopMain s) := by
  unfold stopMain; (try dsimp only)
  repeat' first | with_reducible assumption | with_reducible apply kept_set | with_reducible apply condemn_kept | with_reducible apply discardAll_kept | with_reducible apply kept_fold | split | simp only [kept_mk] | dsimp only | simp only [State.set_same, State.inc_same, State.add_same]

theorem restartAs_kept (s : State) (warm : Bool)  (hk : Kept nf nv s) : Kept nf nv (restartAs s warm) := by
  unfold restartAs; (try dsimp only)
  repeat' first | with_reducible assumption | with_reducible apply kept_set | with_reducible apply kept_inc | with_reducible apply endJobs_kept | with_reducible apply stopMain_kept | with_reducible apply kept_fold | split | simp only [kept_mk] | dsimp only | simp only [State.set_same, State.inc_same, State.add_same]

theorem beginRestart_kept (s : State)  (hk : Kept nf nv s) : Kept nf nv (beginRestart s) := by
  unfold beginRestart; (try dsimp only)
  repeat' first | with_reducible assumption | with_reducible apply restartAs_kept | with_reducible apply kept_fold | split | simp only [kept_mk] | dsimp only | simp only [State.set_same, State.inc_same, State.add_same]

theorem chargeSlot_kept (s : State) (i : Nat)  (hk : Kept nf nv s) : Kept nf nv (chargeSlot s i) := by
  exact kept_congr hk (by simp) (by simp) (by simp)

theorem startFailed_kept (s : State)  (hk : Kept nf nv s) : Kept nf nv (startFailed s) := by
  unfold startFailed; (try dsimp only)
  repeat' first | with_reducible assumption | with_reducible apply kept_set | with_reducible apply chargeSlot_kept | with_reducible apply restartAs_kept | with_reducible apply kept_fold | split | simp only [kept_mk] | dsimp only | simp only [State.set_same, State.inc_same, State.add_same]

theorem enterSafe_kept (s : State)  (hk : Kept nf nv s) : Kept nf nv (enterSafe s) := by
  unfold enterSafe; (try dsimp only)
  repeat' first | with_reducible assumption | with_reducible apply kept_set | with_reducible apply kept_inc | with_reducible apply beginRestart_kept | with_reducible apply setMode_kept | with_reducible apply kept_fold | split | simp only [kept_mk] | dsimp only | simp only [State.set_same, State.inc_same, State.add_same]

theorem publishEntry_kept (s : State) (k : Nat)  (hk : Kept nf nv s) : Kept nf nv (publishEntry s k) := by
  exact kept_congr hk (by simp) (by simp) (by simp)

theorem enterNow_kept (s : State)  (hk : Kept nf nv s) : Kept nf nv (enterNow s) := by
  unfold enterNow; (try dsimp only)
  repeat' first | with_reducible assumption | with_reducible apply kept_set | with_reducible apply armedStatus_kept | with_reducible apply enterSafe_kept | with_reducible apply publishEntry_kept | with_reducible apply kept_fold | split | simp only [kept_mk] | dsimp only | simp only [State.set_same, State.inc_same, State.add_same]

theorem permanentFault_kept (s : State)  (hk : Kept nf nv s) : Kept nf nv (permanentFault s) := by
  exact kept_congr hk (by simp) (by simp) (by simp)

theorem setUnit_kept (s : State) (cls idx : Nat) (u : UnitSt)  (hk : Kept nf nv s) : Kept nf nv (State.setUnit s cls idx u) := by
  exact kept_congr hk (by simp) (by simp) (by simp)

theorem showUnit_kept (s : State) (cls idx : Nat)  (hk : Kept nf nv s) : Kept nf nv (showUnit s cls idx) := by
  exact kept_congr hk (by simp) (by simp) (by simp)

theorem makeSuspect_kept (s : State) (cls idx : Nat)  (hk : Kept nf nv s) : Kept nf nv (makeSuspect s cls idx) := by
  exact kept_congr hk (by simp) (by simp) (by simp)

theorem showTokens_kept (s : State)  (hk : Kept nf nv s) : Kept nf nv (showTokens s) := by
  exact kept_congr hk (by simp) (by simp) (by simp)

theorem takeToken_kept (s : State) (t : Token)  (hk : Kept nf nv s) : Kept nf nv (takeToken s t).2 := by
  exact kept_congr hk (by simp) (by simp) (by simp)

theorem dropToken_kept (s : State) (t : Token)  (hk : Kept nf nv s) : Kept nf nv (dropToken s t) := by
  exact kept_congr hk (by simp) (by simp) (by simp)

theorem sense_kept (s : State)  (hk : Kept nf nv s) : Kept nf nv (State.sense s) := by
  unfold State.sense; (try dsimp only)
  repeat' first | with_reducible assumption | with_reducible apply kept_set | with_reducible apply kept_draw | with_reducible apply kept_fold | split | simp only [kept_mk] | dsimp only | simp only [State.set_same, State.inc_same, State.add_same]

theorem issueRecord_kept (s : State) (h : Handling) (test : Nat)  (hk : Kept nf nv s) : Kept nf nv (issueRecord s h test) := by
  unfold issueRecord; (try dsimp only)
  repeat' first | with_reducible assumption | with_reducible apply kept_set | with_reducible apply kept_inc | with_reducible apply kept_draw | with_reducible apply sense_kept | with_reducible apply kept_fold | split | simp only [kept_mk] | dsimp only | simp only [State.set_same, State.inc_same, State.add_same]

theorem closeError_kept (s : State) (h : Handling) (test : Nat)  (hk : Kept nf nv s) : Kept nf nv (closeError s h test) := by
  unfold closeError; (try dsimp only)
  repeat' first | with_reducible assumption | with_reducible apply kept_inc | with_reducible apply issueRecord_kept | with_reducible apply kept_fold | split | simp only [kept_mk] | dsimp only | simp only [State.set_same, State.inc_same, State.add_same]

theorem chargeUnit_kept (s : State) (e : ErrorInfo)  (hk : Kept nf nv s) : Kept nf nv (chargeUnit s e) := by
  exact kept_congr hk (by simp) (by simp) (by simp)

theorem actFatal_kept (s : State) (e : ErrorInfo)  (hk : Kept nf nv s) : Kept nf nv (actFatal s e) := by
  unfold actFatal; (try dsimp only)
  repeat' first | with_reducible assumption | with_reducible apply kept_set | with_reducible apply enterNow_kept | with_reducible apply startFailed_kept | with_reducible apply kept_fold | split | simp only [kept_mk] | dsimp only | simp only [State.set_same, State.inc_same, State.add_same]

theorem showHandler_kept (s : State)  (hk : Kept nf nv s) : Kept nf nv (showHandler s) := by
  exact kept_congr hk (by simp) (by simp) (by simp)

theorem detect_kept (s : State) (e : ErrorInfo)  (hk : Kept nf nv s) : Kept nf nv (detect s e) := by
  unfold detect; (try dsimp only)
  repeat' first | with_reducible assumption | with_reducible apply kept_inc | with_reducible apply actFatal_kept | with_reducible apply chargeUnit_kept | with_reducible apply closeError_kept | with_reducible apply makeSuspect_kept | with_reducible apply showHandler_kept | with_reducible apply kept_fold | split | simp only [kept_mk] | dsimp only | simp only [State.set_same, State.inc_same, State.add_same]

theorem detectPermanent_kept (s : State) (e : ErrorInfo)  (hk : Kept nf nv s) : Kept nf nv (detectPermanent s e) := by
  unfold detectPermanent; (try dsimp only)
  repeat' first | with_reducible assumption | with_reducible apply detect_kept | with_reducible apply makeSuspect_kept | with_reducible apply kept_fold | split | simp only [kept_mk] | dsimp only | simp only [State.set_same, State.inc_same, State.add_same]

theorem queueTrans_kept (s : State) (t : List Trans)  (hk : Kept nf nv s) : Kept nf nv (queueTrans s t) := by
  exact kept_congr hk (by simp) (by simp) (by simp)

theorem closeLedger_kept (s : State) (img : Image) (b : List Byte) (e : Epoch) (all : Bool)  (hk : Kept nf nv s) : Kept nf nv (closeLedger s img b e all) := by
  exact kept_congr hk (by simp) (by simp) (by simp)

theorem showShift_kept (s : State)  (hk : Kept nf nv s) : Kept nf nv (showShift s) := by
  exact kept_congr hk (by simp) (by simp) (by simp)

theorem showPending_kept (s : State)  (hk : Kept nf nv s) : Kept nf nv (showPending s) := by
  exact kept_congr hk (by simp) (by simp) (by simp)

theorem rebuildLedger_kept (s : State) (img : Image) (b : List Byte) (e : Epoch) (cause : Nat)  (hk : Kept nf nv s) : Kept nf nv (rebuildLedger s img b e cause) := by
  exact kept_congr hk (by simp) (by simp) (by simp)

theorem scheduleRebuild_kept (s : State) (cause : Nat)  (hk : Kept nf nv s) : Kept nf nv (scheduleRebuild s cause) := by
  exact kept_congr hk (by simp) (by simp) (by simp)

theorem scheduleShift_kept (s : State) (e : Epoch)  (hk : Kept nf nv s) : Kept nf nv (scheduleShift s e) := by
  exact kept_congr hk (by simp) (by simp) (by simp)

theorem restartLedger_kept (s : State)  (hk : Kept nf nv s) : Kept nf nv (restartLedger s) := by
  exact kept_congr hk (by simp) (by simp) (by simp)

theorem setDesc_kept (s : State) (tile d : Nat) (x : Desc)  (hk : Kept nf nv s) : Kept nf nv (State.setDesc s tile d x) := by
  exact kept_congr hk (by simp) (by simp) (by simp)

theorem tally_kept (s : State) (f : Field) (n : Nat)  (hk : Kept nf nv s) : Kept nf nv (State.tally s f n) := by
  exact kept_congr hk (by simp) (by simp) (by simp)

theorem showAgent_kept (s : State) (tile : Nat)  (hk : Kept nf nv s) : Kept nf nv (showAgent s tile) := by
  exact kept_congr hk (by simp) (by simp) (by simp)

theorem trace_kept (s : State) (cls event tile d : Nat) (x : Desc) (detail : Nat)  (hk : Kept nf nv s) : Kept nf nv (trace s cls event tile d x detail) := by
  unfold trace; (try dsimp only)
  repeat' first | with_reducible assumption | with_reducible apply kept_set | with_reducible apply kept_inc | with_reducible apply kept_draw | with_reducible apply kept_fold | split | simp only [kept_mk] | dsimp only | simp only [State.set_same, State.inc_same, State.add_same]

theorem hold_kept (s : State) (row tile d : Nat) (x : Desc)  (hk : Kept nf nv s) : Kept nf nv (hold s row tile d x) := by
  unfold hold; (try dsimp only)
  repeat' first | with_reducible assumption | with_reducible apply kept_inc | with_reducible apply trace_kept | with_reducible apply kept_fold | split | simp only [kept_mk] | dsimp only | simp only [State.set_same, State.inc_same, State.add_same]

theorem offerTask_kept (s : State) (img : Image) (tile d : Nat)  (hk : Kept nf nv s) : Kept nf nv (offerTask s img tile d) := by
  exact kept_congr hk (by simp) (by simp) (by simp)

theorem makeReady_kept (s : State) (img : Image) (tile d why : Nat)  (hk : Kept nf nv s) : Kept nf nv (makeReady s img tile d why) := by
  unfold makeReady; (try dsimp only)
  repeat' first | with_reducible assumption | with_reducible apply setDesc_kept | with_reducible apply hold_kept | with_reducible apply offerTask_kept | with_reducible apply showAgent_kept | with_reducible apply trace_kept | with_reducible apply kept_fold | split | simp only [kept_mk] | dsimp only | simp only [State.set_same, State.inc_same, State.add_same]

theorem promote_kept (s : State) (tile : Nat)  (hk : Kept nf nv s) : Kept nf nv (promote s tile) := by
  exact kept_congr hk (by simp) (by simp) (by simp)

theorem setSpec_kept (s : State) (x : SpecEp)  (hk : Kept nf nv s) : Kept nf nv (State.setSpec s x) := by
  exact kept_congr hk (by simp) (by simp) (by simp)

theorem offerRecord_kept (s : State) (img : Image) (tile : Nat) (r : SweepRec)  (hk : Kept nf nv s) : Kept nf nv (offerRecord s img tile r) := by
  unfold offerRecord; (try dsimp only)
  repeat' first | with_reducible assumption | with_reducible apply kept_set | with_reducible apply kept_inc | with_reducible apply detect_kept | with_reducible apply kept_fold | split | simp only [kept_mk] | dsimp only | simp only [State.set_same, State.inc_same, State.add_same]

theorem sendBlock_kept (s : State) (img : Image) (e : Epoch) (spec : Bool) (b : Block)  (hk : Kept nf nv s) : Kept nf nv (sendBlock s img e spec b) := by
  exact kept_congr hk (by simp) (by simp) (by simp)

theorem releaseOutput_kept (img : Image) (tile stage : Nat) (s : State) (o : Output)  (hk : Kept nf nv s) : Kept nf nv (releaseOutput img tile stage s o) := by
  unfold releaseOutput; (try dsimp only)
  repeat' first | with_reducible assumption | with_reducible apply kept_set | with_reducible apply tally_kept | with_reducible apply offerRecord_kept | with_reducible apply sendBlock_kept | with_reducible apply kept_fold | split | simp only [kept_mk] | dsimp only | simp only [State.set_same, State.inc_same, State.add_same]

theorem releaseTask_kept (img : Image) (s : State) (d : DoneTask)  (hk : Kept nf nv s) : Kept nf nv (releaseTask img s d) := by
  unfold releaseTask; (try dsimp only)
  repeat' first | with_reducible assumption | with_reducible apply kept_foldl | with_reducible apply releaseOutput_kept | with_reducible apply trace_kept | intro _ | with_reducible apply kept_fold | split | simp only [kept_mk] | dsimp only | simp only [State.set_same, State.inc_same, State.add_same]

theorem releaseFlow_kept (img : Image) (f : Nat) (x0 : Nat) (s : State)  (hk : Kept nf nv s) : Kept nf nv (releaseFlow img f x0 s) := by
  induction x0 generalizing s with
  | zero => exact hk
  | succ k ih =>
    simp only [releaseFlow]; split
    · exact ih _ (releaseTask_kept _ _ _ hk)
    · exact hk

theorem finishTask_kept (s : State) (img : Image) (id t tile : Nat) (outs : List Output)  (hk : Kept nf nv s) : Kept nf nv (finishTask s img id t tile outs) := by
  unfold finishTask; (try dsimp only)
  repeat' first | with_reducible assumption | with_reducible apply releaseFlow_kept | with_reducible apply kept_fold | split | simp only [kept_mk] | dsimp only | simp only [State.set_same, State.inc_same, State.add_same]

theorem admitSlice_kept (s : State) (cls idx : Nat)  (hk : Kept nf nv s) : Kept nf nv (admitSlice s cls idx) := by
  exact kept_congr hk (by simp) (by simp) (by simp)

theorem admitWaiting_kept (s : State)  (hk : Kept nf nv s) : Kept nf nv (admitWaiting s) := by
  exact kept_congr hk (by simp) (by simp) (by simp)

theorem tileSuspect_kept (s : State) (n : Nat)  (hk : Kept nf nv s) : Kept nf nv (tileSuspect s n) := by
  exact kept_congr hk (by simp) (by simp) (by simp)

theorem bindDesc_kept (s : State) (img : Image) (tile d : Nat) (x : Desc)  (hk : Kept nf nv s) : Kept nf nv (bindDesc s img tile d x) := by
  unfold bindDesc; (try dsimp only)
  repeat' first | with_reducible assumption | with_reducible apply setDesc_kept | with_reducible apply makeReady_kept | with_reducible apply showAgent_kept | with_reducible apply kept_fold | split | simp only [kept_mk] | dsimp only | simp only [State.set_same, State.inc_same, State.add_same]

theorem createTask_kept (s : State) (img : Image) (tile : Nat) (kind : TaskKind) (spec : Bool) (e : Epoch) (x : Desc) (d : Nat)  (hk : Kept nf nv s) : Kept nf nv (createTask s img tile kind spec e x d) := by
  unfold createTask; (try dsimp only)
  repeat' first | with_reducible assumption | with_reducible apply setDesc_kept | with_reducible apply bindDesc_kept | with_reducible apply hold_kept | with_reducible apply kept_fold | split | simp only [kept_mk] | dsimp only | simp only [State.set_same, State.inc_same, State.add_same]

theorem runTask_kept (s : State) (tile d reserve thread : Nat)  (hk : Kept nf nv s) : Kept nf nv (runTask s tile d reserve thread) := by
  unfold runTask; (try dsimp only)
  repeat' first | with_reducible assumption | with_reducible apply setDesc_kept | with_reducible apply tally_kept | with_reducible apply promote_kept | with_reducible apply showAgent_kept | with_reducible apply trace_kept | with_reducible apply kept_fold | split | simp only [kept_mk] | dsimp only | simp only [State.set_same, State.inc_same, State.add_same]

theorem trySlice_kept (s : State) (img : Image) (tile d thread : Nat)  (hk : Kept nf nv s) : Kept nf nv (trySlice s img tile d thread) := by
  unfold trySlice; (try dsimp only)
  repeat' first | with_reducible assumption | with_reducible apply kept_inc | with_reducible apply kept_foldl | with_reducible apply setUnit_kept | with_reducible apply offerTask_kept | with_reducible apply runTask_kept | with_reducible apply takeToken_kept | with_reducible apply trace_kept | intro _ | with_reducible apply kept_fold | split | simp only [kept_mk] | dsimp only | simp only [State.set_same, State.inc_same, State.add_same]

theorem yieldTask_kept (s : State) (img : Image) (tile d : Nat) (x : Desc) (why : Yield)  (hk : Kept nf nv s) : Kept nf nv (yieldTask s img tile d x why) := by
  unfold yieldTask; (try dsimp only)
  repeat' first | with_reducible assumption | with_reducible apply setDesc_kept | with_reducible apply showAgent_kept | with_reducible apply trace_kept | with_reducible apply kept_fold | split | simp only [kept_mk] | dsimp only | simp only [State.set_same, State.inc_same, State.add_same]

theorem specFinish_kept (s : State) (y : SpecEp) (id t tile : Nat) (outs : List Output)  (hk : Kept nf nv s) : Kept nf nv (specFinish s y id t tile outs) := by
  unfold specFinish; (try dsimp only)
  repeat' first | with_reducible assumption | with_reducible apply kept_inc | with_reducible apply kept_foldl | with_reducible apply setSpec_kept | with_reducible apply hold_kept | with_reducible apply sendBlock_kept | intro _ | with_reducible apply kept_fold | split | simp only [kept_mk] | dsimp only | simp only [State.set_same, State.inc_same, State.add_same]

theorem countWork_kept (s : State) (img : Image) (x : Desc) (tile : Nat) (outs : List Output)  (hk : Kept nf nv s) : Kept nf nv (countWork s img x tile outs) := by
  exact kept_congr hk (by simp) (by simp) (by simp)

theorem nearMissTest_kept (s : State) (img : Image) (tile : Nat) (e : Epoch)  (hk : Kept nf nv s) : Kept nf nv (nearMissTest s img tile e) := by
  exact kept_congr hk (by simp) (by simp) (by simp)

theorem jobRecord_kept (s : State) (img : Image) (j : Job) (k : Nat)  (hk : Kept nf nv s) : Kept nf nv (jobRecord s img j k).2 := by
  unfold jobRecord; (try dsimp only)
  repeat' first | with_reducible assumption | with_reducible apply kept_draw | with_reducible apply kept_fold | split | simp only [kept_mk] | dsimp only | simp only [State.set_same, State.inc_same, State.add_same]

theorem jobUnit_kept (s : State) (img : Image) (p : Nat)  (hk : Kept nf nv s) : Kept nf nv (jobUnit s img p) := by
  unfold jobUnit; (try dsimp only)
  repeat' first | with_reducible assumption | with_reducible apply jobRecord_kept | with_reducible apply kept_fold | split | simp only [kept_mk] | dsimp only | simp only [State.set_same, State.inc_same, State.add_same]

theorem flagSweep_kept (s : State) (img : Image) (tile t : Nat) (x : Desc)  (hk : Kept nf nv s) : Kept nf nv (flagSweep s img tile t x) := by
  unfold flagSweep; (try dsimp only)
  repeat' first | with_reducible assumption | with_reducible apply setDesc_kept | with_reducible apply makeReady_kept | with_reducible apply kept_fold | split | simp only [kept_mk] | dsimp only | simp only [State.set_same, State.inc_same, State.add_same]

theorem stageOutputsDone_kept (s : State) (img : Image) (tile d id t : Nat) (x : Desc) (outs : List Output)  (hk : Kept nf nv s) : Kept nf nv (stageOutputsDone s img tile d id t x outs) := by
  unfold stageOutputsDone; (try dsimp only)
  repeat' first | with_reducible assumption | with_reducible apply setDesc_kept | with_reducible apply countWork_kept | with_reducible apply finishTask_kept | with_reducible apply flagSweep_kept | with_reducible apply nearMissTest_kept | with_reducible apply showAgent_kept | with_reducible apply specFinish_kept | with_reducible apply kept_fold | split | simp only [kept_mk] | dsimp only | simp only [State.set_same, State.inc_same, State.add_same]

theorem stageComplete_kept (s : State) (img : Image) (tile d id t : Nat) (x : Desc)  (hk : Kept nf nv s) : Kept nf nv (stageComplete s img tile d id t x) := by
  unfold stageComplete; (try dsimp only)
  repeat' first | with_reducible assumption | with_reducible apply setDesc_kept | with_reducible apply showAgent_kept | with_reducible apply stageOutputsDone_kept | with_reducible apply kept_fold | split | simp only [kept_mk] | dsimp only | simp only [State.set_same, State.inc_same, State.add_same]

theorem completeTask_kept (s : State) (img : Image) (tile d : Nat) (x : Desc)  (hk : Kept nf nv s) : Kept nf nv (completeTask s img tile d x) := by
  unfold completeTask; (try dsimp only)
  repeat' first | with_reducible assumption | with_reducible apply setDesc_kept | with_reducible apply jobUnit_kept | with_reducible apply showAgent_kept | with_reducible apply stageComplete_kept | with_reducible apply kept_fold | split | simp only [kept_mk] | dsimp only | simp only [State.set_same, State.inc_same, State.add_same]

theorem answerOffer_kept (s : State) (tile d : Nat) (x : Desc)  (hk : Kept nf nv s) : Kept nf nv (answerOffer s tile d x) := by
  unfold answerOffer; (try dsimp only)
  repeat' first | with_reducible assumption | with_reducible apply setDesc_kept | with_reducible apply tally_kept | with_reducible apply showAgent_kept | with_reducible apply trace_kept | with_reducible apply kept_fold | split | simp only [kept_mk] | dsimp only | simp only [State.set_same, State.inc_same, State.add_same]

theorem showPrediction_kept (s : State) (e : Epoch)  (hk : Kept nf nv s) : Kept nf nv (showPrediction s e) := by
  exact kept_congr hk (by simp) (by simp) (by simp)

theorem beginSpeculation_kept (s : State) (img : Image)  (hk : Kept nf nv s) : Kept nf nv (beginSpeculation s img) := by
  exact kept_congr hk (by simp) (by simp) (by simp)

theorem releaseKept_kept (s : State) (img : Image) (kc : List (Nat × Nat × Nat)) (kr : List SpecRec) (kb : List Block)  (hk : Kept nf nv s) : Kept nf nv (releaseKept s img kc kr kb) := by
  unfold releaseKept; (try dsimp only)
  repeat' first | with_reducible assumption | with_reducible apply kept_foldl | with_reducible apply finishTask_kept | intro _ | with_reducible apply kept_fold | split | simp only [kept_mk] | dsimp only | simp only [State.set_same, State.inc_same, State.add_same]

theorem squash_kept (s : State) (img : Image)  (hk : Kept nf nv s) : Kept nf nv (squash s img) := by
  unfold squash; (try dsimp only)
  repeat' first | with_reducible assumption | with_reducible apply dropSpecDescs_kept | with_reducible apply releaseKept_kept | with_reducible apply showSpecEpoch_kept | with_reducible apply kept_fold | split | simp only [kept_mk] | dsimp only | simp only [State.set_same, State.inc_same, State.add_same]

theorem testSearches_kept (f : Epoch) (touched : List Nat) (s : State)  (hk : Kept nf nv s) : Kept nf nv (testSearches f touched s) := by
  exact kept_congr hk (by simp) (by simp) (by simp)

theorem decideSearch_kept (s : State) (img : Image) (b : List Byte) (e : Epoch)  (hk : Kept nf nv s) : Kept nf nv (decideSearch s img b e) := by
  unfold decideSearch; (try dsimp only)
  repeat' first | with_reducible assumption | with_reducible apply kept_foldl | with_reducible apply finishTask_kept | intro _ | with_reducible apply kept_fold | split | simp only [kept_mk] | dsimp only | simp only [State.set_same, State.inc_same, State.add_same]

theorem rebuildCmd_kept (src : Source) (s : State)  (hk : Kept nf nv s) : Kept nf nv (rebuildCmd src s) := by
  exact kept_congr hk (by simp) (by simp) (by simp)

theorem safetyCopy_kept (s : State) (f : Admitted)  (hk : Kept nf nv s) : Kept nf nv (safetyCopy s f) := by
  exact kept_congr hk (by simp) (by simp) (by simp)

theorem worldDiscard_kept (s : State) (d : Nat)  (hk : Kept nf nv s) : Kept nf nv (worldDiscard s d) := by
  exact kept_congr hk (by simp) (by simp) (by simp)

theorem putAdmitted_kept (s : State) (a : Admitted) (recs good : List WRec)  (hk : Kept nf nv s) : Kept nf nv (putAdmitted s a recs good) := by
  exact kept_congr hk (by simp) (by simp) (by simp)

theorem admitFrame_kept (s : State) (img : Image) (d : Nat) (e : Epoch) (seq : Word) (recs : List WRec) (eoe late : Bool)
    (len : Nat) (raw : List Byte)  (hk : Kept nf nv s) : Kept nf nv (admitFrame s img d e seq recs eoe late len raw) := by
  exact kept_congr hk (by simp) (by simp) (by simp)

theorem admitUpdate_kept (s : State) (partition d : Nat) (named : Epoch) (seq : Word) (payload raw : List Byte) (t : Nat)  (hk : Kept nf nv s) : Kept nf nv (admitUpdate s partition d named seq payload raw t) := by
  exact kept_congr hk (by simp) (by simp) (by simp)

theorem chooseStart_kept (s : State) (img : Image) (e : Epoch)  (hk : Kept nf nv s) : Kept nf nv (chooseStart s img e) := by
  exact kept_congr hk (by simp) (by simp) (by simp)

theorem closeStream_kept (img : Image) (e : Epoch) (s : State) (d : Nat)  (hk : Kept nf nv s) : Kept nf nv (closeStream img e s d) := by
  exact kept_congr hk (by simp) (by simp) (by simp)

theorem shiftLedger_kept (s : State) (img : Image)  (hk : Kept nf nv s) : Kept nf nv (shiftLedger s img) := by
  exact kept_congr hk (by simp) (by simp) (by simp)

theorem markSent_kept (s : State) (img : Image) (b : List Byte)  (hk : Kept nf nv s) : Kept nf nv (markSent s img b) := by
  exact kept_congr hk (by simp) (by simp) (by simp)

theorem closeAdmission_kept (s : State) (img : Image)  (hk : Kept nf nv s) : Kept nf nv (closeAdmission s img) := by
  unfold closeAdmission; (try dsimp only)
  repeat' first | with_reducible assumption | with_reducible apply kept_set | with_reducible apply kept_inc | with_reducible apply kept_foldl | with_reducible apply chooseStart_kept | with_reducible apply closeStream_kept | with_reducible apply markSent_kept | with_reducible apply shiftLedger_kept | with_reducible apply squash_kept | intro _ | with_reducible apply kept_fold | split | simp only [kept_mk] | dsimp only | simp only [State.set_same, State.inc_same, State.add_same]

theorem finishSnapshot_kept (s : State) (img : Image)  (hk : Kept nf nv s) : Kept nf nv (finishSnapshot s img) := by
  exact kept_congr hk (by simp) (by simp) (by simp)

theorem finalPanel_kept (s : State) (img : Image) (l p : Nat)  (hk : Kept nf nv s) : Kept nf nv (finalPanel s img l p) := by
  exact kept_congr hk (by simp) (by simp) (by simp)

theorem keepPanel_kept (s : State) (img : Image) (l p : Nat)  (hk : Kept nf nv s) : Kept nf nv (keepPanel s img l p) := by
  exact kept_congr hk (by simp) (by simp) (by simp)

theorem recomputePanel_kept (s : State) (img : Image) (l p : Nat)  (hk : Kept nf nv s) : Kept nf nv (recomputePanel s img l p) := by
  exact kept_congr hk (by simp) (by simp) (by simp)

theorem completePanel_kept (img : Image) (l : Nat) (s : State) (p : Nat)  (hk : Kept nf nv s) : Kept nf nv (completePanel img l s p) := by
  exact kept_congr hk (by simp) (by simp) (by simp)

theorem completeAssembly_kept (s : State) (img : Image)  (hk : Kept nf nv s) : Kept nf nv (completeAssembly s img) := by
  unfold completeAssembly; (try dsimp only)
  repeat' first | with_reducible assumption | with_reducible apply kept_foldl | with_reducible apply closeAdmission_kept | with_reducible apply completePanel_kept | intro _ | with_reducible apply kept_fold | split | simp only [kept_mk] | dsimp only | simp only [State.set_same, State.inc_same, State.add_same]

theorem beginEpoch_kept (s : State) (e : Epoch)  (hk : Kept nf nv s) : Kept nf nv (beginEpoch s e) := by
  exact kept_congr hk (by simp) (by simp) (by simp)

theorem countCut_kept (s : State) (tile n : Nat)  (hk : Kept nf nv s) : Kept nf nv (countCut s tile n) := by
  exact kept_congr hk (by simp) (by simp) (by simp)

theorem cutTask_kept (img : Image) (id : Nat) (s : State) (t : Nat)  (hk : Kept nf nv s) : Kept nf nv (cutTask img id s t) := by
  unfold cutTask; (try dsimp only)
  repeat' first | with_reducible assumption | with_reducible apply setDesc_kept | with_reducible apply countCut_kept | with_reducible apply finishTask_kept | with_reducible apply showAgent_kept | with_reducible apply kept_fold | split | simp only [kept_mk] | dsimp only | simp only [State.set_same, State.inc_same, State.add_same]

theorem cutStageTasks_kept (img : Image) (s : State) (id : Nat)  (hk : Kept nf nv s) : Kept nf nv (cutStageTasks img s id) := by
  unfold cutStageTasks; (try dsimp only)
  repeat' first | with_reducible assumption | with_reducible apply kept_foldl | with_reducible apply cutTask_kept | intro _ | with_reducible apply kept_fold | split | simp only [kept_mk] | dsimp only | simp only [State.set_same, State.inc_same, State.add_same]

theorem abandonPropose_kept (s : State)  (hk : Kept nf nv s) : Kept nf nv (abandonPropose s) := by
  exact kept_congr hk (by simp) (by simp) (by simp)

theorem sendLists_kept (s : State) (img : Image)  (hk : Kept nf nv s) : Kept nf nv (sendLists s img) := by
  exact kept_congr hk (by simp) (by simp) (by simp)

theorem startRefine_kept (s : State) (img : Image) (e : PEntry)  (hk : Kept nf nv s) : Kept nf nv (startRefine s img e) := by
  exact kept_congr hk (by simp) (by simp) (by simp)

theorem releaseSelection_kept (s : State) (img : Image) (inputs : List PList)  (hk : Kept nf nv s) : Kept nf nv (releaseSelection s img inputs) := by
  unfold releaseSelection; (try dsimp only)
  repeat' first | with_reducible assumption | with_reducible apply kept_set | with_reducible apply kept_add | with_reducible apply detect_kept | with_reducible apply startRefine_kept | with_reducible apply kept_fold | split | simp only [kept_mk] | dsimp only | simp only [State.set_same, State.inc_same, State.add_same]

theorem setRun_kept (s : State) (r : RefineRun)  (hk : Kept nf nv s) : Kept nf nv (State.setRun s r) := by
  exact kept_congr hk (by simp) (by simp) (by simp)

theorem setUpRun_kept (s : State) (img : Image) (r : RefineRun) (tr : Traj)  (hk : Kept nf nv s) : Kept nf nv (setUpRun s img r tr) := by
  exact kept_congr hk (by simp) (by simp) (by simp)

theorem returnRefine_kept (s : State) (img : Image) (r : RefineRun) (tr : Traj) (t : Nat)  (hk : Kept nf nv s) : Kept nf nv (returnRefine s img r tr t) := by
  exact kept_congr hk (by simp) (by simp) (by simp)

theorem updateGrid_kept (s : State) (img : Image) (e : Epoch)  (hk : Kept nf nv s) : Kept nf nv (updateGrid s img e) := by
  exact kept_congr hk (by simp) (by simp) (by simp)

theorem closeStage_kept (s : State) (img : Image) (id : Nat) (bytes : List Byte)  (hk : Kept nf nv s) : Kept nf nv (closeStage s img id bytes) := by
  unfold closeStage; (try dsimp only)
  repeat' first | with_reducible assumption | with_reducible apply kept_fold | split | simp only [kept_mk] | dsimp only | simp only [State.set_same, State.inc_same, State.add_same]

theorem closeMain_kept (s : State) (img : Image)  (hk : Kept nf nv s) : Kept nf nv (closeMain s img) := by
  unfold closeMain; (try dsimp only)
  repeat' first | with_reducible assumption | with_reducible apply closeStage_kept | with_reducible apply kept_fold | split | simp only [kept_mk] | dsimp only | simp only [State.set_same, State.inc_same, State.add_same]

theorem memoryWf_ring {a b c d : Bool} {e : Bool} {ring : List Host.Cell} (h : (a && b && c && d && e && Memory.wf 0 ring) = true)
    (bs : List (Byte × Nat)) : (a && b && c && d && e && Memory.wf 0 (bs.foldl (fun m p => sSet 0 p.2 p.1 m) ring)) = true := by
  simp only [Bool.and_eq_true] at h ⊢
  exact ⟨h.1, sWf_foldl_sSet _ h.2⟩
theorem putRecord_kept (s : State) (rec_ : List Byte)  (hk : Kept nf nv s) : Kept nf nv (putRecord s rec_) := by
  unfold putRecord; (try dsimp only)
  repeat' first | with_reducible assumption | with_reducible apply kept_set | with_reducible apply kept_draw | split
  exact ⟨memoryWf_ring hk.1 _, hk.2⟩

theorem takeAnchor_kept (s : State) (img : Image)  (hk : Kept nf nv s) : Kept nf nv (takeAnchor s img) := by
  unfold takeAnchor; (try dsimp only)
  repeat' first | with_reducible assumption | with_reducible apply kept_set | with_reducible apply putRecord_kept | with_reducible apply kept_fold | split | simp only [kept_mk] | dsimp only | simp only [State.set_same, State.inc_same, State.add_same]

theorem captureEpoch_kept (s : State) (x : EpochRec)  (hk : Kept nf nv s) : Kept nf nv (captureEpoch s x) := by
  unfold captureEpoch; (try dsimp only)
  repeat' first | with_reducible assumption | with_reducible apply kept_set | with_reducible apply kept_draw | with_reducible apply putRecord_kept | with_reducible apply kept_fold | split | simp only [kept_mk] | dsimp only | simp only [State.set_same, State.inc_same, State.add_same]

theorem setPart_kept (s : State) (p : Nat) (x : PartSt)  (hk : Kept nf nv s) : Kept nf nv (State.setPart s p x) := by
  exact kept_congr hk (by simp) (by simp) (by simp)

theorem countDrop_kept (s : State) (r : Nat) (f : Frame)  (hk : Kept nf nv s) : Kept nf nv (countDrop s r f) := by
  exact kept_congr hk (by simp) (by simp) (by simp)

theorem acceptSeq_kept (s : State) (f : Frame)  (hk : Kept nf nv s) : Kept nf nv (acceptSeq s f) := by
  exact kept_congr hk (by simp) (by simp) (by simp)

theorem receiveBoot_kept (s : State) (f : Frame)  (hk : Kept nf nv s) : Kept nf nv (receiveBoot s f).2 := by
  exact kept_congr hk (by simp) (by simp) (by simp)

theorem receiveRunning_kept (s : State) (img : Image) (f : Frame) (t : Nat)  (hk : Kept nf nv s) : Kept nf nv (receiveRunning s img f t).2 := by
  exact kept_congr hk (by simp) (by simp) (by simp)

theorem receive_kept (s : State) (f : Frame) (t : Nat)  (hk : Kept nf nv s) : Kept nf nv (receive s f t).2 := by
  exact kept_congr hk (by simp) (by simp) (by simp)

theorem sendFrame_kept (s : State) (p ty : Nat) (e : Epoch) (rtag : Option Nat) (payload : List Byte)  (hk : Kept nf nv s) : Kept nf nv (sendFrame s p ty e rtag payload) := by
  exact kept_congr hk (by simp) (by simp) (by simp)

theorem sendResult_kept (s : State) (p kind jobId : Nat) (e : Epoch) (body : List Byte)  (hk : Kept nf nv s) : Kept nf nv (sendResult s p kind jobId e body) := by
  exact kept_congr hk (by simp) (by simp) (by simp)

theorem queueResults_kept (s : State) (img : Image) (sel : Option Selection) (h : ResultHead)  (hk : Kept nf nv s) : Kept nf nv (queueResults s img sel h) := by
  exact kept_congr hk (by simp) (by simp) (by simp)

theorem islandResult_kept (s : State) (img : Image) (k verdict source : Nat)  (hk : Kept nf nv s) : Kept nf nv (islandResult s img k verdict source) := by
  exact kept_congr hk (by simp) (by simp) (by simp)

theorem makeDue_kept (s : State) (cls idx : Nat)  (hk : Kept nf nv s) : Kept nf nv (makeDue s cls idx) := by
  exact kept_congr hk (by simp) (by simp) (by simp)

theorem pairTests_kept (s : State) (e : Epoch)  (hk : Kept nf nv s) : Kept nf nv (pairTests s e) := by
  exact kept_congr hk (by simp) (by simp) (by simp)

theorem comparePair_kept (s : State) (a b : PairToken)  (hk : Kept nf nv s) : Kept nf nv (comparePair s a b) := by
  unfold comparePair; (try dsimp only)
  repeat' first | with_reducible assumption | with_reducible apply kept_set | with_reducible apply kept_inc | with_reducible apply kept_draw | with_reducible apply detect_kept | with_reducible apply pairTests_kept | with_reducible apply kept_fold | split | simp only [kept_mk] | dsimp only | simp only [State.set_same, State.inc_same, State.add_same]

theorem takePairToken_kept (s : State) (x : PairToken)  (hk : Kept nf nv s) : Kept nf nv (takePairToken s x) := by
  unfold takePairToken; (try dsimp only)
  repeat' first | with_reducible assumption | with_reducible apply comparePair_kept | with_reducible apply sendFlit_kept | with_reducible apply kept_fold | split | simp only [kept_mk] | dsimp only | simp only [State.set_same, State.inc_same, State.add_same]

theorem pushWindow_kept (s : State) (failed : Bool)  (hk : Kept nf nv s) : Kept nf nv (pushWindow s failed) := by
  exact kept_congr hk (by simp) (by simp) (by simp)

theorem applyVerdict_kept (s : State) (v : Nat)  (hk : Kept nf nv s) : Kept nf nv (applyVerdict s v) := by
  unfold applyVerdict; (try dsimp only)
  repeat' first | with_reducible assumption | with_reducible apply kept_inc | with_reducible apply enterSafe_kept | with_reducible apply setMode_kept | with_reducible apply kept_fold | split | simp only [kept_mk] | dsimp only | simp only [State.set_same, State.inc_same, State.add_same]

theorem latchBudget_kept (s : State) (img : Image)  (hk : Kept nf nv s) : Kept nf nv (latchBudget s img) := by
  exact kept_congr hk (by simp) (by simp) (by simp)

theorem latchPropose_kept (s : State) (img : Image)  (hk : Kept nf nv s) : Kept nf nv (latchPropose s img) := by
  exact kept_congr hk (by simp) (by simp) (by simp)

theorem latchSearch_kept (s : State)  (hk : Kept nf nv s) : Kept nf nv (latchSearch s) := by
  exact kept_congr hk (by simp) (by simp) (by simp)

theorem latchOrder_kept (s : State)  (hk : Kept nf nv s) : Kept nf nv (latchOrder s) := by
  exact kept_congr hk (by simp) (by simp) (by simp)

theorem latchRefine_kept (s : State)  (hk : Kept nf nv s) : Kept nf nv (latchRefine s) := by
  unfold latchRefine; (try dsimp only)
  repeat' first | with_reducible assumption | with_reducible apply kept_set | with_reducible apply kept_draw | with_reducible apply kept_fold | split | simp only [kept_mk] | dsimp only | simp only [State.set_same, State.inc_same, State.add_same]

theorem latchEpoch_kept (s : State) (img : Image)  (hk : Kept nf nv s) : Kept nf nv (latchEpoch s img) := by
  unfold latchEpoch; dsimp only
  have h1 : Kept nf nv (tallyFields.foldl (fun s f => s.set f (s.tallied f)) s) := kept_foldl (fun _ _ h => kept_set h _ _) hk
  refine latchRefine_kept _ (latchOrder_kept _ (latchSearch_kept _ (latchPropose_kept _ _ (latchBudget_kept _ _ (kept_set ?_ _ _)))))
  exact ⟨h1.1, h1.2.1, Nat.le_succ_of_le h1.2.2⟩

theorem advanceFloor_kept (s : State) (seq : Nat)  (hf : nf ≤ seq) (hk : Kept nf nv s) : Kept nf nv (advanceFloor s seq) := by
  obtain ⟨hw, hn, hv⟩ := hk
  simp only [Bool.and_eq_true] at hw
  unfold advanceFloor; dsimp only
  rw [kept_mk]
  have ha : bitOf 3 0 = true := by decide
  have hb : bitOf 3 1 = true := by decide
  refine ⟨?_, ?_, hv⟩
  · simp only [Bool.and_eq_true]; (repeat' split) <;> first | tauto | (dsimp only; tauto) | (refine ⟨?_, hw.2⟩; simp_all [Slot.wf])
  · (repeat' split) <;> simp_all <;> omega

theorem countAccept_kept (s : State) (v : Nat)  (hk : Kept nf nv s) : Kept nf nv (countAccept s v) := by
  unfold countAccept; dsimp only
  repeat' first | with_reducible assumption | with_reducible apply kept_set | split
  all_goals exact advanceFloor_kept _ _ (Nat.le_trans hk.2.1 (Nat.le_of_lt ‹_›)) hk

theorem closeDigests_kept (s : State) (img : Image)  (hk : Kept nf nv s) : Kept nf nv (closeDigests s img).1 := by
  unfold closeDigests; (try dsimp only)
  repeat' first | with_reducible assumption | with_reducible apply kept_set | with_reducible apply kept_inc | with_reducible apply kept_set64 | with_reducible apply kept_foldl | with_reducible apply captureEpoch_kept | intro _ | with_reducible apply kept_fold | split | simp only [kept_mk] | dsimp only | simp only [State.set_same, State.inc_same, State.add_same]

theorem publishVerdict_kept (s : State) (img : Image) (k v : Nat)  (hk : Kept nf nv s) : Kept nf nv (publishVerdict s img k v) := by
  exact kept_congr hk (by simp) (by simp) (by simp)

theorem releasePort_kept (s : State)  (hk : Kept nf nv s) : Kept nf nv (releasePort s) := by
  exact kept_congr hk (by simp) (by simp) (by simp)

theorem sendFrameResult_kept (s : State) (img : Image) (d : Nat × Nat × List Byte)  (hk : Kept nf nv s) : Kept nf nv (sendFrameResult s img d) := by
  exact kept_congr hk (by simp) (by simp) (by simp)

theorem chainCommit_kept (s : State) (frame world : Nat)  (hk : Kept nf nv s) : Kept nf nv (chainCommit s frame world) := by
  unfold chainCommit; (try dsimp only)
  repeat' first | with_reducible assumption | with_reducible apply sendToken_kept | with_reducible apply takePairToken_kept | with_reducible apply tryConfirm_kept | with_reducible apply kept_fold | split | simp only [kept_mk] | dsimp only | simp only [State.set_same, State.inc_same, State.add_same]

theorem endCommit_kept (s : State) (k now frameDigest : Nat) (rest : Option Int)  (hk : Kept nf nv s) : Kept nf nv (endCommit s k now frameDigest rest) := by
  unfold endCommit; (try dsimp only)
  repeat' first | with_reducible assumption | with_reducible apply kept_fold | split | simp only [kept_mk] | dsimp only | simp only [State.set_same, State.inc_same, State.add_same]

theorem commitFrame_kept (s : State) (img : Image)  (hk : Kept nf nv s) : Kept nf nv (commitFrame s img) := by
  unfold commitFrame; (try dsimp only)
  repeat' first | with_reducible assumption | with_reducible apply kept_set | with_reducible apply armedStatus_kept | with_reducible apply chainCommit_kept | with_reducible apply closeDigests_kept | with_reducible apply closeMain_kept | with_reducible apply closeStage_kept | with_reducible apply countAccept_kept | with_reducible apply endCommit_kept | with_reducible apply latchEpoch_kept | with_reducible apply publishVerdict_kept | with_reducible apply releasePort_kept | with_reducible apply sendFrameResult_kept | with_reducible apply kept_fold | split | simp only [kept_mk] | dsimp only | simp only [State.set_same, State.inc_same, State.add_same]

theorem showSlots_kept (s : State)  (hk : Kept nf nv s) : Kept nf nv (showSlots s) := by
  exact kept_congr hk (by simp) (by simp) (by simp)

theorem showValid_kept (s : State)  (hk : Kept nf nv s) : Kept nf nv (showValid s) := by
  exact kept_congr hk (by simp) (by simp) (by simp)

theorem showFail_kept (s : State) (f : LoadFail)  (hk : Kept nf nv s) : Kept nf nv (showFail s f) := by
  exact kept_congr hk (by simp) (by simp) (by simp)

theorem failLoad_kept (s : State) (f : LoadFail)  (hk : Kept nf nv s) : Kept nf nv (failLoad s f) := by
  unfold failLoad; (try dsimp only)
  repeat' first | with_reducible assumption | with_reducible apply kept_set | with_reducible apply showFail_kept | with_reducible apply kept_fold | split | simp only [kept_mk] | dsimp only | simp only [State.set_same, State.inc_same, State.add_same]

theorem setPushNext_kept (s : State) (v : Nat)  (hk : Kept nf nv s) : Kept nf nv (setPushNext s v) := by
  exact kept_congr hk (by simp) (by simp) (by simp)

theorem goOn_kept (s : State) (l : Loading) (from_ : Nat)  (hk : Kept nf nv s) : Kept nf nv (goOn s l from_) := by
  unfold goOn; (try dsimp only)
  repeat' first | with_reducible assumption | with_reducible apply kept_set | with_reducible apply failLoad_kept | with_reducible apply setPushNext_kept | with_reducible apply kept_fold | split | simp only [kept_mk] | dsimp only | simp only [State.set_same, State.inc_same, State.add_same]

theorem beginLoad_kept (s : State) (i : Nat)  (hk : Kept nf nv s) : Kept nf nv (beginLoad s i) := by
  unfold beginLoad; (try dsimp only)
  repeat' first | with_reducible assumption | with_reducible apply kept_set | with_reducible apply failLoad_kept | with_reducible apply goOn_kept | with_reducible apply showFail_kept | with_reducible apply kept_fold | split | simp only [kept_mk] | dsimp only | simp only [State.set_same, State.inc_same, State.add_same]

theorem bulkData_kept (s : State) (l : Loading) (data : Option (List Byte))  (hk : Kept nf nv s) : Kept nf nv (bulkData s l data) := by
  unfold bulkData; (try dsimp only)
  repeat' first | with_reducible assumption | with_reducible apply failLoad_kept | with_reducible apply goOn_kept | with_reducible apply kept_fold | split | simp only [kept_mk] | dsimp only | simp only [State.set_same, State.inc_same, State.add_same]

theorem setStreams_kept (f : Nat → Field) (v : Nat → Nat) (s : State)  (hk : Kept nf nv s) : Kept nf nv (setStreams f v s) := by
  exact kept_congr hk (by simp) (by simp) (by simp)

theorem installPower_kept (s : State) (i : Image)  (hk : Kept nf nv s) : Kept nf nv (installPower s i) := by
  exact kept_congr hk (by simp) (by simp) (by simp)

theorem installFields_kept (s : State) (i : Image) (bulk : List BulkData)  (hk : Kept nf nv s) : Kept nf nv (installFields s i bulk) := by
  exact kept_congr hk (by simp) (by simp) (by simp)

theorem eraseKeys_kept (s : State)  (hk : Kept nf nv s) : Kept nf nv (eraseKeys s) := by
  exact kept_congr hk (by simp) (by simp) (by simp)

theorem restartSequences_kept (s : State)  (hk : Kept nf nv s) : Kept nf nv (restartSequences s) := by
  exact kept_congr hk (by simp) (by simp) (by simp)

theorem rebase_kept (s : State)  (hk : Kept nf nv s) : Kept nf nv (rebase s) := by
  unfold rebase; (try dsimp only)
  repeat' first | with_reducible assumption | with_reducible apply kept_set | with_reducible apply dropToken_kept | with_reducible apply scheduleRebuild_kept | with_reducible apply showShift_kept | with_reducible apply kept_fold | split | simp only [kept_mk] | dsimp only | simp only [State.set_same, State.inc_same, State.add_same]

theorem install_kept (s : State) (img : Image) (bulk : List BulkData) (i q : Nat)  (hk : Kept nf nv s) : Kept nf nv (install s img bulk i q) := by
  unfold install; (try dsimp only)
  repeat' first | with_reducible assumption | with_reducible apply kept_set | with_reducible apply kept_set64 | with_reducible apply discardAll_kept | with_reducible apply endJobs_kept | with_reducible apply eraseKeys_kept | with_reducible apply installFields_kept | with_reducible apply rebase_kept | with_reducible apply restartSequences_kept | with_reducible apply kept_fold | split | simp only [kept_mk] | dsimp only | simp only [State.set_same, State.inc_same, State.add_same]

theorem slotResult_kept (s : State) (r : Nat)  (hk : Kept nf nv s) : Kept nf nv (slotResult s r) := by
  exact kept_congr hk (by simp) (by simp) (by simp)

theorem chestStart_kept (s : State) (k : Nat)  (hk : Kept nf nv s) : Kept nf nv (chestStart s k) := by
  unfold chestStart; (try dsimp only)
  repeat' first | with_reducible assumption | with_reducible apply kept_set | with_reducible apply kept_fold | split | simp only [kept_mk] | dsimp only | simp only [State.set_same, State.inc_same, State.add_same]

theorem chestEnd_kept (s : State) (r : Nat)  (hk : Kept nf nv s) : Kept nf nv (chestEnd s r) := by
  exact hk

theorem slot_wf_of_state {l : Slot} (h : l.wf = true) (k : Nat) : ({ l with state := k } : Slot).wf = true := h
theorem setChest_kept (s : State) (i : Nat) (sl : Slot)  (hs : sl.wf = true) (hk : Kept nf nv s) : Kept nf nv (State.setChest s i sl) := by
  unfold State.setChest
  refine showSlots_kept _ ?_
  obtain ⟨hw, hr⟩ := hk
  simp only [Bool.and_eq_true] at hw
  split <;> (refine ⟨?_, hr⟩; simp only [Bool.and_eq_true]; tauto)

theorem finishSlotWrite_kept (s : State) (r : Nat)  (hk : Kept nf nv s) : Kept nf nv (finishSlotWrite s r) := by
  unfold finishSlotWrite; (try dsimp only)
  repeat' first | with_reducible assumption | with_reducible apply chestEnd_kept | with_reducible apply dropToken_kept | with_reducible apply kept_fold | split | simp only [kept_mk] | dsimp only | simp only [State.set_same, State.inc_same, State.add_same]

theorem slotOpen_kept (src : Source) (s : State)  (hk : Kept nf nv s) : Kept nf nv (slotOpen src s) := by
  unfold slotOpen; (try dsimp only)
  repeat' first | with_reducible assumption | with_reducible apply kept_set | with_reducible apply chestStart_kept | with_reducible apply slotResult_kept | with_reducible apply takeToken_kept | with_reducible apply kept_fold | split | simp only [kept_mk] | dsimp only | simp only [State.set_same, State.inc_same, State.add_same] | (with_reducible apply setChest_kept) | rfl

theorem slotDataBlock_kept (src : Source) (value : Word) (s : State)  (hk : Kept nf nv s) : Kept nf nv (slotDataBlock src value s) := by
  unfold slotDataBlock; (try dsimp only)
  repeat' first | with_reducible assumption | with_reducible apply chestStart_kept | with_reducible apply slotResult_kept | with_reducible apply kept_fold | split | simp only [kept_mk] | dsimp only | simp only [State.set_same, State.inc_same, State.add_same]

theorem flash_wf {l : List Host.Cell} (h : Memory.wf erased l = true) (a : Nat) (bs : List Byte) : Memory.wf erased (flashWrite l a bs) = true :=
  flashWrite_wf h

/-- The Chest slots of a state whose stores are in canonical form. -/
theorem chestSlot_wf {s : State} (hk : Kept nf nv s) (i : Nat) : (s.chestSlot i).wf = true := by
  obtain ⟨hw, -⟩ := hk
  simp only [Bool.and_eq_true] at hw
  unfold State.chestSlot; split <;> simp [hw]
theorem slotClose_kept (src : Source) (s : State)  (hk : Kept nf nv s) : Kept nf nv (slotClose src s) := by
  unfold slotClose; (try dsimp only)
  repeat' first | with_reducible assumption | with_reducible apply slotResult_kept | split
  refine chestStart_kept _ _ (setChest_kept _ _ _ ?_ hk)
  have h := chestSlot_wf hk
  simp only [Slot.wf, Bool.and_eq_true] at h ⊢
  exact ⟨flash_wf (flash_wf (flash_wf (h _).1 _ _) _ _) _ _, (h _).2⟩

theorem slotAbort_kept (src : Source) (s : State)  (hk : Kept nf nv s) : Kept nf nv (slotAbort src s) := by
  unfold slotAbort; (try dsimp only)
  repeat' first | with_reducible assumption | with_reducible apply finishSlotWrite_kept | with_reducible apply slotResult_kept | with_reducible apply kept_fold | split | simp only [kept_mk] | dsimp only | simp only [State.set_same, State.inc_same, State.add_same]

theorem setQuiesced_kept (s : State) (b : Nat)  (hk : Kept nf nv s) : Kept nf nv (setQuiesced s b) := by
  exact kept_congr hk (by simp) (by simp) (by simp)

theorem quiesceRequest_kept (src : Source) (mask : Nat) (s : State)  (hk : Kept nf nv s) : Kept nf nv (quiesceRequest src mask s) := by
  exact kept_congr hk (by simp) (by simp) (by simp)

theorem showBinding_kept (s : State)  (hk : Kept nf nv s) : Kept nf nv (showBinding s) := by
  exact kept_congr hk (by simp) (by simp) (by simp)

theorem rebindTiles_kept (s : State)  (hk : Kept nf nv s) : Kept nf nv (rebindTiles s) := by
  exact kept_congr hk (by simp) (by simp) (by simp)

theorem retireUnit_kept (s : State) (cls idx mech : Nat)  (hk : Kept nf nv s) : Kept nf nv (retireUnit s cls idx mech) := by
  unfold retireUnit; (try dsimp only)
  repeat' first | with_reducible assumption | with_reducible apply kept_set | with_reducible apply setUnit_kept | with_reducible apply detect_kept | with_reducible apply showUnit_kept | with_reducible apply kept_fold | split | simp only [kept_mk] | dsimp only | simp only [State.set_same, State.inc_same, State.add_same]

theorem countEcc_kept (s : State) (e : ErrorInfo)  (hk : Kept nf nv s) : Kept nf nv (countEcc s e) := by
  exact kept_congr hk (by simp) (by simp) (by simp)

theorem staleBank_kept (s : State) (c : Nat)  (hk : Kept nf nv s) : Kept nf nv (staleBank s c) := by
  exact kept_congr hk (by simp) (by simp) (by simp)

theorem replaceBank_kept (s : State) (g : Nat)  (hk : Kept nf nv s) : Kept nf nv (replaceBank s g) := by
  unfold replaceBank; (try dsimp only)
  repeat' first | with_reducible assumption | with_reducible apply kept_set | with_reducible apply retireUnit_kept | with_reducible apply scheduleRebuild_kept | with_reducible apply kept_fold | split | simp only [kept_mk] | dsimp only | simp only [State.set_same, State.inc_same, State.add_same]

theorem offerCopy_kept (s : State) (img : Image) (d : DoneTask) (equal : Bool)  (hk : Kept nf nv s) : Kept nf nv (offerCopy s img d equal) := by
  unfold offerCopy; (try dsimp only)
  repeat' first | with_reducible assumption | with_reducible apply kept_draw | with_reducible apply kept_foldl | with_reducible apply offerRecord_kept | intro _ | with_reducible apply kept_fold | split | simp only [kept_mk] | dsimp only | simp only [State.set_same, State.inc_same, State.add_same]

theorem settleSuspects_kept (old new : State) (hk : Kept nf nv new) : Kept nf nv (settleSuspects old new) := by
  simp only [settleSuspects]
  refine kept_foldl (fun t k h => ?_) hk
  split
  · exact tileSuspect_kept _ _ h
  · exact h
theorem endTest_kept (s : State) (cls idx : Nat) (pass : Bool)  (hk : Kept nf nv s) : Kept nf nv (endTest s cls idx pass) := by
  unfold endTest; (try dsimp only)
  repeat' first | with_reducible assumption | with_reducible apply settleSuspects_kept | with_reducible apply retireUnit_kept | with_reducible apply detect_kept | with_reducible apply showUnit_kept | with_reducible apply setUnit_kept | with_reducible apply kept_fold | split | simp only [kept_mk] | dsimp only | simp only [State.set_same, State.inc_same, State.add_same]

theorem faultTestCmd_kept (src : Source) (value : Word) (s : State)  (hk : Kept nf nv s) : Kept nf nv (faultTestCmd src value s) := by
  exact kept_congr hk (by simp) (by simp) (by simp)

theorem endSlice_kept (s : State) (cls idx : Nat)  (hk : Kept nf nv s) : Kept nf nv (endSlice s cls idx) := by
  unfold endSlice; (try dsimp only)
  repeat' first | with_reducible assumption | with_reducible apply setDesc_kept | with_reducible apply dropToken_kept | with_reducible apply showAgent_kept | with_reducible apply trace_kept | with_reducible apply kept_fold | split | simp only [kept_mk] | dsimp only | simp only [State.set_same, State.inc_same, State.add_same]

theorem moveJob_kept (s : State) (cls idx : Nat)  (hk : Kept nf nv s) : Kept nf nv (moveJob s cls idx) := by
  exact kept_congr hk (by simp) (by simp) (by simp)

theorem arrive_kept (s : State) (f : Frame) (t : Nat)  (hk : Kept nf nv s) : Kept nf nv (arrive s f t).2 := by
  exact kept_congr hk (by simp) (by simp) (by simp)

theorem rollKey_kept (s : State) (img : Image) (f : Frame)  (hk : Kept nf nv s) : Kept nf nv (rollKey s img f) := by
  exact kept_congr hk (by simp) (by simp) (by simp)

theorem showJobs_kept (s : State)  (hk : Kept nf nv s) : Kept nf nv (showJobs s) := by
  exact kept_congr hk (by simp) (by simp) (by simp)

theorem stageFragment_kept (s : State) (f : Frame)  (hk : Kept nf nv s) : Kept nf nv (stageFragment s f).2 := by
  exact kept_congr hk (by simp) (by simp) (by simp)

theorem jobAck_kept (s : State) (p id status reason : Nat) (start : Option Epoch)  (hk : Kept nf nv s) : Kept nf nv (jobAck s p id status reason start) := by
  unfold jobAck; (try dsimp only)
  repeat' first | with_reducible assumption | with_reducible apply kept_draw | with_reducible apply sendFrame_kept | with_reducible apply showJobs_kept | with_reducible apply kept_fold | split | simp only [kept_mk] | dsimp only | simp only [State.set_same, State.inc_same, State.add_same]

theorem decideJob_kept (s : State) (img : Image) (p : Nat) (x : Staging) (t : Nat)  (hk : Kept nf nv s) : Kept nf nv (decideJob s img p x t) := by
  unfold decideJob; (try dsimp only)
  repeat' first | with_reducible assumption | with_reducible apply kept_inc | with_reducible apply kept_draw | with_reducible apply hold_kept | with_reducible apply jobAck_kept | with_reducible apply sendResult_kept | with_reducible apply kept_fold | split | simp only [kept_mk] | dsimp only | simp only [State.set_same, State.inc_same, State.add_same]

theorem submit_kept (s : State) (f : Frame) (t : Nat)  (hk : Kept nf nv s) : Kept nf nv (submit s f t) := by
  unfold submit; (try dsimp only)
  repeat' first | with_reducible assumption | with_reducible apply arrive_kept | with_reducible apply decideJob_kept | with_reducible apply stageFragment_kept | with_reducible apply kept_fold | split | simp only [kept_mk] | dsimp only | simp only [State.set_same, State.inc_same, State.add_same]

theorem setJob_kept (s : State) (j : Job)  (hk : Kept nf nv s) : Kept nf nv (State.setJob s j) := by
  exact kept_congr hk (by simp) (by simp) (by simp)

theorem jobRefined_kept (s : State) (img : Image) (j : Job) (c : Iterate) (n : Nat) (conv cut : Bool)  (hk : Kept nf nv s) : Kept nf nv (jobRefined s img j c n conv cut).2 := by
  unfold jobRefined; (try dsimp only)
  repeat' first | with_reducible assumption | with_reducible apply kept_draw | with_reducible apply kept_fold | split | simp only [kept_mk] | dsimp only | simp only [State.set_same, State.inc_same, State.add_same]

theorem sendJob_kept (s : State) (j : Job)  (hk : Kept nf nv s) : Kept nf nv (sendJob s j) := by
  exact kept_congr hk (by simp) (by simp) (by simp)

theorem finishJob_kept (s : State) (j : Job) (status : Nat)  (hk : Kept nf nv s) : Kept nf nv (finishJob s j status) := by
  exact kept_congr hk (by simp) (by simp) (by simp)

theorem macsecInstall_kept (src : Source) (port : Nat) (value : Word) (s : State)  (hk : Kept nf nv s) : Kept nf nv (macsecInstall src port value s) := by
  exact kept_congr hk (by simp) (by simp) (by simp)

theorem ownerOnly_kept (src : Source) {s : State} {f : State → State} (hf : Kept nf nv (f s)) (hk : Kept nf nv s) :
    Kept nf nv (ownerOnly src s f) := by
  unfold ownerOnly; split
  · exact hf
  · exact hk
theorem checkpointCmd_kept (src : Source) (s : State)  (hk : Kept nf nv s) : Kept nf nv (checkpointCmd src s) := by
  unfold checkpointCmd; (try dsimp only)
  repeat' first | with_reducible assumption | with_reducible apply ownerOnly_kept | with_reducible apply kept_fold | split | simp only [kept_mk] | dsimp only | simp only [State.set_same, State.inc_same, State.add_same]

theorem capClearCmd_kept (src : Source) (s : State)  (hk : Kept nf nv s) : Kept nf nv (capClearCmd src s) := by
  obtain ⟨hw, hr⟩ := hk
  simp only [Bool.and_eq_true] at hw
  unfold capClearCmd
  refine ownerOnly_kept _ ⟨?_, hr⟩ ⟨?_, hr⟩ <;> simp only [Bool.and_eq_true]
  · exact ⟨hw.1, rfl⟩
  · exact hw

theorem endReplay_kept (s : State) (result stage : Nat) (e : Epoch)  (hk : Kept nf nv s) : Kept nf nv (endReplay s result stage e) := by
  unfold endReplay; (try dsimp only)
  repeat' first | with_reducible assumption | with_reducible apply kept_set | with_reducible apply rebase_kept | with_reducible apply kept_fold | split | simp only [kept_mk] | dsimp only | simp only [State.set_same, State.inc_same, State.add_same]

theorem replayOn_kept (s : State) (r : ReplaySt) (x0 : Nat)  (hk : Kept nf nv s) : Kept nf nv (replayOn s r x0) := by
  induction x0 generalizing s r with
  | zero => exact endReplay_kept _ _ _ _ hk
  | succ k ih =>
    simp only [replayOn]; (repeat' split)
    · exact endReplay_kept _ _ _ _ hk
    · exact ih _ _ hk
    · exact hk

theorem replayCmd_kept (scope : Nat) (src : Source) (s : State)  (hk : Kept nf nv s) : Kept nf nv (replayCmd scope src s) := by
  unfold replayCmd; (try dsimp only)
  repeat' first | with_reducible assumption | with_reducible apply kept_set | with_reducible apply endReplay_kept | with_reducible apply ownerOnly_kept | with_reducible apply replayOn_kept | with_reducible apply kept_fold | split | simp only [kept_mk] | dsimp only | simp only [State.set_same, State.inc_same, State.add_same]

theorem replayAbortCmd_kept (src : Source) (s : State)  (hk : Kept nf nv s) : Kept nf nv (replayAbortCmd src s) := by
  unfold replayAbortCmd; (try dsimp only)
  repeat' first | with_reducible assumption | with_reducible apply endReplay_kept | with_reducible apply ownerOnly_kept | with_reducible apply kept_fold | split | simp only [kept_mk] | dsimp only | simp only [State.set_same, State.inc_same, State.add_same]

theorem advanceTo_kept (s : State) (t : Int)  (hk : Kept nf nv s) : Kept nf nv (advanceTo s t) := by
  exact kept_congr hk (by simp) (by simp) (by simp)

theorem correctTime_kept (s : State) (delta : Int)  (hk : Kept nf nv s) : Kept nf nv (correctTime s delta) := by
  exact kept_congr hk (by simp) (by simp) (by simp)

theorem showOffset_kept (s : State) (delta : Int)  (hk : Kept nf nv s) : Kept nf nv (showOffset s delta) := by
  unfold showOffset; (try dsimp only)
  repeat' first | with_reducible assumption | with_reducible apply kept_set | with_reducible apply kept_draw | with_reducible apply kept_fold | split | simp only [kept_mk] | dsimp only | simp only [State.set_same, State.inc_same, State.add_same]

theorem applyShadow_kept (s : State)  (hk : Kept nf nv s) : Kept nf nv (applyShadow s) := by
  unfold applyShadow; (try dsimp only)
  repeat' first | with_reducible assumption | with_reducible apply kept_set | with_reducible apply kept_foldl | with_reducible apply discardAll_kept | intro _ | with_reducible apply kept_fold | split | simp only [kept_mk] | dsimp only | simp only [State.set_same, State.inc_same, State.add_same]

theorem clearFrame_kept (s : State)  (hk : Kept nf nv s) : Kept nf nv (clearFrame s) := by
  unfold clearFrame; (try dsimp only)
  repeat' first | with_reducible assumption | with_reducible apply kept_fold | split | simp only [kept_mk] | dsimp only | simp only [State.set_same, State.inc_same, State.add_same]

theorem countSkips_kept (s : State) (k : Nat)  (hk : Kept nf nv s) : Kept nf nv (countSkips s k) := by
  exact kept_congr hk (by simp) (by simp) (by simp)

theorem startFrame_kept (s : State) (img : Image) (k : Nat)  (hk : Kept nf nv s) : Kept nf nv (startFrame s img k) := by
  unfold startFrame; (try dsimp only)
  repeat' first | with_reducible assumption | with_reducible apply kept_set | with_reducible apply advanceTo_kept | with_reducible apply applyShadow_kept | with_reducible apply beginEpoch_kept | with_reducible apply clearFrame_kept | with_reducible apply completeAssembly_kept | with_reducible apply countSkips_kept | with_reducible apply discardBefore_kept | with_reducible apply rebindTiles_kept | with_reducible apply takeAnchor_kept | with_reducible apply kept_fold | split | simp only [kept_mk] | dsimp only | simp only [State.set_same, State.inc_same, State.add_same]

theorem switchResult_kept (s : State) (r : Nat)  (hk : Kept nf nv s) : Kept nf nv (switchResult s r) := by
  exact kept_congr hk (by simp) (by simp) (by simp)

theorem switchPhase_kept (s : State) (p : Nat)  (hk : Kept nf nv s) : Kept nf nv (switchPhase s p) := by
  exact kept_congr hk (by simp) (by simp) (by simp)

theorem switchCmd_kept (src : Source) (s : State)  (hk : Kept nf nv s) : Kept nf nv (switchCmd src s) := by
  unfold switchCmd; (try dsimp only)
  repeat' first | with_reducible assumption | with_reducible apply beginLoad_kept | with_reducible apply showValid_kept | with_reducible apply switchPhase_kept | with_reducible apply switchResult_kept | with_reducible apply takeToken_kept | with_reducible apply kept_fold | split | simp only [kept_mk] | dsimp only | simp only [State.set_same, State.inc_same, State.add_same]

theorem endSwitch_kept (s : State) (r : Nat)  (hk : Kept nf nv s) : Kept nf nv (endSwitch s r) := by
  unfold endSwitch; (try dsimp only)
  repeat' first | with_reducible assumption | with_reducible apply dropToken_kept | with_reducible apply switchPhase_kept | with_reducible apply switchResult_kept | with_reducible apply kept_fold | split | simp only [kept_mk] | dsimp only | simp only [State.set_same, State.inc_same, State.add_same]

theorem holdCmd_kept (src : Source) (s : State)  (hk : Kept nf nv s) : Kept nf nv (holdCmd src s) := by
  unfold holdCmd; (try dsimp only)
  repeat' first | with_reducible assumption | with_reducible apply kept_set | with_reducible apply switchPhase_kept | with_reducible apply switchResult_kept | with_reducible apply takeToken_kept | with_reducible apply kept_fold | split | simp only [kept_mk] | dsimp only | simp only [State.set_same, State.inc_same, State.add_same]

theorem shadowFrom_kept (s : State) (k : Nat)  (hk : Kept nf nv s) : Kept nf nv (shadowFrom s k) := by
  exact kept_congr hk (by simp) (by simp) (by simp)

theorem resumeCmd_kept (src : Source) (s : State)  (hk : Kept nf nv s) : Kept nf nv (resumeCmd src s) := by
  unfold resumeCmd; (try dsimp only)
  repeat' first | with_reducible assumption | with_reducible apply dropToken_kept | with_reducible apply shadowFrom_kept | with_reducible apply switchPhase_kept | with_reducible apply switchResult_kept | with_reducible apply kept_fold | split | simp only [kept_mk] | dsimp only | simp only [State.set_same, State.inc_same, State.add_same]

theorem cancelCmd_kept (src : Source) (s : State)  (hk : Kept nf nv s) : Kept nf nv (cancelCmd src s) := by
  unfold cancelCmd; (try dsimp only)
  repeat' first | with_reducible assumption | with_reducible apply endSwitch_kept | with_reducible apply switchResult_kept | with_reducible apply kept_fold | split | simp only [kept_mk] | dsimp only | simp only [State.set_same, State.inc_same, State.add_same]

theorem pinsToWake_kept (s : State)  (hk : Kept nf nv s) : Kept nf nv (pinsToWake s) := by
  exact kept_congr hk (by simp) (by simp) (by simp)

theorem stopFrames_kept (s : State)  (hk : Kept nf nv s) : Kept nf nv (stopFrames s) := by
  unfold stopFrames; (try dsimp only)
  repeat' first | with_reducible assumption | with_reducible apply kept_set | with_reducible apply kept_fold | split | simp only [kept_mk] | dsimp only | simp only [State.set_same, State.inc_same, State.add_same]

theorem applyPlacement_kept (s : State) (p : Placement)  (hk : Kept nf nv s) : Kept nf nv (applyPlacement s p) := by
  exact kept_congr hk (by simp) (by simp) (by simp)

theorem endClamp_kept (s : State) (c : ClampSt)  (hk : Kept nf nv s) : Kept nf nv (endClamp s c) := by
  exact kept_congr hk (by simp) (by simp) (by simp)

theorem startClamp_kept (s : State)  (hk : Kept nf nv s) : Kept nf nv (startClamp s) := by
  exact kept_congr hk (by simp) (by simp) (by simp)

theorem clampIfDue_kept (s : State)  (hk : Kept nf nv s) : Kept nf nv (clampIfDue s) := by
  exact kept_congr hk (by simp) (by simp) (by simp)

theorem tenonWrite_kept (src : Source) {s : State} {f : State → State} (hf : Kept nf nv (f s)) (hk : Kept nf nv s) :
    Kept nf nv (tenonWrite src s f) := by
  unfold tenonWrite; split
  · exact hk
  · exact ownerOnly_kept src hf hk
theorem requestRetrain_kept (s : State) (l : Nat)  (hk : Kept nf nv s) : Kept nf nv (requestRetrain s l) := by
  exact kept_congr hk (by simp) (by simp) (by simp)

theorem ackFlits_kept (s : State) (l ack : Nat)  (hk : Kept nf nv s) : Kept nf nv (ackFlits s l ack) := by
  exact kept_congr hk (by simp) (by simp) (by simp)

theorem addCredits_kept (s : State) (l pool n : Nat)  (hk : Kept nf nv s) : Kept nf nv (addCredits s l pool n) := by
  exact kept_congr hk (by simp) (by simp) (by simp)

theorem replayEpisode_kept (s : State) (l : Nat)  (hk : Kept nf nv s) : Kept nf nv (replayEpisode s l) := by
  exact kept_congr hk (by simp) (by simp) (by simp)

theorem sendNak_kept (s : State) (l : Nat)  (hk : Kept nf nv s) : Kept nf nv (sendNak s l) := by
  exact kept_congr hk (by simp) (by simp) (by simp)

theorem countCodeword_kept (s : State) (l : Nat) (f : Flit)  (hk : Kept nf nv s) : Kept nf nv (countCodeword s l f) := by
  exact kept_congr hk (by simp) (by simp) (by simp)

theorem linkAgain_kept (s : State) (link : Nat)  (hk : Kept nf nv s) : Kept nf nv (linkAgain s link) := by
  unfold linkAgain; (try dsimp only)
  repeat' first | with_reducible assumption | with_reducible apply setLink_kept | with_reducible apply detect_kept | with_reducible apply dropToken_kept | with_reducible apply endTest_kept | with_reducible apply kept_fold | split | simp only [kept_mk] | dsimp only | simp only [State.set_same, State.inc_same, State.add_same]

theorem linkFirst_kept (s : State) (link : Nat)  (hk : Kept nf nv s) : Kept nf nv (linkFirst s link) := by
  exact kept_congr hk (by simp) (by simp) (by simp)

theorem linkTrained_kept (s : State) (link latencyPs : Nat)  (hk : Kept nf nv s) : Kept nf nv (linkTrained s link latencyPs) := by
  unfold linkTrained; (try dsimp only)
  repeat' first | with_reducible assumption | with_reducible apply kept_set | with_reducible apply clampIfDue_kept | with_reducible apply linkAgain_kept | with_reducible apply linkFirst_kept | with_reducible apply pumpLink_kept | with_reducible apply replayEpisode_kept | with_reducible apply kept_fold | split | simp only [kept_mk] | dsimp only | simp only [State.set_same, State.inc_same, State.add_same]

theorem forwardTo_kept (s : State) (dest : Nat) (fs : List OutFlit)  (hk : Kept nf nv s) : Kept nf nv (forwardTo s dest fs) := by
  exact kept_congr hk (by simp) (by simp) (by simp)

theorem receivedBlock_kept (s : State) (img : Image) (spec : Option SpecEp) (tensor index : Nat) (data : List Byte)  (hk : Kept nf nv s) : Kept nf nv (receivedBlock s img spec tensor index data).2 := by
  unfold receivedBlock; (try dsimp only)
  repeat' first | with_reducible assumption | with_reducible apply kept_draw | with_reducible apply kept_fold | split | simp only [kept_mk] | dsimp only | simp only [State.set_same, State.inc_same, State.add_same]

theorem forwardRecord_kept (s : State) (m : Message)  (hk : Kept nf nv s) : Kept nf nv (forwardRecord s m) := by
  unfold forwardRecord; (try dsimp only)
  repeat' first | with_reducible assumption | with_reducible apply kept_draw | with_reducible apply forwardTo_kept | with_reducible apply kept_fold | split | simp only [kept_mk] | dsimp only | simp only [State.set_same, State.inc_same, State.add_same]

theorem relayToHead_kept (s : State) (kind flags src : Nat) (e : Epoch) (v0 v1 : Nat)  (hk : Kept nf nv s) : Kept nf nv (relayToHead s kind flags src e v0 v1) := by
  exact kept_congr hk (by simp) (by simp) (by simp)

theorem clampCmd_kept (src : Source) (s : State)  (hk : Kept nf nv s) : Kept nf nv (clampCmd src s) := by
  exact kept_congr hk (by simp) (by simp) (by simp)

theorem enumerateCmd_kept (src : Source) (s : State)  (hk : Kept nf nv s) : Kept nf nv (enumerateCmd src s) := by
  exact kept_congr hk (by simp) (by simp) (by simp)

theorem remoteCmd_kept (src : Source) (s : State)  (hk : Kept nf nv s) : Kept nf nv (remoteCmd src s) := by
  unfold remoteCmd; (try dsimp only)
  repeat' first | with_reducible assumption | with_reducible apply kept_set | with_reducible apply maintMessage_kept | with_reducible apply tenonWrite_kept | with_reducible apply kept_fold | split | simp only [kept_mk] | dsimp only | simp only [State.set_same, State.inc_same, State.add_same]

theorem bootStep_kept (s : State) (n : Nat)  (hk : Kept nf nv s) : Kept nf nv (bootStep s n) := by
  exact kept_congr hk (by simp) (by simp) (by simp)

theorem bootFail_kept (s : State) (code : Nat)  (hk : Kept nf nv s) : Kept nf nv (bootFail s code) := by
  unfold bootFail; (try dsimp only)
  repeat' first | with_reducible assumption | with_reducible apply kept_set | with_reducible apply armedStatus_kept | with_reducible apply emptyTable_kept | with_reducible apply stopMain_kept | with_reducible apply kept_fold | split | simp only [kept_mk] | dsimp only | simp only [State.set_same, State.inc_same, State.add_same]

theorem resetDevice_kept (s : State)  (hk : Kept nf nv s) : Kept nf nv (resetDevice s) := by
  simp only [resetDevice]
  refine kept_foldl (fun t f h => kept_set h _ _) ?_
  obtain ⟨hw, hr⟩ := hk
  simp only [Bool.and_eq_true] at hw
  exact ⟨by simp [hw, Memory.wf, sWf, State.reset], hr⟩

theorem markUnits_kept (cls mask n : Nat) (s : State)  (hk : Kept nf nv s) : Kept nf nv (markUnits cls mask n s) := by
  exact kept_congr hk (by simp) (by simp) (by simp)

theorem applyDie_kept (s : State)  (hk : Kept nf nv s) : Kept nf nv (applyDie s) := by
  exact kept_congr hk (by simp) (by simp) (by simp)

theorem fixIdent_kept (s : State)  (hk : Kept nf nv s) : Kept nf nv (fixIdent s) := by
  exact kept_congr hk (by simp) (by simp) (by simp)

theorem forgetChain_kept (s : State)  (hk : Kept nf nv s) : Kept nf nv (forgetChain s) := by
  exact kept_congr hk (by simp) (by simp) (by simp)

theorem finishBoot_kept (s : State)  (hk : Kept nf nv s) : Kept nf nv (finishBoot s) := by
  unfold finishBoot; (try dsimp only)
  repeat' first | with_reducible assumption | with_reducible apply kept_set | with_reducible apply bootStep_kept | with_reducible apply clampIfDue_kept | with_reducible apply correctTime_kept | with_reducible apply install_kept | with_reducible apply shadowFrom_kept | with_reducible apply kept_fold | split | simp only [kept_mk] | dsimp only | simp only [State.set_same, State.inc_same, State.add_same]

theorem settlePlacement_kept (s : State) (p : Placement)  (hk : Kept nf nv s) : Kept nf nv (settlePlacement s p) := by
  unfold settlePlacement; (try dsimp only)
  repeat' first | with_reducible assumption | with_reducible apply applyPlacement_kept | with_reducible apply bootFail_kept | with_reducible apply clampIfDue_kept | with_reducible apply failLoad_kept | with_reducible apply finishBoot_kept | with_reducible apply kept_fold | split | simp only [kept_mk] | dsimp only | simp only [State.set_same, State.inc_same, State.add_same]

theorem placeAll_kept (s : State)  (hk : Kept nf nv s) : Kept nf nv (placeAll s) := by
  unfold placeAll; (try dsimp only)
  repeat' first | with_reducible assumption | with_reducible apply kept_set | with_reducible apply kept_foldl | with_reducible apply maintMessage_kept | with_reducible apply settlePlacement_kept | intro _ | with_reducible apply kept_fold | split | simp only [kept_mk] | dsimp only | simp only [State.set_same, State.inc_same, State.add_same]

theorem askFrom_kept (s : State) (from_ : Nat)  (hk : Kept nf nv s) : Kept nf nv (askFrom s from_) := by
  unfold askFrom; (try dsimp only)
  repeat' first | with_reducible assumption | with_reducible apply maintMessage_kept | with_reducible apply placeAll_kept | with_reducible apply kept_fold | split | simp only [kept_mk] | dsimp only | simp only [State.set_same, State.inc_same, State.add_same]

theorem startEnum_kept (s : State)  (hk : Kept nf nv s) : Kept nf nv (startEnum s) := by
  unfold startEnum; (try dsimp only)
  repeat' first | with_reducible assumption | with_reducible apply kept_set | with_reducible apply askFrom_kept | with_reducible apply forgetChain_kept | with_reducible apply kept_fold | split | simp only [kept_mk] | dsimp only | simp only [State.set_same, State.inc_same, State.add_same]

theorem bistFail_kept (a : Bool × State) (u : Nat × Nat) (hk : Kept nf nv a.2) : Kept nf nv (bistFail a u).2 := by
  unfold bistFail; (try dsimp only)
  repeat' first | with_reducible assumption | with_reducible apply replaceBank_kept | with_reducible apply retireUnit_kept | with_reducible apply kept_fold | split | simp only [kept_mk] | dsimp only | simp only [State.set_same, State.inc_same, State.add_same]
theorem bistUnits_kept (s : State) (us : List (Nat × Nat)) (classes : List Nat)  (hk : Kept nf nv s) : Kept nf nv (bistUnits s us classes).2 := by
  simp only [bistUnits]; exact kept_foldl_snd (fun a u h => bistFail_kept a u h) hk

theorem afterLoad_kept (s : State)  (hk : Kept nf nv s) : Kept nf nv (afterLoad s) := by
  unfold afterLoad; (try dsimp only)
  repeat' first | with_reducible assumption | with_reducible apply bistUnits_kept | with_reducible apply bootFail_kept | with_reducible apply bootStep_kept | with_reducible apply failLoad_kept | with_reducible apply finishBoot_kept | with_reducible apply startEnum_kept | with_reducible apply kept_fold | split | simp only [kept_mk] | dsimp only | simp only [State.set_same, State.inc_same, State.add_same]

theorem rejectSlot_kept (s : State) (i : Nat)  (hk : Kept nf nv s) : Kept nf nv (rejectSlot s i) := by
  exact kept_congr hk (by simp) (by simp) (by simp)

theorem tryOne_kept (a : Bool × State) (i : Nat) (hk : Kept nf nv a.2) : Kept nf nv (tryOne a i).2 := by
  unfold tryOne; (try dsimp only)
  repeat' first | with_reducible assumption | with_reducible apply beginLoad_kept | with_reducible apply bootStep_kept | with_reducible apply afterLoad_kept | with_reducible apply rejectSlot_kept | with_reducible apply kept_fold | split | simp only [kept_mk] | dsimp only | simp only [State.set_same, State.inc_same, State.add_same]
theorem trySlots_kept (l : List Nat) (s : State)  (hk : Kept nf nv s) : Kept nf nv (trySlots l s) := by
  simp only [trySlots]
  have h : Kept nf nv (l.foldl tryOne (false, s)).2 := kept_foldl_snd (fun a i h => tryOne_kept a i h) hk
  split
  · exact h
  · exact bootFail_kept _ _ h

theorem waitHost_kept (s : State)  (hk : Kept nf nv s) : Kept nf nv (waitHost s) := by
  obtain ⟨hw, hr⟩ := hk
  simp only [Bool.and_eq_true] at hw
  exact ⟨by simp only [Bool.and_eq_true]; exact ⟨⟨hw.1.1, rfl⟩, hw.2⟩, hr⟩

theorem selectSlot_kept (s : State)  (hk : Kept nf nv s) : Kept nf nv (selectSlot s) := by
  unfold selectSlot; (try dsimp only)
  repeat' first | with_reducible assumption | with_reducible apply bootFail_kept | with_reducible apply showValid_kept | with_reducible apply trySlots_kept | with_reducible apply waitHost_kept | with_reducible apply kept_fold | split | simp only [kept_mk] | dsimp only | simp only [State.set_same, State.inc_same, State.add_same]

theorem coldBegin_kept (s : State)  (hk : Kept nf nv s) : Kept nf nv (coldBegin s) := by
  exact kept_congr hk (by simp) (by simp) (by simp)

theorem coldRest_kept (s : State) (r : BootReport)  (hk : Kept nf nv s) : Kept nf nv (coldRest s r) := by
  unfold coldRest; (try dsimp only)
  repeat' first | with_reducible assumption | with_reducible apply kept_set | with_reducible apply kept_draw | with_reducible apply kept_foldl | with_reducible apply applyDie_kept | with_reducible apply bistUnits_kept | with_reducible apply bootFail_kept | with_reducible apply bootStep_kept | with_reducible apply fixIdent_kept | with_reducible apply forgetChain_kept | with_reducible apply selectSlot_kept | intro _ | with_reducible apply kept_fold | split | simp only [kept_mk] | dsimp only | simp only [State.set_same, State.inc_same, State.add_same]

theorem warmDone_kept (s : State)  (hk : Kept nf nv s) : Kept nf nv (warmDone s) := by
  unfold warmDone; (try dsimp only)
  repeat' first | with_reducible assumption | with_reducible apply kept_set | with_reducible apply clampIfDue_kept | with_reducible apply forgetChain_kept | with_reducible apply restartLedger_kept | with_reducible apply startEnum_kept | with_reducible apply kept_fold | split | simp only [kept_mk] | dsimp only | simp only [State.set_same, State.inc_same, State.add_same]

theorem loadWent_kept (s : State) (slot : Nat)  (hk : Kept nf nv s) : Kept nf nv (loadWent s slot) := by
  unfold loadWent; (try dsimp only)
  repeat' first | with_reducible assumption | with_reducible apply afterLoad_kept | with_reducible apply rejectSlot_kept | with_reducible apply trySlots_kept | with_reducible apply kept_fold | split | simp only [kept_mk] | dsimp only | simp only [State.set_same, State.inc_same, State.add_same]

theorem stageBytes_kept (s : State) (off : Nat) (data : List Byte)  (hk : Kept nf nv s) : Kept nf nv (stageBytes s off data) := by
  obtain ⟨hw, hr⟩ := hk
  simp only [Bool.and_eq_true] at hw
  exact ⟨by simp only [stageBytes, Bool.and_eq_true]; exact ⟨⟨hw.1.1, flashWrite_wf hw.1.2⟩, hw.2⟩, hr⟩

theorem takeChunk_kept (s : State) (host : Bool) (off : Nat) (data : List Byte)  (hk : Kept nf nv s) : Kept nf nv (takeChunk s host off data) := by
  unfold takeChunk; (try dsimp only)
  repeat' first | with_reducible assumption | with_reducible apply bulkData_kept | with_reducible apply loadWent_kept | with_reducible apply setPushNext_kept | with_reducible apply stageBytes_kept | with_reducible apply kept_fold | split | simp only [kept_mk] | dsimp only | simp only [State.set_same, State.inc_same, State.add_same]

theorem chunk_kept (s : State) (f : Frame)  (hk : Kept nf nv s) : Kept nf nv (chunk s f) := by
  unfold chunk; (try dsimp only)
  repeat' first | with_reducible assumption | with_reducible apply kept_inc | with_reducible apply takeChunk_kept | with_reducible apply kept_fold | split | simp only [kept_mk] | dsimp only | simp only [State.set_same, State.inc_same, State.add_same]

theorem bootResult_kept (s : State) (r : Nat)  (hk : Kept nf nv s) : Kept nf nv (bootResult s r) := by
  exact kept_congr hk (by simp) (by simp) (by simp)

theorem restartCmd_kept (why : Nat) (src : Source) (s : State)  (hk : Kept nf nv s) : Kept nf nv (restartCmd why src s) := by
  unfold restartCmd; (repeat' split) <;> exact hk

theorem retryCmd_kept (src : Source) (s : State)  (hk : Kept nf nv s) : Kept nf nv (retryCmd src s) := by
  unfold retryCmd; (try dsimp only)
  repeat' first | with_reducible assumption | with_reducible apply kept_set | with_reducible apply bootResult_kept | with_reducible apply restartAs_kept | with_reducible apply kept_fold | split | simp only [kept_mk] | dsimp only | simp only [State.set_same, State.inc_same, State.add_same]

theorem loadCmd_kept (src : Source) (s : State)  (hk : Kept nf nv s) : Kept nf nv (loadCmd src s) := by
  unfold loadCmd; (try dsimp only)
  repeat' first | with_reducible assumption | with_reducible apply kept_set | with_reducible apply bootResult_kept | with_reducible apply trySlots_kept | with_reducible apply kept_fold | split | simp only [kept_mk] | dsimp only | simp only [State.set_same, State.inc_same, State.add_same]

theorem imageMessage_kept (s : State) (l : Nat) (b : List Byte)  (hk : Kept nf nv s) : Kept nf nv (imageMessage s l b) := by
  exact kept_congr hk (by simp) (by simp) (by simp)

theorem sendImage_kept (s : State) (link : Nat)  (hk : Kept nf nv s) : Kept nf nv (sendImage s link) := by
  exact kept_congr hk (by simp) (by simp) (by simp)

theorem receiveImage_kept (s : State) (data : List Byte)  (hk : Kept nf nv s) : Kept nf nv (receiveImage s data) := by
  unfold receiveImage; (try dsimp only)
  repeat' first | with_reducible assumption | with_reducible apply kept_set | with_reducible apply setPushNext_kept | with_reducible apply stageBytes_kept | with_reducible apply trySlots_kept | with_reducible apply kept_fold | split | simp only [kept_mk] | dsimp only | simp only [State.set_same, State.inc_same, State.add_same]

theorem keyResult_kept (s : State) (r : Nat)  (hk : Kept nf nv s) : Kept nf nv (keyResult s r) := by
  exact kept_congr hk (by simp) (by simp) (by simp)

theorem putKeys_kept (s : State) (ks : List (Nat × List Byte))  (hk : Kept nf nv s) : Kept nf nv (putKeys s ks) := by
  exact kept_congr hk (by simp) (by simp) (by simp)

theorem enrolKey_kept (s : State) (b : List Byte)  (hk : Kept nf nv s) : Kept nf nv (enrolKey s b) := by
  exact kept_congr hk (by simp) (by simp) (by simp)

theorem revokeKey_kept (s : State) (b : List Byte)  (hk : Kept nf nv s) : Kept nf nv (revokeKey s b) := by
  exact kept_congr hk (by simp) (by simp) (by simp)

theorem applyKey_kept (src : Source) (s : State)  (hk : Kept nf nv s) : Kept nf nv (applyKey src s) := by
  unfold applyKey; (try dsimp only)
  repeat' first | with_reducible assumption | with_reducible apply kept_draw | with_reducible apply enrolKey_kept | with_reducible apply keyResult_kept | with_reducible apply revokeKey_kept | with_reducible apply kept_fold | split | simp only [kept_mk] | dsimp only | simp only [State.set_same, State.inc_same, State.add_same]

theorem debugResult_kept (s : State) (r : Nat)  (hk : Kept nf nv s) : Kept nf nv (debugResult s r) := by
  exact kept_congr hk (by simp) (by simp) (by simp)

theorem challengeCmd_kept (src : Source) (s : State)  (hk : Kept nf nv s) : Kept nf nv (challengeCmd src s) := by
  unfold challengeCmd; (try dsimp only)
  repeat' first | with_reducible assumption | with_reducible apply kept_set | with_reducible apply kept_draw | with_reducible apply kept_foldl | with_reducible apply debugResult_kept | with_reducible apply ownerOnly_kept | intro _ | with_reducible apply kept_fold | split | simp only [kept_mk] | dsimp only | simp only [State.set_same, State.inc_same, State.add_same]

theorem respondCmd_kept (src : Source) (s : State)  (hk : Kept nf nv s) : Kept nf nv (respondCmd src s) := by
  exact kept_congr hk (by simp) (by simp) (by simp)

theorem powerResult_kept (s : State) (r : Nat)  (hk : Kept nf nv s) : Kept nf nv (powerResult s r) := by
  exact kept_congr hk (by simp) (by simp) (by simp)

theorem acceptEntry_kept (s : State) (kind : Nat)  (hk : Kept nf nv s) : Kept nf nv (acceptEntry s kind) := by
  unfold acceptEntry; (try dsimp only)
  repeat' first | with_reducible assumption | with_reducible apply kept_set | with_reducible apply kept_fold | split | simp only [kept_mk] | dsimp only | simp only [State.set_same, State.inc_same, State.add_same]

theorem entryCmd_kept (kind : Nat) (src : Source) (s : State)  (hk : Kept nf nv s) : Kept nf nv (entryCmd kind src s) := by
  unfold entryCmd; (try dsimp only)
  repeat' first | with_reducible assumption | with_reducible apply acceptEntry_kept | with_reducible apply powerResult_kept | with_reducible apply kept_fold | split | simp only [kept_mk] | dsimp only | simp only [State.set_same, State.inc_same, State.add_same]

theorem cancelEntry_kept (src : Source) (s : State)  (hk : Kept nf nv s) : Kept nf nv (cancelEntry src s) := by
  unfold cancelEntry; (try dsimp only)
  repeat' first | with_reducible assumption | with_reducible apply kept_set | with_reducible apply powerResult_kept | with_reducible apply kept_fold | split | simp only [kept_mk] | dsimp only | simp only [State.set_same, State.inc_same, State.add_same]

theorem beginWake_kept (s : State) (m : Nat)  (hk : Kept nf nv s) : Kept nf nv (beginWake s m) := by
  exact kept_congr hk (by simp) (by simp) (by simp)

theorem wakeEvent_kept (s : State) (m : Nat) (level : Bool)  (hk : Kept nf nv s) : Kept nf nv (wakeEvent s m level) := by
  unfold wakeEvent; (try dsimp only)
  repeat' first | with_reducible assumption | with_reducible apply kept_draw | with_reducible apply beginWake_kept | with_reducible apply kept_fold | split | simp only [kept_mk] | dsimp only | simp only [State.set_same, State.inc_same, State.add_same]

theorem linksDown_kept (s : State)  (hk : Kept nf nv s) : Kept nf nv (linksDown s) := by
  exact kept_congr hk (by simp) (by simp) (by simp)

theorem selfRefresh_kept (s : State) (on : Bool)  (hk : Kept nf nv s) : Kept nf nv (selfRefresh s on) := by
  exact kept_congr hk (by simp) (by simp) (by simp)

theorem enterPower_kept (s : State)  (hk : Kept nf nv s) : Kept nf nv (enterPower s) := by
  exact kept_congr hk (by simp) (by simp) (by simp)

theorem supplyError_kept (s : State)  (hk : Kept nf nv s) : Kept nf nv (supplyError s) := by
  unfold supplyError; (try dsimp only)
  repeat' first | with_reducible assumption | with_reducible apply detect_kept | with_reducible apply kept_fold | split | simp only [kept_mk] | dsimp only | simp only [State.set_same, State.inc_same, State.add_same]

theorem commitWrite_kept (src : Source) (s : State)  (hk : Kept nf nv s) : Kept nf nv (commitWrite src s).2 := by
  unfold commitWrite; (try dsimp only)
  repeat' first | with_reducible assumption | with_reducible apply kept_foldl | intro _ | with_reducible apply kept_fold | split | simp only [kept_mk] | dsimp only | simp only [State.set_same, State.inc_same, State.add_same]

theorem notOwner_kept (a : Nat) (s : State)  (hk : Kept nf nv s) : Kept nf nv (notOwner a s) := by
  exact kept_congr hk (by simp) (by simp) (by simp)

theorem disableLink_kept (s : State) (l : Nat)  (hk : Kept nf nv s) : Kept nf nv (disableLink s l) := by
  exact kept_congr hk (by simp) (by simp) (by simp)

theorem afterWrite_kept (a v : Nat) (s : State)  (hk : Kept nf nv s) : Kept nf nv (afterWrite a v s) := by
  unfold afterWrite; (try dsimp only)
  repeat' first | with_reducible assumption | with_reducible apply kept_set | with_reducible apply disableLink_kept | split
  · exact hk
  · exact ⟨memoryWf_ring hk.1 _, hk.2⟩

theorem writeField_kept (a v : Nat) (s : State) (f : Field)  (hk : Kept nf nv s) : Kept nf nv (writeField a v s f) := by
  unfold writeField; (try dsimp only)
  repeat' first | with_reducible assumption | with_reducible apply kept_set | with_reducible apply kept_fold | split | simp only [kept_mk] | dsimp only | simp only [State.set_same, State.inc_same, State.add_same]

theorem plainWrite_kept (a v : Nat) (fs : List Field) (s : State)  (hk : Kept nf nv s) : Kept nf nv (plainWrite a v fs s).2 := by
  unfold plainWrite; (try dsimp only)
  repeat' first | with_reducible assumption | with_reducible apply kept_foldl | with_reducible apply afterWrite_kept | with_reducible apply writeField_kept | intro _ | with_reducible apply kept_fold | split | simp only [kept_mk] | dsimp only | simp only [State.set_same, State.inc_same, State.add_same]

theorem windowWrite_kept (src : Source) (a : Nat) (w : Word) (s : State)  (hk : Kept nf nv s) : Kept nf nv (windowWrite src a w s) := by
  unfold windowWrite; (try dsimp only)
  repeat' first | with_reducible assumption | with_reducible apply slotDataBlock_kept | with_reducible apply kept_fold | split | simp only [kept_mk] | dsimp only | simp only [State.set_same, State.inc_same, State.add_same]

theorem macsecWrite_kept (src : Source) (a : Nat) (w : Word) (s : State)  (hk : Kept nf nv s) : Kept nf nv (macsecWrite src a w s).2 := by
  exact kept_congr hk (by simp) (by simp) (by simp)

theorem configCommand_kept {src : Source} {a : Nat} {w : Word} {s t : State} (hk : Kept nf nv s) (h : configCommand src a w s = some t) : Kept nf nv t := by
  unfold configCommand at h
  split at h
  · simp only [Option.some.injEq] at h; subst h; repeat' first | with_reducible assumption | with_reducible apply slotOpen_kept | with_reducible apply slotClose_kept | with_reducible apply slotAbort_kept | with_reducible apply switchCmd_kept | with_reducible apply holdCmd_kept | with_reducible apply resumeCmd_kept | with_reducible apply cancelCmd_kept | with_reducible apply quiesceRequest_kept | with_reducible apply windowWrite_kept | split
  split at h
  · simp only [Option.some.injEq] at h; subst h; repeat' first | with_reducible assumption | with_reducible apply slotOpen_kept | with_reducible apply slotClose_kept | with_reducible apply slotAbort_kept | with_reducible apply switchCmd_kept | with_reducible apply holdCmd_kept | with_reducible apply resumeCmd_kept | with_reducible apply cancelCmd_kept | with_reducible apply quiesceRequest_kept | with_reducible apply windowWrite_kept | split
  split at h
  · simp only [Option.some.injEq] at h; subst h; repeat' first | with_reducible assumption | with_reducible apply slotOpen_kept | with_reducible apply slotClose_kept | with_reducible apply slotAbort_kept | with_reducible apply switchCmd_kept | with_reducible apply holdCmd_kept | with_reducible apply resumeCmd_kept | with_reducible apply cancelCmd_kept | with_reducible apply quiesceRequest_kept | with_reducible apply windowWrite_kept | split
  split at h
  · simp only [Option.some.injEq] at h; subst h; repeat' first | with_reducible assumption | with_reducible apply slotOpen_kept | with_reducible apply slotClose_kept | with_reducible apply slotAbort_kept | with_reducible apply switchCmd_kept | with_reducible apply holdCmd_kept | with_reducible apply resumeCmd_kept | with_reducible apply cancelCmd_kept | with_reducible apply quiesceRequest_kept | with_reducible apply windowWrite_kept | split
  cases h
theorem deviceCommand_kept {src : Source} {a : Nat} {w : Word} {s t : State} (hk : Kept nf nv s) (h : deviceCommand src a w s = some t) : Kept nf nv t := by
  unfold deviceCommand at h
  split at h
  · simp only [Option.some.injEq] at h; subst h; repeat' first | with_reducible assumption | with_reducible apply entryCmd_kept | with_reducible apply cancelEntry_kept | with_reducible apply restartCmd_kept | with_reducible apply loadCmd_kept | with_reducible apply retryCmd_kept | with_reducible apply applyKey_kept | with_reducible apply challengeCmd_kept | with_reducible apply respondCmd_kept | with_reducible apply enterNow_kept | with_reducible apply faultTestCmd_kept | split
  split at h
  · simp only [Option.some.injEq] at h; subst h; repeat' first | with_reducible assumption | with_reducible apply entryCmd_kept | with_reducible apply cancelEntry_kept | with_reducible apply restartCmd_kept | with_reducible apply loadCmd_kept | with_reducible apply retryCmd_kept | with_reducible apply applyKey_kept | with_reducible apply challengeCmd_kept | with_reducible apply respondCmd_kept | with_reducible apply enterNow_kept | with_reducible apply faultTestCmd_kept | split
  split at h
  · simp only [Option.some.injEq] at h; subst h; repeat' first | with_reducible assumption | with_reducible apply entryCmd_kept | with_reducible apply cancelEntry_kept | with_reducible apply restartCmd_kept | with_reducible apply loadCmd_kept | with_reducible apply retryCmd_kept | with_reducible apply applyKey_kept | with_reducible apply challengeCmd_kept | with_reducible apply respondCmd_kept | with_reducible apply enterNow_kept | with_reducible apply faultTestCmd_kept | split
  split at h
  · simp only [Option.some.injEq] at h; subst h; repeat' first | with_reducible assumption | with_reducible apply entryCmd_kept | with_reducible apply cancelEntry_kept | with_reducible apply restartCmd_kept | with_reducible apply loadCmd_kept | with_reducible apply retryCmd_kept | with_reducible apply applyKey_kept | with_reducible apply challengeCmd_kept | with_reducible apply respondCmd_kept | with_reducible apply enterNow_kept | with_reducible apply faultTestCmd_kept | split
  split at h
  · simp only [Option.some.injEq] at h; subst h; repeat' first | with_reducible assumption | with_reducible apply entryCmd_kept | with_reducible apply cancelEntry_kept | with_reducible apply restartCmd_kept | with_reducible apply loadCmd_kept | with_reducible apply retryCmd_kept | with_reducible apply applyKey_kept | with_reducible apply challengeCmd_kept | with_reducible apply respondCmd_kept | with_reducible apply enterNow_kept | with_reducible apply faultTestCmd_kept | split
  split at h
  · simp only [Option.some.injEq] at h; subst h; repeat' first | with_reducible assumption | with_reducible apply entryCmd_kept | with_reducible apply cancelEntry_kept | with_reducible apply restartCmd_kept | with_reducible apply loadCmd_kept | with_reducible apply retryCmd_kept | with_reducible apply applyKey_kept | with_reducible apply challengeCmd_kept | with_reducible apply respondCmd_kept | with_reducible apply enterNow_kept | with_reducible apply faultTestCmd_kept | split
  cases h
theorem blockCommand_kept {src : Source} {a : Nat} {w : Word} {s t : State} (hk : Kept nf nv s) (h : blockCommand src a w s = some t) : Kept nf nv t := by
  unfold blockCommand at h
  split at h
  · simp only [Option.some.injEq] at h; subst h; repeat' first | with_reducible assumption | with_reducible apply rebuildCmd_kept | with_reducible apply enumerateCmd_kept | with_reducible apply clampCmd_kept | with_reducible apply remoteCmd_kept | with_reducible apply checkpointCmd_kept | with_reducible apply replayCmd_kept | with_reducible apply replayAbortCmd_kept | with_reducible apply capClearCmd_kept | split
  split at h
  · simp only [Option.some.injEq] at h; subst h; repeat' first | with_reducible assumption | with_reducible apply rebuildCmd_kept | with_reducible apply enumerateCmd_kept | with_reducible apply clampCmd_kept | with_reducible apply remoteCmd_kept | with_reducible apply checkpointCmd_kept | with_reducible apply replayCmd_kept | with_reducible apply replayAbortCmd_kept | with_reducible apply capClearCmd_kept | split
  split at h
  · simp only [Option.some.injEq] at h; subst h; repeat' first | with_reducible assumption | with_reducible apply rebuildCmd_kept | with_reducible apply enumerateCmd_kept | with_reducible apply clampCmd_kept | with_reducible apply remoteCmd_kept | with_reducible apply checkpointCmd_kept | with_reducible apply replayCmd_kept | with_reducible apply replayAbortCmd_kept | with_reducible apply capClearCmd_kept | split
  split at h
  · simp only [Option.some.injEq] at h; subst h; repeat' first | with_reducible assumption | with_reducible apply rebuildCmd_kept | with_reducible apply enumerateCmd_kept | with_reducible apply clampCmd_kept | with_reducible apply remoteCmd_kept | with_reducible apply checkpointCmd_kept | with_reducible apply replayCmd_kept | with_reducible apply replayAbortCmd_kept | with_reducible apply capClearCmd_kept | split
  cases h
theorem commandWrite_kept {src : Source} {a : Nat} {w : Word} {s : State} {r : Nat × State} (hk : Kept nf nv s)
    (h : commandWrite src a w s = some r) : Kept nf nv r.2 := by
  unfold commandWrite at h
  split at h
  · simp only [Option.some.injEq] at h; subst h; exact commitWrite_kept _ _ hk
  split at h
  · simp only [Option.some.injEq] at h; subst h; exact macsecWrite_kept _ _ _ _ hk
  obtain ⟨t, ht, rfl⟩ := Option.map_eq_some_iff.mp h
  rcases Option.or_eq_some_iff.mp ht with e | ⟨-, ht⟩
  · exact configCommand_kept hk e
  rcases Option.or_eq_some_iff.mp ht with e | ⟨-, e⟩
  · exact deviceCommand_kept hk e
  · exact blockCommand_kept hk e
theorem applyWrite_kept (src : Source) (a : Nat) (w : Word) (s : State)  (hk : Kept nf nv s) : Kept nf nv (applyWrite src a w s).2 := by
  unfold applyWrite; (try dsimp only)
  repeat' first | with_reducible assumption | with_reducible apply notOwner_kept | with_reducible apply plainWrite_kept | with_reducible apply afterWrite_kept | with_reducible apply kept_fold | split | simp only [kept_mk] | dsimp only | simp only [State.set_same, State.inc_same, State.add_same] | exact commandWrite_kept hk ‹_›

theorem writeRegs_kept (src : Source) (x0 : Nat) (x1 : List Word) (s : State)  (hk : Kept nf nv s) : Kept nf nv (writeRegs src x0 x1 s).2.2 := by
  induction x1 generalizing x0 s with
  | nil => exact hk
  | cons w l ih =>
    simp only [writeRegs]; split
    · exact applyWrite_kept _ _ _ _ hk
    · exact ih _ _ (applyWrite_kept _ _ _ _ hk)

theorem answer_kept (s : State) (f : Frame) (addr count status fail : Nat) (words : List Nat)  (hk : Kept nf nv s) : Kept nf nv (answer s f addr count status fail words) := by
  exact kept_congr hk (by simp) (by simp) (by simp)

theorem senseFor_kept (s : State) (a n : Nat)  (hk : Kept nf nv s) : Kept nf nv (senseFor s a n) := by
  unfold senseFor; (try dsimp only)
  repeat' first | with_reducible assumption | with_reducible apply sense_kept | with_reducible apply kept_fold | split | simp only [kept_mk] | dsimp only | simp only [State.set_same, State.inc_same, State.add_same]

theorem serveFrame_kept (f : Frame) (s : State)  (hk : Kept nf nv s) : Kept nf nv (serveFrame f s) := by
  unfold serveFrame; (try dsimp only)
  repeat' first | with_reducible assumption | with_reducible apply kept_draw | with_reducible apply answer_kept | with_reducible apply senseFor_kept | with_reducible apply writeRegs_kept | with_reducible apply kept_fold | split | simp only [kept_mk] | dsimp only | simp only [State.set_same, State.inc_same, State.add_same]

theorem serveRemote_kept (link source : Nat) (write : Bool) (addr count : Nat) (values : List Word) (s : State)  (hk : Kept nf nv s) : Kept nf nv (serveRemote link source write addr count values s) := by
  unfold serveRemote; (try dsimp only)
  repeat' first | with_reducible assumption | with_reducible apply maintMessage_kept | with_reducible apply senseFor_kept | with_reducible apply writeRegs_kept | with_reducible apply kept_fold | split | simp only [kept_mk] | dsimp only | simp only [State.set_same, State.inc_same, State.add_same]

theorem serveJtag_kept (write : Bool) (addr : Nat) (value : Word) (s : State)  (hk : Kept nf nv s) : Kept nf nv (serveJtag write addr value s) := by
  unfold serveJtag; (try dsimp only)
  repeat' first | with_reducible assumption | with_reducible apply applyWrite_kept | with_reducible apply senseFor_kept | with_reducible apply kept_fold | split | simp only [kept_mk] | dsimp only | simp only [State.set_same, State.inc_same, State.add_same]

theorem serve_kept (r : Request) (s : State)  (hk : Kept nf nv s) : Kept nf nv (serve r s) := by
  unfold serve; (try dsimp only)
  repeat' first | with_reducible assumption | with_reducible apply serveFrame_kept | with_reducible apply serveJtag_kept | with_reducible apply serveRemote_kept | with_reducible apply kept_fold | split | simp only [kept_mk] | dsimp only | simp only [State.set_same, State.inc_same, State.add_same]

theorem applyWaiting_kept (s : State)  (hk : Kept nf nv s) : Kept nf nv (applyWaiting s) := by
  unfold applyWaiting; (try dsimp only)
  repeat' first | with_reducible assumption | with_reducible apply kept_foldl | with_reducible apply serve_kept | intro _ | with_reducible apply kept_fold | split | simp only [kept_mk] | dsimp only | simp only [State.set_same, State.inc_same, State.add_same]

theorem takeRequest_kept (f : Frame) (t : Nat) (s : State)  (hk : Kept nf nv s) : Kept nf nv (takeRequest f t s) := by
  unfold takeRequest; (try dsimp only)
  repeat' first | with_reducible assumption | with_reducible apply arrive_kept | with_reducible apply serveFrame_kept | with_reducible apply kept_fold | split | simp only [kept_mk] | dsimp only | simp only [State.set_same, State.inc_same, State.add_same]

theorem jtagAccess_kept (write : Bool) (addr : Nat) (value : Word) (s : State)  (hk : Kept nf nv s) : Kept nf nv (jtagAccess write addr value s) := by
  unfold jtagAccess; (try dsimp only)
  repeat' first | with_reducible assumption | with_reducible apply serveJtag_kept | with_reducible apply kept_fold | split | simp only [kept_mk] | dsimp only | simp only [State.set_same, State.inc_same, State.add_same]

theorem written_kept (src : Source) (s : State) {t : State} (hk : Kept nf nv t) : Kept nf nv (written src s t) := hk

end Sys2Proof.Machine
end

