-- ==== Sys2Proof/Laws/Registers.lean ====
section
/-! SUPPORT. Every shared operation keeps the register file's fields in ascending address. -/

namespace Sys2Proof.Machine

theorem ascends_set {s : State} (h : ascends s.regs = true) (f : Field) (v : Nat) : ascends (s.set f v).regs = true := ascends_rset h
theorem ascends_inc {s : State} (h : ascends s.regs = true) (f : Field) : ascends (s.inc f).regs = true := ascends_rinc h
theorem ascends_add {s : State} (h : ascends s.regs = true) (f : Field) (n : Nat) : ascends (s.add f n).regs = true := ascends_radd h
theorem ascends_set64 {s : State} (h : ascends s.regs = true) (lo hi : Field) (v : Nat) : ascends (s.set64 lo hi v).regs = true := ascends_set (ascends_set h lo v) hi _
theorem ascends_foldl {β : Type} {g : State → β → State} {l : List β} {s : State} (hg : ∀ s x, ascends s.regs = true → ascends (g s x).regs = true) (h : ascends s.regs = true) : ascends (l.foldl g s).regs = true := by
  induction l generalizing s with
  | nil => exact h
  | cons x l ih => exact ih (hg s x h)
theorem ascends_foldl_fst {β γ : Type} {g : State × γ → β → State × γ} {l : List β} {a : State × γ} (hg : ∀ a x, ascends a.1.regs = true → ascends (g a x).1.regs = true) (h : ascends a.1.regs = true) : ascends (l.foldl g a).1.regs = true := by
  induction l generalizing a with
  | nil => exact h
  | cons x l ih => exact ih (hg a x h)
theorem ascends_foldl_snd {β γ : Type} {g : γ × State → β → γ × State} {l : List β} {a : γ × State} (hg : ∀ a x, ascends a.2.regs = true → ascends (g a x).2.regs = true) (h : ascends a.2.regs = true) : ascends (l.foldl g a).2.regs = true := by
  induction l generalizing a with
  | nil => exact h
  | cons x l ih => exact ih (hg a x h)

theorem swapTable_regs (s : State) (table : List (Nat × Nat)) (clipped gen : Nat) (hr : ascends s.regs = true) : ascends (swapTable s table clipped gen).regs = true := by
  unfold swapTable; (try dsimp only)
  repeat' first | with_reducible assumption | with_reducible apply ascends_set | with_reducible apply ascends_inc | with_reducible apply ascends_add | split | dsimp only

theorem putTable_regs (s : State) (t : List (Nat × Nat) × Nat) (gen : Nat) (hr : ascends s.regs = true) : ascends (putTable s t gen).regs = true := by
  unfold putTable; (try dsimp only)
  repeat' first | with_reducible assumption | with_reducible apply swapTable_regs | split | dsimp only

theorem publishTraj_regs (s : State) (img : Image) (tr : QTraj) (k verdict : Nat) (island : Bool) (hr : ascends s.regs = true) : ascends (publishTraj s img tr k verdict island).regs = true := by
  unfold publishTraj; (try dsimp only)
  repeat' first | with_reducible assumption | with_reducible apply putTable_regs | split | dsimp only

theorem publishHold_regs (s : State) (img : Image) (k : Nat) (hr : ascends s.regs = true) : ascends (publishHold s img k).regs = true := by
  unfold publishHold; (try dsimp only)
  repeat' first | with_reducible assumption | with_reducible apply putTable_regs | split | dsimp only

theorem emptyTable_regs (s : State) (hr : ascends s.regs = true) : ascends (emptyTable s).regs = true := by
  unfold emptyTable; (try dsimp only)
  repeat' first | with_reducible assumption | with_reducible apply ascends_set | split | dsimp only

theorem setPhase_regs (s : State) (ph : Nat) (hr : ascends s.regs = true) : ascends (setPhase s ph).regs = true := by
  unfold setPhase; (try dsimp only)
  repeat' first | with_reducible assumption | with_reducible apply ascends_set | split | dsimp only

theorem pumpOne_regs (l : Nat) (a : State × List OutFlit × List Nat) (f : OutFlit) (hr : ascends a.1.regs = true) :
    ascends (pumpOne l a f).1.regs = true := by
  simp only [pumpOne]; (repeat' split) <;> first | exact hr | (simp [State.setLink]; exact ascends_rset hr)
theorem pumpLink_regs (s : State) (l : Nat) (hr : ascends s.regs = true) : ascends (pumpLink s l).regs = true := by
  simp only [pumpLink]; split
  · exact hr
  · simp only [State.setLink]; exact ascends_foldl_fst (fun a x => pumpOne_regs l a x) hr

theorem sendFlit_regs (s : State) (l : Nat) (f : OutFlit) (hr : ascends s.regs = true) : ascends (sendFlit s l f).regs = true := by
  unfold sendFlit; (try dsimp only)
  repeat' first | with_reducible assumption | with_reducible apply pumpLink_regs | split | simp only [State.setLink_same] | dsimp only

theorem sendToken_regs (s : State) (l kind flags dest : Nat) (e : Epoch) (v0 v1 : Nat) (hr : ascends s.regs = true) : ascends (sendToken s l kind flags dest e v0 v1).regs = true := by
  unfold sendToken; (try dsimp only)
  repeat' first | with_reducible assumption | with_reducible apply sendFlit_regs | split | dsimp only

theorem sendMessage_regs (s : State) (l : Nat) (fs : List OutFlit) (hr : ascends s.regs = true) : ascends (sendMessage s l fs).regs = true := by
  unfold sendMessage; (try dsimp only)
  repeat' first | with_reducible assumption | with_reducible apply ascends_foldl | with_reducible apply sendFlit_regs | intro _ | split | dsimp only

theorem maintMessage_regs (s : State) (l dest kind : Nat) (hr : ascends s.regs = true) : ascends (maintMessage s l dest kind).regs = true := by
  unfold maintMessage; (try dsimp only)
  repeat' first | with_reducible assumption | with_reducible apply sendMessage_regs | split | dsimp only | simp only [State.draw_same]

theorem tryConfirm_regs (s : State) (e : Epoch) (hr : ascends s.regs = true) : ascends (tryConfirm s e).regs = true := by
  unfold tryConfirm; (try dsimp only)
  repeat' first | with_reducible assumption | with_reducible apply sendToken_regs | split | dsimp only

theorem condemn_regs (s : State) (e : Epoch) (cause : Nat) (hr : ascends s.regs = true) : ascends (condemn s e cause).regs = true := by
  unfold condemn; (try dsimp only)
  repeat' first | with_reducible assumption | with_reducible apply ascends_inc | with_reducible apply sendToken_regs | split | dsimp only

theorem armedStatus_regs (s : State) (hr : ascends s.regs = true) : ascends (armedStatus s).regs = true := by
  unfold armedStatus; (try dsimp only)
  repeat' first | with_reducible assumption | with_reducible apply ascends_set | split | dsimp only

theorem setMode_regs (s : State) (m : Nat) (hr : ascends s.regs = true) : ascends (setMode s m).regs = true := by
  unfold setMode; (try dsimp only)
  repeat' first | with_reducible assumption | with_reducible apply ascends_set | with_reducible apply ascends_inc | split | dsimp only

theorem showSpecEpoch_regs (s : State) (hr : ascends s.regs = true) : ascends (showSpecEpoch s).regs = true := by
  unfold showSpecEpoch; (try dsimp only)
  repeat' first | with_reducible assumption | with_reducible apply ascends_set | split | dsimp only

theorem discardAll_regs (s : State) (hr : ascends s.regs = true) : ascends (discardAll s).regs = true := by
  unfold discardAll; (try dsimp only)
  repeat' first | with_reducible assumption | with_reducible apply ascends_add | with_reducible apply showSpecEpoch_regs | split | simp only [dropSpecDescs_same] | dsimp only

theorem discardBefore_regs (s : State) (e : Epoch) (hr : ascends s.regs = true) : ascends (discardBefore s e).regs = true := by
  unfold discardBefore; (try dsimp only)
  repeat' first | with_reducible assumption | with_reducible apply ascends_add | with_reducible apply showSpecEpoch_regs | split | simp only [dropSpecDescs_same] | dsimp only

theorem stopMain_regs (s : State) (hr : ascends s.regs = true) : ascends (stopMain s).regs = true := by
  unfold stopMain; (try dsimp only)
  repeat' first | with_reducible assumption | with_reducible apply ascends_set | with_reducible apply condemn_regs | with_reducible apply discardAll_regs | split | dsimp only

theorem restartAs_regs (s : State) (warm : Bool) (hr : ascends s.regs = true) : ascends (restartAs s warm).regs = true := by
  unfold restartAs; (try dsimp only)
  repeat' first | with_reducible assumption | with_reducible apply ascends_set | with_reducible apply ascends_inc | with_reducible apply stopMain_regs | split | simp only [endJobs_same] | dsimp only

theorem beginRestart_regs (s : State) (hr : ascends s.regs = true) : ascends (beginRestart s).regs = true := by
  unfold beginRestart; (try dsimp only)
  repeat' first | with_reducible assumption | with_reducible apply restartAs_regs | split | dsimp only

theorem chargeSlot_regs (s : State) (i : Nat) (hr : ascends s.regs = true) : ascends (chargeSlot s i).regs = true := by
  unfold chargeSlot; (try dsimp only)
  repeat' first | with_reducible assumption | with_reducible apply ascends_set | with_reducible apply ascends_inc | split | dsimp only

theorem startFailed_regs (s : State) (hr : ascends s.regs = true) : ascends (startFailed s).regs = true := by
  unfold startFailed; (try dsimp only)
  repeat' first | with_reducible assumption | with_reducible apply ascends_set | with_reducible apply chargeSlot_regs | with_reducible apply restartAs_regs | split | dsimp only

theorem enterSafe_regs (s : State) (hr : ascends s.regs = true) : ascends (enterSafe s).regs = true := by
  unfold enterSafe; (try dsimp only)
  repeat' first | with_reducible assumption | with_reducible apply ascends_set | with_reducible apply ascends_inc | with_reducible apply beginRestart_regs | with_reducible apply setMode_regs | split | dsimp only

theorem publishEntry_regs (s : State) (k : Nat) (hr : ascends s.regs = true) : ascends (publishEntry s k).regs = true := by
  unfold publishEntry; (try dsimp only)
  repeat' first | with_reducible assumption | with_reducible apply publishHold_regs | with_reducible apply publishTraj_regs | split | dsimp only

theorem enterNow_regs (s : State) (hr : ascends s.regs = true) : ascends (enterNow s).regs = true := by
  unfold enterNow; (try dsimp only)
  repeat' first | with_reducible assumption | with_reducible apply ascends_set | with_reducible apply armedStatus_regs | with_reducible apply enterSafe_regs | with_reducible apply publishEntry_regs | split | dsimp only

theorem permanentFault_regs (s : State) (hr : ascends s.regs = true) : ascends (permanentFault s).regs = true := by
  unfold permanentFault; (try dsimp only)
  repeat' first | with_reducible assumption | with_reducible apply ascends_set | with_reducible apply publishHold_regs | with_reducible apply setMode_regs | split | dsimp only

theorem showUnit_regs (s : State) (cls idx : Nat) (hr : ascends s.regs = true) : ascends (showUnit s cls idx).regs = true := by
  unfold showUnit; (try dsimp only)
  repeat' first | with_reducible assumption | with_reducible apply ascends_set | split | dsimp only

theorem makeSuspect_regs (s : State) (cls idx : Nat) (hr : ascends s.regs = true) : ascends (makeSuspect s cls idx).regs = true := by
  unfold makeSuspect; (try dsimp only)
  repeat' first | with_reducible assumption | with_reducible apply showUnit_regs | split | simp only [State.setUnit_same] | dsimp only

theorem showTokens_regs (s : State) (hr : ascends s.regs = true) : ascends (showTokens s).regs = true := by
  unfold showTokens; (try dsimp only)
  repeat' first | with_reducible assumption | with_reducible apply ascends_set | with_reducible apply ascends_foldl | intro _ | split | dsimp only

theorem takeToken_regs (s : State) (t : Token) (hr : ascends s.regs = true) : ascends (takeToken s t).2.regs = true := by
  unfold takeToken; (try dsimp only)
  repeat' first | with_reducible assumption | with_reducible apply ascends_set | with_reducible apply ascends_inc | with_reducible apply showTokens_regs | split | dsimp only

theorem dropToken_regs (s : State) (t : Token) (hr : ascends s.regs = true) : ascends (dropToken s t).regs = true := by
  unfold dropToken; (try dsimp only)
  repeat' first | with_reducible assumption | with_reducible apply showTokens_regs | split | dsimp only

theorem sense_regs (s : State) (hr : ascends s.regs = true) : ascends (State.sense s).regs = true := by
  unfold State.sense; (try dsimp only)
  repeat' first | with_reducible assumption | with_reducible apply ascends_set | split | dsimp only | simp only [State.draw_same]

theorem issueRecord_regs (s : State) (h : Handling) (test : Nat) (hr : ascends s.regs = true) : ascends (issueRecord s h test).regs = true := by
  unfold issueRecord; (try dsimp only)
  repeat' first | with_reducible assumption | with_reducible apply ascends_set | with_reducible apply ascends_inc | with_reducible apply sense_regs | split | dsimp only | simp only [State.draw_same]

theorem closeError_regs (s : State) (h : Handling) (test : Nat) (hr : ascends s.regs = true) : ascends (closeError s h test).regs = true := by
  unfold closeError; (try dsimp only)
  repeat' first | with_reducible assumption | with_reducible apply ascends_inc | with_reducible apply issueRecord_regs | split | dsimp only

theorem actFatal_regs (s : State) (e : ErrorInfo) (hr : ascends s.regs = true) : ascends (actFatal s e).regs = true := by
  unfold actFatal; (try dsimp only)
  repeat' first | with_reducible assumption | with_reducible apply ascends_set | with_reducible apply enterNow_regs | with_reducible apply startFailed_regs | split | dsimp only

theorem showHandler_regs (s : State) (hr : ascends s.regs = true) : ascends (showHandler s).regs = true := by
  unfold showHandler; (try dsimp only)
  repeat' first | with_reducible assumption | with_reducible apply ascends_set | split | dsimp only

theorem detect_regs (s : State) (e : ErrorInfo) (hr : ascends s.regs = true) : ascends (detect s e).regs = true := by
  unfold detect; (try dsimp only)
  repeat' first | with_reducible assumption | with_reducible apply ascends_inc | with_reducible apply actFatal_regs | with_reducible apply closeError_regs | with_reducible apply makeSuspect_regs | with_reducible apply showHandler_regs | split | simp only [chargeUnit_same] | dsimp only

theorem detectPermanent_regs (s : State) (e : ErrorInfo) (hr : ascends s.regs = true) : ascends (detectPermanent s e).regs = true := by
  unfold detectPermanent; (try dsimp only)
  repeat' first | with_reducible assumption | with_reducible apply detect_regs | with_reducible apply makeSuspect_regs | split | dsimp only

theorem queueTrans_regs (s : State) (t : List Trans) (hr : ascends s.regs = true) : ascends (queueTrans s t).regs = true := by
  unfold queueTrans; (try dsimp only)
  repeat' first | with_reducible assumption | with_reducible apply ascends_set | split | dsimp only

theorem closeLedger_regs (s : State) (img : Image) (b : List Byte) (e : Epoch) (all : Bool) (hr : ascends s.regs = true) : ascends (closeLedger s img b e all).regs = true := by
  unfold closeLedger; (try dsimp only)
  repeat' first | with_reducible assumption | with_reducible apply ascends_set | with_reducible apply ascends_foldl | intro _ | split | dsimp only

theorem showShift_regs (s : State) (hr : ascends s.regs = true) : ascends (showShift s).regs = true := by
  unfold showShift; (try dsimp only)
  repeat' first | with_reducible assumption | with_reducible apply ascends_set | split | dsimp only

theorem showPending_regs (s : State) (hr : ascends s.regs = true) : ascends (showPending s).regs = true := by
  unfold showPending; (try dsimp only)
  repeat' first | with_reducible assumption | with_reducible apply ascends_set | split | dsimp only

theorem rebuildLedger_regs (s : State) (img : Image) (b : List Byte) (e : Epoch) (cause : Nat) (hr : ascends s.regs = true) : ascends (rebuildLedger s img b e cause).regs = true := by
  unfold rebuildLedger; (try dsimp only)
  repeat' first | with_reducible assumption | with_reducible apply ascends_set | with_reducible apply ascends_inc | with_reducible apply closeLedger_regs | with_reducible apply showPending_regs | split | dsimp only

theorem scheduleRebuild_regs (s : State) (cause : Nat) (hr : ascends s.regs = true) : ascends (scheduleRebuild s cause).regs = true := by
  unfold scheduleRebuild; (try dsimp only)
  repeat' first | with_reducible assumption | with_reducible apply showPending_regs | split | dsimp only

theorem scheduleShift_regs (s : State) (e : Epoch) (hr : ascends s.regs = true) : ascends (scheduleShift s e).regs = true := by
  unfold scheduleShift; (try dsimp only)
  repeat' first | with_reducible assumption | with_reducible apply showPending_regs | with_reducible apply showShift_regs | split | dsimp only

theorem restartLedger_regs (s : State) (hr : ascends s.regs = true) : ascends (restartLedger s).regs = true := by
  unfold restartLedger; (try dsimp only)
  repeat' first | with_reducible assumption | with_reducible apply ascends_set | with_reducible apply scheduleRebuild_regs | with_reducible apply showShift_regs | split | dsimp only

theorem showAgent_regs (s : State) (tile : Nat) (hr : ascends s.regs = true) : ascends (showAgent s tile).regs = true := by
  unfold showAgent; (try dsimp only)
  repeat' first | with_reducible assumption | with_reducible apply ascends_set | split | simp only [State.tally_same] | dsimp only

theorem trace_regs (s : State) (cls event tile d : Nat) (x : Desc) (detail : Nat) (hr : ascends s.regs = true) : ascends (trace s cls event tile d x detail).regs = true := by
  unfold trace; (try dsimp only)
  repeat' first | with_reducible assumption | with_reducible apply ascends_set | with_reducible apply ascends_inc | split | dsimp only | simp only [State.draw_same]

theorem hold_regs (s : State) (row tile d : Nat) (x : Desc) (hr : ascends s.regs = true) : ascends (hold s row tile d x).regs = true := by
  unfold hold; (try dsimp only)
  repeat' first | with_reducible assumption | with_reducible apply ascends_inc | with_reducible apply trace_regs | split | dsimp only

theorem makeReady_regs (s : State) (img : Image) (tile d why : Nat) (hr : ascends s.regs = true) : ascends (makeReady s img tile d why).regs = true := by
  unfold makeReady; (try dsimp only)
  repeat' first | with_reducible assumption | with_reducible apply hold_regs | with_reducible apply showAgent_regs | with_reducible apply trace_regs | split | simp only [State.setDesc_same, offerTask_same] | dsimp only

theorem offerRecord_regs (s : State) (img : Image) (tile : Nat) (r : SweepRec) (hr : ascends s.regs = true) : ascends (offerRecord s img tile r).regs = true := by
  unfold offerRecord; (try dsimp only)
  repeat' first | with_reducible assumption | with_reducible apply ascends_set | with_reducible apply ascends_inc | with_reducible apply detect_regs | split | dsimp only

theorem sendBlock_regs (s : State) (img : Image) (e : Epoch) (spec : Bool) (b : Block) (hr : ascends s.regs = true) : ascends (sendBlock s img e spec b).regs = true := by
  unfold sendBlock; (try dsimp only)
  repeat' first | with_reducible assumption | with_reducible apply ascends_foldl | with_reducible apply sendMessage_regs | intro _ | split | dsimp only

theorem releaseOutput_regs (img : Image) (tile stage : Nat) (s : State) (o : Output) (hr : ascends s.regs = true) : ascends (releaseOutput img tile stage s o).regs = true := by
  unfold releaseOutput; (try dsimp only)
  repeat' first | with_reducible assumption | with_reducible apply ascends_set | with_reducible apply offerRecord_regs | with_reducible apply sendBlock_regs | split | simp only [State.tally_same] | dsimp only

theorem releaseTask_regs (img : Image) (s : State) (d : DoneTask) (hr : ascends s.regs = true) : ascends (releaseTask img s d).regs = true := by
  unfold releaseTask; (try dsimp only)
  repeat' first | with_reducible assumption | with_reducible apply ascends_foldl | with_reducible apply releaseOutput_regs | with_reducible apply trace_regs | intro _ | split | dsimp only

theorem releaseFlow_regs (img : Image) (f : Nat) (x0 : Nat) (s : State) (hr : ascends s.regs = true) : ascends (releaseFlow img f x0 s).regs = true := by
  induction x0 generalizing s with
  | zero => exact hr
  | succ n ih =>
    simp only [releaseFlow]; split
    · exact ih _ (releaseTask_regs _ _ _ hr)
    · exact hr

theorem finishTask_regs (s : State) (img : Image) (id t tile : Nat) (outs : List Output) (hr : ascends s.regs = true) : ascends (finishTask s img id t tile outs).regs = true := by
  unfold finishTask; (try dsimp only)
  repeat' first | with_reducible assumption | with_reducible apply releaseFlow_regs | split | dsimp only

theorem admitSlice_regs (s : State) (cls idx : Nat) (hr : ascends s.regs = true) : ascends (admitSlice s cls idx).regs = true := by
  unfold admitSlice; (try dsimp only)
  repeat' first | with_reducible assumption | with_reducible apply takeToken_regs | split | simp only [State.setUnit_same] | dsimp only

theorem admitWaiting_regs (s : State) (hr : ascends s.regs = true) : ascends (admitWaiting s).regs = true := by
  unfold admitWaiting; (try dsimp only)
  repeat' first | with_reducible assumption | with_reducible apply ascends_foldl | with_reducible apply admitSlice_regs | intro _ | split | dsimp only

theorem bindDesc_regs (s : State) (img : Image) (tile d : Nat) (x : Desc) (hr : ascends s.regs = true) : ascends (bindDesc s img tile d x).regs = true := by
  unfold bindDesc; (try dsimp only)
  repeat' first | with_reducible assumption | with_reducible apply makeReady_regs | with_reducible apply showAgent_regs | split | simp only [State.setDesc_same] | dsimp only

theorem createTask_regs (s : State) (img : Image) (tile : Nat) (kind : TaskKind) (spec : Bool) (e : Epoch) (x : Desc) (d : Nat) (hr : ascends s.regs = true) : ascends (createTask s img tile kind spec e x d).regs = true := by
  unfold createTask; (try dsimp only)
  repeat' first | with_reducible assumption | with_reducible apply bindDesc_regs | with_reducible apply hold_regs | split | simp only [State.setDesc_same] | dsimp only

theorem runTask_regs (s : State) (tile d reserve thread : Nat) (hr : ascends s.regs = true) : ascends (runTask s tile d reserve thread).regs = true := by
  unfold runTask; (try dsimp only)
  repeat' first | with_reducible assumption | with_reducible apply showAgent_regs | with_reducible apply trace_regs | split | simp only [State.setDesc_same, State.tally_same, promote_same] | dsimp only

theorem trySlice_regs (s : State) (img : Image) (tile d thread : Nat) (hr : ascends s.regs = true) : ascends (trySlice s img tile d thread).regs = true := by
  unfold trySlice; (try dsimp only)
  repeat' first | with_reducible assumption | with_reducible apply ascends_inc | with_reducible apply ascends_foldl | with_reducible apply runTask_regs | with_reducible apply takeToken_regs | with_reducible apply trace_regs | intro _ | split | simp only [State.setUnit_same, offerTask_same] | dsimp only

theorem yieldTask_regs (s : State) (img : Image) (tile d : Nat) (x : Desc) (why : Yield) (hr : ascends s.regs = true) : ascends (yieldTask s img tile d x why).regs = true := by
  unfold yieldTask; (try dsimp only)
  repeat' first | with_reducible assumption | with_reducible apply showAgent_regs | with_reducible apply trace_regs | split | simp only [State.setDesc_same] | dsimp only

theorem specFinish_regs (s : State) (y : SpecEp) (id t tile : Nat) (outs : List Output) (hr : ascends s.regs = true) : ascends (specFinish s y id t tile outs).regs = true := by
  unfold specFinish; (try dsimp only)
  repeat' first | with_reducible assumption | with_reducible apply ascends_inc | with_reducible apply ascends_foldl | with_reducible apply hold_regs | with_reducible apply sendBlock_regs | intro _ | split | simp only [State.setSpec_same] | dsimp only

theorem countWork_regs (s : State) (img : Image) (x : Desc) (tile : Nat) (outs : List Output) (hr : ascends s.regs = true) : ascends (countWork s img x tile outs).regs = true := by
  unfold countWork; (try dsimp only)
  repeat' first | with_reducible assumption | with_reducible apply ascends_add | with_reducible apply ascends_foldl | intro _ | split | simp only [State.tally_same] | dsimp only

theorem nearMissTest_regs (s : State) (img : Image) (tile : Nat) (e : Epoch) (hr : ascends s.regs = true) : ascends (nearMissTest s img tile e).regs = true := by
  unfold nearMissTest; (try dsimp only)
  repeat' first | with_reducible assumption | with_reducible apply ascends_set | split | simp only [State.setUnit_same] | dsimp only

theorem flagSweep_regs (s : State) (img : Image) (tile t : Nat) (x : Desc) (hr : ascends s.regs = true) : ascends (flagSweep s img tile t x).regs = true := by
  unfold flagSweep; (try dsimp only)
  repeat' first | with_reducible assumption | with_reducible apply makeReady_regs | split | simp only [State.setDesc_same] | dsimp only

theorem stageOutputsDone_regs (s : State) (img : Image) (tile d id t : Nat) (x : Desc) (outs : List Output) (hr : ascends s.regs = true) : ascends (stageOutputsDone s img tile d id t x outs).regs = true := by
  unfold stageOutputsDone; (try dsimp only)
  repeat' first | with_reducible assumption | with_reducible apply countWork_regs | with_reducible apply finishTask_regs | with_reducible apply flagSweep_regs | with_reducible apply nearMissTest_regs | with_reducible apply showAgent_regs | with_reducible apply specFinish_regs | split | simp only [State.setDesc_same] | dsimp only

theorem stageComplete_regs (s : State) (img : Image) (tile d id t : Nat) (x : Desc) (hr : ascends s.regs = true) : ascends (stageComplete s img tile d id t x).regs = true := by
  unfold stageComplete; (try dsimp only)
  repeat' first | with_reducible assumption | with_reducible apply showAgent_regs | with_reducible apply stageOutputsDone_regs | split | simp only [State.setDesc_same] | dsimp only

theorem completeTask_regs (s : State) (img : Image) (tile d : Nat) (x : Desc) (hr : ascends s.regs = true) : ascends (completeTask s img tile d x).regs = true := by
  unfold completeTask; (try dsimp only)
  repeat' first | with_reducible assumption | with_reducible apply showAgent_regs | with_reducible apply stageComplete_regs | split | simp only [State.setDesc_same, jobUnit_same] | dsimp only

theorem answerOffer_regs (s : State) (tile d : Nat) (x : Desc) (hr : ascends s.regs = true) : ascends (answerOffer s tile d x).regs = true := by
  unfold answerOffer; (try dsimp only)
  repeat' first | with_reducible assumption | with_reducible apply showAgent_regs | with_reducible apply trace_regs | split | simp only [State.setDesc_same, State.tally_same] | dsimp only

theorem showPrediction_regs (s : State) (e : Epoch) (hr : ascends s.regs = true) : ascends (showPrediction s e).regs = true := by
  unfold showPrediction; (try dsimp only)
  repeat' first | with_reducible assumption | with_reducible apply ascends_set | with_reducible apply ascends_foldl | intro _ | split | dsimp only

theorem beginSpeculation_regs (s : State) (img : Image) (hr : ascends s.regs = true) : ascends (beginSpeculation s img).regs = true := by
  unfold beginSpeculation; (try dsimp only)
  repeat' first | with_reducible assumption | with_reducible apply showPrediction_regs | with_reducible apply showSpecEpoch_regs | split | dsimp only

theorem releaseKept_regs (s : State) (img : Image) (kc : List (Nat × Nat × Nat)) (kr : List SpecRec) (kb : List Block) (hr : ascends s.regs = true) : ascends (releaseKept s img kc kr kb).regs = true := by
  unfold releaseKept; (try dsimp only)
  repeat' first | with_reducible assumption | with_reducible apply ascends_foldl | with_reducible apply finishTask_regs | intro _ | split | dsimp only

theorem squash_regs (s : State) (img : Image) (hr : ascends s.regs = true) : ascends (squash s img).regs = true := by
  unfold squash; (try dsimp only)
  repeat' first | with_reducible assumption | with_reducible apply releaseKept_regs | with_reducible apply showSpecEpoch_regs | split | simp only [dropSpecDescs_same] | dsimp only

theorem decideSearch_regs (s : State) (img : Image) (b : List Byte) (e : Epoch) (hr : ascends s.regs = true) : ascends (decideSearch s img b e).regs = true := by
  unfold decideSearch; (try dsimp only)
  repeat' first | with_reducible assumption | with_reducible apply ascends_foldl | with_reducible apply finishTask_regs | intro _ | split | dsimp only

theorem rebuildCmd_regs (src : Source) (s : State) (hr : ascends s.regs = true) : ascends (rebuildCmd src s).regs = true := by
  unfold rebuildCmd; (try dsimp only)
  repeat' first | with_reducible assumption | with_reducible apply ascends_set | with_reducible apply scheduleRebuild_regs | with_reducible apply takeToken_regs | split | dsimp only

theorem safetyCopy_regs (s : State) (f : Admitted) (hr : ascends s.regs = true) : ascends (safetyCopy s f).regs = true := by
  unfold safetyCopy; (try dsimp only)
  repeat' first | with_reducible assumption | with_reducible apply ascends_set | with_reducible apply ascends_foldl | intro _ | split | dsimp only

theorem worldDiscard_regs (s : State) (d : Nat) (hr : ascends s.regs = true) : ascends (worldDiscard s d).regs = true := by
  unfold worldDiscard; (try dsimp only)
  repeat' first | with_reducible assumption | with_reducible apply ascends_inc | split | dsimp only

theorem admitFrame_regs (s : State) (img : Image) (d : Nat) (e : Epoch) (seq : Word) (recs : List WRec) (eoe late : Bool)
    (len : Nat) (raw : List Byte) (hr : ascends s.regs = true) : ascends (admitFrame s img d e seq recs eoe late len raw).regs = true := by
  unfold admitFrame; (try dsimp only)
  repeat' first | with_reducible assumption | with_reducible apply ascends_set | with_reducible apply ascends_inc | with_reducible apply ascends_add | with_reducible apply ascends_foldl | with_reducible apply safetyCopy_regs | intro _ | split | simp only [putAdmitted_same] | dsimp only

theorem admitUpdate_regs (s : State) (partition d : Nat) (named : Epoch) (seq : Word) (payload raw : List Byte) (t : Nat) (hr : ascends s.regs = true) : ascends (admitUpdate s partition d named seq payload raw t).regs = true := by
  unfold admitUpdate; (try dsimp only)
  repeat' first | with_reducible assumption | with_reducible apply ascends_set | with_reducible apply ascends_inc | with_reducible apply admitFrame_regs | with_reducible apply worldDiscard_regs | split | dsimp only

theorem chooseStart_regs (s : State) (img : Image) (e : Epoch) (hr : ascends s.regs = true) : ascends (chooseStart s img e).regs = true := by
  unfold chooseStart; (try dsimp only)
  repeat' first | with_reducible assumption | with_reducible apply ascends_set | with_reducible apply ascends_inc | split | dsimp only

theorem closeStream_regs (img : Image) (e : Epoch) (s : State) (d : Nat) (hr : ascends s.regs = true) : ascends (closeStream img e s d).regs = true := by
  unfold closeStream; (try dsimp only)
  repeat' first | with_reducible assumption | with_reducible apply ascends_set | split | dsimp only

theorem shiftLedger_regs (s : State) (img : Image) (hr : ascends s.regs = true) : ascends (shiftLedger s img).regs = true := by
  unfold shiftLedger; (try dsimp only)
  repeat' first | with_reducible assumption | with_reducible apply queueTrans_regs | with_reducible apply scheduleShift_regs | with_reducible apply showShift_regs | split | dsimp only

theorem closeAdmission_regs (s : State) (img : Image) (hr : ascends s.regs = true) : ascends (closeAdmission s img).regs = true := by
  unfold closeAdmission; (try dsimp only)
  repeat' first | with_reducible assumption | with_reducible apply ascends_set | with_reducible apply ascends_inc | with_reducible apply ascends_foldl | with_reducible apply chooseStart_regs | with_reducible apply closeStream_regs | with_reducible apply shiftLedger_regs | with_reducible apply squash_regs | intro _ | split | simp only [markSent_same] | dsimp only

theorem finishSnapshot_regs (s : State) (img : Image) (hr : ascends s.regs = true) : ascends (finishSnapshot s img).regs = true := by
  unfold finishSnapshot; (try dsimp only)
  repeat' first | with_reducible assumption | with_reducible apply ascends_set | with_reducible apply ascends_foldl | intro _ | split | dsimp only

theorem finalPanel_regs (s : State) (img : Image) (l p : Nat) (hr : ascends s.regs = true) : ascends (finalPanel s img l p).regs = true := by
  unfold finalPanel; (try dsimp only)
  repeat' first | with_reducible assumption | with_reducible apply finishSnapshot_regs | with_reducible apply queueTrans_regs | split | simp only [markSent_same] | dsimp only

theorem keepPanel_regs (s : State) (img : Image) (l p : Nat) (hr : ascends s.regs = true) : ascends (keepPanel s img l p).regs = true := by
  unfold keepPanel; (try dsimp only)
  repeat' first | with_reducible assumption | with_reducible apply finishSnapshot_regs | split | dsimp only

theorem recomputePanel_regs (s : State) (img : Image) (l p : Nat) (hr : ascends s.regs = true) : ascends (recomputePanel s img l p).regs = true := by
  unfold recomputePanel; (try dsimp only)
  repeat' first | with_reducible assumption | with_reducible apply finishSnapshot_regs | split | dsimp only

theorem completePanel_regs (img : Image) (l : Nat) (s : State) (p : Nat) (hr : ascends s.regs = true) : ascends (completePanel img l s p).regs = true := by
  unfold completePanel; (try dsimp only)
  repeat' first | with_reducible assumption | with_reducible apply finalPanel_regs | with_reducible apply keepPanel_regs | with_reducible apply recomputePanel_regs | split | dsimp only

theorem completeAssembly_regs (s : State) (img : Image) (hr : ascends s.regs = true) : ascends (completeAssembly s img).regs = true := by
  unfold completeAssembly; (try dsimp only)
  repeat' first | with_reducible assumption | with_reducible apply ascends_foldl | with_reducible apply closeAdmission_regs | with_reducible apply completePanel_regs | intro _ | split | dsimp only

theorem beginEpoch_regs (s : State) (e : Epoch) (hr : ascends s.regs = true) : ascends (beginEpoch s e).regs = true := by
  unfold beginEpoch; (try dsimp only)
  repeat' first | with_reducible assumption | with_reducible apply ascends_set | split | dsimp only

theorem cutTask_regs (img : Image) (id : Nat) (s : State) (t : Nat) (hr : ascends s.regs = true) : ascends (cutTask img id s t).regs = true := by
  unfold cutTask; (try dsimp only)
  repeat' first | with_reducible assumption | with_reducible apply finishTask_regs | with_reducible apply showAgent_regs | split | simp only [State.setDesc_same, countCut_same] | dsimp only

theorem cutStageTasks_regs (img : Image) (s : State) (id : Nat) (hr : ascends s.regs = true) : ascends (cutStageTasks img s id).regs = true := by
  unfold cutStageTasks; (try dsimp only)
  repeat' first | with_reducible assumption | with_reducible apply ascends_foldl | with_reducible apply cutTask_regs | intro _ | split | dsimp only

theorem sendLists_regs (s : State) (img : Image) (hr : ascends s.regs = true) : ascends (sendLists s img).regs = true := by
  unfold sendLists; (try dsimp only)
  repeat' first | with_reducible assumption | with_reducible apply ascends_foldl | with_reducible apply sendMessage_regs | with_reducible apply tryConfirm_regs | intro _ | split | dsimp only

theorem startRefine_regs (s : State) (img : Image) (e : PEntry) (hr : ascends s.regs = true) : ascends (startRefine s img e).regs = true := by
  unfold startRefine; (try dsimp only)
  repeat' first | with_reducible assumption | with_reducible apply ascends_set | split | dsimp only

theorem releaseSelection_regs (s : State) (img : Image) (inputs : List PList) (hr : ascends s.regs = true) : ascends (releaseSelection s img inputs).regs = true := by
  unfold releaseSelection; (try dsimp only)
  repeat' first | with_reducible assumption | with_reducible apply ascends_set | with_reducible apply ascends_add | with_reducible apply detect_regs | with_reducible apply startRefine_regs | split | dsimp only

theorem returnRefine_regs (s : State) (img : Image) (r : RefineRun) (tr : Traj) (t : Nat) (hr : ascends s.regs = true) : ascends (returnRefine s img r tr t).regs = true := by
  unfold returnRefine; (try dsimp only)
  repeat' first | with_reducible assumption | with_reducible apply ascends_set | with_reducible apply ascends_inc | split | dsimp only

theorem putRecord_regs (s : State) (rec_ : List Byte) (hr : ascends s.regs = true) : ascends (putRecord s rec_).regs = true := by
  unfold putRecord; (try dsimp only)
  repeat' first | with_reducible assumption | with_reducible apply ascends_set | with_reducible apply ascends_foldl | intro _ | split | dsimp only

theorem takeAnchor_regs (s : State) (img : Image) (hr : ascends s.regs = true) : ascends (takeAnchor s img).regs = true := by
  unfold takeAnchor; (try dsimp only)
  repeat' first | with_reducible assumption | with_reducible apply ascends_set | with_reducible apply putRecord_regs | split | dsimp only

theorem captureEpoch_regs (s : State) (x : EpochRec) (hr : ascends s.regs = true) : ascends (captureEpoch s x).regs = true := by
  unfold captureEpoch; (try dsimp only)
  repeat' first | with_reducible assumption | with_reducible apply ascends_set | with_reducible apply putRecord_regs | split | dsimp only | simp only [State.draw_same]

theorem setPart_regs (s : State) (p : Nat) (x : PartSt) (hr : ascends s.regs = true) : ascends (State.setPart s p x).regs = true := by
  unfold State.setPart; (try dsimp only)
  repeat' first | with_reducible assumption | with_reducible apply ascends_set | split | dsimp only

theorem countDrop_regs (s : State) (r : Nat) (f : Frame) (hr : ascends s.regs = true) : ascends (countDrop s r f).regs = true := by
  unfold countDrop; (try dsimp only)
  repeat' first | with_reducible assumption | with_reducible apply ascends_inc | split | dsimp only

theorem acceptSeq_regs (s : State) (f : Frame) (hr : ascends s.regs = true) : ascends (acceptSeq s f).regs = true := by
  unfold acceptSeq; (try dsimp only)
  repeat' first | with_reducible assumption | with_reducible apply ascends_set | with_reducible apply setPart_regs | split | dsimp only

theorem receiveBoot_regs (s : State) (f : Frame) (hr : ascends s.regs = true) : ascends (receiveBoot s f).2.regs = true := by
  unfold receiveBoot; (try dsimp only)
  repeat' first | with_reducible assumption | with_reducible apply acceptSeq_regs | with_reducible apply countDrop_regs | split | dsimp only

theorem receiveRunning_regs (s : State) (img : Image) (f : Frame) (t : Nat) (hr : ascends s.regs = true) : ascends (receiveRunning s img f t).2.regs = true := by
  unfold receiveRunning; (try dsimp only)
  repeat' first | with_reducible assumption | with_reducible apply setPart_regs | with_reducible apply acceptSeq_regs | with_reducible apply countDrop_regs | split | dsimp only

theorem receive_regs (s : State) (f : Frame) (t : Nat) (hr : ascends s.regs = true) : ascends (receive s f t).2.regs = true := by
  unfold receive; (try dsimp only)
  repeat' first | with_reducible assumption | with_reducible apply ascends_inc | with_reducible apply countDrop_regs | with_reducible apply receiveBoot_regs | with_reducible apply receiveRunning_regs | split | dsimp only

theorem sendFrame_regs (s : State) (p ty : Nat) (e : Epoch) (rtag : Option Nat) (payload : List Byte) (hr : ascends s.regs = true) : ascends (sendFrame s p ty e rtag payload).regs = true := by
  unfold sendFrame; (try dsimp only)
  repeat' first | with_reducible assumption | with_reducible apply ascends_set | with_reducible apply ascends_inc | with_reducible apply ascends_foldl | with_reducible apply setPart_regs | intro _ | split | dsimp only

theorem sendResult_regs (s : State) (p kind jobId : Nat) (e : Epoch) (body : List Byte) (hr : ascends s.regs = true) : ascends (sendResult s p kind jobId e body).regs = true := by
  unfold sendResult; (try dsimp only)
  repeat' first | with_reducible assumption | with_reducible apply ascends_inc | with_reducible apply ascends_foldl | with_reducible apply sendFrame_regs | intro _ | split | dsimp only

theorem queueResults_regs (s : State) (img : Image) (sel : Option Selection) (h : ResultHead) (hr : ascends s.regs = true) : ascends (queueResults s img sel h).regs = true := by
  unfold queueResults; (try dsimp only)
  repeat' first | with_reducible assumption | with_reducible apply ascends_foldl | with_reducible apply sendResult_regs | intro _ | split | dsimp only

theorem islandResult_regs (s : State) (img : Image) (k verdict source : Nat) (hr : ascends s.regs = true) : ascends (islandResult s img k verdict source).regs = true := by
  unfold islandResult; (try dsimp only)
  repeat' first | with_reducible assumption | with_reducible apply queueResults_regs | split | dsimp only

theorem makeDue_regs (s : State) (cls idx : Nat) (hr : ascends s.regs = true) : ascends (makeDue s cls idx).regs = true := by
  unfold makeDue; (try dsimp only)
  repeat' first | with_reducible assumption | with_reducible apply admitSlice_regs | split | simp only [State.setUnit_same] | dsimp only

theorem pairTests_regs (s : State) (e : Epoch) (hr : ascends s.regs = true) : ascends (pairTests s e).regs = true := by
  unfold pairTests; (try dsimp only)
  repeat' first | with_reducible assumption | with_reducible apply ascends_foldl | with_reducible apply makeDue_regs | intro _ | split | dsimp only

theorem comparePair_regs (s : State) (a b : PairToken) (hr : ascends s.regs = true) : ascends (comparePair s a b).regs = true := by
  unfold comparePair; (try dsimp only)
  repeat' first | with_reducible assumption | with_reducible apply ascends_set | with_reducible apply ascends_inc | with_reducible apply detect_regs | with_reducible apply pairTests_regs | split | dsimp only | simp only [State.draw_same]

theorem takePairToken_regs (s : State) (x : PairToken) (hr : ascends s.regs = true) : ascends (takePairToken s x).regs = true := by
  unfold takePairToken; (try dsimp only)
  repeat' first | with_reducible assumption | with_reducible apply comparePair_regs | with_reducible apply sendFlit_regs | split | dsimp only

theorem pushWindow_regs (s : State) (failed : Bool) (hr : ascends s.regs = true) : ascends (pushWindow s failed).regs = true := by
  unfold pushWindow; (try dsimp only)
  repeat' first | with_reducible assumption | with_reducible apply ascends_set | with_reducible apply ascends_foldl | intro _ | split | dsimp only

theorem applyVerdict_regs (s : State) (v : Nat) (hr : ascends s.regs = true) : ascends (applyVerdict s v).regs = true := by
  unfold applyVerdict; (try dsimp only)
  repeat' first | with_reducible assumption | with_reducible apply ascends_inc | with_reducible apply enterSafe_regs | with_reducible apply setMode_regs | split | dsimp only

theorem latchBudget_regs (s : State) (img : Image) (hr : ascends s.regs = true) : ascends (latchBudget s img).regs = true := by
  unfold latchBudget; (try dsimp only)
  repeat' first | with_reducible assumption | with_reducible apply ascends_set | with_reducible apply ascends_inc | split | dsimp only

theorem latchPropose_regs (s : State) (img : Image) (hr : ascends s.regs = true) : ascends (latchPropose s img).regs = true := by
  unfold latchPropose; (try dsimp only)
  repeat' first | with_reducible assumption | with_reducible apply ascends_set | split | dsimp only

theorem latchSearch_regs (s : State) (hr : ascends s.regs = true) : ascends (latchSearch s).regs = true := by
  unfold latchSearch; (try dsimp only)
  repeat' first | with_reducible assumption | with_reducible apply ascends_set | split | dsimp only

theorem latchOrder_regs (s : State) (hr : ascends s.regs = true) : ascends (latchOrder s).regs = true := by
  unfold latchOrder; (try dsimp only)
  repeat' first | with_reducible assumption | with_reducible apply ascends_set | with_reducible apply ascends_foldl | intro _ | split | dsimp only

theorem latchRefine_regs (s : State) (hr : ascends s.regs = true) : ascends (latchRefine s).regs = true := by
  unfold latchRefine; (try dsimp only)
  repeat' first | with_reducible assumption | with_reducible apply ascends_set | split | dsimp only | simp only [State.draw_same]

theorem latchEpoch_regs (s : State) (img : Image) (hr : ascends s.regs = true) : ascends (latchEpoch s img).regs = true := by
  unfold latchEpoch; (try dsimp only)
  repeat' first | with_reducible assumption | with_reducible apply ascends_set | with_reducible apply ascends_foldl | with_reducible apply latchBudget_regs | with_reducible apply latchOrder_regs | with_reducible apply latchPropose_regs | with_reducible apply latchRefine_regs | with_reducible apply latchSearch_regs | intro _ | split | dsimp only

theorem advanceFloor_regs (s : State) (seq : Nat) (hr : ascends s.regs = true) : ascends (advanceFloor s seq).regs = true := by
  unfold advanceFloor; (try dsimp only)
  repeat' first | with_reducible assumption | with_reducible apply ascends_set64 | split | dsimp only

theorem countAccept_regs (s : State) (v : Nat) (hr : ascends s.regs = true) : ascends (countAccept s v).regs = true := by
  unfold countAccept; (try dsimp only)
  repeat' first | with_reducible assumption | with_reducible apply ascends_set | with_reducible apply advanceFloor_regs | split | dsimp only

theorem closeDigests_regs (s : State) (img : Image) (hr : ascends s.regs = true) : ascends (closeDigests s img).1.regs = true := by
  unfold closeDigests; (try dsimp only)
  repeat' first | with_reducible assumption | with_reducible apply ascends_set | with_reducible apply ascends_inc | with_reducible apply ascends_set64 | with_reducible apply ascends_foldl | with_reducible apply captureEpoch_regs | intro _ | split | dsimp only

theorem publishVerdict_regs (s : State) (img : Image) (k v : Nat) (hr : ascends s.regs = true) : ascends (publishVerdict s img k v).regs = true := by
  unfold publishVerdict; (try dsimp only)
  repeat' first | with_reducible assumption | with_reducible apply publishEntry_regs | with_reducible apply publishHold_regs | with_reducible apply publishTraj_regs | split | dsimp only

theorem releasePort_regs (s : State) (hr : ascends s.regs = true) : ascends (releasePort s).regs = true := by
  unfold releasePort; (try dsimp only)
  repeat' first | with_reducible assumption | with_reducible apply ascends_set | split | dsimp only

theorem sendFrameResult_regs (s : State) (img : Image) (d : Nat × Nat × List Byte) (hr : ascends s.regs = true) : ascends (sendFrameResult s img d).regs = true := by
  unfold sendFrameResult; (try dsimp only)
  repeat' first | with_reducible assumption | with_reducible apply queueResults_regs | split | dsimp only

theorem chainCommit_regs (s : State) (frame world : Nat) (hr : ascends s.regs = true) : ascends (chainCommit s frame world).regs = true := by
  unfold chainCommit; (try dsimp only)
  repeat' first | with_reducible assumption | with_reducible apply sendToken_regs | with_reducible apply takePairToken_regs | with_reducible apply tryConfirm_regs | split | dsimp only

theorem commitFrame_regs (s : State) (img : Image) (hr : ascends s.regs = true) : ascends (commitFrame s img).regs = true := by
  unfold commitFrame; (try dsimp only)
  repeat' first | with_reducible assumption | with_reducible apply ascends_set | with_reducible apply armedStatus_regs | with_reducible apply chainCommit_regs | with_reducible apply closeDigests_regs | with_reducible apply countAccept_regs | with_reducible apply latchEpoch_regs | with_reducible apply publishVerdict_regs | with_reducible apply releasePort_regs | with_reducible apply sendFrameResult_regs | split | simp only [closeMain_same, closeStage_same, endCommit_same] | dsimp only

theorem showSlots_regs (s : State) (hr : ascends s.regs = true) : ascends (showSlots s).regs = true := by
  unfold showSlots; (try dsimp only)
  repeat' first | with_reducible assumption | with_reducible apply ascends_set | split | dsimp only

theorem showValid_regs (s : State) (hr : ascends s.regs = true) : ascends (showValid s).regs = true := by
  unfold showValid; (try dsimp only)
  repeat' first | with_reducible assumption | with_reducible apply ascends_set | split | dsimp only

theorem showFail_regs (s : State) (f : LoadFail) (hr : ascends s.regs = true) : ascends (showFail s f).regs = true := by
  unfold showFail; (try dsimp only)
  repeat' first | with_reducible assumption | with_reducible apply ascends_set | split | dsimp only

theorem failLoad_regs (s : State) (f : LoadFail) (hr : ascends s.regs = true) : ascends (failLoad s f).regs = true := by
  unfold failLoad; (try dsimp only)
  repeat' first | with_reducible assumption | with_reducible apply ascends_set | with_reducible apply showFail_regs | split | dsimp only

theorem setPushNext_regs (s : State) (v : Nat) (hr : ascends s.regs = true) : ascends (setPushNext s v).regs = true := by
  unfold setPushNext; (try dsimp only)
  repeat' first | with_reducible assumption | with_reducible apply ascends_set64 | split | dsimp only

theorem goOn_regs (s : State) (l : Loading) (from_ : Nat) (hr : ascends s.regs = true) : ascends (goOn s l from_).regs = true := by
  unfold goOn; (try dsimp only)
  repeat' first | with_reducible assumption | with_reducible apply ascends_set | with_reducible apply failLoad_regs | with_reducible apply setPushNext_regs | split | dsimp only

theorem beginLoad_regs (s : State) (i : Nat) (hr : ascends s.regs = true) : ascends (beginLoad s i).regs = true := by
  unfold beginLoad; (try dsimp only)
  repeat' first | with_reducible assumption | with_reducible apply ascends_set | with_reducible apply failLoad_regs | with_reducible apply goOn_regs | with_reducible apply showFail_regs | split | dsimp only

theorem bulkData_regs (s : State) (l : Loading) (data : Option (List Byte)) (hr : ascends s.regs = true) : ascends (bulkData s l data).regs = true := by
  unfold bulkData; (try dsimp only)
  repeat' first | with_reducible assumption | with_reducible apply failLoad_regs | with_reducible apply goOn_regs | split | dsimp only

theorem setStreams_regs (f : Nat → Field) (v : Nat → Nat) (s : State) (hr : ascends s.regs = true) : ascends (setStreams f v s).regs = true := by
  unfold setStreams; (try dsimp only)
  repeat' first | with_reducible assumption | with_reducible apply ascends_set | with_reducible apply ascends_foldl | intro _ | split | dsimp only

theorem installPower_regs (s : State) (i : Image) (hr : ascends s.regs = true) : ascends (installPower s i).regs = true := by
  unfold installPower; (try dsimp only)
  repeat' first | with_reducible assumption | with_reducible apply ascends_set | with_reducible apply ascends_foldl | intro _ | split | dsimp only

theorem installFields_regs (s : State) (i : Image) (bulk : List BulkData) (hr : ascends s.regs = true) : ascends (installFields s i bulk).regs = true := by
  unfold installFields; (try dsimp only)
  repeat' first | with_reducible assumption | with_reducible apply ascends_set | with_reducible apply ascends_set64 | with_reducible apply installPower_regs | with_reducible apply setStreams_regs | split | dsimp only

theorem eraseKeys_regs (s : State) (hr : ascends s.regs = true) : ascends (eraseKeys s).regs = true := by
  unfold eraseKeys; (try dsimp only)
  repeat' first | with_reducible assumption | with_reducible apply ascends_foldl | with_reducible apply setPart_regs | intro _ | split | dsimp only

theorem restartSequences_regs (s : State) (hr : ascends s.regs = true) : ascends (restartSequences s).regs = true := by
  unfold restartSequences; (try dsimp only)
  repeat' first | with_reducible assumption | with_reducible apply ascends_set | with_reducible apply ascends_foldl | intro _ | split | dsimp only

theorem rebase_regs (s : State) (hr : ascends s.regs = true) : ascends (rebase s).regs = true := by
  unfold rebase; (try dsimp only)
  repeat' first | with_reducible assumption | with_reducible apply ascends_set | with_reducible apply dropToken_regs | with_reducible apply scheduleRebuild_regs | with_reducible apply showShift_regs | split | dsimp only

theorem install_regs (s : State) (img : Image) (bulk : List BulkData) (i q : Nat) (hr : ascends s.regs = true) : ascends (install s img bulk i q).regs = true := by
  unfold install; (try dsimp only)
  repeat' first | with_reducible assumption | with_reducible apply ascends_set | with_reducible apply ascends_set64 | with_reducible apply discardAll_regs | with_reducible apply eraseKeys_regs | with_reducible apply installFields_regs | with_reducible apply rebase_regs | with_reducible apply restartSequences_regs | split | simp only [endJobs_same] | dsimp only

theorem slotResult_regs (s : State) (r : Nat) (hr : ascends s.regs = true) : ascends (slotResult s r).regs = true := by
  unfold slotResult; (try dsimp only)
  repeat' first | with_reducible assumption | with_reducible apply ascends_set | split | dsimp only

theorem chestStart_regs (s : State) (k : Nat) (hr : ascends s.regs = true) : ascends (chestStart s k).regs = true := by
  unfold chestStart; (try dsimp only)
  repeat' first | with_reducible assumption | with_reducible apply ascends_set | split | dsimp only

theorem chestEnd_regs (s : State) (r : Nat) (hr : ascends s.regs = true) : ascends (chestEnd s r).regs = true := by
  unfold chestEnd; (try dsimp only)
  repeat' first | with_reducible assumption | with_reducible apply ascends_set | with_reducible apply slotResult_regs | split | dsimp only

theorem setChest_regs (s : State) (i : Nat) (sl : Slot) (hr : ascends s.regs = true) : ascends (State.setChest s i sl).regs = true := by
  unfold State.setChest; (try dsimp only)
  repeat' first | with_reducible assumption | with_reducible apply showSlots_regs | split | dsimp only

theorem finishSlotWrite_regs (s : State) (r : Nat) (hr : ascends s.regs = true) : ascends (finishSlotWrite s r).regs = true := by
  unfold finishSlotWrite; (try dsimp only)
  repeat' first | with_reducible assumption | with_reducible apply chestEnd_regs | with_reducible apply dropToken_regs | split | dsimp only

theorem slotOpen_regs (src : Source) (s : State) (hr : ascends s.regs = true) : ascends (slotOpen src s).regs = true := by
  unfold slotOpen; (try dsimp only)
  repeat' first | with_reducible assumption | with_reducible apply ascends_set | with_reducible apply setChest_regs | with_reducible apply chestStart_regs | with_reducible apply slotResult_regs | with_reducible apply takeToken_regs | split | dsimp only

theorem slotDataBlock_regs (src : Source) (value : Word) (s : State) (hr : ascends s.regs = true) : ascends (slotDataBlock src value s).regs = true := by
  unfold slotDataBlock; (try dsimp only)
  repeat' first | with_reducible assumption | with_reducible apply chestStart_regs | with_reducible apply slotResult_regs | split | dsimp only

theorem slotClose_regs (src : Source) (s : State) (hr : ascends s.regs = true) : ascends (slotClose src s).regs = true := by
  unfold slotClose; (try dsimp only)
  repeat' first | with_reducible assumption | with_reducible apply setChest_regs | with_reducible apply chestStart_regs | with_reducible apply slotResult_regs | split | dsimp only

theorem slotAbort_regs (src : Source) (s : State) (hr : ascends s.regs = true) : ascends (slotAbort src s).regs = true := by
  unfold slotAbort; (try dsimp only)
  repeat' first | with_reducible assumption | with_reducible apply finishSlotWrite_regs | with_reducible apply slotResult_regs | split | dsimp only

theorem setQuiesced_regs (s : State) (b : Nat) (hr : ascends s.regs = true) : ascends (setQuiesced s b).regs = true := by
  unfold setQuiesced; (try dsimp only)
  repeat' first | with_reducible assumption | with_reducible apply ascends_set | split | dsimp only

theorem quiesceRequest_regs (src : Source) (mask : Nat) (s : State) (hr : ascends s.regs = true) : ascends (quiesceRequest src mask s).regs = true := by
  unfold quiesceRequest; (try dsimp only)
  repeat' first | with_reducible assumption | with_reducible apply ascends_set | with_reducible apply ascends_foldl | with_reducible apply setQuiesced_regs | intro _ | split | dsimp only

theorem showBinding_regs (s : State) (hr : ascends s.regs = true) : ascends (showBinding s).regs = true := by
  unfold showBinding; (try dsimp only)
  repeat' first | with_reducible assumption | with_reducible apply ascends_set | with_reducible apply ascends_foldl | intro _ | split | dsimp only

theorem rebindTiles_regs (s : State) (hr : ascends s.regs = true) : ascends (rebindTiles s).regs = true := by
  unfold rebindTiles; (try dsimp only)
  repeat' first | with_reducible assumption | with_reducible apply ascends_foldl | with_reducible apply showBinding_regs | intro _ | split | dsimp only

theorem retireUnit_regs (s : State) (cls idx mech : Nat) (hr : ascends s.regs = true) : ascends (retireUnit s cls idx mech).regs = true := by
  unfold retireUnit; (try dsimp only)
  repeat' first | with_reducible assumption | with_reducible apply ascends_set | with_reducible apply detect_regs | with_reducible apply showUnit_regs | split | simp only [State.setUnit_same] | dsimp only

theorem countEcc_regs (s : State) (e : ErrorInfo) (hr : ascends s.regs = true) : ascends (countEcc s e).regs = true := by
  unfold countEcc; (try dsimp only)
  repeat' first | with_reducible assumption | with_reducible apply ascends_inc | split | dsimp only

theorem staleBank_regs (s : State) (c : Nat) (hr : ascends s.regs = true) : ascends (staleBank s c).regs = true := by
  unfold staleBank; (try dsimp only)
  repeat' first | with_reducible assumption | with_reducible apply ascends_set | with_reducible apply ascends_foldl | with_reducible apply scheduleRebuild_regs | intro _ | split | dsimp only

theorem replaceBank_regs (s : State) (g : Nat) (hr : ascends s.regs = true) : ascends (replaceBank s g).regs = true := by
  unfold replaceBank; (try dsimp only)
  repeat' first | with_reducible assumption | with_reducible apply ascends_set | with_reducible apply retireUnit_regs | with_reducible apply scheduleRebuild_regs | split | dsimp only

theorem offerCopy_regs (s : State) (img : Image) (d : DoneTask) (equal : Bool) (hr : ascends s.regs = true) : ascends (offerCopy s img d equal).regs = true := by
  unfold offerCopy; (try dsimp only)
  repeat' first | with_reducible assumption | with_reducible apply ascends_foldl | with_reducible apply offerRecord_regs | intro _ | split | dsimp only | simp only [State.draw_same]

theorem settleSuspects_regs (old new : State) (hr : ascends new.regs = true) : ascends (settleSuspects old new).regs = true := by
  simp only [settleSuspects]
  refine ascends_foldl (fun t n h => ?_) hr
  split
  · simpa using h
  · exact h
theorem endTest_regs (s : State) (cls idx : Nat) (pass : Bool) (hr : ascends s.regs = true) : ascends (endTest s cls idx pass).regs = true := by
  unfold endTest; (try dsimp only)
  repeat' first | with_reducible assumption | with_reducible apply ascends_set | with_reducible apply ascends_inc | with_reducible apply ascends_add | with_reducible apply ascends_set64 | with_reducible apply ascends_foldl | with_reducible apply ascends_foldl_fst | with_reducible apply ascends_foldl_snd | with_reducible apply settleSuspects_regs | with_reducible apply retireUnit_regs | with_reducible apply detect_regs | with_reducible apply showUnit_regs | intro _ | split | dsimp only | simp only [State.draw_same] | simp only [State.setUnit_same]

theorem faultTestCmd_regs (src : Source) (value : Word) (s : State) (hr : ascends s.regs = true) : ascends (faultTestCmd src value s).regs = true := by
  unfold faultTestCmd; (try dsimp only)
  repeat' first | with_reducible assumption | with_reducible apply ascends_set | with_reducible apply makeDue_regs | split | dsimp only

theorem endSlice_regs (s : State) (cls idx : Nat) (hr : ascends s.regs = true) : ascends (endSlice s cls idx).regs = true := by
  unfold endSlice; (try dsimp only)
  repeat' first | with_reducible assumption | with_reducible apply dropToken_regs | with_reducible apply showAgent_regs | with_reducible apply trace_regs | split | simp only [State.setDesc_same] | dsimp only

theorem moveJob_regs (s : State) (cls idx : Nat) (hr : ascends s.regs = true) : ascends (moveJob s cls idx).regs = true := by
  unfold moveJob; (try dsimp only)
  repeat' first | with_reducible assumption | with_reducible apply ascends_foldl | with_reducible apply showAgent_regs | intro _ | split | simp only [State.setDesc_same] | dsimp only

theorem arrive_regs (s : State) (f : Frame) (t : Nat) (hr : ascends s.regs = true) : ascends (arrive s f t).2.regs = true := by
  unfold arrive; (try dsimp only)
  repeat' first | with_reducible assumption | with_reducible apply receive_regs | split | dsimp only

theorem rollKey_regs (s : State) (img : Image) (f : Frame) (hr : ascends s.regs = true) : ascends (rollKey s img f).regs = true := by
  unfold rollKey; (try dsimp only)
  repeat' first | with_reducible assumption | with_reducible apply ascends_set | with_reducible apply setPart_regs | split | dsimp only

theorem showJobs_regs (s : State) (hr : ascends s.regs = true) : ascends (showJobs s).regs = true := by
  unfold showJobs; (try dsimp only)
  repeat' first | with_reducible assumption | with_reducible apply ascends_set | with_reducible apply ascends_foldl | intro _ | split | dsimp only

theorem jobAck_regs (s : State) (p id status reason : Nat) (start : Option Epoch) (hr : ascends s.regs = true) : ascends (jobAck s p id status reason start).regs = true := by
  unfold jobAck; (try dsimp only)
  repeat' first | with_reducible assumption | with_reducible apply sendFrame_regs | with_reducible apply showJobs_regs | split | dsimp only | simp only [State.draw_same]

theorem decideJob_regs (s : State) (img : Image) (p : Nat) (x : Staging) (t : Nat) (hr : ascends s.regs = true) : ascends (decideJob s img p x t).regs = true := by
  unfold decideJob; (try dsimp only)
  repeat' first | with_reducible assumption | with_reducible apply ascends_inc | with_reducible apply hold_regs | with_reducible apply jobAck_regs | with_reducible apply sendResult_regs | split | dsimp only | simp only [State.draw_same]

theorem submit_regs (s : State) (f : Frame) (t : Nat) (hr : ascends s.regs = true) : ascends (submit s f t).regs = true := by
  unfold submit; (try dsimp only)
  repeat' first | with_reducible assumption | with_reducible apply arrive_regs | with_reducible apply decideJob_regs | split | simp only [stageFragment_same] | dsimp only

theorem setJob_regs (s : State) (j : Job) (hr : ascends s.regs = true) : ascends (State.setJob s j).regs = true := by
  unfold State.setJob; (try dsimp only)
  repeat' first | with_reducible assumption | with_reducible apply showJobs_regs | split | dsimp only

theorem sendJob_regs (s : State) (j : Job) (hr : ascends s.regs = true) : ascends (sendJob s j).regs = true := by
  unfold sendJob; (try dsimp only)
  repeat' first | with_reducible assumption | with_reducible apply sendResult_regs | split | dsimp only

theorem finishJob_regs (s : State) (j : Job) (status : Nat) (hr : ascends s.regs = true) : ascends (finishJob s j status).regs = true := by
  unfold finishJob; (try dsimp only)
  repeat' first | with_reducible assumption | with_reducible apply setJob_regs | with_reducible apply sendJob_regs | split | dsimp only

theorem macsecInstall_regs (src : Source) (port : Nat) (value : Word) (s : State) (hr : ascends s.regs = true) : ascends (macsecInstall src port value s).regs = true := by
  unfold macsecInstall; (try dsimp only)
  repeat' first | with_reducible assumption | with_reducible apply ascends_set | split | dsimp only

theorem capClearCmd_regs (src : Source) (s : State) (hr : ascends s.regs = true) : ascends (capClearCmd src s).regs = true := by
  unfold capClearCmd; (try dsimp only)
  repeat' first | with_reducible assumption | with_reducible apply ascends_set | split | simp only [ownerOnly_same] | dsimp only

theorem endReplay_regs (s : State) (result stage : Nat) (e : Epoch) (hr : ascends s.regs = true) : ascends (endReplay s result stage e).regs = true := by
  unfold endReplay; (try dsimp only)
  repeat' first | with_reducible assumption | with_reducible apply ascends_set | with_reducible apply rebase_regs | split | dsimp only

theorem replayOn_regs (s : State) (r : ReplaySt) (x0 : Nat) (hr : ascends s.regs = true) : ascends (replayOn s r x0).regs = true := by
  induction x0 generalizing s r with
  | zero => exact endReplay_regs _ _ _ _ hr
  | succ n ih =>
    simp only [replayOn]; (repeat' split)
    · exact endReplay_regs _ _ _ _ hr
    · exact ih _ _ hr
    · exact hr

theorem replayCmd_regs (scope : Nat) (src : Source) (s : State) (hr : ascends s.regs = true) : ascends (replayCmd scope src s).regs = true := by
  unfold replayCmd; (try dsimp only)
  repeat' first | with_reducible assumption | with_reducible apply ascends_set | with_reducible apply endReplay_regs | with_reducible apply replayOn_regs | split | simp only [ownerOnly_same] | dsimp only

theorem replayAbortCmd_regs (src : Source) (s : State) (hr : ascends s.regs = true) : ascends (replayAbortCmd src s).regs = true := by
  unfold replayAbortCmd; (try dsimp only)
  repeat' first | with_reducible assumption | with_reducible apply endReplay_regs | split | simp only [ownerOnly_same] | dsimp only

theorem showOffset_regs (s : State) (delta : Int) (hr : ascends s.regs = true) : ascends (showOffset s delta).regs = true := by
  unfold showOffset; (try dsimp only)
  repeat' first | with_reducible assumption | with_reducible apply ascends_set | split | dsimp only | simp only [State.draw_same]

theorem applyShadow_regs (s : State) (hr : ascends s.regs = true) : ascends (applyShadow s).regs = true := by
  unfold applyShadow; (try dsimp only)
  repeat' first | with_reducible assumption | with_reducible apply ascends_set | with_reducible apply ascends_foldl | with_reducible apply discardAll_regs | intro _ | split | dsimp only

theorem countSkips_regs (s : State) (k : Nat) (hr : ascends s.regs = true) : ascends (countSkips s k).regs = true := by
  unfold countSkips; (try dsimp only)
  repeat' first | with_reducible assumption | with_reducible apply ascends_add | split | dsimp only

theorem startFrame_regs (s : State) (img : Image) (k : Nat) (hr : ascends s.regs = true) : ascends (startFrame s img k).regs = true := by
  unfold startFrame; (try dsimp only)
  repeat' first | with_reducible assumption | with_reducible apply ascends_set | with_reducible apply applyShadow_regs | with_reducible apply beginEpoch_regs | with_reducible apply completeAssembly_regs | with_reducible apply countSkips_regs | with_reducible apply discardBefore_regs | with_reducible apply rebindTiles_regs | with_reducible apply takeAnchor_regs | split | simp only [advanceTo_same, clearFrame_same] | dsimp only

theorem switchResult_regs (s : State) (r : Nat) (hr : ascends s.regs = true) : ascends (switchResult s r).regs = true := by
  unfold switchResult; (try dsimp only)
  repeat' first | with_reducible assumption | with_reducible apply ascends_set | split | dsimp only

theorem switchPhase_regs (s : State) (p : Nat) (hr : ascends s.regs = true) : ascends (switchPhase s p).regs = true := by
  unfold switchPhase; (try dsimp only)
  repeat' first | with_reducible assumption | with_reducible apply ascends_set | split | dsimp only

theorem switchCmd_regs (src : Source) (s : State) (hr : ascends s.regs = true) : ascends (switchCmd src s).regs = true := by
  unfold switchCmd; (try dsimp only)
  repeat' first | with_reducible assumption | with_reducible apply beginLoad_regs | with_reducible apply showValid_regs | with_reducible apply switchPhase_regs | with_reducible apply switchResult_regs | with_reducible apply takeToken_regs | split | dsimp only

theorem endSwitch_regs (s : State) (r : Nat) (hr : ascends s.regs = true) : ascends (endSwitch s r).regs = true := by
  unfold endSwitch; (try dsimp only)
  repeat' first | with_reducible assumption | with_reducible apply dropToken_regs | with_reducible apply switchPhase_regs | with_reducible apply switchResult_regs | split | dsimp only

theorem holdCmd_regs (src : Source) (s : State) (hr : ascends s.regs = true) : ascends (holdCmd src s).regs = true := by
  unfold holdCmd; (try dsimp only)
  repeat' first | with_reducible assumption | with_reducible apply ascends_set | with_reducible apply switchPhase_regs | with_reducible apply switchResult_regs | with_reducible apply takeToken_regs | split | dsimp only

theorem resumeCmd_regs (src : Source) (s : State) (hr : ascends s.regs = true) : ascends (resumeCmd src s).regs = true := by
  unfold resumeCmd; (try dsimp only)
  repeat' first | with_reducible assumption | with_reducible apply dropToken_regs | with_reducible apply switchPhase_regs | with_reducible apply switchResult_regs | split | simp only [shadowFrom_same] | dsimp only

theorem cancelCmd_regs (src : Source) (s : State) (hr : ascends s.regs = true) : ascends (cancelCmd src s).regs = true := by
  unfold cancelCmd; (try dsimp only)
  repeat' first | with_reducible assumption | with_reducible apply endSwitch_regs | with_reducible apply switchResult_regs | split | dsimp only

theorem pinsToWake_regs (s : State) (hr : ascends s.regs = true) : ascends (pinsToWake s).regs = true := by
  unfold pinsToWake; (try dsimp only)
  repeat' first | with_reducible assumption | with_reducible apply emptyTable_regs | with_reducible apply setPhase_regs | with_reducible apply swapTable_regs | split | dsimp only

theorem stopFrames_regs (s : State) (hr : ascends s.regs = true) : ascends (stopFrames s).regs = true := by
  unfold stopFrames; (try dsimp only)
  repeat' first | with_reducible assumption | with_reducible apply ascends_set | split | dsimp only

theorem applyPlacement_regs (s : State) (p : Placement) (hr : ascends s.regs = true) : ascends (applyPlacement s p).regs = true := by
  unfold applyPlacement; (try dsimp only)
  repeat' first | with_reducible assumption | with_reducible apply ascends_set | split | dsimp only

theorem endClamp_regs (s : State) (c : ClampSt) (hr : ascends s.regs = true) : ascends (endClamp s c).regs = true := by
  unfold endClamp; (try dsimp only)
  repeat' first | with_reducible assumption | with_reducible apply ascends_set | with_reducible apply dropToken_regs | split | dsimp only

theorem startClamp_regs (s : State) (hr : ascends s.regs = true) : ascends (startClamp s).regs = true := by
  unfold startClamp; (try dsimp only)
  repeat' first | with_reducible assumption | with_reducible apply ascends_set | with_reducible apply ascends_foldl | with_reducible apply endClamp_regs | with_reducible apply sendToken_regs | with_reducible apply takeToken_regs | intro _ | split | dsimp only

theorem clampIfDue_regs (s : State) (hr : ascends s.regs = true) : ascends (clampIfDue s).regs = true := by
  unfold clampIfDue; (try dsimp only)
  repeat' first | with_reducible assumption | with_reducible apply startClamp_regs | split | dsimp only

theorem requestRetrain_regs (s : State) (l : Nat) (hr : ascends s.regs = true) : ascends (requestRetrain s l).regs = true := by
  unfold requestRetrain; (try dsimp only)
  repeat' first | with_reducible assumption | with_reducible apply ascends_set | with_reducible apply ascends_inc | with_reducible apply takeToken_regs | split | simp only [State.setLink_same] | dsimp only

theorem ackFlits_regs (s : State) (l ack : Nat) (hr : ascends s.regs = true) : ascends (ackFlits s l ack).regs = true := by
  unfold ackFlits; (try dsimp only)
  repeat' first | with_reducible assumption | with_reducible apply pumpLink_regs | with_reducible apply tryConfirm_regs | split | simp only [State.setLink_same] | dsimp only

theorem addCredits_regs (s : State) (l pool n : Nat) (hr : ascends s.regs = true) : ascends (addCredits s l pool n).regs = true := by
  unfold addCredits; (try dsimp only)
  repeat' first | with_reducible assumption | with_reducible apply ascends_set | with_reducible apply pumpLink_regs | split | dsimp only

theorem replayEpisode_regs (s : State) (l : Nat) (hr : ascends s.regs = true) : ascends (replayEpisode s l).regs = true := by
  unfold replayEpisode; (try dsimp only)
  repeat' first | with_reducible assumption | with_reducible apply ascends_inc | with_reducible apply requestRetrain_regs | split | simp only [State.setLink_same] | dsimp only

theorem countCodeword_regs (s : State) (l : Nat) (f : Flit) (hr : ascends s.regs = true) : ascends (countCodeword s l f).regs = true := by
  unfold countCodeword; (try dsimp only)
  repeat' first | with_reducible assumption | with_reducible apply ascends_inc | with_reducible apply requestRetrain_regs | split | simp only [State.setLink_same] | dsimp only

theorem linkAgain_regs (s : State) (link : Nat) (hr : ascends s.regs = true) : ascends (linkAgain s link).regs = true := by
  unfold linkAgain; (try dsimp only)
  repeat' first | with_reducible assumption | with_reducible apply detect_regs | with_reducible apply dropToken_regs | with_reducible apply endTest_regs | split | simp only [State.setLink_same] | dsimp only

theorem linkFirst_regs (s : State) (link : Nat) (hr : ascends s.regs = true) : ascends (linkFirst s link).regs = true := by
  unfold linkFirst; (try dsimp only)
  repeat' first | with_reducible assumption | with_reducible apply ascends_set | with_reducible apply ascends_foldl | intro _ | split | simp only [State.setLink_same] | dsimp only

theorem linkTrained_regs (s : State) (link latencyPs : Nat) (hr : ascends s.regs = true) : ascends (linkTrained s link latencyPs).regs = true := by
  unfold linkTrained; (try dsimp only)
  repeat' first | with_reducible assumption | with_reducible apply ascends_set | with_reducible apply clampIfDue_regs | with_reducible apply linkAgain_regs | with_reducible apply linkFirst_regs | with_reducible apply pumpLink_regs | with_reducible apply replayEpisode_regs | split | dsimp only

theorem forwardTo_regs (s : State) (dest : Nat) (fs : List OutFlit) (hr : ascends s.regs = true) : ascends (forwardTo s dest fs).regs = true := by
  unfold forwardTo; (try dsimp only)
  repeat' first | with_reducible assumption | with_reducible apply sendMessage_regs | split | dsimp only

theorem forwardRecord_regs (s : State) (m : Message) (hr : ascends s.regs = true) : ascends (forwardRecord s m).regs = true := by
  unfold forwardRecord; (try dsimp only)
  repeat' first | with_reducible assumption | with_reducible apply forwardTo_regs | split | dsimp only | simp only [State.draw_same]

theorem relayToHead_regs (s : State) (kind flags src : Nat) (e : Epoch) (v0 v1 : Nat) (hr : ascends s.regs = true) : ascends (relayToHead s kind flags src e v0 v1).regs = true := by
  unfold relayToHead; (try dsimp only)
  repeat' first | with_reducible assumption | with_reducible apply sendFlit_regs | split | dsimp only

theorem clampCmd_regs (src : Source) (s : State) (hr : ascends s.regs = true) : ascends (clampCmd src s).regs = true := by
  unfold clampCmd; (try dsimp only)
  repeat' first | with_reducible assumption | with_reducible apply ascends_set | with_reducible apply startClamp_regs | split | simp only [tenonWrite_same] | dsimp only

theorem enumerateCmd_regs (src : Source) (s : State) (hr : ascends s.regs = true) : ascends (enumerateCmd src s).regs = true := by
  unfold enumerateCmd; (try dsimp only)
  repeat' first | with_reducible assumption | with_reducible apply ascends_set | split | simp only [tenonWrite_same] | dsimp only

theorem remoteCmd_regs (src : Source) (s : State) (hr : ascends s.regs = true) : ascends (remoteCmd src s).regs = true := by
  unfold remoteCmd; (try dsimp only)
  repeat' first | with_reducible assumption | with_reducible apply ascends_set | with_reducible apply maintMessage_regs | split | simp only [tenonWrite_same] | dsimp only

theorem bootStep_regs (s : State) (n : Nat) (hr : ascends s.regs = true) : ascends (bootStep s n).regs = true := by
  unfold bootStep; (try dsimp only)
  repeat' first | with_reducible assumption | with_reducible apply ascends_set | split | dsimp only

theorem bootFail_regs (s : State) (code : Nat) (hr : ascends s.regs = true) : ascends (bootFail s code).regs = true := by
  unfold bootFail; (try dsimp only)
  repeat' first | with_reducible assumption | with_reducible apply ascends_set | with_reducible apply armedStatus_regs | with_reducible apply emptyTable_regs | with_reducible apply stopMain_regs | split | dsimp only

theorem resetDevice_regs (s : State) (hr : ascends s.regs = true) : ascends (resetDevice s).regs = true := by
  simp only [resetDevice]; exact ascends_foldl (fun t f h => ascends_set h _ _) rfl

theorem markUnits_regs (cls mask n : Nat) (s : State) (hr : ascends s.regs = true) : ascends (markUnits cls mask n s).regs = true := by
  unfold markUnits; (try dsimp only)
  repeat' first | with_reducible assumption | with_reducible apply ascends_foldl | with_reducible apply showUnit_regs | intro _ | split | simp only [State.setUnit_same] | dsimp only

theorem applyDie_regs (s : State) (hr : ascends s.regs = true) : ascends (applyDie s).regs = true := by
  unfold applyDie; (try dsimp only)
  repeat' first | with_reducible assumption | with_reducible apply ascends_set | with_reducible apply ascends_foldl | with_reducible apply markUnits_regs | with_reducible apply showUnit_regs | intro _ | split | simp only [State.setUnit_same] | dsimp only

theorem fixIdent_regs (s : State) (hr : ascends s.regs = true) : ascends (fixIdent s).regs = true := by
  unfold fixIdent; (try dsimp only)
  repeat' first | with_reducible assumption | with_reducible apply ascends_set | with_reducible apply ascends_set64 | with_reducible apply ascends_foldl | with_reducible apply showBinding_regs | intro _ | split | dsimp only

theorem forgetChain_regs (s : State) (hr : ascends s.regs = true) : ascends (forgetChain s).regs = true := by
  unfold forgetChain; (try dsimp only)
  repeat' first | with_reducible assumption | with_reducible apply ascends_set | with_reducible apply ascends_foldl | intro _ | split | dsimp only

theorem finishBoot_regs (s : State) (hr : ascends s.regs = true) : ascends (finishBoot s).regs = true := by
  unfold finishBoot; (try dsimp only)
  repeat' first | with_reducible assumption | with_reducible apply ascends_set | with_reducible apply bootStep_regs | with_reducible apply clampIfDue_regs | with_reducible apply install_regs | split | simp only [correctTime_same, shadowFrom_same] | dsimp only

theorem settlePlacement_regs (s : State) (p : Placement) (hr : ascends s.regs = true) : ascends (settlePlacement s p).regs = true := by
  unfold settlePlacement; (try dsimp only)
  repeat' first | with_reducible assumption | with_reducible apply applyPlacement_regs | with_reducible apply bootFail_regs | with_reducible apply clampIfDue_regs | with_reducible apply failLoad_regs | with_reducible apply finishBoot_regs | split | dsimp only

theorem placeAll_regs (s : State) (hr : ascends s.regs = true) : ascends (placeAll s).regs = true := by
  unfold placeAll; (try dsimp only)
  repeat' first | with_reducible assumption | with_reducible apply ascends_set | with_reducible apply ascends_foldl | with_reducible apply maintMessage_regs | with_reducible apply settlePlacement_regs | intro _ | split | dsimp only

theorem askFrom_regs (s : State) (from_ : Nat) (hr : ascends s.regs = true) : ascends (askFrom s from_).regs = true := by
  unfold askFrom; (try dsimp only)
  repeat' first | with_reducible assumption | with_reducible apply maintMessage_regs | with_reducible apply placeAll_regs | split | dsimp only

theorem startEnum_regs (s : State) (hr : ascends s.regs = true) : ascends (startEnum s).regs = true := by
  unfold startEnum; (try dsimp only)
  repeat' first | with_reducible assumption | with_reducible apply ascends_set | with_reducible apply askFrom_regs | with_reducible apply forgetChain_regs | split | dsimp only

theorem bistFail_regs (a : Bool × State) (u : Nat × Nat) (hr : ascends a.2.regs = true) : ascends (bistFail a u).2.regs = true := by
  unfold bistFail; (try dsimp only)
  repeat' first | with_reducible assumption | with_reducible apply ascends_set | with_reducible apply ascends_inc | with_reducible apply ascends_add | with_reducible apply ascends_set64 | with_reducible apply ascends_foldl | with_reducible apply ascends_foldl_fst | with_reducible apply ascends_foldl_snd | with_reducible apply replaceBank_regs | with_reducible apply retireUnit_regs | intro _ | split | dsimp only | simp only [State.draw_same]
theorem bistUnits_regs (s : State) (us : List (Nat × Nat)) (classes : List Nat) (hr : ascends s.regs = true) : ascends (bistUnits s us classes).2.regs = true := by
  unfold bistUnits; (try dsimp only)
  repeat' first | with_reducible assumption | with_reducible apply ascends_set | with_reducible apply ascends_inc | with_reducible apply ascends_add | with_reducible apply ascends_set64 | with_reducible apply ascends_foldl | with_reducible apply ascends_foldl_fst | with_reducible apply ascends_foldl_snd | with_reducible apply bistFail_regs | intro _ | split | dsimp only | simp only [State.draw_same]

theorem afterLoad_regs (s : State) (hr : ascends s.regs = true) : ascends (afterLoad s).regs = true := by
  unfold afterLoad; (try dsimp only)
  repeat' first | with_reducible assumption | with_reducible apply bistUnits_regs | with_reducible apply bootFail_regs | with_reducible apply bootStep_regs | with_reducible apply failLoad_regs | with_reducible apply finishBoot_regs | with_reducible apply startEnum_regs | split | dsimp only

theorem rejectSlot_regs (s : State) (i : Nat) (hr : ascends s.regs = true) : ascends (rejectSlot s i).regs = true := by
  unfold rejectSlot; (try dsimp only)
  repeat' first | with_reducible assumption | with_reducible apply ascends_set | with_reducible apply chargeSlot_regs | split | dsimp only

theorem tryOne_regs (a : Bool × State) (i : Nat) (hr : ascends a.2.regs = true) : ascends (tryOne a i).2.regs = true := by
  unfold tryOne; (try dsimp only)
  repeat' first | with_reducible assumption | with_reducible apply ascends_set | with_reducible apply ascends_inc | with_reducible apply ascends_add | with_reducible apply ascends_set64 | with_reducible apply ascends_foldl | with_reducible apply ascends_foldl_fst | with_reducible apply ascends_foldl_snd | with_reducible apply beginLoad_regs | with_reducible apply bootStep_regs | with_reducible apply afterLoad_regs | with_reducible apply rejectSlot_regs | intro _ | split | dsimp only | simp only [State.draw_same]
theorem trySlots_regs (l : List Nat) (s : State) (hr : ascends s.regs = true) : ascends (trySlots l s).regs = true := by
  unfold trySlots; (try dsimp only)
  repeat' first | with_reducible assumption | with_reducible apply ascends_set | with_reducible apply ascends_inc | with_reducible apply ascends_add | with_reducible apply ascends_set64 | with_reducible apply ascends_foldl | with_reducible apply ascends_foldl_fst | with_reducible apply ascends_foldl_snd | with_reducible apply tryOne_regs | with_reducible apply bootFail_regs | intro _ | split | dsimp only | simp only [State.draw_same]

theorem waitHost_regs (s : State) (hr : ascends s.regs = true) : ascends (waitHost s).regs = true := by
  unfold waitHost; (try dsimp only)
  repeat' first | with_reducible assumption | with_reducible apply ascends_set | with_reducible apply setPushNext_regs | split | dsimp only

theorem selectSlot_regs (s : State) (hr : ascends s.regs = true) : ascends (selectSlot s).regs = true := by
  unfold selectSlot; (try dsimp only)
  repeat' first | with_reducible assumption | with_reducible apply bootFail_regs | with_reducible apply showValid_regs | with_reducible apply trySlots_regs | with_reducible apply waitHost_regs | split | dsimp only

theorem coldBegin_regs (s : State) (hr : ascends s.regs = true) : ascends (coldBegin s).regs = true := by
  unfold coldBegin; (try dsimp only)
  repeat' first | with_reducible assumption | with_reducible apply bootStep_regs | split | dsimp only

theorem coldRest_regs (s : State) (r : BootReport) (hr : ascends s.regs = true) : ascends (coldRest s r).regs = true := by
  unfold coldRest; (try dsimp only)
  repeat' first | with_reducible assumption | with_reducible apply ascends_set | with_reducible apply ascends_foldl | with_reducible apply applyDie_regs | with_reducible apply bistUnits_regs | with_reducible apply bootFail_regs | with_reducible apply bootStep_regs | with_reducible apply fixIdent_regs | with_reducible apply forgetChain_regs | with_reducible apply selectSlot_regs | intro _ | split | dsimp only | simp only [State.draw_same]

theorem warmDone_regs (s : State) (hr : ascends s.regs = true) : ascends (warmDone s).regs = true := by
  unfold warmDone; (try dsimp only)
  repeat' first | with_reducible assumption | with_reducible apply ascends_set | with_reducible apply clampIfDue_regs | with_reducible apply forgetChain_regs | with_reducible apply restartLedger_regs | with_reducible apply startEnum_regs | split | dsimp only

theorem loadWent_regs (s : State) (slot : Nat) (hr : ascends s.regs = true) : ascends (loadWent s slot).regs = true := by
  unfold loadWent; (try dsimp only)
  repeat' first | with_reducible assumption | with_reducible apply afterLoad_regs | with_reducible apply rejectSlot_regs | with_reducible apply trySlots_regs | split | dsimp only

theorem takeChunk_regs (s : State) (host : Bool) (off : Nat) (data : List Byte) (hr : ascends s.regs = true) : ascends (takeChunk s host off data).regs = true := by
  unfold takeChunk; (try dsimp only)
  repeat' first | with_reducible assumption | with_reducible apply bulkData_regs | with_reducible apply loadWent_regs | with_reducible apply setPushNext_regs | split | simp only [stageBytes_same] | dsimp only

theorem chunk_regs (s : State) (f : Frame) (hr : ascends s.regs = true) : ascends (chunk s f).regs = true := by
  unfold chunk; (try dsimp only)
  repeat' first | with_reducible assumption | with_reducible apply ascends_inc | with_reducible apply takeChunk_regs | split | dsimp only

theorem bootResult_regs (s : State) (r : Nat) (hr : ascends s.regs = true) : ascends (bootResult s r).regs = true := by
  unfold bootResult; (try dsimp only)
  repeat' first | with_reducible assumption | with_reducible apply ascends_set | split | dsimp only

theorem restartCmd_regs (why : Nat) (src : Source) (s : State) (hr : ascends s.regs = true) : ascends (restartCmd why src s).regs = true := by
  unfold restartCmd; (try dsimp only)
  repeat' first | with_reducible assumption | with_reducible apply bootResult_regs | split | dsimp only

theorem retryCmd_regs (src : Source) (s : State) (hr : ascends s.regs = true) : ascends (retryCmd src s).regs = true := by
  unfold retryCmd; (try dsimp only)
  repeat' first | with_reducible assumption | with_reducible apply ascends_set | with_reducible apply bootResult_regs | with_reducible apply restartAs_regs | split | dsimp only

theorem loadCmd_regs (src : Source) (s : State) (hr : ascends s.regs = true) : ascends (loadCmd src s).regs = true := by
  unfold loadCmd; (try dsimp only)
  repeat' first | with_reducible assumption | with_reducible apply ascends_set | with_reducible apply bootResult_regs | with_reducible apply trySlots_regs | split | dsimp only

theorem imageMessage_regs (s : State) (l : Nat) (b : List Byte) (hr : ascends s.regs = true) : ascends (imageMessage s l b).regs = true := by
  unfold imageMessage; (try dsimp only)
  repeat' first | with_reducible assumption | with_reducible apply sendMessage_regs | split | dsimp only

theorem imageMessages_regs (link : Nat) (l : List (List Byte)) {s : State} (hr : ascends s.regs = true) :
    ascends (l.foldl (fun s b => imageMessage s link b) s).regs = true :=
  ascends_foldl (fun s b h => imageMessage_regs s link b h) hr
theorem sendImage_regs (s : State) (link : Nat) (hr : ascends s.regs = true) : ascends (sendImage s link).regs = true := by
  exact imageMessages_regs _ _ hr

theorem receiveImage_regs (s : State) (data : List Byte) (hr : ascends s.regs = true) : ascends (receiveImage s data).regs = true := by
  unfold receiveImage; (try dsimp only)
  repeat' first | with_reducible assumption | with_reducible apply ascends_set | with_reducible apply setPushNext_regs | with_reducible apply trySlots_regs | split | simp only [stageBytes_same] | dsimp only

theorem keyResult_regs (s : State) (r : Nat) (hr : ascends s.regs = true) : ascends (keyResult s r).regs = true := by
  unfold keyResult; (try dsimp only)
  repeat' first | with_reducible assumption | with_reducible apply ascends_set | split | dsimp only

theorem putKeys_regs (s : State) (ks : List (Nat × List Byte)) (hr : ascends s.regs = true) : ascends (putKeys s ks).regs = true := by
  unfold putKeys; (try dsimp only)
  repeat' first | with_reducible assumption | with_reducible apply keyResult_regs | split | dsimp only

theorem enrolKey_regs (s : State) (b : List Byte) (hr : ascends s.regs = true) : ascends (enrolKey s b).regs = true := by
  unfold enrolKey; (try dsimp only)
  repeat' first | with_reducible assumption | with_reducible apply keyResult_regs | with_reducible apply putKeys_regs | split | dsimp only

theorem revokeKey_regs (s : State) (b : List Byte) (hr : ascends s.regs = true) : ascends (revokeKey s b).regs = true := by
  unfold revokeKey; (try dsimp only)
  repeat' first | with_reducible assumption | with_reducible apply keyResult_regs | with_reducible apply putKeys_regs | split | dsimp only

theorem applyKey_regs (src : Source) (s : State) (hr : ascends s.regs = true) : ascends (applyKey src s).regs = true := by
  unfold applyKey; (try dsimp only)
  repeat' first | with_reducible assumption | with_reducible apply enrolKey_regs | with_reducible apply keyResult_regs | with_reducible apply revokeKey_regs | split | dsimp only | simp only [State.draw_same]

theorem debugResult_regs (s : State) (r : Nat) (hr : ascends s.regs = true) : ascends (debugResult s r).regs = true := by
  unfold debugResult; (try dsimp only)
  repeat' first | with_reducible assumption | with_reducible apply ascends_set | split | dsimp only

theorem challengeCmd_regs (src : Source) (s : State) (hr : ascends s.regs = true) : ascends (challengeCmd src s).regs = true := by
  unfold challengeCmd; (try dsimp only)
  repeat' first | with_reducible assumption | with_reducible apply ascends_set | with_reducible apply ascends_foldl | with_reducible apply debugResult_regs | intro _ | split | simp only [ownerOnly_same] | dsimp only | simp only [State.draw_same]

theorem respondCmd_regs (src : Source) (s : State) (hr : ascends s.regs = true) : ascends (respondCmd src s).regs = true := by
  unfold respondCmd; (try dsimp only)
  repeat' first | with_reducible assumption | with_reducible apply ascends_set | with_reducible apply debugResult_regs | with_reducible apply eraseKeys_regs | split | simp only [ownerOnly_same] | dsimp only

theorem powerResult_regs (s : State) (r : Nat) (hr : ascends s.regs = true) : ascends (powerResult s r).regs = true := by
  unfold powerResult; (try dsimp only)
  repeat' first | with_reducible assumption | with_reducible apply ascends_set | split | dsimp only

theorem acceptEntry_regs (s : State) (kind : Nat) (hr : ascends s.regs = true) : ascends (acceptEntry s kind).regs = true := by
  unfold acceptEntry; (try dsimp only)
  repeat' first | with_reducible assumption | with_reducible apply ascends_set | split | dsimp only

theorem entryCmd_regs (kind : Nat) (src : Source) (s : State) (hr : ascends s.regs = true) : ascends (entryCmd kind src s).regs = true := by
  unfold entryCmd; (try dsimp only)
  repeat' first | with_reducible assumption | with_reducible apply acceptEntry_regs | with_reducible apply powerResult_regs | split | dsimp only

theorem cancelEntry_regs (src : Source) (s : State) (hr : ascends s.regs = true) : ascends (cancelEntry src s).regs = true := by
  unfold cancelEntry; (try dsimp only)
  repeat' first | with_reducible assumption | with_reducible apply ascends_set | with_reducible apply powerResult_regs | split | dsimp only

theorem beginWake_regs (s : State) (m : Nat) (hr : ascends s.regs = true) : ascends (beginWake s m).regs = true := by
  unfold beginWake; (try dsimp only)
  repeat' first | with_reducible assumption | with_reducible apply ascends_set | split | dsimp only

theorem wakeEvent_regs (s : State) (m : Nat) (level : Bool) (hr : ascends s.regs = true) : ascends (wakeEvent s m level).regs = true := by
  unfold wakeEvent; (try dsimp only)
  repeat' first | with_reducible assumption | with_reducible apply beginWake_regs | split | dsimp only | simp only [State.draw_same]

theorem linksDown_regs (s : State) (hr : ascends s.regs = true) : ascends (linksDown s).regs = true := by
  unfold linksDown; (try dsimp only)
  repeat' first | with_reducible assumption | with_reducible apply ascends_set | with_reducible apply ascends_foldl | intro _ | split | simp only [State.setLink_same] | dsimp only

theorem selfRefresh_regs (s : State) (on : Bool) (hr : ascends s.regs = true) : ascends (selfRefresh s on).regs = true := by
  unfold selfRefresh; (try dsimp only)
  repeat' first | with_reducible assumption | with_reducible apply ascends_set | with_reducible apply ascends_foldl | intro _ | split | dsimp only

theorem enterPower_regs (s : State) (hr : ascends s.regs = true) : ascends (enterPower s).regs = true := by
  unfold enterPower; (try dsimp only)
  repeat' first | with_reducible assumption | with_reducible apply ascends_set | with_reducible apply ascends_inc | with_reducible apply ascends_foldl | with_reducible apply beginWake_regs | with_reducible apply linksDown_regs | with_reducible apply selfRefresh_regs | intro _ | split | dsimp only

theorem supplyError_regs (s : State) (hr : ascends s.regs = true) : ascends (supplyError s).regs = true := by
  unfold supplyError; (try dsimp only)
  repeat' first | with_reducible assumption | with_reducible apply detect_regs | split | dsimp only

theorem notOwner_regs (a : Nat) (s : State) (hr : ascends s.regs = true) : ascends (notOwner a s).regs = true := by
  unfold notOwner; (try dsimp only)
  repeat' first | with_reducible assumption | with_reducible apply ascends_set | with_reducible apply bootResult_regs | with_reducible apply keyResult_regs | with_reducible apply powerResult_regs | with_reducible apply slotResult_regs | with_reducible apply switchResult_regs | split | dsimp only

theorem disableLink_regs (s : State) (l : Nat) (hr : ascends s.regs = true) : ascends (disableLink s l).regs = true := by
  unfold disableLink; (try dsimp only)
  repeat' first | with_reducible assumption | with_reducible apply ascends_set | with_reducible apply dropToken_regs | split | simp only [State.setLink_same] | dsimp only

theorem afterWrite_regs (a v : Nat) (s : State) (hr : ascends s.regs = true) : ascends (afterWrite a v s).regs = true := by
  unfold afterWrite; (try dsimp only)
  repeat' first | with_reducible assumption | with_reducible apply ascends_set | with_reducible apply ascends_foldl | with_reducible apply disableLink_regs | intro _ | split | dsimp only

theorem writeField_regs (a v : Nat) (s : State) (f : Field) (hr : ascends s.regs = true) : ascends (writeField a v s f).regs = true := by
  unfold writeField; (try dsimp only)
  repeat' first | with_reducible assumption | with_reducible apply ascends_set | split | dsimp only

theorem plainWrite_regs (a v : Nat) (fs : List Field) (s : State) (hr : ascends s.regs = true) : ascends (plainWrite a v fs s).2.regs = true := by
  unfold plainWrite; (try dsimp only)
  repeat' first | with_reducible assumption | with_reducible apply ascends_foldl | with_reducible apply afterWrite_regs | with_reducible apply writeField_regs | intro _ | split | dsimp only

theorem windowWrite_regs (src : Source) (a : Nat) (w : Word) (s : State) (hr : ascends s.regs = true) : ascends (windowWrite src a w s).regs = true := by
  unfold windowWrite; (try dsimp only)
  repeat' first | with_reducible assumption | with_reducible apply slotDataBlock_regs | split | dsimp only

theorem macsecWrite_regs (src : Source) (a : Nat) (w : Word) (s : State) (hr : ascends s.regs = true) : ascends (macsecWrite src a w s).2.regs = true := by
  unfold macsecWrite
  generalize macsecReg a = m
  by_cases e : m.2 = 0x20
  · simp only [if_pos e]; exact macsecInstall_regs _ _ _ _ hr
  · simp only [if_neg e]
    split <;> split <;> exact hr

theorem configCommand_regs {src : Source} {a : Nat} {w : Word} {s t : State} (hr : ascends s.regs = true) (h : configCommand src a w s = some t) : ascends t.regs = true := by
  unfold configCommand at h
  split at h
  · simp only [Option.some.injEq] at h; subst h; repeat' first | with_reducible assumption | with_reducible apply slotOpen_regs | with_reducible apply slotClose_regs | with_reducible apply slotAbort_regs | with_reducible apply switchCmd_regs | with_reducible apply holdCmd_regs | with_reducible apply resumeCmd_regs | with_reducible apply cancelCmd_regs | with_reducible apply quiesceRequest_regs | with_reducible apply windowWrite_regs | split
  split at h
  · simp only [Option.some.injEq] at h; subst h; repeat' first | with_reducible assumption | with_reducible apply slotOpen_regs | with_reducible apply slotClose_regs | with_reducible apply slotAbort_regs | with_reducible apply switchCmd_regs | with_reducible apply holdCmd_regs | with_reducible apply resumeCmd_regs | with_reducible apply cancelCmd_regs | with_reducible apply quiesceRequest_regs | with_reducible apply windowWrite_regs | split
  split at h
  · simp only [Option.some.injEq] at h; subst h; repeat' first | with_reducible assumption | with_reducible apply slotOpen_regs | with_reducible apply slotClose_regs | with_reducible apply slotAbort_regs | with_reducible apply switchCmd_regs | with_reducible apply holdCmd_regs | with_reducible apply resumeCmd_regs | with_reducible apply cancelCmd_regs | with_reducible apply quiesceRequest_regs | with_reducible apply windowWrite_regs | split
  split at h
  · simp only [Option.some.injEq] at h; subst h; repeat' first | with_reducible assumption | with_reducible apply slotOpen_regs | with_reducible apply slotClose_regs | with_reducible apply slotAbort_regs | with_reducible apply switchCmd_regs | with_reducible apply holdCmd_regs | with_reducible apply resumeCmd_regs | with_reducible apply cancelCmd_regs | with_reducible apply quiesceRequest_regs | with_reducible apply windowWrite_regs | split
  cases h
theorem deviceCommand_regs {src : Source} {a : Nat} {w : Word} {s t : State} (hr : ascends s.regs = true) (h : deviceCommand src a w s = some t) : ascends t.regs = true := by
  unfold deviceCommand at h
  split at h
  · simp only [Option.some.injEq] at h; subst h; repeat' first | with_reducible assumption | with_reducible apply entryCmd_regs | with_reducible apply cancelEntry_regs | with_reducible apply restartCmd_regs | with_reducible apply loadCmd_regs | with_reducible apply retryCmd_regs | with_reducible apply applyKey_regs | with_reducible apply challengeCmd_regs | with_reducible apply respondCmd_regs | with_reducible apply enterNow_regs | with_reducible apply faultTestCmd_regs | split
  split at h
  · simp only [Option.some.injEq] at h; subst h; repeat' first | with_reducible assumption | with_reducible apply entryCmd_regs | with_reducible apply cancelEntry_regs | with_reducible apply restartCmd_regs | with_reducible apply loadCmd_regs | with_reducible apply retryCmd_regs | with_reducible apply applyKey_regs | with_reducible apply challengeCmd_regs | with_reducible apply respondCmd_regs | with_reducible apply enterNow_regs | with_reducible apply faultTestCmd_regs | split
  split at h
  · simp only [Option.some.injEq] at h; subst h; repeat' first | with_reducible assumption | with_reducible apply entryCmd_regs | with_reducible apply cancelEntry_regs | with_reducible apply restartCmd_regs | with_reducible apply loadCmd_regs | with_reducible apply retryCmd_regs | with_reducible apply applyKey_regs | with_reducible apply challengeCmd_regs | with_reducible apply respondCmd_regs | with_reducible apply enterNow_regs | with_reducible apply faultTestCmd_regs | split
  split at h
  · simp only [Option.some.injEq] at h; subst h; repeat' first | with_reducible assumption | with_reducible apply entryCmd_regs | with_reducible apply cancelEntry_regs | with_reducible apply restartCmd_regs | with_reducible apply loadCmd_regs | with_reducible apply retryCmd_regs | with_reducible apply applyKey_regs | with_reducible apply challengeCmd_regs | with_reducible apply respondCmd_regs | with_reducible apply enterNow_regs | with_reducible apply faultTestCmd_regs | split
  split at h
  · simp only [Option.some.injEq] at h; subst h; repeat' first | with_reducible assumption | with_reducible apply entryCmd_regs | with_reducible apply cancelEntry_regs | with_reducible apply restartCmd_regs | with_reducible apply loadCmd_regs | with_reducible apply retryCmd_regs | with_reducible apply applyKey_regs | with_reducible apply challengeCmd_regs | with_reducible apply respondCmd_regs | with_reducible apply enterNow_regs | with_reducible apply faultTestCmd_regs | split
  split at h
  · simp only [Option.some.injEq] at h; subst h; repeat' first | with_reducible assumption | with_reducible apply entryCmd_regs | with_reducible apply cancelEntry_regs | with_reducible apply restartCmd_regs | with_reducible apply loadCmd_regs | with_reducible apply retryCmd_regs | with_reducible apply applyKey_regs | with_reducible apply challengeCmd_regs | with_reducible apply respondCmd_regs | with_reducible apply enterNow_regs | with_reducible apply faultTestCmd_regs | split
  cases h
theorem blockCommand_regs {src : Source} {a : Nat} {w : Word} {s t : State} (hr : ascends s.regs = true) (h : blockCommand src a w s = some t) : ascends t.regs = true := by
  unfold blockCommand at h
  split at h
  · simp only [Option.some.injEq] at h; subst h; repeat' first | with_reducible assumption | with_reducible apply rebuildCmd_regs | with_reducible apply enumerateCmd_regs | with_reducible apply clampCmd_regs | with_reducible apply remoteCmd_regs | (simp only [checkpointCmd_same]; exact hr) | with_reducible apply replayCmd_regs | with_reducible apply replayAbortCmd_regs | with_reducible apply capClearCmd_regs | split
  split at h
  · simp only [Option.some.injEq] at h; subst h; repeat' first | with_reducible assumption | with_reducible apply rebuildCmd_regs | with_reducible apply enumerateCmd_regs | with_reducible apply clampCmd_regs | with_reducible apply remoteCmd_regs | (simp only [checkpointCmd_same]; exact hr) | with_reducible apply replayCmd_regs | with_reducible apply replayAbortCmd_regs | with_reducible apply capClearCmd_regs | split
  split at h
  · simp only [Option.some.injEq] at h; subst h; repeat' first | with_reducible assumption | with_reducible apply rebuildCmd_regs | with_reducible apply enumerateCmd_regs | with_reducible apply clampCmd_regs | with_reducible apply remoteCmd_regs | (simp only [checkpointCmd_same]; exact hr) | with_reducible apply replayCmd_regs | with_reducible apply replayAbortCmd_regs | with_reducible apply capClearCmd_regs | split
  split at h
  · simp only [Option.some.injEq] at h; subst h; repeat' first | with_reducible assumption | with_reducible apply rebuildCmd_regs | with_reducible apply enumerateCmd_regs | with_reducible apply clampCmd_regs | with_reducible apply remoteCmd_regs | (simp only [checkpointCmd_same]; exact hr) | with_reducible apply replayCmd_regs | with_reducible apply replayAbortCmd_regs | with_reducible apply capClearCmd_regs | split
  cases h
theorem commandWrite_regs {src : Source} {a : Nat} {w : Word} {s : State} {r : Nat × State} (hr : ascends s.regs = true)
    (h : commandWrite src a w s = some r) : ascends r.2.regs = true := by
  unfold commandWrite at h
  split at h
  · simp only [Option.some.injEq] at h; subst h; simpa using hr
  split at h
  · simp only [Option.some.injEq] at h; subst h; exact macsecWrite_regs _ _ _ _ hr
  obtain ⟨t, ht, rfl⟩ := Option.map_eq_some_iff.mp h
  rcases Option.or_eq_some_iff.mp ht with e | ⟨-, ht⟩
  · exact configCommand_regs hr e
  rcases Option.or_eq_some_iff.mp ht with e | ⟨-, e⟩
  · exact deviceCommand_regs hr e
  · exact blockCommand_regs hr e
theorem applyWrite_regs (src : Source) (a : Nat) (w : Word) (s : State) (hr : ascends s.regs = true) : ascends (applyWrite src a w s).2.regs = true := by
  unfold applyWrite; (try dsimp only)
  repeat' first | with_reducible assumption | with_reducible apply ascends_set | with_reducible apply ascends_inc | with_reducible apply ascends_add | with_reducible apply ascends_set64 | with_reducible apply ascends_foldl | with_reducible apply ascends_foldl_fst | with_reducible apply ascends_foldl_snd | with_reducible apply notOwner_regs | with_reducible apply plainWrite_regs | with_reducible apply afterWrite_regs | intro _ | split | dsimp only | simp only [State.draw_same] | exact commandWrite_regs hr ‹_›

theorem writeRegs_regs (src : Source) (x0 : Nat) (x1 : List Word) (s : State) (hr : ascends s.regs = true) : ascends (writeRegs src x0 x1 s).2.2.regs = true := by
  induction x1 generalizing x0 s with
  | nil => exact hr
  | cons w l ih =>
    simp only [writeRegs]; split
    · exact applyWrite_regs _ _ _ _ hr
    · exact ih _ _ (applyWrite_regs _ _ _ _ hr)

theorem answer_regs (s : State) (f : Frame) (addr count status fail : Nat) (words : List Nat) (hr : ascends s.regs = true) : ascends (answer s f addr count status fail words).regs = true := by
  unfold answer; (try dsimp only)
  repeat' first | with_reducible assumption | with_reducible apply sendFrame_regs | split | dsimp only

theorem senseFor_regs (s : State) (a n : Nat) (hr : ascends s.regs = true) : ascends (senseFor s a n).regs = true := by
  unfold senseFor; (try dsimp only)
  repeat' first | with_reducible assumption | with_reducible apply sense_regs | split | dsimp only

theorem serveFrame_regs (f : Frame) (s : State) (hr : ascends s.regs = true) : ascends (serveFrame f s).regs = true := by
  unfold serveFrame; (try dsimp only)
  repeat' first | with_reducible assumption | with_reducible apply answer_regs | with_reducible apply senseFor_regs | with_reducible apply writeRegs_regs | split | dsimp only | simp only [State.draw_same]

theorem serveRemote_regs (link source : Nat) (write : Bool) (addr count : Nat) (values : List Word) (s : State) (hr : ascends s.regs = true) : ascends (serveRemote link source write addr count values s).regs = true := by
  unfold serveRemote; (try dsimp only)
  repeat' first | with_reducible assumption | with_reducible apply maintMessage_regs | with_reducible apply senseFor_regs | with_reducible apply writeRegs_regs | split | dsimp only

theorem serveJtag_regs (write : Bool) (addr : Nat) (value : Word) (s : State) (hr : ascends s.regs = true) : ascends (serveJtag write addr value s).regs = true := by
  unfold serveJtag; (try dsimp only)
  repeat' first | with_reducible assumption | with_reducible apply applyWrite_regs | with_reducible apply senseFor_regs | split | dsimp only

theorem serve_regs (r : Request) (s : State) (hr : ascends s.regs = true) : ascends (serve r s).regs = true := by
  unfold serve; (try dsimp only)
  repeat' first | with_reducible assumption | with_reducible apply serveFrame_regs | with_reducible apply serveJtag_regs | with_reducible apply serveRemote_regs | split | dsimp only

theorem applyWaiting_regs (s : State) (hr : ascends s.regs = true) : ascends (applyWaiting s).regs = true := by
  unfold applyWaiting; (try dsimp only)
  repeat' first | with_reducible assumption | with_reducible apply ascends_foldl | with_reducible apply serve_regs | intro _ | split | dsimp only

theorem takeRequest_regs (f : Frame) (t : Nat) (s : State) (hr : ascends s.regs = true) : ascends (takeRequest f t s).regs = true := by
  unfold takeRequest; (try dsimp only)
  repeat' first | with_reducible assumption | with_reducible apply arrive_regs | with_reducible apply serveFrame_regs | split | dsimp only

theorem jtagAccess_regs (write : Bool) (addr : Nat) (value : Word) (s : State) (hr : ascends s.regs = true) : ascends (jtagAccess write addr value s).regs = true := by
  unfold jtagAccess; (try dsimp only)
  repeat' first | with_reducible assumption | with_reducible apply serveJtag_regs | split | dsimp only

theorem written_regs (src : Source) (s : State) {t : State} (hr : ascends t.regs = true) : ascends (written src s t).regs = true := hr

end Sys2Proof.Machine
end

