-- ==== Sys2Proof/Laws/Stores.lean ====
section
/-! SUPPORT. The shared operations that leave every byte of the addressed stores (slots, staged slot, write window, capture ring) as it
is. -/

namespace Sys2Proof.Machine

/-- The addressed stores of a state, compared with those of another. -/
def StoresParts (z : State) (slotA slotB xspiA xspiB : Slot) (staged ring : List Host.Cell) (window : List (Nat × Nat)) : Prop :=
  slotA = z.cfg.slotA ∧ slotB = z.cfg.slotB ∧ xspiA = z.cfg.xspiA ∧ xspiB = z.cfg.xspiB ∧ staged = z.cfg.staged ∧ ring = z.digest.ring ∧
  window = z.cfg.window

/-- The addressed stores are those of `o`. -/
def StoresKept (z s : State) : Prop :=
  StoresParts z s.cfg.slotA s.cfg.slotB s.cfg.xspiA s.cfg.xspiB s.cfg.staged s.digest.ring s.cfg.window

theorem StoresKept.refl (s : State) : StoresKept s s := ⟨rfl, rfl, rfl, rfl, rfl, rfl, rfl⟩

/-- Equal stores read the same. -/
theorem StoresKept.same {z s : State} (h : StoresKept z s) : StoresSame z s := by
  obtain ⟨a, b, c, d, e, f, g⟩ := h
  intro x
  rw [a, b, c, d, e, f, g]
  exact ⟨rfl, rfl, rfl, rfl, rfl, rfl, rfl, rfl, rfl, rfl, rfl⟩

variable {z : State}

theorem stores_mk {r f c w l o' so sp j sa pi di fa dg et te po se jt wa ac fr pe} :
    StoresKept z (State.mk r f c w l o' so sp j sa pi di fa dg et te po se jt wa ac fr pe) ↔
      StoresParts z c.slotA c.slotB c.xspiA c.xspiB c.staged dg.ring c.window := Iff.rfl

theorem stores_fold {s : State} (h : StoresKept z s) :
    StoresParts z s.cfg.slotA s.cfg.slotB s.cfg.xspiA s.cfg.xspiB s.cfg.staged s.digest.ring s.cfg.window := h

theorem stores_set {s : State} (h : StoresKept z s) (f : Field) (v : Nat) : StoresKept z (s.set f v) := h
theorem stores_inc {s : State} (h : StoresKept z s) (f : Field) : StoresKept z (s.inc f) := h
theorem stores_add {s : State} (h : StoresKept z s) (f : Field) (k : Nat) : StoresKept z (s.add f k) := h
theorem stores_set64 {s : State} (h : StoresKept z s) (lo hi : Field) (v : Nat) : StoresKept z (s.set64 lo hi v) := h
theorem stores_draw {s : State} (h : StoresKept z s) (w : Nat) : StoresKept z (s.draw w).2 := h

theorem stores_foldl {β : Type} {g : State → β → State} {l : List β} {s : State} (hg : ∀ s x, StoresKept z s → StoresKept z (g s x))
    (h : StoresKept z s) : StoresKept z (l.foldl g s) := by
  induction l generalizing s with
  | nil => exact h
  | cons x l ih => exact ih (hg s x h)
theorem stores_foldl_fst {β γ : Type} {g : State × γ → β → State × γ} {l : List β} {a : State × γ}
    (hg : ∀ a x, StoresKept z a.1 → StoresKept z (g a x).1) (h : StoresKept z a.1) : StoresKept z (l.foldl g a).1 := by
  induction l generalizing a with
  | nil => exact h
  | cons x l ih => exact ih (hg a x h)
theorem stores_foldl_snd {β γ : Type} {g : γ × State → β → γ × State} {l : List β} {a : γ × State}
    (hg : ∀ a x, StoresKept z a.2 → StoresKept z (g a x).2) (h : StoresKept z a.2) : StoresKept z (l.foldl g a).2 := by
  induction l generalizing a with
  | nil => exact h
  | cons x l ih => exact ih (hg a x h)

theorem stores_congr {s t : State} (h : StoresKept z s) (hc : t.cfg = s.cfg) (hd : t.digest = s.digest) : StoresKept z t := by
  unfold StoresKept; rw [hc, hd]; exact h

theorem swapTable_stores (s : State) (table : List (Nat × Nat)) (clipped gen : Nat) (hk : StoresKept z s) : StoresKept z (swapTable s table clipped gen) := by
  exact stores_congr hk (by simp) (by simp)

theorem putTable_stores (s : State) (t : List (Nat × Nat) × Nat) (gen : Nat) (hk : StoresKept z s) : StoresKept z (putTable s t gen) := by
  exact stores_congr hk (by simp) (by simp)

theorem publishTraj_stores (s : State) (img : Image) (tr : QTraj) (k verdict : Nat) (island : Bool) (hk : StoresKept z s) : StoresKept z (publishTraj s img tr k verdict island) := by
  exact stores_congr hk (by simp) (by simp)

theorem publishHold_stores (s : State) (img : Image) (k : Nat) (hk : StoresKept z s) : StoresKept z (publishHold s img k) := by
  exact stores_congr hk (by simp) (by simp)

theorem emptyTable_stores (s : State) (hk : StoresKept z s) : StoresKept z (emptyTable s) := by
  exact stores_congr hk (by simp) (by simp)

theorem setPhase_stores (s : State) (ph : Nat) (hk : StoresKept z s) : StoresKept z (setPhase s ph) := by
  exact stores_congr hk (by simp) (by simp)

theorem setLink_stores (s : State) (l : Nat) (x : LinkSt) (hk : StoresKept z s) : StoresKept z (State.setLink s l x) := by
  exact stores_congr hk (by simp) (by simp)

theorem pumpLink_stores (s : State) (l : Nat) (hk : StoresKept z s) : StoresKept z (pumpLink s l) := by
  exact stores_congr hk (by simp) (by simp)

theorem sendFlit_stores (s : State) (l : Nat) (f : OutFlit) (hk : StoresKept z s) : StoresKept z (sendFlit s l f) := by
  exact stores_congr hk (by simp) (by simp)

theorem sendToken_stores (s : State) (l kind flags dest : Nat) (e : Epoch) (v0 v1 : Nat) (hk : StoresKept z s) : StoresKept z (sendToken s l kind flags dest e v0 v1) := by
  exact stores_congr hk (by simp) (by simp)

theorem sendMessage_stores (s : State) (l : Nat) (fs : List OutFlit) (hk : StoresKept z s) : StoresKept z (sendMessage s l fs) := by
  exact stores_congr hk (by simp) (by simp)

theorem maintMessage_stores (s : State) (l dest kind : Nat) (hk : StoresKept z s) : StoresKept z (maintMessage s l dest kind) := by
  exact stores_congr hk (by simp) (by simp)

theorem tryConfirm_stores (s : State) (e : Epoch) (hk : StoresKept z s) : StoresKept z (tryConfirm s e) := by
  exact stores_congr hk (by simp) (by simp)

theorem condemn_stores (s : State) (e : Epoch) (cause : Nat) (hk : StoresKept z s) : StoresKept z (condemn s e cause) := by
  exact stores_congr hk (by simp) (by simp)

theorem armedStatus_stores (s : State) (hk : StoresKept z s) : StoresKept z (armedStatus s) := by
  exact stores_congr hk (by simp) (by simp)

theorem setMode_stores (s : State) (m : Nat) (hk : StoresKept z s) : StoresKept z (setMode s m) := by
  exact stores_congr hk (by simp) (by simp)

theorem showSpecEpoch_stores (s : State) (hk : StoresKept z s) : StoresKept z (showSpecEpoch s) := by
  exact stores_congr hk (by simp) (by simp)

theorem dropSpecDescs_stores (s : State) (hk : StoresKept z s) : StoresKept z (dropSpecDescs s) := by
  exact stores_congr hk (by simp) (by simp)

theorem discardAll_stores (s : State) (hk : StoresKept z s) : StoresKept z (discardAll s) := by
  exact stores_congr hk (by simp) (by simp)

theorem discardBefore_stores (s : State) (e : Epoch) (hk : StoresKept z s) : StoresKept z (discardBefore s e) := by
  exact stores_congr hk (by simp) (by simp)

theorem endJobs_stores (s : State) (frameBound : Nat) (refine : Option Nat) (hk : StoresKept z s) : StoresKept z (endJobs s frameBound refine) := by
  exact stores_congr hk (by simp) (by simp)

theorem stopMain_stores (s : State) (hk : StoresKept z s) : StoresKept z (stopMain s) := by
  unfold stopMain; (try dsimp only)
  repeat' first | with_reducible assumption | with_reducible apply stores_set | with_reducible apply condemn_stores | with_reducible apply discardAll_stores | with_reducible apply stores_fold | split | simp only [stores_mk] | dsimp only | simp only [State.set_same, State.inc_same, State.add_same]

theorem restartAs_stores (s : State) (warm : Bool) (hk : StoresKept z s) : StoresKept z (restartAs s warm) := by
  unfold restartAs; (try dsimp only)
  repeat' first | with_reducible assumption | with_reducible apply stores_set | with_reducible apply stores_inc | with_reducible apply endJobs_stores | with_reducible apply stopMain_stores | with_reducible apply stores_fold | split | simp only [stores_mk] | dsimp only | simp only [State.set_same, State.inc_same, State.add_same]

theorem beginRestart_stores (s : State) (hk : StoresKept z s) : StoresKept z (beginRestart s) := by
  unfold beginRestart; (try dsimp only)
  repeat' first | with_reducible assumption | with_reducible apply restartAs_stores | with_reducible apply stores_fold | split | simp only [stores_mk] | dsimp only | simp only [State.set_same, State.inc_same, State.add_same]

theorem chargeSlot_stores (s : State) (i : Nat) (hk : StoresKept z s) : StoresKept z (chargeSlot s i) := by
  exact stores_congr hk (by simp) (by simp)

theorem startFailed_stores (s : State) (hk : StoresKept z s) : StoresKept z (startFailed s) := by
  unfold startFailed; (try dsimp only)
  repeat' first | with_reducible assumption | with_reducible apply stores_set | with_reducible apply chargeSlot_stores | with_reducible apply restartAs_stores | with_reducible apply stores_fold | split | simp only [stores_mk] | dsimp only | simp only [State.set_same, State.inc_same, State.add_same]

theorem enterSafe_stores (s : State) (hk : StoresKept z s) : StoresKept z (enterSafe s) := by
  unfold enterSafe; (try dsimp only)
  repeat' first | with_reducible assumption | with_reducible apply stores_set | with_reducible apply stores_inc | with_reducible apply beginRestart_stores | with_reducible apply setMode_stores | with_reducible apply stores_fold | split | simp only [stores_mk] | dsimp only | simp only [State.set_same, State.inc_same, State.add_same]

theorem publishEntry_stores (s : State) (k : Nat) (hk : StoresKept z s) : StoresKept z (publishEntry s k) := by
  exact stores_congr hk (by simp) (by simp)

theorem enterNow_stores (s : State) (hk : StoresKept z s) : StoresKept z (enterNow s) := by
  unfold enterNow; (try dsimp only)
  repeat' first | with_reducible assumption | with_reducible apply stores_set | with_reducible apply armedStatus_stores | with_reducible apply enterSafe_stores | with_reducible apply publishEntry_stores | with_reducible apply stores_fold | split | simp only [stores_mk] | dsimp only | simp only [State.set_same, State.inc_same, State.add_same]

theorem permanentFault_stores (s : State) (hk : StoresKept z s) : StoresKept z (permanentFault s) := by
  exact stores_congr hk (by simp) (by simp)

theorem setUnit_stores (s : State) (cls idx : Nat) (u : UnitSt) (hk : StoresKept z s) : StoresKept z (State.setUnit s cls idx u) := by
  exact stores_congr hk (by simp) (by simp)

theorem showUnit_stores (s : State) (cls idx : Nat) (hk : StoresKept z s) : StoresKept z (showUnit s cls idx) := by
  exact stores_congr hk (by simp) (by simp)

theorem makeSuspect_stores (s : State) (cls idx : Nat) (hk : StoresKept z s) : StoresKept z (makeSuspect s cls idx) := by
  exact stores_congr hk (by simp) (by simp)

theorem showTokens_stores (s : State) (hk : StoresKept z s) : StoresKept z (showTokens s) := by
  exact stores_congr hk (by simp) (by simp)

theorem takeToken_stores (s : State) (t : Token) (hk : StoresKept z s) : StoresKept z (takeToken s t).2 := by
  exact stores_congr hk (by simp) (by simp)

theorem dropToken_stores (s : State) (t : Token) (hk : StoresKept z s) : StoresKept z (dropToken s t) := by
  exact stores_congr hk (by simp) (by simp)

theorem sense_stores (s : State) (hk : StoresKept z s) : StoresKept z (State.sense s) := by
  exact stores_congr hk (by simp) (by simp)

theorem issueRecord_stores (s : State) (h : Handling) (test : Nat) (hk : StoresKept z s) : StoresKept z (issueRecord s h test) := by
  exact stores_congr hk (by simp) (by simp)

theorem closeError_stores (s : State) (h : Handling) (test : Nat) (hk : StoresKept z s) : StoresKept z (closeError s h test) := by
  exact stores_congr hk (by simp) (by simp)

theorem chargeUnit_stores (s : State) (e : ErrorInfo) (hk : StoresKept z s) : StoresKept z (chargeUnit s e) := by
  exact stores_congr hk (by simp) (by simp)

theorem actFatal_stores (s : State) (e : ErrorInfo) (hk : StoresKept z s) : StoresKept z (actFatal s e) := by
  unfold actFatal; (try dsimp only)
  repeat' first | with_reducible assumption | with_reducible apply stores_set | with_reducible apply enterNow_stores | with_reducible apply startFailed_stores | with_reducible apply stores_fold | split | simp only [stores_mk] | dsimp only | simp only [State.set_same, State.inc_same, State.add_same]

theorem showHandler_stores (s : State) (hk : StoresKept z s) : StoresKept z (showHandler s) := by
  exact stores_congr hk (by simp) (by simp)

theorem detect_stores (s : State) (e : ErrorInfo) (hk : StoresKept z s) : StoresKept z (detect s e) := by
  unfold detect; (try dsimp only)
  repeat' first | with_reducible assumption | with_reducible apply stores_inc | with_reducible apply actFatal_stores | with_reducible apply chargeUnit_stores | with_reducible apply closeError_stores | with_reducible apply makeSuspect_stores | with_reducible apply showHandler_stores | with_reducible apply stores_fold | split | simp only [stores_mk] | dsimp only | simp only [State.set_same, State.inc_same, State.add_same]

theorem detectPermanent_stores (s : State) (e : ErrorInfo) (hk : StoresKept z s) : StoresKept z (detectPermanent s e) := by
  unfold detectPermanent; (try dsimp only)
  repeat' first | with_reducible assumption | with_reducible apply detect_stores | with_reducible apply makeSuspect_stores | with_reducible apply stores_fold | split | simp only [stores_mk] | dsimp only | simp only [State.set_same, State.inc_same, State.add_same]

theorem queueTrans_stores (s : State) (t : List Trans) (hk : StoresKept z s) : StoresKept z (queueTrans s t) := by
  exact stores_congr hk (by simp) (by simp)

theorem closeLedger_stores (s : State) (img : Image) (b : List Byte) (e : Epoch) (all : Bool) (hk : StoresKept z s) : StoresKept z (closeLedger s img b e all) := by
  exact stores_congr hk (by simp) (by simp)

theorem showShift_stores (s : State) (hk : StoresKept z s) : StoresKept z (showShift s) := by
  exact stores_congr hk (by simp) (by simp)

theorem showPending_stores (s : State) (hk : StoresKept z s) : StoresKept z (showPending s) := by
  exact stores_congr hk (by simp) (by simp)

theorem rebuildLedger_stores (s : State) (img : Image) (b : List Byte) (e : Epoch) (cause : Nat) (hk : StoresKept z s) : StoresKept z (rebuildLedger s img b e cause) := by
  exact stores_congr hk (by simp) (by simp)

theorem scheduleRebuild_stores (s : State) (cause : Nat) (hk : StoresKept z s) : StoresKept z (scheduleRebuild s cause) := by
  exact stores_congr hk (by simp) (by simp)

theorem scheduleShift_stores (s : State) (e : Epoch) (hk : StoresKept z s) : StoresKept z (scheduleShift s e) := by
  exact stores_congr hk (by simp) (by simp)

theorem restartLedger_stores (s : State) (hk : StoresKept z s) : StoresKept z (restartLedger s) := by
  exact stores_congr hk (by simp) (by simp)

theorem setDesc_stores (s : State) (tile d : Nat) (x : Desc) (hk : StoresKept z s) : StoresKept z (State.setDesc s tile d x) := by
  exact stores_congr hk (by simp) (by simp)

theorem tally_stores (s : State) (f : Field) (n : Nat) (hk : StoresKept z s) : StoresKept z (State.tally s f n) := by
  exact stores_congr hk (by simp) (by simp)

theorem showAgent_stores (s : State) (tile : Nat) (hk : StoresKept z s) : StoresKept z (showAgent s tile) := by
  exact stores_congr hk (by simp) (by simp)

theorem trace_stores (s : State) (cls event tile d : Nat) (x : Desc) (detail : Nat) (hk : StoresKept z s) : StoresKept z (trace s cls event tile d x detail) := by
  exact stores_congr hk (by simp) (by simp)

theorem hold_stores (s : State) (row tile d : Nat) (x : Desc) (hk : StoresKept z s) : StoresKept z (hold s row tile d x) := by
  exact stores_congr hk (by simp) (by simp)

theorem offerTask_stores (s : State) (img : Image) (tile d : Nat) (hk : StoresKept z s) : StoresKept z (offerTask s img tile d) := by
  exact stores_congr hk (by simp) (by simp)

theorem makeReady_stores (s : State) (img : Image) (tile d why : Nat) (hk : StoresKept z s) : StoresKept z (makeReady s img tile d why) := by
  exact stores_congr hk (by simp) (by simp)

theorem promote_stores (s : State) (tile : Nat) (hk : StoresKept z s) : StoresKept z (promote s tile) := by
  exact stores_congr hk (by simp) (by simp)

theorem setSpec_stores (s : State) (x : SpecEp) (hk : StoresKept z s) : StoresKept z (State.setSpec s x) := by
  exact stores_congr hk (by simp) (by simp)

theorem offerRecord_stores (s : State) (img : Image) (tile : Nat) (r : SweepRec) (hk : StoresKept z s) : StoresKept z (offerRecord s img tile r) := by
  unfold offerRecord; (try dsimp only)
  repeat' first | with_reducible assumption | with_reducible apply stores_set | with_reducible apply stores_inc | with_reducible apply detect_stores | with_reducible apply stores_fold | split | simp only [stores_mk] | dsimp only | simp only [State.set_same, State.inc_same, State.add_same]

theorem sendBlock_stores (s : State) (img : Image) (e : Epoch) (spec : Bool) (b : Block) (hk : StoresKept z s) : StoresKept z (sendBlock s img e spec b) := by
  exact stores_congr hk (by simp) (by simp)

theorem releaseOutput_stores (img : Image) (tile stage : Nat) (s : State) (o : Output) (hk : StoresKept z s) : StoresKept z (releaseOutput img tile stage s o) := by
  unfold releaseOutput; (try dsimp only)
  repeat' first | with_reducible assumption | with_reducible apply stores_set | with_reducible apply tally_stores | with_reducible apply offerRecord_stores | with_reducible apply sendBlock_stores | with_reducible apply stores_fold | split | simp only [stores_mk] | dsimp only | simp only [State.set_same, State.inc_same, State.add_same]

theorem releaseTask_stores (img : Image) (s : State) (d : DoneTask) (hk : StoresKept z s) : StoresKept z (releaseTask img s d) := by
  unfold releaseTask; (try dsimp only)
  repeat' first | with_reducible assumption | with_reducible apply stores_foldl | with_reducible apply releaseOutput_stores | with_reducible apply trace_stores | intro _ | with_reducible apply stores_fold | split | simp only [stores_mk] | dsimp only | simp only [State.set_same, State.inc_same, State.add_same]

theorem releaseFlow_stores (img : Image) (f : Nat) (x0 : Nat) (s : State) (hk : StoresKept z s) : StoresKept z (releaseFlow img f x0 s) := by
  induction x0 generalizing s with
  | zero => exact hk
  | succ k ih =>
    simp only [releaseFlow]; split
    · exact ih _ (releaseTask_stores _ _ _ hk)
    · exact hk

theorem finishTask_stores (s : State) (img : Image) (id t tile : Nat) (outs : List Output) (hk : StoresKept z s) : StoresKept z (finishTask s img id t tile outs) := by
  unfold finishTask; (try dsimp only)
  repeat' first | with_reducible assumption | with_reducible apply releaseFlow_stores | with_reducible apply stores_fold | split | simp only [stores_mk] | dsimp only | simp only [State.set_same, State.inc_same, State.add_same]

theorem admitSlice_stores (s : State) (cls idx : Nat) (hk : StoresKept z s) : StoresKept z (admitSlice s cls idx) := by
  exact stores_congr hk (by simp) (by simp)

theorem admitWaiting_stores (s : State) (hk : StoresKept z s) : StoresKept z (admitWaiting s) := by
  exact stores_congr hk (by simp) (by simp)

theorem tileSuspect_stores (s : State) (n : Nat) (hk : StoresKept z s) : StoresKept z (tileSuspect s n) := by
  exact stores_congr hk (by simp) (by simp)

theorem bindDesc_stores (s : State) (img : Image) (tile d : Nat) (x : Desc) (hk : StoresKept z s) : StoresKept z (bindDesc s img tile d x) := by
  exact stores_congr hk (by simp) (by simp)

theorem createTask_stores (s : State) (img : Image) (tile : Nat) (kind : TaskKind) (spec : Bool) (e : Epoch) (x : Desc) (d : Nat) (hk : StoresKept z s) : StoresKept z (createTask s img tile kind spec e x d) := by
  exact stores_congr hk (by simp) (by simp)

theorem runTask_stores (s : State) (tile d reserve thread : Nat) (hk : StoresKept z s) : StoresKept z (runTask s tile d reserve thread) := by
  exact stores_congr hk (by simp) (by simp)

theorem trySlice_stores (s : State) (img : Image) (tile d thread : Nat) (hk : StoresKept z s) : StoresKept z (trySlice s img tile d thread) := by
  exact stores_congr hk (by simp) (by simp)

theorem yieldTask_stores (s : State) (img : Image) (tile d : Nat) (x : Desc) (why : Yield) (hk : StoresKept z s) : StoresKept z (yieldTask s img tile d x why) := by
  exact stores_congr hk (by simp) (by simp)

theorem specFinish_stores (s : State) (y : SpecEp) (id t tile : Nat) (outs : List Output) (hk : StoresKept z s) : StoresKept z (specFinish s y id t tile outs) := by
  exact stores_congr hk (by simp) (by simp)

theorem countWork_stores (s : State) (img : Image) (x : Desc) (tile : Nat) (outs : List Output) (hk : StoresKept z s) : StoresKept z (countWork s img x tile outs) := by
  exact stores_congr hk (by simp) (by simp)

theorem nearMissTest_stores (s : State) (img : Image) (tile : Nat) (e : Epoch) (hk : StoresKept z s) : StoresKept z (nearMissTest s img tile e) := by
  exact stores_congr hk (by simp) (by simp)

theorem jobRecord_stores (s : State) (img : Image) (j : Job) (k : Nat) (hk : StoresKept z s) : StoresKept z (jobRecord s img j k).2 := by
  exact stores_congr hk (by simp) (by simp)

theorem jobUnit_stores (s : State) (img : Image) (p : Nat) (hk : StoresKept z s) : StoresKept z (jobUnit s img p) := by
  exact stores_congr hk (by simp) (by simp)

theorem flagSweep_stores (s : State) (img : Image) (tile t : Nat) (x : Desc) (hk : StoresKept z s) : StoresKept z (flagSweep s img tile t x) := by
  exact stores_congr hk (by simp) (by simp)

theorem stageOutputsDone_stores (s : State) (img : Image) (tile d id t : Nat) (x : Desc) (outs : List Output) (hk : StoresKept z s) : StoresKept z (stageOutputsDone s img tile d id t x outs) := by
  unfold stageOutputsDone; (try dsimp only)
  repeat' first | with_reducible assumption | with_reducible apply setDesc_stores | with_reducible apply countWork_stores | with_reducible apply finishTask_stores | with_reducible apply flagSweep_stores | with_reducible apply nearMissTest_stores | with_reducible apply showAgent_stores | with_reducible apply specFinish_stores | with_reducible apply stores_fold | split | simp only [stores_mk] | dsimp only | simp only [State.set_same, State.inc_same, State.add_same]

theorem stageComplete_stores (s : State) (img : Image) (tile d id t : Nat) (x : Desc) (hk : StoresKept z s) : StoresKept z (stageComplete s img tile d id t x) := by
  unfold stageComplete; (try dsimp only)
  repeat' first | with_reducible assumption | with_reducible apply setDesc_stores | with_reducible apply showAgent_stores | with_reducible apply stageOutputsDone_stores | with_reducible apply stores_fold | split | simp only [stores_mk] | dsimp only | simp only [State.set_same, State.inc_same, State.add_same]

theorem completeTask_stores (s : State) (img : Image) (tile d : Nat) (x : Desc) (hk : StoresKept z s) : StoresKept z (completeTask s img tile d x) := by
  unfold completeTask; (try dsimp only)
  repeat' first | with_reducible assumption | with_reducible apply setDesc_stores | with_reducible apply jobUnit_stores | with_reducible apply showAgent_stores | with_reducible apply stageComplete_stores | with_reducible apply stores_fold | split | simp only [stores_mk] | dsimp only | simp only [State.set_same, State.inc_same, State.add_same]

theorem answerOffer_stores (s : State) (tile d : Nat) (x : Desc) (hk : StoresKept z s) : StoresKept z (answerOffer s tile d x) := by
  exact stores_congr hk (by simp) (by simp)

theorem showPrediction_stores (s : State) (e : Epoch) (hk : StoresKept z s) : StoresKept z (showPrediction s e) := by
  exact stores_congr hk (by simp) (by simp)

theorem beginSpeculation_stores (s : State) (img : Image) (hk : StoresKept z s) : StoresKept z (beginSpeculation s img) := by
  exact stores_congr hk (by simp) (by simp)

theorem releaseKept_stores (s : State) (img : Image) (kc : List (Nat × Nat × Nat)) (kr : List SpecRec) (kb : List Block) (hk : StoresKept z s) : StoresKept z (releaseKept s img kc kr kb) := by
  unfold releaseKept; (try dsimp only)
  repeat' first | with_reducible assumption | with_reducible apply stores_foldl | with_reducible apply finishTask_stores | intro _ | with_reducible apply stores_fold | split | simp only [stores_mk] | dsimp only | simp only [State.set_same, State.inc_same, State.add_same]

theorem squash_stores (s : State) (img : Image) (hk : StoresKept z s) : StoresKept z (squash s img) := by
  unfold squash; (try dsimp only)
  repeat' first | with_reducible assumption | with_reducible apply dropSpecDescs_stores | with_reducible apply releaseKept_stores | with_reducible apply showSpecEpoch_stores | with_reducible apply stores_fold | split | simp only [stores_mk] | dsimp only | simp only [State.set_same, State.inc_same, State.add_same]

theorem testSearches_stores (f : Epoch) (touched : List Nat) (s : State) (hk : StoresKept z s) : StoresKept z (testSearches f touched s) := by
  exact stores_congr hk (by simp) (by simp)

theorem decideSearch_stores (s : State) (img : Image) (b : List Byte) (e : Epoch) (hk : StoresKept z s) : StoresKept z (decideSearch s img b e) := by
  unfold decideSearch; (try dsimp only)
  repeat' first | with_reducible assumption | with_reducible apply stores_foldl | with_reducible apply finishTask_stores | intro _ | with_reducible apply stores_fold | split | simp only [stores_mk] | dsimp only | simp only [State.set_same, State.inc_same, State.add_same]

theorem rebuildCmd_stores (src : Source) (s : State) (hk : StoresKept z s) : StoresKept z (rebuildCmd src s) := by
  exact stores_congr hk (by simp) (by simp)

theorem safetyCopy_stores (s : State) (f : Admitted) (hk : StoresKept z s) : StoresKept z (safetyCopy s f) := by
  exact stores_congr hk (by simp) (by simp)

theorem worldDiscard_stores (s : State) (d : Nat) (hk : StoresKept z s) : StoresKept z (worldDiscard s d) := by
  exact stores_congr hk (by simp) (by simp)

theorem putAdmitted_stores (s : State) (a : Admitted) (recs good : List WRec) (hk : StoresKept z s) : StoresKept z (putAdmitted s a recs good) := by
  exact stores_congr hk (by simp) (by simp)

theorem admitFrame_stores (s : State) (img : Image) (d : Nat) (e : Epoch) (seq : Word) (recs : List WRec) (eoe late : Bool)
    (len : Nat) (raw : List Byte) (hk : StoresKept z s) : StoresKept z (admitFrame s img d e seq recs eoe late len raw) := by
  exact stores_congr hk (by simp) (by simp)

theorem admitUpdate_stores (s : State) (partition d : Nat) (named : Epoch) (seq : Word) (payload raw : List Byte) (t : Nat) (hk : StoresKept z s) : StoresKept z (admitUpdate s partition d named seq payload raw t) := by
  exact stores_congr hk (by simp) (by simp)

theorem chooseStart_stores (s : State) (img : Image) (e : Epoch) (hk : StoresKept z s) : StoresKept z (chooseStart s img e) := by
  exact stores_congr hk (by simp) (by simp)

theorem closeStream_stores (img : Image) (e : Epoch) (s : State) (d : Nat) (hk : StoresKept z s) : StoresKept z (closeStream img e s d) := by
  exact stores_congr hk (by simp) (by simp)

theorem shiftLedger_stores (s : State) (img : Image) (hk : StoresKept z s) : StoresKept z (shiftLedger s img) := by
  exact stores_congr hk (by simp) (by simp)

theorem markSent_stores (s : State) (img : Image) (b : List Byte) (hk : StoresKept z s) : StoresKept z (markSent s img b) := by
  exact stores_congr hk (by simp) (by simp)

theorem closeAdmission_stores (s : State) (img : Image) (hk : StoresKept z s) : StoresKept z (closeAdmission s img) := by
  unfold closeAdmission; (try dsimp only)
  repeat' first | with_reducible assumption | with_reducible apply stores_set | with_reducible apply stores_inc | with_reducible apply stores_foldl | with_reducible apply chooseStart_stores | with_reducible apply closeStream_stores | with_reducible apply markSent_stores | with_reducible apply shiftLedger_stores | with_reducible apply squash_stores | intro _ | with_reducible apply stores_fold | split | simp only [stores_mk] | dsimp only | simp only [State.set_same, State.inc_same, State.add_same]

theorem finishSnapshot_stores (s : State) (img : Image) (hk : StoresKept z s) : StoresKept z (finishSnapshot s img) := by
  exact stores_congr hk (by simp) (by simp)

theorem finalPanel_stores (s : State) (img : Image) (l p : Nat) (hk : StoresKept z s) : StoresKept z (finalPanel s img l p) := by
  exact stores_congr hk (by simp) (by simp)

theorem keepPanel_stores (s : State) (img : Image) (l p : Nat) (hk : StoresKept z s) : StoresKept z (keepPanel s img l p) := by
  exact stores_congr hk (by simp) (by simp)

theorem recomputePanel_stores (s : State) (img : Image) (l p : Nat) (hk : StoresKept z s) : StoresKept z (recomputePanel s img l p) := by
  exact stores_congr hk (by simp) (by simp)

theorem completePanel_stores (img : Image) (l : Nat) (s : State) (p : Nat) (hk : StoresKept z s) : StoresKept z (completePanel img l s p) := by
  exact stores_congr hk (by simp) (by simp)

theorem completeAssembly_stores (s : State) (img : Image) (hk : StoresKept z s) : StoresKept z (completeAssembly s img) := by
  unfold completeAssembly; (try dsimp only)
  repeat' first | with_reducible assumption | with_reducible apply stores_foldl | with_reducible apply closeAdmission_stores | with_reducible apply completePanel_stores | intro _ | with_reducible apply stores_fold | split | simp only [stores_mk] | dsimp only | simp only [State.set_same, State.inc_same, State.add_same]

theorem beginEpoch_stores (s : State) (e : Epoch) (hk : StoresKept z s) : StoresKept z (beginEpoch s e) := by
  exact stores_congr hk (by simp) (by simp)

theorem countCut_stores (s : State) (tile n : Nat) (hk : StoresKept z s) : StoresKept z (countCut s tile n) := by
  exact stores_congr hk (by simp) (by simp)

theorem cutTask_stores (img : Image) (id : Nat) (s : State) (t : Nat) (hk : StoresKept z s) : StoresKept z (cutTask img id s t) := by
  unfold cutTask; (try dsimp only)
  repeat' first | with_reducible assumption | with_reducible apply setDesc_stores | with_reducible apply countCut_stores | with_reducible apply finishTask_stores | with_reducible apply showAgent_stores | with_reducible apply stores_fold | split | simp only [stores_mk] | dsimp only | simp only [State.set_same, State.inc_same, State.add_same]

theorem cutStageTasks_stores (img : Image) (s : State) (id : Nat) (hk : StoresKept z s) : StoresKept z (cutStageTasks img s id) := by
  unfold cutStageTasks; (try dsimp only)
  repeat' first | with_reducible assumption | with_reducible apply stores_foldl | with_reducible apply cutTask_stores | intro _ | with_reducible apply stores_fold | split | simp only [stores_mk] | dsimp only | simp only [State.set_same, State.inc_same, State.add_same]

theorem abandonPropose_stores (s : State) (hk : StoresKept z s) : StoresKept z (abandonPropose s) := by
  exact stores_congr hk (by simp) (by simp)

theorem sendLists_stores (s : State) (img : Image) (hk : StoresKept z s) : StoresKept z (sendLists s img) := by
  exact stores_congr hk (by simp) (by simp)

theorem startRefine_stores (s : State) (img : Image) (e : PEntry) (hk : StoresKept z s) : StoresKept z (startRefine s img e) := by
  exact stores_congr hk (by simp) (by simp)

theorem releaseSelection_stores (s : State) (img : Image) (inputs : List PList) (hk : StoresKept z s) : StoresKept z (releaseSelection s img inputs) := by
  unfold releaseSelection; (try dsimp only)
  repeat' first | with_reducible assumption | with_reducible apply stores_set | with_reducible apply stores_add | with_reducible apply detect_stores | with_reducible apply startRefine_stores | with_reducible apply stores_fold | split | simp only [stores_mk] | dsimp only | simp only [State.set_same, State.inc_same, State.add_same]

theorem setRun_stores (s : State) (r : RefineRun) (hk : StoresKept z s) : StoresKept z (State.setRun s r) := by
  exact stores_congr hk (by simp) (by simp)

theorem setUpRun_stores (s : State) (img : Image) (r : RefineRun) (tr : Traj) (hk : StoresKept z s) : StoresKept z (setUpRun s img r tr) := by
  exact stores_congr hk (by simp) (by simp)

theorem returnRefine_stores (s : State) (img : Image) (r : RefineRun) (tr : Traj) (t : Nat) (hk : StoresKept z s) : StoresKept z (returnRefine s img r tr t) := by
  exact stores_congr hk (by simp) (by simp)

theorem updateGrid_stores (s : State) (img : Image) (e : Epoch) (hk : StoresKept z s) : StoresKept z (updateGrid s img e) := by
  exact stores_congr hk (by simp) (by simp)

theorem closeStage_stores (s : State) (img : Image) (id : Nat) (bytes : List Byte) (hk : StoresKept z s) : StoresKept z (closeStage s img id bytes) := by
  unfold closeStage; (try dsimp only)
  repeat' first | with_reducible assumption | with_reducible apply stores_fold | split | simp only [stores_mk] | dsimp only | simp only [State.set_same, State.inc_same, State.add_same]

theorem closeMain_stores (s : State) (img : Image) (hk : StoresKept z s) : StoresKept z (closeMain s img) := by
  unfold closeMain; (try dsimp only)
  repeat' first | with_reducible assumption | with_reducible apply closeStage_stores | with_reducible apply stores_fold | split | simp only [stores_mk] | dsimp only | simp only [State.set_same, State.inc_same, State.add_same]

theorem setPart_stores (s : State) (p : Nat) (x : PartSt) (hk : StoresKept z s) : StoresKept z (State.setPart s p x) := by
  exact stores_congr hk (by simp) (by simp)

theorem countDrop_stores (s : State) (r : Nat) (f : Frame) (hk : StoresKept z s) : StoresKept z (countDrop s r f) := by
  exact stores_congr hk (by simp) (by simp)

theorem acceptSeq_stores (s : State) (f : Frame) (hk : StoresKept z s) : StoresKept z (acceptSeq s f) := by
  exact stores_congr hk (by simp) (by simp)

theorem receiveBoot_stores (s : State) (f : Frame) (hk : StoresKept z s) : StoresKept z (receiveBoot s f).2 := by
  exact stores_congr hk (by simp) (by simp)

theorem receiveRunning_stores (s : State) (img : Image) (f : Frame) (t : Nat) (hk : StoresKept z s) : StoresKept z (receiveRunning s img f t).2 := by
  exact stores_congr hk (by simp) (by simp)

theorem receive_stores (s : State) (f : Frame) (t : Nat) (hk : StoresKept z s) : StoresKept z (receive s f t).2 := by
  exact stores_congr hk (by simp) (by simp)

theorem sendFrame_stores (s : State) (p ty : Nat) (e : Epoch) (rtag : Option Nat) (payload : List Byte) (hk : StoresKept z s) : StoresKept z (sendFrame s p ty e rtag payload) := by
  exact stores_congr hk (by simp) (by simp)

theorem sendResult_stores (s : State) (p kind jobId : Nat) (e : Epoch) (body : List Byte) (hk : StoresKept z s) : StoresKept z (sendResult s p kind jobId e body) := by
  exact stores_congr hk (by simp) (by simp)

theorem queueResults_stores (s : State) (img : Image) (sel : Option Selection) (h : ResultHead) (hk : StoresKept z s) : StoresKept z (queueResults s img sel h) := by
  exact stores_congr hk (by simp) (by simp)

theorem islandResult_stores (s : State) (img : Image) (k verdict source : Nat) (hk : StoresKept z s) : StoresKept z (islandResult s img k verdict source) := by
  exact stores_congr hk (by simp) (by simp)

theorem makeDue_stores (s : State) (cls idx : Nat) (hk : StoresKept z s) : StoresKept z (makeDue s cls idx) := by
  exact stores_congr hk (by simp) (by simp)

theorem pairTests_stores (s : State) (e : Epoch) (hk : StoresKept z s) : StoresKept z (pairTests s e) := by
  exact stores_congr hk (by simp) (by simp)

theorem comparePair_stores (s : State) (a b : PairToken) (hk : StoresKept z s) : StoresKept z (comparePair s a b) := by
  unfold comparePair; (try dsimp only)
  repeat' first | with_reducible assumption | with_reducible apply stores_set | with_reducible apply stores_inc | with_reducible apply stores_draw | with_reducible apply detect_stores | with_reducible apply pairTests_stores | with_reducible apply stores_fold | split | simp only [stores_mk] | dsimp only | simp only [State.set_same, State.inc_same, State.add_same]

theorem takePairToken_stores (s : State) (x : PairToken) (hk : StoresKept z s) : StoresKept z (takePairToken s x) := by
  unfold takePairToken; (try dsimp only)
  repeat' first | with_reducible assumption | with_reducible apply comparePair_stores | with_reducible apply sendFlit_stores | with_reducible apply stores_fold | split | simp only [stores_mk] | dsimp only | simp only [State.set_same, State.inc_same, State.add_same]

theorem pushWindow_stores (s : State) (failed : Bool) (hk : StoresKept z s) : StoresKept z (pushWindow s failed) := by
  exact stores_congr hk (by simp) (by simp)

theorem applyVerdict_stores (s : State) (v : Nat) (hk : StoresKept z s) : StoresKept z (applyVerdict s v) := by
  unfold applyVerdict; (try dsimp only)
  repeat' first | with_reducible assumption | with_reducible apply stores_inc | with_reducible apply enterSafe_stores | with_reducible apply setMode_stores | with_reducible apply stores_fold | split | simp only [stores_mk] | dsimp only | simp only [State.set_same, State.inc_same, State.add_same]

theorem latchBudget_stores (s : State) (img : Image) (hk : StoresKept z s) : StoresKept z (latchBudget s img) := by
  exact stores_congr hk (by simp) (by simp)

theorem latchPropose_stores (s : State) (img : Image) (hk : StoresKept z s) : StoresKept z (latchPropose s img) := by
  exact stores_congr hk (by simp) (by simp)

theorem latchSearch_stores (s : State) (hk : StoresKept z s) : StoresKept z (latchSearch s) := by
  exact stores_congr hk (by simp) (by simp)

theorem latchOrder_stores (s : State) (hk : StoresKept z s) : StoresKept z (latchOrder s) := by
  exact stores_congr hk (by simp) (by simp)

theorem latchRefine_stores (s : State) (hk : StoresKept z s) : StoresKept z (latchRefine s) := by
  exact stores_congr hk (by simp) (by simp)

theorem latchEpoch_stores (s : State) (img : Image) (hk : StoresKept z s) : StoresKept z (latchEpoch s img) := by
  exact stores_congr hk (by simp) (by simp)

theorem publishVerdict_stores (s : State) (img : Image) (k v : Nat) (hk : StoresKept z s) : StoresKept z (publishVerdict s img k v) := by
  exact stores_congr hk (by simp) (by simp)

theorem releasePort_stores (s : State) (hk : StoresKept z s) : StoresKept z (releasePort s) := by
  exact stores_congr hk (by simp) (by simp)

theorem sendFrameResult_stores (s : State) (img : Image) (d : Nat × Nat × List Byte) (hk : StoresKept z s) : StoresKept z (sendFrameResult s img d) := by
  exact stores_congr hk (by simp) (by simp)

theorem chainCommit_stores (s : State) (frame world : Nat) (hk : StoresKept z s) : StoresKept z (chainCommit s frame world) := by
  unfold chainCommit; (try dsimp only)
  repeat' first | with_reducible assumption | with_reducible apply sendToken_stores | with_reducible apply takePairToken_stores | with_reducible apply tryConfirm_stores | with_reducible apply stores_fold | split | simp only [stores_mk] | dsimp only | simp only [State.set_same, State.inc_same, State.add_same]

theorem endCommit_stores (s : State) (k now frameDigest : Nat) (rest : Option Int) (hk : StoresKept z s) : StoresKept z (endCommit s k now frameDigest rest) := by
  unfold endCommit; (try dsimp only)
  repeat' first | with_reducible assumption | with_reducible apply stores_fold | split | simp only [stores_mk] | dsimp only | simp only [State.set_same, State.inc_same, State.add_same]

theorem showSlots_stores (s : State) (hk : StoresKept z s) : StoresKept z (showSlots s) := by
  exact stores_congr hk (by simp) (by simp)

theorem showValid_stores (s : State) (hk : StoresKept z s) : StoresKept z (showValid s) := by
  exact stores_congr hk (by simp) (by simp)

theorem showFail_stores (s : State) (f : LoadFail) (hk : StoresKept z s) : StoresKept z (showFail s f) := by
  exact stores_congr hk (by simp) (by simp)

theorem failLoad_stores (s : State) (f : LoadFail) (hk : StoresKept z s) : StoresKept z (failLoad s f) := by
  unfold failLoad; (try dsimp only)
  repeat' first | with_reducible assumption | with_reducible apply stores_set | with_reducible apply showFail_stores | with_reducible apply stores_fold | split | simp only [stores_mk] | dsimp only | simp only [State.set_same, State.inc_same, State.add_same]

theorem setPushNext_stores (s : State) (v : Nat) (hk : StoresKept z s) : StoresKept z (setPushNext s v) := by
  exact stores_congr hk (by simp) (by simp)

theorem goOn_stores (s : State) (l : Loading) (from_ : Nat) (hk : StoresKept z s) : StoresKept z (goOn s l from_) := by
  unfold goOn; (try dsimp only)
  repeat' first | with_reducible assumption | with_reducible apply stores_set | with_reducible apply failLoad_stores | with_reducible apply setPushNext_stores | with_reducible apply stores_fold | split | simp only [stores_mk] | dsimp only | simp only [State.set_same, State.inc_same, State.add_same]

theorem beginLoad_stores (s : State) (i : Nat) (hk : StoresKept z s) : StoresKept z (beginLoad s i) := by
  unfold beginLoad; (try dsimp only)
  repeat' first | with_reducible assumption | with_reducible apply stores_set | with_reducible apply failLoad_stores | with_reducible apply goOn_stores | with_reducible apply showFail_stores | with_reducible apply stores_fold | split | simp only [stores_mk] | dsimp only | simp only [State.set_same, State.inc_same, State.add_same]

theorem bulkData_stores (s : State) (l : Loading) (data : Option (List Byte)) (hk : StoresKept z s) : StoresKept z (bulkData s l data) := by
  unfold bulkData; (try dsimp only)
  repeat' first | with_reducible assumption | with_reducible apply failLoad_stores | with_reducible apply goOn_stores | with_reducible apply stores_fold | split | simp only [stores_mk] | dsimp only | simp only [State.set_same, State.inc_same, State.add_same]

theorem setStreams_stores (f : Nat → Field) (v : Nat → Nat) (s : State) (hk : StoresKept z s) : StoresKept z (setStreams f v s) := by
  exact stores_congr hk (by simp) (by simp)

theorem installPower_stores (s : State) (i : Image) (hk : StoresKept z s) : StoresKept z (installPower s i) := by
  exact stores_congr hk (by simp) (by simp)

theorem installFields_stores (s : State) (i : Image) (bulk : List BulkData) (hk : StoresKept z s) : StoresKept z (installFields s i bulk) := by
  exact stores_congr hk (by simp) (by simp)

theorem eraseKeys_stores (s : State) (hk : StoresKept z s) : StoresKept z (eraseKeys s) := by
  exact stores_congr hk (by simp) (by simp)

theorem restartSequences_stores (s : State) (hk : StoresKept z s) : StoresKept z (restartSequences s) := by
  exact stores_congr hk (by simp) (by simp)

theorem rebase_stores (s : State) (hk : StoresKept z s) : StoresKept z (rebase s) := by
  unfold rebase; (try dsimp only)
  repeat' first | with_reducible assumption | with_reducible apply stores_set | with_reducible apply dropToken_stores | with_reducible apply scheduleRebuild_stores | with_reducible apply showShift_stores | with_reducible apply stores_fold | split | simp only [stores_mk] | dsimp only | simp only [State.set_same, State.inc_same, State.add_same]

theorem install_stores (s : State) (img : Image) (bulk : List BulkData) (i q : Nat) (hk : StoresKept z s) : StoresKept z (install s img bulk i q) := by
  unfold install; (try dsimp only)
  repeat' first | with_reducible assumption | with_reducible apply stores_set | with_reducible apply stores_set64 | with_reducible apply discardAll_stores | with_reducible apply endJobs_stores | with_reducible apply eraseKeys_stores | with_reducible apply installFields_stores | with_reducible apply rebase_stores | with_reducible apply restartSequences_stores | with_reducible apply stores_fold | split | simp only [stores_mk] | dsimp only | simp only [State.set_same, State.inc_same, State.add_same]

theorem slotResult_stores (s : State) (r : Nat) (hk : StoresKept z s) : StoresKept z (slotResult s r) := by
  exact stores_congr hk (by simp) (by simp)

theorem chestStart_stores (s : State) (k : Nat) (hk : StoresKept z s) : StoresKept z (chestStart s k) := by
  unfold chestStart; (try dsimp only)
  repeat' first | with_reducible assumption | with_reducible apply stores_set | with_reducible apply stores_fold | split | simp only [stores_mk] | dsimp only | simp only [State.set_same, State.inc_same, State.add_same]

theorem chestEnd_stores (s : State) (r : Nat) (hk : StoresKept z s) : StoresKept z (chestEnd s r) := by
  exact hk

theorem finishSlotWrite_stores (s : State) (r : Nat) (hk : StoresKept z s) : StoresKept z (finishSlotWrite s r) := by
  unfold finishSlotWrite; (try dsimp only)
  repeat' first | with_reducible assumption | with_reducible apply chestEnd_stores | with_reducible apply dropToken_stores | with_reducible apply stores_fold | split | simp only [stores_mk] | dsimp only | simp only [State.set_same, State.inc_same, State.add_same]

theorem slotAbort_stores (src : Source) (s : State) (hk : StoresKept z s) : StoresKept z (slotAbort src s) := by
  unfold slotAbort; (try dsimp only)
  repeat' first | with_reducible assumption | with_reducible apply finishSlotWrite_stores | with_reducible apply slotResult_stores | with_reducible apply stores_fold | split | simp only [stores_mk] | dsimp only | simp only [State.set_same, State.inc_same, State.add_same]

theorem setQuiesced_stores (s : State) (b : Nat) (hk : StoresKept z s) : StoresKept z (setQuiesced s b) := by
  exact stores_congr hk (by simp) (by simp)

theorem quiesceRequest_stores (src : Source) (mask : Nat) (s : State) (hk : StoresKept z s) : StoresKept z (quiesceRequest src mask s) := by
  exact stores_congr hk (by simp) (by simp)

theorem showBinding_stores (s : State) (hk : StoresKept z s) : StoresKept z (showBinding s) := by
  exact stores_congr hk (by simp) (by simp)

theorem rebindTiles_stores (s : State) (hk : StoresKept z s) : StoresKept z (rebindTiles s) := by
  exact stores_congr hk (by simp) (by simp)

theorem retireUnit_stores (s : State) (cls idx mech : Nat) (hk : StoresKept z s) : StoresKept z (retireUnit s cls idx mech) := by
  unfold retireUnit; (try dsimp only)
  repeat' first | with_reducible assumption | with_reducible apply stores_set | with_reducible apply setUnit_stores | with_reducible apply detect_stores | with_reducible apply showUnit_stores | with_reducible apply stores_fold | split | simp only [stores_mk] | dsimp only | simp only [State.set_same, State.inc_same, State.add_same]

theorem countEcc_stores (s : State) (e : ErrorInfo) (hk : StoresKept z s) : StoresKept z (countEcc s e) := by
  exact stores_congr hk (by simp) (by simp)

theorem staleBank_stores (s : State) (c : Nat) (hk : StoresKept z s) : StoresKept z (staleBank s c) := by
  exact stores_congr hk (by simp) (by simp)

theorem replaceBank_stores (s : State) (g : Nat) (hk : StoresKept z s) : StoresKept z (replaceBank s g) := by
  unfold replaceBank; (try dsimp only)
  repeat' first | with_reducible assumption | with_reducible apply stores_set | with_reducible apply retireUnit_stores | with_reducible apply scheduleRebuild_stores | with_reducible apply stores_fold | split | simp only [stores_mk] | dsimp only | simp only [State.set_same, State.inc_same, State.add_same]

theorem offerCopy_stores (s : State) (img : Image) (d : DoneTask) (equal : Bool) (hk : StoresKept z s) : StoresKept z (offerCopy s img d equal) := by
  unfold offerCopy; (try dsimp only)
  repeat' first | with_reducible assumption | with_reducible apply stores_draw | with_reducible apply stores_foldl | with_reducible apply offerRecord_stores | intro _ | with_reducible apply stores_fold | split | simp only [stores_mk] | dsimp only | simp only [State.set_same, State.inc_same, State.add_same]

theorem settleSuspects_stores (old new : State) (hk : StoresKept z new) : StoresKept z (settleSuspects old new) := by
  simp only [settleSuspects]
  refine stores_foldl (fun t k h => ?_) hk
  split
  · exact tileSuspect_stores _ _ h
  · exact h
theorem endTest_stores (s : State) (cls idx : Nat) (pass : Bool) (hk : StoresKept z s) : StoresKept z (endTest s cls idx pass) := by
  unfold endTest; (try dsimp only)
  repeat' first | with_reducible assumption | with_reducible apply settleSuspects_stores | with_reducible apply retireUnit_stores | with_reducible apply detect_stores | with_reducible apply showUnit_stores | with_reducible apply setUnit_stores | with_reducible apply stores_fold | split | simp only [stores_mk] | dsimp only | simp only [State.set_same, State.inc_same, State.add_same]

theorem faultTestCmd_stores (src : Source) (value : Word) (s : State) (hk : StoresKept z s) : StoresKept z (faultTestCmd src value s) := by
  exact stores_congr hk (by simp) (by simp)

theorem endSlice_stores (s : State) (cls idx : Nat) (hk : StoresKept z s) : StoresKept z (endSlice s cls idx) := by
  exact stores_congr hk (by simp) (by simp)

theorem moveJob_stores (s : State) (cls idx : Nat) (hk : StoresKept z s) : StoresKept z (moveJob s cls idx) := by
  exact stores_congr hk (by simp) (by simp)

theorem arrive_stores (s : State) (f : Frame) (t : Nat) (hk : StoresKept z s) : StoresKept z (arrive s f t).2 := by
  exact stores_congr hk (by simp) (by simp)

theorem rollKey_stores (s : State) (img : Image) (f : Frame) (hk : StoresKept z s) : StoresKept z (rollKey s img f) := by
  exact stores_congr hk (by simp) (by simp)

theorem showJobs_stores (s : State) (hk : StoresKept z s) : StoresKept z (showJobs s) := by
  exact stores_congr hk (by simp) (by simp)

theorem stageFragment_stores (s : State) (f : Frame) (hk : StoresKept z s) : StoresKept z (stageFragment s f).2 := by
  exact stores_congr hk (by simp) (by simp)

theorem jobAck_stores (s : State) (p id status reason : Nat) (start : Option Epoch) (hk : StoresKept z s) : StoresKept z (jobAck s p id status reason start) := by
  exact stores_congr hk (by simp) (by simp)

theorem decideJob_stores (s : State) (img : Image) (p : Nat) (x : Staging) (t : Nat) (hk : StoresKept z s) : StoresKept z (decideJob s img p x t) := by
  exact stores_congr hk (by simp) (by simp)

theorem submit_stores (s : State) (f : Frame) (t : Nat) (hk : StoresKept z s) : StoresKept z (submit s f t) := by
  exact stores_congr hk (by simp) (by simp)

theorem setJob_stores (s : State) (j : Job) (hk : StoresKept z s) : StoresKept z (State.setJob s j) := by
  exact stores_congr hk (by simp) (by simp)

theorem jobRefined_stores (s : State) (img : Image) (j : Job) (c : Iterate) (n : Nat) (conv cut : Bool) (hk : StoresKept z s) : StoresKept z (jobRefined s img j c n conv cut).2 := by
  exact stores_congr hk (by simp) (by simp)

theorem sendJob_stores (s : State) (j : Job) (hk : StoresKept z s) : StoresKept z (sendJob s j) := by
  exact stores_congr hk (by simp) (by simp)

theorem finishJob_stores (s : State) (j : Job) (status : Nat) (hk : StoresKept z s) : StoresKept z (finishJob s j status) := by
  exact stores_congr hk (by simp) (by simp)

theorem macsecInstall_stores (src : Source) (port : Nat) (value : Word) (s : State) (hk : StoresKept z s) : StoresKept z (macsecInstall src port value s) := by
  exact stores_congr hk (by simp) (by simp)

theorem ownerOnly_stores (src : Source) {s : State} {f : State → State} (hf : StoresKept z (f s)) (hk : StoresKept z s) :
    StoresKept z (ownerOnly src s f) := by
  unfold ownerOnly; split
  · exact hf
  · exact hk
theorem checkpointCmd_stores (src : Source) (s : State) (hk : StoresKept z s) : StoresKept z (checkpointCmd src s) := by
  unfold checkpointCmd; (try dsimp only)
  repeat' first | with_reducible assumption | with_reducible apply ownerOnly_stores | with_reducible apply stores_fold | split | simp only [stores_mk] | dsimp only | simp only [State.set_same, State.inc_same, State.add_same]

theorem endReplay_stores (s : State) (result stage : Nat) (e : Epoch) (hk : StoresKept z s) : StoresKept z (endReplay s result stage e) := by
  unfold endReplay; (try dsimp only)
  repeat' first | with_reducible assumption | with_reducible apply stores_set | with_reducible apply rebase_stores | with_reducible apply stores_fold | split | simp only [stores_mk] | dsimp only | simp only [State.set_same, State.inc_same, State.add_same]

theorem replayOn_stores (s : State) (r : ReplaySt) (x0 : Nat) (hk : StoresKept z s) : StoresKept z (replayOn s r x0) := by
  induction x0 generalizing s r with
  | zero => exact endReplay_stores _ _ _ _ hk
  | succ k ih =>
    simp only [replayOn]; (repeat' split)
    · exact endReplay_stores _ _ _ _ hk
    · exact ih _ _ hk
    · exact hk

theorem replayCmd_stores (scope : Nat) (src : Source) (s : State) (hk : StoresKept z s) : StoresKept z (replayCmd scope src s) := by
  unfold replayCmd; (try dsimp only)
  repeat' first | with_reducible assumption | with_reducible apply stores_set | with_reducible apply endReplay_stores | with_reducible apply ownerOnly_stores | with_reducible apply replayOn_stores | with_reducible apply stores_fold | split | simp only [stores_mk] | dsimp only | simp only [State.set_same, State.inc_same, State.add_same]

theorem replayAbortCmd_stores (src : Source) (s : State) (hk : StoresKept z s) : StoresKept z (replayAbortCmd src s) := by
  unfold replayAbortCmd; (try dsimp only)
  repeat' first | with_reducible assumption | with_reducible apply endReplay_stores | with_reducible apply ownerOnly_stores | with_reducible apply stores_fold | split | simp only [stores_mk] | dsimp only | simp only [State.set_same, State.inc_same, State.add_same]

theorem advanceTo_stores (s : State) (t : Int) (hk : StoresKept z s) : StoresKept z (advanceTo s t) := by
  exact stores_congr hk (by simp) (by simp)

theorem correctTime_stores (s : State) (delta : Int) (hk : StoresKept z s) : StoresKept z (correctTime s delta) := by
  exact stores_congr hk (by simp) (by simp)

theorem showOffset_stores (s : State) (delta : Int) (hk : StoresKept z s) : StoresKept z (showOffset s delta) := by
  exact stores_congr hk (by simp) (by simp)

theorem applyShadow_stores (s : State) (hk : StoresKept z s) : StoresKept z (applyShadow s) := by
  unfold applyShadow; (try dsimp only)
  repeat' first | with_reducible assumption | with_reducible apply stores_set | with_reducible apply stores_foldl | with_reducible apply discardAll_stores | intro _ | with_reducible apply stores_fold | split | simp only [stores_mk] | dsimp only | simp only [State.set_same, State.inc_same, State.add_same]

theorem clearFrame_stores (s : State) (hk : StoresKept z s) : StoresKept z (clearFrame s) := by
  unfold clearFrame; (try dsimp only)
  repeat' first | with_reducible assumption | with_reducible apply stores_fold | split | simp only [stores_mk] | dsimp only | simp only [State.set_same, State.inc_same, State.add_same]

theorem countSkips_stores (s : State) (k : Nat) (hk : StoresKept z s) : StoresKept z (countSkips s k) := by
  exact stores_congr hk (by simp) (by simp)

theorem switchResult_stores (s : State) (r : Nat) (hk : StoresKept z s) : StoresKept z (switchResult s r) := by
  exact stores_congr hk (by simp) (by simp)

theorem switchPhase_stores (s : State) (p : Nat) (hk : StoresKept z s) : StoresKept z (switchPhase s p) := by
  exact stores_congr hk (by simp) (by simp)

theorem switchCmd_stores (src : Source) (s : State) (hk : StoresKept z s) : StoresKept z (switchCmd src s) := by
  unfold switchCmd; (try dsimp only)
  repeat' first | with_reducible assumption | with_reducible apply beginLoad_stores | with_reducible apply showValid_stores | with_reducible apply switchPhase_stores | with_reducible apply switchResult_stores | with_reducible apply takeToken_stores | with_reducible apply stores_fold | split | simp only [stores_mk] | dsimp only | simp only [State.set_same, State.inc_same, State.add_same]

theorem endSwitch_stores (s : State) (r : Nat) (hk : StoresKept z s) : StoresKept z (endSwitch s r) := by
  unfold endSwitch; (try dsimp only)
  repeat' first | with_reducible assumption | with_reducible apply dropToken_stores | with_reducible apply switchPhase_stores | with_reducible apply switchResult_stores | with_reducible apply stores_fold | split | simp only [stores_mk] | dsimp only | simp only [State.set_same, State.inc_same, State.add_same]

theorem holdCmd_stores (src : Source) (s : State) (hk : StoresKept z s) : StoresKept z (holdCmd src s) := by
  unfold holdCmd; (try dsimp only)
  repeat' first | with_reducible assumption | with_reducible apply stores_set | with_reducible apply switchPhase_stores | with_reducible apply switchResult_stores | with_reducible apply takeToken_stores | with_reducible apply stores_fold | split | simp only [stores_mk] | dsimp only | simp only [State.set_same, State.inc_same, State.add_same]

theorem shadowFrom_stores (s : State) (k : Nat) (hk : StoresKept z s) : StoresKept z (shadowFrom s k) := by
  exact stores_congr hk (by simp) (by simp)

theorem resumeCmd_stores (src : Source) (s : State) (hk : StoresKept z s) : StoresKept z (resumeCmd src s) := by
  unfold resumeCmd; (try dsimp only)
  repeat' first | with_reducible assumption | with_reducible apply dropToken_stores | with_reducible apply shadowFrom_stores | with_reducible apply switchPhase_stores | with_reducible apply switchResult_stores | with_reducible apply stores_fold | split | simp only [stores_mk] | dsimp only | simp only [State.set_same, State.inc_same, State.add_same]

theorem cancelCmd_stores (src : Source) (s : State) (hk : StoresKept z s) : StoresKept z (cancelCmd src s) := by
  unfold cancelCmd; (try dsimp only)
  repeat' first | with_reducible assumption | with_reducible apply endSwitch_stores | with_reducible apply switchResult_stores | with_reducible apply stores_fold | split | simp only [stores_mk] | dsimp only | simp only [State.set_same, State.inc_same, State.add_same]

theorem pinsToWake_stores (s : State) (hk : StoresKept z s) : StoresKept z (pinsToWake s) := by
  exact stores_congr hk (by simp) (by simp)

theorem stopFrames_stores (s : State) (hk : StoresKept z s) : StoresKept z (stopFrames s) := by
  unfold stopFrames; (try dsimp only)
  repeat' first | with_reducible assumption | with_reducible apply stores_set | with_reducible apply stores_fold | split | simp only [stores_mk] | dsimp only | simp only [State.set_same, State.inc_same, State.add_same]

theorem applyPlacement_stores (s : State) (p : Placement) (hk : StoresKept z s) : StoresKept z (applyPlacement s p) := by
  exact stores_congr hk (by simp) (by simp)

theorem endClamp_stores (s : State) (c : ClampSt) (hk : StoresKept z s) : StoresKept z (endClamp s c) := by
  exact stores_congr hk (by simp) (by simp)

theorem startClamp_stores (s : State) (hk : StoresKept z s) : StoresKept z (startClamp s) := by
  exact stores_congr hk (by simp) (by simp)

theorem clampIfDue_stores (s : State) (hk : StoresKept z s) : StoresKept z (clampIfDue s) := by
  exact stores_congr hk (by simp) (by simp)

theorem tenonWrite_stores (src : Source) {s : State} {f : State → State} (hf : StoresKept z (f s)) (hk : StoresKept z s) :
    StoresKept z (tenonWrite src s f) := by
  unfold tenonWrite; split
  · exact hk
  · exact ownerOnly_stores src hf hk
theorem requestRetrain_stores (s : State) (l : Nat) (hk : StoresKept z s) : StoresKept z (requestRetrain s l) := by
  exact stores_congr hk (by simp) (by simp)

theorem ackFlits_stores (s : State) (l ack : Nat) (hk : StoresKept z s) : StoresKept z (ackFlits s l ack) := by
  exact stores_congr hk (by simp) (by simp)

theorem addCredits_stores (s : State) (l pool n : Nat) (hk : StoresKept z s) : StoresKept z (addCredits s l pool n) := by
  exact stores_congr hk (by simp) (by simp)

theorem replayEpisode_stores (s : State) (l : Nat) (hk : StoresKept z s) : StoresKept z (replayEpisode s l) := by
  exact stores_congr hk (by simp) (by simp)

theorem sendNak_stores (s : State) (l : Nat) (hk : StoresKept z s) : StoresKept z (sendNak s l) := by
  exact stores_congr hk (by simp) (by simp)

theorem countCodeword_stores (s : State) (l : Nat) (f : Flit) (hk : StoresKept z s) : StoresKept z (countCodeword s l f) := by
  exact stores_congr hk (by simp) (by simp)

theorem linkAgain_stores (s : State) (link : Nat) (hk : StoresKept z s) : StoresKept z (linkAgain s link) := by
  unfold linkAgain; (try dsimp only)
  repeat' first | with_reducible assumption | with_reducible apply setLink_stores | with_reducible apply detect_stores | with_reducible apply dropToken_stores | with_reducible apply endTest_stores | with_reducible apply stores_fold | split | simp only [stores_mk] | dsimp only | simp only [State.set_same, State.inc_same, State.add_same]

theorem linkFirst_stores (s : State) (link : Nat) (hk : StoresKept z s) : StoresKept z (linkFirst s link) := by
  exact stores_congr hk (by simp) (by simp)

theorem linkTrained_stores (s : State) (link latencyPs : Nat) (hk : StoresKept z s) : StoresKept z (linkTrained s link latencyPs) := by
  unfold linkTrained; (try dsimp only)
  repeat' first | with_reducible assumption | with_reducible apply stores_set | with_reducible apply clampIfDue_stores | with_reducible apply linkAgain_stores | with_reducible apply linkFirst_stores | with_reducible apply pumpLink_stores | with_reducible apply replayEpisode_stores | with_reducible apply stores_fold | split | simp only [stores_mk] | dsimp only | simp only [State.set_same, State.inc_same, State.add_same]

theorem forwardTo_stores (s : State) (dest : Nat) (fs : List OutFlit) (hk : StoresKept z s) : StoresKept z (forwardTo s dest fs) := by
  exact stores_congr hk (by simp) (by simp)

theorem receivedBlock_stores (s : State) (img : Image) (spec : Option SpecEp) (tensor index : Nat) (data : List Byte) (hk : StoresKept z s) : StoresKept z (receivedBlock s img spec tensor index data).2 := by
  exact stores_congr hk (by simp) (by simp)

theorem forwardRecord_stores (s : State) (m : Message) (hk : StoresKept z s) : StoresKept z (forwardRecord s m) := by
  exact stores_congr hk (by simp) (by simp)

theorem relayToHead_stores (s : State) (kind flags src : Nat) (e : Epoch) (v0 v1 : Nat) (hk : StoresKept z s) : StoresKept z (relayToHead s kind flags src e v0 v1) := by
  exact stores_congr hk (by simp) (by simp)

theorem clampCmd_stores (src : Source) (s : State) (hk : StoresKept z s) : StoresKept z (clampCmd src s) := by
  exact stores_congr hk (by simp) (by simp)

theorem enumerateCmd_stores (src : Source) (s : State) (hk : StoresKept z s) : StoresKept z (enumerateCmd src s) := by
  exact stores_congr hk (by simp) (by simp)

theorem remoteCmd_stores (src : Source) (s : State) (hk : StoresKept z s) : StoresKept z (remoteCmd src s) := by
  exact stores_congr hk (by simp) (by simp)

theorem bootStep_stores (s : State) (n : Nat) (hk : StoresKept z s) : StoresKept z (bootStep s n) := by
  exact stores_congr hk (by simp) (by simp)

theorem bootFail_stores (s : State) (code : Nat) (hk : StoresKept z s) : StoresKept z (bootFail s code) := by
  unfold bootFail; (try dsimp only)
  repeat' first | with_reducible assumption | with_reducible apply stores_set | with_reducible apply armedStatus_stores | with_reducible apply emptyTable_stores | with_reducible apply stopMain_stores | with_reducible apply stores_fold | split | simp only [stores_mk] | dsimp only | simp only [State.set_same, State.inc_same, State.add_same]

theorem markUnits_stores (cls mask n : Nat) (s : State) (hk : StoresKept z s) : StoresKept z (markUnits cls mask n s) := by
  exact stores_congr hk (by simp) (by simp)

theorem applyDie_stores (s : State) (hk : StoresKept z s) : StoresKept z (applyDie s) := by
  exact stores_congr hk (by simp) (by simp)

theorem fixIdent_stores (s : State) (hk : StoresKept z s) : StoresKept z (fixIdent s) := by
  exact stores_congr hk (by simp) (by simp)

theorem forgetChain_stores (s : State) (hk : StoresKept z s) : StoresKept z (forgetChain s) := by
  exact stores_congr hk (by simp) (by simp)

theorem finishBoot_stores (s : State) (hk : StoresKept z s) : StoresKept z (finishBoot s) := by
  unfold finishBoot; (try dsimp only)
  repeat' first | with_reducible assumption | with_reducible apply stores_set | with_reducible apply bootStep_stores | with_reducible apply clampIfDue_stores | with_reducible apply correctTime_stores | with_reducible apply install_stores | with_reducible apply shadowFrom_stores | with_reducible apply stores_fold | split | simp only [stores_mk] | dsimp only | simp only [State.set_same, State.inc_same, State.add_same]

theorem settlePlacement_stores (s : State) (p : Placement) (hk : StoresKept z s) : StoresKept z (settlePlacement s p) := by
  unfold settlePlacement; (try dsimp only)
  repeat' first | with_reducible assumption | with_reducible apply applyPlacement_stores | with_reducible apply bootFail_stores | with_reducible apply clampIfDue_stores | with_reducible apply failLoad_stores | with_reducible apply finishBoot_stores | with_reducible apply stores_fold | split | simp only [stores_mk] | dsimp only | simp only [State.set_same, State.inc_same, State.add_same]

theorem placeAll_stores (s : State) (hk : StoresKept z s) : StoresKept z (placeAll s) := by
  unfold placeAll; (try dsimp only)
  repeat' first | with_reducible assumption | with_reducible apply stores_set | with_reducible apply stores_foldl | with_reducible apply maintMessage_stores | with_reducible apply settlePlacement_stores | intro _ | with_reducible apply stores_fold | split | simp only [stores_mk] | dsimp only | simp only [State.set_same, State.inc_same, State.add_same]

theorem askFrom_stores (s : State) (from_ : Nat) (hk : StoresKept z s) : StoresKept z (askFrom s from_) := by
  unfold askFrom; (try dsimp only)
  repeat' first | with_reducible assumption | with_reducible apply maintMessage_stores | with_reducible apply placeAll_stores | with_reducible apply stores_fold | split | simp only [stores_mk] | dsimp only | simp only [State.set_same, State.inc_same, State.add_same]

theorem startEnum_stores (s : State) (hk : StoresKept z s) : StoresKept z (startEnum s) := by
  unfold startEnum; (try dsimp only)
  repeat' first | with_reducible assumption | with_reducible apply stores_set | with_reducible apply askFrom_stores | with_reducible apply forgetChain_stores | with_reducible apply stores_fold | split | simp only [stores_mk] | dsimp only | simp only [State.set_same, State.inc_same, State.add_same]

theorem bistFail_stores (a : Bool × State) (u : Nat × Nat) (hk : StoresKept z a.2) : StoresKept z (bistFail a u).2 := by
  unfold bistFail; (try dsimp only)
  repeat' first | with_reducible assumption | with_reducible apply replaceBank_stores | with_reducible apply retireUnit_stores | with_reducible apply stores_fold | split | simp only [stores_mk] | dsimp only | simp only [State.set_same, State.inc_same, State.add_same]
theorem bistUnits_stores (s : State) (us : List (Nat × Nat)) (classes : List Nat) (hk : StoresKept z s) : StoresKept z (bistUnits s us classes).2 := by
  simp only [bistUnits]; exact stores_foldl_snd (fun a u h => bistFail_stores a u h) hk

theorem afterLoad_stores (s : State) (hk : StoresKept z s) : StoresKept z (afterLoad s) := by
  unfold afterLoad; (try dsimp only)
  repeat' first | with_reducible assumption | with_reducible apply bistUnits_stores | with_reducible apply bootFail_stores | with_reducible apply bootStep_stores | with_reducible apply failLoad_stores | with_reducible apply finishBoot_stores | with_reducible apply startEnum_stores | with_reducible apply stores_fold | split | simp only [stores_mk] | dsimp only | simp only [State.set_same, State.inc_same, State.add_same]

theorem rejectSlot_stores (s : State) (i : Nat) (hk : StoresKept z s) : StoresKept z (rejectSlot s i) := by
  exact stores_congr hk (by simp) (by simp)

theorem tryOne_stores (a : Bool × State) (i : Nat) (hk : StoresKept z a.2) : StoresKept z (tryOne a i).2 := by
  unfold tryOne; (try dsimp only)
  repeat' first | with_reducible assumption | with_reducible apply beginLoad_stores | with_reducible apply bootStep_stores | with_reducible apply afterLoad_stores | with_reducible apply rejectSlot_stores | with_reducible apply stores_fold | split | simp only [stores_mk] | dsimp only | simp only [State.set_same, State.inc_same, State.add_same]
theorem trySlots_stores (l : List Nat) (s : State) (hk : StoresKept z s) : StoresKept z (trySlots l s) := by
  simp only [trySlots]
  have h : StoresKept z (l.foldl tryOne (false, s)).2 := stores_foldl_snd (fun a i h => tryOne_stores a i h) hk
  split
  · exact h
  · exact bootFail_stores _ _ h

theorem coldBegin_stores (s : State) (hk : StoresKept z s) : StoresKept z (coldBegin s) := by
  exact stores_congr hk (by simp) (by simp)

theorem warmDone_stores (s : State) (hk : StoresKept z s) : StoresKept z (warmDone s) := by
  unfold warmDone; (try dsimp only)
  repeat' first | with_reducible assumption | with_reducible apply stores_set | with_reducible apply clampIfDue_stores | with_reducible apply forgetChain_stores | with_reducible apply restartLedger_stores | with_reducible apply startEnum_stores | with_reducible apply stores_fold | split | simp only [stores_mk] | dsimp only | simp only [State.set_same, State.inc_same, State.add_same]

theorem loadWent_stores (s : State) (slot : Nat) (hk : StoresKept z s) : StoresKept z (loadWent s slot) := by
  unfold loadWent; (try dsimp only)
  repeat' first | with_reducible assumption | with_reducible apply afterLoad_stores | with_reducible apply rejectSlot_stores | with_reducible apply trySlots_stores | with_reducible apply stores_fold | split | simp only [stores_mk] | dsimp only | simp only [State.set_same, State.inc_same, State.add_same]

theorem bootResult_stores (s : State) (r : Nat) (hk : StoresKept z s) : StoresKept z (bootResult s r) := by
  exact stores_congr hk (by simp) (by simp)

theorem restartCmd_stores (why : Nat) (src : Source) (s : State) (hk : StoresKept z s) : StoresKept z (restartCmd why src s) := by
  unfold restartCmd; (repeat' split) <;> exact hk

theorem retryCmd_stores (src : Source) (s : State) (hk : StoresKept z s) : StoresKept z (retryCmd src s) := by
  unfold retryCmd; (try dsimp only)
  repeat' first | with_reducible assumption | with_reducible apply stores_set | with_reducible apply bootResult_stores | with_reducible apply restartAs_stores | with_reducible apply stores_fold | split | simp only [stores_mk] | dsimp only | simp only [State.set_same, State.inc_same, State.add_same]

theorem loadCmd_stores (src : Source) (s : State) (hk : StoresKept z s) : StoresKept z (loadCmd src s) := by
  unfold loadCmd; (try dsimp only)
  repeat' first | with_reducible assumption | with_reducible apply stores_set | with_reducible apply bootResult_stores | with_reducible apply trySlots_stores | with_reducible apply stores_fold | split | simp only [stores_mk] | dsimp only | simp only [State.set_same, State.inc_same, State.add_same]

theorem imageMessage_stores (s : State) (l : Nat) (b : List Byte) (hk : StoresKept z s) : StoresKept z (imageMessage s l b) := by
  exact stores_congr hk (by simp) (by simp)

theorem sendImage_stores (s : State) (link : Nat) (hk : StoresKept z s) : StoresKept z (sendImage s link) := by
  exact stores_congr hk (by simp) (by simp)

theorem keyResult_stores (s : State) (r : Nat) (hk : StoresKept z s) : StoresKept z (keyResult s r) := by
  exact stores_congr hk (by simp) (by simp)

theorem putKeys_stores (s : State) (ks : List (Nat × List Byte)) (hk : StoresKept z s) : StoresKept z (putKeys s ks) := by
  exact stores_congr hk (by simp) (by simp)

theorem enrolKey_stores (s : State) (b : List Byte) (hk : StoresKept z s) : StoresKept z (enrolKey s b) := by
  exact stores_congr hk (by simp) (by simp)

theorem revokeKey_stores (s : State) (b : List Byte) (hk : StoresKept z s) : StoresKept z (revokeKey s b) := by
  exact stores_congr hk (by simp) (by simp)

theorem applyKey_stores (src : Source) (s : State) (hk : StoresKept z s) : StoresKept z (applyKey src s) := by
  exact stores_congr hk (by simp) (by simp)

theorem debugResult_stores (s : State) (r : Nat) (hk : StoresKept z s) : StoresKept z (debugResult s r) := by
  exact stores_congr hk (by simp) (by simp)

theorem challengeCmd_stores (src : Source) (s : State) (hk : StoresKept z s) : StoresKept z (challengeCmd src s) := by
  exact stores_congr hk (by simp) (by simp)

theorem respondCmd_stores (src : Source) (s : State) (hk : StoresKept z s) : StoresKept z (respondCmd src s) := by
  exact stores_congr hk (by simp) (by simp)

theorem powerResult_stores (s : State) (r : Nat) (hk : StoresKept z s) : StoresKept z (powerResult s r) := by
  exact stores_congr hk (by simp) (by simp)

theorem acceptEntry_stores (s : State) (kind : Nat) (hk : StoresKept z s) : StoresKept z (acceptEntry s kind) := by
  unfold acceptEntry; (try dsimp only)
  repeat' first | with_reducible assumption | with_reducible apply stores_set | with_reducible apply stores_fold | split | simp only [stores_mk] | dsimp only | simp only [State.set_same, State.inc_same, State.add_same]

theorem entryCmd_stores (kind : Nat) (src : Source) (s : State) (hk : StoresKept z s) : StoresKept z (entryCmd kind src s) := by
  unfold entryCmd; (try dsimp only)
  repeat' first | with_reducible assumption | with_reducible apply acceptEntry_stores | with_reducible apply powerResult_stores | with_reducible apply stores_fold | split | simp only [stores_mk] | dsimp only | simp only [State.set_same, State.inc_same, State.add_same]

theorem cancelEntry_stores (src : Source) (s : State) (hk : StoresKept z s) : StoresKept z (cancelEntry src s) := by
  unfold cancelEntry; (try dsimp only)
  repeat' first | with_reducible assumption | with_reducible apply stores_set | with_reducible apply powerResult_stores | with_reducible apply stores_fold | split | simp only [stores_mk] | dsimp only | simp only [State.set_same, State.inc_same, State.add_same]

theorem beginWake_stores (s : State) (m : Nat) (hk : StoresKept z s) : StoresKept z (beginWake s m) := by
  exact stores_congr hk (by simp) (by simp)

theorem wakeEvent_stores (s : State) (m : Nat) (level : Bool) (hk : StoresKept z s) : StoresKept z (wakeEvent s m level) := by
  exact stores_congr hk (by simp) (by simp)

theorem linksDown_stores (s : State) (hk : StoresKept z s) : StoresKept z (linksDown s) := by
  exact stores_congr hk (by simp) (by simp)

theorem selfRefresh_stores (s : State) (on : Bool) (hk : StoresKept z s) : StoresKept z (selfRefresh s on) := by
  exact stores_congr hk (by simp) (by simp)

theorem enterPower_stores (s : State) (hk : StoresKept z s) : StoresKept z (enterPower s) := by
  exact stores_congr hk (by simp) (by simp)

theorem supplyError_stores (s : State) (hk : StoresKept z s) : StoresKept z (supplyError s) := by
  unfold supplyError; (try dsimp only)
  repeat' first | with_reducible assumption | with_reducible apply detect_stores | with_reducible apply stores_fold | split | simp only [stores_mk] | dsimp only | simp only [State.set_same, State.inc_same, State.add_same]

theorem commitWrite_stores (src : Source) (s : State) (hk : StoresKept z s) : StoresKept z (commitWrite src s).2 := by
  unfold commitWrite; (try dsimp only)
  repeat' first | with_reducible assumption | with_reducible apply stores_foldl | intro _ | with_reducible apply stores_fold | split | simp only [stores_mk] | dsimp only | simp only [State.set_same, State.inc_same, State.add_same]

theorem notOwner_stores (a : Nat) (s : State) (hk : StoresKept z s) : StoresKept z (notOwner a s) := by
  exact stores_congr hk (by simp) (by simp)

theorem disableLink_stores (s : State) (l : Nat) (hk : StoresKept z s) : StoresKept z (disableLink s l) := by
  exact stores_congr hk (by simp) (by simp)

theorem writeField_stores (a v : Nat) (s : State) (f : Field) (hk : StoresKept z s) : StoresKept z (writeField a v s f) := by
  unfold writeField; (try dsimp only)
  repeat' first | with_reducible assumption | with_reducible apply stores_set | with_reducible apply stores_fold | split | simp only [stores_mk] | dsimp only | simp only [State.set_same, State.inc_same, State.add_same]

theorem macsecWrite_stores (src : Source) (a : Nat) (w : Word) (s : State) (hk : StoresKept z s) : StoresKept z (macsecWrite src a w s).2 := by
  exact stores_congr hk (by simp) (by simp)

theorem answer_stores (s : State) (f : Frame) (addr count status fail : Nat) (words : List Nat) (hk : StoresKept z s) : StoresKept z (answer s f addr count status fail words) := by
  exact stores_congr hk (by simp) (by simp)

theorem senseFor_stores (s : State) (a n : Nat) (hk : StoresKept z s) : StoresKept z (senseFor s a n) := by
  exact stores_congr hk (by simp) (by simp)

theorem written_stores (src : Source) (s : State) {t : State} (hk : StoresKept z t) : StoresKept z (written src s t) := hk

end Sys2Proof.Machine
end

