-- ==== Sys2Proof/Tests/Slice0.lean ====
section
/-! SUPPORT. Tests of our own: commands that `WellFormed` refuses, results that the spec works out by hand, and for every statement of
Certificates/Slice0/Obligations.lean that has hypotheses a concrete state and operands that meet all of them together
(`test_witness_<statement>`, one conjunct for each of its clauses, at the edges of the clauses' ranges). -/

namespace Sys2Proof.Machine.Tests

/-! ## Helpers -/

/-- A state with the listed register fields set. -/
def rg (l : List (Field × Nat)) (s : State := {}) : State := l.foldl (fun s p => s.set p.1 p.2) s

/-- The owner, and a partition that is not. -/
def own : Source := .mgmt
def guest : Source := .sheaz 1 false false

/-- `n` bytes: 0 but for the listed ones. -/
def bytesOf (n : Nat) (bs : List (Nat × Nat)) : List Byte :=
  (List.range n).map fun j => ((bs.find? fun p => p.1 == j).map fun p => BitVec.ofNat 8 p.2).getD 0

/-- A section of `n` bytes. -/
def sect (ty cnt n : Nat) (bs : List (Nat × Nat)) : Sec := ⟨ty, 0, cnt, bytesOf n bs⟩

/-- An image of the listed sections. -/
def img (l : List Sec) : Image := ⟨l, 0, []⟩
def img0 : Image := img []

/-- The device with an image loaded. -/
def live (i : Image := img0) : State := { cfg := { image := some i } }

/-- No source cell changed between equal snapshots. -/
theorem same_region (i : Image) (w : WorldSt) (l p : Nat) (h : w.prev = w.snap := by rfl) (hs : w.shift = (0, 0, 0) := by rfl)
    (ha : w.allChanged = false := by rfl) : distNeeded i w l p = false := by
  have e : ∀ x : List Nat, (x.any fun _ => false) = false := by simp
  simp only [distNeeded, regionChanged, h, hs, ha, ne_eq, not_true_eq_false, decide_false, e, Bool.or_self]

/-- A sound frame without a tag. -/
def fr (ty p port : Nat) (payload : List Byte := []) (seq : Word := 1) : Frame :=
  { port, linkOk := true, headerOk := true, addrOk := true, ty, partition := p, stream := 0, epoch := 0, seq, header := [], wire := 0
    flags := 0, payload, tagOk := false, tagOldOk := false }

/-- An image with one partition, on port 0, that may have one job. -/
def parts (p : Nat := 0) (flags : Nat := 0) (more : List Sec := []) : Image :=
  img (sect 0xE 1 48 [(0, 1), (16, p), (17, flags), (18, 1), (24, 1), (30, 1), (41, 1)] :: more)

/-- The device out of reset with an image. -/
def up (i : Image := parts) : State := { live i with pins := { resetN := true } }

/-- A JOB_SUBMIT payload of one fragment. -/
def jobFrame (b : List Byte) : Frame := fr 1 0 0 ([0, 0, 1, 0, 0, 0, 0, 0, 0, 0, 0, BitVec.ofNat 8 b.length, 0, 0, 0, 0] ++ b)

/-- The fragment set that it completes. -/
def staged (b : List Byte) : Staging := { partition := 0, jobId := 0, total := b.length, frags := 1, got := [(0, b)] }

/-- A job of partition 0. -/
def job (kind state : Nat) (iter : Option Iterate := none) : Job :=
  { partition := 0, id := 0, kind, priority := 0, maxMs := 0, quota := 0, body := [], startEpoch := 0, state, status := 0, work := 0, out := []
    engine := none, iter, iterations := 0, checkpoints := [], finishedAt := 0 }

/-- A list of one value under every key reads as that value. -/
theorem sGet_fill {α : Type} (d x : α) (k : Nat) : ∀ l : List Nat, k ∈ l → sGet d k (l.map fun j => (j, x)) = x
  | [], h => by cases h
  | j :: l, h => by
    simp only [List.map_cons, sGet]
    split
    · rfl
    · exact sGet_fill d x k l (by grind)

/-- The first `n` descriptors of tile 0 are bound. -/
def boundTo (n : Nat) : State := { live with jig := { descs := (List.range n).map fun j => (j, { state := 1 }) } }

theorem boundTo_desc (n d : Nat) (h : d < n) : (boundTo n).desc 0 d = { state := 1 } := by
  unfold State.desc descKey
  rw [Nat.mul_zero, Nat.zero_add]
  exact sGet_fill _ _ _ _ (List.mem_range.mpr h)

theorem full_bound : (boundTo 2048).freeDesc 0 = none := by
  simp only [State.freeDesc, List.find?_eq_none]
  intro d h
  rw [boundTo_desc _ _ (List.mem_range.mp h)]
  decide

/-- A descriptor of tile 0. -/
def task (k : TaskKind) (state : Nat) : State := { live with jig := { descs := [(0, { kind := k, state })] } }

/-- A refine in progress. -/
def run (engine : Nat := 0) (stopped : Bool := false) (cand : Option Traj := none) (second : Option Nat := none) : RefineRun :=
  { id := 0x80000000, flags := 0, cand, refClamped := false, engine, second, cold := true, warmEpoch := none, start := ⟨[], 0, 0, 0⟩
    cur := ⟨[], 0, 0, 0⟩, iterations := 0, converged := false, stopped, replayed := false, differs := false }

/-- A frame in progress. -/
def inFrame (i : Image := img0) : State := { live i with frame := { inFrame := true } }

theorem reexpand_some (s : State) (i : Image) (id : Nat) (q : SearchSt) (p : PathRec) (h : 0x80000000 ≤ id) (hq : s.ledger.search = some q)
    (hp : (q.paths.find? fun p => p.node == id - 0x80000000) = some p) :
    reexpand s i id = some (expandPath i (s.bulk 0xA) q.shift p (s.t0 (epochOf s.frame.k) q.start)) := by
  simp [reexpand, h, hq, hp]

/-- A finished search with one path, and a refine of it. -/
def pathQ : SearchSt := ⟨0, 0, [], [], (0, 0, 0), [], [], [], [], 0, false, 0, 0, 1, [⟨0, 0, 0, []⟩], true, false⟩
def searched : State := { inFrame with solver := { run := some run }, ledger := { search := some pathQ } }

theorem path_known : ∃ c, reexpand searched img0 run.id = some c :=
  ⟨_, reexpand_some searched img0 run.id pathQ ⟨0, 0, 0, []⟩ (by decide) rfl (by decide)⟩

/-- Link 0 up in a given state, and a flit in its replay buffer. -/
def lk (x : LinkSt := {}) : State := rg [(Reg.TENON_LINK_STATUS.STATE 0, 2)] { tenon := { links := [(0, x)] } }
def sent (seq : Nat) : SentFlit := { seq, pool := 0, flit := ⟨1, 0, 0, 0, []⟩ }

/-- A sound flit. -/
def flit (ty vc : Nat) : Flit :=
  { codewordOk := true, corrected := false, crcOk := true, ty, vc, seq := 0, ack := 0, pool := 4, count := 0, flags := 0 }

/-- A sound message on link 0. -/
def msg (dest : Nat) (body : List Byte := []) (intact : Bool := true) : Message :=
  { link := 0, dest, source := 0, epoch := 0, intact, agrees := true, speculative := false, resent := false, body }

/-- A device strapped into a chain: 1 head, 2 middle. -/
def chain (role : Nat) (s : State := {}) : State := rg [(Reg.SAFE_SP_STRAPS.ROLE, role)] s

/-- A BLOCK body of block 0 of tensor 0, all zero, with its dowel. -/
def blockData : List Byte := List.replicate 4096 0
def blockBody : List Byte := [0, 0, 0, 0, 0, 0, 0, 0] ++ leBytes (dowel blockData 0 0).toNat 8 ++ blockData

theorem blockBody_data : blockData = (blockBody.drop 16).take 4096 := by
  have h : blockBody.drop 16 = blockData := by simp [blockBody, leBytes]
  rw [h, blockData, List.take_replicate, Nat.min_self]

theorem blockBody_dowel : u64 blockBody 8 = (dowel blockData 0 (0 : Epoch).toNat).toNat := by
  have e : ∀ v : Nat, v < 2 ^ 64 → ∀ r, u64 ([0, 0, 0, 0, 0, 0, 0, 0] ++ leBytes v 8 ++ r) 8 = v := by
    intro v h r
    simp [u64, le, leBytes, byteAt]
    omega
  exact e _ (dowel blockData 0 0).isLt _

/-- An error in the handler. -/
def busy (e : ErrorInfo) (queue : List Handling := []) : State := { fault := { handling := some ⟨e, 0, 0⟩, queue } }

/-- A unit in a given state, with the token of its test held or not. -/
def unitIs (cls idx : Nat) (u : UnitSt) (runs : Bool := false) : State :=
  { fault := { units := [(256 * cls + idx, u)], tokens := if runs then [testToken cls idx] else [] } }

/-! ## Commands that `WellFormed` refuses, one for each check -/

/-- a source of a partition that does not exist; a register address beyond 32 bits; a port; a link; a tile; a descriptor; a layer; a panel; a device; a unit class; a unit index; a frame type; a frame whose payload is no whole number of words; an error class; a syndrome: each out of its range. -/
theorem test_ill_formed_1 : ([
    .hold (.sheaz 8 false false),
    .regaccRead (2 ^ 32),
    .energyDetect 4,
    .linkLoss 4,
    .dozeEntry 36,
    .taskComplete 0 2048,
    .panelFinal 16 0,
    .panelFinal 0 (2 ^ 17),
    .clamp 0 4096,
    .fieldTestDue 12 0,
    .fieldTestDue 0 64,
    .wakeFrame (fr 257 0 0),
    .wakeFrame { fr 0 0 0 [0] with header := List.replicate 32 0 },
    .errorDetected ⟨0, 0, 4, 0, [], 0, none⟩,
    .errorDetected ⟨0, 0, 0, 0, List.replicate 33 0, 0, none⟩] : List Instr).all (fun c => !c.wf) = true := by decide

/-- a flit channel; a message; a chain device; a placement; a chain side; a boot report; a stage; a job; a job number; a quiesce mask; a quiesce block; a bulk section type; a stage reserve; a bank; a mechanism: each out of its range. -/
theorem test_ill_formed_2 : ([
    .flitReceive 0 (flit 0 4),
    .blockMessage (msg 4096),
    .enumReply 0 0 0 0 [⟨0, 4, 0, []⟩],
    .enum 0 0 0 0 (some ⟨4096, 0, 0, 0, 0, none, [], [], [], [], 0, 0⟩),
    .enum 0 0 0 4 none,
    .coldStart ⟨true, true, true, true, true, [(12, 4)], none⟩,
    .taskCreate 0 (.stage 10 0) false 0 false,
    .jobStart 8 0,
    .jobStart 0 (2 ^ 32),
    .quiesceRequest own (2 ^ 32),
    .blockQuiesced 15,
    .bulkFetchDone 65536 none,
    .taskDispatch 0 10 0,
    .panelReadDone 0 0 0 0 12 true,
    .orderError 256 true] : List Instr).all (fun c => !c.wf) = true := by decide

/-- a strap word; a bus edge; a wake pin; an ARP target; an acknowledgement; a squash cause; a digest; a remote count; a replay record; an outcome; a stack; a ledger group; an island; a throttle cause; a rail: each out of its range. -/
theorem test_ill_formed_3 : ([
    .strapCapture 65536,
    .busRead 0 true true 3,
    .wakePin 8 true,
    .arpNdRequest 0 true [1, 2, 3, 4] [],
    .nak 0 1024,
    .squashToken 0 0 256,
    .digestToken 0 0 (2 ^ 64) 0 false false 0,
    .remoteRead own 16,
    .replayEpoch [] 0 [],
    .errorHandled 5 0,
    .hbmScrub 2,
    .ledgerScrub 4,
    .idleEntry 54,
    .throttleStepDown 3,
    .railFault 0] : List Instr).all (fun c => !c.wf) = true := by decide

/-- The same checks accept operands at the edges of their ranges. -/
theorem test_well_formed : ([
    .hold (.sheaz 7 false false), .regaccRead (2 ^ 32 - 1), .energyDetect 3, .linkLoss 3, .dozeEntry 35, .taskComplete 35 2047,
    .panelFinal 15 (2 ^ 17 - 1), .clamp 3 4095, .fieldTestDue 11 63, .blockQuiesced 14, .railFault 8, .nak 3 1023, .idleWake 53] : List Instr).all
    (fun c => c.wf) = true := by decide

/-! ## Results that the spec works out -/

/-- The words of the opcode table spell no command: the table gives no row bits, and a queue takes none from a word. -/
theorem test_no_command_words : decodeTableWord 32 0 = none ∧ (State.reset.withFetchWord 32 5 = State.reset) := by decide

/-- The example of R10 and R11: a 64-bit time over four Setpoint channels, least significant part first. -/
theorem test_time_over_channels : (List.range 4).map (fun c => u16 (leBytes 0x000000012A05F200 8) (2 * c)) = [0xF200, 0x2A05, 1, 0] := by decide

/-- The example of R119 and R120: 1.5 * (-2.25), and a sum beyond the range. -/
theorem test_q16_16 : qMul 0x18000 (signed 32 0xFFFDC000) = ⟨signed 32 0xFFFCA000, false⟩ ∧ qAdd 0x7FFF8000 0x10000 = ⟨0x7FFFFFFF, true⟩ := by decide

/-- The example of Table 4-5: 5.0, 0.3, -1.25 and 2.5 with scale 0x7F are 0x6, 0x1, 0xA and 0x4 of E2M1, here read back. -/
theorem test_mxfp4 : [0x6, 0x1, 0xA, 0x4].map (fun p => mxToF32 p 0x7F) = [f32Of 4, f32Of 1 2, f32Of (-1), f32Of 2] := by decide +kernel

/-- The example of R114: the tree gives 1 where a left-to-right sum gives 0. -/
theorem test_tree_order :
    dot114 4 (fun k => [f32Of 4096, f32Of 1, f32Of 1, f32Of (-4096)].getD k 0) (fun k => [f32Of 4096, f32Of 1, f32Of 1, f32Of 4096].getD k 0) =
      f32Of 1 := by decide +kernel

/-- The bound 0.9 of STEP_FRAC (R626). -/
theorem test_nearest_bound : f32Of 9 10 = 0x3F666666 := by decide +kernel

/-- The entries of Table 10-5. -/
def entriesOf (src : Nat) (l : List (Nat × Nat)) : List PEntry :=
  l.map fun p => { id := p.2, score := BitVec.ofNat 32 p.1, flags := 0, src, eflags := 0, minc := 0 }
def lists105 : List PList := [
  { emptyList 0 with entries := entriesOf 0 [(0x3FC00000, 0x100), (0x40000000, 0x42), (0x40000000, 0x40000003), (0x40500000, 0x900)], offered := 4 },
  { emptyList 1 with entries := entriesOf 1 [(0x80000000, 0x80000011), (0x40000000, 7), (0x40000000, 0x42), (0x7FC00000, 0xA00)], offered := 4, nanOffered := 1 },
  { emptyList 2 with entries := entriesOf 2 [(0, 5), (0x40000000, 0x10), (0x40000000, 0x40000001)], offered := 3 }]

/-- The merge of Tables 10-5 and 10-6. -/
theorem test_selection : (selectionOf 4 0 lists105 false false).1.entries.map (fun e => (e.id, e.score.toNat, e.src)) =
      [(5, 0, 2), (0x80000011, 0x80000000, 1), (0x100, 0x3FC00000, 0), (7, 0x40000000, 1)] ∧
    (let h := (selectionOf 4 0 lists105 false false).1
     (h.n, h.flags, h.tieCount, h.nanCount, h.lists) = (4, 2, 4, 1, 3)) := by decide +kernel

/-- The example strap word (chapter 15): board 0xA, warm start, external oscillator, no debug, the port enabled, 10 Gb/s, side A, head, Chest. -/
def strapped : State := match exec (.strapCapture 0xA9D4) { sec := { rising := true } } with
  | .next t => t
  | _ => {}
theorem test_strap_word :
    [strapped.get Reg.SAFE_SP_STRAPS.ADDRESS, strapped.get Reg.SAFE_SP_STRAPS.WARM, strapped.get Reg.SAFE_SP_STRAPS.REF, strapped.get Reg.SAFE_SP_STRAPS.DEBUG,
      strapped.get Reg.SAFE_SP_STRAPS.SP_ENABLE, strapped.get Reg.SAFE_SP_STRAPS.RATE, strapped.get Reg.SAFE_SP_STRAPS.PAIR,
      strapped.get Reg.SAFE_SP_STRAPS.ROLE, strapped.get Reg.SAFE_SP_STRAPS.BOOT, strapped.get Reg.SAFE_SP_STATUS.STRAP_ERROR] =
    [0xA, 1, 0, 0, 1, 3, 1, 1, 0, 0] := by decide +kernel

/-- The discovery example (chapter 22): an HN824-A with one bad tile and one HBM channel retired, at step 10 of its cold start (the rate
that training finds at step 9 is free). Offset 0x1C holds no register. -/
def discovered : State :=
  fixIdent (applyDie { die := { part := 1, list := List.range 24, tiles := 2 ^ 35 - 1, channels := 2 ^ 32 - 1, links := 3, ports := 12 }
                       fault := { retired := [(5, 4)] } })
theorem test_discovery :
    [0, 4, 8, 0xC, 0x24, 0x28, 0x2C].map discovered.word = [0x08240110, 0x00010000, 0x18F, 0xB18, 0, 0x90000000, 5] ∧ fieldsAt 0x1C = none := by decide +kernel

/-! ## Witnesses: a state and operands that meet the hypotheses of each clause of a statement -/


theorem test_witness_TimeBaseCorrections :
    (∃ (delta : Int), ∃ (s : State), s.registersWf = true ∧ s.flag Reg.FRAME_STATUS.HOLDOVER = false ∧ s.ownTime = true ∧ 4 * delta.natAbs < s.periodNs) ∧
    (∃ (delta : Int), ∃ (s : State), s.registersWf = true ∧ s.flag Reg.FRAME_STATUS.HOLDOVER = false ∧ s.ownTime = true ∧ s.periodNs ≤ 4 * delta.natAbs) ∧
    (∃ (s : State), s.registersWf = true ∧ (s.flag Reg.FRAME_STATUS.HOLDOVER = true ∨ s.ownTime = false)) ∧
    (∃ (s : State), s.registersWf = true) ∧
    (∃ (s : State), s.registersWf = true ∧ s.flag Reg.FRAME_STATUS.HOLDOVER = true ∧ s.ownTime = true) :=
  ⟨⟨0, rg [(Reg.FRAME_PERIOD.PERIOD_US, 1000)], by decide⟩,
   ⟨-250000, rg [(Reg.FRAME_PERIOD.PERIOD_US, 1000)], by decide⟩,
   ⟨rg [(Reg.FRAME_STATUS.HOLDOVER, 1)], by decide⟩,
   ⟨{}, by decide⟩,
   ⟨rg [(Reg.FRAME_STATUS.HOLDOVER, 1)], by decide⟩⟩

theorem test_witness_FrameStartOpensEpoch :
    (∃ (s : State), ∃ (img : Image), ∃ (k : Nat), s.registersWf = true ∧ s.cfg.image = some img ∧ s.mayStart k = true) ∧
    (∃ (s : State), ∃ (img : Image), ∃ (k : Nat), s.registersWf = true ∧ s.cfg.image = some img ∧ s.mayStart k = false) ∧
    (∃ (s : State), ∃ (img : Image), s.registersWf = true ∧ s.cfg.image = some img ∧ s.frame.inFrame = true ∧ s.world.active = true ∧ s.world.closed = false) :=
  ⟨⟨{ live with frame := { running := true } }, img0, 0, by decide⟩,
   ⟨live, img0, 0, by decide⟩,
   ⟨{ live with frame := { inFrame := true }, world := { active := true, closed := false } }, img0, by decide⟩⟩

theorem test_witness_StructSwitchIsTakenOrRefused :
    (∃ (src : Source), ∃ (s : State), s.registersWf = true ∧ s.isOwner src = false) ∧
    (∃ (src : Source), ∃ (s : State), s.registersWf = true ∧ s.isOwner src = true ∧ s.cfg.image = none) ∧
    (∃ (src : Source), ∃ (s : State), s.registersWf = true ∧ s.isOwner src = true ∧ s.cfg.image.isSome = true) :=
  ⟨⟨guest, {}, by decide⟩,
   ⟨own, {}, by decide⟩,
   ⟨own, live, by decide⟩⟩

theorem test_witness_HoldAndResume :
    (∃ (src : Source), ∃ (s : State), s.registersWf = true ∧ s.isOwner src = false) ∧
    (∃ (src : Source), ∃ (s : State), s.registersWf = true ∧ s.isOwner src = true ∧ s.cfg.image.isSome = true ∧ s.cfg.firstStarted = true ∧ s.switching = false ∧ s.unsettled = false ∧ s.frame.running = true ∧ s.fault.tokens.any (conflicts switchToken) = false) ∧
    (∃ (src : Source), ∃ (s : State), s.registersWf = true ∧ s.isOwner src = true ∧ s.cfg.image.isSome = true ∧ s.cfg.firstStarted = false ∧ s.switching = false ∧ s.frame.running = true ∧ s.fault.tokens.any (conflicts switchToken) = false) ∧
    (∃ (src : Source), ∃ (s : State), s.registersWf = true ∧ s.isOwner src = true ∧ s.cfg.held = true ∧ s.pathQuiesced = false ∧ s.digest.replay = none) :=
  ⟨⟨guest, {}, by decide⟩,
   ⟨own, rg [(Reg.SAFE_MODE.MODE, 0)] { frame := { running := true }, cfg := { image := some img0, firstStarted := true } }, by decide⟩,
   ⟨own, { live with frame := { running := true } }, by decide⟩,
   ⟨own, { cfg := { held := true } }, by decide⟩⟩

theorem test_witness_ResumeRefusedWhileQuiesced : (∃ (src : Source), ∃ (s : State), s.registersWf = true ∧ s.isOwner src = true ∧ s.cfg.held = true ∧ s.pathQuiesced = true) := ⟨own, rg [(Reg.CONFIG_QUIESCE_REQ.REQ, 8192)] { cfg := { held := true } }, by decide⟩

theorem test_witness_CancelEndsSwitchBeforeDrain :
    (∃ (src : Source), ∃ (s : State), s.registersWf = true ∧ s.isOwner src = true ∧ s.get Reg.CONFIG_SWITCH_STATUS.PHASE ∈ [1, 2] ∧ s.cfg.drainFor ≤ 1) ∧
    (∃ (src : Source), ∃ (s : State), s.registersWf = true ∧ s.isOwner src = true ∧ s.get Reg.CONFIG_SWITCH_STATUS.PHASE ∈ [3, 4, 5, 6]) :=
  ⟨⟨own, rg [(Reg.CONFIG_SWITCH_STATUS.PHASE, 2)] { cfg := { drainFor := 1 } }, by decide⟩,
   ⟨own, rg [(Reg.CONFIG_SWITCH_STATUS.PHASE, 3)], by decide⟩⟩

theorem test_witness_SwitchRunsToItsReload :
    (∃ (s : State), ∃ (run : Image), ∃ (i : Image), s.registersWf = true ∧ s.cfg.image = some run ∧ s.get Reg.CONFIG_SWITCH_STATUS.PHASE = 1 ∧ s.cfg.next = some i ∧ bulkBytes run + partBytes run + bulkBytes i ≤ s.hbmAvailable) ∧
    (∃ (s : State), ∃ (run : Image), ∃ (i : Image), s.registersWf = true ∧ s.cfg.image = some run ∧ s.get Reg.CONFIG_SWITCH_STATUS.PHASE = 1 ∧ s.cfg.next = some i ∧ s.hbmAvailable < bulkBytes run + partBytes run + bulkBytes i) ∧
    (∃ (s : State), ∃ (run : Image), s.registersWf = true ∧ s.cfg.image = some run ∧ s.get Reg.CONFIG_SWITCH_STATUS.PHASE = 1 ∧ s.cfg.next = none ∧ s.cfg.loading = none) ∧
    (∃ (s : State), ∃ (run : Image), s.registersWf = true ∧ s.cfg.image = some run ∧ s.frame.inFrame = true ∧ s.frame.drain = true ∧ s.cfg.drainFor = 1) ∧
    (∃ (s : State), ∃ (run : Image), s.registersWf = true ∧ s.cfg.image = some run ∧ s.frame.inFrame = true ∧ s.frame.drain = true ∧ s.cfg.drainFor = 2) ∧
    (∃ (s : State), ∃ (run : Image), s.registersWf = true ∧ s.cfg.image = some run ∧ s.frame.inFrame = true ∧ s.frame.drain = true ∧ (s.cfg.drainFor = 3 ∨ s.cfg.drainFor = 4)) ∧
    (∃ (s : State), ∃ (run : Image), ∃ (i : Image), s.registersWf = true ∧ s.cfg.image = some run ∧ s.get Reg.CONFIG_SWITCH_STATUS.PHASE = 4 ∧ s.cfg.next = some i) :=
  ⟨⟨rg [(Reg.CONFIG_SWITCH_STATUS.PHASE, 1)] { cfg := { image := some img0, next := some img0 } }, img0, img0, by decide⟩,
   ⟨rg [(Reg.CONFIG_SWITCH_STATUS.PHASE, 1)] { cfg := { image := some (img [sect 0xE 1 48 [(0, 1), (0x2F, 1)]]), next := some img0 } }, img [sect 0xE 1 48 [(0, 1), (0x2F, 1)]], img0, by decide⟩,
   ⟨rg [(Reg.CONFIG_SWITCH_STATUS.PHASE, 1)] live, img0, by decide⟩,
   ⟨{ cfg := { image := some img0, drainFor := 1 }, frame := { inFrame := true, drain := true } }, img0, by decide⟩,
   ⟨{ cfg := { image := some img0, drainFor := 2 }, frame := { inFrame := true, drain := true } }, img0, by decide⟩,
   ⟨{ cfg := { image := some img0, drainFor := 4 }, frame := { inFrame := true, drain := true } }, img0, by decide⟩,
   ⟨rg [(Reg.CONFIG_SWITCH_STATUS.PHASE, 4)] { cfg := { image := some img0, next := some img0 } }, img0, img0, by decide⟩⟩

theorem test_witness_SlotOpenErasesTheTarget :
    (∃ (s : State), ∃ (src : Source), s.registersWf = true ∧ s.isOwner src = true ∧ s.get Reg.CONFIG_SLOT_STATUS.BUSY = 0) ∧
    (∃ (s : State), ∃ (src : Source), s.registersWf = true ∧ s.isOwner src = false) ∧
    (∃ (s : State), ∃ (i : Nat), s.registersWf = true ∧ s.cfg.writing = some i ∧ s.cfg.chestBusy = 1) ∧
    (∃ (s : State), ∃ (i : Nat), s.registersWf = true ∧ s.cfg.writing = some i ∧ s.cfg.chestBusy = 1) :=
  ⟨⟨{}, own, by decide⟩,
   ⟨{}, guest, by decide⟩,
   ⟨{ cfg := { writing := some 1, chestBusy := 1 } }, 1, by decide⟩,
   ⟨{ cfg := { writing := some 0, chestBusy := 1 } }, 0, by decide⟩⟩

theorem test_witness_DataBlockOrderAndRange :
    (∃ (src : Source), ∃ (s : State), s.registersWf = true ∧ s.isOwner src = true ∧ s.get Reg.CONFIG_SLOT_STATUS.BUSY = 0 ∧ s.cfg.writing = none) ∧
    (∃ (src : Source), ∃ (s : State), s.registersWf = true ∧ s.isOwner src = true ∧ s.get Reg.CONFIG_SLOT_STATUS.BUSY = 0 ∧ s.cfg.writing.isSome = true ∧ (s.get Reg.CONFIG_SLOT_WOFFSET.WOFFSET % 4096 ≠ 0 ∨ (∃ p, s.cfg.lastBlock = some p ∧ s.get Reg.CONFIG_SLOT_WOFFSET.WOFFSET ≤ p))) ∧
    (∃ (src : Source), ∃ (s : State), s.registersWf = true ∧ s.isOwner src = true ∧ s.get Reg.CONFIG_SLOT_STATUS.BUSY = 0 ∧ s.cfg.writing.isSome = true ∧ s.get Reg.CONFIG_SLOT_WOFFSET.WOFFSET % 4096 = 0 ∧ (∀ p, s.cfg.lastBlock = some p → p < s.get Reg.CONFIG_SLOT_WOFFSET.WOFFSET) ∧ 67104768 < s.get Reg.CONFIG_SLOT_WOFFSET.WOFFSET + 4096) ∧
    (∃ (src : Source), ∃ (s : State), s.registersWf = true ∧ s.isOwner src = true ∧ s.get Reg.CONFIG_SLOT_STATUS.BUSY = 0 ∧ s.cfg.writing.isSome = true ∧ s.get Reg.CONFIG_SLOT_WOFFSET.WOFFSET % 4096 = 0 ∧ (∀ p, s.cfg.lastBlock = some p → p < s.get Reg.CONFIG_SLOT_WOFFSET.WOFFSET) ∧ s.get Reg.CONFIG_SLOT_WOFFSET.WOFFSET + 4096 ≤ 67104768) :=
  ⟨⟨own, {}, by decide⟩,
   ⟨own, rg [(Reg.CONFIG_SLOT_WOFFSET.WOFFSET, 4096)] { cfg := { writing := some 0, lastBlock := some 4096 } }, by decide, by decide, by decide, by decide, (Or.inr ⟨4096, by decide, by decide⟩)⟩,
   ⟨own, rg [(Reg.CONFIG_SLOT_WOFFSET.WOFFSET, 67104768)] { cfg := { writing := some 0 } }, by decide, by decide, by decide, by decide, by decide, (by intro p h; cases h), by decide⟩,
   ⟨own, rg [(Reg.CONFIG_SLOT_WOFFSET.WOFFSET, 67100672)] { cfg := { writing := some 0 } }, by decide, by decide, by decide, by decide, by decide, (by intro p h; cases h), by decide⟩⟩

theorem test_witness_BlockProgrammedStoresTheWindow :
    (∃ (s : State), ∃ (i : Nat), ∃ (o : Nat), s.registersWf = true ∧ s.memoryWf = true ∧ s.cfg.writing = some i ∧ s.cfg.lastBlock = some o ∧ s.cfg.chestBusy = 2) ∧
    (∃ (s : State), ∃ (i : Nat), ∃ (src : Source), s.registersWf = true ∧ s.memoryWf = true ∧ s.cfg.writing = some i ∧ s.isOwner src = true ∧ s.get Reg.CONFIG_SLOT_STATUS.BUSY = 0) :=
  ⟨⟨{ cfg := { writing := some 1, lastBlock := some 0, chestBusy := 2 } }, 1, 0, by decide⟩,
   ⟨{ cfg := { writing := some 1 } }, 1, own, by decide⟩⟩

theorem test_witness_CloseCompletesOnlyAVerifiedSlot :
    (∃ (s : State), ∃ (i : Nat), s.registersWf = true ∧ s.cfg.writing = some i ∧ s.cfg.chestBusy = 3) ∧
    (∃ (s : State), ∃ (i : Nat), ∃ (src : Source), s.registersWf = true ∧ s.cfg.writing = some i ∧ s.isOwner src = true ∧ s.get Reg.CONFIG_SLOT_STATUS.BUSY = 0) :=
  ⟨⟨{ cfg := { writing := some 1, chestBusy := 3 } }, 1, by decide⟩,
   ⟨{ cfg := { writing := some 1 } }, 1, own, by decide⟩⟩

theorem test_witness_QuiesceRequests :
    (∃ (s : State), ∃ (src : Source), ∃ (m : Nat), s.registersWf = true ∧ s.isOwner src = true ∧ m < 2 ^ 15) ∧
    (∃ (s : State), ∃ (src : Source), s.registersWf = true ∧ s.isOwner src = false) ∧
    (∃ (s : State), ∃ (b : Nat), s.registersWf = true ∧ b < 15 ∧ bitOf (s.get Reg.CONFIG_QUIESCE_REQ.REQ) b = true ∧ s.mayQuiesce b = true) ∧
    (∃ (s : State), ∃ (b : Nat), s.registersWf = true ∧ b < 15 ∧ framePathBlocks.contains b = true ∧ s.cfg.held = false) ∧
    (∃ (s : State), ∃ (b : Nat), s.registersWf = true ∧ 15 ≤ b) :=
  ⟨⟨{}, own, 32767, by decide⟩,
   ⟨{}, guest, by decide⟩,
   ⟨rg [(Reg.CONFIG_QUIESCE_REQ.REQ, 8192)] { cfg := { held := true } }, 13, by decide⟩,
   ⟨{}, 13, by decide⟩,
   ⟨{}, 15, by decide⟩⟩

theorem test_witness_CaptureAndReplay :
    (∃ (s : State), ∃ (src : Source), s.registersWf = true ∧ s.isOwner src = true) ∧
    (∃ (s : State), ∃ (src : Source), ∃ (c : Instr), s.registersWf = true ∧ c ∈ [Instr.checkpoint src, .capClear src, .replayMain src, .replayFull src, .replayAbort src] ∧ s.isOwner src = false) ∧
    (∃ (s : State), ∃ (src : Source), ∃ (scope : Nat), ∃ (c : Instr), s.registersWf = true ∧ (scope, c) ∈ [(1, Instr.replayMain src), (2, .replayFull src)] ∧ s.isOwner src = true ∧ s.mayReplay scope = false) ∧
    (∃ (s : State), ∃ (src : Source), ∃ (scope : Nat), ∃ (c : Instr), ∃ (img : Image), s.registersWf = true ∧ (scope, c) ∈ [(1, Instr.replayMain src), (2, .replayFull src)] ∧ s.isOwner src = true ∧ s.cfg.image = some img ∧ s.mayReplay scope = true) ∧
    (∃ (s : State), ∃ (r : ReplaySt), ∃ (src : Source), s.registersWf = true ∧ s.digest.replay = some r ∧ s.isOwner src = true) ∧
    (∃ (s : State), ∃ (r : ReplaySt), ∃ (x : RingRec), s.registersWf = true ∧ s.digest.replay = some r ∧ s.recordAt r.at_ = some x ∧ (x.ok = false ∨ r.last ≠ some (x.epoch - 1))) ∧
    (∃ (s : State), ∃ (r : ReplaySt), ∃ (x : RingRec), s.registersWf = true ∧ s.digest.replay = some r ∧ s.recordAt r.at_ = some x ∧ x.ok = true ∧ r.last = some (x.epoch - 1) ∧ u16 x.body paramBytes % 2 = 0) :=
  ⟨⟨{}, own, by decide⟩,
   ⟨{}, guest, .replayAbort guest, by decide⟩,
   ⟨{}, own, 1, .replayMain own, by decide⟩,
   ⟨rg [(Reg.SAFE_MODE.MODE, 0)] { cfg := { image := some img0, held := true } }, own, 2, .replayFull own, img0, by decide⟩,
   ⟨{ digest := { replay := some { scope := 1, at_ := 0, last := some 0, count := 0 } } }, { scope := 1, at_ := 0, last := some 0, count := 0 }, own, by decide⟩,
   ⟨(putRecord (rg [(Reg.DIGEST_CAP_CTL.SIZE_MB, 1)] { digest := { replay := some { scope := 1, at_ := 0, last := none, count := 0 } } }) (ringRecord 1 1 [])), { scope := 1, at_ := 0, last := none, count := 0 }, ⟨1, 1, [], true, 64⟩, by decide +kernel⟩,
   ⟨(putRecord (rg [(Reg.DIGEST_CAP_CTL.SIZE_MB, 1)] { digest := { replay := some { scope := 1, at_ := 0, last := some 0, count := 0 } } }) (ringRecord 1 1 [])), { scope := 1, at_ := 0, last := some 0, count := 0 }, ⟨1, 1, [], true, 64⟩, by decide +kernel⟩⟩

theorem test_witness_LedgerAppliesAndCloses :
    (∃ (s : State), ∃ (img : Image), ∃ (b : List Byte), ∃ (t₀ : LedgerEpoch), ∃ (q : Trans), ∃ (rest : List Trans), s.registersWf = true ∧ s.cfg.image = some img ∧ s.roadmap = some b ∧ ledgerNext s = some t₀ ∧ s.ledger.queue = q :: rest ∧ q.epoch = t₀.epoch ∧ s.ledger.rebuild ≠ 6 ∧ s.ledger.dueCause t₀.epoch = 0 ∧ searchOwed s t₀.epoch = false) ∧
    (∃ (s : State), ∃ (img : Image), ∃ (b : List Byte), ∃ (t₀ : LedgerEpoch), s.registersWf = true ∧ s.cfg.image = some img ∧ s.roadmap = some b ∧ ledgerNext s = some t₀ ∧ t₀.sent = true ∧ (∀ q ∈ s.ledger.queue, q.epoch ≠ t₀.epoch) ∧ s.ledger.rebuild ≠ 6 ∧ s.ledger.dueCause t₀.epoch = 0 ∧ searchOwed s t₀.epoch = false) ∧
    (∃ (s : State), ∃ (img : Image), ∃ (b : List Byte), ∃ (t₀ : LedgerEpoch), s.registersWf = true ∧ s.cfg.image = some img ∧ s.roadmap = some b ∧ ledgerNext s = some t₀ ∧ t₀.sent = true ∧ (∀ q ∈ s.ledger.queue, q.epoch ≠ t₀.epoch) ∧ s.ledger.rebuild ≠ 6 ∧ s.ledger.dueCause t₀.epoch = 0 ∧ searchOwed s t₀.epoch = false ∧ s.spec.search = none) ∧
    (∃ (s : State), ∃ (img : Image), ∃ (b : List Byte), let e : Epoch := BitVec.ofNat 32 (s.get Reg.WORLD_SNAP_EPOCH.EPOCH); s.registersWf = true ∧ s.cfg.image = some img ∧ s.roadmap = some b ∧ s.rebuildReady e ≠ 0 ∧ searchOwed s e = false) ∧
    (∃ (s : State), ∃ (img : Image), ∃ (b : List Byte), let e : Epoch := BitVec.ofNat 32 (s.get Reg.WORLD_SNAP_EPOCH.EPOCH); s.registersWf = true ∧ s.cfg.image = some img ∧ s.roadmap = some b ∧ s.rebuildReady e ≠ 0 ∧ searchOwed s e = false ∧ s.spec.search = none) ∧
    (∃ (s : State), ∃ (img : Image), ∃ (b : List Byte), s.registersWf = true ∧ s.cfg.image = some img ∧ s.roadmap = some b) :=
  ⟨⟨{ live (img [sect 2 0 65 [(0x24, 1), (64, 5)]]) with ledger := { todo := [{ epoch := 1, sent := true }], queue := [⟨1, 0, false, 0, 1⟩] } }, (img [sect 2 0 65 [(0x24, 1), (64, 5)]]), [], { epoch := 1, sent := true }, ⟨1, 0, false, 0, 1⟩, [], by decide⟩,
   ⟨{ live (img [sect 2 0 65 [(0x24, 1), (64, 5)]]) with ledger := { todo := [{ epoch := 1, sent := true }] } }, (img [sect 2 0 65 [(0x24, 1), (64, 5)]]), [], { epoch := 1, sent := true }, by decide⟩,
   ⟨{ live (img [sect 2 0 65 [(0x24, 1), (64, 5)]]) with ledger := { todo := [{ epoch := 1, sent := true }] } }, (img [sect 2 0 65 [(0x24, 1), (64, 5)]]), [], { epoch := 1, sent := true }, by decide⟩,
   ⟨rg [(Reg.WORLD_SNAP_EPOCH.EPOCH, 1)] { live (img [sect 2 0 65 [(0x24, 1), (64, 5)]]) with ledger := { todo := [{ epoch := 1, sent := true }], rebuild := 5 } }, (img [sect 2 0 65 [(0x24, 1), (64, 5)]]), [], by decide⟩,
   ⟨rg [(Reg.WORLD_SNAP_EPOCH.EPOCH, 1)] { live (img [sect 2 0 65 [(0x24, 1), (64, 5)]]) with ledger := { todo := [{ epoch := 1, sent := true }], rebuild := 5 } }, (img [sect 2 0 65 [(0x24, 1), (64, 5)]]), [], by decide⟩,
   ⟨{ live (img [sect 2 0 65 [(0x24, 1), (64, 5)]]) with ledger := {  } }, (img [sect 2 0 65 [(0x24, 1), (64, 5)]]), [], by decide⟩⟩

theorem test_witness_SearchRunsFromItsClose :
    (∃ (s : State), ∃ (img : Image), ∃ (b : List Byte), ∃ (st : StartSt), s.registersWf = true ∧ s.cfg.image = some img ∧ s.roadmap = some b ∧ s.world.start = some st ∧ st.epoch = epochOf s.frame.k ∧ s.ledger.closed = some (epochOf s.frame.k) ∧ s.ledger.search = none ∧ s.frame.inFrame = true ∧ s.frame.searchOver = false ∧ s.ledger.late = false ∧ s.jig.searchCut = false) ∧
    (∃ (s : State), ∃ (img : Image), ∃ (b : List Byte), ∃ (x : SpecEp), ∃ (st : List Byte), s.registersWf = true ∧ s.cfg.image = some img ∧ s.roadmap = some b ∧ s.specTarget = some x ∧ x.start = some st ∧ s.ledger.closed.isSome = true ∧ x.search = none ∧ s.flag Reg.FRAME_SPEC_CTL.ENABLE = true) ∧
    (∃ (s : State), ∃ (img : Image), ∃ (b : List Byte), s.registersWf = true ∧ s.cfg.image = some img ∧ s.roadmap = some b) ∧
    (∃ (s : State), ∃ (img : Image), ∃ (b : List Byte), ∃ (x : SpecEp), s.registersWf = true ∧ s.cfg.image = some img ∧ s.roadmap = some b ∧ s.specTarget = some x) ∧
    (∃ (s : State), ∃ (img : Image), ∃ (b : List Byte), ∃ (q : SearchSt), s.registersWf = true ∧ s.cfg.image = some img ∧ s.roadmap = some b ∧ s.ledger.search = some q ∧ q.ended ≠ 0 ∧ q.emitted = false) ∧
    (∃ (s : State), ∃ (img : Image), ∃ (b : List Byte), ∃ (x : SpecEp), ∃ (q : SearchSt), s.registersWf = true ∧ s.cfg.image = some img ∧ s.roadmap = some b ∧ s.specTarget = some x ∧ x.search = some q ∧ q.ended ≠ 0 ∧ q.emitted = false) ∧
    (∃ (s : State), ∃ (img : Image), ∃ (b : List Byte), s.registersWf = true ∧ s.cfg.image = some img ∧ s.roadmap = some b ∧ wall img = true ∧ s.frame.inFrame = true ∧ s.frame.searchOver = false ∧ s.ledger.closed ≠ some (epochOf s.frame.k)) ∧
    (∃ (s : State), ∃ (img : Image), ∃ (b : List Byte), ∃ (q : SearchSt), s.registersWf = true ∧ s.cfg.image = some img ∧ s.roadmap = some b ∧ wall img = true ∧ s.frame.inFrame = true ∧ s.frame.searchOver = false ∧ s.ledger.closed = some (epochOf s.frame.k) ∧ s.ledger.search = some q ∧ q.epoch = epochOf s.frame.k ∧ q.ended = 0) :=
  ⟨⟨{ live (img [sect 2 0 65 [(0x24, 1), (64, 5)]]) with ledger := { closed := some 0 }, frame := { inFrame := true }, world := { start := some ⟨[], [], 0, false, false⟩ } }, (img [sect 2 0 65 [(0x24, 1), (64, 5)]]), [], ⟨[], [], 0, false, false⟩, by decide⟩,
   ⟨rg [(Reg.FRAME_SPEC_CTL.ENABLE, 1)] { live (img [sect 2 0 65 [(0x24, 1), (64, 5)]]) with ledger := { closed := some 0 }, spec := { epochs := [{ epoch := 1, base := 0, snap := [], shift := (0, 0, 0), start := some [], cands := [], records := [], blocks := [], search := none, done := [], full := false }] } }, (img [sect 2 0 65 [(0x24, 1), (64, 5)]]), [], { epoch := 1, base := 0, snap := [], shift := (0, 0, 0), start := some [], cands := [], records := [], blocks := [], search := none, done := [], full := false }, [], by decide⟩,
   ⟨live (img [sect 2 0 65 [(0x24, 1), (64, 5)]]), (img [sect 2 0 65 [(0x24, 1), (64, 5)]]), [], by decide⟩,
   ⟨{ live (img [sect 2 0 65 [(0x24, 1), (64, 5)]]) with ledger := { closed := some 0 }, spec := { epochs := [{ epoch := 1, base := 0, snap := [], shift := (0, 0, 0), start := some [], cands := [], records := [], blocks := [], search := none, done := [], full := false }] } }, (img [sect 2 0 65 [(0x24, 1), (64, 5)]]), [], { epoch := 1, base := 0, snap := [], shift := (0, 0, 0), start := some [], cands := [], records := [], blocks := [], search := none, done := [], full := false }, by decide⟩,
   ⟨{ live (img [sect 2 0 65 [(0x24, 1), (64, 5)]]) with ledger := { search := some ⟨0, 0, [], [], (0, 0, 0), [], [], [], [], 0, false, 0, 0, 1, [], false, false⟩ } }, (img [sect 2 0 65 [(0x24, 1), (64, 5)]]), [], ⟨0, 0, [], [], (0, 0, 0), [], [], [], [], 0, false, 0, 0, 1, [], false, false⟩, by decide⟩,
   ⟨{ live (img [sect 2 0 65 [(0x24, 1), (64, 5)]]) with ledger := { closed := some 0 }, spec := { epochs := [{ epoch := 1, base := 0, snap := [], shift := (0, 0, 0), start := some [], cands := [], records := [], blocks := [], search := some ⟨0, 0, [], [], (0, 0, 0), [], [], [], [], 0, false, 0, 0, 1, [], false, false⟩, done := [], full := false }] } }, (img [sect 2 0 65 [(0x24, 1), (64, 5)]]), [], { epoch := 1, base := 0, snap := [], shift := (0, 0, 0), start := some [], cands := [], records := [], blocks := [], search := some ⟨0, 0, [], [], (0, 0, 0), [], [], [], [], 0, false, 0, 0, 1, [], false, false⟩, done := [], full := false }, ⟨0, 0, [], [], (0, 0, 0), [], [], [], [], 0, false, 0, 0, 1, [], false, false⟩, by decide⟩,
   ⟨{ live (img [sect 2 0 65 [(0x24, 1), (64, 5)]]) with frame := { inFrame := true } }, (img [sect 2 0 65 [(0x24, 1), (64, 5)]]), [], by decide⟩,
   ⟨{ live (img [sect 2 0 65 [(0x24, 1), (64, 5)]]) with ledger := { closed := some 0, search := some ⟨0, 0, [], [], (0, 0, 0), [], [], [], [], 0, false, 0, 0, 0, [], false, false⟩ }, frame := { inFrame := true } }, (img [sect 2 0 65 [(0x24, 1), (64, 5)]]), [], ⟨0, 0, [], [], (0, 0, 0), [], [], [], [], 0, false, 0, 0, 0, [], false, false⟩, by decide⟩⟩

theorem test_witness_PanelsBecomeFinal :
    (∃ (s : State), ∃ (img : Image), ∃ (l : Nat), ∃ (p : Nat), s.registersWf = true ∧ s.cfg.image = some img ∧ (img.layerCount ≤ l ∨ img.panelCount ≤ p)) ∧
    (∃ (s : State), ∃ (img : Image), ∃ (l : Nat), ∃ (p : Nat), s.registersWf = true ∧ s.cfg.image = some img ∧ l < img.layerCount ∧ p < img.panelCount ∧ img.layerType l ≠ 1 ∧ panelReady img s.world l p = true) ∧
    (∃ (s : State), ∃ (img : Image), ∃ (l : Nat), ∃ (p : Nat), s.registersWf = true ∧ s.cfg.image = some img ∧ l < img.layerCount ∧ p < img.panelCount ∧ img.layerType l ≠ 1 ∧ panelReady img s.world l p = true ∧ s.world.closed = true ∧ s.world.final.length + 1 = img.layerCount * img.panelCount) ∧
    (∃ (s : State), ∃ (img : Image), ∃ (l : Nat), ∃ (p : Nat), s.registersWf = true ∧ s.cfg.image = some img ∧ l < img.layerCount ∧ p < img.panelCount ∧ img.layerType l ≠ 1 ∧ panelReady img s.world l p = true ∧ s.world.final.length + 1 ≠ img.layerCount * img.panelCount) ∧
    (∃ (s : State), ∃ (img : Image), ∃ (l : Nat), ∃ (p : Nat), s.registersWf = true ∧ s.cfg.image = some img ∧ l < img.layerCount ∧ p < img.panelCount ∧ img.layerType l = 1 ∧ distReady img s.world l p = true ∧ distNeeded img s.world l p = false) ∧
    (∃ (s : State), ∃ (img : Image), ∃ (l : Nat), ∃ (p : Nat), s.registersWf = true ∧ s.cfg.image = some img ∧ l < img.layerCount ∧ p < img.panelCount ∧ img.layerType l = 1 ∧ distReady img s.world l p = true ∧ distNeeded img s.world l p = true) ∧
    (∃ (s : State), ∃ (img : Image), ∃ (l : Nat), ∃ (p : Nat), s.registersWf = true ∧ s.cfg.image = some img ∧ (img.layerCount ≤ l ∨ img.panelCount ≤ p ∨ img.layerType l ≠ 1)) :=
  ⟨⟨live (img [sect 7 0 65 [(1, 1), (4, 1), (6, 1), (8, 1)]]), (img [sect 7 0 65 [(1, 1), (4, 1), (6, 1), (8, 1)]]), 0, 1, by decide⟩,
   ⟨{ live (img [sect 7 0 65 [(1, 1), (4, 1), (6, 1), (8, 1)]]) with world := { active := true } }, (img [sect 7 0 65 [(1, 1), (4, 1), (6, 1), (8, 1)]]), 0, 0, by decide⟩,
   ⟨{ live (img [sect 7 0 65 [(1, 1), (4, 1), (6, 1), (8, 1)]]) with world := { active := true } }, (img [sect 7 0 65 [(1, 1), (4, 1), (6, 1), (8, 1)]]), 0, 0, by decide⟩,
   ⟨{ live (img [sect 7 0 97 [(1, 2), (4, 1), (6, 1), (8, 1), (96, 1)]]) with world := { active := true } }, (img [sect 7 0 97 [(1, 2), (4, 1), (6, 1), (8, 1), (96, 1)]]), 0, 0, by decide⟩,
   ⟨{ live (img [sect 7 0 97 [(1, 2), (4, 1), (6, 1), (8, 1), (96, 1)]]) with world := { active := true, final := [(0, 0)] } }, (img [sect 7 0 97 [(1, 2), (4, 1), (6, 1), (8, 1), (96, 1)]]), 1, 0, by decide, by decide, by decide, by decide, by decide, by decide, (same_region _ _ _ _)⟩,
   ⟨{ live (img [sect 7 0 97 [(1, 2), (4, 1), (6, 1), (8, 1), (96, 1)]]) with world := { active := true, final := [(0, 0)], allChanged := true } }, (img [sect 7 0 97 [(1, 2), (4, 1), (6, 1), (8, 1), (96, 1)]]), 1, 0, by decide⟩,
   ⟨live (img [sect 7 0 65 [(1, 1), (4, 1), (6, 1), (8, 1)]]), (img [sect 7 0 65 [(1, 1), (4, 1), (6, 1), (8, 1)]]), 0, 0, by decide⟩⟩

theorem test_witness_ProposeErrorsAreCounted :
    (∃ (s : State), ∃ (tile : Nat), s.registersWf = true ∧ tile < s.tiles ∧ s.fault.handling = none) ∧
    (∃ (s : State), ∃ (tile : Nat), s.registersWf = true ∧ tile < s.tiles ∧ s.fault.handling = none ∧ s.unitGood 0 (s.phys tile) = true) ∧
    (∃ (s : State), ∃ (tile : Nat), ∃ (spare : Option Nat), ∃ (ok : Bool), s.registersWf = true ∧ tile < s.tiles ∧ s.fault.handling = none ∧ s.unitGood 0 (s.phys tile) = true ∧ spare.isSome = true ∧ ok = true) ∧
    (∃ (s : State), ∃ (tile : Nat), ∃ (spare : Option Nat), ∃ (ok : Bool), s.registersWf = true ∧ tile < s.tiles ∧ s.fault.handling = none ∧ s.unitGood 0 (s.phys tile) = true ∧ (spare = none ∨ ok = false)) ∧
    (∃ (s : State), ∃ (tile : Nat), s.registersWf = true ∧ s.tiles ≤ tile) :=
  ⟨⟨{}, 31, by decide⟩,
   ⟨{}, 31, by decide⟩,
   ⟨{}, 31, some 0, true, by decide⟩,
   ⟨{}, 31, some 0, false, by decide⟩,
   ⟨{}, 32, by decide⟩⟩

theorem test_witness_ReceiveStepsCountTheirDrops :
    (∃ (s : State), ∃ (f : Frame), s.registersWf = true ∧ f.partition < 8 ∧ f.port < 4 ∧ s.portGood f.port = true ∧ s.pins.resetN = true ∧ s.power.asleep = 0 ∧ f.linkOk = false) ∧
    (∃ (s : State), ∃ (f : Frame), s.registersWf = true ∧ f.partition < 8 ∧ f.port < 4 ∧ s.portGood f.port = true ∧ s.pins.resetN = true ∧ s.power.asleep = 0 ∧ f.linkOk = true ∧ (f.ty = 0x7E ∨ f.ty = 256)) ∧
    (∃ (s : State), ∃ (f : Frame), s.registersWf = true ∧ f.partition < 8 ∧ f.port < 4 ∧ s.portGood f.port = true ∧ s.pins.resetN = true ∧ s.power.asleep = 0 ∧ f.linkOk = true ∧ f.ty ≠ 0x7E ∧ f.ty ≠ 256 ∧ f.headerOk = false) ∧
    (∃ (s : State), ∃ (f : Frame), ∃ (img : Image), let here := img.hasPart f.partition && bitOf (img.partField f.partition 2 1) f.port && f.addrOk; s.registersWf = true ∧ f.partition < 8 ∧ f.port < 4 ∧ s.portGood f.port = true ∧ s.pins.resetN = true ∧ s.power.asleep = 0 ∧ f.linkOk = true ∧ f.ty ≠ 0x7E ∧ f.ty ≠ 256 ∧ f.headerOk = true ∧ s.cfg.image = some img ∧ here = false) ∧
    (∃ (s : State), ∃ (f : Frame), ∃ (img : Image), let here := img.hasPart f.partition && bitOf (img.partField f.partition 2 1) f.port && f.addrOk; let meter := meterPass img (s.part f.partition) f.partition f.port f.wire s.frame.now.toNat; s.registersWf = true ∧ f.partition < 8 ∧ f.port < 4 ∧ s.portGood f.port = true ∧ s.pins.resetN = true ∧ s.power.asleep = 0 ∧ f.linkOk = true ∧ f.ty ≠ 0x7E ∧ f.ty ≠ 256 ∧ f.headerOk = true ∧ s.cfg.image = some img ∧ here = true ∧ meter.1 = false) ∧
    (∃ (s : State), ∃ (f : Frame), ∃ (img : Image), let here := img.hasPart f.partition && bitOf (img.partField f.partition 2 1) f.port && f.addrOk; let meter := meterPass img (s.part f.partition) f.partition f.port f.wire s.frame.now.toNat; let auth := authPass img meter.2 f; s.registersWf = true ∧ f.partition < 8 ∧ f.port < 4 ∧ s.portGood f.port = true ∧ s.pins.resetN = true ∧ s.power.asleep = 0 ∧ f.linkOk = true ∧ f.ty ≠ 0x7E ∧ f.ty ≠ 256 ∧ f.headerOk = true ∧ s.cfg.image = some img ∧ here = true ∧ meter.1 = true ∧ auth = false ∧ (f.ty ≠ 0x50 ∨ bitOf f.flags 0 = true)) ∧
    (∃ (s : State), ∃ (f : Frame), ∃ (img : Image), let here := img.hasPart f.partition && bitOf (img.partField f.partition 2 1) f.port && f.addrOk; let meter := meterPass img (s.part f.partition) f.partition f.port f.wire s.frame.now.toNat; let auth := authPass img meter.2 f; s.registersWf = true ∧ f.partition < 8 ∧ f.port < 4 ∧ s.portGood f.port = true ∧ s.pins.resetN = true ∧ s.power.asleep = 0 ∧ f.linkOk = true ∧ f.ty ≠ 0x7E ∧ f.ty ≠ 256 ∧ f.headerOk = true ∧ s.cfg.image = some img ∧ here = true ∧ meter.1 = true ∧ auth = true ∧ f.ty ≠ 0x50 ∧ f.ty ≠ 0x10 ∧ (s.part f.partition).started = true ∧ epochLater f.seq (BitVec.ofNat 32 (s.get (Reg.ETH_PART_RX_SEQ.SEQ f.partition))) = false) ∧
    (∃ (s : State), ∃ (f : Frame), ∃ (img : Image), let here := img.hasPart f.partition && bitOf (img.partField f.partition 2 1) f.port && f.addrOk; let meter := meterPass img (s.part f.partition) f.partition f.port f.wire s.frame.now.toNat; let auth := authPass img meter.2 f; s.registersWf = true ∧ f.partition < 8 ∧ f.port < 4 ∧ s.portGood f.port = true ∧ s.pins.resetN = true ∧ s.power.asleep = 0 ∧ f.linkOk = true ∧ f.ty ≠ 0x7E ∧ f.ty ≠ 256 ∧ f.headerOk = true ∧ s.cfg.image = some img ∧ here = true ∧ meter.1 = true ∧ auth = true ∧ f.ty = 0x60 ∧ f.partition ≠ 0 ∧ (s.part f.partition).started = false) ∧
    (∃ (s : State), ∃ (f : Frame), ∃ (img : Image), let here := img.hasPart f.partition && bitOf (img.partField f.partition 2 1) f.port && f.addrOk; let meter := meterPass img (s.part f.partition) f.partition f.port f.wire s.frame.now.toNat; let auth := authPass img meter.2 f; s.registersWf = true ∧ f.partition < 8 ∧ f.port < 4 ∧ s.portGood f.port = true ∧ s.pins.resetN = true ∧ s.power.asleep = 0 ∧ f.linkOk = true ∧ f.ty ≠ 0x7E ∧ f.ty ≠ 256 ∧ f.headerOk = true ∧ s.cfg.image = some img ∧ here = true ∧ meter.1 = true ∧ f.ty = 0x10 ∧ auth = true) ∧
    (∃ (s : State), ∃ (f : Frame), s.registersWf = true ∧ f.partition < 8 ∧ f.port < 4 ∧ s.portGood f.port = true ∧ s.pins.resetN = true ∧ s.power.asleep = 0 ∧ f.linkOk = true ∧ f.ty ≠ 0x7E ∧ f.ty ≠ 256 ∧ f.headerOk = true ∧ s.cfg.image = none ∧ f.port ≠ 0) ∧
    (∃ (s : State), ∃ (f : Frame), s.registersWf = true ∧ f.partition < 8 ∧ f.port < 4 ∧ s.portGood f.port = true ∧ s.pins.resetN = true ∧ s.power.asleep = 0 ∧ f.linkOk = true ∧ f.ty ≠ 0x7E ∧ f.ty ≠ 256 ∧ f.headerOk = true ∧ s.cfg.image = none ∧ f.port = 0 ∧ f.ty ∉ [0x30, 0x31, 0x50, 0x51, 0x60] ∧ seqPass s { f with partition := 0 } = true) ∧
    (∃ (s : State), ∃ (f : Frame), s.registersWf = true ∧ f.partition < 8 ∧ (4 ≤ f.port ∨ s.portGood f.port = false ∨ s.pins.resetN = false ∨ s.power.asleep ≠ 0)) :=
  ⟨⟨up, { fr 1 0 0 with linkOk := false }, by decide⟩,
   ⟨up, fr 256 0 0, by decide⟩,
   ⟨up, { fr 1 0 3 with headerOk := false }, by decide⟩,
   ⟨up, fr 1 7 0, parts, by decide⟩,
   ⟨up, { fr 1 0 0 with wire := 1 }, parts, by decide⟩,
   ⟨up (parts 0 1), fr 1 0 0, (parts 0 1), by decide⟩,
   ⟨{ up with eth := { parts := [(0, { started := true })] } }, fr 1 0 0 [] 0, parts, by decide⟩,
   ⟨up (parts 1), fr 0x60 1 0, (parts 1), by decide⟩,
   ⟨up, fr 0x10 0 0, parts, by decide⟩,
   ⟨{ pins := { resetN := true } }, fr 1 0 1, by decide⟩,
   ⟨{ pins := { resetN := true } }, fr 1 0 0, by decide⟩,
   ⟨up, fr 1 0 4, by decide⟩⟩

theorem test_witness_PortsAnswerAndHoldAssociations :
    (∃ (s : State), ∃ (port : Nat), s.registersWf = true ∧ port < 4) ∧
    (∃ (s : State), ∃ (port : Nat), ∃ (img : Image), ∃ (v6 : Bool), ∃ (target : List Byte), ∃ (p : Nat), ∃ (o : Nat), s.registersWf = true ∧ port < 4 ∧ s.cfg.image = some img ∧ s.portGood port = true ∧ p < 8 ∧ img.partOff p = some o ∧ bitOf (img.partField p 2 1) port = true ∧ bitOf (img.partField p 1 1) 5 = v6 ∧ ((img.body 0xE).drop (o + 0x40)).take 16 = (if v6 then target else List.replicate 12 0 ++ target)) ∧
    (∃ (s : State), ∃ (port : Nat), ∃ (src : Source), s.registersWf = true ∧ port < 4 ∧ (src = .sheaz 0 true true ∨ (src = .jtag ∧ s.get Reg.SEC_DEBUG_STATUS.STATE = 2))) ∧
    (∃ (s : State), ∃ (port : Nat), ∃ (src : Source), s.registersWf = true ∧ port < 4 ∧ src ∈ [Source.mgmt, .tenon, .sheaz 0 false false, .sheaz 0 true false, .sheaz 0 false true]) ∧
    (∃ (s : State), ∃ (port : Nat), s.registersWf = true ∧ port < 4 ∧ s.get Reg.SEC_DEBUG_STATUS.STATE ≠ 2) ∧
    (∃ (s : State), ∃ (port : Nat), ∃ (p : Nat), s.registersWf = true ∧ port < 4 ∧ p ≠ 0) ∧
    (∃ (s : State), ∃ (port : Nat), s.registersWf = true ∧ 4 ≤ port) :=
  ⟨⟨{}, 3, by decide⟩,
   ⟨live (img [sect 0xE 1 96 [(0, 1), (18, 1)]]), 0, (img [sect 0xE 1 96 [(0, 1), (18, 1)]]), false, [0, 0, 0, 0], 0, 16, by decide +kernel⟩,
   ⟨{}, 3, .sheaz 0 true true, by decide⟩,
   ⟨{}, 0, .sheaz 0 true false, by decide⟩,
   ⟨{}, 0, by decide⟩,
   ⟨{}, 0, 7, by decide⟩,
   ⟨{}, 4, by decide⟩⟩

theorem test_witness_WorldUpdatesAreAdmitted :
    (∃ (s : State), ∃ (f : Frame), ∃ (t : Nat), ∃ (img : Image), s.registersWf = true ∧ s.cfg.image = some img ∧ f.ty = 0x10 ∧ f.partition < 8 ∧ (arrive s f t).1 = true ∧ s.inChain = true ∧ s.isHead = false) ∧
    (∃ (s : State), ∃ (f : Frame), ∃ (t : Nat), ∃ (img : Image), s.registersWf = true ∧ s.cfg.image = some img ∧ f.ty = 0x10 ∧ f.partition < 8 ∧ (arrive s f t).1 = true ∧ (s.inChain = false ∨ s.isHead = true) ∧ f.stream < 32 ∧ img.streamIdx f.stream = none) ∧
    (∃ (s : State), ∃ (f : Frame), ∃ (t : Nat), ∃ (img : Image), let c := s.openEpoch img t; let st := s.world.stream f.stream; s.registersWf = true ∧ s.cfg.image = some img ∧ f.ty = 0x10 ∧ f.partition < 8 ∧ (arrive s f t).1 = true ∧ (s.inChain = false ∨ s.isHead = true) ∧ f.stream < 32 ∧ (img.streamIdx f.stream).isSome = true ∧ (s.flag (Reg.WORLD_STREAM_CTL.ENABLE f.stream) = false ∨ f.partition ≠ img.streamPartition f.stream ∨ parsePayload false f.payload = none ∨ (st.started = true ∧ epochLater f.seq st.lastSeq = false) ∨ epochLater f.epoch (c + 2) = true)) ∧
    (∃ (s : State), ∃ (f : Frame), ∃ (t : Nat), ∃ (img : Image), let c := s.openEpoch img t; let st := s.world.stream f.stream; ∃ (recs : List WRec), ∃ (eoe : Bool), let e := if epochLater c f.epoch then c else f.epoch; s.registersWf = true ∧ s.cfg.image = some img ∧ f.ty = 0x10 ∧ f.partition < 8 ∧ (arrive s f t).1 = true ∧ (s.inChain = false ∨ s.isHead = true) ∧ f.stream < 32 ∧ (img.streamIdx f.stream).isSome = true ∧ s.flag (Reg.WORLD_STREAM_CTL.ENABLE f.stream) = true ∧ f.partition = img.streamPartition f.stream ∧ parsePayload false f.payload = some (recs, eoe) ∧ (∀ r ∈ recs, ∀ dx dy dz b, r ≠ .ego dx dy dz b) ∧ (st.started = false ∨ epochLater f.seq st.lastSeq = true) ∧ epochLater f.epoch (c + 2) = false ∧ st.closedTo = none ∧ ingestBytes s.world + f.payload.length ≤ ingestCapacity ∧ epochBytes s.world f.stream e + f.payload.length ≤ img.byteBudget f.stream) :=
  ⟨⟨rg [(Reg.SAFE_SP_STRAPS.ROLE, 2)] up, fr 0x10 0 0, 0, parts, by decide⟩,
   ⟨up, { fr 0x10 0 0 with stream := 31 }, 0, parts, by decide⟩,
   ⟨up (parts 0 0 [sect 7 0 117 [(1, 1), (2, 1), (116, 8)]]), fr 0x10 0 0, 0, (parts 0 0 [sect 7 0 117 [(1, 1), (2, 1), (116, 8)]]), by decide⟩,
   ⟨rg [(Reg.WORLD_STREAM_CTL.ENABLE 0, 1)] (up (parts 0 0 [sect 7 0 117 [(1, 1), (2, 1), (116, 8)]])), fr 0x10 0 0 (bytesOf 8 []), 0, (parts 0 0 [sect 7 0 117 [(1, 1), (2, 1), (116, 8)]]), [], false, by decide, by decide, by decide, by decide, by decide, by decide, by decide, by decide, by decide, by decide, by decide, (by simp), by decide, by decide, by decide, by decide, by decide⟩⟩

theorem test_witness_AttestationAndSessionKeys :
    (∃ (s : State), ∃ (f : Frame), ∃ (t : Nat), s.registersWf = true ∧ f.ty = 0x50 ∧ (s.asPart f).partition < 8 ∧ bitOf (byteAt f.payload 64) 0 = false ∧ (arrive s (s.asPart f) t).1 = true ∧ attestForm f.payload false = true) ∧
    (∃ (s : State), ∃ (f : Frame), ∃ (t : Nat), ∃ (img : Image), s.registersWf = true ∧ s.cfg.image = some img ∧ f.ty = 0x50 ∧ f.partition < 8 ∧ bitOf (byteAt f.payload 64) 0 = true ∧ (arrive s f t).1 = true ∧ attestForm f.payload true = true ∧ s.sec.identity = true) ∧
    (∃ (s : State), ∃ (p : Nat), s.registersWf = true ∧ p < 8) ∧
    (∃ (s : State), ∃ (p : Nat), s.registersWf = true ∧ 8 ≤ p) :=
  ⟨⟨{ pins := { resetN := true } }, fr 0x50 0 0 (bytesOf 68 []), 0, by decide⟩,
   ⟨{ up with sec := { identity := true } }, fr 0x50 0 0 (bytesOf 200 [(64, 1)]), 0, parts, by decide +kernel⟩,
   ⟨{}, 7, by decide⟩,
   ⟨{}, 8, by decide⟩⟩

theorem test_witness_JobsAreSubmitted :
    (∃ (s : State), ∃ (img : Image), ∃ (f : Frame), ∃ (t : Nat), s.registersWf = true ∧ s.cfg.image = some img ∧ f.ty = 0x01 ∧ f.partition < 8 ∧ completes s f = none ∧ (arrive s f t).1 = true) ∧
    (∃ (s : State), ∃ (img : Image), ∃ (f : Frame), ∃ (t : Nat), ∃ (k : Nat), ∃ (x : Staging), ∃ (c : Instr), s.registersWf = true ∧ s.cfg.image = some img ∧ f.ty = 0x01 ∧ f.partition < 8 ∧ (arrive s f t).1 = true ∧ (stageFragment s f).1 = some x ∧ byteAt x.body 4 = k ∧ (k, c) ∈ [(1, Instr.jobSweep f t), (2, .jobSearch f t), (3, .jobRefine f t)] ∧ bodyOk s x = true ∧ (∀ j ∈ s.eth.jobs, j.partition = f.partition → j.id ≠ x.jobId) ∧ (k = 2 → img.hasStage 5 = true ∧ s.roadmap.isSome = true) ∧ (k = 3 → img.has 0xC = true ∧ s.goodEngines ≠ []) ∧ s.activeJobs f.partition < img.partField f.partition 0xE 1 ∧ stagedBytes (stageFragment s f).2 f.partition + x.body.length ≤ img.partField f.partition 0x18 8 ∧ (k ≠ 3 → jigFull s img f.partition = false)) ∧
    (∃ (s : State), ∃ (img : Image), ∃ (f : Frame), ∃ (t : Nat), ∃ (x : Staging), ∃ (j : Job), s.registersWf = true ∧ s.cfg.image = some img ∧ f.ty = 0x01 ∧ f.partition < 8 ∧ (arrive s f t).1 = true ∧ (stageFragment s f).1 = some x ∧ byteAt x.body 4 = 0 ∧ bodyOk s x = true ∧ s.openJob f.partition x.jobId = some j) ∧
    (∃ (s : State), ∃ (img : Image), s.registersWf = true ∧ s.cfg.image = some img) :=
  ⟨⟨up, parts, fr 1 0 0 (bytesOf 16 [(2, 2)]), 0, by decide⟩,
   ⟨up, parts, jobFrame (bytesOf 92 [(4, 1), (17, 1), (19, 1)]), 0, 1, staged (bytesOf 92 [(4, 1), (17, 1), (19, 1)]), .jobSweep (jobFrame (bytesOf 92 [(4, 1), (17, 1), (19, 1)])) 0, by decide, by decide, by decide, by decide, (by decide +kernel), (by decide +kernel), by decide, by decide, (by decide +kernel), (by intro j h; cases h), (by simp), (by simp), (by decide +kernel), (by decide +kernel), (fun _ => by decide +kernel)⟩,
   ⟨{ up with eth := { jobs := [job 0 0] } }, parts, jobFrame (bytesOf 16 []), 0, staged (bytesOf 16 []), job 0 0, by decide⟩,
   ⟨{ live with eth := { } }, img0, by decide⟩⟩

theorem test_witness_JobsRunAndEnd :
    (∃ (s : State), ∃ (img : Image), ∃ (p : Nat), ∃ (id : Nat), ∃ (j : Job), s.registersWf = true ∧ s.cfg.image = some img ∧ p < 8 ∧ s.openJob p id = some j ∧ j.state = 0 ∧ j.kind ≠ 3 ∧ s.frame.inFrame = true ∧ s.frame.searchOver = false ∧ epochOf s.frame.k = j.startEpoch ∧ s.world.active = false ∧ s.get Reg.WORLD_SNAP_EPOCH.EPOCH = j.startEpoch.toNat ∧ (j.kind = 2 → s.ledger.closed = some j.startEpoch)) ∧
    (∃ (s : State), ∃ (img : Image), ∃ (p : Nat), ∃ (id : Nat), ∃ (j : Job), ∃ (e : Nat), s.registersWf = true ∧ s.cfg.image = some img ∧ p < 8 ∧ s.openJob p id = some j ∧ j.state = 0 ∧ j.kind = 3 ∧ s.jobEngine = some e) ∧
    (∃ (s : State), ∃ (img : Image), ∃ (p : Nat), ∃ (id : Nat), ∃ (j : Job), ∃ (c : Iterate), s.registersWf = true ∧ s.cfg.image = some img ∧ p < 8 ∧ s.openJob p id = some j ∧ j.state = 1 ∧ j.kind = 3 ∧ j.iter = some c) ∧
    (∃ (s : State), ∃ (img : Image), ∃ (p : Nat), ∃ (id : Nat), ∃ (j : Job), s.registersWf = true ∧ s.cfg.image = some img ∧ p < 8 ∧ s.openJob p id = some j ∧ s.eth.jobs.find? (fun x => x.partition == p && x.id == id && decide (x.state < 3)) = some j ∧ j.state = 1 ∧ j.kind ≠ 3 ∧ j.more = false) ∧
    (∃ (s : State), ∃ (img : Image), ∃ (p : Nat), ∃ (id : Nat), ∃ (j : Job), ∃ (c : Iterate), s.registersWf = true ∧ s.cfg.image = some img ∧ p < 8 ∧ s.openJob p id = some j ∧ s.eth.jobs.find? (fun x => x.partition == p && x.id == id && decide (x.state < 3)) = some j ∧ j.state = 1 ∧ j.kind = 3 ∧ j.iter = some c) ∧
    (∃ (s : State), ∃ (img : Image), ∃ (p : Nat), ∃ (id : Nat), ∃ (j : Job), s.registersWf = true ∧ s.cfg.image = some img ∧ p < 8 ∧ s.openJob p id = some j ∧ j.kind = 3) :=
  ⟨⟨{ live with eth := { jobs := [job 1 0] }, frame := { inFrame := true } }, img0, 0, 0, job 1 0, by decide⟩,
   ⟨{ live with eth := { jobs := [job 3 0] } }, img0, 0, 0, job 3 0, 1, by decide⟩,
   ⟨{ live with eth := { jobs := [job 3 1 (some ⟨[], 0, 0, 0⟩)] } }, img0, 0, 0, job 3 1 (some ⟨[], 0, 0, 0⟩), ⟨[], 0, 0, 0⟩, by decide⟩,
   ⟨{ live with eth := { jobs := [{ job 2 1 with out := [0] }] } }, img0, 0, 0, { job 2 1 with out := [0] }, by decide⟩,
   ⟨{ live with eth := { jobs := [job 3 1 (some ⟨[], 0, 0, 0⟩)] } }, img0, 0, 0, job 3 1 (some ⟨[], 0, 0, 0⟩), ⟨[], 0, 0, 0⟩, by decide⟩,
   ⟨{ live with eth := { jobs := [job 3 0] } }, img0, 0, 0, job 3 0, by decide⟩⟩

theorem test_witness_TasksAreCreatedAndWait :
    (∃ (s : State), ∃ (img : Image), ∃ (tile : Nat), ∃ (k : TaskKind), ∃ (m : Word), ∃ (a : Bool), ∃ (d : Nat), s.registersWf = true ∧ s.tablesWf = true ∧ s.cfg.image = some img ∧ tile < s.tiles ∧ s.freeDesc tile = some d ∧ ((∃ p, k = .job p) ∨ (∃ id, k = .unordered id) ∨ ∃ id t, k = .stage id t ∧ id ∈ [2, 5] ∧ s.frame.inFrame = true ∧ s.frame.searchOver = false ∧ s.taskTile img id t false = some tile ∧ t < s.taskCount img id ∧ s.taskExists id t false (epochOf s.frame.k) = false ∧ (∀ u < t, s.taskTile img id u false ≠ some tile ∨ s.taskExists id u false (epochOf s.frame.k) = true) ∧ s.inWindow img (newDesc s img (epochOf s.frame.k) k false m a) = true)) ∧
    (∃ (s : State), ∃ (img : Image), ∃ (tile : Nat), ∃ (t : Nat), ∃ (m : Word), ∃ (a : Bool), ∃ (d : Nat), ∃ (d2 : Nat), s.registersWf = true ∧ s.tablesWf = true ∧ s.cfg.image = some img ∧ tile < s.tiles ∧ s.freeDesc tile = some d ∧ s.frame.inFrame = true ∧ s.frame.searchOver = false ∧ s.taskTile img 3 t false = some tile ∧ t < s.taskCount img 3 ∧ s.taskExists 3 t false (epochOf s.frame.k) = false ∧ (∀ u < t, s.taskTile img 3 u false ≠ some tile ∨ s.taskExists 3 u false (epochOf s.frame.k) = true) ∧ s.inWindow img (newDesc s img (epochOf s.frame.k) (.stage 3 t) false m a) = true ∧ s.inWindow img (newDesc s img (epochOf s.frame.k) (.stage 4 t) false 1 true) = true ∧ (s.setDesc tile d (newDesc s img (epochOf s.frame.k) (.stage 3 t) false m a)).freeDesc tile = some d2) ∧
    (∃ (s : State), ∃ (img : Image), ∃ (tile : Nat), s.registersWf = true ∧ s.tablesWf = true ∧ s.cfg.image = some img ∧ tile < s.tiles ∧ s.freeDesc tile = none) ∧
    (∃ (s : State), ∃ (img : Image), ∃ (tile : Nat), ∃ (d : Nat), s.registersWf = true ∧ s.tablesWf = true ∧ s.cfg.image = some img ∧ tile < s.tiles ∧ d < 2048 ∧ (s.desc tile d).state ≠ 0) ∧
    (∃ (s : State), ∃ (img : Image), ∃ (tile : Nat), s.registersWf = true ∧ s.tablesWf = true ∧ s.cfg.image = some img ∧ tile < s.tiles) ∧
    (∃ (s : State), ∃ (img : Image), ∃ (tile : Nat), ∃ (d : Nat), s.registersWf = true ∧ s.tablesWf = true ∧ s.cfg.image = some img ∧ tile < s.tiles ∧ d < 2048 ∧ (s.desc tile d).state = 5) ∧
    (∃ (s : State), ∃ (img : Image), ∃ (tile : Nat), ∃ (d : Nat), s.registersWf = true ∧ s.tablesWf = true ∧ s.cfg.image = some img ∧ tile < s.tiles ∧ d < 2048 ∧ (s.desc tile d).state = 5 ∧ (s.frame.searchOver = false ∨ img.quotaMode = true) ∧ (s.desc tile d).speculative = false) ∧
    (∃ (s : State), ∃ (img : Image), ∃ (tile : Nat), ∃ (d : Nat), s.registersWf = true ∧ s.tablesWf = true ∧ s.cfg.image = some img ∧ tile < s.tiles ∧ 2048 ≤ d) ∧
    (∃ (s : State), ∃ (img : Image), ∃ (tile : Nat), ∃ (n : Nat), s.registersWf = true ∧ s.tablesWf = true ∧ s.cfg.image = some img ∧ tile < s.tiles ∧ s.tiles ≤ n) :=
  ⟨⟨live, img0, 31, .job 7, 0, false, 0, by decide, by decide, by decide, by decide, (by decide +kernel), (Or.inl ⟨7, rfl⟩)⟩,
   ⟨{ live (img [sect 2 0 80 [(0x24, 1), (64, 3), (68, 1), (76, 1)], sect 5 0 9 [(8, 1)], sect 0x11 1 37 [(36, 2)]]) with frame := { inFrame := true } }, (img [sect 2 0 80 [(0x24, 1), (64, 3), (68, 1), (76, 1)], sect 5 0 9 [(8, 1)], sect 0x11 1 37 [(36, 2)]]), 0, 0, 0, false, 0, 1, by decide +kernel⟩,
   ⟨boundTo 2048, img0, 0, by decide, (by decide +kernel), by decide, by decide, (full_bound)⟩,
   ⟨task (.job 0) 1, img0, 0, 0, by decide⟩,
   ⟨live, img0, 31, by decide⟩,
   ⟨task (.job 0) 5, img0, 0, 0, by decide⟩,
   ⟨task (.job 0) 5, img0, 0, 0, by decide⟩,
   ⟨live, img0, 0, 2048, by decide⟩,
   ⟨live, img0, 31, 32, by decide⟩⟩

theorem test_witness_TasksRunAndComplete :
    (∃ (s : State), ∃ (img : Image), ∃ (tile : Nat), ∃ (reserve : Nat), ∃ (thread : Nat), ∃ (p : Nat × Desc), ∃ (r : List (Nat × Desc)), s.registersWf = true ∧ s.tablesWf = true ∧ s.cfg.image = some img ∧ tile < s.tiles ∧ thread < 256 ∧ ((s.bound tile).filter fun p => p.2.state == 5 && p.2.reserve == reserve).length < reserveSize img tile reserve ∧ (s.bound tile).filter (s.dispatchable img tile reserve) = p :: r) ∧
    (∃ (s : State), ∃ (img : Image), ∃ (tile : Nat), ∃ (d : Nat), s.registersWf = true ∧ s.tablesWf = true ∧ s.cfg.image = some img ∧ tile < s.tiles ∧ d < 2048 ∧ (s.desc tile d).state = 5 ∧ ((∃ w, (s.desc tile d).kind = .slice w) ∨ (∃ id, (s.desc tile d).kind = .unordered id))) ∧
    (∃ (s : State), ∃ (img : Image), ∃ (tile : Nat), ∃ (d : Nat), ∃ (p : Nat), s.registersWf = true ∧ s.tablesWf = true ∧ s.cfg.image = some img ∧ tile < s.tiles ∧ d < 2048 ∧ (s.desc tile d).state = 5 ∧ (s.desc tile d).kind = .job p ∧ s.frame.searchOver = true) ∧
    (∃ (s : State), ∃ (img : Image), ∃ (tile : Nat), ∃ (d : Nat), ∃ (p : Nat), ∃ (j : Job), s.registersWf = true ∧ s.tablesWf = true ∧ s.cfg.image = some img ∧ tile < s.tiles ∧ d < 2048 ∧ (s.desc tile d).state = 5 ∧ (s.desc tile d).kind = .job p ∧ s.frame.searchOver = false ∧ j.kind = 1 ∧ s.eth.jobs.find? (fun j => j.partition == p && j.state == 1 && j.kind != 3 && j.more) = some j) ∧
    (∃ (s : State), ∃ (img : Image), ∃ (tile : Nat), ∃ (d : Nat), ∃ (t : Nat), ∃ (outs : List Output), s.registersWf = true ∧ s.tablesWf = true ∧ s.cfg.image = some img ∧ tile < s.tiles ∧ d < 2048 ∧ (s.desc tile d).state = 5 ∧ (s.desc tile d).kind = .stage 3 t ∧ (s.desc tile d).speculative = false ∧ (s.desc tile d).epoch = epochOf s.frame.k ∧ s.isDone 3 t = false ∧ taskOutputs s img (s.desc tile d) = some outs ∧ (∀ h ∈ s.jig.held, h.flow ≠ (s.taskFlow img 3 t).1)) ∧
    (∃ (s : State), ∃ (img : Image), ∃ (tile : Nat), ∃ (d : Nat), ∃ (id : Nat), ∃ (t : Nat), s.registersWf = true ∧ s.tablesWf = true ∧ s.cfg.image = some img ∧ tile < s.tiles ∧ d < 2048 ∧ (s.desc tile d).state = 5 ∧ (s.desc tile d).kind = .stage id t ∧ (s.desc tile d).speculative = false ∧ (s.desc tile d).epoch = epochOf s.frame.k ∧ s.isDone id t = false ∧ taskOutputs s img (s.desc tile d) = none) ∧
    (∃ (s : State), ∃ (img : Image), ∃ (tile : Nat), ∃ (d : Nat), ∃ (id : Nat), ∃ (t : Nat), s.registersWf = true ∧ s.tablesWf = true ∧ s.cfg.image = some img ∧ tile < s.tiles ∧ d < 2048 ∧ (s.desc tile d).state = 5 ∧ (s.desc tile d).kind = .stage id t) ∧
    (∃ (s : State), ∃ (img : Image), ∃ (tile : Nat), s.registersWf = true ∧ s.tablesWf = true ∧ s.cfg.image = some img ∧ tile < s.tiles) ∧
    (∃ (s : State), ∃ (img : Image), ∃ (tile : Nat), ∃ (d : Nat), s.registersWf = true ∧ s.tablesWf = true ∧ s.cfg.image = some img ∧ tile < s.tiles ∧ d < 2048 ∧ (s.desc tile d).state = 6) ∧
    (∃ (s : State), ∃ (img : Image), ∃ (tile : Nat), ∃ (p : Nat × Desc), s.registersWf = true ∧ s.tablesWf = true ∧ s.cfg.image = some img ∧ tile < s.tiles ∧ (s.bound tile).find? (fun p => p.2.state == 5 && (match p.2.kind with | .slice _ => true | _ => false)) = some p) ∧
    (∃ (s : State), ∃ (img : Image), ∃ (tile : Nat), ∃ (d : Nat), ∃ (layer : Nat), ∃ (panel : Nat), ∃ (bank : Nat), s.registersWf = true ∧ s.tablesWf = true ∧ s.cfg.image = some img ∧ tile < s.tiles ∧ d < 2048 ∧ layer < img.layerCount ∧ panel < img.panelCount ∧ bank < img.cacheBanks ∧ (s.desc tile d).state = 5 ∧ ((s.desc tile d).speculative = true ∨ s.world.active = false ∨ (layer, panel) ∈ s.world.final)) ∧
    (∃ (s : State), ∃ (img : Image), ∃ (tile : Nat), ∃ (n : Nat), s.registersWf = true ∧ s.tablesWf = true ∧ s.cfg.image = some img ∧ tile < s.tiles ∧ s.tiles ≤ n) :=
  ⟨⟨task (.job 0) 3, img0, 0, 0, 255, (0, { kind := .job 0, state := 3 }), [], by decide⟩,
   ⟨task (.unordered 9) 5, img0, 0, 0, by decide, by decide, by decide, by decide, by decide, by decide, (Or.inr ⟨9, rfl⟩)⟩,
   ⟨{ task (.job 0) 5 with frame := { searchOver := true } }, img0, 0, 0, 0, by decide⟩,
   ⟨{ task (.job 0) 5 with eth := { jobs := [{ job 1 1 with body := bytesOf 18 [(17, 1)] }] } }, img0, 0, 0, 0, { job 1 1 with body := bytesOf 18 [(17, 1)] }, by decide⟩,
   ⟨task (.stage 3 0) 5, img0, 0, 0, 0, [], by decide⟩,
   ⟨{ task (.stage 2 0) 5 with cfg := { image := some (img [sect 8 0 117 [(0, 1), (2, 1), (104, 1), (108, 1), (112, 1), (116, 1)]]) }, world := { start := some ⟨[], [], 0, false, false⟩ } }, (img [sect 8 0 117 [(0, 1), (2, 1), (104, 1), (108, 1), (112, 1), (116, 1)]]), 0, 0, 2, 0, by decide +kernel⟩,
   ⟨task (.stage 5 0) 5, img0, 0, 0, 5, 0, by decide⟩,
   ⟨live, img0, 0, by decide⟩,
   ⟨task (.job 0) 6, img0, 0, 0, by decide⟩,
   ⟨task (.slice 1) 5, img0, 0, (0, { kind := .slice 1, state := 5 }), by decide⟩,
   ⟨{ task (.job 0) 5 with cfg := { image := some (img [sect 7 0 65 [(1, 1), (4, 1), (6, 1), (8, 1)], sect 4 0 45 [(44, 1)]]) } }, (img [sect 7 0 65 [(1, 1), (4, 1), (6, 1), (8, 1)], sect 4 0 45 [(44, 1)]]), 0, 0, 0, 0, 0, by decide, by decide, by decide, by decide, by decide, by decide, by decide, by decide, by decide, by decide⟩,
   ⟨live, img0, 31, 32, by decide⟩⟩

theorem test_witness_SelectionIsMergedOnce :
    (∃ (s : State), ∃ (img : Image), s.registersWf = true ∧ s.cfg.image = some img ∧ s.frame.inFrame = true ∧ s.frame.searchOver = false ∧ img.quotaMode = true) ∧
    (∃ (s : State), ∃ (img : Image), s.registersWf = true ∧ s.cfg.image = some img ∧ s.frame.inFrame = true ∧ s.frame.searchOver = false ∧ img.quotaMode = true ∧ (s.frame.drain = true ∨ img.runahead = 0 ∨ s.flag Reg.FRAME_SPEC_CTL.ENABLE = false)) ∧
    (∃ (s : State), ∃ (img : Image), s.registersWf = true ∧ s.cfg.image = some img ∧ s.frame.inFrame = true ∧ s.frame.searchOver = false ∧ img.quotaMode = true ∧ s.frame.drain = false ∧ img.runahead ≠ 0 ∧ s.flag Reg.FRAME_SPEC_CTL.ENABLE = true ∧ s.specEp (epochOf s.frame.k + BitVec.ofNat 32 img.runahead) = none) ∧
    (∃ (s : State), ∃ (img : Image), s.registersWf = true ∧ s.cfg.image = some img ∧ s.frame.inFrame = true ∧ s.frame.searchOver = false ∧ wall img = true) ∧
    (∃ (s : State), ∃ (img : Image), s.registersWf = true ∧ s.cfg.image = some img ∧ s.working = true ∧ s.isTail = true ∧ wall img = true ∧ s.frame.searchOver = true ∧ s.order.inputs = none ∧ s.order.selection = none ∧ s.order.remote.length < s.remoteExpected img) ∧
    (∃ (s : State), ∃ (img : Image), s.registersWf = true ∧ s.cfg.image = some img ∧ s.working = true ∧ img.hasStage 6 = true ∧ s.order.inputs = none ∧ s.order.selection = none ∧ (s.searchReleased img = true ∨ (wall img = true ∧ s.frame.searchOver = true)) ∧ s.isTail = true ∧ (s.order.remoteClosed = true ∨ s.remoteExpected img ≤ s.order.remote.length)) ∧
    (∃ (s : State), ∃ (img : Image), s.registersWf = true ∧ s.cfg.image = some img ∧ s.working = true ∧ img.hasStage 6 = true ∧ s.order.inputs = none ∧ s.order.selection = none ∧ (s.searchReleased img = true ∨ (wall img = true ∧ s.frame.searchOver = true)) ∧ s.isTail = false) ∧
    (∃ (s : State), ∃ (img : Image), ∃ (inputs : List PList), ∃ (c : Instr), let r := selectionOf img.topK (epochOf s.frame.k) inputs s.order.fallback s.order.repeated; s.registersWf = true ∧ s.cfg.image = some img ∧ s.working = true ∧ s.order.inputs = some inputs ∧ (c = .mergeDone ∧ s.order.fallback = false ∨ c = .fallbackMergeDone ∧ s.order.fallback = true ∧ (s.lowestGoodTile img 4).isSome = true) ∧ (r.2.1 = 0 ∨ s.fault.handling = none)) ∧
    (∃ (s : State), ∃ (img : Image), ∃ (inputs : List PList), ∃ (c : Instr), let r := selectionOf img.topK (epochOf s.frame.k) inputs s.order.fallback s.order.repeated; s.registersWf = true ∧ s.cfg.image = some img ∧ s.working = true ∧ s.order.inputs = some inputs ∧ (c = .mergeDone ∧ s.order.fallback = false ∨ c = .fallbackMergeDone ∧ s.order.fallback = true ∧ (s.lowestGoodTile img 4).isSome = true) ∧ (r.2.1 = 0 ∨ s.fault.handling = none) ∧ r.1.best = none) ∧
    (∃ (s : State), ∃ (img : Image), ∃ (inputs : List PList), ∃ (c : Instr), let r := selectionOf img.topK (epochOf s.frame.k) inputs s.order.fallback s.order.repeated; s.registersWf = true ∧ s.cfg.image = some img ∧ s.working = true ∧ s.order.inputs = some inputs ∧ (c = .mergeDone ∧ s.order.fallback = false ∨ c = .fallbackMergeDone ∧ s.order.fallback = true ∧ (s.lowestGoodTile img 4).isSome = true) ∧ (r.2.1 = 0 ∨ s.fault.handling = none) ∧ 0 < r.2.1) ∧
    (∃ (s : State), ∃ (img : Image), ∃ (inputs : List PList), s.registersWf = true ∧ s.cfg.image = some img ∧ s.working = true ∧ s.order.inputs = some inputs ∧ s.order.fallback = false ∧ s.fault.handling = none) :=
  ⟨⟨inFrame (img [sect 2 0 13 [(12, 3)]]), (img [sect 2 0 13 [(12, 3)]]), by decide⟩,
   ⟨inFrame (img [sect 2 0 13 [(12, 3)]]), (img [sect 2 0 13 [(12, 3)]]), by decide⟩,
   ⟨rg [(Reg.FRAME_SPEC_CTL.ENABLE, 1)] (inFrame (img [sect 2 0 13 [(12, 3)]])), (img [sect 2 0 13 [(12, 3)]]), by decide⟩,
   ⟨inFrame, img0, by decide⟩,
   ⟨rg [(Reg.SAFE_SP_STRAPS.ROLE, 2), (Reg.TENON_STATUS.DEVICE, 1), (Reg.TENON_DEVICES.TAIL, 1), (Reg.TENON_CHAIN.ACTIVE, 2)] { live (img [sect 2 0 69 [(0x24, 1), (64, 4), (68, 1)]]) with frame := { inFrame := true, searchOver := true } }, (img [sect 2 0 69 [(0x24, 1), (64, 4), (68, 1)]]), by decide⟩,
   ⟨inFrame (img [sect 2 0 65 [(0x24, 1), (64, 6)]]), (img [sect 2 0 65 [(0x24, 1), (64, 6)]]), by decide⟩,
   ⟨rg [(Reg.SAFE_SP_STRAPS.ROLE, 2), (Reg.TENON_STATUS.DEVICE, 1), (Reg.TENON_DEVICES.TAIL, 2)] (inFrame (img [sect 2 0 65 [(0x24, 1), (64, 6)]])), (img [sect 2 0 65 [(0x24, 1), (64, 6)]]), by decide⟩,
   ⟨{ inFrame with order := { inputs := some [] } }, img0, [], .mergeDone, by decide⟩,
   ⟨{ inFrame with order := { inputs := some [] } }, img0, [], .mergeDone, by decide⟩,
   ⟨{ inFrame with order := { inputs := some [⟨0, false, [⟨1, 0, 0, 0, 0, 0⟩, ⟨1, 1, 0, 0, 0, 0⟩], 2, 0, 0⟩] } }, img0, [⟨0, false, [⟨1, 0, 0, 0, 0, 0⟩, ⟨1, 1, 0, 0, 0, 0⟩], 2, 0, 0⟩], .mergeDone, by decide +kernel⟩,
   ⟨{ inFrame with order := { inputs := some [] } }, img0, [], by decide⟩⟩

theorem test_witness_RefineRunsOnOneEngine :
    (∃ (s : State), ∃ (img : Image), ∃ (r : RefineRun), ∃ (c : Cand), s.registersWf = true ∧ s.cfg.image = some img ∧ s.solver.run = some r ∧ s.working = true ∧ r.cand = none ∧ reexpand s img r.id = some c) ∧
    (∃ (s : State), ∃ (img : Image), ∃ (r : RefineRun), ∃ (tr : Traj), s.registersWf = true ∧ s.cfg.image = some img ∧ s.solver.run = some r ∧ s.working = true ∧ r.cand = some tr ∧ r.over img = false) ∧
    (∃ (s : State), ∃ (img : Image), ∃ (r : RefineRun), s.registersWf = true ∧ s.cfg.image = some img ∧ s.solver.run = some r ∧ s.working = true ∧ wall img = true ∧ r.over img = false) ∧
    (∃ (s : State), ∃ (img : Image), ∃ (r : RefineRun), ∃ (tr : Traj), s.registersWf = true ∧ s.cfg.image = some img ∧ s.solver.run = some r ∧ s.working = true ∧ r.cand = some tr ∧ r.over img = true) ∧
    (∃ (s : State), ∃ (img : Image), ∃ (r : RefineRun), s.registersWf = true ∧ s.cfg.image = some img ∧ s.solver.run = some r ∧ s.working = true ∧ r.engine < 4 ∧ s.fault.handling = none) ∧
    (∃ (s : State), ∃ (img : Image), ∃ (r : RefineRun), s.registersWf = true ∧ s.cfg.image = some img ∧ s.solver.run = some r ∧ s.working = true ∧ r.engine < 4 ∧ s.fault.handling = none ∧ r.second.isSome = true) ∧
    (∃ (s : State), ∃ (img : Image), ∃ (r : RefineRun), s.registersWf = true ∧ s.cfg.image = some img ∧ s.solver.run = some r ∧ s.working = true ∧ r.engine < 4 ∧ s.fault.handling = none ∧ r.second = none) ∧
    (∃ (s : State), ∃ (img : Image), ∃ (e : Nat), ∃ (charged : Nat), s.registersWf = true ∧ s.cfg.image = some img ∧ s.solver.diag = some (e, charged)) ∧
    (∃ (s : State), ∃ (img : Image), ∃ (e : Nat), ∃ (charged : Nat), s.registersWf = true ∧ s.cfg.image = some img ∧ s.solver.diag = some (e, charged) ∧ charged < 4 ∧ s.fault.handling = none) ∧
    (∃ (s : State), ∃ (img : Image), ∃ (tr : Traj), ∃ (tile : Nat), s.registersWf = true ∧ s.cfg.image = some img ∧ s.finalTraj img = some tr ∧ s.lowestGoodTile img 4 = some tile ∧ s.working = true ∧ s.safety.finalSweep = none ∧ s.frame.verdictDone = false) :=
  ⟨⟨searched, img0, run, path_known.choose, by decide, by decide, by decide, by decide, by decide, (path_known.choose_spec)⟩,
   ⟨{ inFrame (img [sect 0xC 0 17 [(16, 1)]]) with solver := { run := some (run 0 false (some ⟨0, 0, []⟩)) } }, (img [sect 0xC 0 17 [(16, 1)]]), (run 0 false (some ⟨0, 0, []⟩)), ⟨0, 0, []⟩, by decide⟩,
   ⟨{ inFrame (img [sect 0xC 0 17 [(16, 1)]]) with solver := { run := some (run) } }, (img [sect 0xC 0 17 [(16, 1)]]), run, by decide⟩,
   ⟨{ inFrame img0 with solver := { run := some (run 0 true (some ⟨0, 0, []⟩)) } }, img0, (run 0 true (some ⟨0, 0, []⟩)), ⟨0, 0, []⟩, by decide⟩,
   ⟨{ inFrame img0 with solver := { run := some (run 3) } }, img0, (run 3), by decide⟩,
   ⟨{ inFrame img0 with solver := { run := some (run 3 false none (some 1)) } }, img0, (run 3 false none (some 1)), by decide⟩,
   ⟨{ inFrame img0 with solver := { run := some (run 3) } }, img0, (run 3), by decide⟩,
   ⟨{ live with solver := { diag := some (1, 3) } }, img0, 1, 3, by decide⟩,
   ⟨{ live with solver := { diag := some (1, 3) } }, img0, 1, 3, by decide⟩,
   ⟨{ inFrame (img [sect 2 0 85 [(0x24, 2), (64, 7), (80, 4), (84, 1)]]) with solver := { result := some ⟨0, 0, 0, 0, 0, 0, 0, 0, 0, ⟨0, 0, []⟩⟩ } }, (img [sect 2 0 85 [(0x24, 2), (64, 7), (80, 4), (84, 1)]]), ⟨0, 0, []⟩, 0, by decide⟩⟩

theorem test_witness_SetpointReadsComeFromOneBuffer :
    (∃ (s : State), ∃ (a : Nat), s.pins.spPhase = 1 ∧ bits a 12 4 = s.get Reg.SAFE_SP_STRAPS.ADDRESS) ∧
    (∃ (s : State), ∃ (a : Nat), ∃ (oe : Bool), s.pins.spPhase = 1 ∧ (bits a 12 4 ≠ s.get Reg.SAFE_SP_STRAPS.ADDRESS ∨ oe = false)) ∧
    (∃ (s : State), ∃ (cs : Bool), (s.pins.spPhase ≠ 1 ∨ cs = false)) ∧
    (∃ (slot : Nat), ∃ (ch : Nat), slot < 64 ∧ ch < 16) :=
  ⟨⟨{ pins := { spPhase := 1 } }, 4095, by decide⟩,
   ⟨{ pins := { spPhase := 1 } }, 4096, true, by decide⟩,
   ⟨{}, true, by decide⟩,
   ⟨63, 15, by decide⟩⟩

theorem test_witness_TrySquareFollowsTheGrid :
    (∃ (s : State), ∃ (img : Image), s.cfg.image = some img ∧ (s.safety.copyPathDown = true ∨ s.power.asleep ≠ 0)) ∧
    (∃ (s : State), ∃ (img : Image), s.cfg.image = some img ∧ s.safety.copyPathDown = false ∧ s.power.asleep = 0 ∧ s.frame.inFrame = true ∧ s.safety.gridDone = false ∧ s.world.closed = true ∧ s.world.epoch = epochOf s.frame.k) ∧
    (∃ (s : State), ∃ (img : Image), s.cfg.image = some img ∧ s.safety.copyPathDown = false ∧ s.power.asleep = 0 ∧ s.frame.inFrame = false) ∧
    (∃ (s : State), ∃ (img : Image), s.cfg.image = some img ∧ s.safety.gridDone = true ∧ s.safety.preRunning = false ∧ s.safety.preH = none ∧ s.safety.preA = none) ∧
    (∃ (s : State), ∃ (img : Image), s.cfg.image = some img ∧ s.safety.preRunning = true) ∧
    (∃ (s : State), ∃ (img : Image), s.cfg.image = some img ∧ s.safety.preRunning = true ∧ s.safety.armed = none) ∧
    (∃ (s : State), ∃ (img : Image), s.cfg.image = some img ∧ s.safety.preRunning = true ∧ (s.safety.held = none ∨ s.checksHeld = false)) ∧
    (∃ (s : State), ∃ (img : Image), ∃ (tr : Traj), s.cfg.image = some img ∧ s.finalTraj img = some tr ∧ s.working = true ∧ s.isTail = true ∧ s.safety.cand = none ∧ s.frame.verdictDone = false) ∧
    (∃ (s : State), ∃ (img : Image), ∃ (c : QTraj), s.cfg.image = some img ∧ s.safety.cand = some c ∧ s.frame.verdictDone = false) :=
  ⟨⟨{ live with power := { asleep := 1 } }, img0, by decide⟩,
   ⟨inFrame, img0, by decide⟩,
   ⟨live, img0, by decide⟩,
   ⟨{ live with safety := { gridDone := true } }, img0, by decide⟩,
   ⟨{ live with safety := { preRunning := true } }, img0, by decide⟩,
   ⟨{ live with safety := { preRunning := true } }, img0, by decide⟩,
   ⟨{ live with safety := { preRunning := true, held := some ⟨[], none, 0, false⟩ } }, img0, by decide⟩,
   ⟨{ inFrame (img [sect 2 0 65 [(0x24, 1), (64, 7)]]) with solver := { result := some ⟨0, 0, 0, 0, 0, 0, 0, 0, 0, ⟨0, 0, []⟩⟩ } }, (img [sect 2 0 65 [(0x24, 1), (64, 7)]]), ⟨0, 0, []⟩, by decide⟩,
   ⟨{ inFrame with safety := { cand := some ⟨[], none, 0, false⟩ } }, img0, ⟨[], none, 0, false⟩, by decide⟩⟩

theorem test_witness_VerdictFollowsItsTable :
    (∃ (s : State), ∃ (img : Image), s.registersWf = true ∧ s.cfg.image = some img ∧ s.frame.inFrame = true ∧ s.frame.verdictDone = false ∧ s.isTail = true ∧ s.frame.late = false) ∧
    (∃ (s : State), ∃ (img : Image), let s1 := if s.frame.late then s else closeMain s img; s.registersWf = true ∧ s.cfg.image = some img ∧ s.frame.inFrame = true ∧ s.frame.verdictDone = false ∧ s.isTail = true ∧ (s.frame.late = true ∨ s1.inputsComplete img = true)) :=
  ⟨⟨inFrame, img0, by decide⟩,
   ⟨{ live with frame := { inFrame := true, late := true } }, img0, by decide⟩⟩

theorem test_witness_CommitPublishesTheVerdict :
    (∃ (s : State), ∃ (img : Image), s.registersWf = true ∧ s.cfg.image = some img ∧ s.frame.inFrame = true ∧ s.frame.committed = false ∧ (s.isTail = true → s.frame.verdictDone = true)) ∧
    (∃ (s : State), ∃ (img : Image), s.registersWf = true ∧ s.cfg.image = some img ∧ s.frame.inFrame = true ∧ s.frame.committed = false ∧ (s.isTail = true → s.frame.verdictDone = true) ∧ s.get Reg.SAFE_SP_STRAPS.PAIR = 0 ∧ (s.isTail = false ∨ s.frame.shadow = true)) ∧
    (∃ (s : State), ∃ (img : Image), ∃ (c : QTraj), s.registersWf = true ∧ s.cfg.image = some img ∧ s.frame.inFrame = true ∧ s.frame.committed = false ∧ (s.isTail = true → s.frame.verdictDone = true) ∧ s.get Reg.SAFE_SP_STRAPS.PAIR = 0 ∧ s.isTail = true ∧ s.frame.shadow = false ∧ s.safety.verdict = some 1 ∧ s.safety.held = some c ∧ s.unlocked = false) ∧
    (∃ (s : State), ∃ (img : Image), ∃ (a : QTraj), s.registersWf = true ∧ s.cfg.image = some img ∧ s.frame.inFrame = true ∧ s.frame.committed = false ∧ (s.isTail = true → s.frame.verdictDone = true) ∧ s.get Reg.SAFE_SP_STRAPS.PAIR = 0 ∧ s.isTail = true ∧ s.frame.shadow = false ∧ s.safety.verdict = some 3 ∧ s.safety.armed = some a ∧ s.get Reg.SAFE_MODE.MODE ≠ modeHold ∧ s.unlocked = false) ∧
    (∃ (s : State), ∃ (img : Image), s.registersWf = true ∧ s.cfg.image = some img ∧ s.islandServes = true ∧ s.safety.permanent = false ∧ s.unlocked = false) :=
  ⟨⟨{ live with frame := { inFrame := true, verdictDone := true }, safety := {  } }, img0, by decide⟩,
   ⟨{ live with frame := { inFrame := true, verdictDone := true, shadow := true }, safety := {  } }, img0, by decide⟩,
   ⟨{ live with frame := { inFrame := true, verdictDone := true }, safety := { verdict := some 1, held := some ⟨[], none, 0, false⟩ } }, img0, ⟨[], none, 0, false⟩, by decide⟩,
   ⟨{ live with frame := { inFrame := true, verdictDone := true }, safety := { verdict := some 3, armed := some ⟨[], none, 0, false⟩ } }, img0, ⟨[], none, 0, false⟩, by decide⟩,
   ⟨rg [(Reg.SAFE_MODE.MODE, 5)] live, img0, by decide⟩⟩

theorem test_witness_FloorAdvancesAtTwoAccepts :
    (∃ (s : State), ∃ (img : Image), let seq := s.get64 Reg.CONFIG_ACTIVE_SEQ_LO.SEQ_LO Reg.CONFIG_ACTIVE_SEQ_HI.SEQ_HI; s.registersWf = true ∧ s.cfg.image = some img ∧ s.frame.inFrame = true ∧ s.frame.committed = false ∧ s.get Reg.SAFE_SP_STRAPS.PAIR = 0 ∧ s.isTail = true ∧ s.frame.verdictDone = true ∧ s.frame.shadow = false ∧ s.safety.verdict = some 1 ∧ s.get Reg.CONFIG_SLOT_ACTIVE.ACCEPTS = 1 ∧ s.floor < seq ∧ s.get Reg.CONFIG_SLOT_ACTIVE.SLOT < 2) ∧
    (∃ (s : State), ∃ (img : Image), s.registersWf = true ∧ s.cfg.image = some img ∧ s.frame.inFrame = true ∧ s.frame.committed = false ∧ s.get Reg.SAFE_SP_STRAPS.PAIR = 0 ∧ s.isTail = true ∧ s.frame.verdictDone = true ∧ (s.frame.shadow = true ∨ s.safety.verdict ≠ some 1 ∨ s.get Reg.CONFIG_SLOT_ACTIVE.ACCEPTS ≠ 1)) :=
  ⟨⟨rg [(Reg.CONFIG_ACTIVE_SEQ_LO.SEQ_LO, 1), (Reg.CONFIG_SLOT_ACTIVE.SLOT, 1), (Reg.CONFIG_SLOT_ACTIVE.ACCEPTS, 1)] { live with frame := { inFrame := true, verdictDone := true }, safety := { verdict := some 1 } }, img0, by decide⟩,
   ⟨rg [(Reg.CONFIG_SLOT_ACTIVE.ACCEPTS, 2)] { live with frame := { inFrame := true, verdictDone := true }, safety := { verdict := some 1 } }, img0, by decide⟩⟩

theorem test_witness_EnterIsTakenFromOwnersOnly :
    (∃ (src : Source), ∃ (s : State), s.registersWf = true ∧ s.isOwner src = true ∧ s.cfg.image.isSome = true ∧ s.safety.permanent = false) ∧
    (∃ (src : Source), ∃ (s : State), s.registersWf = true ∧ s.isOwner src = true ∧ s.cfg.image.isSome = true ∧ s.safety.permanent = false ∧ s.get Reg.SAFE_MODE.MODE ≠ modeSafe ∧ s.get Reg.SAFE_MODE.MODE ≠ modeHold) ∧
    (∃ (src : Source), ∃ (s : State), s.registersWf = true ∧ s.isOwner src = false) :=
  ⟨⟨own, live, by decide⟩,
   ⟨own, live, by decide⟩,
   ⟨guest, {}, by decide⟩⟩

theorem test_witness_IslandFaultsAndRestarts :
    (∃ (s : State), s.registersWf = true ∧ s.safety.restart ≠ 1) ∧
    (∃ (s : State), s.registersWf = true ∧ s.safety.restart = 1 ∧ s.sec.boot = none) ∧
    (∃ (s : State), s.registersWf = true ∧ s.fault.handling = none) ∧
    (∃ (s : State), ∃ (c : Instr), s.registersWf = true ∧ s.fault.handling = none ∧ c ∈ [Instr.lockstepMismatch true, .checkerClockDeviation]) ∧
    (∃ (s : State), ∃ (c : Instr), s.registersWf = true ∧ s.fault.handling = none ∧ c ∈ [Instr.lockstepMismatch true, .checkerClockDeviation] ∧ s.cfg.image.isSome = true ∧ s.unlocked = false) ∧
    (∃ (s : State), ∃ (img : Image), s.registersWf = true ∧ s.cfg.image = some img ∧ img.wdEnable = true ∧ s.power.asleep = 0 ∧ s.get Reg.SAFE_MODE.MODE ≠ 0 ∧ s.fault.handling = none) ∧
    (∃ (s : State), ∃ (img : Image), s.registersWf = true ∧ s.cfg.image = some img ∧ img.wdEnable = true ∧ s.power.asleep = 0 ∧ s.get Reg.SAFE_MODE.MODE ≠ 0 ∧ s.fault.handling = none ∧ s.safety.restart = 0 ∧ s.sec.boot = none ∧ s.safety.permanent = false) ∧
    (∃ (s : State), s.registersWf = true) :=
  ⟨⟨{}, by decide⟩,
   ⟨{ safety := { restart := 1 } }, by decide⟩,
   ⟨{}, by decide⟩,
   ⟨{}, .checkerClockDeviation, by decide⟩,
   ⟨live, .lockstepMismatch true, by decide⟩,
   ⟨rg [(Reg.SAFE_MODE.MODE, 2)] (live (img [sect 0xD 0 117 [(116, 2)]])), (img [sect 0xD 0 117 [(116, 2)]]), by decide +kernel⟩,
   ⟨rg [(Reg.SAFE_MODE.MODE, 2)] (live (img [sect 0xD 0 117 [(116, 2)]])), (img [sect 0xD 0 117 [(116, 2)]]), by decide +kernel⟩,
   ⟨{}, by decide⟩⟩

theorem test_witness_FlitsAreTakenInSequence :
    (∃ (s : State), ∃ (l : Nat), s.registersWf = true ∧ s.tablesWf = true ∧ s.hasLink l = false) ∧
    (∃ (s : State), ∃ (l : Nat), s.registersWf = true ∧ s.tablesWf = true ∧ s.hasLink l = true ∧ s.linkUp l = false) ∧
    (∃ (s : State), ∃ (l : Nat), ∃ (f : Flit), s.registersWf = true ∧ s.tablesWf = true ∧ s.hasLink l = true ∧ s.linkUp l = true ∧ flitBad f = true) ∧
    (∃ (s : State), ∃ (l : Nat), ∃ (f : Flit), s.registersWf = true ∧ s.tablesWf = true ∧ s.hasLink l = true ∧ s.linkUp l = true ∧ flitBad f = false ∧ (typeVc f.ty).isSome = true) ∧
    (∃ (s : State), ∃ (l : Nat), let x := s.link l; ∃ (f : Flit), s.registersWf = true ∧ s.tablesWf = true ∧ s.hasLink l = true ∧ s.linkUp l = true ∧ flitBad f = false ∧ f.pool ≤ 4 ∧ x.waiting = [] ∧ s.tenon.outputsSent = none) ∧
    (∃ (s : State), ∃ (l : Nat), let x := s.link l; ∃ (ack : Nat), ∃ (i : Nat), s.registersWf = true ∧ s.tablesWf = true ∧ s.hasLink l = true ∧ s.linkUp l = true ∧ (x.outstanding.findIdx? fun o => o.seq == ack) = some i ∧ x.waiting = [] ∧ s.tenon.outputsSent = none) ∧
    (∃ (s : State), ∃ (l : Nat), let x := s.link l; ∃ (ack : Nat), ∃ (i : Nat), s.registersWf = true ∧ s.tablesWf = true ∧ s.hasLink l = true ∧ s.linkUp l = true ∧ (x.outstanding.findIdx? fun o => o.seq == ack) = some i ∧ x.waiting = [] ∧ s.tenon.outputsSent = none ∧ x.outstanding.length = i + 1) ∧
    (∃ (s : State), ∃ (l : Nat), let x := s.link l; ∃ (ack : Nat), ∃ (i : Nat), s.registersWf = true ∧ s.tablesWf = true ∧ s.hasLink l = true ∧ s.linkUp l = true ∧ (x.outstanding.findIdx? fun o => o.seq == ack) = some i ∧ x.waiting = [] ∧ s.tenon.outputsSent = none ∧ i + 1 < x.outstanding.length) ∧
    (∃ (s : State), ∃ (l : Nat), let x := s.link l; ∃ (ack : Nat), ∃ (c : Instr), s.registersWf = true ∧ s.tablesWf = true ∧ s.hasLink l = true ∧ s.linkUp l = true ∧ (c = .nak l ack ∧ (x.outstanding.findIdx? fun o => o.seq == ack) = none ∨ c = .replayTimeout l) ∧ x.outstanding = []) ∧
    (∃ (s : State), ∃ (l : Nat), let x := s.link l; ∃ (ack : Nat), ∃ (c : Instr), s.registersWf = true ∧ s.tablesWf = true ∧ s.hasLink l = true ∧ s.linkUp l = true ∧ (c = .nak l ack ∧ (x.outstanding.findIdx? fun o => o.seq == ack) = none ∨ c = .replayTimeout l) ∧ x.outstanding ≠ []) ∧
    (∃ (s : State), ∃ (l : Nat), let x := s.link l; ∃ (ack : Nat), ∃ (c : Instr), s.registersWf = true ∧ s.tablesWf = true ∧ s.hasLink l = true ∧ s.linkUp l = true ∧ (c = .nak l ack ∧ (x.outstanding.findIdx? fun o => o.seq == ack) = none ∨ c = .replayTimeout l) ∧ x.outstanding ≠ [] ∧ x.episodes < 15) ∧
    (∃ (s : State), ∃ (l : Nat), let x := s.link l; ∃ (ack : Nat), ∃ (c : Instr), s.registersWf = true ∧ s.tablesWf = true ∧ s.hasLink l = true ∧ s.linkUp l = true ∧ (c = .nak l ack ∧ (x.outstanding.findIdx? fun o => o.seq == ack) = none ∨ c = .replayTimeout l) ∧ x.outstanding ≠ [] ∧ 15 ≤ x.episodes ∧ x.retraining = false ∧ x.lost = false) ∧
    (∃ (s : State), ∃ (l : Nat), let x := s.link l; s.registersWf = true ∧ s.tablesWf = true ∧ s.hasLink l = true ∧ s.linkUp l = true ∧ x.ackDue = true) ∧
    (∃ (s : State), ∃ (l : Nat), let x := s.link l; s.registersWf = true ∧ s.tablesWf = true ∧ s.hasLink l = true ∧ (x.ackDue = false ∨ s.linkUp l = false)) :=
  ⟨⟨{}, 4, by decide⟩,
   ⟨{}, 0, by decide⟩,
   ⟨lk, 0, { flit 1 0 with crcOk := false }, by decide⟩,
   ⟨lk, 0, flit 1 0, by decide⟩,
   ⟨lk, 0, flit 1 0, by decide⟩,
   ⟨lk { outstanding := [sent 0, sent 1] }, 0, 1, 1, by decide⟩,
   ⟨lk { outstanding := [sent 0, sent 1] }, 0, 1, 1, by decide⟩,
   ⟨lk { outstanding := [sent 0, sent 1] }, 0, 0, 0, by decide⟩,
   ⟨lk, 0, 0, .replayTimeout 0, by decide⟩,
   ⟨lk { outstanding := [sent 0, sent 1] }, 0, 5, .nak 0 5, by decide⟩,
   ⟨lk { outstanding := [sent 0, sent 1], episodes := 14 }, 0, 5, .nak 0 5, by decide⟩,
   ⟨lk { outstanding := [sent 0, sent 1], episodes := 15 }, 0, 5, .replayTimeout 0, by decide⟩,
   ⟨lk { ackDue := true }, 0, by decide⟩,
   ⟨lk, 0, by decide⟩⟩

theorem test_witness_LinksRetrainAndAreLost :
    (∃ (s : State), ∃ (l : Nat), s.registersWf = true ∧ s.tablesWf = true ∧ s.hasLink l = false) ∧
    (∃ (s : State), ∃ (l : Nat), s.registersWf = true ∧ s.tablesWf = true ∧ s.hasLink l = true ∧ s.get (Reg.TENON_LINK_STATUS.STATE l) ≠ 2) ∧
    (∃ (s : State), ∃ (l : Nat), let x := s.link l; s.registersWf = true ∧ s.tablesWf = true ∧ s.hasLink l = true ∧ x.retrainWait = false) ∧
    (∃ (s : State), ∃ (l : Nat), let x := s.link l; let tok : Token := { act := 6, cls := 0, idx := l }; ∃ (c : Instr), s.registersWf = true ∧ s.tablesWf = true ∧ s.hasLink l = true ∧ (c = .linkRetrain l ∧ s.get (Reg.TENON_LINK_STATUS.STATE l) = 2 ∨ c = .retrainTokenRetry l ∧ x.retrainWait = true) ∧ x.retraining = false ∧ x.lost = false ∧ s.fault.tokens.find? (conflicts tok) = none) ∧
    (∃ (s : State), ∃ (l : Nat), let x := s.link l; let tok : Token := { act := 6, cls := 0, idx := l }; ∃ (c : Instr), ∃ (h : Token), s.registersWf = true ∧ s.tablesWf = true ∧ s.hasLink l = true ∧ (c = .linkRetrain l ∧ s.get (Reg.TENON_LINK_STATUS.STATE l) = 2 ∨ c = .retrainTokenRetry l ∧ x.retrainWait = true) ∧ x.retraining = false ∧ x.lost = false ∧ s.fault.tokens.find? (conflicts tok) = some h) ∧
    (∃ (s : State), ∃ (l : Nat), s.registersWf = true ∧ s.tablesWf = true ∧ s.hasLink l = true ∧ (s.unitUsable 6 l = false ∨ s.get (Reg.TENON_LINK_CTL.ENABLE l) = 0 ∨ s.get Reg.SAFE_SP_STRAPS.REF = 1)) ∧
    (∃ (s : State), ∃ (l : Nat), let x := s.link l; s.registersWf = true ∧ s.tablesWf = true ∧ s.hasLink l = true ∧ s.unitUsable 6 l = true ∧ s.get (Reg.TENON_LINK_CTL.ENABLE l) ≠ 0 ∧ s.get Reg.SAFE_SP_STRAPS.REF ≠ 1 ∧ x.retraining = false) ∧
    (∃ (s : State), ∃ (l : Nat), let x := s.link l; s.registersWf = true ∧ s.tablesWf = true ∧ s.hasLink l = true ∧ s.unitUsable 6 l = true ∧ s.get (Reg.TENON_LINK_CTL.ENABLE l) ≠ 0 ∧ s.get Reg.SAFE_SP_STRAPS.REF ≠ 1 ∧ x.retraining = false ∧ (s.isHead = false ∨ s.get Reg.TENON_STATUS.STATE ≠ 4 ∨ s.tenon.clampDue = false)) ∧
    (∃ (s : State), ∃ (l : Nat), let x := s.link l; s.registersWf = true ∧ s.tablesWf = true ∧ s.hasLink l = true ∧ s.unitUsable 6 l = true ∧ s.get (Reg.TENON_LINK_CTL.ENABLE l) ≠ 0 ∧ s.get Reg.SAFE_SP_STRAPS.REF ≠ 1 ∧ x.retraining = true ∧ x.episodes < 15 ∧ s.fault.handling = none) ∧
    (∃ (s : State), ∃ (l : Nat), let x := s.link l; s.registersWf = true ∧ s.tablesWf = true ∧ s.hasLink l = true ∧ s.unitUsable 6 l = true ∧ s.get (Reg.TENON_LINK_CTL.ENABLE l) ≠ 0 ∧ s.get Reg.SAFE_SP_STRAPS.REF ≠ 1 ∧ x.retraining = true ∧ x.episodes < 15 ∧ s.fault.handling = none ∧ (s.isHead = false ∨ s.get Reg.TENON_STATUS.STATE ≠ 4)) ∧
    (∃ (s : State), ∃ (l : Nat), let x := s.link l; s.registersWf = true ∧ s.tablesWf = true ∧ s.hasLink l = true ∧ (x.lost = true ∨ s.linkUp l = true ∨ x.downAt = none)) ∧
    (∃ (s : State), ∃ (l : Nat), let x := s.link l; s.registersWf = true ∧ s.tablesWf = true ∧ s.hasLink l = true ∧ x.lost = false ∧ s.linkUp l = false ∧ x.downAt.isSome = true ∧ s.fault.handling = none) :=
  ⟨⟨{}, 4, by decide⟩,
   ⟨{}, 0, by decide⟩,
   ⟨lk, 0, by decide⟩,
   ⟨lk { retrainWait := true }, 0, .retrainTokenRetry 0, by decide⟩,
   ⟨{ lk with fault := { tokens := [{ act := 6, cls := 0, idx := 0 }] } }, 0, .linkRetrain 0, { act := 6, cls := 0, idx := 0 }, by decide⟩,
   ⟨rg [(Reg.TENON_LINK_CTL.ENABLE 0, 0)], 0, by decide⟩,
   ⟨rg [(Reg.TENON_LINK_CTL.ENABLE 0, 1)] (lk), 0, by decide⟩,
   ⟨rg [(Reg.TENON_LINK_CTL.ENABLE 0, 1)] (lk), 0, by decide⟩,
   ⟨rg [(Reg.TENON_LINK_CTL.ENABLE 0, 1)] (lk { retraining := true, episodes := 14 }), 0, by decide⟩,
   ⟨rg [(Reg.TENON_LINK_CTL.ENABLE 0, 1)] (lk { retraining := true, episodes := 14 }), 0, by decide⟩,
   ⟨lk, 0, by decide⟩,
   ⟨{ tenon := { links := [(0, { downAt := some 0 })] } }, 0, by decide⟩⟩

theorem test_witness_MessagesAreUsedOrCondemnTheirEpoch :
    (∃ s : State, s.registersWf = true ∧ s.tablesWf = true ∧ s.hasLink 4 = false) ∧
    (∃ (s : State), ∃ (c : Instr), ∃ (e : Epoch), ∃ (cause : Nat), s.registersWf = true ∧ s.tablesWf = true ∧ s.inChain = true ∧ s.tenon.condemned.contains e = false ∧ ((∃ m : Message, m.epoch = e ∧ s.hasLink m.link = true ∧ (m.intact = false ∨ m.agrees = false) ∧ cause = 1 ∧ (c = .blockMessage m ∧ m.dest = s.device ∧ s.cfg.image.isSome = true ∨ c = .recordMessage m ∧ m.dest = s.device ∨ ∃ n, c = .worldMessage m n)) ∨ (∃ l k, c = .squashToken l e k ∧ s.hasLink l = true ∧ cause = 2))) ∧
    (∃ (s : State), ∃ (l : Nat), s.registersWf = true ∧ s.tablesWf = true ∧ s.hasLink l = true) ∧
    (∃ (s : State), ∃ (l : Nat), ∃ (e : Epoch), s.registersWf = true ∧ s.tablesWf = true ∧ s.hasLink l = true ∧ (s.inChain = false ∨ s.tenon.condemned.contains e = true)) ∧
    (∃ (s : State), ∃ (m : Message), s.registersWf = true ∧ s.tablesWf = true ∧ s.hasLink m.link = true ∧ m.dest ≠ s.device ∧ m.body.length = 4112) ∧
    (∃ (s : State), ∃ (m : Message), s.registersWf = true ∧ s.tablesWf = true ∧ s.hasLink m.link = true ∧ m.dest ≠ s.device) ∧
    (∃ (s : State), ∃ (m : Message), s.registersWf = true ∧ s.tablesWf = true ∧ s.hasLink m.link = true ∧ m.dest ≠ s.device ∧ m.intact = true) ∧
    (∃ (s : State), ∃ (m : Message), s.registersWf = true ∧ s.tablesWf = true ∧ s.hasLink m.link = true ∧ m.dest ≠ s.device ∧ m.intact = false) ∧
    (∃ (s : State), ∃ (m : Message), ∃ (img : Image), ∃ (data : List Byte), ∃ (id : Nat), let made := fun (o : Nat) => img.opField o 0xA 2 == id / 2 ^ 19 % 2 ^ 12; s.registersWf = true ∧ s.tablesWf = true ∧ s.hasLink m.link = true ∧ m.dest = s.device ∧ s.cfg.image = some img ∧ m.intact = true ∧ m.agrees = true ∧ data = (m.body.drop 16).take 4096 ∧ data.length = 4096 ∧ id = u32 m.body 0 ∧ id < 2 ^ 31 ∧ u64 m.body 8 = (dowel data id m.epoch.toNat).toNat ∧ (List.range img.opCount).find? made = none) ∧
    (∃ (s : State), ∃ (m : Message), ∃ (img : Image), ∃ (data : List Byte), ∃ (id : Nat), let made := fun (o : Nat) => img.opField o 0xA 2 == id / 2 ^ 19 % 2 ^ 12; ∃ (o : Nat), ∃ (y : SpecEp), s.registersWf = true ∧ s.tablesWf = true ∧ s.hasLink m.link = true ∧ m.dest = s.device ∧ s.cfg.image = some img ∧ m.intact = true ∧ m.agrees = true ∧ data = (m.body.drop 16).take 4096 ∧ data.length = 4096 ∧ id = u32 m.body 0 ∧ id < 2 ^ 31 ∧ u64 m.body 8 = (dowel data id m.epoch.toNat).toNat ∧ (List.range img.opCount).find? made = some o ∧ s.specEp m.epoch = some y) ∧
    (∃ (s : State), ∃ (m : Message), ∃ (img : Image), ∃ (data : List Byte), ∃ (id : Nat), let made := fun (o : Nat) => img.opField o 0xA 2 == id / 2 ^ 19 % 2 ^ 12; ∃ (o : Nat), s.registersWf = true ∧ s.tablesWf = true ∧ s.hasLink m.link = true ∧ m.dest = s.device ∧ s.cfg.image = some img ∧ m.intact = true ∧ m.agrees = true ∧ data = (m.body.drop 16).take 4096 ∧ data.length = 4096 ∧ id = u32 m.body 0 ∧ id < 2 ^ 31 ∧ u64 m.body 8 = (dowel data id m.epoch.toNat).toNat ∧ (List.range img.opCount).find? made = some o ∧ s.specEp m.epoch = none ∧ m.epoch = epochOf s.frame.k ∧ s.frame.inFrame = true) ∧
    (∃ (s : State), ∃ (m : Message), ∃ (img : Image), ∃ (data : List Byte), ∃ (id : Nat), let made := fun (o : Nat) => img.opField o 0xA 2 == id / 2 ^ 19 % 2 ^ 12; ∃ (o : Nat), s.registersWf = true ∧ s.tablesWf = true ∧ s.hasLink m.link = true ∧ m.dest = s.device ∧ s.cfg.image = some img ∧ m.intact = true ∧ m.agrees = true ∧ data = (m.body.drop 16).take 4096 ∧ data.length = 4096 ∧ id = u32 m.body 0 ∧ id < 2 ^ 31 ∧ u64 m.body 8 = (dowel data id m.epoch.toNat).toNat ∧ (List.range img.opCount).find? made = some o ∧ s.specEp m.epoch = none ∧ (m.epoch ≠ epochOf s.frame.k ∨ s.frame.inFrame = false)) ∧
    (∃ (s : State), ∃ (m : Message), s.registersWf = true ∧ s.tablesWf = true ∧ s.hasLink m.link = true ∧ m.dest = s.device ∧ m.intact = true ∧ m.agrees = true ∧ (m.epoch ≠ epochOf s.frame.k ∨ s.frame.inFrame = false ∨ s.order.remoteClosed = true ∨ s.order.inputs.isSome = true)) ∧
    (∃ (s : State), ∃ (m : Message), s.registersWf = true ∧ s.tablesWf = true ∧ s.hasLink m.link = true ∧ m.dest = s.device ∧ m.intact = true ∧ m.agrees = true ∧ m.epoch = epochOf s.frame.k ∧ s.frame.inFrame = true ∧ s.order.remoteClosed = false ∧ s.order.inputs = none) ∧
    (∃ (s : State), ∃ (m : Message), let d := beAt m.body 16 2; s.registersWf = true ∧ s.tablesWf = true ∧ s.hasLink m.link = true ∧ m.intact = true ∧ m.agrees = true ∧ (s.isHead = true ∨ parsePayload (d == 0xFFFF) (m.body.drop 32) = none)) ∧
    (∃ (s : State), ∃ (m : Message), let d := beAt m.body 16 2; ∃ (img : Image), ∃ (recs : List WRec), ∃ (eoe : Bool), s.registersWf = true ∧ s.tablesWf = true ∧ s.hasLink m.link = true ∧ m.intact = true ∧ m.agrees = true ∧ s.isHead = false ∧ s.cfg.image = some img ∧ parsePayload (d == 0xFFFF) (m.body.drop 32) = some (recs, eoe)) :=
  ⟨⟨{}, by decide⟩,
   ⟨chain 2, .squashToken 0 0 0, 0, 2, by decide, by decide, by decide, by decide, Or.inr ⟨0, 0, rfl, by decide, rfl⟩⟩,
   ⟨{}, 3, by decide⟩,
   ⟨{}, 3, 0, by decide⟩,
   ⟨{}, msg 0 (List.replicate 4112 0), by decide, by decide, by decide, by decide, (List.length_replicate)⟩,
   ⟨{}, msg 0, by decide⟩,
   ⟨{}, msg 0, by decide⟩,
   ⟨{}, msg 0 [] false, by decide⟩,
   ⟨live, msg 0xFFF blockBody, img0, blockData, 0, by decide, by decide, by decide, by decide, by decide, by decide, by decide, (blockBody_data), (List.length_replicate), (by decide +kernel), by decide, (blockBody_dowel), by decide⟩,
   ⟨{ live (img [sect 8 0 1 [(0, 1)]]) with spec := { epochs := [{ epoch := 0, base := 0, snap := [], shift := (0, 0, 0), start := none, cands := [], records := [], blocks := [], search := none, done := [], full := false }] } }, msg 0xFFF blockBody, (img [sect 8 0 1 [(0, 1)]]), blockData, 0, 0, { epoch := 0, base := 0, snap := [], shift := (0, 0, 0), start := none, cands := [], records := [], blocks := [], search := none, done := [], full := false }, by decide, by decide, by decide, by decide, by decide, by decide, by decide, (blockBody_data), (List.length_replicate), (by decide +kernel), by decide, (blockBody_dowel), by decide, by decide⟩,
   ⟨inFrame (img [sect 8 0 1 [(0, 1)]]), msg 0xFFF blockBody, (img [sect 8 0 1 [(0, 1)]]), blockData, 0, 0, by decide, by decide, by decide, by decide, by decide, by decide, by decide, (blockBody_data), (List.length_replicate), (by decide +kernel), by decide, (blockBody_dowel), by decide, by decide, by decide, by decide⟩,
   ⟨live (img [sect 8 0 1 [(0, 1)]]), msg 0xFFF blockBody, (img [sect 8 0 1 [(0, 1)]]), blockData, 0, 0, by decide, by decide, by decide, by decide, by decide, by decide, by decide, (blockBody_data), (List.length_replicate), (by decide +kernel), by decide, (blockBody_dowel), by decide, by decide, by decide⟩,
   ⟨{}, msg 0xFFF, by decide⟩,
   ⟨inFrame, msg 0xFFF, by decide⟩,
   ⟨{}, msg 0, by decide⟩,
   ⟨live, msg 0 (bytesOf 40 []), img0, [], false, by decide⟩⟩

theorem test_witness_ClampAlignsFrameStarts :
    (∃ (s : State), s.registersWf = true ∧ s.tablesWf = true ∧ s.hasTenon = false) ∧
    (∃ (s : State), ∃ (src : Source), s.registersWf = true ∧ s.tablesWf = true ∧ s.hasTenon = true ∧ s.isOwner src = false) ∧
    (∃ (s : State), ∃ (src : Source), s.registersWf = true ∧ s.tablesWf = true ∧ s.hasTenon = true ∧ s.isOwner src = true ∧ s.isHead = false) ∧
    (∃ (s : State), ∃ (src : Source), s.registersWf = true ∧ s.tablesWf = true ∧ s.hasTenon = true ∧ s.isOwner src = true ∧ s.isHead = true ∧ s.get Reg.TENON_STATUS.STATE ≠ 3 ∧ s.get Reg.TENON_STATUS.STATE ≠ 4) ∧
    (∃ (s : State), ∃ (src : Source), ∃ (h : Token), s.registersWf = true ∧ s.tablesWf = true ∧ s.hasTenon = true ∧ s.isOwner src = true ∧ s.isHead = true ∧ (s.get Reg.TENON_STATUS.STATE = 3 ∨ s.get Reg.TENON_STATUS.STATE = 4) ∧ s.fault.tokens.find? (conflicts clampToken) = some h) ∧
    (∃ (s : State), ∃ (src : Source), s.registersWf = true ∧ s.tablesWf = true ∧ s.hasTenon = true ∧ s.isOwner src = true ∧ s.isHead = true ∧ (s.get Reg.TENON_STATUS.STATE = 3 ∨ s.get Reg.TENON_STATUS.STATE = 4) ∧ s.fault.tokens.find? (conflicts clampToken) = none) ∧
    (∃ (s : State), ∃ (src : Source), s.registersWf = true ∧ s.tablesWf = true ∧ s.hasTenon = true ∧ s.isOwner src = true ∧ s.isHead = true ∧ (s.get Reg.TENON_STATUS.STATE = 3 ∨ s.get Reg.TENON_STATUS.STATE = 4) ∧ s.fault.tokens.find? (conflicts clampToken) = none ∧ 0 < s.periodNs) ∧
    (∃ (s : State), ∃ (src : Source), s.registersWf = true ∧ s.tablesWf = true ∧ s.hasTenon = true ∧ s.isOwner src = true ∧ s.isHead = true ∧ (s.get Reg.TENON_STATUS.STATE = 3 ∨ s.get Reg.TENON_STATUS.STATE = 4) ∧ s.fault.tokens.find? (conflicts clampToken) = none ∧ 1 < s.get Reg.TENON_DEVICES.COUNT) ∧
    (∃ (s : State), ∃ (src : Source), s.registersWf = true ∧ s.tablesWf = true ∧ s.hasTenon = true ∧ s.isOwner src = true ∧ s.isHead = true ∧ (s.get Reg.TENON_STATUS.STATE = 3 ∨ s.get Reg.TENON_STATUS.STATE = 4) ∧ s.fault.tokens.find? (conflicts clampToken) = none ∧ s.get Reg.TENON_DEVICES.COUNT ≤ 1) ∧
    (∃ (s : State), ∃ (l : Nat), s.registersWf = true ∧ s.tablesWf = true ∧ s.hasLink l = false) ∧
    (∃ (s : State), ∃ (l : Nat), s.registersWf = true ∧ s.tablesWf = true ∧ s.hasLink l = true ∧ (s.isHead = true ∨ s.inChain = false)) ∧
    (∃ (s : State), ∃ (l : Nat), s.registersWf = true ∧ s.tablesWf = true ∧ s.hasLink l = true ∧ s.isHead = false ∧ s.inChain = true) ∧
    (∃ (s : State), s.registersWf = true ∧ s.tablesWf = true ∧ s.isHead = false ∧ s.inChain = false) ∧
    (∃ (s : State), s.registersWf = true ∧ s.tablesWf = true ∧ s.isHead = false ∧ s.inChain = true) ∧
    (∃ (s : State), s.registersWf = true ∧ s.tablesWf = true ∧ s.isHead = true ∧ s.tenon.clamp = none) ∧
    (∃ (s : State), ∃ (c : ClampSt), s.registersWf = true ∧ s.tablesWf = true ∧ s.isHead = true ∧ s.tenon.clamp = some c ∧ 1 < c.left) ∧
    (∃ (s : State), ∃ (c : ClampSt), s.registersWf = true ∧ s.tablesWf = true ∧ s.isHead = true ∧ s.tenon.clamp = some c ∧ c.left ≤ 1) ∧
    (∃ (s : State), s.registersWf = true ∧ s.tablesWf = true) :=
  ⟨⟨{ die := { part := 2 } }, by decide⟩,
   ⟨{}, guest, by decide⟩,
   ⟨{}, own, by decide⟩,
   ⟨rg [(Reg.SAFE_SP_STRAPS.ROLE, 1)] {}, own, by decide⟩,
   ⟨rg [(Reg.SAFE_SP_STRAPS.ROLE, 1), (Reg.TENON_STATUS.STATE, 4)] { fault := { tokens := [clampToken] } }, own, clampToken, by decide⟩,
   ⟨rg [(Reg.SAFE_SP_STRAPS.ROLE, 1), (Reg.TENON_STATUS.STATE, 4)] {}, own, by decide⟩,
   ⟨rg [(Reg.SAFE_SP_STRAPS.ROLE, 1), (Reg.TENON_STATUS.STATE, 4), (Reg.FRAME_PERIOD.PERIOD_US, 1000)] {}, own, by decide⟩,
   ⟨rg [(Reg.SAFE_SP_STRAPS.ROLE, 1), (Reg.TENON_STATUS.STATE, 4), (Reg.TENON_DEVICES.COUNT, 2)] {}, own, by decide⟩,
   ⟨rg [(Reg.SAFE_SP_STRAPS.ROLE, 1), (Reg.TENON_STATUS.STATE, 4)] {}, own, by decide⟩,
   ⟨{}, 4, by decide⟩,
   ⟨{}, 0, by decide⟩,
   ⟨chain 2, 0, by decide⟩,
   ⟨{}, by decide⟩,
   ⟨chain 2, by decide⟩,
   ⟨rg [(Reg.SAFE_SP_STRAPS.ROLE, 1)] {}, by decide⟩,
   ⟨rg [(Reg.SAFE_SP_STRAPS.ROLE, 1)] { tenon := { clamp := some ⟨0, 2, 0, false⟩ } }, ⟨0, 2, 0, false⟩, by decide⟩,
   ⟨rg [(Reg.SAFE_SP_STRAPS.ROLE, 1)] { tenon := { clamp := some ⟨0, 1, 0, false⟩ } }, ⟨0, 1, 0, false⟩, by decide⟩,
   ⟨{}, by decide⟩⟩

theorem test_witness_PairsCompareAndRemoteRequestsRun :
    (∃ (s : State), ∃ (l : Nat), s.registersWf = true ∧ s.tablesWf = true ∧ s.hasLink l = false) ∧
    (∃ (s : State), ∃ (l : Nat), s.registersWf = true ∧ s.tablesWf = true ∧ s.hasLink l = true ∧ s.isHead = false ∧ s.inChain = false) ∧
    (∃ (s : State), ∃ (l : Nat), s.registersWf = true ∧ s.tablesWf = true ∧ s.hasLink l = true ∧ s.isHead = false ∧ s.inChain = true) ∧
    (∃ (s : State), ∃ (l : Nat), ∃ (e : Epoch), ∃ (side : Bool), ∃ (n : Nat), let other := s.tenon.pairs.find? fun y => y.epoch == e && y.sideB != side && decide (n ≤ y.time + 2 * s.periodNs); s.registersWf = true ∧ s.tablesWf = true ∧ s.hasLink l = true ∧ s.isHead = true ∧ other = none) ∧
    (∃ (s : State), ∃ (l : Nat), ∃ (e : Epoch), ∃ (w : Nat), ∃ (hit : Bool), ∃ (side : Bool), ∃ (n : Nat), let other := s.tenon.pairs.find? fun y => y.epoch == e && y.sideB != side && decide (n ≤ y.time + 2 * s.periodNs); ∃ (y : PairToken), s.registersWf = true ∧ s.tablesWf = true ∧ s.hasLink l = true ∧ s.isHead = true ∧ other = some y ∧ (hit = true ∨ y.deadlineHit = true ∨ w ≠ y.world)) ∧
    (∃ (s : State), ∃ (l : Nat), ∃ (e : Epoch), ∃ (f : Nat), ∃ (w : Nat), ∃ (hit : Bool), ∃ (side : Bool), ∃ (n : Nat), let other := s.tenon.pairs.find? fun y => y.epoch == e && y.sideB != side && decide (n ≤ y.time + 2 * s.periodNs); ∃ (y : PairToken), s.registersWf = true ∧ s.tablesWf = true ∧ s.hasLink l = true ∧ s.isHead = true ∧ other = some y ∧ hit = false ∧ y.deadlineHit = false ∧ w = y.world ∧ f = y.frame) ∧
    (∃ (s : State), ∃ (l : Nat), ∃ (e : Epoch), ∃ (f : Nat), ∃ (w : Nat), ∃ (hit : Bool), ∃ (side : Bool), ∃ (n : Nat), let other := s.tenon.pairs.find? fun y => y.epoch == e && y.sideB != side && decide (n ≤ y.time + 2 * s.periodNs); ∃ (y : PairToken), s.registersWf = true ∧ s.tablesWf = true ∧ s.hasLink l = true ∧ s.isHead = true ∧ other = some y ∧ hit = false ∧ y.deadlineHit = false ∧ w = y.world ∧ f ≠ y.frame ∧ s.fault.handling = none ∧ s.get Reg.FAULT_OD_LIMIT.PAIR_LIMIT = 0) ∧
    (∃ (s : State), ∃ (e : Epoch), s.registersWf = true ∧ s.tablesWf = true ∧ (s.tenon.pairs.any fun y => y.epoch == e) = true) ∧
    (∃ (s : State), ∃ (e : Epoch), s.registersWf = true ∧ s.tablesWf = true ∧ (s.tenon.pairs.any fun y => y.epoch == e) = false) ∧
    (∃ (s : State), ∃ (src : Source), ∃ (n : Nat), ∃ (c : Instr), s.registersWf = true ∧ s.tablesWf = true ∧ (c = .tenonEnumerateCmd src ∨ c = .remoteRead src n ∨ c = .remoteWrite src n) ∧ s.hasTenon = false) ∧
    (∃ (s : State), ∃ (src : Source), ∃ (n : Nat), ∃ (c : Instr), s.registersWf = true ∧ s.tablesWf = true ∧ (c = .tenonEnumerateCmd src ∨ c = .remoteRead src n ∨ c = .remoteWrite src n) ∧ s.hasTenon = true ∧ s.isOwner src = false) ∧
    (∃ (s : State), ∃ (src : Source), ∃ (n : Nat), ∃ (c : Instr), s.registersWf = true ∧ s.tablesWf = true ∧ (c = .tenonEnumerateCmd src ∨ c = .remoteRead src n ∨ c = .remoteWrite src n) ∧ s.hasTenon = true ∧ s.isOwner src = true ∧ c = .tenonEnumerateCmd src ∧ s.isHead = false) ∧
    (∃ (s : State), ∃ (src : Source), ∃ (n : Nat), ∃ (c : Instr), s.registersWf = true ∧ s.tablesWf = true ∧ (c = .tenonEnumerateCmd src ∨ c = .remoteRead src n ∨ c = .remoteWrite src n) ∧ s.hasTenon = true ∧ s.isOwner src = true ∧ c = .tenonEnumerateCmd src ∧ s.isHead = true) ∧
    (∃ (s : State), ∃ (src : Source), ∃ (n : Nat), ∃ (c : Instr), s.registersWf = true ∧ s.tablesWf = true ∧ (c = .tenonEnumerateCmd src ∨ c = .remoteRead src n ∨ c = .remoteWrite src n) ∧ s.hasTenon = true ∧ s.isOwner src = true ∧ c ≠ .tenonEnumerateCmd src ∧ s.get Reg.TENON_RMT_STATUS.BUSY = 1) ∧
    (∃ (s : State), ∃ (src : Source), ∃ (n : Nat), ∃ (c : Instr), s.registersWf = true ∧ s.tablesWf = true ∧ (c = .tenonEnumerateCmd src ∨ c = .remoteRead src n ∨ c = .remoteWrite src n) ∧ s.hasTenon = true ∧ s.isOwner src = true ∧ c ≠ .tenonEnumerateCmd src ∧ s.get Reg.TENON_RMT_STATUS.BUSY ≠ 1 ∧ s.routeTo (s.get Reg.TENON_RMT_DEV.DEVICE) = none) ∧
    (∃ (s : State), ∃ (src : Source), ∃ (n : Nat), ∃ (c : Instr), ∃ (l : Nat), s.registersWf = true ∧ s.tablesWf = true ∧ (c = .tenonEnumerateCmd src ∨ c = .remoteRead src n ∨ c = .remoteWrite src n) ∧ s.hasTenon = true ∧ s.isOwner src = true ∧ c ≠ .tenonEnumerateCmd src ∧ s.get Reg.TENON_RMT_STATUS.BUSY ≠ 1 ∧ s.routeTo (s.get Reg.TENON_RMT_DEV.DEVICE) = some l) ∧
    (∃ (s : State), ∃ (src : Source), ∃ (n : Nat), ∃ (c : Instr), ∃ (l : Nat), s.registersWf = true ∧ s.tablesWf = true ∧ (c = .tenonEnumerateCmd src ∨ c = .remoteRead src n ∨ c = .remoteWrite src n) ∧ s.hasTenon = true ∧ s.isOwner src = true ∧ c ≠ .tenonEnumerateCmd src ∧ s.get Reg.TENON_RMT_STATUS.BUSY ≠ 1 ∧ s.routeTo (s.get Reg.TENON_RMT_DEV.DEVICE) = some l ∧ (s.link l).lost = false) ∧
    (∃ (s : State), ∃ (source : Nat), s.registersWf = true ∧ s.tablesWf = true ∧ s.tenon.remote ≠ some source) ∧
    (∃ (s : State), ∃ (source : Nat), s.registersWf = true ∧ s.tablesWf = true ∧ s.tenon.remote = some source) :=
  ⟨⟨{}, 4, by decide⟩,
   ⟨{}, 0, by decide⟩,
   ⟨chain 2, 0, by decide⟩,
   ⟨rg [(Reg.SAFE_SP_STRAPS.ROLE, 1)] {}, 0, 0, false, 0, by decide⟩,
   ⟨rg [(Reg.SAFE_SP_STRAPS.ROLE, 1)] { tenon := { pairs := [⟨0, 0, 0, true, true, 0⟩] } }, 0, 0, 0, false, false, 0, ⟨0, 0, 0, true, true, 0⟩, by decide⟩,
   ⟨rg [(Reg.SAFE_SP_STRAPS.ROLE, 1)] { tenon := { pairs := [⟨0, 0, 0, false, true, 0⟩] } }, 0, 0, 0, 0, false, false, 0, ⟨0, 0, 0, false, true, 0⟩, by decide⟩,
   ⟨rg [(Reg.SAFE_SP_STRAPS.ROLE, 1), (Reg.FAULT_OD_LIMIT.PAIR_LIMIT, 0)] { tenon := { pairs := [⟨0, 1, 0, false, true, 0⟩] } }, 0, 0, 0, 0, false, false, 0, ⟨0, 1, 0, false, true, 0⟩, by decide⟩,
   ⟨{ tenon := { pairs := [⟨0, 0, 0, false, true, 0⟩] } }, 0, by decide⟩,
   ⟨{}, 0, by decide⟩,
   ⟨{ die := { part := 2 } }, own, 15, .remoteRead own 15, by decide⟩,
   ⟨{}, guest, 15, .remoteRead guest 15, by decide⟩,
   ⟨{}, own, 15, .tenonEnumerateCmd own, by decide⟩,
   ⟨rg [(Reg.SAFE_SP_STRAPS.ROLE, 1)] {}, own, 15, .tenonEnumerateCmd own, by decide⟩,
   ⟨rg [(Reg.TENON_RMT_STATUS.BUSY, 1)], own, 15, .remoteRead own 15, by decide⟩,
   ⟨{}, own, 15, .remoteRead own 15, by decide⟩,
   ⟨rg [(Reg.TENON_RMT_DEV.DEVICE, 0)] { tenon := { routes := [(0, 1)] } }, own, 15, .remoteRead own 15, 1, by decide⟩,
   ⟨rg [(Reg.TENON_RMT_DEV.DEVICE, 0)] { tenon := { routes := [(0, 1)] } }, own, 15, .remoteRead own 15, 1, by decide⟩,
   ⟨{}, 0, by decide⟩,
   ⟨{ tenon := { remote := some 0 } }, 0, by decide⟩⟩

theorem test_witness_ErrorsAreHandledMergedOrQueued :
    (∃ (s : State), ∃ (e : ErrorInfo), s.registersWf = true ∧ s.tablesWf = true ∧ e.zone ≠ 11 ∧ zoneSize e.zone ≤ e.index) ∧
    (∃ (s : State), ∃ (e : ErrorInfo), s.registersWf = true ∧ s.tablesWf = true ∧ e.index < zoneSize e.zone ∧ s.fault.handling = none ∧ e.cls ≤ 2 ∧ ¬(e.zone = 9 ∧ e.outcome = 2)) ∧
    (∃ (s : State), ∃ (e : ErrorInfo), s.registersWf = true ∧ s.tablesWf = true ∧ e.index < zoneSize e.zone ∧ s.fault.handling = none ∧ e.cls ≤ 2 ∧ ¬(e.zone = 9 ∧ e.outcome = 2) ∧ e.zone = 5 ∧ e.mech = 2 ∧ e.cls = 0) ∧
    (∃ (s : State), ∃ (e : ErrorInfo), s.registersWf = true ∧ s.tablesWf = true ∧ e.index < zoneSize e.zone ∧ s.fault.handling = none ∧ e.cls = 3 ∧ s.safety.restart = 0 ∧ s.sec.boot = none) ∧
    (∃ (s : State), ∃ (e : ErrorInfo), s.registersWf = true ∧ s.tablesWf = true ∧ e.index < zoneSize e.zone ∧ s.fault.handling = none ∧ e.cls = 3 ∧ s.safety.restart = 0 ∧ s.sec.boot = none ∧ s.cfg.image.isSome = true ∧ s.safety.permanent = false ∧ s.get Reg.SAFE_MODE.MODE ≠ modeSafe ∧ s.get Reg.SAFE_MODE.MODE ≠ modeHold) ∧
    (∃ (s : State), ∃ (e : ErrorInfo), ∃ (g : Handling), s.registersWf = true ∧ s.tablesWf = true ∧ e.index < zoneSize e.zone ∧ s.fault.handling = some g ∧ ¬(e.zone = 9 ∧ e.outcome = 2) ∧ g.info.zone = e.zone ∧ g.info.index = e.index ∧ max g.info.cls e.cls < 2) ∧
    (∃ (s : State), ∃ (e : ErrorInfo), ∃ (g : Handling), s.registersWf = true ∧ s.tablesWf = true ∧ e.index < zoneSize e.zone ∧ s.fault.handling = some g ∧ ¬(e.zone = 9 ∧ e.outcome = 2) ∧ (g.info.zone ≠ e.zone ∨ g.info.index ≠ e.index) ∧ s.fault.queue.length < 8 ∧ e.cls ≤ 2) ∧
    (∃ (s : State), ∃ (e : ErrorInfo), ∃ (g : Handling), s.registersWf = true ∧ s.tablesWf = true ∧ e.index < zoneSize e.zone ∧ s.fault.handling = some g ∧ ¬(e.zone = 9 ∧ e.outcome = 2) ∧ (g.info.zone ≠ e.zone ∨ g.info.index ≠ e.index) ∧ 8 ≤ s.fault.queue.length) ∧
    (∃ (s : State), s.registersWf = true ∧ s.tablesWf = true ∧ s.fault.handling = none) ∧
    (∃ (s : State), ∃ (h : Handling), ∃ (outcome : Nat), s.registersWf = true ∧ s.tablesWf = true ∧ s.fault.handling = some h ∧ ¬(h.info.zone = 2 ∧ outcome = 2 ∧ h.info.mech = 1)) ∧
    (∃ (s : State), ∃ (h : Handling), ∃ (outcome : Nat), s.registersWf = true ∧ s.tablesWf = true ∧ s.fault.handling = some h ∧ ¬(h.info.zone = 2 ∧ outcome = 2 ∧ h.info.mech = 1) ∧ h.info.cls = 0) ∧
    (∃ (s : State), ∃ (h : Handling), ∃ (outcome : Nat), s.registersWf = true ∧ s.tablesWf = true ∧ s.fault.handling = some h ∧ ¬(h.info.zone = 2 ∧ outcome = 2 ∧ h.info.mech = 1) ∧ 1 ≤ h.info.cls ∧ ¬(h.info.cls = 1 ∧ outcome = 2)) ∧
    (∃ (s : State), ∃ (h : Handling), ∃ (outcome : Nat), s.registersWf = true ∧ s.tablesWf = true ∧ s.fault.handling = some h ∧ ¬(h.info.zone = 2 ∧ outcome = 2 ∧ h.info.mech = 1) ∧ h.info.cls = 1 ∧ outcome = 2) ∧
    (∃ (s : State), ∃ (tile : Nat), s.registersWf = true ∧ s.tablesWf = true ∧ s.tiles ≤ tile) ∧
    (∃ (s : State), ∃ (tile : Nat), ∃ (i : Nat), ∃ (img : Image), ∃ (d : DoneTask), s.registersWf = true ∧ s.tablesWf = true ∧ tile < s.tiles ∧ s.cfg.image = some img ∧ ((s.jig.held.filter fun d => d.tile == tile && d.replay) ++ s.jig.released.filter fun d => d.tile == tile && !d.outs.isEmpty)[i]? = some d ∧ (s.unit 0 (s.phys tile)).state = 1 ∧ ((List.range 36).any fun q => bitOf s.die.tiles q && s.unitGood 0 q && !s.die.bind.contains q && !(s.fault.tokens.any fun h => conflicts { act := 8, cls := 0, idx := q } h)) = true) :=
  ⟨⟨{}, mkError 0 36 0 0 0, by decide⟩,
   ⟨{}, mkError 6 3 2 0 0, by decide⟩,
   ⟨{}, mkError 5 63 0 2 0, by decide⟩,
   ⟨{}, mkError 8 0 3 0 0, by decide⟩,
   ⟨live, mkError 8 0 3 0 0, by decide⟩,
   ⟨busy (mkError 0 0 1 3 0), mkError 0 0 0 0 0, ⟨(mkError 0 0 1 3 0), 0, 0⟩, by decide⟩,
   ⟨busy (mkError 0 0 1 3 0), mkError 0 35 2 0 0, ⟨(mkError 0 0 1 3 0), 0, 0⟩, by decide⟩,
   ⟨busy (mkError 0 0 1 3 0) [⟨mkError 1 7 1 3 0, 0, 0⟩, ⟨mkError 1 7 1 3 0, 0, 0⟩, ⟨mkError 1 7 1 3 0, 0, 0⟩, ⟨mkError 1 7 1 3 0, 0, 0⟩, ⟨mkError 1 7 1 3 0, 0, 0⟩, ⟨mkError 1 7 1 3 0, 0, 0⟩, ⟨mkError 1 7 1 3 0, 0, 0⟩, ⟨mkError 1 7 1 3 0, 0, 0⟩], mkError 0 35 2 0 0, ⟨(mkError 0 0 1 3 0), 0, 0⟩, by decide⟩,
   ⟨{}, by decide⟩,
   ⟨busy (mkError 10 0 3 0 0), ⟨mkError 10 0 3 0 0, 0, 0⟩, 0, by decide⟩,
   ⟨busy (mkError 10 0 0 0 0), ⟨mkError 10 0 0 0 0, 0, 0⟩, 0, by decide⟩,
   ⟨busy (mkError 10 0 2 0 0), ⟨mkError 10 0 2 0 0, 0, 0⟩, 0, by decide⟩,
   ⟨busy (mkError 10 0 1 0 0), ⟨mkError 10 0 1 0 0, 0, 0⟩, 2, by decide⟩,
   ⟨{}, 32, by decide⟩,
   ⟨{ unitIs 0 0 { state := 1 } with cfg := { image := some img0 }, jig := { held := [⟨3, 0, 0, 0, 0, [.cand 0 0 0], true⟩] } }, 0, 0, img0, ⟨3, 0, 0, 0, 0, [.cand 0 0 0], true⟩, by decide⟩⟩

theorem test_witness_FieldTestsScrubsAndTheirFrames :
    (∃ (s : State), ∃ (cls : Nat), ∃ (idx : Nat), s.registersWf = true ∧ s.tablesWf = true ∧ (cls = 11 ∨ zoneSize cls ≤ idx)) ∧
    (∃ (s : State), ∃ (cls : Nat), ∃ (idx : Nat), let u := s.unit cls idx; s.registersWf = true ∧ s.tablesWf = true ∧ cls ≠ 11 ∧ idx < zoneSize cls ∧ (s.hasTest cls idx = false ∨ u.due = true ∨ u.active = true)) ∧
    (∃ (s : State), ∃ (cls : Nat), ∃ (idx : Nat), let u := s.unit cls idx; ∃ (c : Instr), ∃ (src : Source), ∃ (v : Word), s.registersWf = true ∧ s.tablesWf = true ∧ cls ≠ 11 ∧ idx < zoneSize cls ∧ (c = .fieldTestDue cls idx ∨ c = .faultTestCmd src v ∧ s.isOwner src = true ∧ v.toNat / 256 % 256 = cls ∧ v.toNat % 256 = idx) ∧ s.hasTest cls idx = true ∧ u.due = false ∧ u.active = false) ∧
    (∃ (s : State), ∃ (cls : Nat), ∃ (idx : Nat), let u := s.unit cls idx; ∃ (c : Instr), ∃ (src : Source), ∃ (v : Word), s.registersWf = true ∧ s.tablesWf = true ∧ cls ≠ 11 ∧ idx < zoneSize cls ∧ (c = .fieldTestDue cls idx ∨ c = .faultTestCmd src v ∧ s.isOwner src = true ∧ v.toNat / 256 % 256 = cls ∧ v.toNat % 256 = idx) ∧ s.hasTest cls idx = true ∧ u.due = false ∧ u.active = false ∧ c = .faultTestCmd src v) ∧
    (∃ (s : State), ∃ (cls : Nat), ∃ (idx : Nat), s.registersWf = true ∧ s.tablesWf = true ∧ cls ≠ 11 ∧ idx < zoneSize cls ∧ s.sliceRuns cls idx = false) ∧
    (∃ (s : State), ∃ (cls : Nat), ∃ (idx : Nat), let u := s.unit cls idx; s.registersWf = true ∧ s.tablesWf = true ∧ cls ≠ 11 ∧ idx < zoneSize cls ∧ s.sliceRuns cls idx = true ∧ u.slices + 1 < testSlices cls) ∧
    (∃ (s : State), ∃ (cls : Nat), ∃ (idx : Nat), let u := s.unit cls idx; s.registersWf = true ∧ s.tablesWf = true ∧ cls ≠ 11 ∧ idx < zoneSize cls ∧ s.sliceRuns cls idx = true ∧ testSlices cls ≤ u.slices + 1) ∧
    (∃ (s : State), ∃ (cls : Nat), ∃ (idx : Nat), let u := s.unit cls idx; s.registersWf = true ∧ s.tablesWf = true ∧ cls ≠ 11 ∧ idx < zoneSize cls ∧ s.sliceRuns cls idx = true ∧ testSlices cls ≤ u.slices + 1 ∧ u.state = 1) ∧
    (∃ (s : State), ∃ (cls : Nat), ∃ (idx : Nat), let u := s.unit cls idx; s.registersWf = true ∧ s.tablesWf = true ∧ cls ≠ 11 ∧ idx < zoneSize cls ∧ s.sliceRuns cls idx = true ∧ u.repeating = false) ∧
    (∃ (s : State), ∃ (cls : Nat), ∃ (idx : Nat), let u := s.unit cls idx; s.registersWf = true ∧ s.tablesWf = true ∧ cls ≠ 11 ∧ idx < zoneSize cls ∧ s.sliceRuns cls idx = true ∧ u.repeating = true ∧ s.fault.handling = none ∧ (cls = 1 ∨ cls = 3 ∨ cls = 4 ∨ cls = 0 ∧ (idx ∉ s.die.bind ∨ s.spareTile.isSome = true))) ∧
    (∃ (s : State), ∃ (cls : Nat), ∃ (idx : Nat), let u := s.unit cls idx; s.registersWf = true ∧ s.tablesWf = true ∧ cls ≠ 11 ∧ idx < zoneSize cls ∧ u.due = true ∧ u.state = 0 ∧ (cls = 0 ∨ cls = 4)) ∧
    (∃ (s : State), ∃ (cls : Nat), ∃ (idx : Nat), let u := s.unit cls idx; s.registersWf = true ∧ s.tablesWf = true ∧ cls ≠ 11 ∧ idx < zoneSize cls ∧ u.due = true ∧ u.state = 1 ∧ (cls = 0 ∨ cls = 4)) ∧
    (∃ (s : State), ∃ (cls : Nat), ∃ (idx : Nat), let u := s.unit cls idx; s.registersWf = true ∧ s.tablesWf = true ∧ cls ≠ 11 ∧ idx < zoneSize cls ∧ u.due = true ∧ u.state = 1 ∧ (cls = 0 ∨ cls = 4) ∧ cls = 4) ∧
    (∃ (s : State), ∃ (cls : Nat), ∃ (idx : Nat), let u := s.unit cls idx; s.registersWf = true ∧ s.tablesWf = true ∧ cls ≠ 11 ∧ idx < zoneSize cls ∧ (u.due = false ∨ (cls ≠ 0 ∧ cls ≠ 4) ∨ 2 ≤ u.state)) ∧
    (∃ (s : State), ∃ (cls : Nat), ∃ (idx : Nat), s.registersWf = true ∧ s.tablesWf = true ∧ cls ≠ 11 ∧ idx < zoneSize cls ∧ (s.get Reg.SEC_DEBUG_STATUS.STATE ≠ 2 ∨ (cls, idx) ∉ s.fault.retired)) ∧
    (∃ (s : State), ∃ (cls : Nat), ∃ (idx : Nat), s.registersWf = true ∧ s.tablesWf = true ∧ cls ≠ 11 ∧ idx < zoneSize cls ∧ s.get Reg.SEC_DEBUG_STATUS.STATE = 2 ∧ (cls, idx) ∈ s.fault.retired) ∧
    (∃ (s : State), ∃ (cls : Nat), ∃ (idx : Nat), s.registersWf = true ∧ s.tablesWf = true ∧ cls ≠ 11 ∧ idx < zoneSize cls ∧ s.get Reg.SEC_DEBUG_STATUS.STATE = 2 ∧ (cls, idx) ∈ s.fault.retired ∧ cls = 0) ∧
    (∃ (s : State), ∃ (src : Source), s.registersWf = true ∧ s.tablesWf = true ∧ s.isOwner src = false) ∧
    (∃ (s : State), ∃ (src : Source), ∃ (v : Word), s.registersWf = true ∧ s.tablesWf = true ∧ s.isOwner src = true ∧ s.hasTest (v.toNat / 256 % 256) (v.toNat % 256) = false) ∧
    (∃ (s : State), ∃ (src : Source), ∃ (v : Word), s.registersWf = true ∧ s.tablesWf = true ∧ s.isOwner src = true ∧ s.hasTest (v.toNat / 256 % 256) (v.toNat % 256) = true ∧ (s.unit (v.toNat / 256 % 256) (v.toNat % 256)).due = true) ∧
    (∃ (s : State), ∃ (n : Nat), s.registersWf = true ∧ s.tablesWf = true ∧ s.stacks ≤ n) ∧
    (∃ (s : State), ∃ (n : Nat), s.registersWf = true ∧ s.tablesWf = true ∧ 4 ≤ n) ∧
    (∃ (s : State), ∃ (c : Instr), ∃ (tok : Token), s.registersWf = true ∧ s.tablesWf = true ∧ ((∃ n, c = .hbmScrub n ∧ n < s.stacks ∧ tok = { act := 1, cls := 0, idx := n }) ∨ (∃ n, c = .ledgerScrub n ∧ n < 4 ∧ tok = { act := 3, cls := 0, idx := n }) ∨ c = .clockTrim ∧ tok = { act := 7, cls := 0, idx := domChecker }) ∧ s.fault.tokens.contains tok = true) ∧
    (∃ (s : State), ∃ (c : Instr), ∃ (tok : Token), s.registersWf = true ∧ s.tablesWf = true ∧ ((∃ n, c = .hbmScrub n ∧ n < s.stacks ∧ tok = { act := 1, cls := 0, idx := n }) ∨ (∃ n, c = .ledgerScrub n ∧ n < 4 ∧ tok = { act := 3, cls := 0, idx := n }) ∨ c = .clockTrim ∧ tok = { act := 7, cls := 0, idx := domChecker }) ∧ s.fault.tokens.contains tok = false ∧ (tok.act ≠ 3 ∨ s.get Reg.LEDGER_STATUS.PHASE = 0) ∧ s.fault.tokens.find? (conflicts tok) = none) ∧
    (∃ (s : State), ∃ (c : Instr), ∃ (tok : Token), ∃ (h : Token), s.registersWf = true ∧ s.tablesWf = true ∧ ((∃ n, c = .hbmScrub n ∧ n < s.stacks ∧ tok = { act := 1, cls := 0, idx := n }) ∨ (∃ n, c = .ledgerScrub n ∧ n < 4 ∧ tok = { act := 3, cls := 0, idx := n }) ∨ c = .clockTrim ∧ tok = { act := 7, cls := 0, idx := domChecker }) ∧ s.fault.tokens.contains tok = false ∧ (tok.act ≠ 3 ∨ s.get Reg.LEDGER_STATUS.PHASE = 0) ∧ s.fault.tokens.find? (conflicts tok) = some h) ∧
    (∃ (s : State), ∃ (c : Instr), ∃ (tok : Token), s.registersWf = true ∧ s.tablesWf = true ∧ ((∃ n, c = .hbmScrub n ∧ n < s.stacks ∧ tok = { act := 1, cls := 0, idx := n }) ∨ (∃ n, c = .ledgerScrub n ∧ n < 4 ∧ tok = { act := 3, cls := 0, idx := n }) ∨ c = .clockTrim ∧ tok = { act := 7, cls := 0, idx := domChecker }) ∧ s.fault.tokens.contains tok = false ∧ tok.act = 3 ∧ s.get Reg.LEDGER_STATUS.PHASE ≠ 0) ∧
    (∃ (s : State), s.registersWf = true ∧ s.tablesWf = true ∧ (s.fault.records = [] ∨ s.maySend 0 0x40 = false)) ∧
    (∃ (s : State), ∃ (r : FaultRec), ∃ (rest : List FaultRec), s.registersWf = true ∧ s.tablesWf = true ∧ s.fault.records = r :: rest ∧ s.maySend 0 0x40 = true) ∧
    (∃ (s : State), let u := min s.eth.traceUnsent s.jig.trace.length; s.registersWf = true ∧ s.tablesWf = true ∧ (s.get Reg.ETH_CTL.TRACE_STREAM = 0 ∨ u = 0 ∨ s.maySend 0 0x70 = false)) ∧
    (∃ (s : State), let u := min s.eth.traceUnsent s.jig.trace.length; s.registersWf = true ∧ s.tablesWf = true ∧ s.get Reg.ETH_CTL.TRACE_STREAM ≠ 0 ∧ 0 < u ∧ s.maySend 0 0x70 = true) :=
  ⟨⟨{}, 4, 4, by decide⟩,
   ⟨{}, 10, 0, by decide⟩,
   ⟨{}, 4, 3, .faultTestCmd own 0x403, own, 0x403, by decide⟩,
   ⟨{}, 4, 3, .faultTestCmd own 0x403, own, 0x403, by decide⟩,
   ⟨{}, 4, 3, by decide⟩,
   ⟨unitIs 4 3 { slices := 22 } true, 4, 3, by decide⟩,
   ⟨unitIs 4 3 { slices := 23 } true, 4, 3, by decide⟩,
   ⟨unitIs 4 3 { slices := 23, state := 1, clean := 15 } true, 4, 3, by decide⟩,
   ⟨unitIs 4 3 {} true, 4, 3, by decide⟩,
   ⟨unitIs 4 3 { repeating := true } true, 4, 3, by decide⟩,
   ⟨unitIs 0 35 { due := true } false, 0, 35, by decide⟩,
   ⟨unitIs 0 35 { due := true, state := 1 } false, 0, 35, by decide⟩,
   ⟨unitIs 4 3 { due := true, state := 1 } false, 4, 3, by decide⟩,
   ⟨unitIs 4 3 { due := true, state := 2 } false, 4, 3, by decide⟩,
   ⟨{}, 4, 3, by decide⟩,
   ⟨rg [(Reg.SEC_DEBUG_STATUS.STATE, 2)] { fault := { retired := [(0, 35)] } }, 0, 35, by decide⟩,
   ⟨rg [(Reg.SEC_DEBUG_STATUS.STATE, 2)] { fault := { retired := [(0, 35)] } }, 0, 35, by decide⟩,
   ⟨{}, guest, by decide⟩,
   ⟨{}, own, 0xA00, by decide⟩,
   ⟨unitIs 4 3 { due := true }, own, 0x403, by decide⟩,
   ⟨{ die := { part := 1 } }, 1, by decide⟩,
   ⟨{}, 4, by decide⟩,
   ⟨{ fault := { tokens := [{ act := 3, cls := 0, idx := 3 }] } }, .ledgerScrub 3, { act := 3, cls := 0, idx := 3 }, by decide, by decide, Or.inr (Or.inl ⟨3, rfl, by decide, rfl⟩), by decide⟩,
   ⟨{}, .ledgerScrub 3, { act := 3, cls := 0, idx := 3 }, by decide, by decide, Or.inr (Or.inl ⟨3, rfl, by decide, rfl⟩), by decide, by decide, by decide⟩,
   ⟨{ fault := { tokens := [{ act := 4, cls := 0, idx := 0 }] } }, .ledgerScrub 3, { act := 3, cls := 0, idx := 3 }, { act := 4, cls := 0, idx := 0 }, by decide, by decide, Or.inr (Or.inl ⟨3, rfl, by decide, rfl⟩), by decide, by decide, by decide⟩,
   ⟨rg [(Reg.LEDGER_STATUS.PHASE, 1)], .ledgerScrub 3, { act := 3, cls := 0, idx := 3 }, by decide, by decide, Or.inr (Or.inl ⟨3, rfl, by decide, rfl⟩), by decide, by decide, by decide⟩,
   ⟨{}, by decide⟩,
   ⟨{ fault := { records := [⟨0, ⟨mkError 0 0 0 0 0, 0, 0⟩, [], 0, 0, 0, 0⟩] } }, ⟨0, ⟨mkError 0 0 0 0 0, 0, 0⟩, [], 0, 0, 0, 0⟩, [], by decide⟩,
   ⟨{}, by decide⟩,
   ⟨rg [(Reg.ETH_CTL.TRACE_STREAM, 1)] { eth := { traceUnsent := 1 }, jig := { trace := [[]] } }, by decide⟩⟩

theorem test_witness_EntriesAndWakeEvents :
    (∃ s : State, s.registersWf = true ∧ s.isOwner guest = false) ∧
    (∃ s : State, s.registersWf = true ∧ s.isOwner own = true ∧ (s.cfg.image = none ∨ s.frame.running = false ∨ s.switching = true ∨ s.unsettled = true ∨ s.digest.replay.isSome = true ∨ s.power.entry ≠ 0)) ∧
    (∃ (s : State), ∃ (src : Source), s.registersWf = true ∧ s.isOwner src = false) ∧
    (∃ (s : State), ∃ (src : Source), s.registersWf = true ∧ s.isOwner src = true ∧ (s.power.entry = 0 ∨ s.power.closing = true)) ∧
    (∃ (s : State), ∃ (src : Source), s.registersWf = true ∧ s.isOwner src = true ∧ s.power.entry ≠ 0 ∧ s.power.closing = false) ∧
    (∃ s : State, s.registersWf = true ∧ s.isOwner own = true ∧ ¬(s.cfg.image = none ∨ s.frame.running = false ∨ s.switching = true ∨ s.unsettled = true ∨ s.digest.replay.isSome = true ∨ s.power.entry ≠ 0) ∧ s.fault.tokens ≠ []) ∧
    (∃ s : State, s.registersWf = true ∧ s.isOwner own = true ∧ ¬(s.cfg.image = none ∨ s.frame.running = false ∨ s.switching = true ∨ s.unsettled = true ∨ s.digest.replay.isSome = true ∨ s.power.entry ≠ 0) ∧ s.fault.tokens = []) ∧
    (∃ s : State, s.registersWf = true ∧ bitOf img0.powerFlags 1 = false ∧ s.cfg.image = some img0) ∧
    (∃ s : State, ∃ img : Image, s.registersWf = true ∧ s.cfg.image = some img ∧ bitOf img.powerFlags 1 = true ∧ (∀ q < 7, s.get (Reg.PWR_LEASE.MS (q + 1)) = 0) ∧ (∀ j ∈ s.eth.jobs, 2 ≤ j.state) ∧ (∃ t, s.power.restSince = some t ∧ t + 1000000 * (img.autoMs : Int) ≤ s.frame.now) ∧ ¬(s.cfg.image = none ∨ s.frame.running = false ∨ s.switching = true ∨ s.unsettled = true ∨ s.digest.replay.isSome = true ∨ s.power.entry ≠ 0) ∧ s.fault.tokens = []) ∧
    (∃ (s : State), ∃ (c : Instr), ∃ (m : Nat), ∃ (level : Bool), ∃ (u : State), s.registersWf = true ∧ ((∃ p < 4, c = .energyDetect p ∧ s.wakePort p 0 = true ∧ m = 1 ∧ level = true ∧ u = s) ∨ (∃ p < 4, c = .anyFrameWake p ∧ s.wakePort p 1 = true ∧ m = 2 ∧ level = false ∧ u = s) ∨ (∃ f : Frame, c = .wakeFrame f ∧ f.port < 4 ∧ f.ty = 0x7E ∧ f.linkOk = true ∧ f.payload = wakePattern ∧ s.wakePort f.port 2 = true ∧ m = 4 ∧ level = false ∧ u = s) ∨ (∃ l, c = .wakeKnock l ∧ s.hasLink l = true ∧ bitOf (s.get Reg.PWR_WAKE_CTL.KNOCK_ACCEPT) l = true ∧ m = 8 ∧ level = false ∧ u = s) ∨ (c = .aonAlarm ∧ s.get64 Reg.PWR_ALARM_LO.LO Reg.PWR_ALARM_HI.HI ≠ 0 ∧ m = 32 ∧ level = true ∧ u = { s with power := { s.power with alarm := true } }) ∨ (c = .thermalAlarm ∧ s.flag Reg.PWR_WAKE_CTL.THERMAL_WAKE = true ∧ m = 64 ∧ level = true ∧ u = s)) ∧ s.power.asleep ≠ 0 ∧ s.power.waking = 0) ∧
    (∃ (s : State), ∃ (c : Instr), ∃ (m : Nat), ∃ (level : Bool), ∃ (u : State), s.registersWf = true ∧ ((∃ p < 4, c = .energyDetect p ∧ s.wakePort p 0 = true ∧ m = 1 ∧ level = true ∧ u = s) ∨ (∃ p < 4, c = .anyFrameWake p ∧ s.wakePort p 1 = true ∧ m = 2 ∧ level = false ∧ u = s) ∨ (∃ f : Frame, c = .wakeFrame f ∧ f.port < 4 ∧ f.ty = 0x7E ∧ f.linkOk = true ∧ f.payload = wakePattern ∧ s.wakePort f.port 2 = true ∧ m = 4 ∧ level = false ∧ u = s) ∨ (∃ l, c = .wakeKnock l ∧ s.hasLink l = true ∧ bitOf (s.get Reg.PWR_WAKE_CTL.KNOCK_ACCEPT) l = true ∧ m = 8 ∧ level = false ∧ u = s) ∨ (c = .aonAlarm ∧ s.get64 Reg.PWR_ALARM_LO.LO Reg.PWR_ALARM_HI.HI ≠ 0 ∧ m = 32 ∧ level = true ∧ u = { s with power := { s.power with alarm := true } }) ∨ (c = .thermalAlarm ∧ s.flag Reg.PWR_WAKE_CTL.THERMAL_WAKE = true ∧ m = 64 ∧ level = true ∧ u = s)) ∧ s.power.asleep ≠ 0 ∧ s.power.waking ≠ 0) ∧
    (∃ (s : State), ∃ (c : Instr), ∃ (m : Nat), ∃ (level : Bool), ∃ (u : State), s.registersWf = true ∧ ((∃ p < 4, c = .energyDetect p ∧ s.wakePort p 0 = true ∧ m = 1 ∧ level = true ∧ u = s) ∨ (∃ p < 4, c = .anyFrameWake p ∧ s.wakePort p 1 = true ∧ m = 2 ∧ level = false ∧ u = s) ∨ (∃ f : Frame, c = .wakeFrame f ∧ f.port < 4 ∧ f.ty = 0x7E ∧ f.linkOk = true ∧ f.payload = wakePattern ∧ s.wakePort f.port 2 = true ∧ m = 4 ∧ level = false ∧ u = s) ∨ (∃ l, c = .wakeKnock l ∧ s.hasLink l = true ∧ bitOf (s.get Reg.PWR_WAKE_CTL.KNOCK_ACCEPT) l = true ∧ m = 8 ∧ level = false ∧ u = s) ∨ (c = .aonAlarm ∧ s.get64 Reg.PWR_ALARM_LO.LO Reg.PWR_ALARM_HI.HI ≠ 0 ∧ m = 32 ∧ level = true ∧ u = { s with power := { s.power with alarm := true } }) ∨ (c = .thermalAlarm ∧ s.flag Reg.PWR_WAKE_CTL.THERMAL_WAKE = true ∧ m = 64 ∧ level = true ∧ u = s)) ∧ s.power.asleep = 0 ∧ s.power.entry = 0) ∧
    (∃ (s : State), ∃ (c : Instr), ∃ (m : Nat), ∃ (level : Bool), ∃ (u : State), s.registersWf = true ∧ ((∃ p < 4, c = .energyDetect p ∧ s.wakePort p 0 = true ∧ m = 1 ∧ level = true ∧ u = s) ∨ (∃ p < 4, c = .anyFrameWake p ∧ s.wakePort p 1 = true ∧ m = 2 ∧ level = false ∧ u = s) ∨ (∃ f : Frame, c = .wakeFrame f ∧ f.port < 4 ∧ f.ty = 0x7E ∧ f.linkOk = true ∧ f.payload = wakePattern ∧ s.wakePort f.port 2 = true ∧ m = 4 ∧ level = false ∧ u = s) ∨ (∃ l, c = .wakeKnock l ∧ s.hasLink l = true ∧ bitOf (s.get Reg.PWR_WAKE_CTL.KNOCK_ACCEPT) l = true ∧ m = 8 ∧ level = false ∧ u = s) ∨ (c = .aonAlarm ∧ s.get64 Reg.PWR_ALARM_LO.LO Reg.PWR_ALARM_HI.HI ≠ 0 ∧ m = 32 ∧ level = true ∧ u = { s with power := { s.power with alarm := true } }) ∨ (c = .thermalAlarm ∧ s.flag Reg.PWR_WAKE_CTL.THERMAL_WAKE = true ∧ m = 64 ∧ level = true ∧ u = s)) ∧ s.power.asleep = 0 ∧ s.power.entry ≠ 0 ∧ (s.power.closing = false ∨ level = true)) ∧
    (∃ (s : State), ∃ (c : Instr), ∃ (m : Nat), ∃ (level : Bool), ∃ (u : State), s.registersWf = true ∧ ((∃ p < 4, c = .energyDetect p ∧ s.wakePort p 0 = true ∧ m = 1 ∧ level = true ∧ u = s) ∨ (∃ p < 4, c = .anyFrameWake p ∧ s.wakePort p 1 = true ∧ m = 2 ∧ level = false ∧ u = s) ∨ (∃ f : Frame, c = .wakeFrame f ∧ f.port < 4 ∧ f.ty = 0x7E ∧ f.linkOk = true ∧ f.payload = wakePattern ∧ s.wakePort f.port 2 = true ∧ m = 4 ∧ level = false ∧ u = s) ∨ (∃ l, c = .wakeKnock l ∧ s.hasLink l = true ∧ bitOf (s.get Reg.PWR_WAKE_CTL.KNOCK_ACCEPT) l = true ∧ m = 8 ∧ level = false ∧ u = s) ∨ (c = .aonAlarm ∧ s.get64 Reg.PWR_ALARM_LO.LO Reg.PWR_ALARM_HI.HI ≠ 0 ∧ m = 32 ∧ level = true ∧ u = { s with power := { s.power with alarm := true } }) ∨ (c = .thermalAlarm ∧ s.flag Reg.PWR_WAKE_CTL.THERMAL_WAKE = true ∧ m = 64 ∧ level = true ∧ u = s)) ∧ s.power.asleep = 0 ∧ s.power.entry ≠ 0 ∧ s.power.closing = true ∧ level = false) ∧
    (∃ (s : State), ∃ (p : Nat), s.registersWf = true ∧ 4 ≤ p) ∧
    (∃ (s : State), ∃ (p : Nat), s.registersWf = true ∧ s.hasLink p = false) ∧
    (∃ (s : State), ∃ (p : Nat), s.registersWf = true ∧ 8 ≤ p) ∧
    (∃ (s : State), ∃ (p : Nat), s.registersWf = true ∧ p < 4 ∧ s.wakePort p 0 = false) ∧
    (∃ (s : State), ∃ (p : Nat), s.registersWf = true ∧ p < 4 ∧ s.wakePort p 1 = false) ∧
    (∃ (s : State), ∃ (p : Nat), s.registersWf = true ∧ p < 8 ∧ s.pins.spPhase ≠ 3) ∧
    (∃ (s : State), ∃ (p : Nat), s.registersWf = true ∧ p < 8 ∧ s.pins.spPhase = 3) ∧
    (∃ (s : State), ∃ (p : Nat), ∃ (b : Bool), let shows := b == bitOf (s.get Reg.SAFE_SP_WAKE_CFG.POLARITY) p; let before := bitOf s.safety.wakeSamples.2 p; let edge := bitOf (s.get Reg.SAFE_SP_WAKE_CFG.MODE) p; let triggers := bitOf (s.get Reg.SAFE_SP_WAKE_CFG.ENABLE) p && before && shows && !(edge && bitOf s.safety.wakeSamples.1 p); s.registersWf = true ∧ p < 8 ∧ s.pins.spPhase = 3 ∧ triggers = false) ∧
    (∃ (s : State), ∃ (p : Nat), ∃ (b : Bool), let shows := b == bitOf (s.get Reg.SAFE_SP_WAKE_CFG.POLARITY) p; let before := bitOf s.safety.wakeSamples.2 p; let edge := bitOf (s.get Reg.SAFE_SP_WAKE_CFG.MODE) p; let triggers := bitOf (s.get Reg.SAFE_SP_WAKE_CFG.ENABLE) p && before && shows && !(edge && bitOf s.safety.wakeSamples.1 p); s.registersWf = true ∧ p < 8 ∧ s.pins.spPhase = 3 ∧ triggers = true ∧ s.power.asleep ≠ 0 ∧ s.power.waking = 0) :=
  ⟨⟨{}, by decide⟩,
   ⟨live, by decide⟩,
   ⟨{}, guest, by decide⟩,
   ⟨{}, own, by decide⟩,
   ⟨{ power := { entry := 1 } }, own, by decide⟩,
   ⟨{ live with frame := { running := true }, fault := { tokens := [⟨1, 0, 0⟩] } }, by decide⟩,
   ⟨{ live with frame := { running := true } }, by decide⟩,
   ⟨live, by decide⟩,
   ⟨{ live (img [sect 0xF 0 12 [(0, 6)]]) with frame := { running := true }, power := { restSince := some 0 } }, (img [sect 0xF 0 12 [(0, 6)]]), by decide, by decide, by decide, by decide, by decide, ⟨0, by decide, by decide⟩, by decide, by decide⟩,
   ⟨rg [(Reg.PWR_WAKE_CTL.ETH_PORTS, 15), (Reg.PWR_WAKE_ETH.MODES, 4095)] { power := { asleep := 1 } }, .energyDetect 3, 1, true, rg [(Reg.PWR_WAKE_CTL.ETH_PORTS, 15), (Reg.PWR_WAKE_ETH.MODES, 4095)] { power := { asleep := 1 } }, by decide, (Or.inl ⟨3, by decide, rfl, by decide, rfl, rfl, rfl⟩), by decide, by decide⟩,
   ⟨rg [(Reg.PWR_WAKE_CTL.ETH_PORTS, 15), (Reg.PWR_WAKE_ETH.MODES, 4095)] { power := { asleep := 2, waking := 1 } }, .energyDetect 3, 1, true, rg [(Reg.PWR_WAKE_CTL.ETH_PORTS, 15), (Reg.PWR_WAKE_ETH.MODES, 4095)] { power := { asleep := 2, waking := 1 } }, by decide, (Or.inl ⟨3, by decide, rfl, by decide, rfl, rfl, rfl⟩), by decide, by decide⟩,
   ⟨rg [(Reg.PWR_WAKE_CTL.ETH_PORTS, 15), (Reg.PWR_WAKE_ETH.MODES, 4095)] { power := {  } }, .energyDetect 3, 1, true, rg [(Reg.PWR_WAKE_CTL.ETH_PORTS, 15), (Reg.PWR_WAKE_ETH.MODES, 4095)] { power := {  } }, by decide, (Or.inl ⟨3, by decide, rfl, by decide, rfl, rfl, rfl⟩), by decide, by decide⟩,
   ⟨rg [(Reg.PWR_WAKE_CTL.ETH_PORTS, 15), (Reg.PWR_WAKE_ETH.MODES, 4095)] { power := { entry := 1 } }, .energyDetect 3, 1, true, rg [(Reg.PWR_WAKE_CTL.ETH_PORTS, 15), (Reg.PWR_WAKE_ETH.MODES, 4095)] { power := { entry := 1 } }, by decide, (Or.inl ⟨3, by decide, rfl, by decide, rfl, rfl, rfl⟩), by decide, by decide, (Or.inr rfl)⟩,
   ⟨rg [(Reg.PWR_WAKE_CTL.ETH_PORTS, 15), (Reg.PWR_WAKE_ETH.MODES, 4095)] { power := { entry := 1, closing := true } }, .anyFrameWake 3, 2, false, rg [(Reg.PWR_WAKE_CTL.ETH_PORTS, 15), (Reg.PWR_WAKE_ETH.MODES, 4095)] { power := { entry := 1, closing := true } }, by decide, (Or.inr (Or.inl ⟨3, by decide, rfl, by decide, rfl, rfl, rfl⟩)), by decide, by decide, by decide, by decide⟩,
   ⟨{}, 4, by decide⟩,
   ⟨{}, 4, by decide⟩,
   ⟨{}, 8, by decide⟩,
   ⟨{}, 3, by decide⟩,
   ⟨{}, 3, by decide⟩,
   ⟨{}, 7, by decide⟩,
   ⟨{ pins := { spPhase := 3 } }, 7, by decide⟩,
   ⟨{ pins := { spPhase := 3 } }, 7, true, by decide⟩,
   ⟨rg [(Reg.SAFE_SP_WAKE_CFG.ENABLE, 128), (Reg.SAFE_SP_WAKE_CFG.POLARITY, 128)] { pins := { spPhase := 3 }, power := { asleep := 2 }, safety := { wakeSamples := (0, 128) } }, 7, true, by decide⟩⟩

theorem test_witness_SleepsWakesAndIdles :
    (∃ (s : State), s.registersWf = true ∧ s.power.closing = false) ∧
    (∃ (s : State), s.registersWf = true ∧ s.power.closing = true) ∧
    (∃ (s : State), s.registersWf = true ∧ s.power.waking ≠ 1) ∧
    (∃ (s : State), s.registersWf = true ∧ s.power.waking = 1) ∧
    (∃ (s : State), ∃ (l : Nat), s.registersWf = true ∧ s.hasLink l = false) ∧
    (∃ (s : State), ∃ (l : Nat), s.registersWf = true ∧ s.hasLink l = true ∧ s.power.knockSince = none) ∧
    (∃ (s : State), ∃ (l : Nat), ∃ (t0 : Int), s.registersWf = true ∧ s.hasLink l = true ∧ s.power.knockSince = some t0) ∧
    (∃ (s : State), s.registersWf = true ∧ s.power.waking ≠ 2) ∧
    (∃ (s : State), s.registersWf = true ∧ s.power.waking = 2) ∧
    (∃ (s : State), s.registersWf = true ∧ s.power.waking = 2 ∧ s.roadmap.isSome = true) ∧
    (∃ (s : State), s.registersWf = true ∧ s.power.waking = 2 ∧ s.isHead = true ∧ s.get Reg.TENON_STATUS.STATE ≠ 4) ∧
    (∃ (s : State), s.registersWf = true) ∧
    (∃ (s : State), ∃ (n : Nat), s.registersWf = true ∧ 54 ≤ n) ∧
    (∃ (s : State), ∃ (n : Nat), s.registersWf = true ∧ n < 36 ∧ s.get (Reg.PWR_TILE_STATE.STATE n) = 0) ∧
    (∃ (s : State), ∃ (n : Nat), s.registersWf = true ∧ n < 36 ∧ s.get (Reg.PWR_TILE_STATE.STATE n) ≠ 0) ∧
    (∃ (s : State), ∃ (n : Nat), s.registersWf = true ∧ n < 36 ∧ s.get (Reg.PWR_TILE_STATE.STATE n) = 1) ∧
    (∃ (s : State), ∃ (n : Nat), s.registersWf = true ∧ n < 36 ∧ s.get (Reg.PWR_TILE_STATE.STATE n) ≠ 1) ∧
    (∃ (s : State), ∃ (n : Nat), s.registersWf = true ∧ 36 ≤ n ∧ n < 54) ∧
    (∃ (s : State), ∃ (n : Nat), s.registersWf = true ∧ 36 ≤ n ∧ n < 54) ∧
    (∃ (s : State), ∃ (n : Nat), s.registersWf = true ∧ s.tiles ≤ n) ∧
    (∃ (s : State), ∃ (n : Nat), ∃ (img : Image), s.registersWf = true ∧ n < s.tiles ∧ s.cfg.image = some img) ∧
    (∃ (s : State), ∃ (n : Nat), let p := s.phys n; s.registersWf = true ∧ n < s.tiles ∧ s.get (Reg.PWR_TILE_STATE.STATE p) = 2) ∧
    (∃ (s : State), ∃ (n : Nat), let p := s.phys n; s.registersWf = true ∧ n < s.tiles ∧ s.get (Reg.PWR_TILE_STATE.STATE p) ≠ 2) :=
  ⟨⟨{}, by decide⟩,
   ⟨{ power := { closing := true } }, by decide⟩,
   ⟨{}, by decide⟩,
   ⟨{ power := { waking := 1 } }, by decide⟩,
   ⟨{}, 4, by decide⟩,
   ⟨{}, 3, by decide⟩,
   ⟨{ power := { knockSince := some 0 } }, 3, 0, by decide⟩,
   ⟨{}, by decide⟩,
   ⟨{ power := { waking := 2 } }, by decide⟩,
   ⟨{ live (img [sect 2 0 65 [(0x24, 1), (64, 5)]]) with power := { waking := 2 } }, by decide⟩,
   ⟨rg [(Reg.SAFE_SP_STRAPS.ROLE, 1)] { power := { waking := 2 } }, by decide⟩,
   ⟨{}, by decide⟩,
   ⟨{}, 54, by decide⟩,
   ⟨rg [(Reg.PWR_TILE_STATE.STATE 35, 0)], 35, by decide⟩,
   ⟨rg [(Reg.PWR_TILE_STATE.STATE 35, 1)], 35, by decide⟩,
   ⟨rg [(Reg.PWR_TILE_STATE.STATE 35, 1)], 35, by decide⟩,
   ⟨rg [(Reg.PWR_TILE_STATE.STATE 35, 0)], 35, by decide⟩,
   ⟨{}, 53, by decide⟩,
   ⟨{}, 36, by decide⟩,
   ⟨{}, 32, by decide⟩,
   ⟨live, 31, img0, by decide⟩,
   ⟨rg [(Reg.PWR_TILE_STATE.STATE 31, 2)], 31, by decide⟩,
   ⟨{}, 31, by decide⟩⟩

theorem test_witness_ThrottlesAndSupplies :
    (∃ (s : State), ∃ (cause : Nat), s.registersWf = true ∧ 3 ≤ cause) ∧
    (∃ (s : State), ∃ (cause : Nat), s.registersWf = true ∧ cause < 3) ∧
    (∃ (s : State), s.registersWf = true) ∧
    (∃ (s : State), ∃ (k : Nat), s.registersWf = true ∧ s.stacks ≤ k) ∧
    (∃ (s : State), ∃ (k : Nat), ∃ (temp : Nat), s.registersWf = true ∧ k < s.stacks ∧ (temp ≤ 85 ∨ s.flag (Reg.HBM_STATUS.REFRESH_2X k) = true)) ∧
    (∃ (s : State), ∃ (k : Nat), ∃ (temp : Nat), let tok : Token := { act := 2, cls := 5, idx := k }; s.registersWf = true ∧ k < s.stacks ∧ 85 < temp ∧ s.flag (Reg.HBM_STATUS.REFRESH_2X k) = false ∧ s.fault.tokens.find? (conflicts tok) = none) ∧
    (∃ (s : State), ∃ (k : Nat), ∃ (temp : Nat), let tok : Token := { act := 2, cls := 5, idx := k }; ∃ (h : Token), s.registersWf = true ∧ k < s.stacks ∧ 85 < temp ∧ s.flag (Reg.HBM_STATUS.REFRESH_2X k) = false ∧ s.fault.tokens.find? (conflicts tok) = some h) ∧
    (∃ (s : State), ∃ (rail : Nat), s.registersWf = true ∧ (9 ≤ rail ∨ rail = 0)) ∧
    (∃ (s : State), ∃ (c : Instr), s.registersWf = true ∧ ((∃ rail, c = .railFault rail ∧ 1 ≤ rail ∧ rail < 9) ∨ (∃ w : Word, c = .pmbAlert w ∧ w.toNat &&& 0xDF7F ≠ 0)) ∧ s.pins.resetN = false) ∧
    (∃ (s : State), ∃ (c : Instr), s.registersWf = true ∧ ((∃ rail, c = .railFault rail ∧ 1 ≤ rail ∧ rail < 9) ∨ (∃ w : Word, c = .pmbAlert w ∧ w.toNat &&& 0xDF7F ≠ 0)) ∧ s.pins.resetN = true ∧ s.fault.handling = none) ∧
    (∃ (s : State), ∃ (w : Word), s.registersWf = true ∧ w.toNat &&& 0xDF7F = 0) ∧
    (∃ (s : State), s.registersWf = true ∧ s.pins.aonSupply = false) ∧
    (∃ (s : State), s.registersWf = true ∧ s.pins.aonSupply = true) :=
  ⟨⟨{}, 3, by decide⟩,
   ⟨{}, 2, by decide⟩,
   ⟨{}, by decide⟩,
   ⟨{}, 2, by decide⟩,
   ⟨{}, 1, 85, by decide⟩,
   ⟨{}, 1, 86, by decide⟩,
   ⟨{ fault := { tokens := [{ act := 1, cls := 0, idx := 1 }] } }, 1, 86, { act := 1, cls := 0, idx := 1 }, by decide⟩,
   ⟨{}, 9, by decide⟩,
   ⟨{}, .railFault 8, by decide, (Or.inl ⟨8, rfl, by decide, by decide⟩), by decide⟩,
   ⟨{ pins := { resetN := true } }, .pmbAlert 1, by decide, (Or.inr ⟨1, rfl, by decide⟩), by decide, by decide⟩,
   ⟨{}, 0x80, by decide⟩,
   ⟨{ pins := { aonSupply := false } }, by decide⟩,
   ⟨{}, by decide⟩⟩

theorem test_witness_ResetStrapsAndRestartCommands :
    (∃ (s : State), s.registersWf = true) ∧
    (∃ (s : State), s.registersWf = true ∧ s.pins.resetN = true ∧ s.pins.aonSupply = true) ∧
    (∃ (s : State), s.registersWf = true ∧ (s.pins.resetN = false ∨ s.pins.aonSupply = false)) ∧
    (∃ (s : State), s.registersWf = true ∧ s.sec.rising = false) ∧
    (∃ s : State, s.registersWf = true ∧ s.sec.rising = true ∧ (if s.die.part = 2 ∧ (bits 0 2 2 ≠ 0 ∨ bits 0 0 2 = 3) then 1 else if bits 0 0 2 = 3 ∧ bits 0 2 2 ≤ 1 then 2 else if bits 0 4 2 = 3 then 3 else if (bits 0 4 2 = 1 ∨ bits 0 4 2 = 2) ∧ bits 0 2 2 = 0 then 4 else 0) = 0) ∧
    (∃ s : State, s.registersWf = true ∧ s.sec.rising = true ∧ (if s.die.part = 2 ∧ (bits 16 2 2 ≠ 0 ∨ bits 16 0 2 = 3) then 1 else if bits 16 0 2 = 3 ∧ bits 16 2 2 ≤ 1 then 2 else if bits 16 4 2 = 3 then 3 else if (bits 16 4 2 = 1 ∨ bits 16 4 2 = 2) ∧ bits 16 2 2 = 0 then 4 else 0) = 4) ∧
    (∃ s : State, s.registersWf = true ∧ s.sec.rising = true ∧ (if s.die.part = 2 ∧ (bits 3 2 2 ≠ 0 ∨ bits 3 0 2 = 3) then 1 else if bits 3 0 2 = 3 ∧ bits 3 2 2 ≤ 1 then 2 else if bits 3 4 2 = 3 then 3 else if (bits 3 4 2 = 1 ∨ bits 3 4 2 = 2) ∧ bits 3 2 2 = 0 then 4 else 0) ≠ 0) ∧
    (∃ (s : State), ∃ (src : Source), ∃ (c : Instr), ∃ (why : Nat), s.registersWf = true ∧ (c = .bootWarm src ∧ why = 6 ∨ c = .bootCold src ∧ why = 5) ∧ s.isOwner src = false) ∧
    (∃ (s : State), ∃ (src : Source), ∃ (c : Instr), ∃ (why : Nat), s.registersWf = true ∧ (c = .bootWarm src ∧ why = 6 ∨ c = .bootCold src ∧ why = 5) ∧ s.isOwner src = true) ∧
    (∃ (s : State), ∃ (src : Source), s.registersWf = true ∧ s.isOwner src = false) ∧
    (∃ (s : State), ∃ (src : Source), s.registersWf = true ∧ s.isOwner src = true ∧ s.get Reg.SEC_BOOT_STATUS.STATE ≠ 3) ∧
    (∃ (s : State), ∃ (src : Source), s.registersWf = true ∧ s.isOwner src = true ∧ s.get Reg.SEC_BOOT_STATUS.STATE = 3) :=
  ⟨⟨{}, by decide⟩,
   ⟨{ pins := { resetN := true } }, by decide⟩,
   ⟨{}, by decide⟩,
   ⟨{}, by decide⟩,
   ⟨{ sec := { rising := true } }, by decide⟩,
   ⟨{ sec := { rising := true } }, by decide⟩,
   ⟨{ sec := { rising := true } }, by decide⟩,
   ⟨{}, guest, .bootWarm guest, 6, by decide⟩,
   ⟨{}, own, .bootCold own, 5, by decide⟩,
   ⟨{}, guest, by decide⟩,
   ⟨{}, own, by decide⟩,
   ⟨rg [(Reg.SEC_BOOT_STATUS.STATE, 3)], own, by decide⟩⟩

theorem test_witness_LoadsTakeTheirBulkData :
    (∃ (s : State), s.registersWf = true ∧ s.cfg.loading = none) ∧
    (∃ (s : State), ∃ (l : Loading), ∃ ty, s.registersWf = true ∧ s.cfg.loading = some l ∧ (l.todo.head? ≠ some ty ∨ s.get Reg.CONFIG_LOAD_STATUS.PHASE ≠ phaseBulk)) ∧
    (∃ (s : State), ∃ (l : Loading), s.registersWf = true ∧ s.cfg.loading = some l ∧ s.get Reg.CONFIG_LOAD_STATUS.PHASE ≠ phasePush) ∧
    (∃ s : State, s.registersWf = true ∧ s.cfg.loading = some ⟨0, img0, [9], 0, false, [], []⟩ ∧ s.get Reg.CONFIG_LOAD_STATUS.PHASE = phasePush) ∧
    (∃ s : State, s.registersWf = true ∧ s.cfg.loading = some ⟨0, img0, [9], 0, false, [], []⟩ ∧ s.get Reg.CONFIG_LOAD_STATUS.PHASE = phaseBulk ∧ ([0] : List Byte).length ≠ img0.bulkLength 9) ∧
    (∃ s : State, s.registersWf = true ∧ s.cfg.loading = some ⟨0, img0, [9], 0, false, [], []⟩ ∧ s.get Reg.CONFIG_LOAD_STATUS.PHASE = phaseBulk ∧ ([] : List Byte).length = img0.bulkLength 9 ∧ s.sec.boot = none) ∧
    (∃ (s : State), ∃ (f : Frame), s.registersWf = true ∧ f.ty ≠ 0x60) ∧
    (∃ (s : State), ∃ (f : Frame), ∃ (n : Nat), let u := (arrive s (s.asPart f) n).2; let host := u.get Reg.SEC_BOOT_STATUS.STATE = 1; let push := u.get Reg.CONFIG_LOAD_STATUS.PHASE = phasePush ∧ u.cfg.loading.isSome = true; let awaits := fun (id : Nat) => host ∧ id = 0xFFFFFFFF ∨ ¬host ∧ push ∧ id = u.get Reg.CONFIG_BULK_WAIT.BULK_ID; s.registersWf = true ∧ f.ty = 0x60 ∧ (arrive s (s.asPart f) n).1 = true ∧ (chunkOf u (s.asPart f) = none ∨ ∃ id off data, chunkOf u (s.asPart f) = some (id, off, data) ∧ (¬awaits id ∨ u.pushNext < off))) ∧
    (∃ (s : State), ∃ (f : Frame), ∃ (n : Nat), let u := (arrive s (s.asPart f) n).2; let host := u.get Reg.SEC_BOOT_STATUS.STATE = 1; let push := u.get Reg.CONFIG_LOAD_STATUS.PHASE = phasePush ∧ u.cfg.loading.isSome = true; let awaits := fun (id : Nat) => host ∧ id = 0xFFFFFFFF ∨ ¬host ∧ push ∧ id = u.get Reg.CONFIG_BULK_WAIT.BULK_ID; ∃ (id : Nat), ∃ (off : Nat), ∃ (data : List Byte), s.registersWf = true ∧ f.ty = 0x60 ∧ (arrive s (s.asPart f) n).1 = true ∧ chunkOf u (s.asPart f) = some (id, off, data) ∧ awaits id ∧ off < u.pushNext) ∧
    (∃ (s : State), ∃ (f : Frame), ∃ (n : Nat), let u := (arrive s (s.asPart f) n).2; let host := u.get Reg.SEC_BOOT_STATUS.STATE = 1; let push := u.get Reg.CONFIG_LOAD_STATUS.PHASE = phasePush ∧ u.cfg.loading.isSome = true; let awaits := fun (id : Nat) => host ∧ id = 0xFFFFFFFF ∨ ¬host ∧ push ∧ id = u.get Reg.CONFIG_BULK_WAIT.BULK_ID; ∃ (id : Nat), ∃ (off : Nat), ∃ (data : List Byte), s.registersWf = true ∧ f.ty = 0x60 ∧ (arrive s (s.asPart f) n).1 = true ∧ chunkOf u (s.asPart f) = some (id, off, data) ∧ awaits id ∧ off = u.pushNext ∧ off + data.length < 2 ^ 64 ∧ host) ∧
    (∃ (s : State), ∃ (f : Frame), ∃ (n : Nat), let u := (arrive s (s.asPart f) n).2; let host := u.get Reg.SEC_BOOT_STATUS.STATE = 1; let push := u.get Reg.CONFIG_LOAD_STATUS.PHASE = phasePush ∧ u.cfg.loading.isSome = true; let awaits := fun (id : Nat) => host ∧ id = 0xFFFFFFFF ∨ ¬host ∧ push ∧ id = u.get Reg.CONFIG_BULK_WAIT.BULK_ID; ∃ (id : Nat), ∃ (off : Nat), ∃ (data : List Byte), ∃ (l : Loading), s.registersWf = true ∧ f.ty = 0x60 ∧ (arrive s (s.asPart f) n).1 = true ∧ chunkOf u (s.asPart f) = some (id, off, data) ∧ awaits id ∧ off = u.pushNext ∧ off + data.length < 2 ^ 64 ∧ ¬host ∧ u.cfg.loading = some l ∧ (∀ ty ∈ l.todo.head?, (l.pushed ++ data).length < l.image.bulkLength ty)) ∧
    (∃ (s : State), ∃ (f : Frame), ∃ (n : Nat), let u := (arrive s (s.asPart f) n).2; let host := u.get Reg.SEC_BOOT_STATUS.STATE = 1; let push := u.get Reg.CONFIG_LOAD_STATUS.PHASE = phasePush ∧ u.cfg.loading.isSome = true; let awaits := fun (id : Nat) => host ∧ id = 0xFFFFFFFF ∨ ¬host ∧ push ∧ id = u.get Reg.CONFIG_BULK_WAIT.BULK_ID; ∃ (id : Nat), ∃ (off : Nat), ∃ (data : List Byte), ∃ (l : Loading), ∃ (ty : Nat), s.registersWf = true ∧ f.ty = 0x60 ∧ (arrive s (s.asPart f) n).1 = true ∧ chunkOf u (s.asPart f) = some (id, off, data) ∧ awaits id ∧ off = u.pushNext ∧ off + data.length < 2 ^ 64 ∧ ¬host ∧ u.cfg.loading = some l ∧ l.todo.head? = some ty ∧ l.image.bulkLength ty ≤ (l.pushed ++ data).length) ∧
    (∃ (s : State), ∃ (src : Source), s.registersWf = true ∧ s.isOwner src = false) ∧
    (∃ (s : State), ∃ (src : Source), s.registersWf = true ∧ s.isOwner src = true ∧ s.get Reg.SEC_BOOT_STATUS.STATE ≠ 1) ∧
    (∃ (s : State), ∃ (src : Source), s.registersWf = true ∧ s.isOwner src = true ∧ s.get Reg.SEC_BOOT_STATUS.STATE = 1 ∧ 2 ≤ s.bootSource) ∧
    (∃ (s : State), ∃ (l : Nat), s.registersWf = true ∧ s.hasLink l = false) ∧
    (∃ (s : State), ∃ (l : Nat), ∃ (data : List Byte), s.registersWf = true ∧ s.hasLink l = true ∧ data = [] ∧ s.cfg.image = none) ∧
    (∃ (s : State), ∃ (l : Nat), ∃ (data : List Byte), s.registersWf = true ∧ s.hasLink l = true ∧ data = [] ∧ s.cfg.image.isSome = true) ∧
    (∃ (s : State), ∃ (l : Nat), ∃ (data : List Byte), s.registersWf = true ∧ s.hasLink l = true ∧ data ≠ [] ∧ (s.bootSource ≠ 3 ∨ s.get Reg.SEC_BOOT_STATUS.STATE ≠ 1)) ∧
    (∃ (s : State), ∃ (l : Nat), ∃ (data : List Byte), s.registersWf = true ∧ s.hasLink l = true ∧ data ≠ [] ∧ s.bootSource = 3 ∧ s.get Reg.SEC_BOOT_STATUS.STATE = 1 ∧ s.pushNext + data.length < 0x1000) :=
  ⟨⟨{}, by decide⟩,
   ⟨{ cfg := { loading := some ⟨0, img0, [9], 0, false, [], []⟩ } }, ⟨0, img0, [9], 0, false, [], []⟩, 8, by decide⟩,
   ⟨{ cfg := { loading := some ⟨0, img0, [9], 0, false, [], []⟩ } }, ⟨0, img0, [9], 0, false, [], []⟩, by decide⟩,
   ⟨rg [(Reg.CONFIG_LOAD_STATUS.PHASE, 7)] { cfg := { loading := some ⟨0, img0, [9], 0, false, [], []⟩ } }, by decide⟩,
   ⟨rg [(Reg.CONFIG_LOAD_STATUS.PHASE, 6)] { cfg := { loading := some ⟨0, img0, [9], 0, false, [], []⟩ } }, by decide⟩,
   ⟨rg [(Reg.CONFIG_LOAD_STATUS.PHASE, 6)] { cfg := { loading := some ⟨0, img0, [9], 0, false, [], []⟩ } }, by decide⟩,
   ⟨{}, fr 0x10 0 0, by decide⟩,
   ⟨{ pins := { resetN := true } }, fr 0x60 0 0, 0, by decide, by decide, by decide, (Or.inl (by decide))⟩,
   ⟨rg [(Reg.SEC_BOOT_STATUS.STATE, 1), (Reg.ETH_PUSH_NEXT_LO.NEXT_LO, 1)] { pins := { resetN := true } }, fr 0x60 0 0 (bytesOf 20 [(0, 255), (1, 255), (2, 255), (3, 255), (5, 1)]), 0, 0xFFFFFFFF, 0, [0], by decide, by decide, by decide, by decide, (Or.inl ⟨by decide, rfl⟩), by decide⟩,
   ⟨rg [(Reg.SEC_BOOT_STATUS.STATE, 1)] { pins := { resetN := true } }, fr 0x60 0 0 (bytesOf 20 [(0, 255), (1, 255), (2, 255), (3, 255), (5, 1)]), 0, 0xFFFFFFFF, 0, [0], by decide, by decide, by decide, by decide, (Or.inl ⟨by decide, rfl⟩), by decide, by decide, by decide⟩,
   ⟨rg [(Reg.CONFIG_LOAD_STATUS.PHASE, 7)] { pins := { resetN := true }, cfg := { loading := some ⟨0, img [sect 9 0 65 [(64, 2)]], [9], 2, false, [], []⟩ } }, fr 0x60 0 0 (bytesOf 20 [(5, 1)]), 0, 0, 0, [0], ⟨0, img [sect 9 0 65 [(64, 2)]], [9], 2, false, [], []⟩, by decide, by decide, by decide, by decide, (Or.inr ⟨by decide, ⟨by decide, by decide⟩, by decide⟩), by decide, by decide, by decide, by decide, by decide⟩,
   ⟨rg [(Reg.CONFIG_LOAD_STATUS.PHASE, 7)] { pins := { resetN := true }, cfg := { loading := some ⟨0, img [sect 9 0 65 [(64, 1)]], [9], 2, false, [], []⟩ } }, fr 0x60 0 0 (bytesOf 20 [(5, 1)]), 0, 0, 0, [0], ⟨0, img [sect 9 0 65 [(64, 1)]], [9], 2, false, [], []⟩, 9, by decide, by decide, by decide, by decide, (Or.inr ⟨by decide, ⟨by decide, by decide⟩, by decide⟩), by decide, by decide, by decide, by decide, by decide, by decide⟩,
   ⟨{}, guest, by decide⟩,
   ⟨{}, own, by decide⟩,
   ⟨rg [(Reg.SEC_BOOT_STATUS.STATE, 1), (Reg.SAFE_SP_STRAPS.BOOT, 2)], own, by decide⟩,
   ⟨{}, 4, by decide⟩,
   ⟨{}, 3, [], by decide⟩,
   ⟨live, 3, [], by decide⟩,
   ⟨{}, 3, [0], by decide⟩,
   ⟨rg [(Reg.SEC_BOOT_STATUS.STATE, 1), (Reg.SAFE_SP_STRAPS.BOOT, 3)], 3, [0], by decide⟩⟩

theorem test_witness_ChainsAreNumberedAndKeysAreKept :
    (∃ (s : State), ∃ (l : Nat), s.registersWf = true ∧ s.tablesWf = true ∧ s.hasLink l = false) ∧
    (∃ (s : State), ∃ (l : Nat), s.registersWf = true ∧ s.tablesWf = true ∧ s.hasLink l = true ∧ s.inChain = false) ∧
    (∃ (s : State), ∃ (l : Nat), ∃ (side : Nat), s.registersWf = true ∧ s.tablesWf = true ∧ s.hasLink l = true ∧ s.inChain = true ∧ s.isHead = true ∧ side ≠ s.get Reg.SAFE_SP_STRAPS.PAIR) ∧
    (∃ (s : State), ∃ (l : Nat), ∃ (side : Nat), s.registersWf = true ∧ s.tablesWf = true ∧ s.hasLink l = true ∧ s.inChain = true ∧ ((s.isHead = true ∧ side = s.get Reg.SAFE_SP_STRAPS.PAIR) ∨ (s.isHead = false ∧ s.device ≠ 0xFFF))) ∧
    (∃ (s : State), ∃ (l : Nat), s.registersWf = true ∧ s.tablesWf = true ∧ s.hasLink l = true ∧ s.inChain = true ∧ s.isHead = false ∧ s.device = 0xFFF) ∧
    (∃ (s : State), ∃ (l : Nat), ∃ (p : Placement), s.registersWf = true ∧ s.tablesWf = true ∧ s.hasLink l = true ∧ p.number = s.device ∧ s.sec.boot = none ∧ s.isHead = false) ∧
    (∃ (s : State), ∃ (l : Nat), ∃ (p : Placement), s.registersWf = true ∧ s.tablesWf = true ∧ s.hasLink l = true ∧ p.number ≠ s.device ∧ s.routeTo p.number = none) ∧
    (∃ (s : State), ∃ (l : Nat), ∃ (p : Placement), ∃ (k : Nat), s.registersWf = true ∧ s.tablesWf = true ∧ s.hasLink l = true ∧ p.number ≠ s.device ∧ s.routeTo p.number = some k) ∧
    (∃ (s : State), ∃ (l : Nat), ∃ (p : Placement), ∃ (k : Nat), s.registersWf = true ∧ s.tablesWf = true ∧ s.hasLink l = true ∧ p.number ≠ s.device ∧ s.routeTo p.number = some k ∧ (s.link k).lost = false) ∧
    (∃ (s : State), ∃ (l : Nat), s.registersWf = true ∧ s.tablesWf = true ∧ s.hasLink l = true ∧ s.tenon.enumAt ≠ some l) ∧
    (∃ (s : State), ∃ (l : Nat), ∃ (k : Nat), s.registersWf = true ∧ s.tablesWf = true ∧ s.hasLink l = true ∧ s.tenon.enumAt = some l ∧ (List.range 4).find? (fun k => decide (l + 1 ≤ k) && s.linkUp k && s.tenon.parent != some k) = some k) ∧
    (∃ (s : State), ∃ (l : Nat), ∃ (status : Nat), ∃ (k : Nat), s.registersWf = true ∧ s.tablesWf = true ∧ s.hasLink l = true ∧ s.tenon.enumAt = some l ∧ (List.range 4).find? (fun k => decide (l + 1 ≤ k) && s.linkUp k && s.tenon.parent != some k) = some k ∧ status = 0) ∧
    (∃ (s : State), ∃ (l : Nat), ∃ (status : Nat), ∃ (k : Nat), s.registersWf = true ∧ s.tablesWf = true ∧ s.hasLink l = true ∧ s.tenon.enumAt = some l ∧ (List.range 4).find? (fun k => decide (l + 1 ≤ k) && s.linkUp k && s.tenon.parent != some k) = some k ∧ status = 2) ∧
    (∃ (s : State), ∃ (l : Nat), ∃ (p : Nat), s.registersWf = true ∧ s.tablesWf = true ∧ s.hasLink l = true ∧ s.tenon.enumAt = some l ∧ (List.range 4).find? (fun k => decide (l + 1 ≤ k) && s.linkUp k && s.tenon.parent != some k) = none ∧ s.tenon.parent = some p) ∧
    (∃ (s : State), ∃ (l : Nat), s.registersWf = true ∧ s.tablesWf = true ∧ s.hasLink l = true ∧ s.tenon.enumAt = some l ∧ (List.range 4).find? (fun k => decide (l + 1 ≤ k) && s.linkUp k && s.tenon.parent != some k) = none ∧ s.tenon.parent = none) ∧
    (∃ (s : State), let b := s.keyRecord; s.registersWf = true ∧ s.tablesWf = true ∧ byteAt b 0 ≠ 1) ∧
    (∃ (s : State), let b := s.keyRecord; s.registersWf = true ∧ s.tablesWf = true ∧ byteAt b 0 ≠ 2) ∧
    (∃ (s : State), ∃ (src : Source), let b := s.keyRecord; ∃ (c : Instr), s.registersWf = true ∧ s.tablesWf = true ∧ (c = .keyEnrol src ∧ byteAt b 0 = 1 ∨ c = .keyRevoke src ∧ byteAt b 0 = 2) ∧ s.isOwner src = false) ∧
    (∃ (s : State), ∃ (src : Source), let b := s.keyRecord; s.registersWf = true ∧ s.tablesWf = true ∧ byteAt b 0 = 1 ∧ s.isOwner src = true) ∧
    (∃ (s : State), ∃ (src : Source), let b := s.keyRecord; s.registersWf = true ∧ s.tablesWf = true ∧ byteAt b 0 = 2 ∧ s.isOwner src = true) ∧
    (∃ (s : State), ∃ (src : Source), ∃ (c : Instr), s.registersWf = true ∧ s.tablesWf = true ∧ (c = .debugChallenge src ∨ c = .debugRespond src) ∧ s.isOwner src = false) ∧
    (∃ (s : State), ∃ (src : Source), ∃ (c : Instr), s.registersWf = true ∧ s.tablesWf = true ∧ (c = .debugChallenge src ∨ c = .debugRespond src) ∧ s.isOwner src = true ∧ s.debugAllowed = false) ∧
    (∃ (s : State), ∃ (src : Source), ∃ (c : Instr), s.registersWf = true ∧ s.tablesWf = true ∧ (c = .debugChallenge src ∨ c = .debugRespond src) ∧ s.isOwner src = true ∧ s.debugAllowed = true ∧ c = .debugChallenge src) ∧
    (∃ (s : State), ∃ (src : Source), ∃ (c : Instr), s.registersWf = true ∧ s.tablesWf = true ∧ (c = .debugChallenge src ∨ c = .debugRespond src) ∧ s.isOwner src = true ∧ s.debugAllowed = true ∧ c = .debugRespond src ∧ s.sec.challenge = none) ∧
    (∃ (s : State), ∃ (src : Source), ∃ (c : Instr), ∃ (ch : List Byte), s.registersWf = true ∧ s.tablesWf = true ∧ (c = .debugChallenge src ∨ c = .debugRespond src) ∧ s.isOwner src = true ∧ s.debugAllowed = true ∧ c = .debugRespond src ∧ s.sec.challenge = some ch) :=
  ⟨⟨{}, 4, by decide⟩,
   ⟨{}, 3, by decide⟩,
   ⟨chain 1, 3, 1, by decide⟩,
   ⟨chain 1, 3, 0, by decide⟩,
   ⟨rg [(Reg.TENON_STATUS.DEVICE, 0xFFF)] (chain 2), 3, by decide⟩,
   ⟨rg [(Reg.TENON_STATUS.DEVICE, 0xFFF)] (chain 2), 3, ⟨0xFFF, 0, 1, 2, 1, none, [], [], [], [], 0, 0⟩, by decide⟩,
   ⟨{}, 3, ⟨5, 0, 1, 2, 1, none, [], [], [], [], 0, 0⟩, by decide⟩,
   ⟨{ tenon := { routes := [(5, 1)] } }, 3, ⟨5, 0, 1, 2, 1, none, [], [], [], [], 0, 0⟩, 1, by decide⟩,
   ⟨{ tenon := { routes := [(5, 1)] } }, 3, ⟨5, 0, 1, 2, 1, none, [], [], [], [], 0, 0⟩, 1, by decide⟩,
   ⟨{}, 0, by decide⟩,
   ⟨rg [(Reg.TENON_LINK_STATUS.STATE 1, 2)] { tenon := { enumAt := some 0 } }, 0, 1, by decide⟩,
   ⟨rg [(Reg.TENON_LINK_STATUS.STATE 1, 2)] { tenon := { enumAt := some 0 } }, 0, 0, 1, by decide⟩,
   ⟨rg [(Reg.TENON_LINK_STATUS.STATE 1, 2)] { tenon := { enumAt := some 0 } }, 0, 2, 1, by decide⟩,
   ⟨{ tenon := { enumAt := some 0, parent := some 3 } }, 0, 3, by decide⟩,
   ⟨{ tenon := { enumAt := some 0 } }, 0, by decide⟩,
   ⟨{}, by decide⟩,
   ⟨{}, by decide⟩,
   ⟨rg [(Reg.SEC_KEY_DATA.DATA 0, 1)], guest, .keyEnrol guest, by decide +kernel⟩,
   ⟨rg [(Reg.SEC_KEY_DATA.DATA 0, 1)], own, by decide +kernel⟩,
   ⟨rg [(Reg.SEC_KEY_DATA.DATA 0, 2)], own, by decide +kernel⟩,
   ⟨{}, guest, .debugRespond guest, by decide⟩,
   ⟨{}, own, .debugChallenge own, by decide⟩,
   ⟨rg [(Reg.SAFE_SP_STRAPS.DEBUG, 1)], own, .debugChallenge own, by decide⟩,
   ⟨rg [(Reg.SAFE_SP_STRAPS.DEBUG, 1)], own, .debugRespond own, by decide⟩,
   ⟨rg [(Reg.SAFE_SP_STRAPS.DEBUG, 1)] { sec := { challenge := some [] } }, own, .debugRespond own, [], by decide⟩⟩

theorem test_witness_WritesFollowTheirAccessClass :
    (∃ (s : State), ∃ (src : Source), ∃ (a : Nat), s.registersWf = true ∧ s.tablesWf = true ∧ s.mayWrite src a = false) ∧
    (∃ (s : State), ∃ (src : Source), ∃ (a : Nat), s.registersWf = true ∧ s.tablesWf = true ∧ s.mayWrite src a = false ∧ a = 0x10004) ∧
    (∃ (s : State), ∃ (src : Source), ∃ (a : Nat), s.registersWf = true ∧ s.tablesWf = true ∧ s.mayWrite src a = false ∧ a = 0x20050) ∧
    (∃ (s : State), ∃ (src : Source), ∃ (a : Nat), s.registersWf = true ∧ s.tablesWf = true ∧ s.mayWrite src a = true ∧ (fieldsAt a = none ∨ s.absentUnit a = true)) ∧
    (∃ (s : State), ∃ (src : Source), ∃ (a : Nat), ∃ (fs : List Field), s.registersWf = true ∧ s.tablesWf = true ∧ s.mayWrite src a = true ∧ fieldsAt a = some fs ∧ s.absentUnit a = false ∧ (∀ f ∈ fs, f.access = .ro)) ∧
    (∃ (s : State), ∃ (src : Source), ∃ (a : Nat), ∃ (w : Word), ∃ (fs : List Field), s.registersWf = true ∧ s.tablesWf = true ∧ s.mayWrite src a = true ∧ fieldsAt a = some fs ∧ s.absentUnit a = false ∧ (∃ f ∈ fs, f.access ≠ .ro) ∧ commandWrite src a w s = none ∧ (∃ f ∈ fs, f.access = .rwq) ∧ s.quiesced (quiesceBlock a) = false) ∧
    (∃ (s : State), ∃ (src : Source), ∃ (a : Nat), ∃ (w : Word), ∃ (fs : List Field), s.registersWf = true ∧ s.tablesWf = true ∧ s.mayWrite src a = true ∧ fieldsAt a = some fs ∧ s.absentUnit a = false ∧ (∃ f ∈ fs, f.access ≠ .ro) ∧ commandWrite src a w s = none ∧ (∀ f ∈ fs, f.access ≠ .rwq) ∧ (∃ f ∈ fs, f.access = .rwe) ∧ s.switchActive = true) ∧
    (∃ (s : State), ∃ (src : Source), ∃ (a : Nat), ∃ (w : Word), ∃ (fs : List Field), s.registersWf = true ∧ s.tablesWf = true ∧ s.mayWrite src a = true ∧ fieldsAt a = some fs ∧ s.absentUnit a = false ∧ (∃ f ∈ fs, f.access ≠ .ro) ∧ commandWrite src a w s = none ∧ ((∃ f ∈ fs, f.access = .rwq) → s.quiesced (quiesceBlock a) = true) ∧ ((∃ f ∈ fs, f.access = .rwe) → s.switchActive = false) ∧ ¬(0xE1000 ≤ a ∧ a < 0xE2000)) ∧
    (∃ (s : State) (p : Nat), p < 4 ∧ s.registersWf = true ∧ s.tablesWf = true ∧ s.isOwner own = true ∧ s.absentUnit (0xC0040 + 16 * p) = false ∧ s.quiesced (5 + p) = true) ∧
    (∃ (s : State) (l : Nat), l < 4 ∧ s.registersWf = true ∧ s.tablesWf = true ∧ s.isOwner own = true ∧ s.absentUnit (0xD0100 + 64 * l) = false ∧ s.quiesced (9 + l) = true) ∧
    (∃ (s : State), ∃ (src : Source), s.registersWf = true ∧ s.tablesWf = true ∧ s.isOwner src = true) ∧
    (∃ (s : State), ∃ (src : Source), s.registersWf = true ∧ s.tablesWf = true ∧ s.isOwner src = false) ∧
    (∃ (s : State), ∃ (src : Source), s.registersWf = true ∧ s.tablesWf = true ∧ s.isOwner src = true ∧ s.switchActive = true) ∧
    (∃ (s : State), ∃ (src : Source), s.registersWf = true ∧ s.tablesWf = true ∧ s.isOwner src = true ∧ s.switchActive = false ∧ s.commitStatus ≠ 0) ∧
    (∃ (s : State), ∃ (src : Source), s.registersWf = true ∧ s.tablesWf = true ∧ s.isOwner src = true ∧ s.switchActive = false ∧ s.commitStatus = 0) ∧
    (∃ (s : State), ∃ (src : Source), s.registersWf = true ∧ s.tablesWf = true ∧ s.isOwner src = true ∧ s.switchActive = false ∧ s.commitStatus = 0 ∧ ascends s.cfg.shadowSet = true) :=
  ⟨⟨{}, guest, 0, by decide +kernel⟩,
   ⟨{}, guest, 0x10004, by decide +kernel⟩,
   ⟨{}, guest, 0x20050, by decide +kernel⟩,
   ⟨{}, own, 0x7FFFFFFC, by decide, by decide, by decide, (Or.inl (by decide +kernel))⟩,
   ⟨{}, own, 0x40000, [Reg.FRAME_PERIOD.PERIOD_US], by decide +kernel⟩,
   ⟨{}, own, 0xC0040, 0, [Reg.ETH_PORT_CTL.MACSEC 0, Reg.ETH_PORT_CTL.AN 0, Reg.ETH_PORT_CTL.JUMBO 0, Reg.ETH_PORT_CTL.RATE 0], by decide +kernel⟩,
   ⟨rg [(Reg.CONFIG_SWITCH_STATUS.PHASE, 4)], own, 0x40010, 0, [Reg.FRAME_SEARCH_DEADLINE.SEARCH_US], by decide +kernel⟩,
   ⟨{}, own, 0x40010, 0, [Reg.FRAME_SEARCH_DEADLINE.SEARCH_US], by decide +kernel⟩,
   ⟨rg [(Reg.CONFIG_QUIESCE_STATUS.QUIESCED, 0x100)], 3, by decide +kernel⟩,
   ⟨rg [(Reg.CONFIG_QUIESCE_STATUS.QUIESCED, 0x1000)], 3, by decide +kernel⟩,
   ⟨{}, own, by decide⟩,
   ⟨{}, guest, by decide⟩,
   ⟨rg [(Reg.CONFIG_SWITCH_STATUS.PHASE, 4)], own, by decide⟩,
   ⟨{ cfg := { shadowSet := [(Reg.FRAME_SEARCH_DEADLINE.SEARCH_US.key, 5)] } }, own, by decide +kernel⟩,
   ⟨{}, own, by decide⟩,
   ⟨{}, own, by decide⟩⟩

theorem test_witness_RequestsAndStartsAreServed :
    (∃ (s : State), ∃ (c : Instr), ∃ (f0 : Frame), ∃ (n : Nat), s.registersWf = true ∧ s.tablesWf = true ∧ (c = .mgmtRead f0 n ∧ f0.ty ≠ 0x30 ∨ c = .mgmtWrite f0 n ∧ f0.ty ≠ 0x31)) ∧
    (∃ (s : State) (f : Frame), f.ty = 0x30 ∧ s.registersWf = true ∧ s.tablesWf = true ∧ (arrive s (s.asPart f) 0).1 = false) ∧
    (∃ (s : State) (f : Frame), f.ty = 0x31 ∧ s.registersWf = true ∧ s.tablesWf = true ∧ (arrive s (s.asPart f) 0).1 = false) ∧
    (∃ (s : State) (f : Frame), s.registersWf = true ∧ s.tablesWf = true ∧ (arrive s (s.asPart f) 0).1 = true ∧ (arrive s (s.asPart f) 0).2.mgmtReady = false) ∧
    (∃ (s : State) (f : Frame), s.registersWf = true ∧ s.tablesWf = true ∧ s.asPart f = f ∧ (arrive s f 0).1 = true ∧ (arrive s f 0).2.mgmtReady = true ∧ ¬(8 ≤ f.payload.length ∧ 1 ≤ beAt f.payload 4 2 ∧ beAt f.payload 4 2 ≤ 256 ∧ f.payload.length = (if f.ty = 0x31 then 8 + 4 * beAt f.payload 4 2 else 8))) ∧
    (∃ (s : State) (f : Frame), s.registersWf = true ∧ s.tablesWf = true ∧ s.asPart f = f ∧ (arrive s f 0).1 = true ∧ (arrive s f 0).2.mgmtReady = true ∧ ¬(8 ≤ f.payload.length ∧ 1 ≤ beAt f.payload 4 2 ∧ beAt f.payload 4 2 ≤ 256 ∧ f.payload.length = (if f.ty = 0x31 then 8 + 4 * beAt f.payload 4 2 else 8)) ∧ 8 ≤ f.payload.length ∧ (arrive s f 0).2.maySend f.partition 0x32 = true) ∧
    (∃ (s : State) (f : Frame), s.registersWf = true ∧ s.tablesWf = true ∧ s.asPart f = f ∧ (arrive s f 0).1 = true ∧ (arrive s f 0).2.mgmtReady = true ∧ (8 ≤ f.payload.length ∧ 1 ≤ beAt f.payload 4 2 ∧ beAt f.payload 4 2 ≤ 256 ∧ f.payload.length = (if f.ty = 0x31 then 8 + 4 * beAt f.payload 4 2 else 8)) ∧ f.ty = 0x30) ∧
    (∃ (s : State) (f : Frame), s.registersWf = true ∧ s.tablesWf = true ∧ s.asPart f = f ∧ (arrive s f 0).1 = true ∧ (arrive s f 0).2.mgmtReady = true ∧ (8 ≤ f.payload.length ∧ 1 ≤ beAt f.payload 4 2 ∧ beAt f.payload 4 2 ≤ 256 ∧ f.payload.length = (if f.ty = 0x31 then 8 + 4 * beAt f.payload 4 2 else 8)) ∧ f.ty = 0x31) ∧
    (∃ (s : State), ∃ (l : Nat), s.registersWf = true ∧ s.tablesWf = true ∧ s.hasLink l = false) ∧
    (∃ (s : State), ∃ (l : Nat), s.registersWf = true ∧ s.tablesWf = true ∧ s.hasLink l = true ∧ (s.pins.resetN = false ∨ s.power.asleep ≠ 0)) ∧
    (∃ (s : State), ∃ (l : Nat), s.registersWf = true ∧ s.tablesWf = true ∧ s.hasLink l = true ∧ s.pins.resetN = true ∧ s.power.asleep = 0 ∧ s.mgmtReady = false) ∧
    (∃ (s : State), ∃ (l : Nat), s.registersWf = true ∧ s.tablesWf = true ∧ s.hasLink l = true ∧ s.mgmtReady = true) ∧
    (∃ (s : State), ∃ (c : Instr), ∃ (write : Bool), ∃ (addr : Nat), ∃ (v : Word), s.registersWf = true ∧ s.tablesWf = true ∧ (c = .regaccRead addr ∧ write = false ∧ v = 0 ∨ c = .regaccWrite addr v ∧ write = true) ∧ (s.jtag.busy = true ∨ s.pins.resetN = false ∨ s.power.asleep ≠ 0)) ∧
    (∃ (s : State), ∃ (c : Instr), ∃ (write : Bool), ∃ (addr : Nat), ∃ (v : Word), s.registersWf = true ∧ s.tablesWf = true ∧ (c = .regaccRead addr ∧ write = false ∧ v = 0 ∨ c = .regaccWrite addr v ∧ write = true) ∧ s.jtag.busy = false ∧ s.pins.resetN = true ∧ s.power.asleep = 0 ∧ s.mgmtReady = false) ∧
    (∃ (s : State), ∃ (c : Instr), ∃ (write : Bool), ∃ (addr : Nat), ∃ (v : Word), s.registersWf = true ∧ s.tablesWf = true ∧ (c = .regaccRead addr ∧ write = false ∧ v = 0 ∨ c = .regaccWrite addr v ∧ write = true) ∧ s.jtag.busy = false ∧ s.mgmtReady = true) ∧
    (∃ (s : State), s.registersWf = true ∧ s.tablesWf = true ∧ s.mayColdStart = false) ∧
    (∃ (s : State), ∃ (b : BootReport), ∃ (code : Nat), s.registersWf = true ∧ s.tablesWf = true ∧ s.mayColdStart = true ∧ s.waiting = [] ∧ (b.lockstepOk = false ∧ code = 9 ∨ b.lockstepOk = true ∧ (b.dieOk = false ∧ code = 2 ∨ b.dieOk = true ∧ (b.pufOk = false ∧ code = 3 ∨ b.pufOk = true ∧ b.certOk = false ∧ code = 4)))) ∧
    (∃ (s : State), ∃ (b : BootReport), s.registersWf = true ∧ s.tablesWf = true ∧ s.mayColdStart = true ∧ s.waiting = [] ∧ b.lockstepOk = true ∧ b.dieOk = true ∧ b.pufOk = true ∧ b.certOk = true ∧ b.failed = [] ∧ s.floorValue = none) ∧
    (∃ (s : State), ∃ (b : BootReport), s.registersWf = true ∧ s.tablesWf = true ∧ s.mayColdStart = true ∧ s.waiting = [] ∧ b.lockstepOk = true ∧ b.dieOk = true ∧ b.pufOk = true ∧ b.certOk = true ∧ b.failed = [] ∧ s.floorValue.isSome = true ∧ 2 ≤ s.bootSource ∧ s.excluded 1 = true) ∧
    (∃ (s : State), ∃ (b : BootReport), s.registersWf = true ∧ s.tablesWf = true ∧ s.mayColdStart = true ∧ s.waiting = [] ∧ b.lockstepOk = true ∧ b.dieOk = true ∧ b.pufOk = true ∧ b.certOk = true ∧ b.failed = [] ∧ s.floorValue.isSome = true ∧ 2 ≤ s.bootSource ∧ s.excluded 1 = false) ∧
    (∃ (s : State), s.registersWf = true ∧ s.tablesWf = true ∧ (s.safety.restart ≠ 1 ∨ s.cfg.image = none)) ∧
    (∃ (s : State), s.registersWf = true ∧ s.tablesWf = true ∧ s.safety.restart = 1 ∧ s.cfg.image.isSome = true ∧ s.waiting = [] ∧ (s.inChain = false ∨ s.tenon.reenumerate = false)) ∧
    (∃ (s : State), s.registersWf = true ∧ s.tablesWf = true ∧ s.safety.restart = 1 ∧ s.cfg.image.isSome = true ∧ s.waiting = [] ∧ (s.inChain = false ∨ s.tenon.reenumerate = false) ∧ s.roadmap.isSome = true) :=
  ⟨⟨{}, .mgmtRead (fr 0x31 0 0) 0, fr 0x31 0 0, 0, by decide, by decide, (Or.inl ⟨rfl, by decide⟩)⟩,
   ⟨{}, fr 0x30 0 0 (beBytes 0 4 ++ beBytes 1 2 ++ [0, 0]), by decide +kernel⟩,
   ⟨{}, fr 0x31 0 0, by decide +kernel⟩,
   ⟨rg [(Reg.SEC_BOOT_STATUS.STATE, 1), (Reg.SEC_BOOT_STATUS.STEP, 5)] { pins := { resetN := true } }, fr 0x30 0 0 (beBytes 0 4 ++ beBytes 1 2 ++ [0, 0]), by decide +kernel⟩,
   ⟨rg [(Reg.SEC_BOOT_STATUS.STATE, 1), (Reg.SEC_BOOT_STATUS.STEP, 6)] { pins := { resetN := true } }, fr 0x30 0 0 (beBytes 0 4 ++ beBytes 0 2 ++ [0, 0]), by decide +kernel⟩,
   ⟨rg [(Reg.SEC_BOOT_STATUS.STATE, 1), (Reg.SEC_BOOT_STATUS.STEP, 6)] { pins := { resetN := true } }, fr 0x30 0 0 (beBytes 0 4 ++ beBytes 257 2 ++ [0, 0]), by decide +kernel⟩,
   ⟨rg [(Reg.SEC_BOOT_STATUS.STATE, 1), (Reg.SEC_BOOT_STATUS.STEP, 6)] { pins := { resetN := true } }, fr 0x30 0 0 (beBytes 0 4 ++ beBytes 256 2 ++ [0, 0]), by decide +kernel⟩,
   ⟨rg [(Reg.SEC_BOOT_STATUS.STATE, 1), (Reg.SEC_BOOT_STATUS.STEP, 6)] { pins := { resetN := true } }, fr 0x31 0 0 (beBytes 0 4 ++ beBytes 1 2 ++ [0, 0, 0, 0, 0, 0]), by decide +kernel⟩,
   ⟨{}, 4, by decide⟩,
   ⟨{}, 3, by decide⟩,
   ⟨rg [(Reg.SEC_BOOT_STATUS.STATE, 1), (Reg.SEC_BOOT_STATUS.STEP, 5)] { pins := { resetN := true } }, 3, by decide⟩,
   ⟨rg [(Reg.SEC_BOOT_STATUS.STATE, 1), (Reg.SEC_BOOT_STATUS.STEP, 6)] { pins := { resetN := true } }, 3, by decide⟩,
   ⟨{}, .regaccRead 0, false, 0, 0, by decide, by decide, (Or.inl ⟨rfl, rfl, rfl⟩), by decide⟩,
   ⟨rg [(Reg.SEC_BOOT_STATUS.STATE, 1), (Reg.SEC_BOOT_STATUS.STEP, 5)] { pins := { resetN := true } }, .regaccRead 0, false, 0, 0, by decide, by decide, (Or.inl ⟨rfl, rfl, rfl⟩), by decide, by decide, by decide, by decide⟩,
   ⟨rg [(Reg.SEC_BOOT_STATUS.STATE, 1), (Reg.SEC_BOOT_STATUS.STEP, 6)] { pins := { resetN := true } }, .regaccWrite 0 7, true, 0, 7, by decide, by decide, (Or.inr ⟨rfl, rfl⟩), by decide, by decide⟩,
   ⟨{}, by decide⟩,
   ⟨{ sec := { captured := true } }, ⟨true, true, true, false, true, [], none⟩, 4, by decide⟩,
   ⟨{ sec := { captured := true }, cfg := { floorAuth := 0 } }, ⟨true, true, true, true, true, [], none⟩, by decide⟩,
   ⟨rg [(Reg.SAFE_SP_STRAPS.BOOT, 2), (Reg.SEC_BOOT_ATTEMPTS.B_EXCLUDED, 1)] { sec := { captured := true } }, ⟨true, true, true, true, true, [], none⟩, by decide⟩,
   ⟨rg [(Reg.SAFE_SP_STRAPS.BOOT, 2)] { sec := { captured := true } }, ⟨true, true, true, true, true, [], none⟩, by decide⟩,
   ⟨{}, by decide⟩,
   ⟨{ safety := { restart := 1 }, cfg := { image := some img0 } }, by decide⟩,
   ⟨{ safety := { restart := 1 }, cfg := { image := some (img [sect 2 0 65 [(0x24, 1), (64, 5)]]) } }, by decide⟩⟩

/-- Every listed command answers a next state on its state, which is what a frame asks of it. -/
def nextOn (l : List (Instr × State)) : Bool := l.all fun p => match exec p.1 p.2 with
  | .next _ => true
  | _ => false

theorem nextOn_answers {l : List (Instr × State)} (h : nextOn l = true) : ∀ p ∈ l, ∃ t, exec p.1 p.2 = .next t := by
  intro p hp
  have hl := List.all_eq_true.mp h p hp
  split at hl
  · exact ⟨_, by assumption⟩
  · cases hl

theorem test_witness_FramesOfTasksAndSelection : nextOn [
    (.spSwapPulseEnd, up),
    (.busRead 0 true true 0, up),
    (.taskCreate 0 (.stage 1 0) false 0 false, up),
    (.flagToken 0 0 0, up),
    (.tick, up),
    (.taskDispatch 0 0 0, up),
    (.taskYield 0 0 (.plain 0), up),
    (.taskComplete 0 0, up),
    (.depthAnnounce, up),
    (.taskOffer 0 0, up),
    (.sliceAbort 0, up),
    (.panelReadDone 0 0 0 0 0 true, live (img [sect 7 0 65 [(1, 1), (4, 1), (6, 1), (8, 1)], sect 4 0 45 [(44, 1)]])),
    (.ledgerTransition, up),
    (.ledgerClose, up),
    (.ledgerRebuild, up),
    (.ledgerRebuildCmd own, up),
    (.searchStart false, up),
    (.searchPhaseEnd false, up),
    (.searchEnd false, up),
    (.pathReserveDeadline, up),
    (.dowelMismatch 0 true true .reread, up),
    (.checksumMiss 0 true none true, up),
    (.panelFinal 0 0, live (img [sect 7 0 65 [(1, 1), (4, 1), (6, 1), (8, 1)], sect 4 0 45 [(44, 1)]])),
    (.distancePanelDone 1 0, live (img [sect 7 0 97 [(1, 2), (4, 1), (6, 1), (8, 1), (96, 1)]])),
    (.mergeStart, up),
    (.searchDeadline, up),
    (.remoteListDeadline, up),
    (.mergeDone, up),
    (.orderError 0 true, up),
    (.fallbackMergeDone, up),
    (.referenceArrival, up),
    (.solverIteration, up),
    (.solverStopTime, up),
    (.refineReturn 0 false, up),
    (.solverEngineError 0, up),
    (.diagResolveDone .abandoned, up),
    (.finalSweepDone, up)] = true := by decide +kernel
theorem test_witness_FramesOfTheFrameAndSafety : nextOn [
    (.ptpCorrection 5, up),
    (.syncLoss, up),
    (.syncReturn 5, up),
    (.frameStart 1, up),
    (.admissionClose, up),
    (.structSwitch own, up),
    (.switchPrepared, up),
    (.hold own, up),
    (.resume own, up),
    (.switchCancel own, up),
    (.drainFrameEnd, up),
    (.reloadDone 0, up),
    (.warmRestartTimeout, up),
    (.gridUpdate, up),
    (.precheck, up),
    (.precheckDone, up),
    (.verifyHandover, up),
    (.trySquareCheckDone false, up),
    (.verdictTime, up),
    (.verdict, up),
    (.commit, up),
    (.islandTableGeneration, up),
    (.lockstepMismatch true, up),
    (.checkerClockDeviation, up),
    (.wdInTimeout, up),
    (.wdInChange, up),
    (.safeEnter own, up),
    (.slotOpen own, up),
    (.slotEraseDone true, up),
    (.slotDataBlock own 0, up),
    (.slotBlockProgrammed true, up),
    (.slotClose own, up),
    (.slotCloseVerified true, up),
    (.slotAbort own, up),
    (.quiesceRequest own 0, up),
    (.blockQuiesced 0, up),
    (.checkpoint own, up),
    (.capClear own, up),
    (.replayMain own, up),
    (.replayFull own, up),
    (.replayAbort own, up),
    (.replayEpoch (List.replicate 9 0) 0 [], up)] = true := by decide +kernel
theorem test_witness_FramesOfMaintenanceAndPorts : nextOn [
    (.errorDetected ⟨0, 0, 0, 0, [], 0, none⟩, up),
    (.errorHandled 0 0, up),
    (.replayCompare 0 0 true, up),
    (.fieldTestDue 0 0, up),
    (.faultTestCmd own 0, up),
    (.testSliceDone 0 0 true, up),
    (.testDeferLimit 0 0, up),
    (.retirementClear 0 0, up),
    (.hbmScrub 0, up),
    (.ledgerScrub 0, up),
    (.clockTrim, up),
    (.faultRecordSend 0, up),
    (.traceFrameSend 0, up),
    (.receiveDiscard (fr 0x30 0 0), up),
    (.ethLinkChange 0 true, up),
    (.arpNdRequest 0 false [1, 2, 3, 4] [], up),
    (.worldUpdate (fr 0x30 0 0) 0, up),
    (.attestReq (fr 0x30 0 0) 0, up),
    (.attestRollKey (fr 0x30 0 0) 0, up),
    (.oldKeyExpiry 0, up),
    (.jobSubmitFragment (fr 0x30 0 0) 0, up),
    (.jobSweep (fr 0x30 0 0) 0, up),
    (.jobSearch (fr 0x30 0 0) 0, up),
    (.jobRefine (fr 0x30 0 0) 0, up),
    (.jobCancel (fr 0x30 0 0) 0, up),
    (.jobFragmentTimeout 0 0, up),
    (.jobStart 0 0, up),
    (.jobEnd 0 0, up),
    (.jobMaxMs 0 0, up),
    (.jobCheckpoint 0 0, up),
    (.macsecInstall own 0 0, up)] = true := by decide +kernel
theorem test_witness_FramesOfLinksAndBoot : nextOn [
    (.flitReceive 0 (flit 1 0), up),
    (.nak 0 0, up),
    (.replayTimeout 0, up),
    (.idleFlitTimer 0, up),
    (.linkRetrain 0, up),
    (.retrainTokenRetry 0, up),
    (.linkTrained 0 0, up),
    (.linkLoss 0, up),
    (.blockMessage (msg 0), up),
    (.recordMessage (msg 0), up),
    (.worldMessage (msg 0) 0, up),
    (.confirm 0 0, up),
    (.squashToken 0 0 0, up),
    (.clamp 0 0, up),
    (.clampDone 0 5 false, up),
    (.timeToken 0 0 false, up),
    (.timeTokenTimer, up),
    (.digestToken 0 0 0 0 false true 0, up),
    (.pairDigestTimeout 0, up),
    (.tenonClampCmd own, up),
    (.tenonEnumerateCmd own, up),
    (.remoteRead own 0, up),
    (.remoteWrite own 0, up),
    (.remoteResponse 0 0 0 [], up),
    (.resetNFall, up),
    (.resetNRise, up),
    (.strapCapture 0, up),
    (.bulkFetchDone 0 none, up),
    (.pushTimeout, up),
    (.configChunk (fr 0x30 0 0) 0, up),
    (.bootWarm own, up),
    (.bootCold own, up),
    (.bootRetry own, up),
    (.bootLoad own, up),
    (.enum 0 0 0 0 none, up),
    (.enumReply 0 0 0 0 [], up),
    (.imageDistribution 0 [], up),
    (.keyEnrol own, up),
    (.keyRevoke own, up),
    (.debugChallenge own, up),
    (.debugRespond own, up)] = true := by decide +kernel
theorem test_witness_FramesOfPowerAndAccess : nextOn [
    (.nap own, up),
    (.sleep own, up),
    (.sleepCancel own, up),
    (.autoEntry, up),
    (.energyDetect 0, up),
    (.anyFrameWake 0, up),
    (.wakeFrame (fr 0x30 0 0), up),
    (.wakeKnock 0, up),
    (.wakePin 0 true, up),
    (.aonAlarm, up),
    (.thermalAlarm, up),
    (.entryWindowEnd, up),
    (.wake, up),
    (.knockRepeat 0, up),
    (.wakeDone, up),
    (.leaseTick, up),
    (.idleEntry 0, up),
    (.idleWake 0, up),
    (.dozeEntry 0, up),
    (.dozeWake 0, up),
    (.throttleStepDown 0, up),
    (.throttleStepUp, up),
    (.voutSettleTimeout, up),
    (.pmbAlert 0, up),
    (.currentCalibration 0, up),
    (.hbmHot 0 0, up),
    (.railFault 1, up),
    (.aonUndervoltage, up),
    (.i2cRead, up),
    (.i2cWrite, up),
    (.epochCommit own, up),
    (.registerWrite own 0 0, up),
    (.mgmtRead (fr 0x30 0 0) 0, up),
    (.mgmtWrite (fr 0x30 0 0) 0, up),
    (.remoteRequest 0 0 false 0 1 [], up),
    (.regaccRead 0, up),
    (.regaccWrite 0 0, up),
    (.coldStart ⟨true, true, true, true, true, [], none⟩, up),
    (.warmRestartDone, up)] = true := by decide +kernel

theorem test_witness_StepRunsFrontCommand : ({} : State).pending = [] := rfl

/-- A queue with a command in it, whose step answers a next state; the stores, registers and tables of the state are in their forms. -/
def queued : State := { pending := [.tick] }

theorem test_witness_EveryStepKeepsTheStores : queued.memoryWf = true ∧ ∃ t, step queued = .next t := ⟨by decide, _, rfl⟩

theorem test_witness_EveryStepKeepsTheRegisterFile :
    (queued.registersWf = true ∧ ascends queued.cfg.shadowSet = true) ∧ ∃ t, step queued = .next t := ⟨by decide, _, rfl⟩

theorem test_witness_EveryStepKeepsTheTables : queued.tablesWf = true ∧ ∃ t, step queued = .next t := ⟨by decide, _, rfl⟩

theorem test_witness_NoStepLowersTheFloor : ∃ t, step queued = .next t := ⟨_, rfl⟩

end Sys2Proof.Machine.Tests
end

section
/-! SUPPORT. Frames of a command, one rule a state operation: a frame goes through a register write, a write of one part of the state,
the release of a token, and the access status that a command register's write leaves. -/

namespace Sys2Proof.Machine

variable {s t : State} {ps : List Part} {fs : List Field} {gs : List (Nat → Field)}

theorem Answers.of_next {c : Instr} {P : State → Prop} (hx : exec c s = .next t) (hp : P t) : Answers c s P := ⟨t, hx, hp⟩

theorem Changes.refl (s : State) (ps : List Part) (fs : List Field) (gs : List (Nat → Field)) : Changes s s ps fs gs :=
  ⟨fun p _ => by cases p <;> rfl, RegsFrame.refl s fs gs⟩

/-- A write of a listed field keeps a frame. -/
theorem Changes.set (h : Changes s t ps fs gs) {g : Field} (hg : g.key ∈ fs.map Field.key) (v : Nat) :
    Changes s (t.set g v) ps fs gs := by
  obtain ⟨hparts, hregs⟩ := h
  exact ⟨fun p hp => by cases p <;> exact hparts _ hp, hregs.set hg v⟩

theorem Part.Same.trans {u : State} {p : Part} (h : p.Same s t) (k : p.Same t u) : p.Same s u := by
  cases p <;> exact Eq.trans k h

/-- A change of one listed part that leaves the register file keeps a frame. -/
theorem Changes.part (h : Changes s t ps fs gs) {u : State} {q : Part} (hq : q ∈ ps) (hsame : ∀ p, p ≠ q → p.Same t u)
    (hregs : u.regs = t.regs) : Changes s u ps fs gs := by
  obtain ⟨hparts, hframe⟩ := h
  refine ⟨fun p hp => ?_, hframe.trans (RegsFrame.of_regs hregs)⟩
  have hpq : p ≠ q := fun e => hp (e ▸ hq)
  exact (hparts p hp).trans (hsame p hpq)

theorem Changes.setCfg (h : Changes s t ps fs gs) (hc : Part.cfg ∈ ps) (c : ConfigSt) : Changes s { t with cfg := c } ps fs gs :=
  h.part hc (hregs := rfl) fun p hp => by
    cases p with
    | cfg => exact absurd rfl hp
    | _ => rfl

theorem Changes.setFault (h : Changes s t ps fs gs) (hc : Part.fault ∈ ps) (c : FaultSt) : Changes s { t with fault := c } ps fs gs :=
  h.part hc (hregs := rfl) fun p hp => by
    cases p with
    | fault => exact absurd rfl hp
    | _ => rfl

/-- The access status that the write of a command register leaves keeps a frame that lists it. -/
theorem Changes.written (h : Changes s t ps fs gs) (ha : Part.access ∈ ps) (src : Source) (u : State) :
    Changes s (written src u t) ps fs gs :=
  h.part ha (hregs := rfl) fun p hp => by
    cases p with
    | access => exact absurd rfl hp
    | _ => rfl

/-- The release of a token keeps a frame that lists the fault part and FAULT_MAINT_HELD. -/
theorem Changes.dropToken (h : Changes s t ps fs gs) (hf : Part.fault ∈ ps) (hh : Reg.FAULT_MAINT_HELD.HELD.key ∈ fs.map Field.key)
    (k : Token) : Changes s (dropToken t k) ps fs gs := (h.setFault hf _).set hh _

theorem get_dropToken_ne {f : Field} (h : f.key ≠ Reg.FAULT_MAINT_HELD.HELD.key) (s : State) (k : Token) :
    (dropToken s k).get f = s.get f := State.get_set_ne h _ _

@[simp] theorem dropToken_tokens (s : State) (k : Token) : (dropToken s k).fault.tokens = s.fault.tokens.erase k := rfl

/-- A value that fits its field reads back as it was written. -/
theorem State.get_set_of_lt (hw : s.registersWf = true) {f : Field} {v : Nat} (hv : v < 2 ^ f.width) : (s.set f v).get f = v := by
  rw [State.get_set_self hw, Nat.mod_eq_of_lt hv]

/-- A command that only shows a result code: the code reads back, and nothing but it and the access status changes. -/
theorem written_set (hw : s.registersWf = true) {f : Field} {v : Nat} (hv : v < 2 ^ f.width) (src : Source) :
    (written src s (s.set f v)).get f = v ∧ Changes s (written src s (s.set f v)) [.access] [f] :=
  ⟨State.get_set_of_lt hw hv, ((Changes.refl s _ _ _).set (by simp) v).written (by simp) src s⟩

theorem written_access_of_owner {src : Source} (ho : s.isOwner src = true) (t : State) : (written src s t).access = 0 := by
  simp [written, ho]

end Sys2Proof.Machine
end

section
/-! PROOF. RESUME while a frame-path block is quiesced (R97), and CANCEL before and after the start of the drain frame (R92). -/

namespace Sys2Proof.Machine

variable {src : Source} {s : State}

theorem exec_resume (src : Source) (s : State) : exec (.resume src) s = .next (written src s (resumeCmd src s)) := rfl

theorem exec_switchCancel (src : Source) (s : State) : exec (.switchCancel src) s = .next (written src s (cancelCmd src s)) := rfl

theorem resumeCmd_of_pathQuiesced (ho : s.isOwner src = true) (hq : s.pathQuiesced = true) :
    resumeCmd src s = switchResult s 0xB := by
  simp [resumeCmd, ho, hq]

theorem cancelCmd_of_owner (ho : s.isOwner src = true) :
    cancelCmd src s =
      if (s.get Reg.CONFIG_SWITCH_STATUS.PHASE = 1 ∨ s.get Reg.CONFIG_SWITCH_STATUS.PHASE = 2) ∧ s.cfg.drainFor ≤ 1
      then endSwitch s 0xD else switchResult s 0xB := by
  simp [cancelCmd, ho]

/-! ## The end of a switch before its drain frame -/

theorem endSwitch_result (hw : s.registersWf = true) {r : Nat} (hr : r < 256) :
    (endSwitch s r).get Reg.CONFIG_SWITCH_STATUS.RESULT = r :=
  calc (endSwitch s r).get Reg.CONFIG_SWITCH_STATUS.RESULT
    _ = (switchPhase (switchResult s r) 0).get Reg.CONFIG_SWITCH_STATUS.RESULT := get_dropToken_ne (by decide) _ _
    _ = (switchResult s r).get Reg.CONFIG_SWITCH_STATUS.RESULT := State.get_set_ne (by decide) _ _
    _ = r := State.get_set_of_lt hw hr

theorem endSwitch_phase (hw : s.registersWf = true) (r : Nat) : (endSwitch s r).get Reg.CONFIG_SWITCH_STATUS.PHASE = 0 :=
  calc (endSwitch s r).get Reg.CONFIG_SWITCH_STATUS.PHASE
    _ = (switchPhase (switchResult s r) 0).get Reg.CONFIG_SWITCH_STATUS.PHASE := get_dropToken_ne (by decide) _ _
    _ = 0 := State.get_set_of_lt (switchResult_regs s r hw) (by decide)

theorem endSwitch_cfg (s : State) (r : Nat) :
    (endSwitch s r).cfg = { s.cfg with loading := none, next := none, nextBulk := [], drainFor := 0 } := by
  simp [endSwitch]

theorem endSwitch_tokens (s : State) (r : Nat) : (endSwitch s r).fault.tokens = s.fault.tokens.erase switchToken := by
  simp [endSwitch]

theorem endSwitch_changes (s : State) (r : Nat) : Changes s (endSwitch s r) [.cfg, .fault, .access]
    [Reg.CONFIG_SWITCH_STATUS.RESULT, Reg.CONFIG_SWITCH_STATUS.PHASE, Reg.FAULT_MAINT_HELD.HELD] := by
  have hresult := (Changes.refl s [.cfg, .fault, .access] [Reg.CONFIG_SWITCH_STATUS.RESULT, Reg.CONFIG_SWITCH_STATUS.PHASE,
    Reg.FAULT_MAINT_HELD.HELD] []).set (g := Reg.CONFIG_SWITCH_STATUS.RESULT) (by simp) r
  have hphase := hresult.set (g := Reg.CONFIG_SWITCH_STATUS.PHASE) (by simp) 0
  exact (hphase.dropToken (by simp) (by simp) switchToken).setCfg (by simp) _

/-- Settles O6: the check for a quiesced block comes before the end of the hold. -/
theorem resumeRefusedWhileQuiesced : Obligations.ResumeRefusedWhileQuiesced := by
  intro src s hw ho _ hq
  refine Answers.of_next (exec_resume src s) ?_
  rw [resumeCmd_of_pathQuiesced ho hq]
  exact written_set hw (f := Reg.CONFIG_SWITCH_STATUS.RESULT) (by decide) src

/-- Settles O7: PHASE 1 or 2 with no drain frame of another kind asked for ends the switch, PHASE 3 to 6 is refused. -/
theorem cancelEndsSwitchBeforeDrain : Obligations.CancelEndsSwitchBeforeDrain := by
  intro src s hw ho
  refine ⟨fun hphase hdrain => Answers.of_next (exec_switchCancel src s) ?_,
    fun hphase => Answers.of_next (exec_switchCancel src s) ?_⟩
  · have hbefore : cancelCmd src s = endSwitch s 0xD := by
      rw [cancelCmd_of_owner ho, if_pos ⟨by simpa using hphase, hdrain⟩]
    rw [hbefore]
    exact ⟨endSwitch_result hw (by decide), endSwitch_phase hw _, endSwitch_cfg s _, endSwitch_tokens s _,
      written_access_of_owner ho _, (endSwitch_changes s _).written (by simp) src s⟩
  · have hstarted : ¬ ((s.get Reg.CONFIG_SWITCH_STATUS.PHASE = 1 ∨ s.get Reg.CONFIG_SWITCH_STATUS.PHASE = 2) ∧ s.cfg.drainFor ≤ 1) := by
      simp only [List.mem_cons, List.not_mem_nil, or_false] at hphase
      omega
    rw [cancelCmd_of_owner ho, if_neg hstarted]
    exact written_set hw (f := Reg.CONFIG_SWITCH_STATUS.RESULT) (by decide) src

end Sys2Proof.Machine
end

section
/-! PROOF. The checks of a data block (R77). -/

namespace Sys2Proof.Machine

variable {src : Source} {v : Word} {s : State}

/-- The block at the offset of CONFIG_SLOT_WOFFSET is out of order: not aligned, or not above the previous block of the same write (R77). -/
def State.blockOutOfOrder (s : State) : Bool :=
  decide (s.get Reg.CONFIG_SLOT_WOFFSET.WOFFSET % 4096 ≠ 0) ||
    s.cfg.lastBlock.any fun p => decide (s.get Reg.CONFIG_SLOT_WOFFSET.WOFFSET ≤ p)

theorem State.blockOutOfOrder_iff : s.blockOutOfOrder = true ↔
    s.get Reg.CONFIG_SLOT_WOFFSET.WOFFSET % 4096 ≠ 0 ∨
      ∃ p, s.cfg.lastBlock = some p ∧ s.get Reg.CONFIG_SLOT_WOFFSET.WOFFSET ≤ p := by
  simp [State.blockOutOfOrder, Option.any_eq_true]

/-- The state with the last word of the write window written. -/
def State.withLastWord (s : State) (v : Word) : State :=
  { s with cfg := { s.cfg with window := sSet 0 1023 v.toNat s.cfg.window } }

theorem exec_slotDataBlock (src : Source) (v : Word) (s : State) :
    exec (.slotDataBlock src v) s = .next (written src s (slotDataBlock src v s)) := rfl

theorem slotDataBlock_of_not_writing (ho : s.isOwner src = true) (hb : s.get Reg.CONFIG_SLOT_STATUS.BUSY = 0)
    (hn : s.cfg.writing = none) : slotDataBlock src v s = slotResult s 0xB := by
  simp [slotDataBlock, ho, hb, hn]

/-- What the Owner's data block does in an open slot write with no Chest operation under way. -/
theorem slotDataBlock_of_writing (ho : s.isOwner src = true) (hb : s.get Reg.CONFIG_SLOT_STATUS.BUSY = 0)
    (hi : s.cfg.writing.isSome = true) : slotDataBlock src v s =
      if s.blockOutOfOrder then slotResult (s.withLastWord v) 4
      else if 67104768 < s.get Reg.CONFIG_SLOT_WOFFSET.WOFFSET + 4096 then slotResult (s.withLastWord v) 5
      else chestStart { s.withLastWord v with
        cfg := { (s.withLastWord v).cfg with lastBlock := some (s.get Reg.CONFIG_SLOT_WOFFSET.WOFFSET) } } 2 := by
  rw [slotDataBlock, if_neg (by simp [ho]), if_neg (by simp [hb]), if_neg (by simp [Option.isSome_iff_ne_none.mp hi])]
  refine if_congr ?_ rfl rfl
  rw [State.blockOutOfOrder_iff]
  cases hl : s.cfg.lastBlock with
  | none => simp [hl]; rfl
  | some p => simp [hl]; rfl

theorem slotDataBlock_refused (hw : s.registersWf = true) {r : Nat} (hr : r < 256)
    (hx : slotDataBlock src v s = slotResult (s.withLastWord v) r) :
    Answers (.slotDataBlock src v) s fun t => t.get Reg.CONFIG_SLOT_STATUS.RESULT = r ∧
      t.cfg = { s.cfg with window := sSet 0 1023 v.toNat s.cfg.window } ∧
      Changes s t [.cfg, .access] [Reg.CONFIG_SLOT_STATUS.RESULT] := by
  refine Answers.of_next (exec_slotDataBlock src v s) ?_
  have hframe := ((Changes.refl s [.cfg, .access] [Reg.CONFIG_SLOT_STATUS.RESULT] []).setCfg (by simp) (s.withLastWord v).cfg).set
    (g := Reg.CONFIG_SLOT_STATUS.RESULT) (by simp) r
  rw [hx]
  exact ⟨State.get_set_of_lt (s := s.withLastWord v) hw hr, rfl, hframe.written (by simp) src s⟩

theorem chestStart_busy (hw : s.registersWf = true) (k : Nat) : (chestStart s k).get Reg.CONFIG_SLOT_STATUS.BUSY = 1 :=
  State.get_set_of_lt hw (v := 1) (by decide)

theorem slotDataBlock_taken (hw : s.registersWf = true) (ho : s.isOwner src = true) (hb : s.get Reg.CONFIG_SLOT_STATUS.BUSY = 0)
    (hi : s.cfg.writing.isSome = true) (horder : ¬ s.blockOutOfOrder = true)
    (hrange : ¬ 67104768 < s.get Reg.CONFIG_SLOT_WOFFSET.WOFFSET + 4096) :
    Answers (.slotDataBlock src v) s fun t => t.get Reg.CONFIG_SLOT_STATUS.BUSY = 1 ∧
      t.cfg = { s.cfg with
        window := sSet 0 1023 v.toNat s.cfg.window, lastBlock := some (s.get Reg.CONFIG_SLOT_WOFFSET.WOFFSET), chestBusy := 2 } ∧
      Changes s t [.cfg, .access] [Reg.CONFIG_SLOT_STATUS.BUSY] := by
  refine Answers.of_next (exec_slotDataBlock src v s) ?_
  have hframe := (Changes.refl s [.cfg, .access] [Reg.CONFIG_SLOT_STATUS.BUSY] []).set (g := Reg.CONFIG_SLOT_STATUS.BUSY) (by simp) 1
  rw [slotDataBlock_of_writing ho hb hi, if_neg horder, if_neg hrange]
  exact ⟨chestStart_busy hw 2, rfl, (hframe.setCfg (by simp) _).written (by simp) src s⟩

/-- Settles O10: the checks come in the order slot write open, alignment and order, range. -/
theorem dataBlockOrderAndRange : Obligations.DataBlockOrderAndRange := by
  intro src v s hw ho hb
  refine ⟨fun hn => ?_, fun hi hbad => ?_, fun hi haligned habove => ?_⟩
  · refine Answers.of_next (exec_slotDataBlock src v s) ?_
    rw [slotDataBlock_of_not_writing ho hb hn]
    exact written_set hw (f := Reg.CONFIG_SLOT_STATUS.RESULT) (by decide) src
  · exact slotDataBlock_refused hw (by decide)
      (by rw [slotDataBlock_of_writing ho hb hi, if_pos (State.blockOutOfOrder_iff.mpr hbad)])
  · have horder : ¬ s.blockOutOfOrder = true := by
      rw [State.blockOutOfOrder_iff]
      rintro (h | ⟨p, hp, hle⟩)
      · exact h haligned
      · exact absurd (habove p hp) (by omega)
    refine ⟨fun hbeyond => ?_, fun hfits => ?_⟩
    · exact slotDataBlock_refused hw (by decide)
        (by rw [slotDataBlock_of_writing ho hb hi, if_neg horder, if_pos hbeyond])
    · exact slotDataBlock_taken hw ho hb hi horder (by omega)

end Sys2Proof.Machine
end
